-- ==== Sys2Proof/Word.lean ====
section
/-! DEFINITION.
The widths of the SK4820: a 64-bit register word, bytes, 80-bit virtual addresses (R107, R315) and 52-bit physical
addresses (R315).  A cell of memory is keyed by a plain natural number, reached from the computed address with
`toNat`.  The device is little-endian (R4). -/

namespace Sys2Proof

/-- A scalar register's width (R74). -/
abbrev Word := BitVec 64

/-- The smallest addressable unit. -/
abbrev Byte := BitVec 8

/-- A virtual address: bits [79:64] from a window or PCHI, bits [63:0] computed (R107, R315). -/
abbrev Va := BitVec 80

/-- A physical address (R315). -/
abbrev Pa := BitVec 52

/-- A slot of a bundle (R30). -/
abbrev SlotWord := BitVec 32

/-- A global cluster number, 16·d + c (R12). -/
abbrev ClusterNo := Fin 128

/-- A compute die (R11). -/
abbrev DieNo := Fin 8

/-- A permanent number that the model gives each unit placed since reset; it is no register of the machine. -/
abbrev Uid := Nat

end Sys2Proof
end

