-- ==== Sys2Proof/Config.lean ====
section
/-! DEFINITION.
The values that the manual leaves open after an instruction that runs, and the functions that it names without giving
their bits.  Each is an OPAQUE constant without a body: nothing in Lean evaluates it and no proof can see a value of
it, so a statement about it holds for every value (notes/assumptions). -/

namespace Sys2Proof.Config

/-- The n-th open 64-bit value: contents that the manual calls undefined (R225, R250), read from a fresh counter. -/
opaque freeWord : Nat → BitVec 64

/-- The n-th open byte: a byte that the manual leaves undefined, each old or new (R225). -/
opaque freeByte : Nat → BitVec 8

/-- The key pair that the boot and security firmware loads into a key slot, none where it loads none, and whether it grants
the slot to a context (R324): they are the firmware's. -/
opaque keyPair : Nat → Option (BitVec 512)
opaque keyGrant : Nat → Nat → Bool

/-- A data line under the AES-256-XTS of R324 when the key slot that wrote it differs from the key slot that reads
it: (key pair written under, key pair read under, none for plaintext; tweak pa[51:7]; line).  R324 names the cipher and gives
no bits. -/
opaque recrypt : Option (BitVec 512) → Option (BitVec 512) → Nat → BitVec 1024 → BitVec 1024

/-- The activation code of a logical row that lies outside a 2:4 stream's slab (R193, R236). -/
opaque outerCode : Nat → BitVec 8

/-- How many entries of metadata the overflow area of a die's synchronisation engine holds: the memory-management firmware
places the area and sets its size (R265). -/
opaque overflowEntries : Nat → Nat

/-- The SHAKE256 digest of inbound data (R355), which the manual names and does not spell out. -/
opaque shake256 : List (BitVec 8) → BitVec 256

/-- A byte of host memory or of an Estal peer as the n-th request finds it (R410): the outside world's own state. -/
opaque outsideByte : Nat → Nat → BitVec 8

/-- One unit in the last place of the correctly rounded EXP, LOG or ERF where the model's interval search runs out of
its fuel (R155 gives the value as a real number; the search bounds are the model's own). -/
opaque transFallback : Nat → Nat → BitVec 64 → BitVec 64

/-- The report bytes that boot core 0 signs (R421): no key and no serial number is given. -/
opaque attestationByte : Nat → Nat → BitVec 8

/-- The n-th bit vector of mean power and temperature (R422), which no rule computes. -/
opaque powerReading : Nat → BitVec 24

end Sys2Proof.Config
end

