-- ==== Sys2Proof/Syntax.lean ====
section
/-! DEFINITION.
The instructions and events of spec/opcode_table.json, one constructor per row.  A slot instruction carries the raw
fields of its 32-bit word, as its row names them (R42 to R47).  An event row has no encoding: its operands say which
unit, cluster, die, line or register it concerns. -/

namespace Sys2Proof

inductive Instr where
  -- S.RR
  | add (d : BitVec 6) (a : BitVec 6) (b : BitVec 6) (g : BitVec 3) (i : BitVec 1)
  | sub (d : BitVec 6) (a : BitVec 6) (b : BitVec 6) (g : BitVec 3) (i : BitVec 1)
  | and (d : BitVec 6) (a : BitVec 6) (b : BitVec 6) (g : BitVec 3) (i : BitVec 1)
  | or (d : BitVec 6) (a : BitVec 6) (b : BitVec 6) (g : BitVec 3) (i : BitVec 1)
  | xor (d : BitVec 6) (a : BitVec 6) (b : BitVec 6) (g : BitVec 3) (i : BitVec 1)
  | andn (d : BitVec 6) (a : BitVec 6) (b : BitVec 6) (g : BitVec 3) (i : BitVec 1)
  | shl (d : BitVec 6) (a : BitVec 6) (b : BitVec 6) (g : BitVec 3) (i : BitVec 1)
  | shr (d : BitVec 6) (a : BitVec 6) (b : BitVec 6) (g : BitVec 3) (i : BitVec 1)
  | sar (d : BitVec 6) (a : BitVec 6) (b : BitVec 6) (g : BitVec 3) (i : BitVec 1)
  | rol (d : BitVec 6) (a : BitVec 6) (b : BitVec 6) (g : BitVec 3) (i : BitVec 1)
  | mul (d : BitVec 6) (a : BitVec 6) (b : BitVec 6) (g : BitVec 3) (i : BitVec 1)
  | mulhs (d : BitVec 6) (a : BitVec 6) (b : BitVec 6) (g : BitVec 3) (i : BitVec 1)
  | mulhu (d : BitVec 6) (a : BitVec 6) (b : BitVec 6) (g : BitVec 3) (i : BitVec 1)
  | divs (d : BitVec 6) (a : BitVec 6) (b : BitVec 6) (g : BitVec 3) (i : BitVec 1)
  | divu (d : BitVec 6) (a : BitVec 6) (b : BitVec 6) (g : BitVec 3) (i : BitVec 1)
  | rems (d : BitVec 6) (a : BitVec 6) (b : BitVec 6) (g : BitVec 3) (i : BitVec 1)
  | remu (d : BitVec 6) (a : BitVec 6) (b : BitVec 6) (g : BitVec 3) (i : BitVec 1)
  | mins (d : BitVec 6) (a : BitVec 6) (b : BitVec 6) (g : BitVec 3) (i : BitVec 1)
  | minu (d : BitVec 6) (a : BitVec 6) (b : BitVec 6) (g : BitVec 3) (i : BitVec 1)
  | maxs (d : BitVec 6) (a : BitVec 6) (b : BitVec 6) (g : BitVec 3) (i : BitVec 1)
  | maxu (d : BitVec 6) (a : BitVec 6) (b : BitVec 6) (g : BitVec 3) (i : BitVec 1)
  | clz (d : BitVec 6) (a : BitVec 6) (g : BitVec 3) (i : BitVec 1)
  | ctz (d : BitVec 6) (a : BitVec 6) (g : BitVec 3) (i : BitVec 1)
  | popc (d : BitVec 6) (a : BitVec 6) (g : BitVec 3) (i : BitVec 1)
  | brev (d : BitVec 6) (a : BitVec 6) (g : BitVec 3) (i : BitVec 1)
  | bswap (d : BitVec 6) (a : BitVec 6) (g : BitVec 3) (i : BitVec 1)
  | sext (d : BitVec 6) (a : BitVec 6) (b : BitVec 6) (g : BitVec 3) (i : BitVec 1)
  | zext (d : BitVec 6) (a : BitVec 6) (b : BitVec 6) (g : BitVec 3) (i : BitVec 1)
  | sel (d : BitVec 6) (a : BitVec 6) (b : BitVec 6) (p : BitVec 3) (n : BitVec 1)
  | addw (d : BitVec 6) (a : BitVec 6) (b : BitVec 6) (g : BitVec 3) (i : BitVec 1)
  | subw (d : BitVec 6) (a : BitVec 6) (b : BitVec 6) (g : BitVec 3) (i : BitVec 1)
  | mulw (d : BitVec 6) (a : BitVec 6) (b : BitVec 6) (g : BitVec 3) (i : BitVec 1)
  | cmpeq (p : BitVec 3) (a : BitVec 6) (b : BitVec 6) (g : BitVec 3) (i : BitVec 1)
  | cmpne (p : BitVec 3) (a : BitVec 6) (b : BitVec 6) (g : BitVec 3) (i : BitVec 1)
  | cmplts (p : BitVec 3) (a : BitVec 6) (b : BitVec 6) (g : BitVec 3) (i : BitVec 1)
  | cmpltu (p : BitVec 3) (a : BitVec 6) (b : BitVec 6) (g : BitVec 3) (i : BitVec 1)
  | cmples (p : BitVec 3) (a : BitVec 6) (b : BitVec 6) (g : BitVec 3) (i : BitVec 1)
  | cmpleu (p : BitVec 3) (a : BitVec 6) (b : BitVec 6) (g : BitVec 3) (i : BitVec 1)
  | pand (p : BitVec 3) (a : BitVec 6) (b : BitVec 6) (g : BitVec 3) (i : BitVec 1)
  | por (p : BitVec 3) (a : BitVec 6) (b : BitVec 6) (g : BitVec 3) (i : BitVec 1)
  | pxor (p : BitVec 3) (a : BitVec 6) (b : BitVec 6) (g : BitVec 3) (i : BitVec 1)
  | pnot (p : BitVec 3) (a : BitVec 6) (g : BitVec 3) (i : BitVec 1)
  | movp (d : BitVec 6) (g : BitVec 3) (i : BitVec 1)
  | movtp (a : BitVec 6) (g : BitVec 3) (i : BitVec 1)
  -- S.RI
  | addi (d : BitVec 6) (a : BitVec 6) (i : BitVec 10)
  | andi (d : BitVec 6) (a : BitVec 6) (i : BitVec 10)
  | ori (d : BitVec 6) (a : BitVec 6) (i : BitVec 10)
  | xori (d : BitVec 6) (a : BitVec 6) (i : BitVec 10)
  | shli (d : BitVec 6) (a : BitVec 6) (i : BitVec 10)
  | shri (d : BitVec 6) (a : BitVec 6) (i : BitVec 10)
  | sari (d : BitVec 6) (a : BitVec 6) (i : BitVec 10)
  | muli (d : BitVec 6) (a : BitVec 6) (i : BitVec 10)
  | li (d : BitVec 6) (i : BitVec 10)
  | lix (d : BitVec 6) (a : BitVec 6) (i : BitVec 10)
  | cmpeqi (p : BitVec 3) (a : BitVec 6) (i : BitVec 10)
  | cmpltsi (p : BitVec 3) (a : BitVec 6) (i : BitVec 10)
  | cmpltui (p : BitVec 3) (a : BitVec 6) (i : BitVec 10)
  -- S.MEM
  | ldb (d : BitVec 6) (b : BitVec 6) (w : BitVec 2) (o : BitVec 10)
  | ldbu (d : BitVec 6) (b : BitVec 6) (w : BitVec 2) (o : BitVec 10)
  | ldh (d : BitVec 6) (b : BitVec 6) (w : BitVec 2) (o : BitVec 10)
  | ldhu (d : BitVec 6) (b : BitVec 6) (w : BitVec 2) (o : BitVec 10)
  | ldw (d : BitVec 6) (b : BitVec 6) (w : BitVec 2) (o : BitVec 10)
  | ldwu (d : BitVec 6) (b : BitVec 6) (w : BitVec 2) (o : BitVec 10)
  | ldd (d : BitVec 6) (b : BitVec 6) (w : BitVec 2) (o : BitVec 10)
  | stb (s : BitVec 6) (b : BitVec 6) (w : BitVec 2) (o : BitVec 10)
  | sth (s : BitVec 6) (b : BitVec 6) (w : BitVec 2) (o : BitVec 10)
  | stw (s : BitVec 6) (b : BitVec 6) (w : BitVec 2) (o : BitVec 10)
  | std (s : BitVec 6) (b : BitVec 6) (w : BitVec 2) (o : BitVec 10)
  | ldro (d : BitVec 6) (b : BitVec 6) (w : BitVec 2) (o : BitVec 10)
  | ldacq (d : BitVec 6) (b : BitVec 6) (w : BitVec 2) (c : BitVec 2) (o : BitVec 8)
  | strel (s : BitVec 6) (b : BitVec 6) (w : BitVec 2) (c : BitVec 2) (o : BitVec 8)
  | pfl2 (b : BitVec 6) (w : BitVec 2) (o : BitVec 10)
  -- S.CTL
  | br (p : BitVec 3) (i : BitVec 1) (d : BitVec 20)
  | brn (p : BitVec 3) (i : BitVec 1) (d : BitVec 20)
  | call (p : BitVec 3) (i : BitVec 1) (d : BitVec 20)
  | jr (p : BitVec 3) (i : BitVec 1) (t : BitVec 6)
  | callr (p : BitVec 3) (i : BitVec 1) (t : BitVec 6)
  | loop (l : BitVec 1) (c : BitVec 6) (n : BitVec 13)
  | loopi (l : BitVec 1) (c : BitVec 9) (n : BitVec 10)
  | endseg
  | halt
  | stgp (p : BitVec 8)
  | trap (p : BitVec 3) (i : BitVec 1) (c : BitVec 8)
  | brk (t : BitVec 20)
  | nops (n : BitVec 20)
  -- NOP
  | nop
  -- V.FP
  | vadd (d : BitVec 8) (a : BitVec 8) (b : BitVec 8)
  | vsub (d : BitVec 8) (a : BitVec 8) (b : BitVec 8)
  | vmul (d : BitVec 8) (a : BitVec 8) (b : BitVec 8)
  | vfma (d : BitVec 8) (a : BitVec 8) (b : BitVec 8)
  | vfms (d : BitVec 8) (a : BitVec 8) (b : BitVec 8)
  | vdiv (d : BitVec 8) (a : BitVec 8) (b : BitVec 8)
  | vsqrt (d : BitVec 8) (a : BitVec 8)
  | vmin (d : BitVec 8) (a : BitVec 8) (b : BitVec 8)
  | vmax (d : BitVec 8) (a : BitVec 8) (b : BitVec 8)
  | vcmpeq (d : BitVec 8) (a : BitVec 8) (b : BitVec 8)
  | vcmplt (d : BitVec 8) (a : BitVec 8) (b : BitVec 8)
  | vcmple (d : BitVec 8) (a : BitVec 8) (b : BitVec 8)
  | vabs (d : BitVec 8) (a : BitVec 8)
  | vneg (d : BitVec 8) (a : BitVec 8)
  | vsel (d : BitVec 8) (a : BitVec 8) (b : BitVec 8)
  | vclass (d : BitVec 8) (a : BitVec 8)
  -- V.FP64
  | vaddF64 (d : BitVec 8) (a : BitVec 8) (b : BitVec 8)
  | vsubF64 (d : BitVec 8) (a : BitVec 8) (b : BitVec 8)
  | vmulF64 (d : BitVec 8) (a : BitVec 8) (b : BitVec 8)
  | vfmaF64 (d : BitVec 8) (a : BitVec 8) (b : BitVec 8)
  | vfmsF64 (d : BitVec 8) (a : BitVec 8) (b : BitVec 8)
  | vdivF64 (d : BitVec 8) (a : BitVec 8) (b : BitVec 8)
  | vsqrtF64 (d : BitVec 8) (a : BitVec 8)
  | vminF64 (d : BitVec 8) (a : BitVec 8) (b : BitVec 8)
  | vmaxF64 (d : BitVec 8) (a : BitVec 8) (b : BitVec 8)
  | vcmpeqF64 (d : BitVec 8) (a : BitVec 8) (b : BitVec 8)
  | vcmpltF64 (d : BitVec 8) (a : BitVec 8) (b : BitVec 8)
  | vcmpleF64 (d : BitVec 8) (a : BitVec 8) (b : BitVec 8)
  | vabsF64 (d : BitVec 8) (a : BitVec 8)
  | vnegF64 (d : BitVec 8) (a : BitVec 8)
  | vselF64 (d : BitVec 8) (a : BitVec 8) (b : BitVec 8)
  | vclassF64 (d : BitVec 8) (a : BitVec 8)
  -- V.INT
  | viadd (d : BitVec 8) (a : BitVec 8) (b : BitVec 8)
  | visub (d : BitVec 8) (a : BitVec 8) (b : BitVec 8)
  | vimul (d : BitVec 8) (a : BitVec 8) (b : BitVec 8)
  | vimad (d : BitVec 8) (a : BitVec 8) (b : BitVec 8)
  | vand (d : BitVec 8) (a : BitVec 8) (b : BitVec 8)
  | vor (d : BitVec 8) (a : BitVec 8) (b : BitVec 8)
  | vxor (d : BitVec 8) (a : BitVec 8) (b : BitVec 8)
  | vshl (d : BitVec 8) (a : BitVec 8) (b : BitVec 8)
  | vshr (d : BitVec 8) (a : BitVec 8) (b : BitVec 8)
  | vsar (d : BitVec 8) (a : BitVec 8) (b : BitVec 8)
  | vimin (d : BitVec 8) (a : BitVec 8) (b : BitVec 8)
  | vimax (d : BitVec 8) (a : BitVec 8) (b : BitVec 8)
  | vicmpeq (d : BitVec 8) (a : BitVec 8) (b : BitVec 8)
  | vicmplt (d : BitVec 8) (a : BitVec 8) (b : BitVec 8)
  | viadds (d : BitVec 8) (a : BitVec 8) (b : BitVec 8)
  | vperm (d : BitVec 8) (a : BitVec 8) (b : BitVec 8)
  -- V.XFER
  | vmov (d : BitVec 8) (a : BitVec 8)
  | vbcst (d : BitVec 8) (w : BitVec 8)
  | vcvt (d : BitVec 8) (a : BitVec 8) (c : BitVec 8)
  | vtrans (d : BitVec 8) (a : BitVec 8) (p : BitVec 1) (f : BitVec 2)
  | vred (d : BitVec 8) (a : BitVec 8) (c : BitVec 3)
  | vldt (d : BitVec 8) (a : BitVec 6) (k : BitVec 8)
  | vstt (s : BitVec 8) (a : BitVec 6) (k : BitVec 8)
  | vldg (d : BitVec 8) (a : BitVec 6) (w : BitVec 2) (o : BitVec 6)
  | vstg (s : BitVec 8) (a : BitVec 6) (w : BitVec 2) (o : BitVec 6)
  | vqrd (d : BitVec 8) (n : BitVec 3)
  | vpop (d : BitVec 8) (h : BitVec 6)
  | vpush (s : BitVec 8) (h : BitVec 6)
  | vext (a : BitVec 8) (m : BitVec 2) (k : BitVec 4)
  | viota (d : BitVec 8) (i : BitVec 8)
  | vsplat (d : BitVec 8) (a : BitVec 8) (p : BitVec 1) (k : BitVec 4)
  -- A.CMD
  | awld (s : BitVec 1)
  | astrm (o : BitVec 1) (i : BitVec 1) (e : BitVec 1)
  | aext (n : BitVec 4)
  | achk (s : BitVec 1) (p : BitVec 3)
  | aout (w : BitVec 1)
  | aclr (k : BitVec 1) (l : BitVec 1) (g : BitVec 1) (a : BitVec 1)
  | asnap (s : BitVec 2) (d : BitVec 6)
  | await (k : BitVec 5) (c : BitVec 2)
  -- A.CFG
  | asetl (k : BitVec 5)
  | aseed (c : BitVec 1) (r : BitVec 1) (s : BitVec 16)
  | amode (n : BitVec 1) (s : BitVec 1) (m : BitVec 2)
  | agen (p : BitVec 2)
  | azone (e : BitVec 8) (a : BitVec 1) (z : BitVec 3)
  -- C.CMD
  | cpy (e : BitVec 1) (t : BitVec 4) (b : BitVec 1) (f : BitVec 1) (k : BitVec 2)
  | cpyo (e : BitVec 1) (t : BitVec 4) (b : BitVec 1) (f : BitVec 1) (s : BitVec 2)
  | cpyt (e : BitVec 1) (t : BitVec 4) (b : BitVec 1) (f : BitVec 1)
  | gath (e : BitVec 1) (t : BitVec 4) (b : BitVec 1) (f : BitVec 1) (i : BitVec 8)
  | scat (e : BitVec 1) (t : BitVec 4) (b : BitVec 1) (f : BitVec 1) (i : BitVec 8)
  | bpf (e : BitVec 1) (t : BitVec 4)
  | qcvt (e : BitVec 1) (t : BitVec 4) (b : BitVec 1) (f : BitVec 1) (s : BitVec 2) (k : BitVec 2)
  | dqcvt (e : BitVec 1) (t : BitVec 4) (b : BitVec 1) (f : BitVec 1) (s : BitVec 2) (k : BitVec 2)
  | nmpk (e : BitVec 1) (t : BitVec 4) (b : BitVec 1) (f : BitVec 1) (s : BitVec 2) (k : BitVec 2)
  | nmup (e : BitVec 1) (t : BitVec 4) (b : BitVec 1) (f : BitVec 1) (s : BitVec 2) (k : BitVec 2)
  | publ (e : BitVec 1) (t : BitVec 4) (b : BitVec 1) (f : BitVec 1) (x : BitVec 1)
  | qbnd (e : BitVec 1) (u : BitVec 1) (d : BitVec 1) (n : BitVec 3)
  | twait (e : BitVec 1) (m : BitVec 16)
  | cfol (e : BitVec 1) (t : BitVec 4)
  | cabt (e : BitVec 1) (m : BitVec 16)
  | xpose (e : BitVec 1) (t : BitVec 4) (b : BitVec 1) (f : BitVec 1) (s : BitVec 2) (k : BitVec 2) (eb : BitVec 2)
  -- Y.SYNC
  | aadd (d : BitVec 6) (a : BitVec 6) (b : BitVec 6) (c : BitVec 2) (o : BitVec 2) (w : BitVec 1)
  | aand (d : BitVec 6) (a : BitVec 6) (b : BitVec 6) (c : BitVec 2) (o : BitVec 2) (w : BitVec 1)
  | aor (d : BitVec 6) (a : BitVec 6) (b : BitVec 6) (c : BitVec 2) (o : BitVec 2) (w : BitVec 1)
  | axor (d : BitVec 6) (a : BitVec 6) (b : BitVec 6) (c : BitVec 2) (o : BitVec 2) (w : BitVec 1)
  | amins (d : BitVec 6) (a : BitVec 6) (b : BitVec 6) (c : BitVec 2) (o : BitVec 2) (w : BitVec 1)
  | aminu (d : BitVec 6) (a : BitVec 6) (b : BitVec 6) (c : BitVec 2) (o : BitVec 2) (w : BitVec 1)
  | amaxs (d : BitVec 6) (a : BitVec 6) (b : BitVec 6) (c : BitVec 2) (o : BitVec 2) (w : BitVec 1)
  | amaxu (d : BitVec 6) (a : BitVec 6) (b : BitVec 6) (c : BitVec 2) (o : BitVec 2) (w : BitVec 1)
  | axchg (d : BitVec 6) (a : BitVec 6) (b : BitVec 6) (c : BitVec 2) (o : BitVec 2) (w : BitVec 1)
  | acas (d : BitVec 6) (a : BitVec 6) (b : BitVec 6) (c : BitVec 2) (o : BitVec 2) (w : BitVec 1)
  | afadd32 (d : BitVec 6) (a : BitVec 6) (b : BitVec 6) (c : BitVec 2) (o : BitVec 2)
  | afadd64 (d : BitVec 6) (a : BitVec 6) (b : BitVec 6) (c : BitVec 2) (o : BitVec 2)
  | barinit (a : BitVec 6) (b : BitVec 6) (c : BitVec 2) (o : BitVec 2)
  | barrive (d : BitVec 6) (a : BitVec 6) (c : BitVec 2) (o : BitVec 2)
  | barriveJoin (d : BitVec 6) (a : BitVec 6) (c : BitVec 2) (o : BitVec 2)
  | barwait (d : BitVec 6) (a : BitVec 6) (b : BitVec 6) (c : BitVec 2) (o : BitVec 2)
  | baraw (d : BitVec 6) (a : BitVec 6) (c : BitVec 2) (o : BitVec 2)
  | fence (c : BitVec 2) (o : BitVec 2)
  | ared (n : BitVec 6) (a : BitVec 6) (b : BitVec 6) (c : BitVec 2) (o : BitVec 2) (w : BitVec 1)
  | syncq (d : BitVec 6) (a : BitVec 6) (c : BitVec 2) (o : BitVec 2)
  -- K.SYS
  | csrr (d : BitVec 6) (c : BitVec 10)
  | csrw (d : BitVec 6) (a : BitVec 6) (c : BitVec 10)
  | csrs (d : BitVec 6) (a : BitVec 6) (c : BitVec 10)
  | csrc (d : BitVec 6) (a : BitVec 6) (c : BitVec 10)
  | talloc (a : BitVec 6) (h : BitVec 8)
  | tfree (h : BitVec 8)
  | bankacq (a : BitVec 6) (p : BitVec 2)
  | bankrel (a : BitVec 6) (p : BitVec 2)
  | ringadv (a : BitVec 6) (t : BitVec 1) (n : BitVec 9)
  | ringcnt (d : BitVec 6) (a : BitVec 6)
  | stgw (a : BitVec 6) (p : BitVec 2) (r : BitVec 4)
  | stgr (d : BitVec 6) (p : BitVec 2) (r : BitVec 4)
  | valsetArr (b : BitVec 6) (w : BitVec 2)
  | valset (v : BitVec 6) (b : BitVec 6) (k : BitVec 5) (n : BitVec 1) (e : BitVec 1) (w : BitVec 2)
  | frd (d : BitVec 6) (s : BitVec 6) (k : BitVec 2)
  | fwr (v : BitVec 6) (s : BitVec 6) (k : BitVec 2)
  | fresume (d : BitVec 6) (k : BitVec 2)
  | fkill (k : BitVec 2)
  | farrive (d : BitVec 6) (a : BitVec 6) (c : BitVec 2) (w : BitVec 2) (k : BitVec 2)
  | fnext (d : BitVec 6) (k : BitVec 2)
  | fstep (d : BitVec 6) (k : BitVec 2)
  | curtdone
  | rbseed (h : BitVec 6) (l : BitVec 6)
  | repmark (a : BitVec 6) (t : BitVec 10)
  | l1flush (c : BitVec 2)
  | l1inv (c : BitVec 2)
  | tlbiAll (d : BitVec 6)
  | tlbiRange (d : BitVec 6) (a : BitVec 6)
  | capdrop (k : BitVec 2)
  -- events
  | fwrAdvance (u : Uid)
  | fwrAbandonCommand (u : Uid) (e : BitVec 1) (t : BitVec 4)
  | fwrCancelPending (u : Uid) (n : Nat)
  | annulledBundleIssue (u : Uid)
  | pendingWriteVisible (u : Uid) (n : Nat)
  | loadDataArrival (u : Uid) (req : Nat)
  | holdLineRaise (u : Uid)
  | afterIssueFreeze (u : Uid)
  | dieLostFreeze (u : Uid) (d : DieNo)
  | prompterFaultPolicy (u : Uid)
  | restartableReexecution (u : Uid) (c : ClusterNo)
  | preemptionRequest (c : ClusterNo)
  | preemptPark (u : Uid)
  | segmentSwitch (c : ClusterNo)
  | unitStart (u : Uid)
  | wingsLoad (l : Nat) (c : ClusterNo)
  | wingsSwap (c : ClusterNo)
  | weightClearDone (c : ClusterNo)
  | rbStep (u : Uid)
  | l1OpComplete (c : ClusterNo)
  | copyCommandStart (c : ClusterNo) (e : BitVec 1)
  | copyCommandComplete (c : ClusterNo) (e : BitVec 1)
  | streamSlabTransfer (c : ClusterNo) (e : BitVec 1)
  | copyEngineFault (c : ClusterNo) (e : BitVec 1) (code : BitVec 8) (addr : Va)
  | publCount (c : ClusterNo) (e : BitVec 1)
  | flipNotice (b : Nat) (d : DieNo)
  | flipNoticeAck (b : Nat) (d : DieNo)
  | valsetPerform (n : Nat)
  | arrayCommandStart (c : ClusterNo)
  | awldComplete (c : ClusterNo)
  | vectorLatch (c : ClusterNo)
  | checkpointCopy (c : ClusterNo)
  | emitPublish (c : ClusterNo)
  | aoutPublish (c : ClusterNo)
  | aclrComplete (c : ClusterNo)
  | chainPartialSums (c : ClusterNo)
  | chainEnd (c : ClusterNo)
  | streamPoison (c : ClusterNo) (row : BitVec 16) (col : BitVec 16) (inSet : Bool)
  | syncEngineOperation (d : DieNo)
  | syncReply (d : DieNo)
  | retryReceived (d : DieNo)
  | pageMigration (asid : BitVec 16) (va : Va) (frame : Nat)
  | bufferRegistration (asid : BitVec 16) (hbase : Nat) (pages : Nat) (phys0 : Nat) (phys1 : Nat)
  | gets (d : DieNo) (line : Nat)
  | getm (d : DieNo) (line : Nat)
  | upg (d : DieNo) (line : Nat)
  | putm (d : DieNo) (line : Nat)
  | puto (d : DieNo) (line : Nat)
  | pute (d : DieNo) (line : Nat)
  | puts (d : DieNo) (line : Nat)
  | dataS (d : DieNo) (line : Nat)
  | dataE (d : DieNo) (line : Nat)
  | dataM (d : DieNo) (line : Nat)
  | datanf (d : DieNo) (line : Nat)
  | upgack (d : DieNo) (line : Nat)
  | inv (d : DieNo) (line : Nat)
  | fwdgets (d : DieNo) (line : Nat)
  | fwdgetsnf (d : DieNo) (line : Nat)
  | fwdgetm (d : DieNo) (line : Nat)
  | fwddata (d : DieNo) (line : Nat)
  | invack (d : DieNo) (line : Nat)
  | fwdack (d : DieNo) (line : Nat)
  | putack (d : DieNo) (line : Nat)
  | putackstale (d : DieNo) (line : Nat)
  | push (d : DieNo) (line : Nat)
  | rdset (d : DieNo) (line : Nat)
  | rdinv (d : DieNo) (line : Nat)
  | rdack (d : DieNo) (line : Nat)
  | memoryFill (line : Nat)
  | redirectedRead (d : DieNo) (line : Nat)
  | circuitSend (d : DieNo)
  | snoopTimerExpiry (d : DieNo)
  | linkTrainingComplete (d : DieNo)
  | linkTrainFail (d : DieNo)
  | translationWalk (asid : BitVec 16) (va : Va) (write : Bool) (c : ClusterNo)
  | walkComplete (id : Nat)
  | replayEventDelivery (u : Uid) (kind : BitVec 2)
  | gaddrWrite (asid : BitVec 16) (g : Fin 64) (v : Word)
  | cue (asid : BitVec 16) (g : Fin 64)
  | transformDispatch (c : ClusterNo)
  | phaseBoundaryRelease (g : Fin 64)
  | launchReleaseDone (l : Nat)
  | completionTarget (l : Nat)
  | cancelUnit (asid : BitVec 16) (serial : BitVec 32) (n : BitVec 16)
  | cancelLaunch (asid : BitVec 16) (serial : BitVec 32)
  | cancelGraph (asid : BitVec 16) (g : Fin 64)
  | cancelPhase (asid : BitVec 16) (phase : BitVec 16)
  | cancelJob (asid : BitVec 16)
  | budgetPeriodStart (r : Fin 19)
  | deadlineStrike (l : Nat)
  | curtainMessage (l : Nat) (c : ClusterNo)
  | diversion (u : Uid)
  | curtainNoentComplete (u : Uid)
  | curtainOverrun (u : Uid)
  | ptpMessage (offset : Int) (arb : Bool)
  | ppsInput
  | ptmResponse (time : Nat)
  | holdoverEntry
  | tkset (v : Word)
  | tktaisRead
  | inboundWrite (bar : BitVec 3) (addr : Nat) (data : List Byte) (ro ido ep : Bool) (requester : Nat)
  | routeRelease (id : Nat) (n : Nat)
  | routeAck (id : Nat) (n : Nat)
  | inboundRead (bar : BitVec 3) (addr : Nat) (len : Nat) (ro : Bool) (requester : Nat)
  | inboundReadRelease (id : Nat)
  | apctlWrite (v : Word)
  | xctlWrite (v : Word)
  | outboundLoadTimeout (req : Nat)
  | hostLinkDown
  | estalPortTrained (p : Fin 16) (gen2 x4 : Bool) (peer : BitVec 10)
  | estalPortStatusWrite (p : Fin 16) (v : Word)
  | moduleReset
  | mreset (v : Word)
  | attestationGo (v : Word)
  | attestationDone
  | powerThrottle (on : Bool)
  | thermalTrip
  | powerStageFault
  | registerWrite (off : Option (BitVec 20)) (v : Word)
  | hubDieFault
  | estalLinkDown (p : Fin 16) (lanes : Bool)
  | hostPortTrained
  | pushAcknowledgement (d : DieNo) (line : Nat)
  | memoryWriteDone (line : Nat)
  | shootDown (id : Nat) (d : DieNo)
  | shootDownAck (id : Nat) (d : DieNo)
  | outboundWriteAck (u : Uid) (dest : Nat)
  | ideFailure
  | correctableError
  | flitRetry (p : Fin 16)
  | pctlWrite (asid : BitVec 16) (v : Word)
  deriving DecidableEq, Repr

end Sys2Proof
end

