-- ==== Sys2Proof/Machine/State.lean ====
section
/-! DEFINITION.
Everything the specification gives the SK4820: the state each unit keeps (R28, R74), each cluster (R15), each compute
die (R11), the hub with its directory, walker, front end, timekeeper, host port and module registers, and LPDDR6.
INVENTORY.md lists every piece with its rule and its value at reset.  All of it is plain data. -/

namespace Sys2Proof.Machine

/-! ### The reasons a step can stop -/

/-- Why a step stops without a next state. -/
inductive Fault where
  /-- A slot instruction is executed in a state where `issue.me` names no unit: no unit issues it (R18), so nothing
  could run it.  Raised by the shared `runSlot`; SAFE (the hardware has no such case: a slot always has a unit). -/
  | noUnit
  deriving DecidableEq, Repr

/-- Why the model gives an instruction no meaning. -/
inductive Refusal where
  /-- The arm of `exec` for this mnemonic has no meaning yet; SAFE. -/
  | notModelled (mnemonic : String)
  deriving DecidableEq, Repr

/-! ### A unit's registers and pending writes (R74, R79) -/

/-- What a pending write will change (R79, R346). -/
inductive Dest where
  | scalar (r : BitVec 6)
  | pred (i : BitVec 3)
  | stage (i : BitVec 3)
  | tile (t : BitVec 3) (dir : BitVec 2) (index : BitVec 4)
  | csr (n : BitVec 10)
  deriving DecidableEq, Repr

/-- What a load reads again once an acquire that stands before it in its own bundle is performed (R121): the bytes, the key
slot and hints of their page, and what it makes of them. -/
structure Reread where
  pa : Nat
  n : Nat
  key : BitVec 8
  rfloor : BitVec 3
  rceil : BitVec 3
  signed : Bool
  vector : Bool
  /-- An LDRO, which reads through the read-only cache. -/
  ro : Bool
  deriving DecidableEq, Repr

/-- The memory side of a pending entry whose data is still to land (R111). -/
structure LoadInfo where
  /-- Number of the request, by which its data or its reply finds the entry. -/
  req : Nat
  /-- The address for POISON (R113). -/
  va : Va
  /-- Core cycles until the data arrives; `none` where only an event brings it (R112). -/
  arrive : Option Nat
  /-- The data comes with an uncorrectable error (R113). -/
  poison : Bool
  /-- A synchronisation engine answers it (R270). -/
  sync : Bool
  /-- The load stands behind an acquire of its own bundle, and its data comes after it (R121). -/
  reread : Option Reread
  deriving DecidableEq, Repr

/-- One entry of the pending-write record (R79). -/
structure PEntry where
  dest : Dest
  value : BitVec 512
  awaited : Bool
  flags : BitVec 5
  bundle : BitVec 64
  slot : BitVec 2
  m : Nat
  load : Option LoadInfo
  /-- A BARAW's status entry, which is discarded when the bundle after it is diverted (R282). -/
  baraw : Bool
  deriving DecidableEq, Repr

/-- Scalar, predicate, stage-predicate registers and tiles (R28, R74, R133).  Element (r, c) of a tile is bits
[32·(16·r + c) + 31 : 32·(16·r + c)] of its 8192. -/
structure Regs where
  s : Vector Word 64
  p : BitVec 8
  ps : BitVec 8
  tiles : Vector (BitVec 8192) 8
  deriving DecidableEq, Repr

/-- The CSRs kept per unit (R76) and the queue of the random-bit generator (R162): the queue holds the words taken
ahead, and RBSEED0/1 read as the state after the last word taken. -/
structure Csrs where
  flags : BitVec 5
  fte : BitVec 5
  rmode : BitVec 3
  check : BitVec 2
  land : BitVec 8
  holdc : Word
  portc : Word
  wb : Vector (BitVec 16) 4
  rbseed0 : Word
  rbseed1 : Word
  rbqueue : Nat
  deriving DecidableEq, Repr

/-- CURT and the reach window (R392, R398). -/
structure Curt where
  struck : Bool
  inentry : Bool
  point : BitVec 2
  stopped : Bool
  budget : BitVec 25
  /-- Unheld cycles left of the reach window (R392); `none` before the message. -/
  window : Option Nat
  deriving DecidableEq, Repr

/-- One loop level (R74). -/
structure LoopSt where
  start : BitVec 64
  stop : BitVec 64
  e : BitVec 3
  drain : BitVec 3
  initps : BitVec 8
  active : Bool
  cleared : Bool
  deriving DecidableEq, Repr

/-- An entry of the PC chain: its address, its annul bit, where the loop engine produced it by `loop_successor` the
address it succeeds, so that the engine can rewrite it (R97), and whether a taken BR, BRN or JR produced it, which may
end loop levels when it issues (R98). -/
structure ChainEntry where
  addr : BitVec 64
  ann : Bool
  src : Option (BitVec 64)
  jump : Bool
  deriving DecidableEq, Repr

/-- Where a bundle's transfer goes (R89). -/
structure Xfer where
  target : BitVec 64
  taken : Bool
  brn : Bool
  call : Bool
  deriving DecidableEq, Repr

/-- A unit's control state (R74, R89, R95). -/
structure Flow where
  pc : ChainEntry
  npc : ChainEntry
  nnpc : ChainEntry
  pchi : BitVec 16
  lc : Vector (BitVec 32) 2
  loops : Vector LoopSt 2
  /-- Bundles of a zero-trip body still to be traversed annulled (R95). -/
  skip : Nat
  /-- The bundle that issued last: an iteration boundary lies between the issues of END and START (R96). -/
  last : Option (BitVec 64)
  deriving DecidableEq, Repr

/-! ### Handles and rings (R196, R201) -/

/-- A claim on a ring counter: who holds it, how many slabs, whether it has finished (R201). -/
structure Claim where
  id : Nat
  n : Nat
  done : Bool
  deriving DecidableEq, Repr

/-- A tile-table entry: the descriptor of R196 and the ring counters and unpublished claims of R201. -/
structure Handle where
  h : BitVec 8
  desc : BitVec 64
  hp : BitVec 32
  hc : BitVec 32
  tp : BitVec 32
  tc : BitVec 32
  heads : List Claim
  tails : List Claim
  /-- The unit and handle that the wings map this ring into on another core of the die (R292). -/
  peer : Option (Uid × BitVec 8)
  deriving DecidableEq, Repr

/-- A stream register's binding (R204): the ring handle and the direction (true: out). -/
structure QBind where
  h : BitVec 8
  out : Bool
  deriving DecidableEq, Repr

/-- One entry of the barrier membership table (R279): the barrier granule and the phase of the last arrival. -/
structure Member where
  va : Va
  pa : Nat
  phase : Option (BitVec 15)
  deriving DecidableEq, Repr

/-! ### Running, freezing and completing (R335, R337) -/

/-- How a unit completed (R337). -/
inductive EndStatus where
  | halted | curtain | killed | lost
  deriving DecidableEq, Repr

/-- A unit's status (R337); `stopped` is a prompter whose fault was escalated and whose policy is still to be applied
or is HOLD (R342), and `unplaced` is a unit whose running-order entry is not yet made (R376). -/
inductive Status where
  | running | parked | frozenFree | prompterWait | frozenHeld
  | complete (e : EndStatus) | stopped | unplaced
  deriving DecidableEq, Repr

/-- What a bundle waits for at issue (R242, R282, R425), stays unissued for while its unit's time runs on (R62, R103, R111,
R159), or holds for (R111, R113, R422). -/
inductive WaitKind where
  | array | sync | ring | token | queueSlot | bank | drainHalt | releaseHalt
  | room | landing | walk | l1op | acquire | fence | shootdown | recorder | linkWake | budget | random | interval | power
  deriving DecidableEq, Repr

/-- The source of a fault (R346, class 0x00 index 3). -/
inductive FaultSource where
  | core
  | copy (engine : BitVec 1) (token : BitVec 4)
  | array (tag : BitVec 4)
  | sync
  deriving DecidableEq, Repr

/-- A fault and its freeze record fields (R36, R335, R345). -/
structure FaultRec where
  code : BitVec 8
  addr : Va
  mask : BitVec 4
  after : Bool
  source : FaultSource
  slot : BitVec 2
  bundle : BitVec 64
  deriving DecidableEq, Repr

/-- The running side of a unit: status, generation, time bookkeeping, faults due at its next bundle boundary. -/
structure RunSt where
  status : Status
  gen : BitVec 16
  bundles : Nat
  /-- Unheld cycles before the next bundle may issue (STALL, NOPS, R159). -/
  gap : Nat
  /-- Unheld cycles of the current segment (R379). -/
  segCycles : Nat
  segIndex : Nat
  started : Bool
  /-- The bundle that is waiting or holding at issue, if one is. -/
  wait : Option WaitKind
  /-- Faults found after issue, oldest first (R34). -/
  due : List FaultRec
  /-- The freeze record, while frozen. -/
  record : Option FaultRec
  dieLost : Bool
  /-- The die whose loss was noted last (R336, R348). -/
  lostAt : DieNo
  curtFrozen : Bool
  frozenAt : Nat
  /-- The core has been asked to pre-empt this unit (R379). -/
  preempt : Bool
  /-- A drain is under way at this loop level, for a park or a diversion (R102). -/
  drainLevel : Option (Fin 2)
  /-- ENDSEG issued: park at the next bundle boundary (R100). -/
  endSeg : Bool
  /-- FSTEP: freeze again after one bundle; the stepping prompter (R349). -/
  stepFor : Option Uid
  stepSd : BitVec 6
  stepKc : BitVec 2
  /-- Bundles issued when the step began. -/
  stepFrom : Nat
  /-- R132: the next bundle is not checked against the watch ranges. -/
  watchFree : Bool
  publIssued : Bool
  /-- The point at which a pre-emption parked the unit, until its segment runs on (R101, R389). -/
  parkPoint : Option (BitVec 2)
  /-- The entry of the running order in which a prompter's segment runs (R338, R341). -/
  inEntry : Option Uid
  /-- VTRANS pipelines: unheld cycles until each vector unit accepts one (R159). -/
  vtrans : Vector Nat 2
  /-- The serialisation or check-pass cycles still to stand still before the waiting bundle issues (R35, R64). -/
  standing : Nat
  stood : Bool
  deriving DecidableEq, Repr

/-- What identifies a unit (R76 UNITID, R362). -/
structure UnitId where
  launch : Option Nat
  index : BitVec 16
  asid : BitVec 16
  cluster : ClusterNo
  /-- The pool slot of a prompter (R338). -/
  prompt : Option (BitVec 6)
  restart : Bool
  instances : Nat
  /-- The frozen unit in whose entry a prompter started (R338, R341). -/
  serves : Option Uid
  deriving DecidableEq, Repr

/-- Watch registers and views (R130, R127). -/
structure UnitMem where
  wcha : Vector Word 2
  wchc : Vector Word 2
  tbl : List Handle
  q : Vector (Option QBind) 8
  /-- Start banks of the wings, still to be acquired (R365). -/
  tbank : BitVec 64
  cbank : BitVec 32
  lbank : BitVec 32
  /-- Viewed version of each two-version buffer that flipped since the view was taken: (buffer, version) (R127). -/
  views : List (Nat × Bool)
  /-- A release at device scope for HALT or CURTDONE is under way or done (R128). -/
  haltRel : Option Bool
  deriving DecidableEq, Repr

/-- Engine registers of a unit (R205, R211, R246, R343). -/
structure UnitEng where
  cg : Vector (Vector Word 16) 2
  tok : Vector (BitVec 16) 2
  kc : Vector Word 4
  arrayTag : BitVec 4
  deriving DecidableEq, Repr

/-! ### Requests to the synchronisation engines (R266) -/

/-- What a request asks of an engine: a Y.SYNC operation by its OP5 (R53), one of R287's other accesses, or
a unit's registration as a waiter again after a park (R282). -/
inductive SyncKind where
  | op (op5 : BitVec 5)
  | load
  | store
  | copyRead
  | lostArrival
  | copyArrival
  | farrive
  | rewait
  deriving DecidableEq, Repr

/-- A request to a synchronisation engine (R266). -/
structure SyncReq where
  id : Nat
  /-- The unit that issued it and gets its reply, and the unit it is made for, which differ for FARRIVE (R351). -/
  uid : Uid
  who : Uid
  die : DieNo
  pa : Nat
  va : Va
  key : BitVec 8
  kind : SyncKind
  width : BitVec 1
  join : Bool
  x : BitVec 512
  cmp : Word
  /-- ARED: operation; elements and elements done of an ARED, a VLDG or a VSTG (R264, R274, R275). -/
  rop : BitVec 4
  n : Nat
  done : Nat
  /-- The pending entry that the reply fills is found by `id`; `posted` when there is none. -/
  posted : Bool
  size : Nat
  signed : Bool
  bundle : BitVec 64
  slot : BitVec 2
  acquire : Bool
  scope : BitVec 2
  /-- The engine and token of a bound copy's arrival (R226). -/
  copyEng : Option (BitVec 1)
  /-- The core cycle of its issue (R266). -/
  born : Nat
  /-- Its unit is in the wait that it begins, and is registered as a waiter where the phase has not ended (R282). -/
  waits : Bool
  deriving DecidableEq, Repr

/-- Barrier state of a unit (R279, R282). -/
structure UnitSync where
  members : List Member
  /-- The bundle after a BARAW is in a sync wait, and the request that ends it. -/
  barawReq : Option SyncReq
  /-- A BARWAIT bundle's request and its reply. -/
  barwaitReq : Option SyncReq
  barwaitReply : Option Word
  /-- The bundle whose BARWAIT has ended with POISON: it issues without repeating the operation (R284). -/
  barwaitDone : Option (BitVec 64)
  deriving DecidableEq, Repr

/-- One unit: a program instance on one cluster (R16, R28). -/
structure UnitSt where
  ident : UnitId
  regs : Regs
  csr : Csrs
  curt : Curt
  flow : Flow
  pend : List PEntry
  /-- Loads to s0, whose data makes no entry and can still come with an error (R74, R113). -/
  drops : List PEntry
  umem : UnitMem
  eng : UnitEng
  sync : UnitSync
  run : RunSt
  deriving DecidableEq, Repr

/-! ### Translation (R315 to R333) -/

/-- A translation as a TLB holds it (R322). `frames` are the frame and, for a two-version page, version 1's frame. -/
structure TlbEntry where
  asid : BitVec 16
  /-- First virtual page number, va[79:14], and the leaf level. -/
  vpn : Nat
  level : Nat
  frame0 : Nat
  frame1 : Nat
  buffer : Option Nat
  rd : Bool
  wr : Bool
  ex : Bool
  priv : Bool
  sync : Bool
  tvg : Bool
  key : BitVec 8
  rfloor : BitVec 3
  rceil : BitVec 3
  dirty : Bool
  /-- The write frame of a two-version page, dropped by a flip notice (R328). -/
  wframe : Option Nat
  deriving DecidableEq, Repr

/-- A walk under way (R323). -/
structure Walk where
  id : Nat
  asid : BitVec 16
  va : Va
  write : Bool
  die : DieNo
  cluster : ClusterNo
  /-- The fault it ended with, until the access that waited takes it (R319, R22). -/
  fail : Option (BitVec 8)
  deriving DecidableEq, Repr

/-- A registered two-version buffer (R326) with the walker's count, taint and pending validity fields (R217, R400). -/
structure TvBuf where
  asid : BitVec 16
  hbase : Nat
  pages : Nat
  phys0 : Nat
  phys1 : Nat
  sel : Bool
  count : Nat
  total : Option Nat
  taint : Bool
  flips : BitVec 32
  vset : Bool
  curtain : Bool
  nochk : Bool
  exact : Bool
  kach : BitVec 5
  bound : BitVec 64
  /-- Dies whose acknowledgement of a flip notice is still awaited (R328). -/
  flipDies : List DieNo
  deriving DecidableEq, Repr

/-- A posted VALSET on its way to the walker (R399). -/
structure ValsetMsg where
  uid : Uid
  buffer : Nat
  curtain : Bool
  nochk : Bool
  exact : Bool
  kach : BitVec 5
  bound : BitVec 64
  deriving DecidableEq, Repr

/-- A TLBI or migration shoot-down under way: the matching pages and the dies still to acknowledge (R331, R333). -/
structure Shoot where
  id : Nat
  asid : BitVec 16
  range : Option (Nat × Nat)
  /-- The dies it was sent to, and those that have still to acknowledge. -/
  mask : List DieNo
  dies : List DieNo
  /-- A migration's new frame, and where it moves a version of a buffer, which one (R333). -/
  migrate : Option Nat
  version : Option (Nat × Bool)
  /-- The frames that the dropped translations reached: (address, bytes) (R331). -/
  frames : List (Nat × Nat)
  waiter : Option Uid
  deriving DecidableEq, Repr

/-- An entry of the translation directory (R330). -/
structure TransDir where
  asid : BitVec 16
  vpn : Nat
  level : Nat
  mask : BitVec 8
  deriving DecidableEq, Repr

/-! ### Caches and the directory (R115, R289 to R314) -/

/-- A line of a cluster cache: 128 bytes and a dirty mask (R115), with the key and hints it was translated under. -/
structure CacheLine where
  line : Nat
  data : BitVec 1024
  dirty : BitVec 128
  key : BitVec 8
  rfloor : BitVec 3
  rceil : BitVec 3
  poison : Bool
  deriving DecidableEq, Repr

/-- A slice's state for a line (R296). -/
inductive SliceState where
  | i | s | e | o | m | isD | imD | smW | imW | miA | oiA | eiA | siA | iiA
  deriving DecidableEq, Repr

/-- A line of a die's slices (R296). -/
structure SliceLine where
  line : Nat
  st : SliceState
  data : BitVec 1024
  /-- In SM_W, the line without the bytes that have still to reach the device step (R301). -/
  base : BitVec 1024
  dirty : BitVec 128
  key : BitVec 8
  poison : Bool
  /-- A Push installed this copy (R306). -/
  helper : Bool
  deriving DecidableEq, Repr

/-- A directory state (R295). -/
inductive DirSt where
  | i | s | e | o | m | sMA | iD | mFA | mFS | pA | xWB
  deriving DecidableEq, Repr

/-- Message kinds (R297). -/
inductive MsgKind where
  | getS | getM | upg | putM | putO | putE | putS
  | dataS | dataE | dataM | dataNF | upgAck | inv | fwdGetS | fwdGetSNF | fwdGetM
  | fwdData | invAck | fwdAck | putAck | putAckStale | push | pushAck | rdSet | rdInv | rdAck
  deriving DecidableEq, Repr

/-- A message between a die and the hub (R297).  `die` is the die at the other end of the hub link, `req` the die a
forward or a fill is for, and `toDie` the direction. -/
structure Msg where
  kind : MsgKind
  toDie : Bool
  die : DieNo
  req : DieNo
  line : Nat
  data : BitVec 1024
  poison : Bool
  key : BitVec 8
  rfloor : BitVec 3
  rceil : BitVec 3
  hinted : Bool
  helper : DieNo
  /-- A FwdData that leaves the owner its copy; a FwdGetS whose data goes to the directory, for a push; a GetS of a prefetch,
  which fills in S (R126, R306). -/
  shared : Bool
  deriving DecidableEq, Repr

/-- A request waiting in a line's queue (R298). -/
structure DirReq where
  kind : MsgKind
  die : DieNo
  /-- The request has been counted for its region (R302), which happens once. -/
  counted : Bool
  /-- A prefetch: the line fills in S (R126). -/
  prefetch : Bool
  key : BitVec 8
  rfloor : BitVec 3
  rceil : BitVec 3
  hinted : Bool
  deriving DecidableEq, Repr

/-- A directory entry (R294). -/
structure DirEntry where
  line : Nat
  st : DirSt
  /-- The owner die, where there is one. -/
  owner : Option DieNo
  sharers : BitVec 8
  queue : List DirReq
  /-- The request being handled in a transient state. -/
  cur : Option DirReq
  /-- The dies and interfaces whose acknowledgement is awaited. -/
  invs : BitVec 8
  rdis : BitVec 8
  pushes : BitVec 8
  fwd : Bool
  /-- Replicas that the write at work collapses (R304). -/
  collapsed : Nat
  /-- Dies holding a redirect entry for the line, and whether redirect entries exist (R306). -/
  redirects : BitVec 8
  helpers : BitVec 8
  /-- The key slot under which the line is held (R325). -/
  key : BitVec 8
  /-- Helpers whose PutS is answered once the line's redirect entries are gone (R308). -/
  late : List DieNo
  /-- Replicas above a lowered D are still to be collapsed (R305). -/
  trimDue : Bool
  deriving DecidableEq, Repr

/-- A region entry (R302) with the counters of R310, in that table's order. -/
structure Region where
  region : Nat
  d : BitVec 3
  mask : BitVec 8
  quiet : BitVec 16
  floor : BitVec 3
  ceil : BitVec 3
  fills : BitVec 16
  nofill : BitVec 16
  collapses : BitVec 16
  pushes : BitVec 16
  dchg : BitVec 16
  rhits : BitVec 16
  deriving DecidableEq, Repr

/-- Counters of one die (R310). -/
structure DieCounters where
  fills : BitVec 48
  nofill : BitVec 48
  collapses : BitVec 48
  pushes : BitVec 48
  dchg : BitVec 48
  rhits : BitVec 48
  waketo : BitVec 48
  deriving DecidableEq, Repr

/-- A hot-table entry (R306): count of remote reads and the dies whose reads were served without filling. -/
structure HotLine where
  line : Nat
  count : Nat
  unfilled : BitVec 8
  readers : BitVec 8
  deriving DecidableEq, Repr

/-- A redirect entry at a die's network interface (R307). -/
structure Redirect where
  line : Nat
  helper : DieNo
  deriving DecidableEq, Repr

/-- A background L1FLUSH or L1INV, or an acquire's invalidation (R116, R121). -/
structure L1Op where
  lines : List Nat
  inval : Bool
  invalRo : Bool
  scope : BitVec 2
  /-- Its flush is done, which follows the releases of the core made before it: those numbered below `before` (R120). -/
  flushed : Bool
  before : Nat
  deriving DecidableEq, Repr

/-! ### The synchronisation engine (R263 to R287) -/

/-- A posted outbound write that is not yet acknowledged (R410). -/
structure OutWrite where
  uid : Uid
  dest : Nat
  /-- The Estal port that a write to a peer left by (R413). -/
  port : Option (Fin 16)
  addr : Nat
  data : BitVec 512
  size : Nat
  va : Va
  bundle : BitVec 64
  slot : BitVec 2
  deriving DecidableEq, Repr

/-- What follows a release (R120): the write-back of the release store's bytes, a request to a synchronisation engine, a
PUBL's count (R217), HALT or CURTDONE (R128), a write into the front-end window (R370) or to system space (R410), the
later accesses that a FENCE of kind acq_rel holds (R123), or nothing. -/
inductive RelPayload where
  | store (pa : Nat) (size : Nat) (scope : BitVec 2) (data : BitVec 512) (key : BitVec 8) (rfloor rceil : BitVec 3)
  | sync (req : SyncReq)
  | publ (engine : BitVec 1)
  | halt
  | window (slot : Nat) (off : Nat) (data : BitVec 64)
  | outside (w : OutWrite)
  | fence
  | none
  deriving DecidableEq, Repr

/-- A release under way (R120): the lines whose device step it still awaits, whether it is at system scope, and what
follows it. -/
structure Release where
  id : Nat
  uid : Uid
  /-- The lines whose device step it awaits, once its flush is done. -/
  lines : List Nat
  scope : BitVec 2
  /-- Its flush is done, which follows the releases of the core before it. -/
  flushed : Bool
  system : Bool
  payload : RelPayload
  deriving DecidableEq, Repr

/-- The engine's answer to a request (R282, R284, R285), or RETRY (R286). -/
structure SyncReply where
  req : SyncReq
  value : BitVec 512
  code : BitVec 8
  va : Va
  retry : Bool
  /-- The engine found the line and its metadata in its SRAM (R266). -/
  near : Bool
  deriving DecidableEq, Repr

/-- A waiter at a barrier (R282), registered until its bundle issues, is diverted or its unit parks; `answered` once its phase is
complete. -/
structure Waiter where
  req : Nat
  uid : Uid
  pa : Nat
  phase : BitVec 15
  baraw : Bool
  answered : Bool
  deriving DecidableEq, Repr

/-- A member of a barrier as the engine keeps it (R265, R279). -/
structure BarMember where
  uid : Uid
  pa : Nat
  arrived : Option (BitVec 15)
  deriving DecidableEq, Repr

/-- A synchronisation engine (R265): requests that have reached it in order, waiters, members, granule sequence
numbers, the pages behind a drain marker, and which granules' metadata lie in the overflow area. -/
structure SyncEngine where
  queue : List SyncReq
  replies : List SyncReply
  waiters : List Waiter
  members : List BarMember
  seqs : List (BitVec 16 × Nat × BitVec 32)
  drains : List Nat
  /-- The lines of sync pages in the SRAM, held in M at the directory, the one used last at the end (R263, R265). -/
  lines : List Nat
  /-- Granules whose metadata lies in the overflow area. -/
  overflow : List Nat
  deriving DecidableEq, Repr

/-! ### Copy engines (R205 to R229) -/

/-- A fault of a copy command, kept until it is retried or abandoned (R224). -/
structure CopyFault where
  code : BitVec 8
  addr : Va
  deriving DecidableEq, Repr

/-- A queued or running copy command (R207, R210) with everything it reads at issue (R47). -/
structure CopyCmd where
  id : Nat
  uid : Option Uid
  asid : BitVec 16
  op : BitVec 5
  hdr : BitVec 22
  cg : Vector Word 16
  wins : Vector (BitVec 16) 4
  rmode : BitVec 3
  rb0 : Word
  rb1 : Word
  bundle : BitVec 64
  slot : BitVec 2
  /-- Ring positions claimed at issue: first slab of the source and of the destination. -/
  srcPos : BitVec 32
  dstPos : BitVec 32
  started : Bool
  /-- The index list of GATH and SCAT, read at start (R213). -/
  index : List (BitVec 32)
  /-- Slabs already moved by a streaming kind `q` (R210). -/
  slabs : Nat
  /-- Data moved; waiting for claims, device step or the barrier arrival (R210). -/
  moved : Bool
  arrival : Option Nat
  arrived : Bool
  publRel : Option Nat
  publDone : Bool
  fault : Option CopyFault
  views : List (Nat × Bool)
  /-- Lines written that have still to reach their device step. -/
  await : List Nat
  /-- The flags of its conversions, which FLAGS takes at completion (R220). -/
  flags : BitVec 5
  /-- The two-version buffer that its destination lies in, once a byte of it is written (R212). -/
  buf : Option Nat
  /-- It has faulted since it started: accesses to its tile destination wait for its end (R224). -/
  shadow : Bool
  /-- What it has written on chip before its completion, which its bytes take then (R157): (ring position, byte address in the
  level, bytes). -/
  tile : List (BitVec 32 × Nat × List Byte)
  /-- What stood in its tile destination before it wrote there (R225): (byte address in the level, bytes). -/
  old : List (Nat × List Byte)
  transform : Option (Nat × Nat)
  deriving DecidableEq, Repr

/-- A watched token and the image it delivers (R227): CFOL or FOL. -/
structure Follow where
  uid : Uid
  engine : BitVec 1
  token : BitVec 4
  image : BitVec 32
  lend : BitVec 8
  bundle : BitVec 64
  slot : BitVec 2
  ready : Bool
  /-- Issued in this cycle: it is delivered in the next at the earliest (R227). -/
  fresh : Bool
  cmd : Option Nat
  deriving DecidableEq, Repr

/-- A copy engine (R209, R224). -/
structure CopyEngine where
  queue : List CopyCmd
  faulted : Bool
  deriving DecidableEq, Repr

/-! ### The stream array (R230) -/

/-- Stream states (R231). -/
inductive StreamState where
  | idle | run | held | done | stopped | faulted
  deriving DecidableEq, Repr

/-- Load forms of a column (R230). -/
inductive LoadForm where
  | dense | nm | slice
  deriving DecidableEq, Repr

/-- A weight cell that is not clear (R230). -/
structure Cell where
  row : Nat
  col : Nat
  code : BitVec 8
  index : BitVec 2
  deriving DecidableEq, Repr

/-- A command accepted by the array (R240), with the staging registers and modes read at issue (R47). -/
structure ArrayCmd where
  op : BitVec 4
  hdr : BitVec 24
  uid : Uid
  tag : BitVec 4
  bundle : BitVec 64
  slot : BitVec 2
  ag : Vector Word 8
  slen : BitVec 5
  mode : BitVec 2
  spread : Bool
  nm : Bool
  pair : BitVec 2
  rowseed : BitVec 16
  colseed : BitVec 16
  rmode : BitVec 3
  /-- Ring positions claimed: weight or input head, output tail. -/
  inPos : BitVec 32
  outPos : BitVec 32
  claim : Nat
  /-- Delivered by a copy engine as a follow-on, whose claims wait at the queue head (R258). -/
  fol : Option (BitVec 1)
  claimed : Bool
  stoppedByKill : Bool
  /-- The array cycle in which it may start at the earliest (R255). -/
  after : Nat
  deriving DecidableEq, Repr

/-- A record of one zone of one column in the checkpoint set, or of one column's sub-counts in SLICE mode. -/
structure SetCol where
  col : Nat
  counts : List Int
  rowsN : List Nat
  ew : List (BitVec 8)
  deriving DecidableEq, Repr

/-- The checkpoint set's record (R230, R181). -/
structure CheckSet where
  kc : Option Nat
  mode : BitVec 2
  nm : Bool
  afmt : BitVec 4
  wfmt : BitVec 4
  pair : BitVec 2
  rlo : Nat
  rhi : Nat
  clo : Nat
  chi : Nat
  ea : List (BitVec 8)
  rowsA : List Nat
  cols : List SetCol
  deriving DecidableEq, Repr

/-- The current stream (R243, R252): its command, the array cycle it left the queue in, its target k, the first vector
whose set is not complete, the next vector to latch, the vectors in flight (number, codes, ea), the index segments
(first index, array cycle in which it entered column CLO), and the next checkpoint j to copy. -/
structure Stream where
  cmd : ArrayCmd
  start : Nat
  kt : Nat
  vector : Nat
  nextLatch : Nat
  vecs : List (Nat × List (BitVec 8) × List (BitVec 8))
  segs : List (Nat × Nat)
  nextJ : Nat
  /-- The upstream stream of a chain, once a message of it has been used (R251). -/
  up : Option Nat
  deriving DecidableEq, Repr

/-- An AWLD or ACLR executing: the array cycle of its end, the slabs it loaded, and the fault it ends with (R248). -/
structure ArrayExec where
  cmd : ArrayCmd
  finish : Nat
  /-- The slabs of a weight load as they stood at its start, and the columns loaded so far (R247). -/
  slabs : List (List Byte)
  good : Nat
  deriving DecidableEq, Repr

/-- A message of a chain (R251): the counts, N_z and A_z of a checkpoint with what the streams must agree in, or a
chain end. -/
structure ChainMsg where
  /-- The stream that sends it: its claim number. -/
  sender : Nat
  fin : Bool
  vector : Nat
  j : Nat
  kt : Nat
  mode : BitVec 2
  nm : Bool
  afmt : BitVec 4
  wfmt : BitVec 4
  pair : BitVec 2
  clo : Nat
  chi : Nat
  cols : List SetCol
  rowsA : List Nat
  deriving DecidableEq, Repr

/-- The result of the last ACHK (R253). -/
structure CheckRes where
  pass : Bool
  valid : Bool
  top : BitVec 11
  ktest : BitVec 5
  none : Bool
  deriving DecidableEq, Repr

/-- The edge converter at work on an AOUT or an emission (R250, R254). -/
structure Convert where
  cmd : ArrayCmd
  finish : Nat
  slab : List Byte
  flags : BitVec 5
  vector : Option Nat
  fault : Bool
  deriving DecidableEq, Repr

/-- A stream array (R230). -/
structure ArraySt where
  owner : Option Nat
  cells : List Cell
  forms : List (Nat × LoadForm)
  scales : List (Nat × Nat × BitVec 8)
  latches : List (BitVec 8)
  latchEa : List (BitVec 8)
  set : Option CheckSet
  slen : BitVec 5
  rowseed : BitVec 16
  colseed : BitVec 16
  mode : BitVec 2
  spread : Bool
  nm : Bool
  pair : BitVec 2
  ez : Vector (BitVec 8) 8
  ag : Vector Word 16
  state : StreamState
  cause : BitVec 3
  kt : BitVec 5
  vdone : BitVec 16
  check : CheckRes
  queue : List ArrayCmd
  stream : Option Stream
  /-- The stream's unit, kept after the stream ends (R252). -/
  streamUid : Option Uid
  exec : Option ArrayExec
  /-- The edge converter's work (R250, R254). -/
  conv : List Convert
  /-- Array cycles counted since reset. -/
  acyc : Nat
  /-- Core cycles of weight clearing left (R233). -/
  clearing : Nat
  folt : Bool
  /-- Upstream messages on their way to this array, and the counts that have arrived (R251). -/
  chainNet : List ChainMsg
  chainIn : List ChainMsg
  /-- The latest upstream stream that a stream of this array has been chained to (R251). -/
  chainUp : Nat
  /-- Weight loads that a fault has ended, whose slabs stay claimed until their unit is resumed (R248). -/
  owed : List ArrayCmd
  deriving DecidableEq, Repr

/-! ### Clusters and dies -/

/-- Ownership of a bank or block: the owner and its release-pending mark (R199). -/
structure Bank where
  space : BitVec 2
  bank : Nat
  owner : Uid
  pending : Bool
  deriving DecidableEq, Repr

/-- A cluster: its core, copy engines, caches, banks and array (R15). -/
structure Cluster where
  cyc : Word
  /-- The unit whose segment runs, if one does. -/
  running : Option Uid
  /-- The running order (R376), and how many of its entries have been reached in the current cycle of the list. -/
  order : List Uid
  pos : Nat
  /-- Switch cycles left and the entry they lead to (R378). -/
  switch : Option (Nat × Uid)
  cache : List CacheLine
  roCache : List CacheLine
  tlb : List TlbEntry
  banks : List Bank
  tileSram : List Host.Cell
  chipSram : List Host.Cell
  pinSram : List Host.Cell
  eng : Vector CopyEngine 2
  follows : List Follow
  rels : List Release
  l1op : Option L1Op
  array : ArraySt
  /-- The launch whose ARRAY = 1 wings are active, and the launch in the shadow (R365). -/
  activeWings : Option Nat
  shadowWings : Option Nat
  /-- Transform commands waiting for the next segment boundary (R373). -/
  transforms : List CopyCmd
  /-- The power hold of R422. -/
  throttled : Bool
  /-- The hold line is up (R15): the last cycle of the core was held. -/
  held : Bool
  /-- The counters of the running unit's rings before the cycle (R203), while the cycle lasts: (handle, tp · 2^32 + hp). -/
  counts : List (BitVec 8 × Word)
  deriving DecidableEq, Repr

/-- A slab or publication on the slot-reserved circuits (R292). -/
structure CircuitMsg where
  src : Nat
  dst : Nat
  uid : Uid
  h : BitVec 8
  pos : BitVec 32
  slab : List Byte
  publish : Bool
  head : Bool
  deriving DecidableEq, Repr

/-- Link power and training (R311 to R313). -/
inductive LinkState where
  | active | doze | sleep | training | lost
  deriving DecidableEq, Repr

/-- A compute die (R11). -/
structure Die where
  lost : Bool
  lines : List SliceLine
  sync : SyncEngine
  tlb : List TlbEntry
  cueSheet : Option (List (BitVec 8))
  sheetLaunch : Option Nat
  circuits : List CircuitMsg
  revolution : BitVec 8
  link : LinkState
  rewakes : Nat
  /-- Redirect entries of the hub's network interface for this die, least recently used first (R307). -/
  redirects : List Redirect
  counters : DieCounters
  dieCyc : Nat
  deriving DecidableEq, Repr

/-! ### Contexts, launches and graphs (R20, R359 to R375) -/

/-- A budget register (R380), its count in the period, the requests deferred in arrival order with their sizes, and
those admitted at a period start that have still to be made (R381). The nineteen of a context stand in the order
crossbar, walker, host port, LPDDR6 of dies 0 to 7, sync engine of dies 0 to 7. -/
structure Budget where
  limit : BitVec 32
  defer : BitVec 32
  used : Nat
  waiting : List (Nat × Nat)
  granted : List Nat
  deriving DecidableEq, Repr

/-- A completion target (R361). -/
structure Target where
  va : Va
  kind : BitVec 4
  value : Word
  deriving DecidableEq, Repr

/-- The operator record as parsed (R361). -/
structure OpRecord where
  kind : BitVec 8
  restart : Bool
  nodl : Bool
  rel : Bool
  noent : Bool
  units : Nat
  cmask : BitVec 128
  prog : Va
  segt : Va
  nseg : Nat
  wings : Va
  dlsec : BitVec 48
  dlns : BitVec 32
  centry : BitVec 64
  wrap : Nat
  cpi : Nat
  tgt0 : Target
  tgt1 : Target
  cgimg : Vector Word 8
  cslot : BitVec 32
  twin : Vector (BitVec 16) 4
  deriving DecidableEq, Repr

/-- The wings image as parsed (R364). -/
structure Wings where
  wb : Vector (BitVec 16) 4
  land : BitVec 8
  check : BitVec 2
  rmode : BitVec 3
  fte : BitVec 5
  rbseed0 : Word
  rbseed1 : Word
  wcha : Vector Word 2
  wchc : Vector Word 2
  arrcfg : BitVec 64
  ez : Vector (BitVec 8) 8
  ag : Vector Word 8
  handles : List (BitVec 8 × BitVec 64)
  tbank : BitVec 64
  cbank : BitVec 32
  lbank : BitVec 32
  sheet : Option (List (BitVec 8))
  deriving DecidableEq, Repr

/-- What an entry of the recorder's stream tells (R355, R357). -/
inductive RecKind where
  | repmark | freeze | dieLost | diversion | preemption | prompterOp
  deriving DecidableEq, Repr

/-- An entry of the recorder's stream: the unit, its bundle count, a tag and a value, and of a freeze its record (R355,
R357). -/
structure RecEntry where
  kind : RecKind
  launch : BitVec 32
  index : BitVec 16
  bundles : Nat
  tag : Nat
  value : Word
  fault : Option FaultRec
  deriving DecidableEq, Repr

/-- What the recorder keeps of a launch: its operator record and its wings image, the array's seeds and the random-bit seeds
among them (R355). -/
structure RecLaunch where
  serial : BitVec 32
  record : OpRecord
  wings : Wings
  deriving DecidableEq, Repr

/-- Inbound host data that the recorder keeps, or their SHAKE256 digest (R355). -/
inductive RecInput where
  | data (va : Va) (bytes : List Byte)
  | digest (va : Va) (len : Nat) (sum : BitVec 256)
  deriving DecidableEq, Repr

/-- What a store to CANCEL names (R360, R375). -/
inductive Cancel where
  | unit (serial : BitVec 32) (index : BitVec 16)
  | launch (serial : BitVec 32)
  | graph (g : Fin 64)
  | phase (n : BitVec 16)
  | job
  deriving DecidableEq, Repr

/-- A resident context (R20, R360). -/
structure Context where
  asid : BitVec 16
  slot : Nat
  root : Nat
  dies : BitVec 8
  phase : BitVec 16
  /-- Cancels written and not yet performed, the one in progress first (BUSY, R375). -/
  cancels : List Cancel
  pwait : BitVec 48
  pentry : Word
  pctl : BitVec 26
  lqsel : BitVec 32
  serial : BitVec 32
  budgets : Vector Budget 19
  slots : List (BitVec 6 × Uid)
  frozenSeq : Nat
  cancelled : Bool
  replay : Bool
  replayStopped : Bool
  /-- The sync-order log's entries (R287), the recorder's stream and the inbound data it keeps (R355), oldest first; and
  for a replay the logged entries of both (R356). -/
  log : List (DieNo × BitVec 256)
  recorder : List RecEntry
  recLaunches : List RecLaunch
  recInputs : List RecInput
  /-- The context selects digests of inbound data in place of the data (R355). -/
  recDigest : Bool
  /-- Entries of the recorder's stream that stand in its ring of the recording area. -/
  recDone : Nat
  replayLog : List (BitVec 256)
  replayEvents : List RecEntry
  /-- The recording area: physical address and entries of the ring of each die, then of the recorder's own (R355). -/
  recAreas : List (Nat × Nat)
  deriving DecidableEq, Repr

/-- A graph node (R366) with its run-time dependence counter (R372). -/
structure Node where
  kind : BitVec 8
  depc : Nat
  succ : List Nat
  arg : Va
  bfirst : Nat
  blast : Nat
  count : Nat
  record : Option OpRecord
  wings : Option Wings
  segs : List (BitVec 64 × BitVec 32)
  dep : Nat
  fired : Bool
  done : Bool
  iter : Nat
  launch : Option Nat
  deriving DecidableEq, Repr

/-- A pass's launch (R16, R362, R386). -/
structure Launch where
  serial : BitVec 32
  asid : BitVec 16
  graph : Option (Nat × Nat)
  record : OpRecord
  wings : Wings
  segs : List (BitVec 64 × BitVec 32)
  remain : Nat
  placed : Nat
  /-- Deadline in nanoseconds of TAI; `none` with NODL. -/
  deadline : Option Nat
  registered : Bool
  struck : Bool
  killed : Bool
  curtain : Bool
  done : Bool
  /-- 0 running, 1 releasing, 2 TGT0 performed, 3 finished. -/
  finish : Nat
  /-- Clusters whose shadow bank this launch's wings still wait for (R365). -/
  pendingWings : List ClusterNo
  deriving DecidableEq, Repr

/-- What the front end has still to do for a node: fire it, or count its completion (R372). -/
inductive Todo where
  | fire (n : Nat)
  | done (n : Nat)
  deriving DecidableEq, Repr

/-- A graph slot (R367). -/
structure Graph where
  asid : BitVec 16
  gaddr : Word
  gahi : BitVec 16
  state : BitVec 2
  drop : Bool
  err : BitVec 8
  /-- Cues waiting, by the order in which they were performed (PEND counts them, R369). -/
  pends : List Nat
  passes : BitVec 16
  node : BitVec 8
  fcode : BitVec 8
  gcnt : BitVec 16
  fser : BitVec 32
  resident : Bool
  nodes : List Node
  /-- Firings and completions still to be acted on, oldest first (R372). -/
  todo : List Todo
  /-- A cancel has ended the pass: nothing more of it fires (R375). -/
  cut : Bool
  /-- Order of the cue that started the pass, for phase boundaries (R372). -/
  cueNo : Nat
  taiStart : Nat
  deriving DecidableEq, Repr

/-! ### The hub -/

/-- The timekeeper (R382 to R385). TAI is counted in nanoseconds, and `frac` in parts of 8·10^9 of one; the rate is the
steering in parts of 10^9. -/
structure Timekeeper where
  tai : Nat
  frac : Nat
  ctl : BitVec 24
  lock : Bool
  hold : Bool
  active : BitVec 2
  stepped : Bool
  offset : BitVec 32
  tain : BitVec 32
  rate : Int
  deriving DecidableEq, Repr

/-- Aperture registers (R405, R414). -/
structure Aperture where
  base : Word
  vahi : BitVec 16
  asid : BitVec 16
  en : Bool
  deriving DecidableEq, Repr

/-- The bytes of one line of an inbound write, translated (R404). -/
structure InPiece where
  va : Va
  pa : Nat
  key : BitVec 8
  sync : Bool
  bytes : List Byte
  deriving DecidableEq, Repr

/-- A route of an inbound write (R406): the lines homed on one die, or for BAR0, BAR2 and the window no die. -/
structure Route where
  die : Option DieNo
  /-- Its place in the order of release, once it is released (R407). -/
  released : Option Nat
  performed : Bool
  acked : Bool
  pieces : List InPiece
  deriving DecidableEq, Repr

/-- An inbound posted write at the ordering point (R406): its BAR, 5 for the export aperture (R414), and its routes. -/
structure InWrite where
  id : Nat
  bar : BitVec 3
  addr : Nat
  data : List Byte
  ro : Bool
  ido : Bool
  requester : Nat
  poisoned : Bool
  asid : BitVec 16
  /-- The host-port budget has admitted it (R381, R404). -/
  admitted : Bool
  routes : List Route
  deriving DecidableEq, Repr

/-- An inbound read waiting at the ordering point, and the completions returned (R408). -/
structure InRead where
  id : Nat
  bar : BitVec 3
  addr : Nat
  len : Nat
  ro : Bool
  requester : Nat
  /-- The aperture as the read found it at the ordering point (R405). -/
  ap : Aperture
  after : List Nat
  deriving DecidableEq, Repr

/-- A completion as the host has received it; `ur` where the request was refused (R411). -/
structure Completion where
  id : Nat
  ur : Bool
  poisoned : Bool
  data : List Byte
  deriving DecidableEq, Repr

/-- An Estal port (R412, R415). -/
structure EstalPort where
  gen : BitVec 2
  x4 : Bool
  peer : BitVec 10
  maxg1 : Bool
  retry : BitVec 32
  /-- Traffic through the port holds while it retrains. -/
  training : Bool
  deriving DecidableEq, Repr

/-- An outbound load awaiting its completion (R410, R411). -/
structure OutLoad where
  req : Nat
  uid : Uid
  dest : Nat
  addr : Nat
  size : Nat
  va : Va
  deriving DecidableEq, Repr

/-- Module registers (R418, R421, R422) and the host port's error counts (R411). -/
structure ModuleSt where
  stage : BitVec 4
  ready : Bool
  fail : Bool
  throt : Bool
  img : Bool
  code : BitVec 8
  dies : BitVec 8
  pwrcap : BitVec 12
  /-- PWRNOW as it was last read. -/
  pwrnow : BitVec 24
  stopped : Bool
  attBusy : Bool
  attDone : Bool
  nonce : BitVec 256
  report : List Byte
  /-- The bytes written to the image buffer of the firmware update window (R420). -/
  update : List Host.Cell
  msix : BitVec 64
  aerCorrectable : Nat
  aerNonFatal : Nat
  aerFatal : Nat
  hostUp : Bool
  /-- Addresses and ASIDs that the error-handling core recorded (R411). -/
  errLog : List (Nat × BitVec 16)
  /-- Events reported to the error-handling firmware: code and argument (R312, R397, R288). -/
  errEvents : List (BitVec 8 × Nat)
  /-- What stopped a replay, as the firmware receives it: the logged entry, if there is one, and the actual one (R357). -/
  replayReports : List (Option RecEntry × RecEntry)
  /-- Cue sheets refused, as the front end reports them to the host: launch and die (R291). -/
  sheetReports : List (Nat × DieNo)
  rsel : Nat
  deriving DecidableEq, Repr

/-- The directory and its settings (R294, R302, R306, R309). -/
structure Directory where
  entries : List DirEntry
  regions : List Region
  hot : List HotLine
  cfg : BitVec 42
  /-- Messages under way, oldest first; each hub link delivers in order (R298). -/
  net : List Msg
  /-- Memory reads and writes under way: (line, read?) (R295 I_D, X_WB). -/
  mem : List (Nat × Bool)
  deriving DecidableEq, Repr

/-- The walker complex (R323, R326, R330). -/
structure Walker where
  bufs : List TvBuf
  walks : List Walk
  /-- Page-walk caches: (ASID, level, va prefix, table address) (R323). -/
  pwc : List (BitVec 16 × Nat × Nat × Nat)
  tdir : List TransDir
  shoots : List Shoot
  notices : List (Nat × DieNo)
  noticeAcks : List (Nat × DieNo)
  valsets : List ValsetMsg
  /-- Walks held at a leaf with MIG = 1 (R333). -/
  held : List Walk
  shootAcks : List (Nat × DieNo)
  deriving DecidableEq, Repr

/-- The hub die (R11). -/
structure Hub where
  dir : Directory
  walk : Walker
  /-- Hub cycles since module reset (R5, R380). -/
  cycles : Nat
  /-- Mailbox (i, j) of the firmware cores, oldest message first (R358). -/
  mail : Vector (Vector (List (BitVec 512)) 8) 8
  /-- The key pair of each slot that the boot and security firmware has loaded (R324). -/
  keys : List (BitVec 8 × BitVec 512)
  contexts : List Context
  launches : List Launch
  graphs : Vector Graph 64
  cueSeq : Nat
  tk : Timekeeper
  ap : Aperture
  xap : Aperture
  inWrites : List InWrite
  inReads : List InRead
  completions : List Completion
  ports : Vector EstalPort 16
  outWrites : List OutWrite
  outLoads : List OutLoad
  /-- Memory outside the device as it has been written from the device (R410): (destination, address, byte). -/
  outside : List (Nat × Nat × Byte)
  deriving DecidableEq, Repr

/-! ### The machine -/

/-- What a slot's issue found: nothing wrong, a fault, a wait or a hold (R33, R36, R425). -/
inductive SlotResult where
  | done
  | fault (code : BitVec 8) (addr : Va)
  | wait (k : WaitKind)
  | hold (k : WaitKind)
  deriving DecidableEq, Repr

/-- The bundle at issue, as its slots see it: the issuing unit, the slot, the header bits, and what the slots found.
It lasts one step and is no register of the machine. -/
structure Issue where
  me : Uid
  slot : BitVec 2
  /-- Every slot of the bundle has passed its checks (R33): what the other slots do does not hold this one back. -/
  ready : Bool
  hasHdr : Bool
  lend : BitVec 8
  stall : BitVec 3
  /-- Vector unit of a class 0x4 to 0x7 slot (R135). -/
  vunit : Fin 2
  result : SlotResult
  mask : BitVec 4
  /-- Tile-file reads of the slots (R63): (tile, direction, index). -/
  ports : List (BitVec 3 × BitVec 2 × BitVec 4)
  /-- Enabled flags that a vector slot would raise, and its latency (R35, R141). -/
  raised : BitVec 5
  canRaise : BitVec 5
  lat : Nat
  xfer : Option Xfer
  /-- Extra unheld cycles before the next bundle, from NOPS (R105). -/
  nops : Nat
  deriving DecidableEq, Repr

/-- An input of the schedule: an event of the outside world or of an agent, the core that takes the next cycle, or a
number of hub cycles that pass for the timekeeper (R382).
The list is the model's own plain-data choice of an interleaving (notes/assumptions). -/
inductive Input where
  | event (i : Instr)
  | core (c : ClusterNo)
  | hub (n : Nat)
  deriving DecidableEq, Repr

structure State where
  units : List UnitSt
  issue : Issue
  clusters : Vector Cluster 128
  dies : Vector Die 8
  hub : Hub
  mod : ModuleSt
  /-- LPDDR6 (R416): the byte at each physical address, plaintext as last written. -/
  mem : List Host.Cell
  /-- Lines with an uncorrectable error. -/
  poison : List Nat
  /-- The key slot under which each memory line was last written, where it is not slot 0 (R324). -/
  lineKeys : List (Nat × BitVec 8)
  inputs : List Input
  /-- The clusters with work, and the one that takes the next core cycle. -/
  active : List ClusterNo
  turn : Nat
  /-- The model's own counters: requests numbered so far, free values used so far. -/
  nextReq : Nat
  fresh : Nat
  deriving DecidableEq, Repr

/-! ### Reset (R419)

The machine as it stands when bring-up ends: READY, no context resident, every byte of LPDDR6 zero.  Values that no rule
gives are those that notes/assumptions names. -/

/-- A stream array before its first swap of wings (R230, R233). -/
def ArraySt.reset : ArraySt :=
  { owner := none, cells := [], forms := [], scales := [], latches := [], latchEa := [], set := none, slen := 4,
    rowseed := 0, colseed := 0, mode := 0, spread := false, nm := false, pair := 0, ez := Vector.replicate 8 0,
    ag := Vector.replicate 16 0, state := .idle, cause := 0, kt := 0, vdone := 0,
    check := { pass := false, valid := false, top := 0, ktest := 0, none := false }, queue := [], stream := none,
    streamUid := none, exec := none, conv := [], acyc := 0, clearing := 0, folt := false, chainNet := [], chainIn := [],
    chainUp := 0, owed := [] }

def Cluster.reset : Cluster :=
  { cyc := 0, running := none, order := [], pos := 0, switch := none, cache := [], roCache := [], tlb := [], banks := [],
    tileSram := [], chipSram := [], pinSram := [], eng := Vector.replicate 2 ⟨[], false⟩, follows := [], rels := [],
    l1op := none, array := ArraySt.reset, activeWings := none, shadowWings := none, transforms := [],
    throttled := false, held := false, counts := [] }

def Die.reset : Die :=
  { lost := false, lines := [],
    sync := { queue := [], replies := [], waiters := [], members := [], seqs := [], drains := [], lines := [],
              overflow := [] },
    tlb := [], cueSheet := none, sheetLaunch := none, circuits := [], revolution := 0, link := .active, rewakes := 0,
    redirects := [], counters := ⟨0, 0, 0, 0, 0, 0, 0⟩, dieCyc := 0 }

/-- A graph slot that is free (R367). -/
def Graph.reset : Graph :=
  { asid := 0, gaddr := 0, gahi := 0, state := 0, drop := false, err := 0, pends := [], passes := 0, node := 0, fcode := 0,
    gcnt := 0, fser := 0, resident := false, nodes := [], todo := [], cut := false, cueNo := 0, taiStart := 0 }

/-- DIRCFG at reset: WQUIET 256, HOT 64, PUSHEN 1, REPEN 1, RESP 200, REWAKE 3 (R309). -/
def dircfgReset : BitVec 42 := (3#2) ++ (200#12) ++ (1#1) ++ (1#1) ++ (64#10) ++ (256#16)

def Hub.reset : Hub :=
  { dir := { entries := [], regions := [], hot := [], cfg := dircfgReset, net := [], mem := [] }
    walk := { bufs := [], walks := [], pwc := [], tdir := [], shoots := [], notices := [], noticeAcks := [],
              valsets := [], held := [], shootAcks := [] }
    cycles := 0, mail := Vector.replicate 8 (Vector.replicate 8 [])
    keys := (List.range 256).filterMap fun k => if k = 0 then none else (Config.keyPair k).map fun x => (BitVec.ofNat 8 k, x)
    contexts := [], launches := [], graphs := Vector.replicate 64 Graph.reset, cueSeq := 0
    tk := { tai := 0, frac := 0, ctl := 0x040000, lock := false, hold := false, active := 0, stepped := false, offset := 0, tain := 0,
            rate := 0 }
    ap := ⟨0, 0, 0, false⟩, xap := ⟨0, 0, 0, false⟩, inWrites := [], inReads := [], completions := []
    ports := Vector.replicate 16 ⟨0, false, 0, false, 0, false⟩, outWrites := [], outLoads := [], outside := [] }

/-- The module once bring-up has set READY and raised MSI-X vector 0 (R418, R419, R422). -/
def ModuleSt.reset : ModuleSt :=
  { stage := 9, ready := true, fail := false, throt := false, img := false, code := 0, dies := 0xFF, pwrcap := 2200,
    pwrnow := 0, stopped := false, attBusy := false, attDone := false, nonce := 0, report := [], update := [], msix := 1,
    aerCorrectable := 0, aerNonFatal := 0, aerFatal := 0, hostUp := true, errLog := [], errEvents := [], replayReports := [], sheetReports := [], rsel := 0 }

/-- No slot at issue. -/
def Issue.empty : Issue :=
  { me := 0, slot := 0, ready := false, hasHdr := false, lend := 0, stall := 0, vunit := 0, result := .done, mask := 0, ports := [],
    raised := 0, canRaise := 0, lat := 0, xfer := none, nops := 0 }

/-- The machine right after reset. -/
def State.reset : State :=
  { units := [], issue := Issue.empty, clusters := Vector.replicate 128 Cluster.reset, dies := Vector.replicate 8 Die.reset,
    hub := Hub.reset, mod := ModuleSt.reset, mem := [], poison := [], lineKeys := [], inputs := [], active := [], turn := 0,
    nextReq := 0, fresh := 0 }

end Sys2Proof.Machine
end

