-- ==== Sys2Proof/Machine/Bytes.lean ====
section
/-! DEFINITION.
Byte memories as lists of (address, byte) pairs in one canonical form: addresses strictly rising, and no pair with the
byte 0, which is what an unlisted address reads as (LPDDR6: R416 fills every byte with zero; on-chip SRAM: the model's
choice, notes/assumptions).  Wider accesses are built here once, little-endian (R4). -/

namespace Sys2Proof.Machine

/-- What an unlisted address reads as. -/
def Memory.blank : Byte := 0

/-- The byte at an address. -/
def Memory.read (m : List Host.Cell) (a : Nat) : Byte :=
  match m with
  | [] => Memory.blank
  | (k, b) :: rest => if k = a then b else if a < k then Memory.blank else Memory.read rest a

/-- The memory with one byte changed, in canonical form again. -/
def Memory.write (m : List Host.Cell) (a : Nat) (b : Byte) : List Host.Cell :=
  match m with
  | [] => if b = Memory.blank then [] else [(a, b)]
  | (k, v) :: rest =>
    if k = a then (if b = Memory.blank then rest else (a, b) :: rest)
    else if a < k then (if b = Memory.blank then (k, v) :: rest else (a, b) :: (k, v) :: rest)
    else (k, v) :: Memory.write rest a b

/-- Every address listed is above `lo`, they rise strictly, and no listed byte is blank. -/
def Memory.wfFrom : Option Nat → List Host.Cell → Bool
  | _, [] => true
  | lo, (k, b) :: rest =>
    (match lo with | none => true | some l => decide (l < k)) && (b != Memory.blank) && Memory.wfFrom (some k) rest

/-- The canonical form. -/
def Memory.wf (m : List Host.Cell) : Bool := Memory.wfFrom none m

/-- The bytes at `n` consecutive addresses, lowest first. -/
def Memory.readBytes (m : List Host.Cell) (a : Nat) : Nat → List Byte
  | 0 => []
  | n + 1 => Memory.read m a :: Memory.readBytes m (a + 1) n

/-- The memory with consecutive bytes changed. -/
def Memory.writeBytes (m : List Host.Cell) (a : Nat) : List Byte → List Host.Cell
  | [] => m
  | b :: rest => Memory.writeBytes (Memory.write m a b) (a + 1) rest

/-- A number from its bytes, lowest first (R4). -/
def leNat : List Byte → Nat
  | [] => 0
  | b :: rest => b.toNat + 256 * leNat rest

/-- The `n` low bytes of a number, lowest first (R4). -/
def leBytes (v : Nat) : Nat → List Byte
  | 0 => []
  | n + 1 => BitVec.ofNat 8 v :: leBytes (v / 256) n

/-- A little-endian number of `n` bytes in memory. -/
def Memory.readLe (m : List Host.Cell) (a n : Nat) : Nat := leNat (Memory.readBytes m a n)

/-- The memory with a little-endian number of `n` bytes stored. -/
def Memory.writeLe (m : List Host.Cell) (a n v : Nat) : List Host.Cell := Memory.writeBytes m a (leBytes v n)

/-- Byte k of a 128-byte line. -/
def lineByte (l : BitVec 1024) (k : Nat) : Byte := l.extractLsb' (8 * k) 8

/-- A line with byte k changed. -/
def setLineByte (l : BitVec 1024) (k : Nat) (b : Byte) : BitVec 1024 :=
  (l &&& ~~~((0xFF#1024) <<< (8 * k))) ||| ((b.setWidth 1024) <<< (8 * k))

/-- The dirty mask spread from bytes to bits. -/
def spreadMask (d : BitVec 128) : BitVec 1024 :=
  (List.range 128).foldl (fun acc k => if d.getLsbD k then acc ||| ((0xFF#1024) <<< (8 * k)) else acc) 0

/-- A line with the dirty bytes of another merged over it (R115, R296): only dirty bytes change. -/
def mergeLine (base new : BitVec 1024) (dirty : BitVec 128) : BitVec 1024 :=
  let m := spreadMask dirty
  (base &&& ~~~m) ||| (new &&& m)

/-- The 128 bytes of a memory line as one number. -/
def lineOfBytes (bs : List Byte) : BitVec 1024 := BitVec.ofNat 1024 (leNat bs)

/-- The 128 bytes of a line, lowest first. -/
def bytesOfLine (l : BitVec 1024) : List Byte := (List.range 128).map (lineByte l)

/-- Replacing the element at a position of a list of pairs by its key, or adding it at the end. -/
def upsert {α : Type} (key : α → Bool) (x : α) : List α → List α
  | [] => [x]
  | y :: rest => if key y then x :: rest else y :: upsert key x rest

/-- The list with the first element that a test accepts replaced. -/
def updateFirst {α : Type} (key : α → Bool) (f : α → α) : List α → List α
  | [] => []
  | y :: rest => if key y then f y :: rest else y :: updateFirst key f rest

/-- The list without the first element that a test accepts. -/
def removeFirst {α : Type} (key : α → Bool) : List α → List α
  | [] => []
  | y :: rest => if key y then rest else y :: removeFirst key rest

end Sys2Proof.Machine
end

