-- ==== Sys2Proof/Machine/Access.lean ====
section
/-! DEFINITION.
Reading and replacing the parts of the state: units by their permanent number, clusters, dies, contexts, launches and
buffers.  Every meaning goes through these. -/

namespace Sys2Proof.Machine

/-- The die of a cluster (R12). -/
def dieOf (c : ClusterNo) : DieNo := ⟨c.val / 16, by omega⟩

/-- The number of a cluster within its die (R12). -/
def coreOf (c : ClusterNo) : Nat := c.val % 16

namespace State

def unit? (s : State) (u : Uid) : Option UnitSt := s.units[u]?
def setUnit (s : State) (u : Uid) (x : UnitSt) : State := { s with units := s.units.set u x }
def modUnit (s : State) (u : Uid) (f : UnitSt → UnitSt) : State := { s with units := s.units.modify u f }
def cluster (s : State) (c : ClusterNo) : Cluster := s.clusters.get c
def setCluster (s : State) (c : ClusterNo) (x : Cluster) : State := { s with clusters := s.clusters.set c x }
def modCluster (s : State) (c : ClusterNo) (f : Cluster → Cluster) : State := s.setCluster c (f (s.cluster c))
def die (s : State) (d : DieNo) : Die := s.dies.get d
def setDie (s : State) (d : DieNo) (x : Die) : State := { s with dies := s.dies.set d x }
def modDie (s : State) (d : DieNo) (f : Die → Die) : State := s.setDie d (f (s.die d))
def setHub (s : State) (h : Hub) : State := { s with hub := h }
def modHub (s : State) (f : Hub → Hub) : State := s.setHub (f s.hub)
def modWalk (s : State) (f : Walker → Walker) : State := s.modHub fun h => { h with walk := f h.walk }
def modDir (s : State) (f : Directory → Directory) : State := s.modHub fun h => { h with dir := f h.dir }
def setIssue (s : State) (i : Issue) : State := { s with issue := i }
def setMod (s : State) (m : ModuleSt) : State := { s with mod := m }
def setMem (s : State) (m : List Host.Cell) : State := { s with mem := m }
def ctx? (s : State) (a : BitVec 16) : Option Context := s.hub.contexts.find? (fun k => k.asid == a)
def modCtx (s : State) (a : BitVec 16) (f : Context → Context) : State :=
  s.modHub fun h => { h with contexts := updateFirst (fun k => k.asid == a) f h.contexts }
def launch? (s : State) (l : Nat) : Option Launch := s.hub.launches[l]?
def modLaunch (s : State) (l : Nat) (f : Launch → Launch) : State :=
  s.modHub fun h => { h with launches := h.launches.modify l f }
def buf? (s : State) (b : Nat) : Option TvBuf := s.hub.walk.bufs[b]?
def modBuf (s : State) (b : Nat) (f : TvBuf → TvBuf) : State :=
  s.modWalk fun w => { w with bufs := w.bufs.modify b f }
def modArray (s : State) (c : ClusterNo) (f : ArraySt → ArraySt) : State :=
  s.modCluster c fun k => { k with array := f k.array }
def modSync (s : State) (d : DieNo) (f : SyncEngine → SyncEngine) : State :=
  s.modDie d fun x => { x with sync := f x.sync }
def modEngine (s : State) (c : ClusterNo) (e : BitVec 1) (f : CopyEngine → CopyEngine) : State :=
  s.modCluster c fun k => { k with eng := k.eng.set e.toFin (f (k.eng.get e.toFin)) }
def engine (s : State) (c : ClusterNo) (e : BitVec 1) : CopyEngine := (s.cluster c).eng.get e.toFin

/-- A new number for a request, and the state that has used it. -/
def newReq (s : State) : Nat × State := (s.nextReq, { s with nextReq := s.nextReq + 1 })

/-- A free 64-bit value (R225), and the state that has used it. -/
def freeWord (s : State) : BitVec 64 × State := (Config.freeWord s.fresh, { s with fresh := s.fresh + 1 })

end State

namespace UnitSt

def modRun (u : UnitSt) (f : RunSt → RunSt) : UnitSt := { u with run := f u.run }
def modCsr (u : UnitSt) (f : Csrs → Csrs) : UnitSt := { u with csr := f u.csr }
def modRegs (u : UnitSt) (f : Regs → Regs) : UnitSt := { u with regs := f u.regs }
def modFlow (u : UnitSt) (f : Flow → Flow) : UnitSt := { u with flow := f u.flow }
def modMem (u : UnitSt) (f : UnitMem → UnitMem) : UnitSt := { u with umem := f u.umem }
def modEng (u : UnitSt) (f : UnitEng → UnitEng) : UnitSt := { u with eng := f u.eng }
def modSyncSt (u : UnitSt) (f : UnitSync → UnitSync) : UnitSt := { u with sync := f u.sync }
def modCurt (u : UnitSt) (f : Curt → Curt) : UnitSt := { u with curt := f u.curt }

/-- A scalar register; s0 reads as zero (R74). -/
def reg (u : UnitSt) (r : BitVec 6) : Word := if r = 0 then 0 else u.regs.s.get r.toFin

/-- A predicate; p0 reads as true (R74). -/
def pred (u : UnitSt) (i : BitVec 3) : Bool := if i = 0 then true else u.regs.p.getLsbD i.toNat

/-- A stage predicate. -/
def stage (u : UnitSt) (i : BitVec 3) : Bool := u.regs.ps.getLsbD i.toNat

/-- The predicate byte p7…p0, bit 0 always 1 (R86). -/
def predByte (u : UnitSt) : BitVec 8 := u.regs.p ||| 1

/-- The virtual address of the bundle at PC (R75). -/
def bundleVa (u : UnitSt) : Va := u.flow.pchi ++ u.flow.pc.addr

/-- The address in a window (R107): bits [79:64] from the window, no carry into them. -/
def windowVa (u : UnitSt) (w : BitVec 2) (lo : Word) : Va := (u.csr.wb.get w.toFin) ++ lo

/-- A unit that has not completed. -/
def live (u : UnitSt) : Bool :=
  match u.run.status with
  | .complete _ => false
  | _ => true

def isPrompter (u : UnitSt) : Bool := u.ident.prompt.isSome

def isFrozen (u : UnitSt) : Bool :=
  match u.run.status with
  | .frozenFree => true
  | .prompterWait => true
  | .frozenHeld => true
  | _ => false

end UnitSt

end Sys2Proof.Machine
end

