-- ==== Sys2Proof/Machine/Operands.lean ====
section
/-! DEFINITION.
Operand forms: the four directions of a tile operand (R46, R133), the immediate with a lend byte (R38), the guard of
an S.RR or S.CTL slot (R43), the fields of a vector lend byte (R40), and the registers that the checking scoreboard
compares (R62, R136). -/

namespace Sys2Proof.Machine

/-! ### Tile operands -/

/-- Row and column of element i of a vector in a direction at an index (R46). -/
def elemPos (dir : BitVec 2) (index : BitVec 4) (i : Nat) : Nat × Nat :=
  match dir with
  | 0 => (index.toNat, i)
  | 1 => (i, index.toNat)
  | 2 => (i, (i + index.toNat) % 16)
  | _ => (i, (index.toNat + 16 - i) % 16)

/-- Element (row, column) of a tile (R133). -/
def tileElem (t : BitVec 8192) (r c : Nat) : BitVec 32 := t.extractLsb' (32 * (16 * r + c)) 32

/-- A tile with one element changed. -/
def setTileElem (t : BitVec 8192) (r c : Nat) (v : BitVec 32) : BitVec 8192 :=
  (t &&& ~~~((0xFFFFFFFF#8192) <<< (32 * (16 * r + c)))) ||| ((v.setWidth 8192) <<< (32 * (16 * r + c)))

/-- Lane i of a 512-bit vector: element ei (R133). -/
def lane32 (v : BitVec 512) (i : Nat) : BitVec 32 := v.extractLsb' (32 * i) 32

/-- 64-bit lane j: e(2j+1):e(2j) (R133). -/
def lane64 (v : BitVec 512) (j : Nat) : BitVec 64 := v.extractLsb' (64 * j) 64

/-- A vector from its sixteen 32-bit lanes. -/
def vec32 (f : Nat → BitVec 32) : BitVec 512 :=
  (List.range 16).foldl (fun acc i => acc ||| ((f i).setWidth 512 <<< (32 * i))) 0

/-- A vector from its eight 64-bit lanes. -/
def vec64 (f : Nat → BitVec 64) : BitVec 512 :=
  (List.range 8).foldl (fun acc j => acc ||| ((f j).setWidth 512 <<< (64 * j))) 0

/-- The sixteen elements that a direction and index name (R46). -/
def readVec (t : BitVec 8192) (dir : BitVec 2) (index : BitVec 4) : BitVec 512 :=
  vec32 fun i => let p := elemPos dir index i; tileElem t p.1 p.2

/-- A tile with the sixteen named elements written (R133). -/
def writeVec (t : BitVec 8192) (dir : BitVec 2) (index : BitVec 4) (v : BitVec 512) : BitVec 8192 :=
  (List.range 16).foldl (fun acc i => let p := elemPos dir index i; setTileElem acc p.1 p.2 (lane32 v i)) t

/-- A vector operand: the tile with its third bit from the lend byte, the direction and the index (R46). -/
structure VOperand where
  tile : BitVec 3
  dir : BitVec 2
  index : BitVec 4
  deriving DecidableEq, Repr

/-- The operand of an 8-bit field with its lend bit (R40, R46). -/
def vOperand (field : BitVec 8) (hi : Bool) : VOperand :=
  ⟨BitVec.ofBool hi ++ field.extractLsb' 4 2, field.extractLsb' 6 2, field.extractLsb' 0 4⟩

/-- Reading a vector operand. -/
def UnitSt.vec (u : UnitSt) (o : VOperand) : BitVec 512 := readVec (u.regs.tiles.get o.tile.toFin) o.dir o.index

/-- An operand in the slow partition t4 to t7 (R134). -/
def VOperand.slow (o : VOperand) : Bool := o.tile.getLsbD 2

/-! ### Lend bytes -/

/-- RM of a vector lend byte (R40). -/
def lendRm (l : BitVec 8) : BitVec 3 := l.extractLsb' 5 3
def lendTd (l : BitVec 8) : Bool := l.getLsbD 4
def lendTa (l : BitVec 8) : Bool := l.getLsbD 3
def lendTb (l : BitVec 8) : Bool := l.getLsbD 2
def lendFmt (l : BitVec 8) : BitVec 2 := l.extractLsb' 0 2

/-- The immediate of an S.RI slot (R38): with a header imm18, else imm10; sign-extended. -/
def immSext (is : Issue) (i : BitVec 10) : Word :=
  if is.hasHdr then (is.lend ++ i : BitVec 18).signExtend 64 else i.signExtend 64

/-- LIX's immediate, zero-extended (R38). -/
def immZext (is : Issue) (i : BitVec 10) : Word :=
  if is.hasHdr then (is.lend ++ i : BitVec 18).setWidth 64 else i.setWidth 64

/-- The guard of an S.RR or guarded S.CTL slot (R43). -/
def guardHolds (u : UnitSt) (g : BitVec 3) (i : BitVec 1) : Bool := (u.pred g) != (i == 1)

/-- A predicate source 0 to 15: p0 to p7, then ps0 to ps7 (R86). -/
def predSource (u : UnitSt) (n : BitVec 6) : Bool :=
  if n.toNat < 8 then u.pred (n.extractLsb' 0 3) else u.stage (n.extractLsb' 0 3)

/-! ### The checking scoreboard -/

/-- What a slot reads or writes, for the checks of R62. -/
abbrev Res := Dest

/-- Whether two destinations share a register, or for tiles an element (R62, R136). -/
def Dest.overlaps : Dest → Dest → Bool
  | .scalar a, .scalar b => a == b
  | .pred a, .pred b => a == b
  | .stage a, .stage b => a == b
  | .csr a, .csr b => a == b
  | .tile t d i, .tile t' d' i' =>
    t == t' && (List.range 16).any fun x => (List.range 16).any fun y => elemPos d i x == elemPos d' i' y
  | _, _ => false

/-- The destination a vector operand names. -/
def VOperand.dest (o : VOperand) : Dest := .tile o.tile o.dir o.index

/-- A write to s0 or p0 is discarded and makes no entry (R74). -/
def Dest.discarded : Dest → Bool
  | .scalar r => r == 0
  | .pred i => i == 0
  | _ => false

/-- R62 with the stall check set: a read of a register with a pending entry, or a write that would become visible
together with a pending one. -/
def stallBad (u : UnitSt) (reads : List Dest) (writes : List (Dest × Nat)) : Bool :=
  u.csr.check.getLsbD 0 &&
    (reads.any (fun r => u.pend.any fun e => e.dest.overlaps r)
      || writes.any (fun w => !w.1.discarded && u.pend.any fun e => e.dest.overlaps w.1 && e.m == w.2))

/-- A source predicate of R86 as a register of the scoreboard. -/
def predDest (n : BitVec 6) : Dest :=
  if n.toNat < 8 then .pred (n.extractLsb' 0 3) else .stage (n.extractLsb' 0 3)

end Sys2Proof.Machine
end

