-- ==== Sys2Proof/Machine/Ops.lean ====
section
/-! DEFINITION.
The named operations that the meanings share: how a slot is checked and issued (R33, R36), the pending-write record
(R60, R61, R79), CSRs (R76 to R78), units and running orders (R376 to R379), TAKING A FAULT (R33, R335 to R341) and
the return from one (R348). -/

namespace Sys2Proof.Machine

/-! ### Fault codes (R336) -/

def cIllegalBundle : BitVec 8 := 0x01
def cIllegalOp : BitVec 8 := 0x02
def cUndersized : BitVec 8 := 0x03
def cPort : BitVec 8 := 0x04
def cMisaligned : BitVec 8 := 0x05
def cTranslation : BitVec 8 := 0x06
def cProtection : BitVec 8 := 0x07
def cWatch : BitVec 8 := 0x08
def cPoison : BitVec 8 := 0x09
def cFpTrap : BitVec 8 := 0x0A
def cDivZero : BitVec 8 := 0x0B
def cRing : BitVec 8 := 0x0C
def cTile : BitVec 8 := 0x0D
def cArray : BitVec 8 := 0x0E
def cCopy : BitVec 8 := 0x0F
def cNmIndex : BitVec 8 := 0x10
def cAtomic : BitVec 8 := 0x11
def cDieLost : BitVec 8 := 0x12
def cTrap : BitVec 8 := 0x13
def cBreak : BitVec 8 := 0x14
def cPrivilege : BitVec 8 := 0x15
def cCapability : BitVec 8 := 0x16
def cOverrun : BitVec 8 := 0x17

/-! ### The pending-write record (R79) -/

/-- An entry of the unit's record at the bundle it issues. -/
def mkEntry (s : State) (u : UnitSt) (d : Dest) (v : BitVec 512) (lat : Nat) (flags : BitVec 5) : PEntry :=
  { dest := d, value := v, awaited := false, flags := flags, bundle := u.flow.pc.addr, slot := s.issue.slot, m := lat,
    load := none, baraw := false }

/-- A load whose data an engine does not send in a reply. -/
def PEntry.dataComes (e : PEntry) : Bool := match e.load with | some l => !l.sync | none => false

/-- The record with one more write; a write to s0 or p0 is discarded and makes no entry (R74), but the data of a load to s0 still
comes (R113). -/
def UnitSt.push (u : UnitSt) (e : PEntry) : UnitSt :=
  if e.dest.discarded then (if e.dataComes then { u with drops := u.drops ++ [e] } else u) else { u with pend := u.pend ++ [e] }

/-- Enters a write in the record of a unit. -/
def schedule (s : State) (uid : Uid) (u : UnitSt) (d : Dest) (v : BitVec 512) (lat : Nat) (flags : BitVec 5 := 0) :
    State :=
  s.setUnit uid (u.push (mkEntry s u d v lat flags))

/-- Enters a write to a scalar register. -/
def schedScalar (s : State) (uid : Uid) (u : UnitSt) (r : BitVec 6) (v : Word) (lat : Nat) : State :=
  schedule s uid u (.scalar r) (v.setWidth 512) lat

/-- Enters a write to a predicate. -/
def schedPred (s : State) (uid : Uid) (u : UnitSt) (i : BitVec 3) (v : Bool) (lat : Nat) : State :=
  schedule s uid u (.pred i) ((BitVec.ofBool v).setWidth 512) lat

/-- A value shown at a predicate byte's bit. -/
def setBit8 (x : BitVec 8) (i : BitVec 3) (b : Bool) : BitVec 8 :=
  (x &&& ~~~((1#8) <<< i.toNat)) ||| ((BitVec.ofBool b).setWidth 8 <<< i.toNat)

/-! ### CSRs (R58, R76) -/

/-- UNITID (R76). -/
def UnitSt.unitid (u : UnitSt) : Word :=
  (0#16) ++ u.ident.asid ++ (0#8) ++ BitVec.ofBool u.isPrompter ++ (BitVec.ofNat 7 u.ident.cluster.val) ++ u.ident.index

/-- CURT (R398). -/
def UnitSt.curtReg (u : UnitSt) : Word :=
  (0#23) ++ u.curt.budget ++ (0#11) ++ BitVec.ofBool u.curt.stopped ++ u.curt.point ++ BitVec.ofBool u.curt.inentry
    ++ BitVec.ofBool u.curt.struck

/-- A CSR's value at issue (R77). `none`: a reserved number (R58). -/
def readCsr (s : State) (u : UnitSt) (n : BitVec 10) : Option Word :=
  match n.toNat with
  | 0x000 => some (u.csr.flags.setWidth 64)
  | 0x001 => some (u.csr.fte.setWidth 64)
  | 0x002 => some (u.csr.rmode.setWidth 64)
  | 0x003 => some (u.csr.check.setWidth 64)
  | 0x004 => some (u.csr.land.setWidth 64)
  | 0x008 => some (s.cluster u.ident.cluster).cyc
  | 0x009 => some u.csr.holdc
  | 0x00A => some u.csr.portc
  | 0x010 => some ((u.csr.wb.get 0).setWidth 64)
  | 0x011 => some ((u.csr.wb.get 1).setWidth 64)
  | 0x012 => some ((u.csr.wb.get 2).setWidth 64)
  | 0x013 => some ((u.csr.wb.get 3).setWidth 64)
  | 0x018 => some u.csr.rbseed0
  | 0x019 => some u.csr.rbseed1
  | 0x020 => some u.unitid
  | 0x021 => some (match s.ctx? u.ident.asid with
      | some k => k.dies.setWidth 64
      | none => 0)
  | 0x022 => some u.curtReg
  | _ => none

/-- The CSRs that a write changes at all (R7, R76): the others are read-only. -/
def csrWritable (n : BitVec 10) : Bool :=
  [0, 1, 2, 3, 4, 9, 0xA, 0x10, 0x11, 0x12, 0x13, 0x18, 0x19].contains n.toNat

/-- R77: a write that would leave RMODE.MODE at 0b101 to 0b111, or LAND.DELAY at 0. -/
def csrWriteIllegal (n : BitVec 10) (v : Word) : Bool :=
  (n.toNat == 2 && decide (5 ≤ (v.extractLsb' 0 3).toNat)) || (n.toNat == 4 && v.extractLsb' 0 8 == 0)

/-- The unit's CSRs after a write becomes visible: RSV bits and read-only CSRs ignore it (R7, R8).  A write of a
random-bit seed discards the queue (R164). -/
def applyCsr (c : Csrs) (n : BitVec 10) (v : Word) : Csrs :=
  match n.toNat with
  | 0x000 => { c with flags := v.extractLsb' 0 5 }
  | 0x001 => { c with fte := v.extractLsb' 0 5 }
  | 0x002 => { c with rmode := v.extractLsb' 0 3 }
  | 0x003 => { c with check := v.extractLsb' 0 2 }
  | 0x004 => { c with land := v.extractLsb' 0 8 }
  | 0x009 => { c with holdc := v }
  | 0x00A => { c with portc := v }
  | 0x010 => { c with wb := c.wb.set 0 (v.extractLsb' 0 16) }
  | 0x011 => { c with wb := c.wb.set 1 (v.extractLsb' 0 16) }
  | 0x012 => { c with wb := c.wb.set 2 (v.extractLsb' 0 16) }
  | 0x013 => { c with wb := c.wb.set 3 (v.extractLsb' 0 16) }
  | 0x018 => { c with rbseed0 := v, rbqueue := 0 }
  | 0x019 => { c with rbseed1 := v, rbqueue := 0 }
  | _ => c

/-! ### A pending write becomes visible (R60, R61, R78) -/

/-- The unit with the value of an entry in its destination and the entry's flags ORed into FLAGS. -/
def applyEntry (u : UnitSt) (e : PEntry) : UnitSt :=
  let u := match e.dest with
    | .scalar r => u.modRegs fun g => { g with s := g.s.set r.toFin (e.value.extractLsb' 0 64) }
    | .pred i => u.modRegs fun g => { g with p := setBit8 g.p i (e.value.getLsbD 0) }
    | .stage i => u.modRegs fun g => { g with ps := setBit8 g.ps i (e.value.getLsbD 0) }
    | .tile t d i => u.modRegs fun g => { g with tiles := g.tiles.set t.toFin (writeVec (g.tiles.get t.toFin) d i e.value) }
    | .csr n => u.modCsr fun c => applyCsr c n (e.value.extractLsb' 0 64)
  u.modCsr fun c => { c with flags := c.flags ||| e.flags }

/-- The entries that become visible together, applied in R61's order: by issue, then by slot, CSR writes of FLAGS
before the flags that results raise (R78). -/
def applyDue (u : UnitSt) (due : List PEntry) : UnitSt :=
  let isCsr (e : PEntry) : Bool := match e.dest with | .csr _ => true | _ => false
  let u := (due.filter isCsr).foldl applyEntry u
  (due.filter fun e => !isCsr e).foldl applyEntry u

/-- The entries of a record that become visible now, and those that stay.  A write whose time has come waits for one issued
before it to the same register whose data is late: they become visible together, in R61's order.  `b` holds the destinations
that are waited for. -/
def splitDue : List PEntry → List Dest → List PEntry × List PEntry
  | [], _ => ([], [])
  | e :: rest, b =>
    if e.m != 0 then let x := splitDue rest b
                     (x.1, e :: x.2)
    else if e.awaited || b.any (fun d => d.overlaps e.dest) then let x := splitDue rest (e.dest :: b)
                                                                 (x.1, e :: x.2)
    else let x := splitDue rest b
         (e :: x.1, x.2)

/-- Entries whose time has come become visible (R60, R61, R111). -/
def settle (u : UnitSt) : UnitSt :=
  let x := splitDue u.pend []
  if x.1.isEmpty then u else applyDue { u with pend := x.2 } x.1

/-- An unheld cycle of a unit: every entry's remaining latency falls by one, and entries that reach zero leave the
record and become visible (R60, R80). -/
def retire (u : UnitSt) : UnitSt :=
  (settle { u with pend := u.pend.map fun e => { e with m := e.m - 1 } }).modRun fun r => { r with vtrans := r.vtrans.map (· - 1) }

/-! ### Launch timing and running orders (R363, R377, R379) -/

/-- Remaining declared cost: COST of the unit's segment and of those after it (R363). -/
def remainingCost (segs : List (BitVec 64 × BitVec 32)) (i : Nat) : Nat :=
  ((segs.drop i).map fun x => x.2.toNat).sum

/-- The order key of a unit under R377: (no deadline, slack in sixths of a nanosecond without TAI, serial, index).
TAI is the same for every unit of a rebuild, so it drops out of every comparison. -/
def slackKey (s : State) (uid : Uid) : Nat × Int × Nat × Nat :=
  match s.unit? uid with
  | none => (2, 0, 0, 0)
  | some u =>
    match u.ident.launch.bind s.launch? with
    | none => (2, 0, 0, u.ident.index.toNat)
    | some l =>
      match l.deadline with
      | none => (1, 0, l.serial.toNat, u.ident.index.toNat)
      | some d => (0, 6 * (d : Int) - 5 * (remainingCost l.segs u.run.segIndex : Int), l.serial.toNat, u.ident.index.toNat)

/-- Lexicographic comparison of two order keys. -/
def keyLe (a b : Nat × Int × Nat × Nat) : Bool :=
  if a.1 != b.1 then decide (a.1 < b.1)
  else if a.2.1 != b.2.1 then decide (a.2.1 < b.2.1)
  else if a.2.2.1 != b.2.2.1 then decide (a.2.2.1 < b.2.2.1) else decide (a.2.2.2 ≤ b.2.2.2)

/-- Inserting an entry of a running order by least slack. -/
def insertEntry (s : State) (x : Uid) : List Uid → List Uid
  | [] => [x]
  | y :: rest => if keyLe (slackKey s y) (slackKey s x) then y :: insertEntry s x rest else x :: y :: rest

/-- The prompter of a context that runs on a core, if one does (R338): live and not stopped by a fault of its own. -/
def prompterOn (s : State) (a : BitVec 16) (c : ClusterNo) : Option Uid :=
  (List.range s.units.length).find? fun i =>
    match s.unit? i with
    | some u => u.isPrompter && u.ident.asid == a && u.ident.cluster == c && u.live && u.run.status != .stopped
    | none => false

/-- A bank of the cluster owned by another unit, pending or not (R365). -/
def bankForeign (k : Cluster) (uid : Uid) (space : BitVec 2) (i : Nat) : Bool :=
  k.banks.any fun b => b.space == space && b.bank == i && b.owner != uid

/-- The bits of a mask. -/
def maskBits {w : Nat} (m : BitVec w) : List Nat := (List.range w).filter fun i => m.getLsbD i

/-- Whether the start banks of an unstarted unit are all free (R365). -/
def startBanksFree (s : State) (uid : Uid) (u : UnitSt) : Bool :=
  let k := s.cluster u.ident.cluster
  (maskBits u.umem.tbank).all (fun i => !bankForeign k uid 0 i) && (maskBits u.umem.cbank).all (fun i => !bankForeign k uid 1 i)
    && (maskBits u.umem.lbank).all (fun i => !bankForeign k uid 2 i)

/-- A prompter waits for the end of a step (R349). -/
def stepping (s : State) (p : Uid) : Bool := s.units.any fun x => x.run.stepFor == some p

/-- The unit that would run in an entry (R376): its unit when parked and, if not started, with its start banks free;
a frozen unit's prompter when that is parked and waits for no step; none when the entry is not ready. -/
def runner (s : State) (entry : Uid) : Option Uid :=
  match s.unit? entry with
  | none => none
  | some u =>
    match u.run.status with
    | .parked => if u.run.started || startBanksFree s entry u then some entry else none
    | .running => some entry
    | .frozenFree | .frozenHeld =>
      match prompterOn s u.ident.asid u.ident.cluster with
      | some p => match s.unit? p with
        | some v => if (v.run.status == .parked && !stepping s p) || v.run.status == .running then some p else none
        | none => none
      | none => none
    | _ => none

/-- The entry of the running order in which a unit runs: its own, or for a prompter that of the frozen unit in which its segment
began (R341). -/
def entryOf (s : State) (k : Cluster) (uid : Uid) : Option Uid :=
  if k.order.contains uid then some uid else (s.unit? uid).bind fun u => u.run.inEntry

/-- R377, R379: the entries not yet reached are put in least-slack order, and a ready entry of strictly smaller slack
than the running unit's asks for its pre-emption. -/
def rebuildOrder (s : State) (c : ClusterNo) : State :=
  let k := s.cluster c
  let reached := k.order.take k.pos
  let sorted := (k.order.drop k.pos).foldl (fun acc x => insertEntry s x acc) []
  let s := s.setCluster c { k with order := reached ++ sorted }
  match k.running with
  | none => s
  | some r =>
    match entryOf s k r with
    | none => s
    | some mine =>
      let smaller := sorted.any fun e =>
        (runner s e).isSome && !(keyLe ((slackKey s mine).1, (slackKey s mine).2.1, 0, 0) ((slackKey s e).1, (slackKey s e).2.1, 0, 0))
      if smaller then s.modUnit r fun u => u.modRun fun x => { x with preempt := true } else s

/-- A unit's segment ends: the core is free for the next ready entry (R378), and the walks that failed for it are
forgotten (an access made again walks again). -/
def endSegment (s : State) (uid : Uid) (c : ClusterNo) : State :=
  let s := s.modWalk fun w => { w with walks := w.walks.filter fun k => !(k.cluster == c && k.fail.isSome) }
  if (s.cluster c).running == some uid then s.modCluster c fun k => { k with running := none } else s

/-- The cluster takes part in the schedule. -/
def activate (s : State) (c : ClusterNo) : State :=
  if s.active.contains c then s else { s with active := s.active ++ [c] }

/-! ### New units -/

/-- No loop active. -/
def LoopSt.none : LoopSt := ⟨0, 0, 0, 0, 0, false, false⟩

/-- A unit as it is placed, before its wings' values: registers and predicates at the values log 10 names, the PC
chain at its entry (R365), no pending writes, PARKED (R337). -/
def UnitSt.fresh (id : UnitId) (pchi : BitVec 16) (pc : BitVec 64) : UnitSt :=
  { ident := id
    regs := { s := Vector.replicate 64 0, p := 1, ps := 0, tiles := Vector.replicate 8 0 }
    csr := { flags := 0, fte := 0, rmode := 0, check := 0, land := 6, holdc := 0, portc := 0, wb := Vector.replicate 4 0,
             rbseed0 := 0, rbseed1 := 0, rbqueue := 0 }
    curt := { struck := false, inentry := false, point := 0, stopped := false, budget := 0, window := none }
    flow := { pc := ⟨pc, false, none, false⟩, npc := ⟨pc + 16, false, some pc, false⟩,
              nnpc := ⟨pc + 32, false, some (pc + 16), false⟩, pchi := pchi, lc := Vector.replicate 2 0,
              loops := Vector.replicate 2 LoopSt.none, skip := 0, last := none }
    pend := []
    drops := []
    umem := { wcha := Vector.replicate 2 0, wchc := Vector.replicate 2 0, tbl := [], q := Vector.replicate 8 none,
              tbank := 0, cbank := 0, lbank := 0, views := [], haltRel := none }
    eng := { cg := Vector.replicate 2 (Vector.replicate 16 0), tok := Vector.replicate 2 0, kc := Vector.replicate 4 0,
             arrayTag := 0 }
    sync := { members := [], barawReq := none, barwaitReq := none, barwaitReply := none, barwaitDone := none }
    run := { status := .parked, gen := 0, bundles := 0, gap := 0, segCycles := 0, segIndex := 0, started := false,
             wait := none, due := [], record := none, dieLost := false, lostAt := 0, curtFrozen := false, frozenAt := 0,
             preempt := false, drainLevel := none, endSeg := false, stepFor := none, stepSd := 0, stepKc := 0, stepFrom := 0,
             watchFree := false, publIssued := false, parkPoint := none, inEntry := none,
             vtrans := Vector.replicate 2 0, standing := 0, stood := false } }

/-- The lowest free pool slot of a context (R338, R360). -/
def freeSlot (k : Context) : Option (BitVec 6) :=
  let size := (k.pctl.extractLsb' 16 6).toNat + 1
  ((List.range 64).filter fun i => i < size && !(k.slots.any fun x => x.1.toNat == i)).head?.map (BitVec.ofNat 6)

/-- PCTL.PEN (R340, R360). -/
def Context.pen (k : Context) : Bool := k.pctl.getLsbD 25

/-- A prompter unit starts on a core in a slot at the prompter entry (R338, R341). -/
def startPrompter (s : State) (k : Context) (slot : BitVec 6) (c : ClusterNo) (serves : Uid) : State :=
  let phi := k.pctl.extractLsb' 0 16
  let id : UnitId := { launch := none, index := slot.setWidth 16, asid := k.asid, cluster := c, prompt := some slot,
                       restart := false, instances := 0, serves := some serves }
  let u := UnitSt.fresh id phi k.pentry
  let u := u.modCsr fun x => { x with wb := Vector.replicate 4 phi }
  let uid := s.units.length
  let s := { s with units := s.units ++ [u] }
  s.modCtx k.asid fun k => { k with slots := k.slots ++ [(slot, uid)] }

/-! ### The recorder (R355) -/

/-- The serial number of a unit's launch, and its index, as log entries hold them. -/
def serialOf (s : State) (u : UnitSt) : BitVec 32 := ((u.ident.launch.bind s.launch?).map (·.serial)).getD 0

/-- PCTL.REC (R360). -/
def Context.recording (k : Context) : Bool := k.pctl.getLsbD 24

/-- An entry of a unit as the recorder writes it (R355, R357). -/
def recEntry (s : State) (u : UnitSt) (kind : RecKind) (tag : Nat) (v : Word) (fault : Option FaultRec := none) : RecEntry :=
  { kind := kind, launch := serialOf s u, index := u.ident.index, bundles := u.run.bundles, tag := tag, value := v, fault := fault }

/-- An entry of the recorder's stream while the unit's context records (R355). -/
def recordEvent (s : State) (uid : Uid) (kind : RecKind) (tag : Nat) (v : Word) (fault : Option FaultRec := none) : State :=
  match s.unit? uid with
  | none => s
  | some u =>
    let e := recEntry s u kind tag v fault
    s.modCtx u.ident.asid fun k => if k.recording then { k with recorder := k.recorder ++ [e] } else k

/-! ### Restartable units (R354) -/

/-- A restartable unit that may still be executed again: no PUBL issued, and at most twice. -/
def againAllowed (u : UnitSt) : Bool := u.ident.restart && !u.run.publIssued && decide (u.ident.instances < 2)

/-- A freeze with POISON or DIE_LOST of a restartable unit: the firmware executes it again, and no prompter is offered it. -/
def firmwareTakes (u : UnitSt) : Bool :=
  againAllowed u && match u.run.record with | some r => r.code == cPoison || r.code == cDieLost | none => false

/-! ### Taking a fault (R33 to R36, R335 to R341) -/

/-- A frozen unit is given to a prompter (R338), or waits for one, or for the firmware: for its policy when PEN is 0 (R340), to be
executed again when it may be (R354). -/
def placeFrozen (s : State) (uid : Uid) (u : UnitSt) : State :=
  let setStatus (s : State) (x : Status) : State := s.modUnit uid fun u => u.modRun fun r => { r with status := x }
  match s.ctx? u.ident.asid with
  | none => setStatus s .stopped
  | some k =>
    if !k.pen || firmwareTakes u then setStatus s .stopped
    else if (prompterOn s u.ident.asid u.ident.cluster).isSome then setStatus s .frozenFree
    else
      match freeSlot k with
      | some slot => startPrompter (setStatus s .frozenFree) k slot u.ident.cluster uid
      | none => (setStatus s .prompterWait).modCtx k.asid fun k => { k with pwait := k.pwait + 1 }

/-- Freezing a unit at a bundle boundary with a fault record: its time stops, the generation rises, its segment ends,
and it is handed to its context's prompters; a prompter stops and its fault is escalated (R342). -/
def freeze (s : State) (uid : Uid) (r : FaultRec) : State :=
  match s.unit? uid with
  | none => s
  | some u =>
    let s := if r.code = cDieLost then recordEvent s uid .dieLost 0 (r.addr.setWidth 64) (some r)
             else if r.after then recordEvent s uid .freeze r.code.toNat (r.addr.setWidth 64) (some r) else s
    let seq := match s.ctx? u.ident.asid with | some k => k.frozenSeq | none => 0
    let u := u.modRun fun x => { x with gen := x.gen + 1, wait := none, record := some r, frozenAt := seq, dieLost := false,
                                        curtFrozen := false, standing := 0, stood := false, preempt := false }
    let s := s.setUnit uid u
    let s := s.modCtx u.ident.asid fun k => { k with frozenSeq := k.frozenSeq + 1 }
    let s := endSegment s uid u.ident.cluster
    let s := if u.isPrompter then s.modUnit uid fun u => u.modRun fun x => { x with status := .stopped }
             else placeFrozen s uid u
    rebuildOrder s u.ident.cluster

/-- The freeze of a bundle whose issue checks fail (R33, R36): the record names the bundle at PC and the slots. -/
def freezeAtIssue (s : State) (code : BitVec 8) (addr : Va) : State :=
  match s.unit? s.issue.me with
  | none => s
  | some u =>
    freeze s s.issue.me { code := code, addr := addr, mask := s.issue.mask, after := false, source := .core,
                          slot := s.issue.slot, bundle := u.flow.pc.addr }

/-- A fault found after issue is noted, to freeze the unit at its next bundle boundary (R34). -/
def noteFault (s : State) (uid : Uid) (r : FaultRec) : State :=
  s.modUnit uid fun u => u.modRun fun x => { x with due := x.due ++ [r] }

/-! ### Issuing a slot (R33) -/

/-- The first check in a list that fails. -/
def firstFail : List SlotResult → SlotResult
  | [] => .done
  | .done :: rest => firstFail rest
  | x :: _ => x

/-- A check that takes a fault when a condition holds. -/
def failIf (c : Bool) (code : BitVec 8) (addr : Va) : SlotResult := if c then .fault code addr else .done

/-- ILLEGAL_OP of the bundle when a condition holds. -/
def illegalIf (u : UnitSt) (c : Bool) : SlotResult := failIf c cIllegalOp u.bundleVa

/-- PRIVILEGE unless the unit is a prompter (R54). -/
def privileged (u : UnitSt) : SlotResult := failIf (!u.isPrompter) cPrivilege u.bundleVa

/-- UNDERSIZED_STALL of R62. -/
def stallCheck (u : UnitSt) (reads : List Dest) (writes : List (Dest × Nat)) : SlotResult :=
  failIf (stallBad u reads writes) cUndersized u.bundleVa

/-- What a slot found is written into `issue`. -/
def noteResult (s : State) (r : SlotResult) : State := s.setIssue { s.issue with result := r }

/-- A slot instruction of the unit at issue: its checks, then its effect.  A failing check freezes the unit with no
effect of the slot (R33); a wait or hold leaves the bundle unissued and is noted for the step. -/
def runSlot (s : State) (chk : State → UnitSt → SlotResult) (eff : State → UnitSt → State) :
    Host.Outcome State Fault Refusal :=
  match s.unit? s.issue.me with
  | none => .fault .noUnit
  | some u =>
    match chk s u with
    | .done => .next (noteResult (eff s u) .done)
    | .fault c a => .next (noteResult (freezeAtIssue s c a) (.fault c a))
    | .wait k => .next (noteResult s (.wait k))
    | .hold k => .next (noteResult s (.hold k))

/-- As `runSlot`, for an instruction that does something while it waits or holds: `onWait` is what it does then, and
the bundle stays unissued. -/
def runSlotW (s : State) (chk : State → UnitSt → SlotResult) (onWait eff : State → UnitSt → State) :
    Host.Outcome State Fault Refusal :=
  match s.unit? s.issue.me with
  | none => .fault .noUnit
  | some u =>
    match chk s u with
    | .done => .next (noteResult (eff s u) .done)
    | .fault c a => .next (noteResult (freezeAtIssue s c a) (.fault c a))
    | .wait k => .next (noteResult (onWait s u) (.wait k))
    | .hold k => .next (noteResult (onWait s u) (.hold k))

/-- A lend byte lent to an S.RR, S.CTL or other slot that defines no bit of it (R41). -/
def noLend (s : State) (u : UnitSt) : SlotResult := illegalIf u (s.issue.lend != 0)

/-! ### Random bits (R162, R163) -/

/-- One step of the generator: the word and the next state (R162). -/
def rbStep (r0 r1 : Word) : Word × Word × Word :=
  let a := if r0 = 0 ∧ r1 = 0 then 1 else r0
  let b := r1
  let a := a ^^^ (a <<< 23)
  let a := a ^^^ (a >>> 17)
  let a := a ^^^ b ^^^ (b >>> 26)
  (a + b, b, a)

/-- A word taken from the queue by the unit (R163): architecturally the next step of the generator. -/
def takeWord (u : UnitSt) : Word × UnitSt :=
  let w := rbStep u.csr.rbseed0 u.csr.rbseed1
  (w.1, u.modCsr fun c => { c with rbseed0 := w.2.1, rbseed1 := w.2.2, rbqueue := c.rbqueue - 1 })

end Sys2Proof.Machine
end

