-- ==== Sys2Proof/Machine/Complete.lean ====
section
/-! DEFINITION.
Capabilities (R343), the hand-out of prompter slots (R339) and the completion of a unit (R16, R128, R199, R338). -/

namespace Sys2Proof.Machine

/-! ### Capabilities (R343) -/

/-- Core-local number of a unit: how many units were placed on its cluster before it. -/
def localNo (s : State) (uid : Uid) (c : ClusterNo) : Nat :=
  ((s.units.take uid).filter fun v => v.ident.cluster == c).length

/-- The capability of a unit for a prompter's slot (R343). -/
def mkCap (s : State) (uid : Uid) (u : UnitSt) (pool : BitVec 6) : Word :=
  let c := u.ident.cluster
  (0#22) ++ pool ++ u.run.gen ++ BitVec.ofNat 12 (localNo s uid c) ++ BitVec.ofNat 4 (coreOf c)
    ++ BitVec.ofNat 3 (dieOf c).val ++ 1#1

/-- The unit that a capability held by a prompter names, when it is current (R343). -/
def capUnit (s : State) (p : UnitSt) (kc : Word) : Option Uid :=
  match p.ident.prompt with
  | none => none
  | some pool =>
    if kc.getLsbD 0 && kc.extractLsb' 36 6 == pool then
      (List.range s.units.length).find? fun i =>
        match s.unit? i with
        | some v => v.run.status == .frozenHeld && v.ident.asid == p.ident.asid && mkCap s i v pool == kc
        | none => false
    else none

/-- Dropping the capability of a unit: the generation rises and the unit is FROZEN_FREE again (R352). -/
def dropCap (s : State) (uid : Uid) : State :=
  s.modUnit uid fun v => v.modRun fun r => { r with gen := r.gen + 1, status := .frozenFree }

/-- Dropping every capability a prompter holds. -/
def dropCaps (s : State) (puid : Uid) : State :=
  match s.unit? puid with
  | none => s
  | some p =>
    let s := (List.finRange 4).foldl (fun s i =>
      match capUnit s p (p.eng.kc.get i) with
      | some v => dropCap s v
      | none => s) s
    s.modUnit puid fun p => p.modEng fun e => { e with kc := Vector.replicate 4 0 }

/-! ### A slot frees (R339) -/

/-- The oldest unit of a context that a test accepts: by freeze order, then by cluster number (R339, R345). -/
def oldestUnit (s : State) (a : BitVec 16) (ok : UnitSt → Bool) : Option Uid :=
  (List.range s.units.length).foldl (fun best i =>
    match s.unit? i with
    | some v =>
      if v.ident.asid == a && ok v then
        match best with
        | none => some i
        | some b =>
          match s.unit? b with
          | some w => if decide (v.run.frozenAt < w.run.frozenAt) ||
              (v.run.frozenAt == w.run.frozenAt && decide (v.ident.cluster.val < w.ident.cluster.val)) then some i else best
          | none => some i
      else best
    | none => best) none

/-- While PEN is 0 no prompter starts (R340): the FROZEN_FREE units of a core whose slot frees wait, and are counted. -/
def waitForPen (s : State) (a : BitVec 16) (c : ClusterNo) : State :=
  let left (u : UnitSt) : Bool := u.ident.asid == a && u.ident.cluster == c && u.run.status == .frozenFree
  let n := (s.units.filter left).length
  let s := { s with units := s.units.map fun u => if left u then u.modRun fun r => { r with status := .prompterWait } else u }
  s.modCtx a fun k => { k with pwait := k.pwait + BitVec.ofNat 48 n }

/-- R339: a slot that frees goes to the FROZEN_FREE units of its own core first, then to the oldest waiting unit. -/
def giveSlot (s : State) (a : BitVec 16) (c : ClusterNo) (slot : BitVec 6) : State :=
  match s.ctx? a with
  | none => s
  | some k =>
    if !k.pen then waitForPen s a c
    else
      match oldestUnit s a (fun v => v.run.status == .frozenFree && v.ident.cluster == c) with
      | some v => startPrompter s k slot c v
      | none =>
        match oldestUnit s a (fun v => v.run.status == .prompterWait) with
        | some v =>
          match s.unit? v with
          | some w =>
            startPrompter (s.modUnit v fun u => u.modRun fun r => { r with status := .frozenFree }) k slot w.ident.cluster v
          | none => s
        | none => s

/-- A prompter's slot frees, its capabilities dropped (R338, R339). -/
def freePrompter (s : State) (puid : Uid) (p : UnitSt) (slot : BitVec 6) : State :=
  let s := dropCaps s puid
  let s := s.modCtx p.ident.asid fun k => { k with slots := k.slots.filter fun x => x.2 != puid }
  giveSlot s p.ident.asid p.ident.cluster slot

/-! ### Completion (R16) -/

/-- A running order without a unit, the count of entries reached kept right. -/
def leaveOrder (k : Cluster) (uid : Uid) : Cluster :=
  let before := (k.order.take k.pos).filter fun e => e == uid
  { k with order := k.order.filter fun e => e != uid, pos := k.pos - before.length }

/-- A launch's counter falls by one; at 0 its targets are due (R16, R374). -/
def launchUnitDone (s : State) (l : Nat) : State :=
  s.modLaunch l fun x => { x with remain := x.remain - 1, finish := if x.remain ≤ 1 then 1 else x.finish }

/-- A unit completes: its record is empty, its banks are free (R199), it leaves the running order, its barriers
(R279) and its launch's counter (R16). -/
def completeUnit (s : State) (uid : Uid) (e : EndStatus) : State :=
  match s.unit? uid with
  | none => s
  | some u =>
    let c := u.ident.cluster
    let s := endSegment s uid c
    let s := s.setUnit uid ((({ u with pend := [], drops := [] } : UnitSt).modRun fun r =>
      { r with status := .complete e, wait := none, due := [], preempt := false }).modSyncSt fun y =>
      { y with members := [], barawReq := none, barwaitReq := none, barwaitReply := none })
    let s := s.modCluster c fun k => leaveOrder { k with banks := k.banks.filter fun b => b.owner != uid } uid
    let s := (List.finRange 8).foldl (fun s d => s.modSync d fun y =>
      { y with members := y.members.filter (fun m => m.uid != uid), waiters := y.waiters.filter fun w => w.uid != uid }) s
    let s := match u.ident.launch with
      | some l => launchUnitDone s l
      | none => s
    let s := match u.ident.prompt with
      | some slot => freePrompter s uid u slot
      | none => s
    rebuildOrder s c

end Sys2Proof.Machine
end

