-- ==== Sys2Proof/Machine/Cache.lean ====
section
/-! DEFINITION.
The memory system as units and engines use it: LPDDR6 under its key slots (R324, R325), the device's view of a line
(R301), the slices (R296) with the messages they send (R297), the cluster cache (R115), flushes (R116), releases (R120)
and acquires (R121). -/

namespace Sys2Proof.Machine

/-! ### Physical addresses (R316, R410) -/

inductive PaKind where
  | dram (d : DieNo)
  | window
  | host
  | peer (p : Nat)
  | hole
  deriving DecidableEq, Repr

/-- What a physical address reaches. -/
def paKind (pa : Nat) : PaKind :=
  if h : pa < 0x18000000000 then .dram ⟨pa / 0x3000000000, by omega⟩
  else if 0x8000000000000 ≤ pa ∧ pa < 0x8000001000000 then .window
  else if 0xA000000000000 ≤ pa ∧ pa < 0xC000000000000 then .host
  else if 0xC000000000000 ≤ pa ∧ pa < 0x10000000000000 then .peer (pa / 2 ^ 40 % 1024)
  else .hole

/-- The destination number of an outbound access: 0 the host, 1 + p peer p. -/
def outDest (pa : Nat) : Option Nat :=
  match paKind pa with
  | .host => some 0
  | .peer p => some (1 + p)
  | _ => none

/-- The home die of a line of memory (R293, R316). -/
def homeOf (line : Nat) : DieNo :=
  match paKind (128 * line) with
  | .dram d => d
  | _ => 0

/-! ### Memory lines (R324) -/

/-- The key slot under which a line was last written back. -/
def lineKey (s : State) (line : Nat) : BitVec 8 := ((s.lineKeys.find? fun x => x.1 == line).map Prod.snd).getD 0

/-- The key pair of a slot; slot 0 is plaintext (R324). -/
def keyPair (s : State) (slot : BitVec 8) : Option (BitVec 512) :=
  if slot = 0 then none else (s.hub.keys.find? fun x => x.1 == slot).map Prod.snd

/-- A line under one key slot as another reads it: the decryption of its ciphertext, never its plaintext (R325). -/
def rekey (s : State) (old new : BitVec 8) (line : Nat) (data : BitVec 1024) : BitVec 1024 :=
  if old = new then data
  else
    let x := Config.recrypt (keyPair s old) (keyPair s new) line data
    if x = data then ~~~data else x

/-- A line of memory as a fill under a key slot decrypts it (R324, R325). -/
def memLine (s : State) (line : Nat) (key : BitVec 8) : BitVec 1024 :=
  rekey s (lineKey s line) key line (lineOfBytes (Memory.readBytes s.mem (128 * line) 128))

/-- A line written back to memory under a key slot. -/
def writeMemLine (s : State) (line : Nat) (data : BitVec 1024) (key : BitVec 8) : State :=
  let ks := s.lineKeys.filter fun x => x.1 != line
  { s with mem := Memory.writeBytes s.mem (128 * line) (bytesOfLine data),
           lineKeys := if key = 0 then ks else ks ++ [(line, key)] }

/-! ### The slices and the device's view -/

/-- A line of a die's slices. -/
def sliceLine? (x : Die) (line : Nat) : Option SliceLine := x.lines.find? fun l => l.line == line

/-- The slice states in which every byte reads locally (R296). -/
def SliceState.hits : SliceState → Bool
  | .s | .e | .o | .m | .smW | .miA | .oiA | .eiA | .siA => true
  | _ => false

/-- The slice states of an owner (R295, R296). -/
def SliceState.owns : SliceState → Bool
  | .e | .o | .m | .miA | .oiA | .eiA => true
  | _ => false

/-- The slice states in which the dirty mask holds bytes that wait for their device step (R296, R301). -/
def SliceState.waits : SliceState → Bool
  | .smW | .imW | .imD => true
  | _ => false

/-- The slice states of a line whose Put is sent. -/
def SliceState.leaves : SliceState → Bool
  | .miA | .oiA | .eiA | .siA => true
  | _ => false

/-- The directory's entry for a line. -/
def dirEntry? (s : State) (line : Nat) : Option DirEntry := s.hub.dir.entries.find? fun e => e.line == line

/-- The die that the directory has as a line's owner. -/
def dirOwner (s : State) (line : Nat) : Option DieNo := (dirEntry? s line).bind DirEntry.owner

/-- A Put of a line from a die is on its way to the directory (R296). -/
def isPut (m : Msg) : Bool := m.kind == .putM || m.kind == .putO || m.kind == .putE || m.kind == .putS
def putWaits (s : State) (d : DieNo) (line : Nat) : Bool :=
  s.hub.dir.net.any fun m => !m.toDie && m.die == d && m.line == line && isPut m

/-- A die's request to write a line. -/
def isWrite (k : MsgKind) : Bool := k == .getM || k == .upg

/-- The directory is at work on a die's write of a line, which has not been granted. -/
def granting (s : State) (d : DieNo) (line : Nat) : Bool :=
  match (dirEntry? s line).bind DirEntry.cur with
  | some r => r.die == d && isWrite r.kind
  | none => false

/-- A die's request to write a line has still to be granted: it is on its way, queued or at work (R298). -/
def writeAsked (s : State) (d : DieNo) (line : Nat) : Bool :=
  granting s d line || (s.hub.dir.net.any fun m => !m.toDie && m.die == d && m.line == line && isWrite m.kind)
    || match dirEntry? s line with
      | some e => e.queue.any fun r => r.die == d && isWrite r.kind
      | none => false

/-- A die's line holds bytes that have still to reach the device step (R301): in its dirty mask while its request is not
granted, or over forwarded data that came before the grant. -/
def bytesWait (s : State) (d : DieNo) (l : SliceLine) : Bool :=
  (l.st.waits && writeAsked s d l.line) || (l.st == .m && granting s d l.line)

/-- A line of a die whose store has still to reach the device step (R301). -/
def awaitsDevice (s : State) (d : DieNo) (line : Nat) : Bool :=
  match sliceLine? (s.die d) line with
  | some l => bytesWait s d l
  | none => false

/-- A slice's line as other dies may see it: without the bytes that wait. -/
def deviceCopy (s : State) (d : DieNo) (l : SliceLine) : BitVec 1024 := if bytesWait s d l then l.base else l.data

/-- A die's copy that memory does not have: in O or M; in SM_W the owner's, or any that has been granted the line; one being
evicted until its Put is handled. -/
def ownerCopy (s : State) (d : DieNo) (line : Nat) : Option (BitVec 1024 × Bool × BitVec 8) :=
  match sliceLine? (s.die d) line with
  | none => none
  | some l =>
    match l.st with
    | .o | .m => some (deviceCopy s d l, l.poison, l.key)
    | .smW =>
      if bytesWait s d l then (if dirOwner s line = some d then some (l.base, l.poison, l.key) else none)
      else some (l.data, l.poison && l.dirty != BitVec.allOnes 128, l.key)
    | .miA | .oiA => if putWaits s d line then some (l.data, l.poison, l.key) else none
    | _ => none

/-- Data on its way that gives a die a line to write, the bytes that wait there over it where the write is granted. -/
def dataOnWay (s : State) (m : Msg) : BitVec 1024 × Bool × BitVec 8 :=
  match sliceLine? (s.die m.die) m.line with
  | some l =>
    if l.st.waits && !writeAsked s m.die m.line then
      (mergeLine m.data l.data l.dirty, m.poison && l.dirty != BitVec.allOnes 128, m.key)
    else (m.data, m.poison, m.key)
  | none => (m.data, m.poison, m.key)

/-- What is held of a line that memory does not have: (line, poisoned, key slot). -/
def heldLine (s : State) (line : Nat) : Option (BitVec 1024 × Bool × BitVec 8) :=
  match s.hub.dir.net.find? fun m => m.line == line && m.toDie && (m.kind == .fwdData && !m.shared || m.kind == .dataM) with
  | some m => some (dataOnWay s m)
  | none => (List.finRange 8).findSome? fun d => ownerCopy s d line

/-- A line as performed at device scope, under a key slot: a forward or fill to be written on its way, the owner's copy, or
memory. -/
def deviceLine (s : State) (line : Nat) (key : BitVec 8) : BitVec 1024 × Bool :=
  match heldLine s line with
  | some (v, p, k) => (rekey s k key line v, p)
  | none => (memLine s line key, s.poison.contains line)

/-- Bytes at device scope; those of one line are read from it at once. -/
def deviceBytes (s : State) (pa n : Nat) (key : BitVec 8) : List Byte :=
  if pa % 128 + n ≤ 128 then
    let l := (deviceLine s (pa / 128) key).1
    (List.range n).map fun i => lineByte l (pa % 128 + i)
  else (List.range n).map fun i => lineByte (deviceLine s ((pa + i) / 128) key).1 ((pa + i) % 128)

/-- A little-endian number at device scope, plaintext (R317). -/
def deviceNat (s : State) (pa n : Nat) : Nat := leNat (deviceBytes s pa n 0)

/-! ### Directory counters and regions (R302, R310) -/

/-- Number of the 16 KiB region of a line. -/
def regionOf (line : Nat) : Nat := line / 128

def Region.fresh (r : Nat) (floor : BitVec 3) : Region :=
  { region := r, d := floor, mask := 0, quiet := 0, floor := floor, ceil := 0, fills := 0, nofill := 0, collapses := 0,
    pushes := 0, dchg := 0, rhits := 0 }

/-- A saturating 16-bit count. -/
def satInc (x : BitVec 16) : BitVec 16 := if x = 0xFFFF then x else x + 1

/-- Changing the region entry of a line, if it has one. -/
def modRegion (s : State) (line : Nat) (f : Region → Region) : State :=
  s.modDir fun d => { d with regions := updateFirst (fun r => r.region == regionOf line) f d.regions }

/-- Which counter of R310. -/
inductive CounterKind where
  | fills | nofill | collapses | pushes | dchg | rhits
  deriving DecidableEq, Repr

/-- Counting an event for a line's region (R310). -/
def countRegion (s : State) (line : Nat) (k : CounterKind) : State :=
  modRegion s line fun r =>
    match k with
    | .fills => { r with fills := satInc r.fills }
    | .nofill => { r with nofill := satInc r.nofill }
    | .collapses => { r with collapses := satInc r.collapses }
    | .pushes => { r with pushes := satInc r.pushes }
    | .dchg => { r with dchg := satInc r.dchg }
    | .rhits => { r with rhits := satInc r.rhits }

/-- Counting an event for a die (R310). -/
def countDie (s : State) (die : DieNo) (k : CounterKind) : State :=
  s.modDie die fun x => { x with counters := let c := x.counters
    match k with
    | .fills => { c with fills := c.fills + 1 }
    | .nofill => { c with nofill := c.nofill + 1 }
    | .collapses => { c with collapses := c.collapses + 1 }
    | .pushes => { c with pushes := c.pushes + 1 }
    | .dchg => { c with dchg := c.dchg + 1 }
    | .rhits => { c with rhits := c.rhits + 1 } }

/-- Counting an event for a line's region and for dies (R310). -/
def countEvent (s : State) (line : Nat) (dies : List DieNo) (k : CounterKind) : State :=
  dies.foldl (fun s d => countDie s d k) (countRegion s line k)

/-! ### Messages (R297) -/

/-- A message without data from a die to the directory. -/
def reqMsg (k : MsgKind) (d : DieNo) (line : Nat) (key : BitVec 8) (floor ceil : BitVec 3) (hinted : Bool) : Msg :=
  { kind := k, toDie := false, die := d, req := d, line := line, data := 0, poison := false, key := key,
    rfloor := floor, rceil := ceil, hinted := hinted, helper := 0, shared := false }

def sendMsg (s : State) (m : Msg) : State := s.modDir fun d => { d with net := d.net ++ [m] }

/-! ### Filling and merging in a slice -/

/-- The bank and set of a line (R289). -/
def bankOf (line : Nat) : Nat := ((line % 64) ^^^ (line / 64 % 64)) ^^^ (line / 2 ^ 12 % 64)
def setOf (line : Nat) : Nat := (line / 2 ^ 12 % 512) ^^^ (line / 2 % 512)

def SliceState.stable : SliceState → Bool
  | .s | .e | .o | .m => true
  | _ => false

/-- The L2PIN blocks of 64 KiB that a handle occupies (R196). -/
def pinBlocks (h : Handle) : List Nat :=
  if h.desc.extractLsb' 34 2 != 2 then []
  else
    let slab := (h.desc.extractLsb' 0 16).toNat * (h.desc.extractLsb' 16 16).toNat * 2 ^ (h.desc.extractLsb' 32 2).toNat
    let bytes := if h.desc.getLsbD 36 then slab * (h.desc.extractLsb' 43 16).toNat else slab
    (List.range ((bytes + 65535) / 65536)).map fun i => (h.desc.extractLsb' 37 6).toNat + i

/-- The ways of a bank that L2PIN blocks of its own core take while they are allocated (R196, R289).  A block is one way of one
of the four banks of its slice; that banks 4c to 4c+3 are the slice of core c, and block b lies in the bank 4c + b mod 4, is the
model's choice. -/
def pinnedWays (s : State) (d : DieNo) (bank : Nat) : Nat :=
  let mine := s.units.filter fun u => u.live && dieOf u.ident.cluster == d && coreOf u.ident.cluster == bank / 4
  ((mine.flatMap fun u => u.umem.tbl.flatMap pinBlocks).dedup.filter fun b => b % 4 == bank % 4).length

/-- The lines of a bank and set that take a way: those on their way out stand in the slice's write-back buffer. -/
def waysTaken (s : State) (d : DieNo) (line : Nat) : List SliceLine :=
  (s.die d).lines.filter fun l =>
    bankOf l.line == bankOf line && setOf l.line == setOf line && l.st != .i && !l.st.leaves && l.st != .iiA

/-- A stable line is evicted with its Put (R296, R297). -/
def evict (d : DieNo) (s : State) (v : SliceLine) : State :=
  let (k, st) : MsgKind × SliceState := match v.st with
    | .m => (.putM, .miA)
    | .o => (.putO, .oiA)
    | .e => (.putE, .eiA)
    | _ => (.putS, .siA)
  let s := s.modDie d fun x => { x with lines := updateFirst (fun l => l.line == v.line) (fun l => { l with st := st }) x.lines }
  sendMsg s { reqMsg k d v.line v.key 0 0 false with data := v.data, poison := v.poison }

/-- Room for a line in its bank and set: with every way held, the lines filled first among the stable ones are evicted
(R289, R296; the victim is the model's choice, and so is what holds a line whose Put is on its way, or one that finds every way
in a transient state: it stands beside the ways). -/
def makeRoom (s : State) (d : DieNo) (line : Nat) : State :=
  let same := waysTaken s d line
  let excess := same.length + 1 - (16 - pinnedWays s d (bankOf line))
  ((same.filter fun l => l.st.stable && !bytesWait s d l).take excess).foldl (evict d) s

/-- Changing or entering a die's line. -/
def setSliceLine (s : State) (d : DieNo) (l : SliceLine) : State :=
  s.modDie d fun x => { x with lines := upsert (fun y => y.line == l.line) l x.lines }

/-- Dropping a die's line. -/
def dropSliceLine (s : State) (d : DieNo) (line : Nat) : State :=
  s.modDie d fun x => { x with lines := x.lines.filter fun y => y.line != line }

/-- A line on its way out of a slice stays: its Put has not been handled, and is taken back. -/
def keepLine (s : State) (d : DieNo) (l : SliceLine) : Option (State × SliceLine) :=
  let st : Option SliceState := match l.st with
    | .miA => some .m
    | .oiA => some .o
    | .eiA => some .e
    | .siA => some .s
    | _ => none
  match st with
  | some st =>
    if putWaits s d l.line then
      some (s.modDir fun x => { x with net := removeFirst (fun m => !m.toDie && m.die == d && m.line == l.line && isPut m) x.net },
            { l with st := st })
    else none
  | none => none

/-! ### Writes performed at device scope by the hub (walker, inbound writes, completion targets) -/

/-- The hints of a die's request for a line that has still to be answered (R305). -/
def requestHints (s : State) (line : Nat) (d : DieNo) : BitVec 3 × BitVec 3 :=
  match s.hub.dir.net.find? fun m => !m.toDie && m.die == d && m.line == line && m.hinted with
  | some m => (m.rfloor, m.rceil)
  | none =>
    match (dirEntry? s line).bind fun e => (e.queue ++ e.cur.toList).find? fun r => r.die == d with
    | some r => (r.rfloor, r.rceil)
    | none => (0, 0)

/-- What the collapse of a line finds at a die: whether bytes wait there, and the hints of its request. -/
structure CopyNote where
  die : DieNo
  waits : Bool
  hints : BitVec 3 × BitVec 3
  deriving DecidableEq, Repr

def noteCopy (s : State) (line : Nat) (d : DieNo) : CopyNote := ⟨d, awaitsDevice s d line, requestHints s line d⟩

/-- A die's copy of a line is taken away; local bytes that wait for their device step stay, and ask for it again, and a link
that does not listen is woken (R311).  `asker` is the die whose request is at work: what waits there waits for that. -/
def takeCopy (s : State) (line : Nat) (asker : Option DieNo) (n : CopyNote) : State :=
  let d := n.die
  match sliceLine? (s.die d) line with
  | none => s
  | some l =>
    let s := s.modDie d fun x => { x with link := if x.link == .doze || x.link == .sleep then .training else x.link }
    if n.waits then
      let s := setSliceLine s d { l with st := .imW }
      if asker = some d then s else sendMsg s (reqMsg .getM d line l.key n.hints.1 n.hints.2 true)
    else if asker = some d && l.st == .isD then s
    else dropSliceLine s d line

/-- Collapsing every copy of a line at once: data that memory does not have goes to it under the slot it is held under, and what
was under way for the line begins anew. -/
def collapseFor (s : State) (line : Nat) (asker : Option DieNo) : State :=
  let v := heldLine s line
  let replicas := (List.finRange 8).filter fun d => d != homeOf line &&
    match sliceLine? (s.die d) line with | some l => l.st == .s | none => false
  let notes := (List.finRange 8).map (noteCopy s line)
  let s := if replicas.isEmpty then s else countEvent s line replicas .collapses
  let s := s.modDir fun dd =>
    { dd with entries := dd.entries.filter fun e => e.line != line, hot := dd.hot.filter fun h => h.line != line,
              net := dd.net.filter fun m => m.line != line, mem := dd.mem.filter fun m => m.1 != line }
  let s := (List.finRange 8).foldl (fun s d => s.modDie d fun x => { x with redirects := x.redirects.filter fun r => r.line != line }) s
  let s := notes.foldl (fun s n => takeCopy s line asker n) s
  let s := modRegion s line fun r => { r with quiet := 0, mask := 0 }
  match v with
  | some (data, p, k) =>
    let clean := s.poison.filter fun l => l != line
    writeMemLine { s with poison := if p then clean ++ [line] else clean } line data k
  | none => s

def collapseLine (s : State) (line : Nat) : State := collapseFor s line none

/-- A line that is held under another key slot is collapsed first (R325). -/
def underKey (s : State) (line : Nat) (key : BitVec 8) : State :=
  match dirEntry? s line with
  | some e => if (e.owner.isSome || e.sharers != 0) && e.key != key then collapseLine s line else s
  | none => s

/-- A line of memory stands under a key slot. -/
def keyLine (key : BitVec 8) (s : State) (line : Nat) : State :=
  if lineKey s line = key then s else writeMemLine s line (memLine s line key) key

/-- Bytes written at device scope, byte by byte, every copy collapsed first (R301). -/
def deviceWrite (s : State) (pa : Nat) (bs : List Byte) (key : BitVec 8) : State :=
  let lines := ((List.range bs.length).map fun i => (pa + i) / 128).dedup
  let s := lines.foldl collapseLine s
  let s := lines.foldl (keyLine key) s
  let whole := lines.filter fun l => decide (pa ≤ 128 * l) && decide (128 * l + 128 ≤ pa + bs.length)
  { s with mem := Memory.writeBytes s.mem pa bs, poison := s.poison.filter fun l => !whole.contains l }

/-! ### Dirty bytes reach the slices (R301) -/

/-- Dirty bytes reach a die's slices (R301, die step): a line in M or E becomes M; a line in S or O sends an Upg; a line
not held sends a GetM.  Bytes already waiting take the new ones over them. -/
def mergeIntoSlice (s : State) (d : DieNo) (line : Nat) (data : BitVec 1024) (dirty : BitVec 128) (key : BitVec 8)
    (floor ceil : BitVec 3) : State :=
  let s := underKey s line key
  match sliceLine? (s.die d) line with
  | some l0 =>
    let (s, l) := (keepLine s d l0).getD (s, l0)
    let merged := { l with data := mergeLine l.data data dirty, dirty := l.dirty ||| dirty, key := key }
    match l.st with
    | .m | .e =>
      setSliceLine s d { merged with st := .m, poison := l.poison && dirty != BitVec.allOnes 128 }
    | .s | .o =>
      sendMsg (setSliceLine s d { merged with st := .smW, base := l.data, dirty := dirty }) (reqMsg .upg d line key floor ceil true)
    | .smW | .imW | .imD => setSliceLine s d merged
    | .isD =>
      -- a read is awaited: the bytes wait in the mask, and the write is asked for as well
      sendMsg (setSliceLine s d { merged with st := .imW, dirty := dirty }) (reqMsg .getM d line key floor ceil true)
    | _ =>
      sendMsg (setSliceLine s d { merged with st := .imW, dirty := dirty }) (reqMsg .getM d line key floor ceil true)
  | none =>
    let s := makeRoom s d line
    let l : SliceLine := { line := line, st := .imD, data := data, base := 0, dirty := dirty, key := key, poison := false,
                           helper := false }
    sendMsg (setSliceLine s d l) (reqMsg .getM d line key floor ceil true)

/-! ### The cluster cache (R115) -/

def cacheLine? (k : Cluster) (line : Nat) : Option CacheLine := k.cache.find? fun l => l.line == line

/-- A slice's line as its die reads it (R296): a line whose Put has been handled is the device's. -/
def readSlice (s : State) (d : DieNo) (l : SliceLine) : BitVec 1024 × Bool :=
  if l.st.hits && (!l.st.leaves || putWaits s d l.line) then (l.data, l.poison)
  else
    let v := deviceLine s l.line l.key
    let mask := if l.st.waits then l.dirty else 0
    (mergeLine v.1 l.data mask, v.2 && mask != BitVec.allOnes 128)

/-- What a die sees in a line: its slice, else the device, each under the key slot of the request (R325). -/
def belowLine (s : State) (d : DieNo) (line : Nat) (key : BitVec 8) : BitVec 1024 × Bool :=
  match sliceLine? (s.die d) line with
  | some l => let v := readSlice s d l
              (rekey s l.key key line v.1, v.2)
  | none => deviceLine s line key

/-- What a unit of a cluster sees in a line (R110, R117): its cluster cache, else its die's slice, else the device. -/
def viewLine (s : State) (c : ClusterNo) (line : Nat) (key : BitVec 8) : BitVec 1024 × Bool :=
  match cacheLine? (s.cluster c) line with
  | some l => (rekey s l.key key line l.data, l.poison)
  | none => belowLine s (dieOf c) line key

/-- The dirty mask of n bytes at offset o of a line. -/
def maskAt (o n : Nat) : BitVec 128 := (BitVec.ofNat 128 (2 ^ n - 1)) <<< o

/-- A die's slices serve n bytes of a line: they hold it, or the bytes are dirty ones that wait (R296). -/
def sliceServes (s : State) (d : DieNo) (pa n : Nat) (key : BitVec 8) : Bool :=
  match sliceLine? (s.die d) (pa / 128) with
  | some l => l.key == key && (l.st.hits || (l.st.waits && maskAt (pa % 128) n &&& ~~~l.dirty == 0))
  | none => false

/-- Where a load of n bytes at pa is served from (R112): 0 the cluster cache, 1 the die's slices, 2 beyond. -/
def servedFrom (s : State) (c : ClusterNo) (pa n : Nat) (key : BitVec 8) : Nat :=
  if (match cacheLine? (s.cluster c) (pa / 128) with | some l => l.key == key | none => false) then 0
  else if sliceServes s (dieOf c) pa n key then 1 else 2

/-- Rotation wait of a request to a line's bank (R290). -/
def rotation (s : State) (c : ClusterNo) (line : Nat) : Nat :=
  ((coreOf c + 32 - bankOf line % 16) + (16 - (s.die (dieOf c)).dieCyc % 16)) % 16

/-- Core cycles until a cached load's data arrives, where R112 gives them. -/
def arrivalOf (s : State) (c : ClusterNo) (pa n : Nat) (key : BitVec 8) : Option Nat :=
  match servedFrom s c pa n key with
  | 0 => some 6
  | 1 => some (24 + rotation s c (pa / 128))
  | _ => none

/-- The bytes of a line that release stores of the core have still to write: they reach the slices with their release and not
before (R120). -/
def heldBytes (k : Cluster) (line : Nat) : BitVec 128 :=
  k.rels.foldl (fun m r => match r.payload with
    | .store pa n _ _ _ _ _ => if pa / 128 = line then m ||| maskAt (pa % 128) n else m
    | _ => m) 0

/-- The dirty bytes of a cluster cache's line that may reach the slices. -/
def looseBytes (k : Cluster) (l : CacheLine) : BitVec 128 := l.dirty &&& ~~~(heldBytes k l.line)

/-- A line of a cluster cache is written back and dropped. -/
def dropCached (s : State) (c : ClusterNo) (v : CacheLine) : State :=
  let m := looseBytes (s.cluster c) v
  let s := s.modCluster c fun k => { k with cache := k.cache.filter fun l => l.line != v.line }
  if m = 0 then s else mergeIntoSlice s (dieOf c) v.line v.data m v.key v.rfloor v.rceil

/-- The cluster cache holds 2048 lines; a full one writes back and drops the line entered first, but for those that a release
store waits in (R115; the victim is the model's choice). -/
def cacheRoom (s : State) (c : ClusterNo) : State :=
  let k := s.cluster c
  if k.cache.length < 2048 then s
  else match k.cache.find? fun l => heldBytes k l.line == 0 with
    | some v => dropCached s c v
    | none => s

/-- A read miss of a die sends a GetS, unless one is on its way (R296, R297); a line held under another key slot is collapsed
first (R325). -/
def readMiss (s : State) (d : DieNo) (line : Nat) (key : BitVec 8) (floor ceil : BitVec 3) (prefetch : Bool := false) : State :=
  let s := underKey s line key
  let new : SliceLine := { line := line, st := .isD, data := 0, base := 0, dirty := 0, key := key, poison := false, helper := false }
  let ask : Msg := { reqMsg .getS d line key floor ceil true with shared := prefetch }
  match sliceLine? (s.die d) line with
  | some l => if l.st == .iiA then sendMsg (setSliceLine s d new) ask else s
  | none => sendMsg (setSliceLine (makeRoom s d line) d new) ask

/-- A line brought into a cluster cache as the unit sees it; one held there under another key slot is written back first. -/
def fillCache (s : State) (c : ClusterNo) (line : Nat) (key : BitVec 8) (floor ceil : BitVec 3) : State :=
  let fill (s : State) : State :=
    let v := viewLine s c line key
    let s := if servedFrom s c (128 * line) 128 key = 2 then readMiss s (dieOf c) line key floor ceil else s
    let s := cacheRoom s c
    s.modCluster c fun k => { k with cache := k.cache ++ [{ line := line, data := v.1, dirty := 0, key := key, rfloor := floor,
                                                            rceil := ceil, poison := v.2 }] }
  match cacheLine? (s.cluster c) line with
  | some l => if l.key = key then s else fill (dropCached s c l)
  | none => fill s

/-- Bytes as a unit of a cluster sees them, and whether a line of them is poisoned. -/
def viewBytes (s : State) (c : ClusterNo) (pa n : Nat) (key : BitVec 8) : List Byte × Bool :=
  let v0 := viewLine s c (pa / 128) key
  let last := (pa + n - 1) / 128
  if last = pa / 128 then ((List.range n).map fun i => lineByte v0.1 (pa % 128 + i), v0.2)
  else
    ((List.range n).map fun i => lineByte (viewLine s c ((pa + i) / 128) key).1 ((pa + i) % 128),
      v0.2 || (viewLine s c last key).2)

/-- A store into the cluster cache (R114): the line is brought in, its bytes change and are marked dirty. -/
def cacheStore (s : State) (c : ClusterNo) (pa : Nat) (bs : List Byte) (key : BitVec 8) (floor ceil : BitVec 3) : State :=
  let line := pa / 128
  let s := fillCache s c line key floor ceil
  let o := pa % 128
  let m := maskAt o bs.length
  let data : BitVec 1024 := (BitVec.ofNat 1024 (leNat bs)) <<< (8 * o)
  let f (l : CacheLine) : CacheLine :=
    { l with data := mergeLine l.data data m, dirty := l.dirty ||| m,
             poison := l.poison && (l.dirty ||| m) != BitVec.allOnes 128 }
  s.modCluster c fun k => { k with cache := updateFirst (fun l => l.line == line) f k.cache }

/-! ### Flushes, releases and acquires (R116, R120, R121) -/

/-- Every dirty byte of a cluster cache, but for those of release stores that wait, is written into the die's slices; lines stay
valid and clean (R116, R120). -/
def flushDie (s : State) (c : ClusterNo) : State :=
  let k0 := s.cluster c
  let dirty := k0.cache.filter fun l => looseBytes k0 l != 0
  let s := s.modCluster c fun k => { k with cache := k.cache.map fun l => { l with dirty := l.dirty &&& heldBytes k0 l.line } }
  dirty.foldl (fun s l => mergeIntoSlice s (dieOf c) l.line l.data (looseBytes k0 l) l.key l.rfloor l.rceil) s

/-- The lines of a die whose writes have still to reach the device step. -/
def pendingLines (s : State) (d : DieNo) : List Nat :=
  ((s.die d).lines.filter fun l => bytesWait s d l).map fun l => l.line

/-- Invalidating a cluster cache: every line, or what is clean.  The dirty bytes of a line stay, and its clean bytes are
read again from the die (R121, R122). -/
def invalidate (s : State) (c : ClusterNo) (all : Bool) : State :=
  let again (l : CacheLine) : CacheLine :=
    let v := belowLine s (dieOf c) l.line l.key
    { l with data := mergeLine v.1 l.data l.dirty, poison := l.poison || (v.2 && l.dirty != BitVec.allOnes 128) }
  s.modCluster c fun k =>
    { k with cache := if all then [] else (k.cache.filter fun l => l.dirty != 0).map again, roCache := [] }

/-- The requests of a unit, made before a release, that a synchronisation engine has still to perform, one returned RETRY among
them; a copy command's arrival is none (R124). -/
def syncPending (s : State) (uid : Uid) (before : Nat) : Bool :=
  let mine (q : SyncReq) : Bool :=
    q.uid == uid && decide (q.id < before) && q.kind != .rewait && q.copyEng.isNone
  (List.finRange 8).any fun d => (s.die d).sync.queue.any mine || (s.die d).sync.replies.any fun r => r.retry && mine r.req

/-- No release of the core is under way. -/
def canRelease (s : State) (c : ClusterNo) : Bool := (s.cluster c).rels.isEmpty

/-- What a release at a scope waits for once its flush is done: nothing is still waiting at die scope, at device or system
scope the lines of the die whose writes have to reach the device step. -/
def scopeLines (s : State) (c : ClusterNo) (scope : BitVec 2) : List Nat := if scope.toNat < 2 then [] else pendingLines s (dieOf c)

/-- A release of a unit at a scope (R120), with what follows it: at die scope or wider the cluster cache is flushed; at
device or system scope what follows waits for the device step of the lines.  Releases of a core, and the requests made
behind them, are performed in order, and one that stands behind another flushes when that is done. -/
def startRelease (s : State) (uid : Uid) (c : ClusterNo) (scope : BitVec 2) (payload : RelPayload) : State :=
  let first := canRelease s c
  let s := if scope != 0 && first then flushDie s c else s
  let lines := if first then scopeLines s c scope else []
  let (id, s) := s.newReq
  s.modCluster c fun k => { k with rels := k.rels ++ [{ id := id, uid := uid, lines := lines, scope := scope,
                                                        flushed := first || scope == 0, system := scope == 3, payload := payload }] }

/-- A release at cluster scope has something to order: accesses of the unit that are not performed as they issue (R120). -/
def clusterWaits (s : State) (uid : Uid) (c : ClusterNo) : Bool :=
  syncPending s uid s.nextReq || (s.cluster c).rels.any fun r => r.uid == uid && match r.payload with | .sync _ => true | _ => false

/-- A release at a scope that has something to wait for. -/
def releases (s : State) (uid : Uid) (c : ClusterNo) (scope : BitVec 2) : Bool := scope != 0 || clusterWaits s uid c

/-- The device step of every line that a release waits for is done, and so is every earlier access of the unit; at system
scope every posted write of the unit is acknowledged (R120, R129). -/
def releaseReady (s : State) (c : ClusterNo) (r : Release) : Bool :=
  r.lines.all (fun l => !awaitsDevice s (dieOf c) l) && !syncPending s r.uid r.id
    && (!r.system || !s.hub.outWrites.any fun w => w.uid == r.uid)

/-- What an acquire at a scope invalidates (R121), and the unit's fresh view of its buffers (R127). -/
def acquireAt (s : State) (uid : Uid) (c : ClusterNo) (scope : BitVec 2) : State :=
  let views := (List.range s.hub.walk.bufs.length).map fun b => (b, ((s.buf? b).map (·.sel)).getD false)
  if scope = 0 then s.modCluster c fun k => { k with roCache := [] }
  else (invalidate s c false).modUnit uid fun u => u.modMem fun m => { m with views := views }

end Sys2Proof.Machine
end

