-- ==== Sys2Proof/Machine/Region.lean ====
section
/-! DEFINITION.
The directory's table (R293 to R306): entries, regions and replication, hot lines, and what a request does there. -/

namespace Sys2Proof.Machine

/-! ### Small parts -/

/-- Bit of a die in a mask. -/
def dieBit (d : DieNo) : BitVec 8 := (1#8) <<< d.val

/-- The dies of a mask. -/
def maskDies (m : BitVec 8) : List DieNo := (List.finRange 8).filter fun d => m.getLsbD d.val

/-- DIRCFG's fields (R309). -/
def dirWquiet (s : State) : Nat := max 16 (s.hub.dir.cfg.extractLsb' 0 16).toNat
def dirHot (s : State) : Nat := max 8 (s.hub.dir.cfg.extractLsb' 16 10).toNat
def dirPushen (s : State) : Bool := s.hub.dir.cfg.getLsbD 26
def dirRepen (s : State) : Bool := s.hub.dir.cfg.getLsbD 27
def dirRewake (s : State) : Nat := (s.hub.dir.cfg.extractLsb' 40 2).toNat

/-- A line that no die holds. -/
def DirEntry.empty (line : Nat) : DirEntry :=
  { line := line, st := .i, owner := none, sharers := 0, queue := [], cur := none, invs := 0, rdis := 0, pushes := 0,
    fwd := false, collapsed := 0, redirects := 0, helpers := 0, key := 0, late := [], trimDue := false }

def dirEntry (s : State) (line : Nat) : DirEntry := (dirEntry? s line).getD (DirEntry.empty line)

/-- An entry of the directory stored; one of a line that no die holds and nothing waits for needs no place. -/
def setEntry (s : State) (e : DirEntry) : State :=
  s.modDir fun d =>
    let plain := e.st == .i && e.queue.isEmpty && e.redirects == 0 && e.cur.isNone && e.late.isEmpty
    { d with entries := if plain then d.entries.filter (fun x => x.line != e.line) else upsert (fun x => x.line == e.line) e d.entries }

def modEntry (s : State) (line : Nat) (f : DirEntry → DirEntry) : State := setEntry s (f (dirEntry s line))

/-- A stable state (R295). -/
def DirSt.stable : DirSt → Bool
  | .i | .s | .e | .o | .m => true
  | _ => false

/-- A message of the hub to a die. -/
def toDie (k : MsgKind) (d : DieNo) (line : Nat) : Msg := { reqMsg k d line 0 0 0 false with toDie := true }

/-- A line sent to a die. -/
def sendLine (s : State) (k : MsgKind) (d : DieNo) (line : Nat) (v : BitVec 1024 × Bool) (key : BitVec 8) : State :=
  sendMsg s { toDie k d line with data := v.1, poison := v.2, key := key }

/-- The message that a link delivers next: its first in the direction, if it is of the kind and line (R298), the die is not
lost, and its link is awake (R311). -/
def headMsg (s : State) (k : MsgKind) (d : DieNo) (line : Nat) (down : Bool) : Option Msg :=
  match s.hub.dir.net.find? fun m => m.die == d && m.toDie == down with
  | some m => if m.kind == k && m.line == line && (!down || (s.die d).link == .active) then some m else none
  | none => none

def popMsg (s : State) (m : Msg) : State := s.modDir fun x => { x with net := removeFirst (fun y => y == m) x.net }

/-- A message to a die whose link sleeps wakes it (R311). -/
def wakeLink (s : State) (d : DieNo) : State :=
  s.modDie d fun x => { x with link := if x.link == .doze || x.link == .sleep then .training else x.link }

/-- The next message of a link in a direction, delivered. -/
def deliver (s : State) (k : MsgKind) (d : DieNo) (line : Nat) (down : Bool) (f : State → Msg → State) : State :=
  match headMsg s k d line down with
  | some m => f (popMsg s m) m
  | none => if down && s.hub.dir.net.any (fun m => m.die == d && m.toDie) then wakeLink s d else s

/-! ### Regions (R302 to R305) -/

/-- The region entry of a line. -/
def region? (s : State) (line : Nat) : Option Region := s.hub.dir.regions.find? fun r => r.region == regionOf line

/-- A region table of 4096 sets of sixteen: the entry created first leaves a full set. -/
def regionInsert (l : List Region) (r : Region) : List Region :=
  let same := l.filter fun x => x.region % 4096 == r.region % 4096
  let l := if same.length < 16 then l else match same with
    | v :: _ => l.filter fun x => x.region != v.region
    | [] => l
  l ++ [r]

/-- The degree of a region changes: the mask is cleared and the change counted (R302, R310). -/
def setDegree (s : State) (line : Nat) (r : DieNo) (d : BitVec 3) : State :=
  match region? s line with
  | some x => if x.d = d then s else countEvent (modRegion s line fun x => { x with d := d, mask := 0 }) line [r] .dchg
  | none => s

/-- A request's hints (R305): the entry is created where there is none, the hints are recorded, and D is bounded by them. -/
def applyHints (s : State) (line : Nat) (r : DieNo) (floor ceil : BitVec 3) : State :=
  let floor := if ceil < floor then ceil else floor
  let s := match region? s line with
    | some _ => s
    | none => s.modDir fun d => { d with regions := regionInsert d.regions (Region.fresh (regionOf line) floor) }
  let s := modRegion s line fun x => { x with floor := floor, ceil := ceil }
  match region? s line with
  | some x => setDegree s line r (if x.d < floor then floor else if ceil < x.d then ceil else x.d)
  | none => s

/-- One more operation on a region (R302). -/
def countQuiet (s : State) (line : Nat) : State := modRegion s line fun r => { r with quiet := satInc r.quiet }

/-- The degree that caps a line's replicas, 0 with REPEN clear (R305). -/
def degree (s : State) (line : Nat) : Nat :=
  if dirRepen s then (match region? s line with | some r => r.d.toNat | none => 0) else 0

/-- Copies in S outside the home die; a helper's counts against the ceiling and not against D (R293, R306). -/
def replicas (e : DirEntry) : List DieNo := (maskDies e.sharers).filter fun d => d != homeOf e.line
def plainReplicas (e : DirEntry) : List DieNo := (replicas e).filter fun d => !e.helpers.getLsbD d.val

/-- A remote read miss raises D where enough dies miss and the region is quiet (R304). -/
def raiseDegree (s : State) (line : Nat) (r : DieNo) : State :=
  let s := modRegion s line fun x => { x with mask := x.mask ||| dieBit r }
  match region? s line with
  | some x =>
    if dirRepen s && decide (x.d.toNat + 1 ≤ (maskDies x.mask).length) && decide (dirWquiet s ≤ x.quiet.toNat) && x.d < x.ceil
    then setDegree s line r (x.d + 1) else s
  | none => s

/-- A write of a region (R304): Q and the mask begin anew, and D is halved where two or more replicas collapse. -/
def writeRegion (s : State) (line : Nat) (r : DieNo) (gone : Nat) : State :=
  let s := modRegion s line fun x => { x with quiet := 0, mask := 0 }
  match region? s line with
  | some x =>
    let half : BitVec 3 := BitVec.ofNat 3 (x.d.toNat / 2)
    if gone < 2 then s else setDegree s line r (if half < x.floor then x.floor else half)
  | none => s

/-! ### Hot lines (R306) -/

/-- A remote read of a line is counted. -/
def countHot (s : State) (line : Nat) (r : DieNo) (unfilled : Bool) : State :=
  let bit := dieBit r
  let old := (s.hub.dir.hot.find? fun h => h.line == line).getD ⟨line, 0, 0, 0⟩
  let new : HotLine := { old with count := old.count + 1, readers := old.readers ||| bit,
                                  unfilled := if unfilled then old.unfilled ||| bit else old.unfilled }
  s.modDir fun d =>
    let l := d.hot.filter fun h => h.line != line
    { d with hot := (if l.length < 1024 then l else l.drop 1) ++ [new] }

/-- The dies that take a helper copy: the lowest-numbered whose reads were served without filling, as far as the ceiling
allows. -/
def helperDies (s : State) (e : DirEntry) (h : HotLine) : List DieNo :=
  let room := (match region? s e.line with | some r => r.ceil.toNat | none => 0) - (replicas e).length
  ((maskDies h.unfilled).filter fun d =>
    !e.sharers.getLsbD d.val && d != homeOf e.line && e.owner != some d && !(s.die d).lost).take (min 2 room)

/-- The Pushes of a line go to their helpers. -/
def sendPushes (s : State) (e : DirEntry) : State :=
  let v := deviceLine s e.line e.key
  (maskDies e.pushes).foldl (fun s d => countEvent (sendLine s .push d e.line v e.key) e.line [d] .pushes) s

/-- A line is pushed where it has become hot; one that has an owner is asked of it first, which leaves it in O (the model's
choice of how the directory comes by the data). -/
def pushHot (s : State) (line : Nat) : State :=
  let e := dirEntry s line
  match s.hub.dir.hot.find? fun h => h.line == line with
  | none => s
  | some h =>
    if !dirPushen s || h.count < dirHot s || !e.st.stable || e.helpers != 0 then s
    else
      match helperDies s e h with
      | [] => s
      | hs =>
        let others := (maskDies h.readers).filter fun d =>
          !hs.contains d && d != homeOf line && e.owner != some d && !(s.die d).lost
        let hm := hs.foldl (fun m d => m ||| dieBit d) (0#8)
        let rm := others.foldl (fun m d => m ||| dieBit d) (0#8)
        let e := { e with st := .pA, sharers := e.sharers ||| hm, helpers := hm, pushes := hm, rdis := rm,
                          redirects := e.redirects ||| rm, fwd := e.owner.isSome }
        let s := setEntry s e
        let s := match e.owner with
          | some o => sendMsg s { toDie .fwdGetS o line with req := o, key := e.key, shared := true }
          | none => sendPushes s e
        others.zipIdx.foldl (fun s x => sendMsg s { toDie .rdSet x.1 line with helper := hs.getD (x.2 % hs.length) 0 }) s

/-! ### The end of a transient state, and the next request -/

/-- Every acknowledgement that a line waits for is in. -/
def DirEntry.acked (e : DirEntry) : Bool := e.invs == 0 && e.rdis == 0 && e.pushes == 0 && !e.fwd

/-- Where a line stands once nothing is under way for it. -/
def DirEntry.rest (e : DirEntry) : DirEntry :=
  { e with cur := none, collapsed := 0,
           st := match e.owner with
             | some _ => if e.sharers = 0 then .m else .o
             | none => if e.sharers = 0 then .i else .s }

/-- The line passes to a die that writes it (R298). -/
def DirEntry.give (e : DirEntry) (r : DieNo) : DirEntry :=
  { e with st := .m, owner := some r, sharers := 0, helpers := 0, redirects := 0, cur := none, collapsed := 0, trimDue := false }

/-- A die holds a line that it asks to write: the Upg is answered without data (R299). -/
def holds (e : DirEntry) (r : DieNo) : Bool := e.sharers.getLsbD r.val || e.owner == some r

/-- The write of a line whose copies are all gone is granted (R298, R301). -/
def grantWrite (s : State) (e : DirEntry) (q : DirReq) (upgrade forwarded : Bool) : State :=
  let v := deviceLine s e.line q.key
  let s := setEntry (writeRegion s e.line q.die e.collapsed) (e.give q.die)
  if upgrade then sendMsg s (toDie .upgAck q.die e.line)
  else if forwarded then s
  else sendLine s .dataM q.die e.line v q.key

/-! ### Requests (R298, R299, R303) -/

/-- A read that its die does not keep. -/
def answerNF (s : State) (e : DirEntry) (q : DirReq) : State :=
  sendLine (countEvent s e.line [q.die] .nofill) .dataNF q.die e.line (memLine s e.line q.key, s.poison.contains e.line) q.key

/-- A read is to be kept by its die: the home's always, another's while replicas number fewer than D. -/
def fills (s : State) (e : DirEntry) (r : DieNo) : Bool := r == homeOf e.line || decide ((plainReplicas e).length < degree s e.line)

/-- A GetS (R298, R303). -/
def handleGetS (s : State) (e : DirEntry) (q : DirReq) : State :=
  let remote := q.die != homeOf e.line
  let s := if remote then raiseDegree s e.line q.die else s
  let keep := fills s e q.die
  let s := if remote then countHot s e.line q.die (!keep) else s
  match e.st with
  | .i =>
    (setEntry s { e with st := .iD, cur := some q }).modDir fun d => { d with mem := d.mem ++ [(e.line, true)] }
  | .s =>
    if keep then
      let s := if remote then countEvent s e.line [q.die] .fills else s
      sendLine (setEntry s { e with sharers := e.sharers ||| dieBit q.die }) .dataS q.die e.line
        (memLine s e.line q.key, s.poison.contains e.line) q.key
    else answerNF s e q
  | _ =>
    match e.owner with
    | some o =>
      let s := if remote then countEvent s e.line [q.die] (if keep then .fills else .nofill) else s
      let s := setEntry s { e with st := .mFS, cur := some q, fwd := true, sharers := if keep then e.sharers ||| dieBit q.die else e.sharers }
      sendMsg s { toDie (if keep then .fwdGetS else .fwdGetSNF) o e.line with req := q.die, key := q.key }
    | none => s

/-- A GetM, or an Upg (R298, R299). -/
def handleWrite (s : State) (e : DirEntry) (q : DirReq) : State :=
  let s := s.modDir fun d => { d with hot := d.hot.filter fun h => h.line != e.line }
  let upgrade := q.kind == .upg && holds e q.die
  let others := (maskDies e.sharers).filter fun d => d != q.die
  let gone := others.filter fun d => d != homeOf e.line
  let s := if gone.isEmpty then s else countEvent s e.line gone .collapses
  let interfaces := maskDies e.redirects
  let foreign : Option DieNo := match e.owner with | some o => if o = q.die then none else some o | none => none
  let invs := others ++ (if upgrade then foreign.toList else [])
  let fwd := !upgrade && foreign.isSome
  let e := { e with cur := some q, collapsed := gone.length, fwd := fwd,
                    invs := invs.foldl (fun m d => m ||| dieBit d) 0, rdis := e.redirects }
  if e.st == .i && interfaces.isEmpty then
    (setEntry s { e with st := .iD }).modDir fun d => { d with mem := d.mem ++ [(e.line, true)] }
  else if invs.isEmpty && interfaces.isEmpty && !fwd then grantWrite s { e with invs := 0, rdis := 0 } q upgrade false
  else
    let s := setEntry s { e with st := if e.st == .e || e.st == .m then .mFA else .sMA }
    let s := invs.foldl (fun s d => sendMsg s (toDie .inv d e.line)) s
    let s := interfaces.foldl (fun s d => sendMsg s (toDie .rdInv d e.line)) s
    match foreign with
    | some o => if fwd then sendMsg s { toDie .fwdGetM o e.line with req := q.die, key := q.key } else s
    | none => s

/-- Replicas above a lowered D get Inv, the highest-numbered dies first (R305). -/
def trimReplicas (s : State) (e : DirEntry) (q : Option DirReq) : Option State :=
  let extra := (plainReplicas e).drop (match region? s e.line with | some r => r.d.toNat | none => 0)
  if extra.isEmpty || !dirRepen s then none
  else
    let e := { e with st := .sMA, cur := q, invs := extra.foldl (fun m d => m ||| dieBit d) 0 }
    some (extra.reverse.foldl (fun s d => sendMsg s (toDie .inv d e.line)) (setEntry s e))

/-- The other lines of a region whose D has been lowered: at once, or when what is under way for them is done. -/
def trimRegion (s : State) (line : Nat) : State :=
  (s.hub.dir.entries.filter fun e => e.line != line && regionOf e.line == regionOf line).foldl
    (fun s e => if e.st.stable then (trimReplicas s e none).getD s else setEntry s { e with trimDue := true }) s

/-- What a request that the directory handles says of its region: its hints and one more operation; and where its ceiling lowers D,
the replicas above it in the region's other lines go (R302, R305).  Whether D was lowered. -/
def applyRequest (s : State) (line : Nat) (r : DieNo) (floor ceil : BitVec 3) : State × Bool :=
  let before := match region? s line with | some x => x.d | none => floor
  let s := countQuiet (applyHints s line r floor ceil) line
  let lowered := match region? s line with | some x => decide (x.d < before) | none => false
  (if lowered then trimRegion s line else s, lowered)

/-- A read of the hub's own, made without a translation: it carries floor 0 and ceiling 0 (R305). -/
def hubRead (s : State) (pa : Nat) : State :=
  let line := pa / 128
  let x := applyRequest s line (homeOf line) 0 0
  let e := dirEntry x.1 line
  if !x.2 then x.1
  else if e.st.stable then (trimReplicas x.1 e none).getD x.1 else setEntry x.1 { e with trimDue := true }

end Sys2Proof.Machine
end

