-- ==== Sys2Proof/Machine/Translate.lean ====
section
/-! DEFINITION.
Translation: budgets of a context (R380, R381), the page-table walk (R315 to R319), the TLBs and the walker complex
(R321 to R323), the two frames of a buffer's pages (R327, R328), and the checks of an access (R320, R22). -/

namespace Sys2Proof.Machine

/-! ### Budgets (R380, R381) -/

def bCrossbar : Nat := 0
def bWalker : Nat := 1
def bHost : Nat := 2
def bDram (d : DieNo) : Nat := 3 + d.val
def bSync (d : DieNo) : Nat := 11 + d.val

/-- Whether a request of a budget would be admitted now. -/
def Budget.open (b : Budget) (key : Nat) : Bool :=
  b.limit == 0 || b.granted.contains key ||
    (decide (b.used < b.limit.toNat) && !b.waiting.any fun w => w.1 == key)

/-- Admitting a request: its size is added to the count, unless a period start has added it already. -/
def Budget.charge (b : Budget) (key size : Nat) : Budget :=
  if b.granted.contains key then { b with granted := b.granted.filter fun k => k != key }
  else { b with used := b.used + size }

/-- Deferring a request once. -/
def Budget.refuse (b : Budget) (key size : Nat) : Budget :=
  if b.waiting.any fun w => w.1 == key then b else { b with waiting := b.waiting ++ [(key, size)], defer := b.defer + 1 }

def budget? (s : State) (a : BitVec 16) (i : Nat) : Option Budget := (s.ctx? a).bind fun k => k.budgets.toList[i]?

def modBudget (s : State) (a : BitVec 16) (i : Nat) (f : Budget → Budget) : State :=
  s.modCtx a fun k => { k with budgets := if h : i < 19 then k.budgets.set i (f k.budgets[i]) else k.budgets }

/-- Whether a context's request on a resource is admitted now. -/
def budgetOpen (s : State) (a : BitVec 16) (i key : Nat) : Bool :=
  match budget? s a i with
  | some b => b.open key
  | none => true

/-- The state after an admitted request. -/
def budgetTake (s : State) (a : BitVec 16) (i key size : Nat) : State := modBudget s a i fun b => b.charge key size

/-- The state after a deferred request. -/
def budgetRefuse (s : State) (a : BitVec 16) (i key size : Nat) : State := modBudget s a i fun b => b.refuse key size

/-- A period start (R381): the excess over the limit is carried, then deferred requests are admitted in order. -/
def Budget.period (b : Budget) : Budget :=
  let carried := if b.limit = 0 then 0 else b.used - b.limit.toNat
  b.waiting.foldl (fun acc w =>
    if acc.limit == 0 || decide (acc.used < acc.limit.toNat) then
      { acc with used := acc.used + w.2, granted := acc.granted ++ [w.1] }
    else { acc with waiting := acc.waiting ++ [w] }) { b with used := carried, waiting := [] }

/-! ### The page-table walk (R315 to R319) -/

/-- Number of the 16 KiB virtual page. -/
def vpnOf (va : Va) : Nat := va.toNat / 2 ^ 14

/-- Bytes of a page of a leaf level. -/
def levelSize (level : Nat) : Nat := 2 ^ (14 + 11 * level)

/-- First virtual page of the page of a level that holds a virtual page. -/
def pageBase (vpn level : Nat) : Nat := vpn / 2 ^ (11 * level) * 2 ^ (11 * level)

/-- What a walk met. -/
inductive WalkOut where
  | leaf (addr : Nat) (pte : Word) (level : Nat) (pointers : List (Nat × Nat))
  | fail
  deriving DecidableEq, Repr

def pteV (p : Word) : Bool := p.getLsbD 0
def pteRd (p : Word) : Bool := p.getLsbD 1
def pteWr (p : Word) : Bool := p.getLsbD 2
def pteEx (p : Word) : Bool := p.getLsbD 3
def ptePriv (p : Word) : Bool := p.getLsbD 4
def pteDirty (p : Word) : Bool := p.getLsbD 6
def pteSync (p : Word) : Bool := p.getLsbD 7
def pteMig (p : Word) : Bool := p.getLsbD 8
def pteTvg (p : Word) : Bool := p.getLsbD 9
def pteKey (p : Word) : BitVec 8 := p.extractLsb' 54 8
/-- Bits [51:14] that the entry holds, as an address. -/
def ptePa (p : Word) : Nat := (p.extractLsb' 16 38).toNat * 2 ^ 14
def pteIsLeaf (p : Word) : Bool := pteRd p || pteWr p || pteEx p

/-- The walk from a table of a level down (R319): the leaf with the pointers passed (level, table), or TRANSLATION. -/
def walkFrom (s : State) (va : Nat) : Nat → Nat → List (Nat × Nat) → WalkOut
  | 0, table, ptrs =>
    let a := table + 8 * (va / 2 ^ 14 % 2048)
    let p : Word := BitVec.ofNat 64 (deviceNat s a 8)
    if pteV p && pteIsLeaf p then .leaf a p 0 ptrs else .fail
  | n + 1, table, ptrs =>
    let a := table + 8 * (va / 2 ^ (14 + 11 * (n + 1)) % 2048)
    let p : Word := BitVec.ofNat 64 (deviceNat s a 8)
    if !pteV p then .fail
    else if pteIsLeaf p then .leaf a p (n + 1) ptrs
    else if p.extractLsb' 4 12 != 0 || p.extractLsb' 54 10 != 0 then .fail
    else walkFrom s va n (ptePa p) (ptrs ++ [(n + 1, ptePa p)])

/-- The buffer of a context that holds a virtual page (R327). -/
def bufOf (s : State) (a : BitVec 16) (vpn : Nat) : Option Nat :=
  s.hub.walk.bufs.findIdx? fun b => b.asid == a && decide (b.hbase ≤ vpn) && decide (vpn < b.hbase + b.pages + 1)

/-- A frame reaches no hole (R316). -/
def frameOk (pa size : Nat) : Bool := paKind pa != .hole && paKind (pa + size - 1) != .hole

/-- A leaf is well formed (R318, R319, R359). -/
def leafOk (s : State) (a : BitVec 16) (vpn : Nat) (p : Word) (level : Nat) : Bool :=
  decide (level < 3) && !(pteWr p && !pteRd p) && p.extractLsb' 62 2 == 0 && !(pteSync p && pteTvg p)
    && !(paKind (ptePa p) == .window && (pteSync p || pteTvg p))
    && (if pteTvg p then level == 0 && (bufOf s a vpn).isSome
        else ptePa p % levelSize level == 0 && frameOk (ptePa p) (levelSize level))

/-- The deepest table that the page-walk caches give for an address, else the root (R323). -/
def walkStart (s : State) (a : BitVec 16) (root va : Nat) : Nat × Nat :=
  match [0, 1, 2, 3, 4].findSome? (fun n => (s.hub.walk.pwc.find? fun e =>
      e.1 == a && e.2.1 == n + 1 && e.2.2.1 == va / 2 ^ (14 + 11 * (n + 1))).map fun e => (n, e.2.2.2)) with
  | some x => x
  | none => (5, root)

/-! ### TLBs (R322) -/

/-- Whether a TLB entry holds a virtual page of a context. -/
def TlbEntry.covers (e : TlbEntry) (a : BitVec 16) (vpn : Nat) : Bool :=
  e.asid == a && pageBase vpn e.level == e.vpn

/-- The entry that a core finds, in its L1 TLB or its die's L2 TLB. -/
def tlbFind (s : State) (c : ClusterNo) (a : BitVec 16) (vpn : Nat) : Option TlbEntry :=
  match (s.cluster c).tlb.find? fun e => e.covers a vpn with
  | some e => some e
  | none => (s.die (dieOf c)).tlb.find? fun e => e.covers a vpn

def TlbEntry.same (x y : TlbEntry) : Bool := x.asid == y.asid && x.vpn == y.vpn && x.level == y.level

/-- An entry in a TLB of a capacity; the entry loaded first leaves a full one. -/
def tlbInsert (cap : Nat) (e : TlbEntry) (l : List TlbEntry) : List TlbEntry :=
  let l := l.filter fun x => !x.same e
  (if l.length < cap then l else l.drop 1) ++ [e]

/-- The set of the L2 TLB's 1024 that an entry stands in: by the low bits of its page number (the model's choice of bits, log 81). -/
def TlbEntry.set (e : TlbEntry) : Nat := e.vpn / 2 ^ (11 * e.level) % 1024

/-- An entry in the L2 TLB of 8192 entries in 8 ways (R322): of a full set, the entry loaded first leaves. -/
def tlbInsert2 (e : TlbEntry) (l : List TlbEntry) : List TlbEntry :=
  let l := l.filter fun x => !x.same e
  let mine := l.filter fun x => x.set == e.set
  (if mine.length < 8 then l else removeFirst (fun x => x.set == e.set) l) ++ [e]

/-- A loaded translation in a die's L2 TLB and a core's L1 TLB; what leaves the L2 TLB leaves the die's L1 TLBs. -/
def tlbLoad (s : State) (c : ClusterNo) (e : TlbEntry) : State :=
  let d := dieOf c
  let l2 := tlbInsert2 e (s.die d).tlb
  let gone := (s.die d).tlb.filter fun x => !(l2.any fun y => y.same x)
  let s := s.modDie d fun x => { x with tlb := l2 }
  let s := if gone.isEmpty then s else (List.finRange 128).foldl (fun s k =>
    if dieOf k = d then s.modCluster k fun x => { x with tlb := x.tlb.filter fun t => !(gone.any fun g => g.same t) } else s) s
  s.modCluster c fun k => { k with tlb := tlbInsert 64 e k.tlb }

/-- An access brings a translation that only the L2 TLB holds into the core's L1 TLB. -/
def tlbTouch (s : State) (c : ClusterNo) (e : TlbEntry) : State :=
  if (s.cluster c).tlb.any fun x => x.same e then s else s.modCluster c fun k => { k with tlb := tlbInsert 64 e k.tlb }

/-- Setting a bit of a context's touched-dies mask (R21). -/
def touchDie (s : State) (a : BitVec 16) (d : DieNo) : State :=
  s.modCtx a fun k => { k with dies := k.dies ||| ((1#8) <<< d.val) }

/-- The home die of a frame in LPDDR6. -/
def frameDie (pa : Nat) : Option DieNo :=
  match paKind pa with
  | .dram d => some d
  | _ => none

/-! ### The walker complex (R321, R323) -/

/-- A walk is wanted for a page by a core. -/
def walkFor (s : State) (c : ClusterNo) (a : BitVec 16) (vpn : Nat) : Option Walk :=
  s.hub.walk.walks.find? fun w => w.cluster == c && w.asid == a && vpnOf w.va == vpn

/-- Key of a walk request in the walker's budget. -/
def walkKey (c : ClusterNo) (vpn : Nat) : Nat := c.val + 128 * vpn

/-- A miss sends a walk (R323), counted once against the budget; 64 run at once, and one already sent is not repeated. -/
def requestWalk (s : State) (c : ClusterNo) (a : BitVec 16) (va : Va) (write : Bool) : State :=
  if (walkFor s c a (vpnOf va)).isSome || decide (64 ≤ s.hub.walk.walks.length) then s
  else if budgetOpen s a bWalker (walkKey c (vpnOf va)) then
    let s := budgetTake s a bWalker (walkKey c (vpnOf va)) 1
    let (id, s) := s.newReq
    s.modWalk fun w => { w with walks := w.walks ++ [{ id := id, asid := a, va := va, write := write, die := dieOf c,
                                                       cluster := c, fail := none }] }
  else budgetRefuse s a bWalker (walkKey c (vpnOf va)) 1

/-- A walk ends in a fault, which the access that waits takes. -/
def walkFails (s : State) (id : Nat) (code : BitVec 8) : State :=
  s.modWalk fun w => { w with walks := updateFirst (fun x => x.id == id) (fun x => { x with fail := some code }) w.walks }

/-- ACC, and DIRTY for a write, set in a leaf (R321): only those bits of the entry change. -/
def setAccDirty (s : State) (addr : Nat) (p : Word) (write : Bool) : State :=
  let b := p.extractLsb' 0 8 ||| 0x20 ||| (if write then 0x40 else 0)
  if b = p.extractLsb' 0 8 then s else deviceWrite s addr [b] 0

/-- The entry that a leaf loads (R322, R327); a buffer's header page is under key slot 0 (R325). -/
def entryOfLeaf (s : State) (w : Walk) (p : Word) (level : Nat) : TlbEntry :=
  let vpn := vpnOf w.va
  let b := if pteTvg p then bufOf s w.asid vpn else none
  let header := match b.bind s.buf? with | some x => x.hbase == vpn | none => false
  let frames : Nat × Nat × Option Nat := match b.bind s.buf? with
    | some x => let off := (vpn - x.hbase) * 2 ^ 14
                (x.phys0 + off, x.phys1 + off, some (if x.sel then x.phys0 + off else x.phys1 + off))
    | none => (ptePa p, ptePa p, none)
  { asid := w.asid, vpn := pageBase vpn level, level := level, frame0 := frames.1, frame1 := frames.2.1, buffer := b,
    rd := pteRd p, wr := pteWr p, ex := pteEx p, priv := ptePriv p, sync := pteSync p, tvg := pteTvg p, key := if header then 0 else pteKey p,
    rfloor := p.extractLsb' 10 3, rceil := p.extractLsb' 13 3, dirty := pteDirty p || w.write, wframe := frames.2.2 }

/-- The translation directory names a die for a translation (R330). -/
def tdirAdd (s : State) (e : TlbEntry) (d : DieNo) : State :=
  let bit : BitVec 8 := (1#8) <<< d.val
  let key (t : TransDir) : Bool := t.asid == e.asid && t.vpn == e.vpn && t.level == e.level
  s.modWalk fun w =>
    let known := updateFirst key (fun t => { t with mask := t.mask ||| bit }) w.tdir
    let new := w.tdir ++ [{ asid := e.asid, vpn := e.vpn, level := e.level, mask := bit }]
    { w with tdir := if w.tdir.any key then known else new }

/-- The table entries that a walk reads, from the table of a level down; `ptrs` are the tables it passes. -/
def walkReads (va : Nat) (level table : Nat) (ptrs : List (Nat × Nat)) : List Nat :=
  let entry (l t : Nat) : Nat := t + 8 * (va / 2 ^ (14 + 11 * l) % 2048)
  entry level table :: ptrs.map fun p => entry (p.1 - 1) p.2

/-- A version of a buffer is being moved (R333). -/
def versionMoves (s : State) (i : Nat) : Bool := s.hub.walk.shoots.any fun x => x.version.any fun v => v.1 == i

/-- A walk runs to its end (R319 to R323, R333): it loads the translation, ends in a fault, or is held at a leaf with
MIG = 1. -/
def completeWalk (s : State) (id : Nat) : State :=
  match s.hub.walk.walks.find? (fun w => w.id == id && w.fail.isNone) with
  | none => s
  | some w =>
    match s.ctx? w.asid with
    | none => walkFails s id cTranslation
    | some k =>
      let start := walkStart s w.asid k.root w.va.toNat
      match walkFrom s w.va.toNat start.1 start.2 [] with
      | .fail => walkFails ((walkReads w.va.toNat start.1 start.2 []).foldl hubRead s) id cTranslation
      | .leaf addr p level ptrs =>
        let s := (walkReads w.va.toNat start.1 start.2 ptrs).foldl hubRead s
        let s := s.modWalk fun x => { x with pwc := x.pwc ++ ptrs.map fun t =>
          (w.asid, t.1, w.va.toNat / 2 ^ (14 + 11 * t.1), t.2) }
        if !leafOk s w.asid (vpnOf w.va) p level then walkFails s id cTranslation
        else if pteMig p || (pteTvg p && (bufOf s w.asid (vpnOf w.va)).any fun b => versionMoves s b) then
          s.modWalk fun x => { x with held := if x.held.contains w then x.held else x.held ++ [w] }
        else
          let s := setAccDirty s addr p w.write
          let e := entryOfLeaf s w p level
          let dies := ([e.frame0, e.frame1].filterMap frameDie).dedup
          let s := dies.foldl (fun s d => touchDie s w.asid d) s
          if dies.any (fun d => (s.die d).lost) then walkFails s id cDieLost
          else
            let s := tdirAdd (tlbLoad s w.cluster e) e w.die
            s.modWalk fun x => { x with walks := x.walks.filter (fun y => y.id != id), held := x.held.filter fun y => y.id != id }

/-! ### The checks of an access (R320, R22) -/

/-- What an access asks of its page. -/
inductive Access where
  | read | write | atomic | fetch
  deriving DecidableEq, Repr

def Access.writes : Access → Bool
  | .write | .atomic => true
  | _ => false

/-- A translation: the physical address, the entry and whether the byte there reads as zero
(the other bytes of a header page, R327). -/
inductive TrResult where
  | ok (pa : Nat) (e : TlbEntry) (blank : Bool)
  | fault (code : BitVec 8) (addr : Va)
  | walk
  deriving DecidableEq, Repr

/-- Who makes an access: its context, its core, whether it is a prompter, and its view of the buffers. -/
structure Accessor where
  asid : BitVec 16
  cluster : ClusterNo
  prompter : Bool
  views : List (Nat × Bool)
  deriving DecidableEq, Repr

def UnitSt.accessor (u : UnitSt) : Accessor := ⟨u.ident.asid, u.ident.cluster, u.isPrompter, u.umem.views⟩

/-- The version of a buffer that an accessor views (R127); a buffer registered since the view was taken is viewed as it was
registered, with SEL 0 (R328). -/
def viewedSel (x : Accessor) (b : Nat) : Bool :=
  match x.views.find? fun v => v.1 == b with
  | some v => v.2
  | none => false

/-- The key slot is granted to the context (R324). -/
def keyGranted (s : State) (a : BitVec 16) (key : BitVec 8) : Bool :=
  key == 0 || (s.hub.keys.any (fun x => x.1 == key) && Config.keyGrant key.toNat a.toNat)

/-- Whether the permissions of a page refuse an access (R320). -/
def refused (s : State) (x : Accessor) (e : TlbEntry) (acc : Access) : Bool :=
  (match acc with
    | .read => !e.rd
    | .write => !e.wr
    | .atomic => !e.rd || !e.wr
    | .fetch => !e.ex)
  || (e.priv && !x.prompter) || !keyGranted s x.asid e.key

/-- Whether a virtual page is the header page of its buffer. -/
def isHeaderPage (s : State) (e : TlbEntry) (vpn : Nat) : Bool :=
  match e.buffer.bind s.buf? with
  | some b => b.hbase == vpn
  | none => false

/-- An access of one unit or engine, within one page. -/
def translate (s : State) (x : Accessor) (va : Va) (acc : Access) : TrResult :=
  let vpn := vpnOf va
  match walkFor s x.cluster x.asid vpn with
  | some w =>
    match w.fail with
    | some code =>
      .fault code (if code = cDieLost then
        BitVec.ofNat 80 (((List.finRange 8).find? fun d => (s.die d).lost).map Fin.val |>.getD 0) else va)
    | none => .walk
  | none =>
    match tlbFind s x.cluster x.asid vpn with
    | none => .walk
    | some e =>
      let size := levelSize e.level
      let off := va.toNat % size
      let reads := acc == .read || acc == .fetch
      let frame : Option Nat := match e.buffer with
        | none => some e.frame0
        | some b => if reads then some (if viewedSel x b then e.frame1 else e.frame0) else e.wframe
      match frame with
      | none => if refused s x e acc then .fault cProtection va else .walk
      | some f =>
        let pa := f + off
        match frameDie pa with
        | some d =>
          if (s.die d).lost then .fault cDieLost (BitVec.ofNat 80 d.val)
          else if refused s x e acc then .fault cProtection va
          else if isHeaderPage s e vpn then
            if reads then .ok pa e (decide (off < 16384 - 64)) else .fault cProtection va
          else if acc.writes && !e.dirty then .walk
          else .ok pa e false
        | none =>
          if refused s x e acc then .fault cProtection va
          else if acc.writes && !e.dirty then .walk
          else .ok pa e false

end Sys2Proof.Machine
end

