-- ==== Sys2Proof/Machine/Control.lean ====
section
/-! DEFINITION.
S.CTL (R89 to R106): the PC chain, the transfers, the loop engine with its stage predicates, drain and zero-trip
bodies, ENDSEG, HALT with its waits, STGP, TRAP, BRK and NOPS. -/

namespace Sys2Proof.Machine

/-! ### The loop engine (R94 to R98) -/

/-- The innermost active level (R96). -/
def innermost (f : Flow) : Option (Fin 2) :=
  if (f.loops.get 1).active then some 1 else if (f.loops.get 0).active then some 0 else none

def Flow.setLoop (f : Flow) (l : Fin 2) (x : LoopSt) : Flow := { f with loops := f.loops.set l x }

/-- R96's `first` for the next start of a level. -/
def nextFirst (f : Flow) (l : Fin 2) : Bool := (f.lc.get l != 0) && !(f.loops.get l).cleared

/-- Whether a level's iterations go on past its boundary (R96): the next start is a first, or drain is left. -/
def goesOn (f : Flow) (l : Fin 2) : Bool := nextFirst f l || (f.loops.get l).drain != 0

/-- One level starts an iteration (R96). -/
def startIteration (f : Flow) (ps : BitVec 8) (l : Fin 2) : Flow × BitVec 8 :=
  let first := nextFirst f l
  let ps := if innermost f = some l then (ps <<< 1) ||| (BitVec.ofBool first).setWidth 8 else ps
  let x := f.loops.get l
  (if first then { f with lc := f.lc.set l (f.lc.get l - 1) } else f.setLoop l { x with drain := x.drain - 1 }, ps)

/-- The issue of a bundle at START of a level starts an iteration of it (R96), outer level first. -/
def startsAt (f : Flow) (ps : BitVec 8) (a : BitVec 64) : Flow × BitVec 8 :=
  [(0 : Fin 2), 1].foldl (fun x l =>
    if (x.1.loops.get l).active && (x.1.loops.get l).start == a then startIteration x.1 x.2 l else x) (f, ps)

/-- A level parked for by a drain stays active at its last boundary (R102). -/
def parksAt (f : Flow) (drain : Option (Fin 2)) (l : Fin 2) : Bool := drain == some l && (f.loops.get l).cleared

/-- The successor of a bundle's address and the loop state past it (R96, R97): at END of the innermost active level
its iterations go on at START, or the level ends and the next level outside is asked. -/
def loopBoundary (f : Flow) (drain : Option (Fin 2)) (a : BitVec 64) : BitVec 64 × Flow :=
  [(1 : Fin 2), 0].foldl (fun (x : BitVec 64 × Flow) l =>
    if (x.2.loops.get l).active && (x.2.loops.get l).stop == a && x.1 == a + 16 then
      if goesOn x.2 l || parksAt x.2 drain l then ((x.2.loops.get l).start, x.2)
      else (x.1, x.2.setLoop l { x.2.loops.get l with active := false })
    else x) (a + 16, f)

/-- The chain with the entries that `loop_successor` produced rewritten for the loop state as it will stand (R97): an
entry that succeeds a rewritten NPC follows it, and one whose predecessor a prompter wrote stands (R346). -/
def resolveChain (u : UnitSt) : UnitSt :=
  let f := u.flow
  let d := u.run.drainLevel
  let s1 := (startsAt f u.regs.ps f.pc.addr).1
  let npc : ChainEntry := match f.npc.src with
    | some a => { f.npc with addr := (loopBoundary s1 d a).1 }
    | none => f.npc
  let s2 := (startsAt (loopBoundary s1 d f.pc.addr).2 0 npc.addr).1
  let nnpc : ChainEntry := match f.nnpc.src with
    | some a => let a := if a = f.npc.addr then npc.addr else a
                { f.nnpc with addr := (loopBoundary s2 d a).1, src := some a }
    | none => f.nnpc
  { u with flow := { f with npc := npc, nnpc := nnpc } }

/-- R98: an entry that a taken BR, BRN or JR produced ends, when it issues, every active level whose body it lies
outside, and the levels inside that one. -/
def leaveLevels (f : Flow) : Flow :=
  if f.pc.jump then
    let outside (l : Fin 2) : Bool := let x := f.loops.get l
      x.active && (decide (f.pc.addr < x.start) || decide (x.stop < f.pc.addr))
    let off (f : Flow) (l : Fin 2) : Flow := f.setLoop l { f.loops.get l with active := false }
    if outside 0 then off (off f 0) 1 else if outside 1 then off f 1 else f
  else f

/-- R89: the chain advances past the bundle at PC.  Bundles of a zero-trip body that the chain takes in are annulled
(R95). -/
def advanceChain (f : Flow) (t : Option Xfer) : Flow :=
  let jump (x : Xfer) : Bool := !x.call
  let (n2, skip) : ChainEntry × Nat := match t with
    | some x => if x.taken then (⟨x.target, false, none, jump x⟩, f.skip)
                else (⟨f.nnpc.addr + 16, decide (0 < f.skip), some f.nnpc.addr, false⟩, f.skip - 1)
    | none => (⟨f.nnpc.addr + 16, decide (0 < f.skip), some f.nnpc.addr, false⟩, f.skip - 1)
  let ann := match t with
    | some x => x.brn && !x.taken
    | none => false
  { f with pc := { f.npc with ann := f.npc.ann || ann }, npc := { f.nnpc with ann := f.nnpc.ann || ann }, nnpc := n2,
           skip := skip, last := some f.pc.addr }

/-! ### Transfers (R92, R93) -/

/-- R93: a transfer at END or END − 16 of an active body. -/
def atLoopEnd (u : UnitSt) : Bool :=
  [(0 : Fin 2), 1].any fun l => let x := u.flow.loops.get l
    x.active && (u.flow.pc.addr == x.stop || u.flow.pc.addr == x.stop - 16)

/-- The target of a displacement in bundles. -/
def dispTarget (u : UnitSt) (d : BitVec 20) : BitVec 64 := u.flow.pc.addr + (d.signExtend 64 <<< 4)

/-- A transfer is noted for the chain, and a taken CALL or CALLR writes the link register (R92). -/
def transferTo (s : State) (u : UnitSt) (target : BitVec 64) (taken brn call : Bool) : State :=
  let s := s.setIssue { s.issue with xfer := some ⟨target, taken, brn, call⟩ }
  if taken && call then schedScalar s s.issue.me u 63 (u.flow.pc.addr + 48) 1 else s

/-- BR, BRN and CALL. -/
def relTransfer (brn call : Bool) (p : BitVec 3) (i : BitVec 1) (d : BitVec 20) (s : State) :
    Host.Outcome State Fault Refusal :=
  runSlot s
    (fun s u => firstFail [noLend s u, illegalIf u (atLoopEnd u),
      stallCheck u [.pred p] (if call then [(.scalar 63, 1)] else [])])
    (fun s u => transferTo s u (dispTarget u d) (guardHolds u p i) brn call)

/-- JR and CALLR. -/
def regTransfer (call : Bool) (p : BitVec 3) (i : BitVec 1) (t : BitVec 6) (s : State) :
    Host.Outcome State Fault Refusal :=
  runSlot s
    (fun s u => firstFail [noLend s u, illegalIf u (atLoopEnd u),
      stallCheck u [.pred p, .scalar t] (if call then [(.scalar 63, 1)] else []),
      failIf (guardHolds u p i && (u.reg t).extractLsb' 0 4 != 0) cMisaligned (u.flow.pchi ++ u.reg t)])
    (fun s u => transferTo s u (u.reg t) (guardHolds u p i) false call)

/-- BR (R92). -/
def execBr (p : BitVec 3) (i : BitVec 1) (d : BitVec 20) (s : State) : Host.Outcome State Fault Refusal :=
  relTransfer false false p i d s

/-- BRN (R92). -/
def execBrn (p : BitVec 3) (i : BitVec 1) (d : BitVec 20) (s : State) : Host.Outcome State Fault Refusal :=
  relTransfer true false p i d s

/-- CALL (R92). -/
def execCall (p : BitVec 3) (i : BitVec 1) (d : BitVec 20) (s : State) : Host.Outcome State Fault Refusal :=
  relTransfer false true p i d s

/-- JR (R92). -/
def execJr (p : BitVec 3) (i : BitVec 1) (t : BitVec 6) (s : State) : Host.Outcome State Fault Refusal :=
  regTransfer false p i t s

/-- CALLR (R92). -/
def execCallr (p : BitVec 3) (i : BitVec 1) (t : BitVec 6) (s : State) : Host.Outcome State Fault Refusal :=
  regTransfer true p i t s

/-! ### Loops (R94, R95) -/

/-- R95's conditions that make LOOP and LOOPI illegal. -/
def loopIllegal (u : UnitSt) (l : Fin 2) (stop : BitVec 64) : Bool :=
  let f := u.flow
  let a := f.pc.addr
  (f.loops.get l).active || (l == 0 && (f.loops.get 1).active)
    || (l == 1 && (f.loops.get 0).active && decide ((f.loops.get 0).stop < stop))
    || f.npc.addr != a + 16 || f.npc.ann || f.nnpc.addr != a + 32 || f.nnpc.ann

/-- Starting a loop of n starts and drain depth e over `len` bundles, or annulling its body once (R95). -/
def startLoop (u : UnitSt) (l : Fin 2) (n : BitVec 32) (e : BitVec 3) (len : Nat) : UnitSt :=
  let a := u.flow.pc.addr
  if n = 0 ∧ e = 0 then
    u.modFlow fun f => { f with npc := { f.npc with ann := true },
                                nnpc := { f.nnpc with ann := decide (2 ≤ len) }, skip := len - 2 }
  else
    u.modFlow fun f => { f.setLoop l ⟨a + 16, a + BitVec.ofNat 64 (16 * len), e, e, u.regs.ps, true, false⟩ with
                         lc := f.lc.set l n }

/-- LOOP (R94): the starts and the drain depth from a register. -/
def execLoop (l : BitVec 1) (c : BitVec 6) (n : BitVec 13) (s : State) : Host.Outcome State Fault Refusal :=
  runSlot s
    (fun s u => firstFail [noLend s u,
      illegalIf u (loopIllegal u l.toFin (u.flow.pc.addr + BitVec.ofNat 64 (16 * (n.toNat + 1)))),
      stallCheck u [.scalar c] []])
    (fun s u => s.setUnit s.issue.me
      (startLoop u l.toFin ((u.reg c).extractLsb' 0 32) ((u.reg c).extractLsb' 32 3) (n.toNat + 1)))

/-- LOOPI (R94): an immediate count, drain depth 0. -/
def execLoopi (l : BitVec 1) (c : BitVec 9) (n : BitVec 10) (s : State) : Host.Outcome State Fault Refusal :=
  runSlot s
    (fun s u => firstFail [noLend s u,
      illegalIf u (loopIllegal u l.toFin (u.flow.pc.addr + BitVec.ofNat 64 (16 * (n.toNat + 1))))])
    (fun s u => s.setUnit s.issue.me (startLoop u l.toFin (c.setWidth 32 + 1) 0 (n.toNat + 1)))

/-! ### ENDSEG, HALT, STGP, TRAP, BRK, NOPS (R99 to R106) -/

/-- ENDSEG (R100): the unit parks at its next bundle boundary. -/
def execEndseg (s : State) : Host.Outcome State Fault Refusal :=
  runSlot s (fun s u => noLend s u)
    (fun s u => s.setUnit s.issue.me (u.modRun fun r => { r with endSeg := true }))

/-- A command of the unit that its engines or its array have not completed or faulted (R103). -/
def engineBusy (s : State) (uid : Uid) (c : ClusterNo) : Bool :=
  let k := s.cluster c
  let a := k.array
  !s.issue.ready &&
  (k.eng.toList.any (fun e => e.queue.any fun q => q.uid == some uid && q.fault.isNone)
    || k.follows.any (fun f => f.uid == uid)
    || a.queue.any (fun q => q.uid == uid)
    || (a.state == .run && match a.stream with | some x => x.cmd.uid == uid | none => false)
    || (match a.exec with | some x => x.cmd.uid == uid | none => false)
    || a.conv.any (fun x => x.cmd.uid == uid))

/-- A release at device scope that has nothing to wait for: it completes as it is applied. -/
def releaseIdle (s : State) (u : UnitSt) : Bool :=
  let c := u.ident.cluster
  s.issue.ready || canRelease s c && !((s.cluster c).cache.any fun l => l.dirty != 0) && (pendingLines s (dieOf c)).isEmpty
    && !syncPending s s.issue.me s.nextReq

/-- HALT's conditions in order (R103, R128). -/
def haltCheck (s : State) (u : UnitSt) : SlotResult :=
  if !u.pend.isEmpty then .wait .drainHalt
  else if engineBusy s s.issue.me u.ident.cluster then .wait .releaseHalt
  else if u.umem.haltRel == some true || (u.umem.haltRel.isNone && releaseIdle s u) then .done
  else .wait .releaseHalt

/-- The last condition of HALT: the release at device scope starts once the first two hold (R128). -/
def haltWait (s : State) (u : UnitSt) : State :=
  if u.pend.isEmpty && !engineBusy s s.issue.me u.ident.cluster && u.umem.haltRel.isNone then
    startRelease (s.setUnit s.issue.me (u.modMem fun m => { m with haltRel := some false })) s.issue.me u.ident.cluster 2 .halt
  else s

/-- HALT (R103): the unit completes; in its curtain entry HALT acts as CURTDONE (R395). -/
def execHalt (s : State) : Host.Outcome State Fault Refusal :=
  runSlotW s (fun s u => firstFail [noLend s u, haltCheck s u]) haltWait
    (fun s u => completeUnit s s.issue.me (if u.curt.inentry then .curtain else .halted))

/-- STGP (R99): the eight stage predicates, latency 1. -/
def execStgp (p : BitVec 8) (s : State) : Host.Outcome State Fault Refusal :=
  runSlot s
    (fun s u => firstFail [noLend s u,
      stallCheck u [] ((List.range 8).map fun i => (.stage (BitVec.ofNat 3 i), 1))])
    (fun s u => s.setUnit s.issue.me ((List.range 8).foldl (fun u i =>
      u.push (mkEntry s u (.stage (BitVec.ofNat 3 i)) ((BitVec.ofBool (p.getLsbD i)).setWidth 512) 1 0)) u))

/-- TRAP (R104): SOFTWARE_TRAP with the code when the guard holds. -/
def execTrap (p : BitVec 3) (i : BitVec 1) (c : BitVec 8) (s : State) : Host.Outcome State Fault Refusal :=
  runSlot s
    (fun s u => firstFail [noLend s u, stallCheck u [.pred p] [], failIf (guardHolds u p i) cTrap (c.setWidth 80)])
    (fun s _ => s)

/-- BRK (R104): BREAKPOINT with the tag. -/
def execBrk (t : BitVec 20) (s : State) : Host.Outcome State Fault Refusal :=
  runSlot s (fun s u => firstFail [noLend s u, .fault cBreak (t.setWidth 80)]) (fun s _ => s)

/-- NOPS (R105): n more unheld cycles before the next bundle. -/
def execNops (n : BitVec 20) (s : State) : Host.Outcome State Fault Refusal :=
  runSlot s (fun s u => noLend s u) (fun s _ => s.setIssue { s.issue with nops := n.toNat })

/-- NOP (R31): no effect. -/
def execNop (s : State) : Host.Outcome State Fault Refusal := runSlot s (fun _ _ => .done) (fun s _ => s)

end Sys2Proof.Machine
end

