-- ==== Sys2Proof/Machine/Flags.lean ====
section
/-! DEFINITION.
The flags of R140 and the exact arithmetic behind them (R138 to R142, R144 to R148, R153, R154): a finite value is a
dyadic number m·2^e with an integer m, an operation is computed exactly on such numbers, and one rounding produces the
result and its flags. -/

namespace Sys2Proof.Machine

/-! ### Flags (R76, R140) -/

def fNX : BitVec 5 := 1
def fUF : BitVec 5 := 2
def fOF : BitVec 5 := 4
def fDZ : BitVec 5 := 8
def fNV : BitVec 5 := 16

/-! ### Formats (R138) -/

/-- A binary format: exponent bits, fraction bits. -/
structure Fmt where
  ebits : Nat
  fbits : Nat
  deriving DecidableEq, Repr

def f64 : Fmt := ⟨11, 52⟩
def f32 : Fmt := ⟨8, 23⟩
def f16 : Fmt := ⟨5, 10⟩
def bf16 : Fmt := ⟨8, 7⟩

namespace Fmt
def bias (f : Fmt) : Int := 2 ^ (f.ebits - 1) - 1
def width (f : Fmt) : Nat := f.ebits + f.fbits + 1
/-- Exponent of the unit of a subnormal number. -/
def emin (f : Fmt) : Int := 1 - f.bias - f.fbits
def expMax (f : Fmt) : Nat := 2 ^ f.ebits - 1
def infBits (f : Fmt) : Nat := f.expMax * 2 ^ f.fbits
/-- The canonical quiet NaN (R142). -/
def qnan (f : Fmt) : Nat := f.infBits + 2 ^ (f.fbits - 1)
def maxFinite (f : Fmt) : Nat := f.infBits - 1
end Fmt

/-- A number of a format: its class and, when finite, (−1)^sign · m · 2^e with a natural m. -/
inductive Fp where
  | nan (bits : Nat) (signalling : Bool)
  | inf (neg : Bool)
  | fin (neg : Bool) (m : Nat) (e : Int)
  deriving DecidableEq, Repr

/-- Reading a bit pattern in a format. -/
def unpack (f : Fmt) (bits : Nat) : Fp :=
  let frac := bits % 2 ^ f.fbits
  let ex := bits / 2 ^ f.fbits % 2 ^ f.ebits
  let neg := bits / 2 ^ (f.ebits + f.fbits) % 2 == 1
  if ex = f.expMax then
    if frac = 0 then .inf neg else .nan (bits % 2 ^ f.width) (frac < 2 ^ (f.fbits - 1))
  else if ex = 0 then .fin neg frac f.emin
  else .fin neg (frac + 2 ^ f.fbits) (f.emin + ex - 1)

def Fp.isNan : Fp → Bool
  | .nan _ _ => true
  | _ => false

def Fp.isSnan : Fp → Bool
  | .nan _ s => s
  | _ => false

/-- A bit pattern with a sign. -/
def withSign (f : Fmt) (neg : Bool) (bits : Nat) : Nat := if neg then bits + 2 ^ (f.ebits + f.fbits) else bits

/-! ### Rounding (R139) -/

/-- Rounding modes, coded as R40. -/
abbrev Rm := BitVec 3

/-- Rounds the non-negative rational n/d (d > 0) to an integer in a mode; `neg` is the sign of the number rounded.
Returns the integer and whether it is inexact. -/
def roundNat (rm : Rm) (neg : Bool) (n d : Nat) : Nat × Bool :=
  let q := n / d
  let r := n % d
  let up := match rm with
    | 0 => decide (d < 2 * r) || (2 * r == d && q % 2 == 1)
    | 1 => false
    | 2 => neg && r != 0
    | 3 => !neg && r != 0
    | _ => decide (d ≤ 2 * r) && r != 0
  (if up then q + 1 else q, r != 0)

/-- What overflow gives in each mode (R139). -/
def overflowBits (f : Fmt) (rm : Rm) (neg : Bool) : Nat :=
  let toInf := match rm with
    | 0 => true
    | 1 => false
    | 2 => neg
    | 3 => !neg
    | _ => true
  withSign f neg (if toInf then f.infBits else f.maxFinite)

/-- Floor of log2 of a positive rational n/d. -/
def floorLog2 (n d : Nat) : Int :=
  let a : Int := (Nat.log2 n : Int) - (Nat.log2 d : Int)
  -- 2^a is within a factor of two of n/d
  if (if 0 ≤ a then decide (d * 2 ^ a.toNat ≤ n) else decide (d ≤ n * 2 ^ (-a).toNat)) then a else a - 1

/-- n/d divided by 2^e, as a fraction. -/
def scaleDown (n d : Nat) (e : Int) : Nat × Nat :=
  if 0 ≤ e then (n, d * 2 ^ e.toNat) else (n * 2 ^ (-e).toNat, d)

/-- Rounds the positive rational n/d to a format once, with the flags of R140: tininess after rounding (R138). -/
def roundPos (f : Fmt) (rm : Rm) (neg : Bool) (n d : Nat) : Nat × BitVec 5 :=
  let lg := floorLog2 n d
  -- exponent of the unit in the last place, unbounded and bounded below
  let eu := lg - f.fbits
  let e := if eu < f.emin then f.emin else eu
  let x := scaleDown n d e
  let r := roundNat rm neg x.1 x.2
  let q := r.1
  let inexact := r.2
  -- a carry out of the significand moves to the next binade by itself in the packed form
  let ex : Int := if q < 2 ^ f.fbits then 0 else e - f.emin + 1
  let bits : Int := if q < 2 ^ f.fbits then q else (ex - 1) * 2 ^ f.fbits + q
  if (f.infBits : Int) ≤ bits then (overflowBits f rm neg, fOF ||| fNX)
  else
    -- tiny: rounded as though the exponent range were unbounded, below the smallest normal number
    let xu := scaleDown n d eu
    let ru := roundNat rm neg xu.1 xu.2
    let tiny := decide (eu < f.emin) && !(eu == f.emin - 1 && ru.1 == 2 ^ (f.fbits + 1))
    let fl := (if inexact then fNX else 0) ||| (if tiny && inexact then fUF else 0)
    (withSign f neg bits.toNat, fl)

/-- Rounds (−1)^neg · n/d, n possibly zero: an exact zero takes the given sign. -/
def roundRat (f : Fmt) (rm : Rm) (neg zeroNeg : Bool) (n d : Nat) : Nat × BitVec 5 :=
  if n = 0 then (withSign f zeroNeg 0, 0) else roundPos f rm neg n d

/-- The sign of an exact zero sum of opposite signs: −0 under RDN (R139). -/
def zeroSumNeg (rm : Rm) : Bool := rm == 2

/-! ### NaN rules (R142) -/

/-- A NaN's bits with the most significant fraction bit set. -/
def quiet (f : Fmt) (bits : Nat) : Nat := bits ||| 2 ^ (f.fbits - 1)

/-- R142 for inputs in operand order: the first NaN, quieted, and NV for a signalling input. -/
def nanRule (f : Fmt) (xs : List Fp) : Option (Nat × BitVec 5) :=
  match xs.find? Fp.isNan with
  | some (.nan b _) => some (quiet f b, if xs.any Fp.isSnan then fNV else 0)
  | _ => none

/-- A conversion of a NaN to another format: sign kept, the payload's top bits kept, quieted (R142). -/
def convNan (src dst : Fmt) (bits : Nat) (signalling : Bool) : Nat × BitVec 5 :=
  let frac := bits % 2 ^ src.fbits
  let neg := bits / 2 ^ (src.ebits + src.fbits) % 2 == 1
  let fr := if dst.fbits ≤ src.fbits then frac / 2 ^ (src.fbits - dst.fbits) else frac * 2 ^ (dst.fbits - src.fbits)
  (withSign dst neg (quiet dst (dst.infBits + fr)), if signalling then fNV else 0)

/-! ### The operations (R144, R145) -/

/-- The signed integer of a finite number at exponent e (e not above its own). -/
def scaledInt (neg : Bool) (m : Nat) (e0 e : Int) : Int :=
  let v : Int := m * 2 ^ (e0 - e).toNat
  if neg then -v else v

/-- Rounds the exact integer multiple v · 2^e. -/
def roundInt (f : Fmt) (rm : Rm) (zeroNeg : Bool) (v : Int) (e : Int) : Nat × BitVec 5 :=
  let n := v.natAbs
  if 0 ≤ e then roundRat f rm (decide (v < 0)) zeroNeg (n * 2 ^ e.toNat) 1
  else roundRat f rm (decide (v < 0)) zeroNeg n (2 ^ (-e).toNat)

/-- a + b of finite or infinite numbers, rounded once; the sign of an exact zero as R139 gives. -/
def fpAdd (f : Fmt) (rm : Rm) (a b : Fp) : Nat × BitVec 5 :=
  match nanRule f [a, b] with
  | some r => r
  | none =>
    match a, b with
    | .inf x, .inf y => if x == y then (withSign f x f.infBits, 0) else (f.qnan, fNV)
    | .inf x, _ => (withSign f x f.infBits, 0)
    | _, .inf y => (withSign f y f.infBits, 0)
    | .fin x m e, .fin y m' e' =>
      let e0 := min e e'
      let zn := if m == 0 && m' == 0 && x == y then x else zeroSumNeg rm
      roundInt f rm zn (scaledInt x m e e0 + scaledInt y m' e' e0) e0
    | _, _ => (f.qnan, fNV)

/-- A number with its sign inverted. -/
def Fp.neg : Fp → Fp
  | .nan b s => .nan b s
  | .inf x => .inf (!x)
  | .fin x m e => .fin (!x) m e

/-- a − b. -/
def fpSub (f : Fmt) (rm : Rm) (a b : Fp) : Nat × BitVec 5 :=
  match nanRule f [a, b] with
  | some r => r
  | none => fpAdd f rm a b.neg

/-- a × b. -/
def fpMul (f : Fmt) (rm : Rm) (a b : Fp) : Nat × BitVec 5 :=
  match nanRule f [a, b] with
  | some r => r
  | none =>
    match a, b with
    | .fin x m e, .fin y m' e' =>
      let v : Int := if x == y then (m * m' : Nat) else -((m * m' : Nat) : Int)
      roundInt f rm (x != y) v (e + e')
    | .inf x, .fin y m _ => if m = 0 then (f.qnan, fNV) else (withSign f (x != y) f.infBits, 0)
    | .fin x m _, .inf y => if m = 0 then (f.qnan, fNV) else (withSign f (x != y) f.infBits, 0)
    | .inf x, .inf y => (withSign f (x != y) f.infBits, 0)
    | _, _ => (f.qnan, fNV)

/-- The exact product of two numbers that are no NaN: finite or infinite, `none` for 0 × Inf. -/
def fpProd (a b : Fp) : Option Fp :=
  match a, b with
  | .fin x m e, .fin y m' e' => some (.fin (x != y) (m * m') (e + e'))
  | .inf x, .fin y m _ => if m = 0 then none else some (.inf (x != y))
  | .fin x m _, .inf y => if m = 0 then none else some (.inf (x != y))
  | .inf x, .inf y => some (.inf (x != y))
  | _, _ => none

/-- c + a × b with one rounding; NaN inputs in the order c, a, b (R142, R144). -/
def fpFma (f : Fmt) (rm : Rm) (sub : Bool) (c a b : Fp) : Nat × BitVec 5 :=
  match nanRule f [c, a, b] with
  | some r => r
  | none =>
    match fpProd a b with
    | none => (f.qnan, fNV)
    | some p => fpAdd f rm c (if sub then p.neg else p)

/-- a ÷ b. -/
def fpDiv (f : Fmt) (rm : Rm) (a b : Fp) : Nat × BitVec 5 :=
  match nanRule f [a, b] with
  | some r => r
  | none =>
    match a, b with
    | .inf _, .inf _ => (f.qnan, fNV)
    | .inf x, .fin y _ _ => (withSign f (x != y) f.infBits, 0)
    | .fin x _ _, .inf y => (withSign f (x != y) 0, 0)
    | .fin x m e, .fin y m' e' =>
      if m' = 0 then (if m = 0 then (f.qnan, fNV) else (withSign f (x != y) f.infBits, fDZ))
      else
        let k := e - e'
        let nd := if 0 ≤ k then (m * 2 ^ k.toNat, m') else (m, m' * 2 ^ (-k).toNat)
        roundRat f rm (x != y) (x != y) nd.1 nd.2
    | _, _ => (f.qnan, fNV)

/-- The integer root by its bits: `k` of them are still to be settled behind r. -/
def rootBits : Nat → Nat → Nat → Nat
  | 0, _, r => r
  | k + 1, n, r => rootBits k n (if (r + 2 ^ k) * (r + 2 ^ k) ≤ n then r + 2 ^ k else r)

/-- The greatest number whose square is no more than n. -/
def isqrt (n : Nat) : Nat := rootBits (Nat.log2 n / 2 + 1) n 0

/-- Square root: the exact root is bracketed between neighbours far finer than the destination, and an inexact root is
marked by an odd half of the finer unit, which no rounding boundary of the format meets. -/
def fpSqrt (f : Fmt) (rm : Rm) (a : Fp) : Nat × BitVec 5 :=
  match nanRule f [a] with
  | some r => r
  | none =>
    match a with
    | .inf x => if x then (f.qnan, fNV) else (f.infBits, 0)
    | .fin x m e =>
      if m = 0 then (withSign f x 0, 0)
      else if x then (f.qnan, fNV)
      else
        -- m·2^e = M·2^(2k): an even exponent, scaled so that the root has more bits than the format keeps
        let k0 : Int := e / 2
        let m0 := if e % 2 = 0 then m else 2 * m
        let sh := f.fbits + 4
        let big := m0 * 2 ^ (2 * sh)
        let r := isqrt big
        let exact := r * r == big
        -- r or r + 1/2 in units of 2^(k0 − sh)
        let n := if exact then 2 * r else 2 * r + 1
        let ex : Int := k0 - sh - 1
        if 0 ≤ ex then roundRat f rm false false (n * 2 ^ ex.toNat) 1 else roundRat f rm false false n (2 ^ (-ex).toNat)
    | .nan b _ => (b, 0)

/-- Order of two numbers that are no NaN, −0 below +0 when `strictZero`: −1, 0 or 1. -/
def fpCmp (strictZero : Bool) (a b : Fp) : Int :=
  let key : Fp → Int × (Nat × Int) := fun x =>
    match x with
    | .inf n => (if n then -2 else 2, (0, 0))
    | .fin n m e => (if m = 0 then 0 else if n then -1 else 1, (m, e))
    | .nan _ _ => (0, (0, 0))
  let ka := (key a).1
  let kb := (key b).1
  if ka < kb then -1 else if kb < ka then 1
  else
    match a, b with
    | .fin n m e, .fin n' m' e' =>
      if m = 0 then (if strictZero then (if n && !n' then -1 else if !n && n' then 1 else 0) else 0)
      else
        let e0 := min e e'
        let x := scaledInt n m e e0
        let y := scaledInt n' m' e' e0
        if x < y then -1 else if y < x then 1 else 0
    | _, _ => 0

/-- VMIN and VMAX of bit patterns (R145): va when the operands compare equal. -/
def fpMinMax (f : Fmt) (isMax : Bool) (abits bbits : Nat) : Nat × BitVec 5 :=
  let a := unpack f abits
  let b := unpack f bbits
  match nanRule f [a, b] with
  | some r => r
  | none =>
    let c := fpCmp true a b
    let takeB := if isMax then c < 0 else 0 < c
    (if takeB then bbits else abits, 0)

/-- A comparison's truth and flags (R146): kind 0 equal, 1 less, 2 less or equal. -/
def fpCompare (kind : Nat) (a b : Fp) : Bool × BitVec 5 :=
  if a.isNan || b.isNan then
    (false, if kind = 0 then (if a.isSnan || b.isSnan then fNV else 0) else fNV)
  else
    let c := fpCmp false a b
    (match kind with
      | 0 => c == 0
      | 1 => c < 0
      | _ => c ≤ 0, 0)

/-- VCLASS's mask (R147). -/
def fpClass (f : Fmt) (bits : Nat) : BitVec 32 :=
  match unpack f bits with
  | .inf n => if n then 1 else 0x80
  | .nan _ s => if s then 0x100 else 0x200
  | .fin n m _ =>
    if m = 0 then (if n then 8 else 0x10)
    else if m < 2 ^ f.fbits then (if n then 4 else 0x20)
    else (if n then 2 else 0x40)

/-! ### Conversions (R153, R154) -/

/-- Format to format with rounding; exact when the destination is wider. -/
def fpConv (src dst : Fmt) (rm : Rm) (bits : Nat) : Nat × BitVec 5 :=
  match unpack src bits with
  | .nan b s => convNan src dst b s
  | .inf n => (withSign dst n dst.infBits, 0)
  | .fin n m e => roundInt dst rm n (if n then -(m : Int) else m) e

/-- A signed integer to a format. -/
def intToFp (dst : Fmt) (rm : Rm) (v : Int) : Nat × BitVec 5 := roundInt dst rm false v 0

/-- A format to a signed 32-bit integer (R153). -/
def fpToInt (src : Fmt) (rm : Rm) (bits : Nat) : BitVec 32 × BitVec 5 :=
  match unpack src bits with
  | .nan _ _ => (0, fNV)
  | .inf n => (if n then 0x80000000 else 0x7FFFFFFF, fNV)
  | .fin n m e =>
    let x := if 0 ≤ e then (m * 2 ^ e.toNat, 1) else (m, 2 ^ (-e).toNat)
    let r := roundNat rm n x.1 x.2
    let v : Int := if n then -(r.1 : Int) else r.1
    if v < -(2 ^ 31) then (0x80000000, fNV)
    else if 2 ^ 31 - 1 < v then (0x7FFFFFFF, fNV)
    else (BitVec.ofInt 32 v, if r.2 then fNX else 0)

/-- The stochastic codes of R154: r is the lane's 16-bit share of the word. -/
def fpStochastic (dst : Fmt) (r : BitVec 16) (bits : Nat) : Nat × BitVec 5 :=
  match unpack f32 bits with
  | .nan b s => convNan f32 dst b s
  | .inf n => (withSign dst n dst.infBits, 0)
  | .fin n m e =>
    if m = 0 then (withSign dst n 0, 0)
    else
      let lg : Int := (Nat.log2 m : Int) + e
      let eu := max (lg - dst.fbits) dst.emin
      -- |x| / 2^eu
      let x := if 0 ≤ e - eu then (m * 2 ^ (e - eu).toNat, 1) else (m, 2 ^ (eu - e).toNat)
      let t := x.1 / x.2
      let rest := x.1 % x.2
      let g := 2 ^ 16 * rest / x.2
      let q := if g + r.toNat < 2 ^ 16 then t else t + 1
      let inexact := rest != 0
      let pack : Int := if q < 2 ^ dst.fbits then q else (eu - dst.emin) * 2 ^ dst.fbits + q
      if (dst.infBits : Int) ≤ pack then (withSign dst n dst.infBits, fOF ||| fNX)
      else
        let tiny := decide (pack < 2 ^ dst.fbits)
        (withSign dst n pack.toNat, (if inexact then fNX else 0) ||| (if tiny && inexact then fUF else 0))

end Sys2Proof.Machine
end

