-- ==== Sys2Proof/Machine/VectorFp.lean ====
section
/-! DEFINITION.
What every vector slot shares (R40, R62, R63, R133 to R136), and V.FP and V.FP64 (R138 to R148). -/

namespace Sys2Proof.Machine

/-! ### A vector slot -/

/-- The rounding mode of a slot: RM, or RMODE for DYN (R40, R139). -/
def slotRm (u : UnitSt) (lend : BitVec 8) : Rm := if lendRm lend = 5 then u.csr.rmode else lendRm lend

/-- The port entry of an operand that is read (R63). -/
def VOperand.port (o : VOperand) : BitVec 3 × BitVec 2 × BitVec 4 := (o.tile, o.dir, o.index)

/-- Two more cycles when an operand read is in the slow partition (R134). -/
def slowExtra (reads : List VOperand) : Nat := if reads.any VOperand.slow then 2 else 0

/-- What a vector slot adds to the issue record: the ports it reads, the flags it can raise and would raise, and its
latency, by which the step runs the port check (R64) and the check pass (R35). -/
def noteVector (s : State) (reads : List VOperand) (can raised : BitVec 5) (lat : Nat) : State :=
  s.setIssue { s.issue with ports := s.issue.ports ++ reads.map VOperand.port, canRaise := can, raised := raised, lat := lat }

/-- The checks every vector slot makes: reserved RM, misuse of the lend byte, the stall check. -/
def vectorChecks (s : State) (u : UnitSt) (misuse : Bool) (reads : List Dest) (writes : List (Dest × Nat)) : SlotResult :=
  firstFail [illegalIf u (decide (6 ≤ (lendRm s.issue.lend).toNat) || misuse), stallCheck u reads writes]

/-- A vector slot that computes a vector from tile operands: one pending entry with the flags (R79, R143). -/
def vectorSlot (misuse : Issue → Bool) (reads : Issue → List VOperand) (dest : Issue → VOperand) (lat : Nat)
    (can : BitVec 5) (f : Issue → UnitSt → BitVec 512 × BitVec 5) (s : State) : Host.Outcome State Fault Refusal :=
  let rs := reads s.issue
  let l := lat + slowExtra rs
  runSlot s
    (fun s u => vectorChecks s u (misuse s.issue) (rs.map VOperand.dest) [((dest s.issue).dest, l)])
    (fun s u =>
      let r := f s.issue u
      schedule (noteVector s rs can r.2 l) s.issue.me u (dest s.issue).dest r.1 l r.2)

/-- Operand fields with their lend bits. -/
def opD (is : Issue) (d : BitVec 8) : VOperand := vOperand d (lendTd is.lend)
def opA (is : Issue) (a : BitVec 8) : VOperand := vOperand a (lendTa is.lend)
def opB (is : Issue) (b : BitVec 8) : VOperand := vOperand b (lendTb is.lend)

/-! ### Lanes (R133, R143) -/

/-- What one lane of class 0x4 or 0x5 computes: format, lane width, rounding mode, the lanes of vd, va and vb. -/
abbrev LaneOp := Fmt → Nat → Rm → Nat → Nat → Nat → Nat × BitVec 5

/-- The format of a class 0x4 slot (R40). -/
def fmtOf (x : BitVec 2) : Fmt :=
  match x with
  | 0 => f32
  | 1 => f16
  | _ => bf16

/-- Every lane of a vector, with the flags of all lanes. -/
def lanes32 (f : Nat → BitVec 32 × BitVec 5) : BitVec 512 × BitVec 5 :=
  let rs := (List.range 16).map f
  (vec32 fun i => (rs.getD i (0, 0)).1, rs.foldl (fun acc x => acc ||| x.2) 0)

/-- Every 64-bit lane of a vector, with the flags of all lanes. -/
def lanes64 (f : Nat → BitVec 64 × BitVec 5) : BitVec 512 × BitVec 5 :=
  let rs := (List.range 8).map f
  (vec64 fun i => (rs.getD i (0, 0)).1, rs.foldl (fun acc x => acc ||| x.2) 0)

/-- An operation on every lane in a format of class 0x4, or in FP64. -/
def fpVec (wide : Bool) (fmt : Fmt) (op : LaneOp) (rm : Rm) (c a b : BitVec 512) : BitVec 512 × BitVec 5 :=
  if wide then
    lanes64 fun j => let r := op f64 64 rm (lane64 c j).toNat (lane64 a j).toNat (lane64 b j).toNat
                     (BitVec.ofNat 64 r.1, r.2)
  else
    lanes32 fun i => let r := op fmt 32 rm (lane32 c i).toNat (lane32 a i).toNat (lane32 b i).toNat
                     (BitVec.ofNat 32 r.1, r.2)

/-- A slot of class 0x4 (`wide` false) or 0x5: `useB` and `useD` say whether vb and vd are read. -/
def fpSlot (wide useB useD : Bool) (lat : Nat) (can : BitVec 5) (op : LaneOp) (d a b : BitVec 8) (s : State) :
    Host.Outcome State Fault Refusal :=
  vectorSlot
    (fun is => (if wide then lendFmt is.lend != 0 else lendFmt is.lend == 3) || (!useB && lendTb is.lend))
    (fun is => [opA is a] ++ (if useB then [opB is b] else []) ++ (if useD then [opD is d] else []))
    (fun is => opD is d) lat can
    (fun is u => fpVec wide (fmtOf (lendFmt is.lend)) op (slotRm u is.lend) (u.vec (opD is d)) (u.vec (opA is a))
      (if useB then u.vec (opB is b) else 0)) s

/-! ### The lane operations (R144 to R147) -/

def laneAdd : LaneOp := fun f _ rm _ a b => fpAdd f rm (unpack f a) (unpack f b)
def laneSub : LaneOp := fun f _ rm _ a b => fpSub f rm (unpack f a) (unpack f b)
def laneMul : LaneOp := fun f _ rm _ a b => fpMul f rm (unpack f a) (unpack f b)
def laneFma : LaneOp := fun f _ rm c a b => fpFma f rm false (unpack f c) (unpack f a) (unpack f b)
def laneFms : LaneOp := fun f _ rm c a b => fpFma f rm true (unpack f c) (unpack f a) (unpack f b)
def laneDiv : LaneOp := fun f _ rm _ a b => fpDiv f rm (unpack f a) (unpack f b)
def laneSqrt : LaneOp := fun f _ rm _ a _ => fpSqrt f rm (unpack f a)
def laneMin : LaneOp := fun f _ _ _ a b => fpMinMax f false (a % 2 ^ f.width) (b % 2 ^ f.width)
def laneMax : LaneOp := fun f _ _ _ a b => fpMinMax f true (a % 2 ^ f.width) (b % 2 ^ f.width)
/-- A comparison's lane: all ones or all zeros over the whole lane (R146). -/
def laneCmp (kind : Nat) : LaneOp := fun f w _ _ a b =>
  let r := fpCompare kind (unpack f a) (unpack f b)
  (if r.1 then 2 ^ w - 1 else 0, r.2)
def laneAbs : LaneOp := fun f _ _ _ a _ => (a % 2 ^ (f.width - 1), 0)
def laneNeg : LaneOp := fun f _ _ _ a _ => ((a % 2 ^ f.width + 2 ^ (f.width - 1)) % 2 ^ f.width, 0)
/-- VSEL moves the whole lane by the top bit of vd's lane. -/
def laneSel : LaneOp := fun _ w _ c a b => (if c / 2 ^ (w - 1) % 2 = 1 then a else b, 0)
def laneClass : LaneOp := fun f _ _ _ a _ => ((fpClass f (a % 2 ^ f.width)).toNat, 0)

/-- NV, OF, UF, NX. -/
def canArith : BitVec 5 := fNV ||| fOF ||| fUF ||| fNX

/-! ### V.FP (R59, R144 to R148) -/

/-- VADD (R144). -/
def execVadd (d a b : BitVec 8) (s : State) : Host.Outcome State Fault Refusal :=
  fpSlot false true false 4 canArith laneAdd d a b s

/-- VSUB (R144). -/
def execVsub (d a b : BitVec 8) (s : State) : Host.Outcome State Fault Refusal :=
  fpSlot false true false 4 canArith laneSub d a b s

/-- VMUL (R144). -/
def execVmul (d a b : BitVec 8) (s : State) : Host.Outcome State Fault Refusal :=
  fpSlot false true false 4 canArith laneMul d a b s

/-- VFMA (R144). -/
def execVfma (d a b : BitVec 8) (s : State) : Host.Outcome State Fault Refusal :=
  fpSlot false true true 5 canArith laneFma d a b s

/-- VFMS (R144). -/
def execVfms (d a b : BitVec 8) (s : State) : Host.Outcome State Fault Refusal :=
  fpSlot false true true 5 canArith laneFms d a b s

/-- VDIV (R144). -/
def execVdiv (d a b : BitVec 8) (s : State) : Host.Outcome State Fault Refusal :=
  fpSlot false true false 14 (canArith ||| fDZ) laneDiv d a b s

/-- VSQRT (R144). -/
def execVsqrt (d a : BitVec 8) (s : State) : Host.Outcome State Fault Refusal :=
  fpSlot false false false 14 (fNV ||| fNX) laneSqrt d a 0 s

/-- VMIN (R145). -/
def execVmin (d a b : BitVec 8) (s : State) : Host.Outcome State Fault Refusal :=
  fpSlot false true false 4 fNV laneMin d a b s

/-- VMAX (R145). -/
def execVmax (d a b : BitVec 8) (s : State) : Host.Outcome State Fault Refusal :=
  fpSlot false true false 4 fNV laneMax d a b s

/-- VCMPEQ (R146). -/
def execVcmpeq (d a b : BitVec 8) (s : State) : Host.Outcome State Fault Refusal :=
  fpSlot false true false 4 fNV (laneCmp 0) d a b s

/-- VCMPLT (R146). -/
def execVcmplt (d a b : BitVec 8) (s : State) : Host.Outcome State Fault Refusal :=
  fpSlot false true false 4 fNV (laneCmp 1) d a b s

/-- VCMPLE (R146). -/
def execVcmple (d a b : BitVec 8) (s : State) : Host.Outcome State Fault Refusal :=
  fpSlot false true false 4 fNV (laneCmp 2) d a b s

/-- VABS (R147). -/
def execVabs (d a : BitVec 8) (s : State) : Host.Outcome State Fault Refusal :=
  fpSlot false false false 2 0 laneAbs d a 0 s

/-- VNEG (R147). -/
def execVneg (d a : BitVec 8) (s : State) : Host.Outcome State Fault Refusal :=
  fpSlot false false false 2 0 laneNeg d a 0 s

/-- VSEL (R147). -/
def execVsel (d a b : BitVec 8) (s : State) : Host.Outcome State Fault Refusal :=
  fpSlot false true true 2 0 laneSel d a b s

/-- VCLASS (R147). -/
def execVclass (d a : BitVec 8) (s : State) : Host.Outcome State Fault Refusal :=
  fpSlot false false false 2 0 laneClass d a 0 s

/-! ### V.FP64 (R59, R144 to R147) -/

/-- VADD (R144) in FP64. -/
def execVaddF64 (d a b : BitVec 8) (s : State) : Host.Outcome State Fault Refusal :=
  fpSlot true true false 5 canArith laneAdd d a b s

/-- VSUB (R144) in FP64. -/
def execVsubF64 (d a b : BitVec 8) (s : State) : Host.Outcome State Fault Refusal :=
  fpSlot true true false 5 canArith laneSub d a b s

/-- VMUL (R144) in FP64. -/
def execVmulF64 (d a b : BitVec 8) (s : State) : Host.Outcome State Fault Refusal :=
  fpSlot true true false 5 canArith laneMul d a b s

/-- VFMA (R144) in FP64. -/
def execVfmaF64 (d a b : BitVec 8) (s : State) : Host.Outcome State Fault Refusal :=
  fpSlot true true true 6 canArith laneFma d a b s

/-- VFMS (R144) in FP64. -/
def execVfmsF64 (d a b : BitVec 8) (s : State) : Host.Outcome State Fault Refusal :=
  fpSlot true true true 6 canArith laneFms d a b s

/-- VDIV (R144) in FP64. -/
def execVdivF64 (d a b : BitVec 8) (s : State) : Host.Outcome State Fault Refusal :=
  fpSlot true true false 24 (canArith ||| fDZ) laneDiv d a b s

/-- VSQRT (R144) in FP64. -/
def execVsqrtF64 (d a : BitVec 8) (s : State) : Host.Outcome State Fault Refusal :=
  fpSlot true false false 24 (fNV ||| fNX) laneSqrt d a 0 s

/-- VMIN (R145) in FP64. -/
def execVminF64 (d a b : BitVec 8) (s : State) : Host.Outcome State Fault Refusal :=
  fpSlot true true false 5 fNV laneMin d a b s

/-- VMAX (R145) in FP64. -/
def execVmaxF64 (d a b : BitVec 8) (s : State) : Host.Outcome State Fault Refusal :=
  fpSlot true true false 5 fNV laneMax d a b s

/-- VCMPEQ (R146) in FP64. -/
def execVcmpeqF64 (d a b : BitVec 8) (s : State) : Host.Outcome State Fault Refusal :=
  fpSlot true true false 5 fNV (laneCmp 0) d a b s

/-- VCMPLT (R146) in FP64. -/
def execVcmpltF64 (d a b : BitVec 8) (s : State) : Host.Outcome State Fault Refusal :=
  fpSlot true true false 5 fNV (laneCmp 1) d a b s

/-- VCMPLE (R146) in FP64. -/
def execVcmpleF64 (d a b : BitVec 8) (s : State) : Host.Outcome State Fault Refusal :=
  fpSlot true true false 5 fNV (laneCmp 2) d a b s

/-- VABS (R147) in FP64. -/
def execVabsF64 (d a : BitVec 8) (s : State) : Host.Outcome State Fault Refusal :=
  fpSlot true false false 2 0 laneAbs d a 0 s

/-- VNEG (R147) in FP64. -/
def execVnegF64 (d a : BitVec 8) (s : State) : Host.Outcome State Fault Refusal :=
  fpSlot true false false 2 0 laneNeg d a 0 s

/-- VSEL (R147) in FP64. -/
def execVselF64 (d a b : BitVec 8) (s : State) : Host.Outcome State Fault Refusal :=
  fpSlot true true true 2 0 laneSel d a b s

/-- VCLASS (R147) in FP64. -/
def execVclassF64 (d a : BitVec 8) (s : State) : Host.Outcome State Fault Refusal :=
  fpSlot true false false 2 0 laneClass d a 0 s

end Sys2Proof.Machine
end

