-- ==== Sys2Proof/Machine/Tiles.lean ====
section
/-! DEFINITION.
Tile handles, banks and rings (R196 to R206), the geometry of a copy command's two sides (R198, R212 to R222), and the
vector slots that reach them: VLDT, VSTT, VQRD, VPOP, VPUSH (R157, R160, R161). -/

namespace Sys2Proof.Machine

/-! ### Descriptors (R196) -/

namespace Handle
def rows (h : Handle) : Nat := (h.desc.extractLsb' 0 16).toNat
def cols (h : Handle) : Nat := (h.desc.extractLsb' 16 16).toNat
def eb (h : Handle) : Nat := 2 ^ (h.desc.extractLsb' 32 2).toNat
def level (h : Handle) : BitVec 2 := h.desc.extractLsb' 34 2
def ring (h : Handle) : Bool := h.desc.getLsbD 36
def bank0 (h : Handle) : Nat := (h.desc.extractLsb' 37 6).toNat
def slabs (h : Handle) : Nat := (h.desc.extractLsb' 43 16).toNat
/-- S = ROWS × COLS × EB. -/
def slabSize (h : Handle) : Nat := h.rows * h.cols * h.eb
/-- Bytes that the handle occupies. -/
def size (h : Handle) : Nat := if h.ring then h.slabSize * h.slabs else h.slabSize
/-- First byte in its level. -/
def base (h : Handle) : Nat := 65536 * h.bank0
end Handle

/-- A table entry with a descriptor, its counters at zero (R196, R203). -/
def Handle.fresh (h : BitVec 8) (desc : BitVec 64) : Handle :=
  { h := h, desc := desc, hp := 0, hc := 0, tp := 0, tc := 0, heads := [], tails := [], peer := none }

/-- Banks or blocks of a level. -/
def levelBanks (l : BitVec 2) : Nat := if l = 0 then 64 else 32

/-- R196: no reserved or out-of-range value, and the end within the level. -/
def descOk (desc : BitVec 64) : Bool :=
  let h := Handle.fresh 0 desc
  decide (1 ≤ h.rows) && decide (1 ≤ h.cols) && h.level != 3 && desc.extractLsb' 59 5 == 0
    && decide (h.bank0 < levelBanks h.level) && (if h.ring then decide (2 ≤ h.slabs) else h.slabs == 0)
    && decide (h.base + h.size ≤ 65536 * levelBanks h.level)

/-- A unit's handle. -/
def UnitSt.handle? (u : UnitSt) (h : BitVec 8) : Option Handle := u.umem.tbl.find? fun x => x.h == h

def UnitSt.setHandle (u : UnitSt) (x : Handle) : UnitSt :=
  u.modMem fun m => { m with tbl := updateFirst (fun y => y.h == x.h) (fun _ => x) m.tbl }

/-! ### On-chip storage (R196) -/

/-- The memory of a level of a cluster. -/
def levelMem (k : Cluster) (l : BitVec 2) : List Host.Cell :=
  match l with
  | 0 => k.tileSram
  | 1 => k.chipSram
  | _ => k.pinSram

/-- Bytes of a level. -/
def levelRead (s : State) (c : ClusterNo) (l : BitVec 2) (a n : Nat) : List Byte :=
  Memory.readBytes (levelMem (s.cluster c) l) a n

/-- Bytes of a level stored. -/
def levelWrite (s : State) (c : ClusterNo) (l : BitVec 2) (a : Nat) (bs : List Byte) : State :=
  s.modCluster c fun k =>
    match l with
    | 0 => { k with tileSram := Memory.writeBytes k.tileSram a bs }
    | 1 => { k with chipSram := Memory.writeBytes k.chipSram a bs }
    | _ => { k with pinSram := Memory.writeBytes k.pinSram a bs }

/-- Whether a unit owns every bank that a byte range touches (R199). -/
def ownsRange (k : Cluster) (uid : Uid) (l : BitVec 2) (a n : Nat) : Bool :=
  (List.range ((a + n - 1) / 65536 + 1 - a / 65536)).all fun i =>
    k.banks.any fun b => b.space == l && b.bank == a / 65536 + i && b.owner == uid

/-- A 512-bit vector from 64 bytes, element 0 lowest, and back (R157). -/
def vecOfBytes (bs : List Byte) : BitVec 512 := BitVec.ofNat 512 (leNat bs)
def bytesOfVec (v : BitVec 512) : List Byte := leBytes v.toNat 64

/-! ### Rings (R201) -/

namespace Handle
def canHead (h : Handle) (n : Nat) : Bool := decide (n ≤ (h.tp - h.hc).toNat)
def canTail (h : Handle) (n : Nat) : Bool := decide ((h.tc - h.hp).toNat + n ≤ h.slabs)
def claimHead (h : Handle) (id n : Nat) : Handle :=
  { h with hc := h.hc + BitVec.ofNat 32 n, heads := h.heads ++ [⟨id, n, false⟩] }
def claimTail (h : Handle) (id n : Nat) : Handle :=
  { h with tc := h.tc + BitVec.ofNat 32 n, tails := h.tails ++ [⟨id, n, false⟩] }
/-- Byte address in its level of the slab at a counter position. -/
def slabAt (h : Handle) (pos : BitVec 32) : Nat := h.base + h.slabSize * (pos.toNat % h.slabs)
end Handle

/-- The claims at the front that have finished are published, in claim order (R201). -/
def publishFront : BitVec 32 → List Claim → BitVec 32 × List Claim
  | p, [] => (p, [])
  | p, x :: rest => if x.done then publishFront (p + BitVec.ofNat 32 x.n) rest else (p, x :: rest)

/-- A claim finishes: it and those it held back are published when no earlier one is unpublished. -/
def finishClaim (h : Handle) (tail : Bool) (id : Nat) : Handle :=
  let mark (l : List Claim) : List Claim := l.map fun x => if x.id == id then { x with done := true } else x
  if tail then
    let r := publishFront h.tp (mark h.tails)
    { h with tp := r.1, tails := r.2 }
  else
    let r := publishFront h.hp (mark h.heads)
    { h with hp := r.1, heads := r.2 }

/-- A claim of n slabs of which one has finished ahead of the others (kind `q`, R210). -/
def finishSlab (h : Handle) (tail : Bool) (id : Nat) : Handle :=
  let split (l : List Claim) : List Claim := l.flatMap fun x =>
    if x.id == id && !x.done then (if x.n ≤ 1 then [{ x with done := true }] else [⟨id, 1, true⟩, { x with n := x.n - 1 }]) else [x]
  if tail then
    let r := publishFront h.tp (split h.tails)
    { h with tp := r.1, tails := r.2 }
  else
    let r := publishFront h.hp (split h.heads)
    { h with hp := r.1, heads := r.2 }

/-- The slabs and counter publications that a ring mapped into two units sends over the circuits (R292). -/
def circuitMsgs (s : State) (uid : Uid) (u : UnitSt) (old new : Handle) : List CircuitMsg :=
  match new.peer with
  | none => []
  | some (v, hv) =>
    let dst := match s.unit? v with
      | some w => coreOf w.ident.cluster
      | none => 0
    let mk (pos : BitVec 32) (slab : List Byte) (head : Bool) : CircuitMsg :=
      { src := coreOf u.ident.cluster, dst := dst, uid := v, h := hv, pos := pos, slab := slab, publish := true, head := head }
    let slabs := (List.range (new.tp - old.tp).toNat).map fun i =>
      let p := old.tp + BitVec.ofNat 32 i
      mk (p + 1) (levelRead s u.ident.cluster new.level (new.slabAt p) new.slabSize) false
    let heads := if new.hp = old.hp then [] else [mk new.hp [] true]
    if uid = v then [] else slabs ++ heads

/-- A unit's handle after a change of its ring, with what the circuits carry. -/
def putHandle (s : State) (uid : Uid) (x : Handle) : State :=
  match s.unit? uid with
  | none => s
  | some u =>
    match u.handle? x.h with
    | none => s
    | some old =>
      let msgs := circuitMsgs s uid u old x
      let s := s.setUnit uid (u.setHandle x)
      if msgs.isEmpty then s else s.modDie (dieOf u.ident.cluster) fun d => { d with circuits := d.circuits ++ msgs }

/-- A claim of a unit's ring finishes (R201). -/
def publishClaim (s : State) (uid : Uid) (h : BitVec 8) (tail : Bool) (id : Nat) : State :=
  match (s.unit? uid).bind fun u => u.handle? h with
  | some x => putHandle s uid (finishClaim x tail id)
  | none => s

/-! ### The sides of a copy command (R198, R212 to R222) -/

namespace CopyCmd
def sk (c : CopyCmd) : BitVec 2 := c.hdr.extractLsb' 14 2
def dk (c : CopyCmd) : BitVec 2 := c.hdr.extractLsb' 12 2
def tok (c : CopyCmd) : BitVec 4 := c.hdr.extractLsb' 18 4
def bar (c : CopyCmd) : Bool := c.hdr.getLsbD 17
def folBit (c : CopyCmd) : Bool := c.hdr.getLsbD 16
def reg (c : CopyCmd) (i : Fin 16) : Word := c.cg.get i
def len (c : CopyCmd) : Nat := ((c.reg 2).extractLsb' 0 32).toNat
def nrows (c : CopyCmd) : Nat := ((c.reg 2).extractLsb' 32 24).toNat
def swin (c : CopyCmd) : BitVec 2 := (c.reg 3).extractLsb' 0 2
def dwin (c : CopyCmd) : BitVec 2 := (c.reg 3).extractLsb' 2 2
def bwin (c : CopyCmd) : BitVec 2 := (c.reg 3).extractLsb' 4 2
def sstride (c : CopyCmd) : Int := ((c.reg 4).extractLsb' 0 32).toInt
def dstride (c : CopyCmd) : Int := ((c.reg 4).extractLsb' 32 32).toInt
def sfmt (c : CopyCmd) : Nat := ((c.reg 5).extractLsb' 0 4).toNat
def dfmt (c : CopyCmd) : Nat := ((c.reg 5).extractLsb' 4 4).toNat
def rm (c : CopyCmd) : Rm := let r := (c.reg 5).extractLsb' 8 3; if r = 5 then c.rmode else r
def sr (c : CopyCmd) : Bool := (c.reg 5).getLsbD 11
def had (c : CopyCmd) : Nat := ((c.reg 5).extractLsb' 12 2).toNat
def fold (c : CopyCmd) : Bool := (c.reg 5).getLsbD 14
def z512 (c : CopyCmd) : Bool := (c.reg 5).getLsbD 15
def prune (c : CopyCmd) : Bool := (c.reg 5).getLsbD 16
def zsl (c : CopyCmd) : Nat := ((c.reg 5).extractLsb' 17 2).toNat
def limit (c : CopyCmd) : Nat := ((c.reg 5).extractLsb' 32 32).toNat
def ih (c : CopyCmd) : BitVec 8 := c.hdr.extractLsb' 0 8
def srcH (c : CopyCmd) : BitVec 8 := (c.reg 0).extractLsb' 0 8
def dstH (c : CopyCmd) : BitVec 8 := (c.reg 1).extractLsb' 0 8
def srcOff (c : CopyCmd) : Nat := ((c.reg 0).extractLsb' 8 32).toNat
def dstOff (c : CopyCmd) : Nat := ((c.reg 1).extractLsb' 8 32).toNat
/-- Element bytes of an XPOSE (R208). -/
def xeb (c : CopyCmd) : Nat := 2 ^ (c.hdr.extractLsb' 0 2).toNat
/-- Elements of a conversion zone (R218). -/
def zone (c : CopyCmd) : Nat := match c.zsl with | 1 => 128 | 2 => 64 | _ => if c.z512 then 512 else 256
end CopyCmd

/-- Formats of R205: code bits, magnitude bits and whether signed; floating-point codes 0 to 2 have none. -/
def codeBits (f : Nat) : Nat := match f with | 3 => 4 | 4 => 6 | 5 => 8 | 6 => 4 | 7 => 6 | _ => 8
def codeSigned (f : Nat) : Bool := decide (6 ≤ f)
def magBits (f : Nat) : Nat := if codeSigned f then codeBits f - 1 else codeBits f

/-- Bytes of n packed elements of a format (R166). -/
def packedLen (f n : Nat) : Nat :=
  match f with
  | 0 => 4 * n
  | 1 | 2 => 2 * n
  | _ => if codeBits f = 4 then (n + 1) / 2 else n

/-- Number of zones in a row of a conversion (R218). -/
def CopyCmd.zones (c : CopyCmd) : Nat := (c.len + c.zone - 1) / c.zone

/-- Bytes of a source row. -/
def CopyCmd.srcRow (c : CopyCmd) : Nat :=
  match c.op.toNat with
  | 0x06 => packedLen c.sfmt c.len
  | 0x07 => packedLen c.sfmt c.len + c.zones
  | 0x08 => packedLen c.sfmt c.len
  | 0x09 => packedLen c.sfmt (c.len / 2) + c.len / 8
  | _ => c.len

/-- Bytes of a destination row, and the number of destination rows. -/
def CopyCmd.dstRow (c : CopyCmd) : Nat × Nat :=
  match c.op.toNat with
  | 0x06 => (packedLen c.dfmt c.len + c.zones, c.nrows)
  | 0x07 => (packedLen c.dfmt c.len, c.nrows)
  | 0x08 => (packedLen c.dfmt (c.len / 2) + c.len / 8, c.nrows)
  | 0x09 => (packedLen c.dfmt c.len, c.nrows)
  | 0x0F => (c.nrows * c.xeb, c.len / c.xeb)
  | _ => (c.len, c.nrows)

/-- The byte ranges of n rows of a length at a stride. -/
def rowRanges (off : Nat) (stride : Int) (n row : Nat) : List (Int × Int) :=
  (List.range n).map fun i => let a : Int := off + stride * i
    (a, a + row)

/-- The byte ranges of n slabs of a ring from a counter position. -/
def slabRanges (h : Handle) (pos : BitVec 32) (n : Nat) : List (Int × Int) :=
  (List.range n).map fun i => let a : Int := h.slabSize * ((pos + BitVec.ofNat 32 i).toNat % h.slabs)
    (a, a + h.slabSize)

/-- Bytes of a side of a command, and the slabs of a ring that they fill. -/
def CopyCmd.srcBytes (c : CopyCmd) : Nat := c.nrows * c.srcRow
def CopyCmd.dstBytes (c : CopyCmd) : Nat := c.dstRow.2 * c.dstRow.1

/-- The byte ranges of a handle that one side of a command reaches: the slabs it claims of a ring, else its rows. -/
def CopyCmd.srcRanges (c : CopyCmd) (h : Handle) : List (Int × Int) :=
  if h.ring then slabRanges h c.srcPos (c.srcBytes / h.slabSize) else rowRanges c.srcOff c.sstride c.nrows c.srcRow
def CopyCmd.dstRanges (c : CopyCmd) (h : Handle) : List (Int × Int) :=
  if h.ring then slabRanges h c.dstPos (c.dstBytes / h.slabSize) else rowRanges c.dstOff c.dstride c.dstRow.2 c.dstRow.1

/-- The handle of the ring that stream register n is bound to. -/
def UnitSt.boundHandle (u : UnitSt) (n : BitVec 3) : Option (BitVec 8) := (u.umem.q.get n.toFin).map fun b => b.h

/-- The ring of a `q` side.  Which bits name the stream register the spec does not give: the low three of cg0 or cg1, as QBND's
header has them, and the rest of that register ignored, are the model's choice (log 82). -/
def CopyCmd.qHandle (c : CopyCmd) (u : UnitSt) (dst : Bool) : Option (BitVec 8) :=
  u.boundHandle ((c.reg (if dst then 1 else 0)).extractLsb' 0 3)

/-- The handles a command names (R197). -/
def CopyCmd.names (c : CopyCmd) (u : UnitSt) : List (BitVec 8) :=
  (if c.sk = 1 then [c.srcH] else []) ++ (if c.dk = 1 then [c.dstH] else [])
    ++ (if c.op = 3 || c.op = 4 then [c.ih] else [])
    ++ (if c.sk = 2 then (c.qHandle u false).toList else []) ++ (if c.dk = 2 then (c.qHandle u true).toList else [])

/-- The byte ranges of on-chip levels that a command touches; a streaming kind reaches every slab of its ring. -/
def CopyCmd.touched (c : CopyCmd) (u : UnitSt) : List (BitVec 2 × Int × Int) :=
  let side (h : BitVec 8) (f : Handle → List (Int × Int)) : List (BitVec 2 × Int × Int) :=
    match u.handle? h with
    | some x => (f x).map fun r => (x.level, x.base + r.1, x.base + r.2)
    | none => []
  let whole (o : Option (BitVec 8)) : List (BitVec 2 × Int × Int) := match o with
    | some h => side h fun x => [(0, x.size)]
    | none => []
  (if c.sk = 1 then side c.srcH c.srcRanges else []) ++ (if c.dk = 1 then side c.dstH c.dstRanges else [])
    ++ (if c.sk = 2 then whole (c.qHandle u false) else []) ++ (if c.dk = 2 then whole (c.qHandle u true) else [])
    ++ (if c.op = 3 || c.op = 4 then side c.ih fun _ => [(0, 4 * c.nrows)] else [])

/-! ### Releasing banks (R200) -/

/-- Whether a command of a unit that has not completed touches a bank: copies by their ranges, array commands by their
rings. -/
def bankBusy (s : State) (c : ClusterNo) (b : Bank) : Bool :=
  match s.unit? b.owner with
  | none => false
  | some u =>
    let k := s.cluster c
    let hits (l : BitVec 2) (lo hi : Int) : Bool :=
      l == b.space && decide (lo < 65536 * ((b.bank : Int) + 1)) && decide (65536 * (b.bank : Int) < hi)
    let ring (h : BitVec 8) : Bool := match u.handle? h with
      | some x => hits x.level x.base (x.base + x.size)
      | none => false
    let arr (q : ArrayCmd) : Bool := q.uid == b.owner &&
      (match q.op.toNat with
        | 0 => ring ((q.ag.get 2).extractLsb' 0 8)
        | 1 => ring ((q.ag.get 0).extractLsb' 0 8) || (q.hdr.getLsbD 0 && ring ((q.ag.get 1).extractLsb' 0 8))
        | 4 => ring ((q.ag.get 1).extractLsb' 0 8)
        | _ => false)
    k.eng.toList.any (fun e => e.queue.any fun q => q.uid == some b.owner && (q.touched u).any fun t => hits t.1 t.2.1 t.2.2)
      || k.array.queue.any arr
      || (match k.array.stream with | some x => (k.array.state == .run) && arr x.cmd | none => false)
      || (match k.array.exec with | some x => arr x.cmd | none => false)
      || k.array.conv.any fun x => arr x.cmd

/-- Banks with release pending that no command touches any more become free (R200). -/
def releaseBanks (s : State) (c : ClusterNo) : State :=
  if (s.cluster c).banks.any fun b => b.pending then
    let kept := (s.cluster c).banks.filter fun b => !(b.pending && !bankBusy s c b)
    s.modCluster c fun k => { k with banks := kept }
  else s

/-- A faulted command's tile destination, until it completes or is abandoned (R224): whether bytes lo to hi of a level meet one. -/
def shadowed (s : State) (c : ClusterNo) (l : BitVec 2) (lo hi : Int) : Bool :=
  (s.cluster c).eng.toList.any fun e => e.queue.any fun q =>
    q.shadow && q.dk == 1 &&
      match q.uid.bind s.unit? with
      | some u => match u.handle? q.dstH with
        | some h => !h.ring && h.level == l && (q.dstRanges h).any fun r => decide ((h.base : Int) + r.1 < hi) && decide (lo < h.base + r.2)
        | none => false
      | none => false

/-- The wait for it, an engine wait (R425): it is the unit's own engine that ends it. -/
def shadowWait (s : State) (c : ClusterNo) (l : BitVec 2) (a n : Nat) : SlotResult :=
  if shadowed s c l a (a + n) then .wait .bank else .done

/-- The wait of a command that reaches a whole handle. -/
def handleWait (s : State) (u : UnitSt) (h : BitVec 8) : SlotResult :=
  match u.handle? h with
  | some x => shadowWait s u.ident.cluster x.level x.base x.size
  | none => .done

/-! ### VLDT and VSTT (R157) -/

/-- TILE_FAULT's address: the handle and the block index. -/
def tileAddr (h : BitVec 8) (b : Nat) : Va := (0#40) ++ BitVec.ofNat 32 b ++ h

/-- The block index of a VLDT or VSTT. -/
def blockOf (x : Word) (k : BitVec 8) : Nat := (x.extractLsb' 8 32).toNat + k.toNat

/-- R157's conditions, and the wait for a faulted command's range. -/
def tileCheck (s : State) (u : UnitSt) (x : Word) (k : BitVec 8) : SlotResult :=
  let b := blockOf x k
  match u.handle? (x.extractLsb' 0 8) with
  | none => .fault cTile (tileAddr (x.extractLsb' 0 8) b)
  | some h =>
    if h.level = 0 && decide (64 * b + 64 ≤ h.size) && ownsRange (s.cluster u.ident.cluster) s.issue.me 0 (h.base + 64 * b) 64 then
      shadowWait s u.ident.cluster 0 (h.base + 64 * b) 64
    else .fault cTile (tileAddr (x.extractLsb' 0 8) b)

/-- Byte address in tile SRAM of a VLDT or VSTT that passes its checks. -/
def tileBlock (u : UnitSt) (x : Word) (k : BitVec 8) : Nat :=
  match u.handle? (x.extractLsb' 0 8) with
  | some h => h.base + 64 * blockOf x k
  | none => 0

/-- VLDT: 64 bytes of tile SRAM to a vector, latency 4. -/
def execVldt (d : BitVec 8) (a : BitVec 6) (k : BitVec 8) (s : State) : Host.Outcome State Fault Refusal :=
  let dd := opD s.issue d
  runSlot s
    (fun s u => firstFail [vectorChecks s u (lendRm s.issue.lend != 0 || lendFmt s.issue.lend != 0 || lendTb s.issue.lend
        || lendTa s.issue.lend) [.scalar a] [(dd.dest, 4)], tileCheck s u (u.reg a) k])
    (fun s u => schedule (noteVector s [] 0 0 4) s.issue.me u dd.dest
      (vecOfBytes (levelRead s u.ident.cluster 0 (tileBlock u (u.reg a) k) 64)) 4)

/-- VSTT: a vector to 64 bytes of tile SRAM. -/
def execVstt (v : BitVec 8) (a : BitVec 6) (k : BitVec 8) (s : State) : Host.Outcome State Fault Refusal :=
  let o := opD s.issue v
  runSlot s
    (fun s u => firstFail [vectorChecks s u (lendRm s.issue.lend != 0 || lendFmt s.issue.lend != 0 || lendTb s.issue.lend
        || lendTa s.issue.lend) [o.dest, .scalar a] [], tileCheck s u (u.reg a) k])
    (fun s u => levelWrite (noteVector s [o] 0 0 0) u.ident.cluster 0 (tileBlock u (u.reg a) k) (bytesOfVec (u.vec o)))

/-! ### VQRD, VPOP, VPUSH (R160, R161) -/

/-- RING_FAULT's and TILE_FAULT's address for a handle. -/
def handleAddr (h : BitVec 8) : Va := h.setWidth 80

/-- A slab claimed at the head in the issue cycle, read and published in claim order. -/
def popSlab (s : State) (u : UnitSt) (x : Handle) : BitVec 512 × State :=
  let v := vecOfBytes (levelRead s u.ident.cluster x.level (x.slabAt x.hc) 64)
  let (id, s) := s.newReq
  (v, putHandle s s.issue.me (finishClaim (x.claimHead id 1) false id))

/-- VQRD's conditions (R160). -/
def vqrdCheck (s : State) (u : UnitSt) (n : BitVec 3) : SlotResult :=
  match u.umem.q.get n.toFin with
  | none => .fault cRing 0
  | some b =>
    match u.handle? b.h with
    | none => .fault cRing (handleAddr b.h)
    | some x =>
      if b.out then .fault cRing (handleAddr b.h)
      else if !ownsRange (s.cluster u.ident.cluster) s.issue.me x.level (x.slabAt x.hc) 64 then .fault cTile (handleAddr b.h)
      else firstFail [shadowWait s u.ident.cluster x.level (x.slabAt x.hc) 64, if x.canHead 1 then .done else .wait .ring]

/-- VQRD: the next arrived element of a stream register, latency 2. -/
def execVqrd (d : BitVec 8) (n : BitVec 3) (s : State) : Host.Outcome State Fault Refusal :=
  let dd := opD s.issue d
  runSlot s
    (fun s u => firstFail [vectorChecks s u (lendRm s.issue.lend != 0 || lendFmt s.issue.lend != 0 || lendTb s.issue.lend
        || lendTa s.issue.lend) [] [(dd.dest, 2)], vqrdCheck s u n])
    (fun s u =>
      match (u.umem.q.get n.toFin).bind fun b => u.handle? b.h with
      | none => s
      | some x =>
        let r := popSlab (noteVector s [] 0 0 2) u x
        match r.2.unit? s.issue.me with
        | some u => schedule r.2 s.issue.me u dd.dest r.1 2
        | none => r.2)

/-- The ring conditions of VPOP and VPUSH (R161). -/
def slabCheck (s : State) (u : UnitSt) (h : BitVec 8) (tail : Bool) : SlotResult :=
  match u.handle? h with
  | none => .fault cRing (handleAddr h)
  | some x =>
    let a := x.slabAt (if tail then x.tc else x.hc)
    if x.ring && x.level == 0 && !ownsRange (s.cluster u.ident.cluster) s.issue.me 0 a x.slabSize then .fault cTile (handleAddr h)
    else if !x.ring || x.level != 0 || x.slabSize != 64 then .fault cRing (handleAddr h)
    else firstFail [shadowWait s u.ident.cluster 0 a 64, if (if tail then x.canTail 1 else x.canHead 1) then .done else .wait .ring]

/-- VPOP: one slab from a ring's head, latency 2. -/
def execVpop (d : BitVec 8) (h : BitVec 6) (s : State) : Host.Outcome State Fault Refusal :=
  let dd := opD s.issue d
  runSlot s
    (fun s u => firstFail [vectorChecks s u (lendRm s.issue.lend != 0 || lendFmt s.issue.lend != 0 || lendTb s.issue.lend
        || lendTa s.issue.lend) [.scalar h] [(dd.dest, 2)], slabCheck s u ((u.reg h).extractLsb' 0 8) false])
    (fun s u =>
      match u.handle? ((u.reg h).extractLsb' 0 8) with
      | none => s
      | some x =>
        let r := popSlab (noteVector s [] 0 0 2) u x
        match r.2.unit? s.issue.me with
        | some u => schedule r.2 s.issue.me u dd.dest r.1 2
        | none => r.2)

/-- VPUSH: one slab to a ring's tail. -/
def execVpush (v : BitVec 8) (h : BitVec 6) (s : State) : Host.Outcome State Fault Refusal :=
  let o := opD s.issue v
  runSlot s
    (fun s u => firstFail [vectorChecks s u (lendRm s.issue.lend != 0 || lendFmt s.issue.lend != 0 || lendTb s.issue.lend
        || lendTa s.issue.lend) [o.dest, .scalar h] [], slabCheck s u ((u.reg h).extractLsb' 0 8) true])
    (fun s u =>
      match u.handle? ((u.reg h).extractLsb' 0 8) with
      | none => s
      | some x =>
        let s := levelWrite (noteVector s [o] 0 0 0) u.ident.cluster 0 (x.slabAt x.tc) (bytesOfVec (u.vec o))
        let (id, s) := s.newReq
        putHandle s s.issue.me (finishClaim (x.claimTail id 1) true id))

end Sys2Proof.Machine
end

