-- ==== Sys2Proof/Machine/CopyConv.lean ====
section
/-! DEFINITION.
The conversions of the copy engines as functions from source rows to destination rows: QCVT (R218, R219), DQCVT
(R220), NMPK and NMUP (R221 to R223) and XPOSE (R214), over the packed codes of R166. -/

namespace Sys2Proof.Machine

/-! ### Packed elements (R166) -/

/-- `n` little-endian elements of `k` bytes. -/
def readLeElems (k : Nat) : Nat → List Byte → List Nat
  | 0, _ => []
  | n + 1, bs => leNat (bs.take k) :: readLeElems k n (bs.drop k)

/-- The codes or floating-point patterns of `n` packed elements of a format (R205's numbers). -/
def readElems (f n : Nat) (bs : List Byte) : List Nat :=
  match f with
  | 0 => readLeElems 4 n bs
  | 1 | 2 => readLeElems 2 n bs
  | _ =>
    if codeBits f = 4 then (bs.flatMap fun b => [b.toNat % 16, b.toNat / 16]).take n
    else (bs.take n).map fun b => b.toNat % 2 ^ codeBits f

/-- Pairs of 4-bit codes as bytes, the lower element in the low half. -/
def packNibbles : List Nat → List Byte
  | a :: b :: rest => BitVec.ofNat 8 (a % 16 + 16 * (b % 16)) :: packNibbles rest
  | [a] => [BitVec.ofNat 8 (a % 16)]
  | [] => []

/-- Elements packed in a format. -/
def packElems (f : Nat) (xs : List Nat) : List Byte :=
  match f with
  | 0 => xs.flatMap fun x => leBytes x 4
  | 1 | 2 => xs.flatMap fun x => leBytes x 2
  | _ => if codeBits f = 4 then packNibbles xs else xs.map (BitVec.ofNat 8)

/-- The floating-point format of codes 0 to 2 (R205). -/
def floatFmt (f : Nat) : Fmt := match f with | 0 => f32 | 1 => f16 | _ => bf16

/-- Sign and magnitude of a code (R165). -/
def codeSign (f code : Nat) : Bool := codeSigned f && code / 2 ^ magBits f % 2 == 1
def codeMag (f code : Nat) : Nat := code % 2 ^ magBits f

/-- A list cut into pieces of z elements. -/
def pieces {α : Type} (z : Nat) : Nat → List α → List (List α)
  | 0, _ => []
  | n + 1, xs => if xs.isEmpty then [] else xs.take z :: pieces z n (xs.drop z)

/-! ### QCVT (R218, R219) -/

/-- Row i of the Hadamard matrix applied to a block (R195). -/
def hadamardRow (i : Nat) (xs : List Int) : Int :=
  (xs.zipIdx.map fun x => if ((List.range 6).filter fun b => (i &&& x.2).testBit b).length % 2 = 1 then -x.1 else x.1).sum

/-- H_n on every block of n elements. -/
def hadamard (n : Nat) (xs : List Int) : List Int :=
  (pieces n xs.length xs).flatMap fun b => (List.range b.length).map fun i => hadamardRow i b

/-- The 16-bit shares of a command's private generator, four to a word (R219). -/
def randShares (r0 r1 : Word) : Nat → List Nat
  | 0 => []
  | n + 1 =>
    let x := rbStep r0 r1
    (List.range 4).map (fun i => (x.1.extractLsb' (16 * i) 16).toNat) ++ randShares x.2.1 x.2.2 n

/-- The common exponent of finite numbers. -/
def commonExp (xs : List Fp) : Int :=
  xs.foldl (fun e x => match x with | .fin _ _ e' => min e e' | _ => e) 0

/-- The rounded magnitude of q = n/d: RM, or the stochastic rule with a share (R218, R219). -/
def roundMag (rm : Rm) (sr : Bool) (share n d : Nat) : Nat :=
  if sr then
    let t := n / d
    let g := 2 ^ 16 * (n % d) / d
    if g + share < 2 ^ 16 then t else t + 1
  else (roundNat rm false n d).1

/-- One zone quantised: its codes and its E8 (R218). -/
def quantZone (had : Nat) (fold : Bool) (dfmt : Nat) (rm : Rm) (sr : Bool) (shares : List Nat) (xs : List Fp) :
    List Nat × Nat :=
  if xs.any fun x => match x with | .fin _ _ _ => false | _ => true then (xs.map fun _ => 0, 0xFF)
  else
    let e0 := commonExp xs
    let v0 := xs.map fun x => match x with | .fin n m e => scaledInt n m e e0 | _ => 0
    let n := if had = 1 then 16 else 32
    let v := if had = 0 then v0 else hadamard n v0
    -- values are v · 2^ex
    let ex : Int := if had != 0 && fold then e0 - Nat.log2 n else e0
    let m := v.foldl (fun acc x => max acc x.natAbs) 0
    let e : Int := if m = 0 then 127 else max 0 (min ((Nat.log2 m : Int) + ex + 128) 254)
    let b := magBits dfmt
    let codes := v.zipIdx.map fun x =>
      let sc := ex + b - e + 127
      let q := if 0 ≤ sc then (x.1.natAbs * 2 ^ sc.toNat, 1) else (x.1.natAbs, 2 ^ (-sc).toNat)
      let r := min (roundMag rm sr (shares.getD x.2 0) q.1 q.2) (2 ^ b - 1)
      if x.1 < 0 then (if codeSigned dfmt then (if r = 0 then 0 else r + 2 ^ b) else 0) else r
    (codes, e.toNat)

/-- One QCVT row: the packed codes, then one E8 for each zone. -/
def quantRow (c : CopyCmd) (shares : List Nat) (row : List Byte) : List Byte :=
  let xs := (readElems c.sfmt c.len row).map (unpack (floatFmt c.sfmt))
  let zs := (pieces c.zone c.zones xs).zipIdx.map fun z =>
    quantZone c.had c.fold c.dfmt c.rm c.sr (shares.drop (c.zone * z.2)) z.1
  packElems c.dfmt (zs.flatMap (·.1)) ++ zs.map fun z => BitVec.ofNat 8 z.2

/-! ### DQCVT (R220) -/

/-- One element: the code's value times its scale, rounded once. -/
def dequant (c : CopyCmd) (e8 code : Nat) : Nat × BitVec 5 :=
  let f := floatFmt c.dfmt
  if e8 = 0xFF then (f.qnan, fNV)
  else
    let m : Int := codeMag c.sfmt code
    roundInt f c.rm false (if codeSign c.sfmt code then -m else m) ((e8 : Int) - 127 - magBits c.sfmt)

/-- One DQCVT row and its flags. -/
def dequantRow (c : CopyCmd) (row : List Byte) : List Byte × BitVec 5 :=
  let scales := row.drop (packedLen c.sfmt c.len)
  let rs := (readElems c.sfmt c.len row).zipIdx.map fun x => dequant c (scales.getD (x.2 / c.zone) 0).toNat x.1
  (packElems c.dfmt (rs.map (·.1)), rs.foldl (fun a r => a ||| r.2) 0)

/-! ### NMPK and NMUP (R221, R222) -/

/-- The codes and positions that NMPK keeps of a group of four; `none` is the NM_INDEX condition. -/
def nmKeep (f : Nat) (prune : Bool) (g : List Nat) : Option ((Nat × Nat) × (Nat × Nat)) :=
  let nz := (g.zipIdx).filter fun x => codeMag f x.1 != 0
  match nz with
  | [] => some ((0, 0), (0, 1))
  | [a] => some (a, (0, if a.2 = 0 then 1 else 0))
  | [a, b] => some (a, b)
  | _ =>
    if prune then
      -- the largest, the lower position first on equal magnitude, then the largest of the rest
      let best (l : List (Nat × Nat)) : Nat × Nat :=
        l.foldl (fun m x => if decide (codeMag f m.1 < codeMag f x.1) then x else m) (l.headD (0, 0))
      let a := best nz
      let b := best (nz.filter fun x => x.2 != a.2)
      some (if a.2 < b.2 then (a, b) else (b, a))
    else none

/-- A row's result or the first failing group. -/
def nmPackRow (c : CopyCmd) (row : List Byte) : Except Nat (List Byte) :=
  let groups := pieces 4 (c.len / 4) (readElems c.sfmt c.len row)
  let kept := groups.map (nmKeep c.sfmt c.prune)
  match kept.findIdx? (·.isNone) with
  | some g => .error g
  | none =>
    let ks := kept.map fun k => k.getD ((0, 0), (0, 0))
    .ok (packElems c.dfmt (ks.flatMap fun k => [k.1.1, k.2.1]) ++ packNibbles (ks.map fun k => k.1.2 + 4 * k.2.2))

/-- NMUP of a row: each kept code at its position, zeros elsewhere. -/
def nmUnpackRow (c : CopyCmd) (row : List Byte) : Except Nat (List Byte) :=
  let codes := pieces 2 (c.len / 4) (readElems c.sfmt (c.len / 2) row)
  let idx := readElems 3 (c.len / 4) (row.drop (packedLen c.sfmt (c.len / 2)))
  let groups := codes.zip idx
  match groups.findIdx? fun g => g.2 % 4 == g.2 / 4 with
  | some g => .error g
  | none =>
    .ok (packElems c.dfmt (groups.flatMap fun g =>
      (List.range 4).map fun p => if p = g.2 % 4 then g.1.getD 0 0 else if p = g.2 / 4 then g.1.getD 1 0 else 0))

/-- The rows in order, or the row and group of the first failing group in row-major order (R223). -/
def nmRows (f : List Byte → Except Nat (List Byte)) : Nat → List (List Byte) → Except (Nat × Nat) (List (List Byte))
  | _, [] => .ok []
  | i, r :: rest =>
    match f r with
    | .error g => .error (i, g)
    | .ok x =>
      match nmRows f (i + 1) rest with
      | .error e => .error e
      | .ok xs => .ok (x :: xs)

/-! ### A command's rows -/

/-- Row j of a transpose: source column j of elements of EB bytes (R214). -/
def transposeRow (eb : Nat) (rows : List (List Byte)) (j : Nat) : List Byte :=
  rows.flatMap fun r => (r.drop (eb * j)).take eb

/-- The destination rows and flags of a command from its source rows, or NM_INDEX at a row and group. -/
def copyRows (c : CopyCmd) (rows : List (List Byte)) : Except (Nat × Nat) (List (List Byte) × BitVec 5) :=
  match c.op.toNat with
  | 0x06 =>
    let shares := if c.sr then randShares c.rb0 c.rb1 ((c.len * c.nrows + 3) / 4) else []
    .ok (rows.zipIdx.map fun r => quantRow c (shares.drop (c.len * r.2)) r.1, 0)
  | 0x07 =>
    let rs := rows.map (dequantRow c)
    .ok (rs.map (·.1), rs.foldl (fun a r => a ||| r.2) 0)
  | 0x08 => (nmRows (nmPackRow c) 0 rows).map fun r => (r, 0)
  | 0x09 => (nmRows (nmUnpackRow c) 0 rows).map fun r => (r, 0)
  | 0x0F => .ok ((List.range (c.len / c.xeb)).map (transposeRow c.xeb rows), 0)
  | _ => .ok (rows, 0)

end Sys2Proof.Machine
end

