-- ==== Sys2Proof/Machine/StreamArith.lean ====
section
/-! DEFINITION.
Stream arithmetic (06): the generators and seeds (R168 to R170), the comparator and the product gates (R171, R173), the
counts of a prefix of indices (R175, R177, R181), N_z and A_z (R184), the estimates and bounds of a checkpoint set
(R183, R185), the confidence test (R186, R187), and the conversion at the column edge (R188 to R191, R238). -/

namespace Sys2Proof.Machine

/-! ### Generators (R168, R170) -/

/-- VDC: t with its 16 bits reversed. -/
def genVdc (t : Nat) : BitVec 16 := (BitVec.ofNat 16 t).reverse

/-- SOB2: bit 16 − i is the parity of the bits j − 1 of t, j ≥ i, for which C(j−1, i−1) is odd. -/
def genSob (t : Nat) : BitVec 16 :=
  BitVec.ofNat 16 (((List.range 16).map fun i0 =>
    let par := ((List.range 16).filter fun j0 => decide (i0 ≤ j0) && (j0 &&& i0) == i0 && t.testBit j0).length % 2
    par * 2 ^ (15 - i0)).sum)

/-- RAMP4 and HOLD4. -/
def genRamp (t : Nat) : BitVec 16 := BitVec.ofNat 16 (t % 4 * 2 ^ 14)
def genHold (t : Nat) : BitVec 16 := BitVec.ofNat 16 (t / 4 % 4 * 2 ^ 14)

/-- The row and the column generator of a pair code (R244). -/
def rowGen (pair : BitVec 2) (t : Nat) : BitVec 16 :=
  match pair with | 0 => genVdc t | 1 => genSob t | _ => genRamp t
def colGen (pair : BitVec 2) (t : Nat) : BitVec 16 :=
  match pair with | 0 => genSob t | 1 => genVdc t | _ => genHold t

/-- The seed of a row or column number (R170); none in SLICE mode. -/
def seedOf (mode : BitVec 2) (spread : Bool) (seed : BitVec 16) (n : Nat) : BitVec 16 :=
  if mode = 3 then 0 else if spread then seed ^^^ BitVec.ofNat 16 (n * 0x9E37) else seed

/-- The stream bit of a magnitude of b bits against a seeded generator value (R171). -/
def streamBit (m b : Nat) (g : BitVec 16) : Bool := decide (g.toNat < m * 2 ^ (16 - b))

/-! ### Operands (R173, R176) -/

/-- Physical rows or columns that a logical operand occupies in SLICE mode. -/
def groupOf (f : Nat) : Nat := if codeBits f = 4 then 2 else 4

/-- How a stream reads an operand: its magnitude, its bits and its sign. -/
structure OperandBits where
  m : Nat
  b : Nat
  neg : Bool
  deriving DecidableEq, Repr

/-- A code of a format read in UNI, SM or BIP. -/
def readOperand (mode : BitVec 2) (f code : Nat) : OperandBits :=
  if mode = 2 then
    -- n-bit two's complement x; u = x + 2^(n−1)
    let n := codeBits f
    ⟨(code + 2 ^ (n - 1)) % 2 ^ n, n, false⟩
  else ⟨codeMag f code, magBits f, codeSign f code⟩

/-- Slice i of a magnitude. -/
def sliceOf (m i : Nat) : Nat := m / 4 ^ i % 4

/-- A cell's contents: weight slice cells hold the slice in [1:0] and the sign in [7]. -/
def sliceCell (f code i : Nat) : BitVec 8 :=
  BitVec.ofNat 8 (sliceOf (codeMag f code) i + if codeSign f code then 128 else 0)

/-- The signed product bit of two operands at one index. -/
def productBit (mode : BitVec 2) (x y : OperandBits) (gx gy : BitVec 16) : Int :=
  let a := streamBit x.m x.b gx
  let w := streamBit y.m y.b gy
  let p := if mode = 2 then a == w else a && w
  if p then (if (mode == 1 || mode == 3) && (x.neg != y.neg) then -1 else 1) else 0

/-! ### The array's cells -/

/-- A cell's code and index; a cell not listed is clear (R233). -/
def ArraySt.cell (a : ArraySt) (row col : Nat) : BitVec 8 × BitVec 2 :=
  match a.cells.find? fun x => x.row == row && x.col == col with
  | some x => (x.code, x.index)
  | none => (0, BitVec.ofNat 2 (row % 2))

/-- The load form of a column. -/
def ArraySt.form (a : ArraySt) (col : Nat) : LoadForm :=
  match a.forms.find? fun x => x.1 == col with
  | some x => x.2
  | none => .dense

/-- The weight scale of a zone of a column. -/
def ArraySt.scale (a : ArraySt) (z col : Nat) : BitVec 8 :=
  match a.scales.find? fun x => x.1 == z && x.2.1 == col with
  | some x => x.2.2
  | none => 0x7F

/-! ### What a stream reads (R172, R193, R194) -/

/-! Fields of a command's staging registers (R234). -/
namespace ArrayCmd
def ih (c : ArrayCmd) : BitVec 8 := (c.ag.get 0).extractLsb' 0 8
def v (c : ArrayCmd) : Nat := ((c.ag.get 0).extractLsb' 8 16).toNat
def oh (c : ArrayCmd) : BitVec 8 := (c.ag.get 1).extractLsb' 0 8
def wh (c : ArrayCmd) : BitVec 8 := (c.ag.get 2).extractLsb' 0 8
def rlo (c : ArrayCmd) : Nat := ((c.ag.get 3).extractLsb' 0 11).toNat
def rhi (c : ArrayCmd) : Nat := ((c.ag.get 3).extractLsb' 12 11).toNat
def clo (c : ArrayCmd) : Nat := ((c.ag.get 4).extractLsb' 0 11).toNat
def chi (c : ArrayCmd) : Nat := ((c.ag.get 4).extractLsb' 12 11).toNat
def afmt (c : ArrayCmd) : Nat := ((c.ag.get 5).extractLsb' 0 4).toNat
def wfmt (c : ArrayCmd) : Nat := ((c.ag.get 5).extractLsb' 4 4).toNat
def okind (c : ArrayCmd) : Nat := ((c.ag.get 5).extractLsb' 8 4).toNat
def orm (c : ArrayCmd) : BitVec 3 := (c.ag.get 5).extractLsb' 12 3
def obnd (c : ArrayCmd) : Bool := (c.ag.get 5).getLsbD 15
def esrc (c : ArrayCmd) : BitVec 2 := (c.ag.get 7).extractLsb' 0 2
def econst (c : ArrayCmd) : BitVec 8 := (c.ag.get 7).extractLsb' 8 8
/-- The rounding mode of a conversion, DYN taken from RMODE (R254). -/
def outRm (c : ArrayCmd) : Rm := if c.orm = 5 then c.rmode else c.orm
def emit (c : ArrayCmd) : Bool := c.op == 1 && c.hdr.getLsbD 0
def chin (c : ArrayCmd) : Bool := c.op == 1 && c.hdr.getLsbD 1
def chout (c : ArrayCmd) : Bool := c.op == 1 && c.hdr.getLsbD 2
/-- Rows of a group, 1 outside SLICE mode. -/
def ga (c : ArrayCmd) : Nat := if c.mode = 3 then groupOf c.afmt else 1
def gw (c : ArrayCmd) : Nat := if c.mode = 3 then groupOf c.wfmt else 1
/-- Codes of an input slab (R236) and of a weight slab (R237). -/
def inCodes (c : ArrayCmd) : Nat := if c.nm then 2 * (c.rhi + 1 - c.rlo) else (c.rhi + 1 - c.rlo) / c.ga
/-- Logical columns of the range. -/
def logicalCols (c : ArrayCmd) : Nat := (c.chi + 1 - c.clo) / c.gw
end ArrayCmd

/-- Zones that a row range overlaps. -/
def zonesOf (rlo rhi : Nat) : List Nat := (List.range 8).filter fun z => decide (256 * z ≤ rhi) && decide (rlo ≤ 256 * z + 255)

/-- The activation code of a logical row of a 2:4 stream: of one outside its slab, which a cell can select where RLO is odd or RHI even
and for which the spec gives no value, a free one (R193, R236). -/
def nmCode (c : ArrayCmd) (codes : List (BitVec 8)) (l : Nat) : Nat :=
  if decide (l < 2 * c.rlo) || decide (2 * c.rhi + 1 < l) then (Config.outerCode l).toNat else (codes.getD (l - 2 * c.rlo) 0).toNat

/-- The activation that a physical row's cell selects: its operand and the row number of its seed. -/
def rowOperand (c : ArrayCmd) (codes : List (BitVec 8)) (r : Nat) (p : BitVec 2) : OperandBits × Nat :=
  if c.mode = 3 then
    let code := (codes.getD (r / c.ga - c.rlo / c.ga) 0).toNat
    (⟨sliceOf (codeMag c.afmt code) (r % c.ga), 2, codeSign c.afmt code⟩, r)
  else if c.nm then
    let l := 4 * (r / 2) + p.toNat
    (readOperand c.mode c.afmt (nmCode c codes l), l)
  else (readOperand c.mode c.afmt (codes.getD (r - c.rlo) 0).toNat, r)

/-- The weight of a cell. -/
def cellOperand (c : ArrayCmd) (code : BitVec 8) : OperandBits :=
  if c.mode = 3 then ⟨code.toNat % 4, 2, code.getLsbD 7⟩ else readOperand c.mode c.wfmt code.toNat

/-- The signed count of one cell over indices 0 to L − 1. -/
def cellCount (c : ArrayCmd) (x : OperandBits) (rowNo : Nat) (y : OperandBits) (col L : Nat) : Int :=
  let sr := seedOf c.mode c.spread c.rowseed rowNo
  let sc := seedOf c.mode c.spread c.colseed col
  (List.range L).foldl (fun acc t => acc + productBit c.mode x y (rowGen c.pair t ^^^ sr) (colGen c.pair t ^^^ sc)) 0

/-- Rows of a zone inside a range. -/
def zoneRows (rlo rhi z : Nat) : List Nat := (List.range 256).filterMap fun i =>
  let r := 256 * z + i
  if rlo ≤ r ∧ r ≤ rhi then some r else none

/-- A column's counts at index L: C_z for eight zones, or in SLICE mode C_z(i, j) at 4·z + i (R175, R177). -/
def colCounts (a : ArraySt) (c : ArrayCmd) (codes : List (BitVec 8)) (col L : Nat) : List Int :=
  (List.range (if c.mode = 3 then 32 else 8)).map fun k =>
    let z := if c.mode = 3 then k / 4 else k
    let rows := (zoneRows c.rlo c.rhi z).filter fun r => c.mode != 3 || r % c.ga == k % 4
    (rows.map fun r =>
      let w := a.cell r col
      let x := rowOperand c codes r w.2
      cellCount c x.1 x.2 (cellOperand c w.1) col L).sum

/-- N_z of a column (R184). -/
def colRowsN (a : ArraySt) (c : ArrayCmd) (codes : List (BitVec 8)) (col : Nat) : List Nat :=
  (List.range 8).map fun z =>
    ((zoneRows c.rlo c.rhi z).filter fun r => (rowOperand c codes r (a.cell r col).2).1.m != 0).length

/-- A_z (R184). -/
def rowsA (rlo rhi : Nat) : List Nat := (List.range 8).map fun z => (zoneRows rlo rhi z).length

/-- The checkpoint set of a stream's vector at checkpoint j, or without one (R181, R182). -/
def makeSet (a : ArraySt) (c : ArrayCmd) (codes ea : List (BitVec 8)) (j : Option Nat) : CheckSet :=
  { kc := j, mode := c.mode, nm := c.nm, afmt := BitVec.ofNat 4 c.afmt, wfmt := BitVec.ofNat 4 c.wfmt, pair := c.pair,
    rlo := c.rlo, rhi := c.rhi, clo := c.clo, chi := c.chi, ea := ea, rowsA := rowsA c.rlo c.rhi
    cols := (List.range (c.chi + 1 - c.clo)).map fun d =>
      let col := c.clo + d
      { col := col, counts := match j with | some j => colCounts a c codes col (2 ^ j) | none => [],
        rowsN := colRowsN a c codes col, ew := (List.range 8).map fun z => a.scale z col } }

/-- Adding an upstream part to a set (R251).  The scales x_z stay the downstream array's own, also for a zone that only the upstream
rows reach: the spec sends none along the chain (log 82). -/
def addChain (x : CheckSet) (m : ChainMsg) : CheckSet :=
  { x with rowsA := x.rowsA.zipIdx.map fun r => r.1 + m.rowsA.getD r.2 0
           cols := x.cols.map fun c =>
             match m.cols.find? fun k => k.col == c.col with
             | some k => { c with counts := c.counts.zipIdx.map fun r => r.1 + k.counts.getD r.2 0
                                  rowsN := c.rowsN.zipIdx.map fun r => r.1 + k.rowsN.getD r.2 0 }
             | none => c }

/-! ### Estimates and bounds (R180, R183, R185) -/

/-- E(k) = ⌈k/3 + 19/9⌉. -/
def boundE (k : Nat) : Nat := (3 * k + 19 + 8) / 9

namespace CheckSet
def gw (x : CheckSet) : Nat := if x.mode = 3 then groupOf x.wfmt.toNat else 1
/-- Logical columns of the set: first and number. -/
def firstCol (x : CheckSet) : Nat := x.clo / x.gw
def nCols (x : CheckSet) : Nat := (x.chi + 1 - x.clo) / x.gw
def kcNat (x : CheckSet) : Nat := x.kc.getD 0
/-- The record of a physical column. -/
def col? (x : CheckSet) (c : Nat) : Option SetCol := x.cols.find? fun k => k.col == c

/-- The integer of a zone's term (R183, R188): C_z, 2·C_z − L·A_z in BIP, or P_z in SLICE. -/
def zoneInt (x : CheckSet) (q z : Nat) : Int :=
  match x.mode.toNat with
  | 3 =>
    ((List.range x.gw).map fun j =>
      match x.col? (x.gw * q + j) with
      | some k => ((List.range 4).map fun i => (4 ^ (i + j) : Int) * k.counts.getD (4 * z + i) 0).sum
      | none => 0).sum
  | 2 => match x.col? q with
    | some k => 2 * k.counts.getD z 0 - 2 ^ x.kcNat * x.rowsA.getD z 0
    | none => 0
  | _ => match x.col? q with
    | some k => k.counts.getD z 0
    | none => 0

/-- The scale codes of a zone, on the activation and on the weight side. -/
def scales (x : CheckSet) (q z : Nat) : Nat × Nat :=
  ((x.ea.getD z 0x7F).toNat, match x.col? (x.gw * q) with | some k => (k.ew.getD z 0x7F).toNat | none => 0x7F)

/-- x_z (R167). -/
def exponent (x : CheckSet) (q z : Nat) : Int := ((x.scales q z).1 : Int) + (x.scales q z).2 - 254

/-- The contributing zones (R184). -/
def zones (x : CheckSet) : List Nat := (List.range 8).filter fun z => x.rowsA.getD z 0 != 0

/-- log2 of what divides the integer of a term. -/
def shift (x : CheckSet) : Nat := if x.mode = 3 then magBits x.afmt.toNat + magBits x.wfmt.toNat else x.kcNat

/-- A contributing zone with an E8 NaN (R187). -/
def isNan (x : CheckSet) (q : Nat) : Bool := x.zones.any fun z => (x.scales q z).1 == 0xFF || (x.scales q z).2 == 0xFF

/-- T and B as integers at the exponent −300 (R185). -/
def estimate (x : CheckSet) (q : Nat) : Int :=
  (x.zones.map fun z => x.zoneInt q z * 2 ^ (x.exponent q z - x.shift + 300).toNat).sum
def bound (x : CheckSet) (q : Nat) : Nat :=
  if x.mode = 3 then 0
  else
    (x.zones.map fun z =>
      let n := if x.mode = 2 then 2 * x.rowsA.getD z 0 else ((x.col? q).map fun k => k.rowsN.getD z 0).getD 0
      n * boundE x.kcNat * 2 ^ (x.exponent q z - x.kcNat + 300).toNat).sum

/-- The signs of the infinities that scale overflow gives (R188, step 3): a positive one, a negative one. -/
def overflows (x : CheckSet) (q : Nat) : Bool × Bool :=
  let zs := x.zones.filter fun z => decide (127 < x.exponent q z)
  (zs.any fun z => decide (0 < x.zoneInt q z), zs.any fun z => decide (x.zoneInt q z < 0))

/-- The bound is +Inf: steps 1 and 3 of R188. -/
def boundInf (x : CheckSet) (q : Nat) : Bool := x.isNan q || (x.overflows q).1 || (x.overflows q).2
end CheckSet

/-! ### The confidence test (R186, R253) -/

/-- The column of largest T, the lowest-numbered on equal T. -/
def bestCol (x : CheckSet) (cols : List Nat) : Option Nat :=
  cols.foldl (fun b q => match b with
    | none => some q
    | some p => if x.estimate p < x.estimate q then some q else some p) none

/-- The test over logical columns lo to hi with factor F: pass and the top column. -/
def confidence (x : CheckSet) (lo hi F : Nat) : Bool × Option Nat :=
  if x.kc.isNone then (false, none)
  else
    let cols := ((List.range (hi + 1 - lo)).map (· + lo)).filter fun q => !x.isNan q
    match bestCol x cols with
    | none => (false, none)
    | some top =>
      match bestCol x (cols.filter fun q => q != top) with
      | none => (false, some top)
      | some sec =>
        (decide ((F : Int) * (x.bound top + x.bound sec : Nat) < 256 * (x.estimate top - x.estimate sec)), some top)

/-! ### Conversion (R188 to R191, R238) -/

/-- FP32 or BF16 of a column (R188, R189). -/
def convFloat (f : Fmt) (rm : Rm) (x : CheckSet) (q : Nat) : Nat × BitVec 5 :=
  if x.isNan q then (f.qnan, fNV)
  else
    match x.overflows q with
    | (true, true) => (f.qnan, fNV ||| fOF ||| fNX)
    | (true, false) => (f.infBits, fOF ||| fNX)
    | (false, true) => (withSign f true f.infBits, fOF ||| fNX)
    | (false, false) => roundInt f rm false (x.estimate q) (-300)

/-- SM8 with a fresh E8 (R190): code, E8, flags. -/
def convSm8 (rm : Rm) (x : CheckSet) (q : Nat) : Nat × Nat × BitVec 5 :=
  let sat (neg : Bool) (fl : BitVec 5) : Nat × Nat × BitVec 5 := ((if neg then 0xFF else 0x7F), 254, fl ||| fOF ||| fNX)
  if x.isNan q then (0, 0xFF, fNV)
  else
    match x.overflows q with
    | (true, true) => (0, 0xFF, fNV ||| fOF ||| fNX)
    | (true, false) => sat false 0
    | (false, true) => sat true 0
    | (false, false) =>
      let t := x.estimate q
      let neg := decide (t < 0)
      let n := t.natAbs
      if n = 0 then (0, 0, 0)
      else
        let lg : Int := (Nat.log2 n : Int) - 300
        if 254 < lg + 128 then sat neg 0
        else
          let e : Int := max (lg + 128) 0
          let sc : Int := 134 - e - 300
          let y := if 0 ≤ sc then (n * 2 ^ sc.toNat, 1) else (n, 2 ^ (-sc).toNat)
          let r := roundNat rm neg y.1 y.2
          let uf : BitVec 5 := if e = 0 && r.2 && decide (lg < -128) then fUF else 0
          let (m, e) : Nat × Int := if r.1 = 128 then (64, e + 1) else (r.1, e)
          if 254 < e then sat neg uf
          else ((if m = 0 then 0 else m + (if neg then 128 else 0)), e.toNat, uf ||| (if r.2 then fNX else 0))

/-- The 32-bit word of an integer. -/
def int32 (v : Int) : Nat := (BitVec.ofInt 32 v).toNat

/-- A column's summed value (R191). -/
def summed (x : CheckSet) (q : Nat) : Int := (x.zones.map fun z => x.zoneInt q z).sum

/-- The condition under which the summed kind faults: unequal x_z across a column's contributing zones. -/
def summedUnequal (x : CheckSet) : Bool :=
  (List.range x.nCols).any fun i =>
    let q := x.firstCol + i
    (x.zones.map (x.exponent q)).dedup.length > 1

/-- Bytes of a value of an output kind (R238). -/
def outBytes (okind : Nat) (bip : Bool) : Nat :=
  match okind with
  | 0 => if bip then 64 else 32
  | 1 | 2 => 4
  | _ => 2

/-- A column's value in an output kind, and its flags. -/
def convColumn (okind : Nat) (rm : Rm) (x : CheckSet) (q : Nat) : List Byte × BitVec 5 :=
  match okind with
  | 0 =>
    let zs := (List.range 8).flatMap fun z =>
      let v : Int := if x.mode = 2 then ((x.col? q).map fun k => k.counts.getD z 0).getD 0 else x.zoneInt q z
      leBytes (int32 v) 4
    (zs ++ (if x.mode = 2 then (List.range 8).flatMap fun z => leBytes (x.rowsA.getD z 0) 4 else []), 0)
  | 1 => (leBytes (int32 (summed x q)) 4, 0)
  | 2 => let r := convFloat f32 rm x q
         (leBytes r.1 4, r.2)
  | 3 => let r := convFloat bf16 rm x q
         (leBytes r.1 2, r.2)
  | _ => let r := convSm8 rm x q
         ([BitVec.ofNat 8 r.1, BitVec.ofNat 8 r.2.1], r.2.2)

/-- An invalid value (R238). -/
def invalidValue (okind : Nat) (bip : Bool) : List Byte :=
  match okind with
  | 0 => (List.range (if bip then 16 else 8)).flatMap fun _ => leBytes 0x80000000 4
  | 1 => leBytes 0x80000000 4
  | 2 => leBytes f32.qnan 4
  | 3 => leBytes bf16.qnan 2
  | _ => [0x00, 0xFF]

/-- A column's bound in a format, rounded toward +∞ (R185, R238). -/
def boundBits (f : Fmt) (x : CheckSet) (q : Nat) : Nat :=
  if x.boundInf q then f.infBits else (roundInt f 3 false (x.bound q : Nat) (-300)).1

/-- A slab padded with zeros to a length. -/
def padTo (n : Nat) (bs : List Byte) : List Byte := bs ++ List.replicate (n - bs.length) 0

/-- The slab of a conversion: values, then from the next multiple of four the bounds (R238). -/
def slabOf (values : List (List Byte)) (bounds : List Nat) (obnd : Bool) : List Byte :=
  let v := values.flatten
  if obnd then padTo ((v.length + 3) / 4 * 4) v ++ bounds.flatMap fun b => leBytes b 4 else v

/-- The conversion of a set, or the invalid slab over n columns: bytes and flags. -/
def convertSet (okind : Nat) (rm : Rm) (obnd : Bool) (x : Option CheckSet) (n : Nat) (bip : Bool) : List Byte × BitVec 5 :=
  match x with
  | some x =>
    if x.kc.isSome then
      let cols := (List.range x.nCols).map (· + x.firstCol)
      let vs := cols.map (convColumn okind rm x)
      (slabOf (vs.map (·.1)) (cols.map (boundBits f32 x)) obnd, vs.foldl (fun a v => a ||| v.2) 0)
    else
      (slabOf (List.replicate x.nCols (invalidValue okind (x.mode == 2))) (List.replicate x.nCols f32.infBits) obnd, 0)
  | none => (slabOf (List.replicate n (invalidValue okind bip)) (List.replicate n f32.infBits) obnd, 0)

/-- Bytes of an output slab over n logical columns (R238). -/
def outSlabLen (okind n : Nat) (bip obnd : Bool) : Nat :=
  let v := n * outBytes okind bip
  if obnd then (v + 3) / 4 * 4 + 4 * n else v

end Sys2Proof.Machine
end

