-- ==== Sys2Proof/Machine/Array.lean ====
section
/-! DEFINITION.
The stream array as an engine (R230 to R262): ownership, the issue checks of A slots and of follow-ons, the array queue
and its starts, the array's events, and the meanings of A.CMD and A.CFG. -/

namespace Sys2Proof.Machine

/-! ### Ownership and work (R232, R241) -/

/-- A fault found after issue, which names its slot (R34). -/
def afterFault (code : BitVec 8) (addr : Va) (src : FaultSource) (slot : BitVec 2) (bundle : BitVec 64) : FaultRec :=
  { code := code, addr := addr, mask := 1#4 <<< slot.toNat, after := true, source := src, slot := slot, bundle := bundle }

def arrayOf (s : State) (c : ClusterNo) : ArraySt := (s.cluster c).array

/-- The units that have work in the array (R232). -/
def arrayWork (a : ArraySt) : List Uid :=
  (if a.state == .run then a.streamUid.toList else []) ++ a.queue.map ArrayCmd.uid
    ++ (match a.exec with | some x => [x.cmd.uid] | none => []) ++ a.conv.map fun x => x.cmd.uid

/-- The array's running unit's segment runs (R241); the hold line is the caller's. -/
def arrayRuns (s : State) (c : ClusterNo) : Bool :=
  match (s.cluster c).running with
  | some u => (arrayWork (arrayOf s c)).contains u
  | none => false

/-- The array is idle (R257). -/
def arrayIdle (a : ArraySt) : Bool := a.queue.isEmpty && a.state != .run && a.exec.isNone && a.conv.isEmpty

/-- The launch of a unit owns the array, and no other unit of it has work there (R232). -/
def ownsArray (s : State) (uid : Uid) (u : UnitSt) : Bool :=
  let a := arrayOf s u.ident.cluster
  a.owner.isSome && a.owner == u.ident.launch && (arrayWork a).all fun x => x == uid

/-- ARRAY_FAULT of the bundle when a condition holds. -/
def arrayIf (u : UnitSt) (c : Bool) : SlotResult := failIf c cArray u.bundleVa

/-- A command as it would be accepted, with the staging registers and modes read at issue (R47, R246). -/
def mkArrayCmd (s : State) (uid : Uid) (u : UnitSt) (op : BitVec 4) (hdr : BitVec 24) (bundle : BitVec 64)
    (slot : BitVec 2) (fol : Option (BitVec 1)) : ArrayCmd :=
  let a := arrayOf s u.ident.cluster
  { op := op, hdr := hdr, uid := uid, tag := u.eng.arrayTag, bundle := bundle, slot := slot
    ag := Vector.ofFn fun i => a.ag.get ⟨i.val, by omega⟩, slen := a.slen, mode := a.mode, spread := a.spread, nm := a.nm,
    pair := a.pair, rowseed := a.rowseed, colseed := a.colseed, rmode := u.csr.rmode, inPos := 0, outPos := 0, claim := 0,
    fol := fol, claimed := false, stoppedByKill := false, after := 0 }

/-! ### Issue checks (R235, R238, R239, R247, R249, R252 to R255) -/

/-- A ring handle that a command names: allocated, in banks that the unit owns. -/
def ringTile (s : State) (uid : Uid) (u : UnitSt) (h : BitVec 8) : SlotResult :=
  match u.handle? h with
  | none => .fault cTile (handleAddr h)
  | some x => failIf (!ownsRange (s.cluster u.ident.cluster) uid x.level x.base x.size) cTile (handleAddr h)

/-- A ring handle that a command names: a ring at level TILE or CHIP of the slab size and number it needs. -/
def ringKind (u : UnitSt) (h : BitVec 8) (need slabs : Nat) : SlotResult :=
  match u.handle? h with
  | none => .done
  | some x => failIf (!x.ring || x.level == 2 || decide (x.slabSize < need) || decide (x.slabs < slabs)) cRing (handleAddr h)

/-- Formats of a mode's activations and weights (R174). -/
def formatOk (mode : BitVec 2) (f : Nat) : Bool :=
  match mode with
  | 0 => decide (3 ≤ f ∧ f ≤ 5)
  | 1 => decide (3 ≤ f ∧ f ≤ 8)
  | _ => decide (6 ≤ f ∧ f ≤ 8)

namespace ArrayCmd
/-- Ranges that end below their start, or in SLICE mode are not whole groups (R235). -/
def rangeBad (c : ArrayCmd) : Bool :=
  decide (c.rhi < c.rlo) || decide (c.chi < c.clo) ||
    (c.mode == 3 && (c.rlo % groupOf c.afmt != 0 || (c.rhi + 1) % groupOf c.afmt != 0 || c.clo % groupOf c.wfmt != 0
      || (c.chi + 1) % groupOf c.wfmt != 0))
/-- Bytes of a weight slab (R237).  Where the spec does not give its layout the model chooses (log 82): K of a 2:4 row a multiple
of 4 and not of 8 has its index bytes rounded up; SLICE with NM24 is laid out as 2:4; a format code that names no stream format
has the packed length of `packedLen`, so that a slab too small for it is a RING_FAULT ahead of the ARRAY_FAULT. -/
def weightSlab (c : ArrayCmd) : Nat :=
  let zs := (zonesOf c.rlo c.rhi).length
  let rows := c.rhi + 1 - c.rlo
  if c.hdr.getLsbD 0 then zs
  else if c.nm then packedLen c.wfmt rows + (2 * rows + 7) / 8 + zs
  else packedLen c.wfmt (rows / c.ga) + zs
/-- Bytes of an input slab (R236), by `packedLen` also for a format code that names no stream format (log 82). -/
def inputSlab (c : ArrayCmd) : Nat :=
  packedLen c.afmt c.inCodes + (if c.esrc = 0 then (zonesOf c.rlo c.rhi).length else 0)
/-- Reserved output fields (R234). -/
def outBad (c : ArrayCmd) : Bool := decide (4 < c.okind) || decide (5 < c.orm.toNat)
/-- The load form of a stream's mode. -/
def loadForm (c : ArrayCmd) : LoadForm := if c.mode = 3 then .slice else if c.nm then .nm else .dense
/-- The combination of mode, formats, pair, length and 2:4 mode is outside R169, R174 and R178. -/
def modeBad (c : ArrayCmd) : Bool :=
  !formatOk c.mode c.afmt || !formatOk c.mode c.wfmt
    || (if c.mode = 3 then c.pair != 2 || c.slen != 4 || c.nm else decide (2 ≤ c.pair.toNat))
/-- Slabs claimed at the weight or input head. -/
def headSlabs (c : ArrayCmd) : Nat := match c.op.toNat with | 0 => c.logicalCols | 1 => c.v | _ => 0
/-- Slabs claimed at the output tail. -/
def tailSlabs (c : ArrayCmd) : Nat := match c.op.toNat with | 1 => if c.emit then c.v else 0 | 4 => 1 | _ => 0
/-- The handle of the head claim. -/
def headRing (c : ArrayCmd) : BitVec 8 := if c.op = 0 then c.wh else c.ih
end ArrayCmd

/-- The slab an AOUT needs: over the set's logical columns, or those of ag4 when there is no set (R238). -/
def aoutColumns (a : ArraySt) (c : ArrayCmd) : Nat := match a.set with | some x => x.nCols | none => c.logicalCols

/-- The unit's current stream (R252): the latest ASTRM queued, else the one the array holds for it. -/
def currentStream (a : ArraySt) (uid : Uid) : Option ArrayCmd :=
  match (a.queue.reverse.find? fun q => q.op == 1 && q.uid == uid) with
  | some q => some q
  | none => (a.stream.map Stream.cmd).bind fun c =>
      if c.uid == uid && (a.state == .run || a.state == .held || (a.state == .stopped && a.cause == 1)) then some c else none

/-- The target that an AEXT by n would give the current stream, the AEXTs queued behind its ASTRM counted (R252). -/
def extendedTarget (a : ArraySt) (uid : Uid) (n : Nat) : Nat :=
  let behind := a.queue.reverse.takeWhile fun q => !(q.op == 1 && q.uid == uid)
  let waiting := ((behind.filter fun q => q.op == 2).map fun q => (q.hdr.extractLsb' 0 4).toNat).sum
  let base := match (a.queue.reverse.find? fun q => q.op == 1 && q.uid == uid) with
    | some q => q.slen.toNat
    | none => match a.stream with
      | some x => if a.state == .stopped then ((a.set.bind fun t => t.kc).getD x.kt) else x.kt
      | none => 0
  base + waiting + n

/-- CHIN and CHOUT on a chiplet that has no such neighbour, or whose neighbour belongs to another launch (R251). -/
def chainBad (s : State) (cl : ClusterNo) (c : ArrayCmd) : Bool :=
  let own := (arrayOf s cl).owner
  let nb (k : Nat) : Bool := if h : k < 128 then (arrayOf s ⟨k, h⟩).owner != own else true
  (c.chout && (coreOf cl % 8 == 7 || nb (cl.val + 1))) || (c.chin && (coreOf cl % 8 == 0 || nb (cl.val - 1)))

/-- The rings that a command names, with the slab size and number that each needs (R236 to R239, R249). -/
def ArrayCmd.rings (c : ArrayCmd) (a : ArraySt) : List (BitVec 8 × Nat × Nat) :=
  let bip := c.mode == 2
  match c.op.toNat with
  | 0 => [(c.wh, c.weightSlab, 0)]
  | 1 => (c.ih, c.inputSlab, c.v) :: (if c.emit then [(c.oh, outSlabLen c.okind c.logicalCols bip c.obnd, c.v)] else [])
  | 4 => [(c.oh, outSlabLen c.okind (aoutColumns a c) (match a.set with | some x => x.mode == 2 | none => bip) c.obnd, 0)]
  | _ => []

/-- The conditions of a command's own ARRAY_FAULT (R247, R249, R252, R254, R255). -/
def ArrayCmd.bad (c : ArrayCmd) (s : State) (u : UnitSt) : Bool :=
  let a := arrayOf s u.ident.cluster
  match c.op.toNat with
  | 0 => !formatOk c.mode c.wfmt || c.rangeBad || (c.mode == 3 && !formatOk 3 c.afmt)
      || (c.nm && (c.rlo % 2 != 0 || (c.rhi + 1) % 2 != 0))
  | 1 => c.v == 0 || (decide (1 < c.v) && !c.emit) || (c.emit && c.outBad) || c.modeBad || c.rangeBad
      || c.esrc == 3 || (c.esrc == 0 && c.rlo % 256 != 0) || u.curt.inentry || chainBad s u.ident.cluster c
      || (List.range (c.chi + 1 - c.clo)).any fun d => a.form (c.clo + d) != c.loadForm
  | 2 => match currentStream a c.uid with
      | none => true
      | some x => decide (1 < x.v) || x.emit || x.mode == 3 || u.curt.inentry
          || decide (16 < extendedTarget a c.uid (c.hdr.extractLsb' 0 4).toNat)
  | 4 => c.outBad || (a.set.isNone && decide (c.chi < c.clo))
  | _ => c.hdr.getLsbD 1 && (decide (c.rhi < c.rlo) || decide (c.chi < c.clo))

/-- The checks of an array command that enters the queue, made at issue or at a follow-on's delivery, in R36's order. -/
def arrayCheck (s : State) (u : UnitSt) (c : ArrayCmd) : SlotResult :=
  let rings := c.rings (arrayOf s u.ident.cluster)
  firstFail (rings.map (fun r => ringTile s c.uid u r.1) ++ rings.map (fun r => ringKind u r.1 r.2.1 r.2.2)
    ++ [arrayIf u (!ownsArray s c.uid u || c.bad s u)])

/-- The claims of a command can be made (R201). -/
def canClaim (u : UnitSt) (c : ArrayCmd) : Bool :=
  let ok (h : BitVec 8) (f : Handle → Bool) : Bool := match u.handle? h with | some x => f x | none => true
  (c.headSlabs == 0 || ok c.headRing fun x => x.canHead c.headSlabs)
    && (c.tailSlabs == 0 || ok c.oh fun x => x.canTail c.tailSlabs)

/-- The command with its claims made, under the claim number given. -/
def makeClaims (s : State) (c : ArrayCmd) (id : Nat) : State × ArrayCmd :=
  match s.unit? c.uid with
  | none => (s, c)
  | some u =>
    let inPos := match u.handle? c.headRing with | some x => x.hc | none => 0
    let outPos := match u.handle? c.oh with | some x => x.tc | none => 0
    let u := if c.headSlabs = 0 then u else match u.handle? c.headRing with
      | some x => u.setHandle (x.claimHead id c.headSlabs)
      | none => u
    let u := if c.tailSlabs = 0 then u else match u.handle? c.oh with
      | some x => u.setHandle (x.claimTail id c.tailSlabs)
      | none => u
    (s.setUnit c.uid u, { c with inPos := inPos, outPos := outPos, claim := id, claimed := true })

/-! ### Publishing and abandoning claims -/

/-- Undefined bytes (R225, R250): each a free value. -/
def freeBytes (s : State) (n : Nat) : List Byte × State :=
  ((List.range n).map fun i => Config.freeByte (s.fresh + i), { s with fresh := s.fresh + n })

/-- Slabs of a ring, from a position, whose contents become undefined. -/
def undefSlabs (s : State) (uid : Uid) (h : BitVec 8) (pos : BitVec 32) (n : Nat) : State :=
  match (s.unit? uid).bind fun u => (u.handle? h).map fun x => (u, x) with
  | none => s
  | some (u, x) =>
    (List.range n).foldl (fun s i =>
      let (bs, s) := freeBytes s x.slabSize
      levelWrite s u.ident.cluster x.level (x.slabAt (pos + BitVec.ofNat 32 i)) bs) s

/-- The claims of an array command published without data (R248, R250, R255): `done` output slabs of it stand. -/
def dropClaims (s : State) (c : ArrayCmd) (done : Nat) : State :=
  if c.claimed then
    let s := if c.headSlabs = 0 then s else publishClaim s c.uid c.headRing false c.claim
    if c.tailSlabs = 0 then s
    else publishClaim (undefSlabs s c.uid c.oh (c.outPos + BitVec.ofNat 32 done) (c.tailSlabs - done)) c.uid c.oh true c.claim
  else s

/-- One slab of a command's claim published (R249, R250). -/
def publishOne (s : State) (c : ArrayCmd) (h : BitVec 8) (tail : Bool) : State :=
  match (s.unit? c.uid).bind fun u => u.handle? h with
  | some x => putHandle s c.uid (finishSlab x tail c.claim)
  | none => s

/-! ### Ending a stream (R231, R250, R251, R259) -/

/-- A message to the array of the next chiplet (R251). -/
def chainSend (s : State) (c : ClusterNo) (m : ChainMsg) : State :=
  if h : c.val + 1 < 128 then activate (s.modArray ⟨c.val + 1, h⟩ fun a => { a with chainNet := a.chainNet ++ [m] }) ⟨c.val + 1, h⟩
  else s

/-- A chain message of a stream. -/
def chainMsg (x : Stream) (fin : Bool) (j : Nat) (t : Option CheckSet) : ChainMsg :=
  { sender := x.cmd.claim, fin := fin, vector := x.vector, j := j, kt := x.kt, mode := x.cmd.mode, nm := x.cmd.nm,
    afmt := BitVec.ofNat 4 x.cmd.afmt, wfmt := BitVec.ofNat 4 x.cmd.wfmt, pair := x.cmd.pair, clo := x.cmd.clo,
    chi := x.cmd.chi, cols := (t.map CheckSet.cols).getD [], rowsA := (t.map CheckSet.rowsA).getD [] }

/-- A running stream ends as STOPPED or FAULTED: the claims of vectors that never completed are published without data,
emissions under way are dropped, and a chain end goes downstream. -/
def endStream (s : State) (c : ClusterNo) (st : StreamState) (cause : BitVec 3) : State :=
  let a := arrayOf s c
  match a.stream with
  | none => s
  | some x =>
    let s := s.modArray c fun a => { a with state := st, cause := cause, conv := a.conv.filter fun k => k.vector.isNone }
    let s := if x.cmd.emit then dropClaims s x.cmd a.vdone.toNat else s
    if x.cmd.chout then chainSend s c (chainMsg x true 0 none) else s

/-- Every command still in the queue is discarded (R255, R261, R262). -/
def discardQueue (s : State) (c : ClusterNo) : State :=
  let q := (arrayOf s c).queue
  q.foldl (fun s x => dropClaims s x 0) (s.modArray c fun a => { a with queue := [] })

/-- The curtain's effect on the array of a unit (R261). -/
def curtainArray (s : State) (uid : Uid) (c : ClusterNo) : State :=
  let a := arrayOf s c
  let s := if a.state == .run && a.streamUid == some uid then endStream s c .stopped 2 else s
  if a.queue.any fun q => q.uid == uid then discardQueue s c else s

/-- The slabs that a unit's failed weight loads still claim are published without data (R248). -/
def payOwed (s : State) (uid : Uid) (c : ClusterNo) : State :=
  let mine := (arrayOf s c).owed.filter fun x => x.uid == uid
  if mine.isEmpty then s
  else mine.foldl (fun s x => dropClaims s x 0) (s.modArray c fun a => { a with owed := a.owed.filter fun x => x.uid != uid })

/-- ACC and LAT (R255). -/
def clearAcc (a : ArraySt) : ArraySt :=
  { a with set := none, stream := none, check := ⟨false, false, 0, 0, false⟩, vdone := 0, state := .idle, cause := 0, kt := 0 }
def clearLat (a : ArraySt) : ArraySt := { a with latches := [], latchEa := [] }

/-- A kill's effect on the array (R262). -/
def killArray (s : State) (uid : Uid) (c : ClusterNo) : State :=
  let a := arrayOf s c
  let s := payOwed s uid c
  if (arrayWork a).contains uid || (currentStream a uid).isSome then
    let s := if a.state == .run then endStream s c .stopped 4 else s
    let s := (arrayOf s c).conv.foldl (fun s k => dropClaims s k.cmd 0) (discardQueue s c)
    let s := match (arrayOf s c).exec with
      | some e => dropClaims s e.cmd 0
      | none => s
    s.modArray c fun a => { clearLat (clearAcc a) with conv := [], exec := none, streamUid := none, folt := false }
  else s

/-! ### Accepting a command (R240, R246) -/

/-- HELD and STOPPED become IDLE, the set kept (R245). -/
def endExtend (a : ArraySt) : ArraySt := if a.state == .held || a.state == .stopped then { a with state := .idle, cause := 0 } else a

/-- ACLR's KILL at issue (R255). -/
def aclrKill (s : State) (c : ClusterNo) : State × Bool :=
  let run := (arrayOf s c).state == .run
  (discardQueue (if run then endStream s c .stopped 4 else s) c, run)

/-- A command enters the queue: KILL acts, claims are made when they can be, SLEN follows an AEXT, and the tag counts. -/
def acceptArray (s : State) (cl : ClusterNo) (c : ArrayCmd) : State :=
  let (s, c) := if c.op = 5 && c.hdr.getLsbD 3 then
      let r := aclrKill s cl
      (r.1, { c with stoppedByKill := r.2, after := (arrayOf s cl).acyc + 1 })
    else (s, c)
  let (id, s) := s.newReq
  let ok := match s.unit? c.uid with | some u => canClaim u c | none => false
  let kt := extendedTarget (arrayOf s cl) c.uid (c.hdr.extractLsb' 0 4).toNat
  let (s, c) := if ok then makeClaims s c id else (s, c)
  let s := s.modArray cl fun a => { a with queue := a.queue ++ [c], slen := if c.op = 2 then BitVec.ofNat 5 kt else a.slen,
                                           folt := a.folt || c.fol.isSome }
  s.modUnit c.uid fun u => u.modEng fun e => { e with arrayTag := e.arrayTag + 1 }

/-! ### Slots of A.CMD (R246 to R257) -/

/-- The waits of a command that enters the queue (R239, R240, R242). -/
def arrayWaits (s : State) (u : UnitSt) (c : ArrayCmd) : SlotResult :=
  let a := arrayOf s u.ident.cluster
  if a.clearing != 0 || decide (4 ≤ a.queue.length) then .wait .array
  else firstFail ((c.rings a).map (fun r => handleWait s u r.1) ++ [if canClaim u c then .done else .wait .ring])

/-- AWLD, ASTRM, AEXT, AOUT and ACLR. -/
def arraySlot (op : BitVec 4) (hdr : BitVec 24) (s : State) : Host.Outcome State Fault Refusal :=
  let cmd (s : State) (u : UnitSt) : ArrayCmd := mkArrayCmd s s.issue.me u op hdr u.flow.pc.addr s.issue.slot none
  runSlot s (fun s u => firstFail [noLend s u, arrayCheck s u (cmd s u), arrayWaits s u (cmd s u)])
    (fun s u => acceptArray s u.ident.cluster (cmd s u))

/-- AWLD (R247). -/
def execAwld (x : BitVec 1) (s : State) : Host.Outcome State Fault Refusal := arraySlot 0 (x.setWidth 24) s

/-- ASTRM (R249). -/
def execAstrm (o i e : BitVec 1) (s : State) : Host.Outcome State Fault Refusal := arraySlot 1 ((o ++ i ++ e).setWidth 24) s

/-- AEXT (R252). -/
def execAext (n : BitVec 4) (s : State) : Host.Outcome State Fault Refusal := arraySlot 2 (n.setWidth 24) s

/-- AOUT (R254). -/
def execAout (w : BitVec 1) (s : State) : Host.Outcome State Fault Refusal := arraySlot 4 (w.setWidth 24) s

/-- ACLR (R255). -/
def execAclr (k l g a : BitVec 1) (s : State) : Host.Outcome State Fault Refusal :=
  arraySlot 5 ((k ++ l ++ g ++ a).setWidth 24) s

/-- The array is timed by a follow-on: until it is next idle (R258). -/
def timedByFollow (a : ArraySt) : Bool := a.folt && !arrayIdle a

/-- The checks and waits that the commands acting at issue share: ownership, the clearing wait, the wait of R258. -/
def arrayNow (s : State) (u : UnitSt) (timed : Bool) : SlotResult :=
  let a := arrayOf s u.ident.cluster
  if a.clearing != 0 || (timed && timedByFollow a) then .wait .array else .done

/-- ACHK's range faults (R187, R253). -/
def achkBad (a : ArraySt) : Bool :=
  let lo := ((a.ag.get 6).extractLsb' 16 11).toNat
  let hi := ((a.ag.get 6).extractLsb' 28 11).toNat
  decide (hi < lo + 1) ||
    match a.set with
    | some x => x.kc.isSome && (decide (lo < x.firstCol) || decide (x.firstCol + x.nCols ≤ hi))
    | none => false

/-- ACHK's test (R186): pass and top. -/
def achkTest (a : ArraySt) : Bool × Option Nat :=
  match a.set with
  | some x => confidence x ((a.ag.get 6).extractLsb' 16 11).toNat ((a.ag.get 6).extractLsb' 28 11).toNat
      ((a.ag.get 6).extractLsb' 0 16).toNat
  | none => (false, none)

/-- ACHK (R253): the predicate, the check result, and with STOP the end of a running stream; in the curtain entry STOP
stops nothing (R261). -/
def execAchk (x : BitVec 1) (p : BitVec 3) (s : State) : Host.Outcome State Fault Refusal :=
  runSlot s
    (fun s u => firstFail [noLend s u, stallCheck u [] [(.pred p, 3)], arrayIf u (!ownsArray s s.issue.me u),
      arrayIf u (achkBad (arrayOf s u.ident.cluster)), arrayNow s u true])
    (fun s u =>
      let a := arrayOf s u.ident.cluster
      let r := achkTest a
      let kc := (a.set.bind CheckSet.kc).getD 0
      let res : CheckRes := ⟨r.1, true, BitVec.ofNat 11 (r.2.getD 0), BitVec.ofNat 5 kc, r.2.isNone⟩
      let s := schedPred s s.issue.me { u with eng := { u.eng with arrayTag := u.eng.arrayTag + 1 } } p r.1 3
      let s := s.modArray u.ident.cluster fun a => { a with check := res }
      if x = 1 && r.1 && a.state == .run && !u.curt.inentry then endStream s u.ident.cluster .stopped 1 else s)

/-- Status code of a stream state (R231). -/
def stateCode : StreamState → BitVec 4
  | .idle => 0 | .run => 1 | .held => 2 | .done => 3 | .stopped => 4 | .faulted => 5

/-- The target of the unit's current stream (R252): of one that is queued, with the AEXTs queued behind it; else of the stream that
started last. -/
def currentKt (a : ArraySt) (uid : Uid) : BitVec 5 :=
  if a.queue.any fun q => q.op == 1 && q.uid == uid then BitVec.ofNat 5 (extendedTarget a uid 0) else a.kt

/-- ASNAP's `status` word (R256). -/
def snapStatus (a : ArraySt) (uid : Uid) : Word :=
  let kc := a.set.bind CheckSet.kc
  (0#16) ++ a.vdone ++ (0#13) ++ (if a.state == .stopped then a.cause else 0) ++ BitVec.ofBool (timedByFollow a)
    ++ BitVec.ofBool kc.isNone ++ currentKt a uid ++ BitVec.ofNat 5 (kc.getD 0) ++ stateCode a.state

/-- ASNAP's `check` word. -/
def snapCheck (a : ArraySt) : Word :=
  (0#45) ++ BitVec.ofBool a.check.none ++ a.check.ktest ++ a.check.top ++ BitVec.ofBool a.check.valid ++ BitVec.ofBool a.check.pass

/-- ASNAP's `bound` word: the largest bound over the set's columns within ag4, as FP64 rounded up. -/
def snapBound (a : ArraySt) : Word :=
  let clo := ((a.ag.get 4).extractLsb' 0 11).toNat
  let chi := ((a.ag.get 4).extractLsb' 12 11).toNat
  match a.set with
  | none => BitVec.ofNat 64 f64.infBits
  | some x =>
    let cols := ((List.range x.nCols).map (· + x.firstCol)).filter fun q => decide (clo ≤ x.gw * q) && decide (x.gw * q ≤ chi)
    if x.kc.isNone || cols.isEmpty || cols.any x.boundInf then BitVec.ofNat 64 f64.infBits
    else BitVec.ofNat 64 (roundInt f64 3 false (cols.foldl (fun m q => max m (x.bound q)) 0 : Nat) (-300)).1

/-- ASNAP (R256), latency 2. -/
def execAsnap (x : BitVec 2) (d : BitVec 6) (s : State) : Host.Outcome State Fault Refusal :=
  runSlot s
    (fun s u => firstFail [noLend s u, stallCheck u [] [(.scalar d, 2)], arrayIf u (!ownsArray s s.issue.me u),
      let a := arrayOf s u.ident.cluster
      arrayIf u (x == 2 && decide (((a.ag.get 4).extractLsb' 12 11).toNat < ((a.ag.get 4).extractLsb' 0 11).toNat)),
      arrayNow s u true])
    (fun s u =>
      let a := arrayOf s u.ident.cluster
      let v := match x with | 0 => snapStatus a s.issue.me | 1 => snapCheck a | _ => snapBound a
      schedScalar s s.issue.me { u with eng := { u.eng with arrayTag := u.eng.arrayTag + 1 } } d v 2)

/-- AWAIT's condition (R257). -/
def awaitHolds (a : ArraySt) (uid : Uid) (k : BitVec 5) (c : BitVec 2) : Bool :=
  match c with
  | 0 => arrayIdle a
  | 1 => (match a.set.bind CheckSet.kc with | some j => decide (k.toNat ≤ j) | none => false)
      || (a.state != .run && !a.queue.any fun q => q.uid == uid && (q.op == 1 || q.op == 2))
  | _ => a.queue.isEmpty

/-- AWAIT (R257). -/
def execAwait (k : BitVec 5) (c : BitVec 2) (s : State) : Host.Outcome State Fault Refusal :=
  runSlot s
    (fun s u => firstFail [noLend s u, arrayIf u (!ownsArray s s.issue.me u), arrayNow s u false,
      if awaitHolds (arrayOf s u.ident.cluster) s.issue.me k c then .done else .wait .array])
    (fun s u => s.setUnit s.issue.me (u.modEng fun e => { e with arrayTag := e.arrayTag + 1 }))

/-! ### A.CFG (R244, R245) -/

/-- An A.CFG: its wait for an idle array, the end of extendability, and its write. -/
def cfgSlot (waits : Bool) (f : ArraySt → ArraySt) (s : State) : Host.Outcome State Fault Refusal :=
  runSlot s
    (fun s u => firstFail [noLend s u, arrayIf u (!ownsArray s s.issue.me u), arrayNow s u false,
      let a := arrayOf s u.ident.cluster
      if waits && (!a.queue.isEmpty || a.state == .run) then .wait .array else .done])
    (fun s u => s.modArray u.ident.cluster fun a => f (if waits then endExtend a else a))

/-- ASETL. -/
def execAsetl (k : BitVec 5) (s : State) : Host.Outcome State Fault Refusal := cfgSlot true (fun a => { a with slen := k }) s

/-- ASEED. -/
def execAseed (c r : BitVec 1) (x : BitVec 16) (s : State) : Host.Outcome State Fault Refusal :=
  cfgSlot true (fun a => { a with rowseed := if r = 1 then x else a.rowseed, colseed := if c = 1 then x else a.colseed }) s

/-- AMODE. -/
def execAmode (n p : BitVec 1) (m : BitVec 2) (s : State) : Host.Outcome State Fault Refusal :=
  cfgSlot true (fun a => { a with mode := m, spread := p == 1, nm := n == 1 }) s

/-- AGEN. -/
def execAgen (p : BitVec 2) (s : State) : Host.Outcome State Fault Refusal := cfgSlot true (fun a => { a with pair := p }) s

/-- AZONE. -/
def execAzone (e : BitVec 8) (l : BitVec 1) (z : BitVec 3) (s : State) : Host.Outcome State Fault Refusal :=
  cfgSlot false (fun a => { a with ez := if l = 1 then Vector.replicate 8 e else a.ez.set z.toFin e }) s

end Sys2Proof.Machine
end

