-- ==== Sys2Proof/Machine/ArrayEvents.lean ====
section
/-! DEFINITION.
What the array does after issue (R240, R243, R247 to R255, R259): starts, weight loads, latches, checkpoint copies,
emissions, conversions, chains, and the array cycle that drives them. -/

namespace Sys2Proof.Machine

/-! ### Cells (R233, R237, R255) -/

/-- The cells of a column's rows replaced; clear cells are not listed. -/
def setCells (a : ArraySt) (col rlo rhi : Nat) (f : Nat → BitVec 8 × BitVec 2) : ArraySt :=
  let kept := a.cells.filter fun x => !(x.col == col && decide (rlo ≤ x.row) && decide (x.row ≤ rhi))
  let new := (List.range (rhi + 1 - rlo)).filterMap fun i =>
    let r := rlo + i
    let v := f r
    if v.1 = 0 ∧ v.2 = BitVec.ofNat 2 (r % 2) then none else some { row := r, col := col, code := v.1, index := v.2 : Cell }
  { a with cells := kept ++ new }

/-- A column's scale of a zone. -/
def setScale (a : ArraySt) (z col : Nat) (e : BitVec 8) : ArraySt :=
  let kept := a.scales.filter fun x => !(x.1 == z && x.2.1 == col)
  { a with scales := if e = 0x7F then kept else kept ++ [(z, col, e)] }

/-- A column's load form. -/
def setForm (a : ArraySt) (col : Nat) (f : LoadForm) : ArraySt :=
  let kept := a.forms.filter fun x => x.1 != col
  { a with forms := if f = .dense then kept else kept ++ [(col, f)] }

/-- One weight slab loaded into a logical column (R237); an equal index pair gives its group (R248).  With SLICE and NM24 both set,
which R194 and R247 leave open, the slab is read as a 2:4 row and its indices are tested, and the cells and the load form are
those of SLICE (log 82). -/
def loadColumn (a : ArraySt) (c : ArrayCmd) (q : Nat) (bs : List Byte) : Except Nat ArraySt :=
  let rows := c.rhi + 1 - c.rlo
  let zs := zonesOf c.rlo c.rhi
  let sonly := c.hdr.getLsbD 0
  let nCodes := if c.nm then rows else rows / c.ga
  let codeLen := if sonly then 0 else packedLen c.wfmt nCodes + (if c.nm then (2 * rows + 7) / 8 else 0)
  let codes := readElems c.wfmt nCodes bs
  let idx := readElems 3 (rows / 2) (bs.drop (packedLen c.wfmt nCodes))
  let scales := bs.drop codeLen
  let cols := (List.range c.gw).map fun j => (c.gw * q + j, j)
  match (if c.nm && !sonly then idx.findIdx? fun x => x % 4 == x / 4 else none) with
  | some g => .error (c.rlo / 2 + g)
  | none =>
    .ok (cols.foldl (fun a p =>
      let a := if sonly then a else setCells a p.1 c.rlo c.rhi fun r =>
        let k := r - c.rlo
        if c.mode = 3 then (sliceCell c.wfmt (codes.getD (k / c.ga) 0) p.2, BitVec.ofNat 2 (r % 2))
        else if c.nm then
          let x := idx.getD (k / 2) 0
          (BitVec.ofNat 8 (codes.getD k 0), BitVec.ofNat 2 (if k % 2 = 0 then x % 4 else x / 4))
        else (BitVec.ofNat 8 (codes.getD k 0), BitVec.ofNat 2 (r % 2))
      let a := zs.zipIdx.foldl (fun a z => setScale a z.1 p.1 (scales.getD z.2 0x7F)) a
      setForm a p.1 c.loadForm) a)

/-- A slab of a command's ring at a position. -/
def slabBytes (s : State) (uid : Uid) (h : BitVec 8) (pos : BitVec 32) : List Byte :=
  match (s.unit? uid).bind fun u => (u.handle? h).map fun x => (u, x) with
  | some (u, x) => levelRead s u.ident.cluster x.level (x.slabAt pos) x.slabSize
  | none => []

/-! ### Starts (R240) -/

/-- AWLD leaves the queue (R247): the slabs are read as they stand. -/
def awldStart (s : State) (cl : ClusterNo) (c : ArrayCmd) : State :=
  let a := endExtend (arrayOf s cl)
  let slabs := (List.range c.logicalCols).map fun i => slabBytes s c.uid c.wh (c.inPos + BitVec.ofNat 32 i)
  let e : ArrayExec := { cmd := c, finish := a.acyc + 4 + 2 * c.logicalCols, slabs := slabs, good := 0 }
  s.modArray cl fun _ => { a with exec := some e }

/-- The columns of a weight load that are written by an array cycle: each in turn, two cycles per slab, behind the four cycles that
R247 gives besides (that these come first is the model's choice, log 82). -/
def ArrayExec.due (e : ArrayExec) (acyc : Nat) : Nat :=
  e.cmd.logicalCols - (e.finish - acyc + 1) / 2

/-- A weight load ends at the column at work (R248): the slabs of the columns before it are published, the rest stay claimed until
its unit is resumed, and the array goes on with the commands behind it. -/
def failLoad (s : State) (cl : ClusterNo) (e : ArrayExec) (code : BitVec 8) (group : Nat) : State :=
  let s := (List.range e.good).foldl (fun s _ => publishOne s e.cmd e.cmd.wh false) s
  let s := s.modArray cl fun a => { a with exec := none, owed := a.owed ++ [e.cmd] }
  let va : Va := BitVec.ofNat 80 (e.cmd.clo / e.cmd.gw + e.good + 65536 * group)
  noteFault s e.cmd.uid (afterFault code va (.array e.cmd.tag) e.cmd.slot e.cmd.bundle)

/-- The next column of a weight load is written where its cycles are over (R247). -/
def loadNext (s : State) (cl : ClusterNo) : State :=
  let a := arrayOf s cl
  match a.exec with
  | none => s
  | some e =>
    if e.cmd.op = 0 && decide (e.good < e.due a.acyc) then
      match loadColumn a e.cmd (e.cmd.clo / e.cmd.gw + e.good) (e.slabs.getD e.good []) with
      | .ok a => s.modArray cl fun _ => { a with exec := some { e with good := e.good + 1 } }
      | .error g => failLoad s cl e cNmIndex g
    else s

/-- The columns whose cycles are over. -/
def loadDue (s : State) (cl : ClusterNo) : State :=
  match (arrayOf s cl).exec with
  | some e => (List.range (e.due (arrayOf s cl).acyc - e.good)).foldl (fun s _ => loadNext s cl) s
  | none => s

/-- A vector's codes and ea_z (R236, R249); EZ stands as it was latched at the stream's start.  A zone that the stream's own rows do not
reach, but an upstream array's do, takes with ESRC 0b00 the scale 0x7F: no scale crosses the chain, and which x_z such a zone
has the spec does not say (log 82). -/
def readVector (s : State) (a : ArraySt) (c : ArrayCmd) (v : Nat) : List (BitVec 8) × List (BitVec 8) :=
  let bs := slabBytes s c.uid c.ih (c.inPos + BitVec.ofNat 32 v)
  let codes := (readElems c.afmt c.inCodes bs).map (BitVec.ofNat 8)
  let zs := zonesOf c.rlo c.rhi
  let trailer := bs.drop (packedLen c.afmt c.inCodes)
  let ea := (List.range 8).map fun z => match c.esrc with
    | 0 => (match zs.findIdx? fun k => k == z with | some i => trailer.getD i 0x7F | none => 0x7F)
    | 1 => c.econst
    | _ => if v = 0 then a.ez.toList.getD z 0x7F else a.latchEa.getD z 0x7F
  (codes, ea)

/-- ASTRM leaves the queue (R249). -/
def streamStart (s : State) (cl : ClusterNo) (c : ArrayCmd) : State :=
  let a := arrayOf s cl
  let x := readVector s a c 0
  let st : Stream := { cmd := c, start := a.acyc, kt := c.slen.toNat, vector := 0, nextLatch := 1, vecs := [(0, x.1, x.2)],
                       segs := [(0, a.acyc + 4)], nextJ := 4, up := none }
  let s := s.modArray cl fun a =>
    { a with latches := x.1, latchEa := x.2, set := some (makeSet a c x.1 x.2 none), state := .run, cause := 0,
             kt := BitVec.ofNat 5 c.slen.toNat, vdone := 0, check := { a.check with valid := false }, stream := some st,
             streamUid := some c.uid }
  publishOne s c c.ih false

/-- AEXT leaves the queue (R252). -/
def extStart (a : ArraySt) (c : ArrayCmd) : ArraySt :=
  let n := (c.hdr.extractLsb' 0 4).toNat
  match a.stream with
  | none => a
  | some x =>
    if a.state == .run || a.state == .held then
      let L := 2 ^ x.kt
      let last := x.segs.getLastD (0, x.start + 4)
      let e := max (last.2 + (L - last.1)) (a.acyc + 2)
      let kt := x.kt + n
      { a with state := .run, kt := BitVec.ofNat 5 kt, stream := some { x with kt := kt, segs := x.segs ++ [(L, e)] } }
    else if a.state == .stopped && a.cause == 1 then
      let k := (a.set.bind CheckSet.kc).getD 0
      let kt := k + n
      { a with state := .run, cause := 0, kt := BitVec.ofNat 5 kt,
               stream := some { x with kt := kt, segs := x.segs ++ [(2 ^ k, a.acyc + 2)], nextJ := k + 1 } }
    else a

/-- Array cycles of a conversion over n logical columns (R250, R254). -/
def convCycles (n : Nat) : Nat := 4 + (n + 255) / 256

/-- AOUT leaves the queue (R254): the set is read as it stands. -/
def aoutStart (a : ArraySt) (c : ArrayCmd) : ArraySt :=
  let n := aoutColumns a c
  let bad := c.okind == 1 && match a.set with | some x => x.kc.isSome && summedUnequal x | none => false
  let r := convertSet c.okind c.outRm c.obnd a.set n (c.mode == 2)
  { a with conv := a.conv ++ [{ cmd := c, finish := a.acyc + convCycles n, slab := r.1, flags := r.2, vector := none, fault := bad }] }

/-- ACLR leaves the queue (R231, R255). -/
def aclrStart (a : ArraySt) (c : ArrayCmd) : ArraySt :=
  let acc := c.hdr.getLsbD 0
  let wgt := c.hdr.getLsbD 1
  let a := if acc then clearAcc a else if c.stoppedByKill then a else endExtend a
  let a := if wgt then
      (List.range (c.chi + 1 - c.clo)).foldl (fun a d =>
        let col := c.clo + d
        let a := setCells a col c.rlo c.rhi fun r => (0, BitVec.ofNat 2 (r % 2))
        let a := (zonesOf c.rlo c.rhi).foldl (fun a z => setScale a z col 0x7F) a
        setForm a col .dense) a
    else a
  let a := if c.hdr.getLsbD 2 then clearLat a else a
  { a with exec := some { cmd := c, finish := a.acyc + 4 + (if wgt then 2 * (c.chi + 1 - c.clo) else 0), slabs := [], good := 0 } }

/-- The resource that a command waits for is free (R240). -/
def canStart (a : ArraySt) (c : ArrayCmd) : Bool :=
  let stream := a.state != .run && a.exec.isNone
  decide (c.after ≤ a.acyc) &&
  match c.op.toNat with
  | 2 => true
  | 4 => a.conv.isEmpty && (!c.hdr.getLsbD 0 || stream)
  | _ => stream

/-- A chain message is the running stream's: of the upstream stream it is chained to, or of one that no stream before it was. -/
def Stream.chained (x : Stream) (a : ArraySt) (m : ChainMsg) : Bool :=
  x.cmd.chin && match x.up with | some i => m.sender == i | none => decide (a.chainUp < m.sender)

/-- A stream that starts or goes on behind an upstream one that has ended below its target: the chain end reaches it (R251). -/
def upstreamShort (s : State) (cl : ClusterNo) : State :=
  let a := arrayOf s cl
  match a.stream with
  | none => s
  | some x =>
    if h : 0 < cl.val then
      let up := arrayOf s ⟨cl.val - 1, by omega⟩
      match up.stream with
      | none => s
      | some y =>
        let m := chainMsg y true 0 none
        if a.state == .run && x.chained a m && y.cmd.chout && up.state != .run && decide (y.kt < x.kt) && !(up.queue.any fun q => q.op == 2)
            && !a.chainNet.any (fun m => m.sender == y.cmd.claim) && !a.chainIn.any (fun m => m.sender == y.cmd.claim) then
          s.modArray cl fun a => { a with chainNet := a.chainNet ++ [m] }
        else s
    else s

/-- The command at the head of the queue leaves it when it can; a follow-on first makes its claims (R258). -/
def startHead (s : State) (cl : ClusterNo) : State :=
  match (arrayOf s cl).queue with
  | [] => s
  | c :: rest =>
    let ready := match s.unit? c.uid with | some u => canClaim u c | none => true
    let (id, s1) := s.newReq
    let (s, c) := if c.claimed then (s, c) else if ready then makeClaims s1 c id else (s, c)
    if c.claimed && canStart (arrayOf s cl) c then
      let s := s.modArray cl fun a => { a with queue := rest }
      match c.op.toNat with
      | 0 => awldStart s cl c
      | 1 => upstreamShort (streamStart s cl c) cl
      | 2 => upstreamShort (s.modArray cl fun a => extStart a c) cl
      | 4 => s.modArray cl fun a => aoutStart a c
      | _ => s.modArray cl fun a => aclrStart a c
    else s.modArray cl fun a => { a with queue := c :: rest }

/-- The commands at the head of the queue start while they may (R240). -/
def startAll (s : State) (cl : ClusterNo) : State :=
  (List.range (arrayOf s cl).queue.length).foldl (fun s _ => startHead s cl) s

/-! ### Ends and publications -/

/-- The array is no longer timed by a follow-on once it is idle (R258). -/
def clearFolt (s : State) (cl : ClusterNo) : State :=
  if (arrayOf s cl).folt && arrayIdle (arrayOf s cl) then s.modArray cl fun a => { a with folt := false } else s

/-- AWLD ends (R247): its last columns are written and its slabs published. -/
def awldEnd (s : State) (cl : ClusterNo) : State :=
  let s := loadDue s cl
  match (arrayOf s cl).exec with
  | some e =>
    if e.cmd.op = 0 && decide (e.finish ≤ (arrayOf s cl).acyc) then dropClaims (s.modArray cl fun a => { a with exec := none }) e.cmd 0
    else s
  | none => s

/-- ACLR ends (R255). -/
def aclrEnd (s : State) (cl : ClusterNo) : State :=
  match (arrayOf s cl).exec with
  | some e =>
    if e.cmd.op = 5 && decide (e.finish ≤ (arrayOf s cl).acyc) then s.modArray cl fun a => { a with exec := none } else s
  | none => s

/-- Flags ORed into a unit's FLAGS (R78, R192). -/
def orFlags (s : State) (uid : Uid) (f : BitVec 5) : State :=
  s.modUnit uid fun u => u.modCsr fun c => { c with flags := c.flags ||| f }

/-- An output slab written at a position of the output ring (R238). -/
def writeSlab (s : State) (c : ArrayCmd) (pos : BitVec 32) (bs : List Byte) : State :=
  match (s.unit? c.uid).bind fun u => (u.handle? c.oh).map fun x => (u, x) with
  | some (u, x) => levelWrite s u.ident.cluster x.level (x.slabAt pos) (padTo x.slabSize bs)
  | none => s

/-- A conversion at its publication cycle, taken out of the converter. -/
def takeConv (s : State) (cl : ClusterNo) (emission : Bool) : Option (Convert × State) :=
  let a := arrayOf s cl
  let p (k : Convert) : Bool := decide (k.finish ≤ a.acyc) && k.vector.isSome == emission
  (a.conv.find? p).map fun k => (k, s.modArray cl fun a => { a with conv := removeFirst p a.conv })

/-- AOUT publishes its slab and ORs its flags (R254), or faults with its claim published without data. -/
def aoutEnd (s : State) (cl : ClusterNo) : State :=
  match takeConv s cl false with
  | none => s
  | some (k, s) =>
    if k.fault then
      noteFault (dropClaims s k.cmd 0) k.cmd.uid (afterFault cArray ((s.unit? k.cmd.uid).elim 0 fun u => u.flow.pchi ++ k.cmd.bundle)
        (.array k.cmd.tag) k.cmd.slot k.cmd.bundle)
    else orFlags (publishClaim (writeSlab s k.cmd k.cmd.outPos k.slab) k.cmd.uid k.cmd.oh true k.cmd.claim) k.cmd.uid k.flags

/-- An emission publishes vector v's slab (R250); after the last the stream is DONE. -/
def emitEnd (s : State) (cl : ClusterNo) : State :=
  match takeConv s cl true with
  | none => s
  | some (k, s) =>
    let v := k.vector.getD 0
    let s := publishOne (writeSlab s k.cmd (k.cmd.outPos + BitVec.ofNat 32 v) k.slab) k.cmd k.cmd.oh true
    let s := s.modArray cl fun a => { a with vdone := BitVec.ofNat 16 (v + 1),
                                             state := if v + 1 = k.cmd.v then .done else a.state }
    orFlags s k.cmd.uid k.flags

/-! ### Latches and copies (R243, R181) -/

/-- The array cycle in which the whole of checkpoint j of the vector at work is copied (R243). -/
def dueCycle (x : Stream) : Nat :=
  let i := 2 ^ x.nextJ
  let seg := (x.segs.filter fun g => decide (g.1 < i)).getLastD (0, x.start + 4)
  seg.2 + x.vector * 2 ^ x.kt + (i - seg.1) + (x.cmd.chi - x.cmd.clo)

/-- The current index of the running stream (R230): the indices that column CLO has counted of the vector at work, which the start,
the segments and the array cycle give. -/
def currentIndex (a : ArraySt) : Nat :=
  match a.stream with
  | some x =>
    let seg := (x.segs.filter fun g => decide (g.2 + x.vector * 2 ^ x.kt ≤ a.acyc)).getLastD (0, x.start + 4)
    min (2 ^ x.kt) (seg.1 + (a.acyc - (seg.2 + x.vector * 2 ^ x.kt)))
  | none => 0

/-- The counter bank (R230): a physical column's live counts, C_z or C_z(i, j).  They are what the cells and the latched vector give
over the indices that the column has counted, so the state holds those and this is the bank's view of them; a checkpoint is a
copy of it (R181). -/
def counterBank (a : ArraySt) (col : Nat) : List Int :=
  match a.stream with
  | some x =>
    let v := (x.vecs.find? fun v => v.1 == x.vector).getD (0, [], [])
    colCounts a x.cmd v.2.1 col (currentIndex a - (col - x.cmd.clo))
  | none => []

/-- A checkpoint of the running stream falls in this array cycle. -/
def copyDue (a : ArraySt) : Bool :=
  match a.stream with
  | some x => a.state == .run && decide (x.nextJ ≤ x.kt) && decide (dueCycle x ≤ a.acyc)
  | none => false

/-- The upstream part of the checkpoint at work. -/
def upstreamPart (a : ArraySt) : Option ChainMsg :=
  a.stream.bind fun x => a.chainIn.find? fun m => x.chained a m && m.j == x.nextJ && m.vector == x.vector

/-- The downstream copy waits for its upstream part, and the hold line rises (R251). -/
def chainHolds (a : ArraySt) : Bool :=
  copyDue a && (match a.stream with | some x => x.cmd.chin | none => false) && (upstreamPart a).isNone

/-- A message that shows that the two streams of a chain disagree (R251). -/
def chainDiffers (x : Stream) (m : ChainMsg) : Bool :=
  m.kt != x.kt || m.mode != x.cmd.mode || m.nm != x.cmd.nm || m.afmt.toNat != x.cmd.afmt || m.wfmt.toNat != x.cmd.wfmt
    || m.pair != x.cmd.pair || m.clo != x.cmd.clo || m.chi != x.cmd.chi

/-- The running stream faults after issue (R259). -/
def faultStream (s : State) (cl : ClusterNo) (code : BitVec 8) (addr : Option Va) : State :=
  match (arrayOf s cl).stream with
  | none => s
  | some x =>
    let va := addr.getD ((s.unit? x.cmd.uid).elim 0 fun u => u.flow.pchi ++ x.cmd.bundle)
    noteFault (endStream s cl .faulted 0) x.cmd.uid (afterFault code va (.array x.cmd.tag) x.cmd.slot x.cmd.bundle)

/-- The target of the stream of the next chiplet's array. -/
def downstreamTarget (s : State) (cl : ClusterNo) : Nat :=
  if h : cl.val + 1 < 128 then ((arrayOf s ⟨cl.val + 1, h⟩).stream.map Stream.kt).getD 0 else 0

/-- A vector's set is complete: an emission starts, or the stream is HELD (R231, R250). -/
def targetReached (s : State) (cl : ClusterNo) (x : Stream) (t : CheckSet) : State :=
  if x.cmd.emit then
    if x.cmd.okind = 1 && summedUnequal t then faultStream s cl cArray none
    else
      let r := convertSet x.cmd.okind x.cmd.outRm x.cmd.obnd (some t) t.nCols (t.mode == 2)
      s.modArray cl fun a => { a with
        conv := a.conv ++ [{ cmd := x.cmd, finish := a.acyc + convCycles t.nCols, slab := r.1, flags := r.2,
                             vector := some x.vector, fault := false }]
        stream := some { x with vector := x.vector + 1, nextJ := 4, vecs := x.vecs.filter fun v => v.1 != x.vector } }
  else
    let s := s.modArray cl fun a => { a with state := .held, vdone := 1 }
    if x.cmd.chout && decide (x.kt < downstreamTarget s cl) then chainSend s cl (chainMsg x true 0 none) else s

/-- The checkpoint copy that falls in this array cycle (R181, R243, R251). -/
def copyCheckpoint (s : State) (cl : ClusterNo) : State :=
  let a := arrayOf s cl
  match a.stream with
  | none => s
  | some x =>
    if copyDue a && !chainHolds a then
      match (if x.cmd.chin then upstreamPart a else none) with
      | some m =>
        if chainDiffers x m then faultStream s cl cArray none
        else
          let v := (x.vecs.find? fun v => v.1 == x.vector).getD (0, [], [])
          let t := addChain (makeSet a x.cmd v.2.1 v.2.2 (some x.nextJ)) m
          let x' := { x with nextJ := x.nextJ + 1, up := some m.sender }
          let s := s.modArray cl fun a => { a with set := some t, stream := some x', chainUp := m.sender
                                                   chainIn := removeFirst (fun k => k == m) a.chainIn }
          let s := if x.cmd.chout then chainSend s cl (chainMsg x false x.nextJ (some t)) else s
          if x.nextJ = x.kt then targetReached s cl x' t else s
      | none =>
        let v := (x.vecs.find? fun v => v.1 == x.vector).getD (0, [], [])
        let t := makeSet a x.cmd v.2.1 v.2.2 (some x.nextJ)
        let s := s.modArray cl fun a => { a with set := some t, stream := some { x with nextJ := x.nextJ + 1 } }
        let s := if x.cmd.chout then chainSend s cl (chainMsg x false x.nextJ (some t)) else s
        if x.nextJ = x.kt then targetReached s cl { x with nextJ := x.nextJ + 1 } t else s
    else s

/-- A batched vector is latched at its entry cycle, its input slab published (R243, R249). -/
def latchNext (s : State) (cl : ClusterNo) : State :=
  let a := arrayOf s cl
  match a.stream with
  | none => s
  | some x =>
    if a.state == .run && decide (x.nextLatch < x.cmd.v) && decide (x.start + 4 + x.nextLatch * 2 ^ x.kt ≤ a.acyc) then
      let v := readVector s a x.cmd x.nextLatch
      let s := s.modArray cl fun a => { a with latches := v.1, latchEa := v.2
                                               stream := some { x with nextLatch := x.nextLatch + 1, vecs := x.vecs ++ [(x.nextLatch, v.1, v.2)] } }
      publishOne s x.cmd x.cmd.ih false
    else s

/-! ### The array cycle (R241) -/

/-- What falls at the start of an array cycle, before the bundle issues: ends, publications, starts. -/
def arrayPre (s : State) (cl : ClusterNo) : State :=
  if arrayRuns s cl then
    let s := clearFolt (emitEnd (aoutEnd (aclrEnd (awldEnd s cl) cl) cl) cl) cl
    startAll s cl
  else clearFolt s cl

/-- What falls at the end of an array cycle: commands issued in it start, and copies and latches are made, which later
commands see; then the cycle is counted. -/
def arrayPost (s : State) (cl : ClusterNo) : State :=
  if arrayRuns s cl then
    let s := startAll s cl
    let s := clearFolt (latchNext (copyCheckpoint s cl) cl) cl
    s.modArray cl fun a => { a with acyc := a.acyc + 1 }
  else clearFolt s cl

/-- One core cycle of weight clearing (R233, R241). -/
def clearTick (s : State) (cl : ClusterNo) : State :=
  s.modArray cl fun a => { a with clearing := if 1 < a.clearing then a.clearing - 1 else a.clearing }

/-- The last cycle of weight clearing. -/
def clearDone (s : State) (cl : ClusterNo) : State :=
  s.modArray cl fun a => { a with clearing := if a.clearing = 1 then 0 else a.clearing }

/-! ### The events -/

/-- ARRAY_COMMAND_START (R240). -/
def execArrayCommandStart (c : ClusterNo) (s : State) : Host.Outcome State Fault Refusal :=
  .next (if arrayRuns s c then startHead s c else s)

/-- AWLD_COMPLETE (R247). -/
def execAwldComplete (c : ClusterNo) (s : State) : Host.Outcome State Fault Refusal :=
  .next (if arrayRuns s c then awldEnd s c else s)

/-- VECTOR_LATCH (R243). -/
def execVectorLatch (c : ClusterNo) (s : State) : Host.Outcome State Fault Refusal :=
  .next (if arrayRuns s c then latchNext s c else s)

/-- The array cycle in which a checkpoint is copied is over (R181): no bundle of it is still to issue. -/
def copyOver (a : ArraySt) : Bool := match a.stream with | some x => decide (dueCycle x < a.acyc) | none => false

/-- CHECKPOINT_COPY (R181): a checkpoint whose array cycle is over is copied; within its cycle the copy comes behind the bundle of that
cycle (`arrayPost`). -/
def execCheckpointCopy (c : ClusterNo) (s : State) : Host.Outcome State Fault Refusal :=
  .next (if arrayRuns s c && copyOver (arrayOf s c) then copyCheckpoint s c else s)

/-- EMIT_PUBLISH (R250). -/
def execEmitPublish (c : ClusterNo) (s : State) : Host.Outcome State Fault Refusal :=
  .next (if arrayRuns s c then emitEnd s c else s)

/-- AOUT_PUBLISH (R254). -/
def execAoutPublish (c : ClusterNo) (s : State) : Host.Outcome State Fault Refusal :=
  .next (if arrayRuns s c then aoutEnd s c else s)

/-- ACLR_COMPLETE (R255). -/
def execAclrComplete (c : ClusterNo) (s : State) : Host.Outcome State Fault Refusal :=
  .next (if arrayRuns s c then aclrEnd s c else s)

/-- WEIGHT_CLEAR_DONE (R233). -/
def execWeightClearDone (c : ClusterNo) (s : State) : Host.Outcome State Fault Refusal := .next (clearDone s c)

/-- CHAIN_PARTIAL_SUMS (R251): the oldest upstream counts arrive; a difference ends the stream with ARRAY_FAULT.  Counts of an upstream
stream whose downstream stream is over go nowhere. -/
def execChainPartialSums (c : ClusterNo) (s : State) : Host.Outcome State Fault Refusal :=
  .next (match (arrayOf s c).chainNet with
    | m :: rest =>
      if m.fin then s
      else
        let a := arrayOf s c
        let mine := match a.stream with | some x => x.chained a m | none => false
        let s := s.modArray c fun a => { a with chainNet := rest,
                                                chainIn := if mine || decide (a.chainUp < m.sender) then a.chainIn ++ [m] else a.chainIn }
        match a.stream with
        | some x => if a.state == .run && mine && chainDiffers x m then faultStream s c cArray none else s
        | none => s
    | [] => s)

/-- CHAIN_END (R251): the downstream stream stops at its last complete checkpoint, cause chain. -/
def execChainEnd (c : ClusterNo) (s : State) : Host.Outcome State Fault Refusal :=
  .next (match (arrayOf s c).chainNet with
    | m :: rest =>
      if m.fin then
        let a := arrayOf s c
        let s := s.modArray c fun a => { a with chainNet := rest }
        match a.stream with
        | some x => if a.state == .run && x.chained a m then endStream (s.modArray c fun a => { a with chainUp := max a.chainUp m.sender }) c .stopped 3 else s
        | none => s
      else s
    | [] => s)

/-- STREAM_POISON (R259): the stream is FAULTED; an error in the set leaves it without a checkpoint.  A weight load under way finds the
error in the slab of the column at work and ends there (R248), the row given as the group in its address. -/
def execStreamPoison (c : ClusterNo) (row col : BitVec 16) (inSet : Bool) (s : State) : Host.Outcome State Fault Refusal :=
  .next (if (arrayOf s c).state == .run then
      let s := faultStream s c cPoison (some ((0#48) ++ col ++ row))
      if inSet then s.modArray c fun a => { a with set := a.set.map fun x => { x with kc := none } } else s
    else match (arrayOf s c).exec with
      | some e => if e.cmd.op = 0 then failLoad s c e cPoison row.toNat else s
      | none => s)

end Sys2Proof.Machine
end

