-- ==== Sys2Proof/WellFormed.lean ====
section
/-! DEFINITION.
Which instructions have every field at a value the manual allows for it (R44 to R58, R65).  An encoding that a row
of the opcode table matches but whose field is reserved is an `Instr` that is not well formed; it takes ILLEGAL_OP
(R65).  Lend bytes are no field of the slot (R38 to R41), so what they add is checked at issue.  An event has no
encoding and is not well formed. -/

namespace Sys2Proof.Instr

/-- The CSR numbers of R58. -/
def csrKnown (c : BitVec 10) : Bool :=
  [0, 1, 2, 3, 4, 8, 9, 0xA, 0x10, 0x11, 0x12, 0x13, 0x18, 0x19, 0x20, 0x21, 0x22].contains c.toNat

/-- The conversion codes of R153. -/
def vcvtKnown (c : BitVec 8) : Bool := c.toNat < 0xE || c == 0x10 || c == 0x11

/-- Every field of a slot instruction holds a value the manual allows. -/
def wellFormed : Instr → Bool
  | .add _ _ _ _ _ => true
  | .sub _ _ _ _ _ => true
  | .and _ _ _ _ _ => true
  | .or _ _ _ _ _ => true
  | .xor _ _ _ _ _ => true
  | .andn _ _ _ _ _ => true
  | .shl _ _ _ _ _ => true
  | .shr _ _ _ _ _ => true
  | .sar _ _ _ _ _ => true
  | .rol _ _ _ _ _ => true
  | .mul _ _ _ _ _ => true
  | .mulhs _ _ _ _ _ => true
  | .mulhu _ _ _ _ _ => true
  | .divs _ _ _ _ _ => true
  | .divu _ _ _ _ _ => true
  | .rems _ _ _ _ _ => true
  | .remu _ _ _ _ _ => true
  | .mins _ _ _ _ _ => true
  | .minu _ _ _ _ _ => true
  | .maxs _ _ _ _ _ => true
  | .maxu _ _ _ _ _ => true
  | .clz _ _ _ _ => true
  | .ctz _ _ _ _ => true
  | .popc _ _ _ _ => true
  | .brev _ _ _ _ => true
  | .bswap _ _ _ _ => true
  | .sext _ _ _ _ _ => true
  | .zext _ _ _ _ _ => true
  | .sel _ _ _ _ _ => true
  | .addw _ _ _ _ _ => true
  | .subw _ _ _ _ _ => true
  | .mulw _ _ _ _ _ => true
  | .cmpeq _ _ _ _ _ => true
  | .cmpne _ _ _ _ _ => true
  | .cmplts _ _ _ _ _ => true
  | .cmpltu _ _ _ _ _ => true
  | .cmples _ _ _ _ _ => true
  | .cmpleu _ _ _ _ _ => true
  | .pand _ a b _ _ => a.toNat < 16 && b.toNat < 16
  | .por _ a b _ _ => a.toNat < 16 && b.toNat < 16
  | .pxor _ a b _ _ => a.toNat < 16 && b.toNat < 16
  | .pnot _ a _ _ => a.toNat < 16
  | .movp _ _ _ => true
  | .movtp _ _ _ => true
  | .addi _ _ _ => true
  | .andi _ _ _ => true
  | .ori _ _ _ => true
  | .xori _ _ _ => true
  | .shli _ _ i => i.toNat < 64
  | .shri _ _ i => i.toNat < 64
  | .sari _ _ i => i.toNat < 64
  | .muli _ _ _ => true
  | .li _ _ => true
  | .lix _ _ _ => true
  | .cmpeqi _ _ _ => true
  | .cmpltsi _ _ _ => true
  | .cmpltui _ _ _ => true
  | .ldb _ _ _ _ => true
  | .ldbu _ _ _ _ => true
  | .ldh _ _ _ _ => true
  | .ldhu _ _ _ _ => true
  | .ldw _ _ _ _ => true
  | .ldwu _ _ _ _ => true
  | .ldd _ _ _ _ => true
  | .stb _ _ _ _ => true
  | .sth _ _ _ _ => true
  | .stw _ _ _ _ => true
  | .std _ _ _ _ => true
  | .ldro _ _ _ _ => true
  | .ldacq _ _ _ _ _ => true
  | .strel _ _ _ _ _ => true
  | .pfl2 _ _ _ => true
  | .br _ _ _ => true
  | .brn _ _ _ => true
  | .call _ _ _ => true
  | .jr _ _ _ => true
  | .callr _ _ _ => true
  | .loop _ _ _ => true
  | .loopi _ _ _ => true
  | .endseg => true
  | .halt => true
  | .stgp _ => true
  | .trap _ _ _ => true
  | .brk _ => true
  | .nops _ => true
  | .nop => true
  | .vadd _ _ _ => true
  | .vsub _ _ _ => true
  | .vmul _ _ _ => true
  | .vfma _ _ _ => true
  | .vfms _ _ _ => true
  | .vdiv _ _ _ => true
  | .vsqrt _ _ => true
  | .vmin _ _ _ => true
  | .vmax _ _ _ => true
  | .vcmpeq _ _ _ => true
  | .vcmplt _ _ _ => true
  | .vcmple _ _ _ => true
  | .vabs _ _ => true
  | .vneg _ _ => true
  | .vsel _ _ _ => true
  | .vclass _ _ => true
  | .vaddF64 _ _ _ => true
  | .vsubF64 _ _ _ => true
  | .vmulF64 _ _ _ => true
  | .vfmaF64 _ _ _ => true
  | .vfmsF64 _ _ _ => true
  | .vdivF64 _ _ _ => true
  | .vsqrtF64 _ _ => true
  | .vminF64 _ _ _ => true
  | .vmaxF64 _ _ _ => true
  | .vcmpeqF64 _ _ _ => true
  | .vcmpltF64 _ _ _ => true
  | .vcmpleF64 _ _ _ => true
  | .vabsF64 _ _ => true
  | .vnegF64 _ _ => true
  | .vselF64 _ _ _ => true
  | .vclassF64 _ _ => true
  | .viadd _ _ _ => true
  | .visub _ _ _ => true
  | .vimul _ _ _ => true
  | .vimad _ _ _ => true
  | .vand _ _ _ => true
  | .vor _ _ _ => true
  | .vxor _ _ _ => true
  | .vshl _ _ _ => true
  | .vshr _ _ _ => true
  | .vsar _ _ _ => true
  | .vimin _ _ _ => true
  | .vimax _ _ _ => true
  | .vicmpeq _ _ _ => true
  | .vicmplt _ _ _ => true
  | .viadds _ _ _ => true
  | .vperm _ _ _ => true
  | .vmov _ _ => true
  | .vbcst _ w => w.toNat < 3
  | .vcvt _ _ c => vcvtKnown c
  | .vtrans _ _ _ f => f != 3
  | .vred _ _ c => c != 7
  | .vldt _ _ _ => true
  | .vstt _ _ _ => true
  | .vldg _ _ _ _ => true
  | .vstg _ _ _ _ => true
  | .vqrd _ _ => true
  | .vpop _ _ => true
  | .vpush _ _ => true
  | .vext _ m k => m != 3 && (m != 2 || k.toNat % 2 == 0)
  | .viota _ _ => true
  | .vsplat _ _ p k => p == 0 || k.toNat % 2 == 0
  | .awld _ => true
  | .astrm _ _ _ => true
  | .aext n => decide (1 ≤ n.toNat ∧ n.toNat ≤ 12)
  | .achk _ _ => true
  | .aout _ => true
  | .aclr k l g a => !(k == 0 && l == 0 && g == 0 && a == 0)
  | .asnap s _ => s != 3
  | .await k c => (c == 0 && k == 0) || (c == 1 && decide (4 ≤ k.toNat ∧ k.toNat ≤ 16)) || (c == 2 && k == 0)
  | .asetl k => decide (4 ≤ k.toNat ∧ k.toNat ≤ 16)
  | .aseed c r _ => !(c == 0 && r == 0)
  | .amode _ _ _ => true
  | .agen p => p != 3
  | .azone _ a z => a == 0 || z == 0
  | .cpy _ _ _ _ k => k == 1 || k == 2
  | .cpyo _ _ _ _ s => s == 1 || s == 2
  | .cpyt _ _ _ _ => true
  | .gath _ _ _ _ _ => true
  | .scat _ _ _ _ _ => true
  | .bpf _ _ => true
  | .qcvt _ _ _ _ s k => s.toNat < 2 && k.toNat < 2
  | .dqcvt _ _ _ _ s k => s.toNat < 2 && k.toNat < 2
  | .nmpk _ _ _ _ s k => s.toNat < 2 && k.toNat < 2
  | .nmup _ _ _ _ s k => s.toNat < 2 && k.toNat < 2
  | .publ _ _ _ _ _ => true
  | .qbnd _ _ _ _ => true
  | .twait _ _ => true
  | .cfol _ _ => true
  | .cabt _ _ => true
  | .xpose _ _ _ _ s k _ => s.toNat < 2 && k.toNat < 2
  | .aadd _ _ _ _ _ _ => true
  | .aand _ _ _ _ _ _ => true
  | .aor _ _ _ _ _ _ => true
  | .axor _ _ _ _ _ _ => true
  | .amins _ _ _ _ _ _ => true
  | .aminu _ _ _ _ _ _ => true
  | .amaxs _ _ _ _ _ _ => true
  | .amaxu _ _ _ _ _ _ => true
  | .axchg _ _ _ _ _ _ => true
  | .acas _ _ _ _ _ _ => true
  | .afadd32 _ _ _ _ _ => true
  | .afadd64 _ _ _ _ _ => true
  | .barinit _ _ _ _ => true
  | .barrive _ _ _ _ => true
  | .barriveJoin _ _ _ _ => true
  | .barwait _ _ _ _ _ => true
  | .baraw _ _ _ _ => true
  | .fence _ o => o != 0
  | .ared _ _ _ _ _ _ => true
  | .syncq _ _ _ _ => true
  | .csrr _ c => csrKnown c
  | .csrw _ _ c => csrKnown c
  | .csrs _ _ c => csrKnown c
  | .csrc _ _ c => csrKnown c
  | .talloc _ _ => true
  | .tfree _ => true
  | .bankacq _ p => p != 3
  | .bankrel _ p => p != 3
  | .ringadv _ _ n => n != 0
  | .ringcnt _ _ => true
  | .stgw _ p _ => p != 3
  | .stgr _ p _ => p != 3
  | .valsetArr _ _ => true
  | .valset _ _ k _ e _ => (k == 0 || decide (4 ≤ k.toNat ∧ k.toNat ≤ 16)) && (e == 0 || k == 0)
  | .frd _ _ _ => true
  | .fwr _ _ _ => true
  | .fwrAdvance _ => false
  | .fwrAbandonCommand _ _ _ => false
  | .fwrCancelPending _ _ => false
  | .fresume _ _ => true
  | .fkill _ => true
  | .farrive _ _ _ _ _ => true
  | .fnext _ _ => true
  | .fstep _ _ => true
  | .curtdone => true
  | .rbseed _ _ => true
  | .repmark _ _ => true
  | .l1flush _ => true
  | .l1inv _ => true
  | .tlbiAll _ => true
  | .tlbiRange _ _ => true
  | .capdrop _ => true
  | .annulledBundleIssue _ => false
  | .pendingWriteVisible _ _ => false
  | .loadDataArrival _ _ => false
  | .holdLineRaise _ => false
  | .afterIssueFreeze _ => false
  | .dieLostFreeze _ _ => false
  | .prompterFaultPolicy _ => false
  | .restartableReexecution _ _ => false
  | .preemptionRequest _ => false
  | .preemptPark _ => false
  | .segmentSwitch _ => false
  | .unitStart _ => false
  | .wingsLoad _ _ => false
  | .wingsSwap _ => false
  | .weightClearDone _ => false
  | .rbStep _ => false
  | .l1OpComplete _ => false
  | .copyCommandStart _ _ => false
  | .copyCommandComplete _ _ => false
  | .streamSlabTransfer _ _ => false
  | .copyEngineFault _ _ _ _ => false
  | .publCount _ _ => false
  | .flipNotice _ _ => false
  | .flipNoticeAck _ _ => false
  | .valsetPerform _ => false
  | .arrayCommandStart _ => false
  | .awldComplete _ => false
  | .vectorLatch _ => false
  | .checkpointCopy _ => false
  | .emitPublish _ => false
  | .aoutPublish _ => false
  | .aclrComplete _ => false
  | .chainPartialSums _ => false
  | .chainEnd _ => false
  | .streamPoison _ _ _ _ => false
  | .syncEngineOperation _ => false
  | .syncReply _ => false
  | .retryReceived _ => false
  | .pageMigration _ _ _ => false
  | .bufferRegistration _ _ _ _ _ => false
  | .gets _ _ => false
  | .getm _ _ => false
  | .upg _ _ => false
  | .putm _ _ => false
  | .puto _ _ => false
  | .pute _ _ => false
  | .puts _ _ => false
  | .dataS _ _ => false
  | .dataE _ _ => false
  | .dataM _ _ => false
  | .datanf _ _ => false
  | .upgack _ _ => false
  | .inv _ _ => false
  | .fwdgets _ _ => false
  | .fwdgetsnf _ _ => false
  | .fwdgetm _ _ => false
  | .fwddata _ _ => false
  | .invack _ _ => false
  | .fwdack _ _ => false
  | .putack _ _ => false
  | .putackstale _ _ => false
  | .push _ _ => false
  | .rdset _ _ => false
  | .rdinv _ _ => false
  | .rdack _ _ => false
  | .memoryFill _ => false
  | .redirectedRead _ _ => false
  | .circuitSend _ => false
  | .snoopTimerExpiry _ => false
  | .linkTrainingComplete _ => false
  | .linkTrainFail _ => false
  | .translationWalk _ _ _ _ => false
  | .walkComplete _ => false
  | .replayEventDelivery _ _ => false
  | .gaddrWrite _ _ _ => false
  | .cue _ _ => false
  | .transformDispatch _ => false
  | .phaseBoundaryRelease _ => false
  | .launchReleaseDone _ => false
  | .completionTarget _ => false
  | .cancelUnit _ _ _ => false
  | .cancelLaunch _ _ => false
  | .cancelGraph _ _ => false
  | .cancelPhase _ _ => false
  | .cancelJob _ => false
  | .budgetPeriodStart _ => false
  | .deadlineStrike _ => false
  | .curtainMessage _ _ => false
  | .diversion _ => false
  | .curtainNoentComplete _ => false
  | .curtainOverrun _ => false
  | .ptpMessage _ _ => false
  | .ppsInput => false
  | .ptmResponse _ => false
  | .holdoverEntry => false
  | .tkset _ => false
  | .tktaisRead => false
  | .inboundWrite _ _ _ _ _ _ _ => false
  | .routeRelease _ _ => false
  | .routeAck _ _ => false
  | .inboundRead _ _ _ _ _ => false
  | .inboundReadRelease _ => false
  | .apctlWrite _ => false
  | .xctlWrite _ => false
  | .outboundLoadTimeout _ => false
  | .hostLinkDown => false
  | .estalPortTrained _ _ _ _ => false
  | .estalPortStatusWrite _ _ => false
  | .moduleReset => false
  | .mreset _ => false
  | .attestationGo _ => false
  | .attestationDone => false
  | .powerThrottle _ => false
  | .thermalTrip => false
  | .powerStageFault => false
  | .registerWrite _ _ => false
  | .hubDieFault => false
  | .estalLinkDown _ _ => false
  | .hostPortTrained => false
  | .pushAcknowledgement _ _ => false
  | .memoryWriteDone _ => false
  | .shootDown _ _ => false
  | .shootDownAck _ _ => false
  | .outboundWriteAck _ _ => false
  | .ideFailure => false
  | .correctableError => false
  | .flitRetry _ => false
  | .pctlWrite _ _ => false

end Sys2Proof.Instr
end

