-- ==== Sys2Proof/Decode.lean ====
section
/-! DEFINITION.
The decoder of a 32-bit slot (R31, R42 to R57) and of the four slots of a bundle (R30), and the encoder.  Decoding is
total: what is no instruction is refused by name (R65).  A refused slot of a reserved class, a class-0xF slot other
than the NOP and a header outside slot 0 make the bundle malformed; every other refusal is an ILLEGAL_OP of its slot. -/

namespace Sys2Proof

/-- Why a slot is no instruction (R65). -/
inductive Reject where
  | reservedClass
  | badNop
  | reservedOpcode
  | nonZeroField
  deriving DecidableEq, Repr

/-- What a slot holds. -/
inductive Decoded where
  | instr (i : Instr)
  | header (w : SlotWord)
  | reject (r : Reject)
  deriving DecidableEq, Repr

/-- Class 0x0, S.RR: the opcode field selects the row; a fixed field that does not hold its value is refused. -/
def decodeSRR (w : SlotWord) : Decoded :=
  match w.extractLsb' 22 6 with
  | 0x0#6 => .instr (.add (w.extractLsb' 16 6) (w.extractLsb' 10 6) (w.extractLsb' 4 6) (w.extractLsb' 1 3) (w.extractLsb' 0 1))
  | 0x1#6 => .instr (.sub (w.extractLsb' 16 6) (w.extractLsb' 10 6) (w.extractLsb' 4 6) (w.extractLsb' 1 3) (w.extractLsb' 0 1))
  | 0x2#6 => .instr (.and (w.extractLsb' 16 6) (w.extractLsb' 10 6) (w.extractLsb' 4 6) (w.extractLsb' 1 3) (w.extractLsb' 0 1))
  | 0x3#6 => .instr (.or (w.extractLsb' 16 6) (w.extractLsb' 10 6) (w.extractLsb' 4 6) (w.extractLsb' 1 3) (w.extractLsb' 0 1))
  | 0x4#6 => .instr (.xor (w.extractLsb' 16 6) (w.extractLsb' 10 6) (w.extractLsb' 4 6) (w.extractLsb' 1 3) (w.extractLsb' 0 1))
  | 0x5#6 => .instr (.andn (w.extractLsb' 16 6) (w.extractLsb' 10 6) (w.extractLsb' 4 6) (w.extractLsb' 1 3) (w.extractLsb' 0 1))
  | 0x6#6 => .instr (.shl (w.extractLsb' 16 6) (w.extractLsb' 10 6) (w.extractLsb' 4 6) (w.extractLsb' 1 3) (w.extractLsb' 0 1))
  | 0x7#6 => .instr (.shr (w.extractLsb' 16 6) (w.extractLsb' 10 6) (w.extractLsb' 4 6) (w.extractLsb' 1 3) (w.extractLsb' 0 1))
  | 0x8#6 => .instr (.sar (w.extractLsb' 16 6) (w.extractLsb' 10 6) (w.extractLsb' 4 6) (w.extractLsb' 1 3) (w.extractLsb' 0 1))
  | 0x9#6 => .instr (.rol (w.extractLsb' 16 6) (w.extractLsb' 10 6) (w.extractLsb' 4 6) (w.extractLsb' 1 3) (w.extractLsb' 0 1))
  | 0xa#6 => .instr (.mul (w.extractLsb' 16 6) (w.extractLsb' 10 6) (w.extractLsb' 4 6) (w.extractLsb' 1 3) (w.extractLsb' 0 1))
  | 0xb#6 => .instr (.mulhs (w.extractLsb' 16 6) (w.extractLsb' 10 6) (w.extractLsb' 4 6) (w.extractLsb' 1 3) (w.extractLsb' 0 1))
  | 0xc#6 => .instr (.mulhu (w.extractLsb' 16 6) (w.extractLsb' 10 6) (w.extractLsb' 4 6) (w.extractLsb' 1 3) (w.extractLsb' 0 1))
  | 0xd#6 => .instr (.divs (w.extractLsb' 16 6) (w.extractLsb' 10 6) (w.extractLsb' 4 6) (w.extractLsb' 1 3) (w.extractLsb' 0 1))
  | 0xe#6 => .instr (.divu (w.extractLsb' 16 6) (w.extractLsb' 10 6) (w.extractLsb' 4 6) (w.extractLsb' 1 3) (w.extractLsb' 0 1))
  | 0xf#6 => .instr (.rems (w.extractLsb' 16 6) (w.extractLsb' 10 6) (w.extractLsb' 4 6) (w.extractLsb' 1 3) (w.extractLsb' 0 1))
  | 0x10#6 => .instr (.remu (w.extractLsb' 16 6) (w.extractLsb' 10 6) (w.extractLsb' 4 6) (w.extractLsb' 1 3) (w.extractLsb' 0 1))
  | 0x11#6 => .instr (.mins (w.extractLsb' 16 6) (w.extractLsb' 10 6) (w.extractLsb' 4 6) (w.extractLsb' 1 3) (w.extractLsb' 0 1))
  | 0x12#6 => .instr (.minu (w.extractLsb' 16 6) (w.extractLsb' 10 6) (w.extractLsb' 4 6) (w.extractLsb' 1 3) (w.extractLsb' 0 1))
  | 0x13#6 => .instr (.maxs (w.extractLsb' 16 6) (w.extractLsb' 10 6) (w.extractLsb' 4 6) (w.extractLsb' 1 3) (w.extractLsb' 0 1))
  | 0x14#6 => .instr (.maxu (w.extractLsb' 16 6) (w.extractLsb' 10 6) (w.extractLsb' 4 6) (w.extractLsb' 1 3) (w.extractLsb' 0 1))
  | 0x15#6 => if w.extractLsb' 4 6 = 0x0#6 then .instr (.clz (w.extractLsb' 16 6) (w.extractLsb' 10 6) (w.extractLsb' 1 3) (w.extractLsb' 0 1)) else .reject .nonZeroField
  | 0x16#6 => if w.extractLsb' 4 6 = 0x0#6 then .instr (.ctz (w.extractLsb' 16 6) (w.extractLsb' 10 6) (w.extractLsb' 1 3) (w.extractLsb' 0 1)) else .reject .nonZeroField
  | 0x17#6 => if w.extractLsb' 4 6 = 0x0#6 then .instr (.popc (w.extractLsb' 16 6) (w.extractLsb' 10 6) (w.extractLsb' 1 3) (w.extractLsb' 0 1)) else .reject .nonZeroField
  | 0x18#6 => if w.extractLsb' 4 6 = 0x0#6 then .instr (.brev (w.extractLsb' 16 6) (w.extractLsb' 10 6) (w.extractLsb' 1 3) (w.extractLsb' 0 1)) else .reject .nonZeroField
  | 0x19#6 => if w.extractLsb' 4 6 = 0x0#6 then .instr (.bswap (w.extractLsb' 16 6) (w.extractLsb' 10 6) (w.extractLsb' 1 3) (w.extractLsb' 0 1)) else .reject .nonZeroField
  | 0x1a#6 => .instr (.sext (w.extractLsb' 16 6) (w.extractLsb' 10 6) (w.extractLsb' 4 6) (w.extractLsb' 1 3) (w.extractLsb' 0 1))
  | 0x1b#6 => .instr (.zext (w.extractLsb' 16 6) (w.extractLsb' 10 6) (w.extractLsb' 4 6) (w.extractLsb' 1 3) (w.extractLsb' 0 1))
  | 0x1c#6 => .instr (.sel (w.extractLsb' 16 6) (w.extractLsb' 10 6) (w.extractLsb' 4 6) (w.extractLsb' 1 3) (w.extractLsb' 0 1))
  | 0x1d#6 => .instr (.addw (w.extractLsb' 16 6) (w.extractLsb' 10 6) (w.extractLsb' 4 6) (w.extractLsb' 1 3) (w.extractLsb' 0 1))
  | 0x1e#6 => .instr (.subw (w.extractLsb' 16 6) (w.extractLsb' 10 6) (w.extractLsb' 4 6) (w.extractLsb' 1 3) (w.extractLsb' 0 1))
  | 0x1f#6 => .instr (.mulw (w.extractLsb' 16 6) (w.extractLsb' 10 6) (w.extractLsb' 4 6) (w.extractLsb' 1 3) (w.extractLsb' 0 1))
  | 0x20#6 => if w.extractLsb' 19 3 = 0x0#3 then .instr (.cmpeq (w.extractLsb' 16 3) (w.extractLsb' 10 6) (w.extractLsb' 4 6) (w.extractLsb' 1 3) (w.extractLsb' 0 1)) else .reject .nonZeroField
  | 0x21#6 => if w.extractLsb' 19 3 = 0x0#3 then .instr (.cmpne (w.extractLsb' 16 3) (w.extractLsb' 10 6) (w.extractLsb' 4 6) (w.extractLsb' 1 3) (w.extractLsb' 0 1)) else .reject .nonZeroField
  | 0x22#6 => if w.extractLsb' 19 3 = 0x0#3 then .instr (.cmplts (w.extractLsb' 16 3) (w.extractLsb' 10 6) (w.extractLsb' 4 6) (w.extractLsb' 1 3) (w.extractLsb' 0 1)) else .reject .nonZeroField
  | 0x23#6 => if w.extractLsb' 19 3 = 0x0#3 then .instr (.cmpltu (w.extractLsb' 16 3) (w.extractLsb' 10 6) (w.extractLsb' 4 6) (w.extractLsb' 1 3) (w.extractLsb' 0 1)) else .reject .nonZeroField
  | 0x24#6 => if w.extractLsb' 19 3 = 0x0#3 then .instr (.cmples (w.extractLsb' 16 3) (w.extractLsb' 10 6) (w.extractLsb' 4 6) (w.extractLsb' 1 3) (w.extractLsb' 0 1)) else .reject .nonZeroField
  | 0x25#6 => if w.extractLsb' 19 3 = 0x0#3 then .instr (.cmpleu (w.extractLsb' 16 3) (w.extractLsb' 10 6) (w.extractLsb' 4 6) (w.extractLsb' 1 3) (w.extractLsb' 0 1)) else .reject .nonZeroField
  | 0x26#6 => if w.extractLsb' 19 3 = 0x0#3 then .instr (.pand (w.extractLsb' 16 3) (w.extractLsb' 10 6) (w.extractLsb' 4 6) (w.extractLsb' 1 3) (w.extractLsb' 0 1)) else .reject .nonZeroField
  | 0x27#6 => if w.extractLsb' 19 3 = 0x0#3 then .instr (.por (w.extractLsb' 16 3) (w.extractLsb' 10 6) (w.extractLsb' 4 6) (w.extractLsb' 1 3) (w.extractLsb' 0 1)) else .reject .nonZeroField
  | 0x28#6 => if w.extractLsb' 19 3 = 0x0#3 then .instr (.pxor (w.extractLsb' 16 3) (w.extractLsb' 10 6) (w.extractLsb' 4 6) (w.extractLsb' 1 3) (w.extractLsb' 0 1)) else .reject .nonZeroField
  | 0x29#6 => if w.extractLsb' 19 3 = 0x0#3 ∧ w.extractLsb' 4 6 = 0x0#6 then .instr (.pnot (w.extractLsb' 16 3) (w.extractLsb' 10 6) (w.extractLsb' 1 3) (w.extractLsb' 0 1)) else .reject .nonZeroField
  | 0x2a#6 => if w.extractLsb' 4 12 = 0x0#12 then .instr (.movp (w.extractLsb' 16 6) (w.extractLsb' 1 3) (w.extractLsb' 0 1)) else .reject .nonZeroField
  | 0x2b#6 => if w.extractLsb' 16 6 = 0x0#6 ∧ w.extractLsb' 4 6 = 0x0#6 then .instr (.movtp (w.extractLsb' 10 6) (w.extractLsb' 1 3) (w.extractLsb' 0 1)) else .reject .nonZeroField
  | _ => .reject .reservedOpcode

/-- Class 0x1, S.RI: the opcode field selects the row; a fixed field that does not hold its value is refused. -/
def decodeSRI (w : SlotWord) : Decoded :=
  match w.extractLsb' 22 6 with
  | 0x0#6 => .instr (.addi (w.extractLsb' 16 6) (w.extractLsb' 10 6) (w.extractLsb' 0 10))
  | 0x1#6 => .instr (.andi (w.extractLsb' 16 6) (w.extractLsb' 10 6) (w.extractLsb' 0 10))
  | 0x2#6 => .instr (.ori (w.extractLsb' 16 6) (w.extractLsb' 10 6) (w.extractLsb' 0 10))
  | 0x3#6 => .instr (.xori (w.extractLsb' 16 6) (w.extractLsb' 10 6) (w.extractLsb' 0 10))
  | 0x4#6 => .instr (.shli (w.extractLsb' 16 6) (w.extractLsb' 10 6) (w.extractLsb' 0 10))
  | 0x5#6 => .instr (.shri (w.extractLsb' 16 6) (w.extractLsb' 10 6) (w.extractLsb' 0 10))
  | 0x6#6 => .instr (.sari (w.extractLsb' 16 6) (w.extractLsb' 10 6) (w.extractLsb' 0 10))
  | 0x7#6 => .instr (.muli (w.extractLsb' 16 6) (w.extractLsb' 10 6) (w.extractLsb' 0 10))
  | 0x8#6 => if w.extractLsb' 10 6 = 0x0#6 then .instr (.li (w.extractLsb' 16 6) (w.extractLsb' 0 10)) else .reject .nonZeroField
  | 0x9#6 => .instr (.lix (w.extractLsb' 16 6) (w.extractLsb' 10 6) (w.extractLsb' 0 10))
  | 0xa#6 => if w.extractLsb' 19 3 = 0x0#3 then .instr (.cmpeqi (w.extractLsb' 16 3) (w.extractLsb' 10 6) (w.extractLsb' 0 10)) else .reject .nonZeroField
  | 0xb#6 => if w.extractLsb' 19 3 = 0x0#3 then .instr (.cmpltsi (w.extractLsb' 16 3) (w.extractLsb' 10 6) (w.extractLsb' 0 10)) else .reject .nonZeroField
  | 0xc#6 => if w.extractLsb' 19 3 = 0x0#3 then .instr (.cmpltui (w.extractLsb' 16 3) (w.extractLsb' 10 6) (w.extractLsb' 0 10)) else .reject .nonZeroField
  | _ => .reject .reservedOpcode

/-- Class 0x2, S.MEM: the opcode field selects the row; a fixed field that does not hold its value is refused. -/
def decodeSMem (w : SlotWord) : Decoded :=
  match w.extractLsb' 24 4 with
  | 0x0#4 => .instr (.ldb (w.extractLsb' 18 6) (w.extractLsb' 12 6) (w.extractLsb' 10 2) (w.extractLsb' 0 10))
  | 0x1#4 => .instr (.ldbu (w.extractLsb' 18 6) (w.extractLsb' 12 6) (w.extractLsb' 10 2) (w.extractLsb' 0 10))
  | 0x2#4 => .instr (.ldh (w.extractLsb' 18 6) (w.extractLsb' 12 6) (w.extractLsb' 10 2) (w.extractLsb' 0 10))
  | 0x3#4 => .instr (.ldhu (w.extractLsb' 18 6) (w.extractLsb' 12 6) (w.extractLsb' 10 2) (w.extractLsb' 0 10))
  | 0x4#4 => .instr (.ldw (w.extractLsb' 18 6) (w.extractLsb' 12 6) (w.extractLsb' 10 2) (w.extractLsb' 0 10))
  | 0x5#4 => .instr (.ldwu (w.extractLsb' 18 6) (w.extractLsb' 12 6) (w.extractLsb' 10 2) (w.extractLsb' 0 10))
  | 0x6#4 => .instr (.ldd (w.extractLsb' 18 6) (w.extractLsb' 12 6) (w.extractLsb' 10 2) (w.extractLsb' 0 10))
  | 0x7#4 => .instr (.stb (w.extractLsb' 18 6) (w.extractLsb' 12 6) (w.extractLsb' 10 2) (w.extractLsb' 0 10))
  | 0x8#4 => .instr (.sth (w.extractLsb' 18 6) (w.extractLsb' 12 6) (w.extractLsb' 10 2) (w.extractLsb' 0 10))
  | 0x9#4 => .instr (.stw (w.extractLsb' 18 6) (w.extractLsb' 12 6) (w.extractLsb' 10 2) (w.extractLsb' 0 10))
  | 0xa#4 => .instr (.std (w.extractLsb' 18 6) (w.extractLsb' 12 6) (w.extractLsb' 10 2) (w.extractLsb' 0 10))
  | 0xb#4 => .instr (.ldro (w.extractLsb' 18 6) (w.extractLsb' 12 6) (w.extractLsb' 10 2) (w.extractLsb' 0 10))
  | 0xc#4 => .instr (.ldacq (w.extractLsb' 18 6) (w.extractLsb' 12 6) (w.extractLsb' 10 2) (w.extractLsb' 8 2) (w.extractLsb' 0 8))
  | 0xd#4 => .instr (.strel (w.extractLsb' 18 6) (w.extractLsb' 12 6) (w.extractLsb' 10 2) (w.extractLsb' 8 2) (w.extractLsb' 0 8))
  | 0xe#4 => if w.extractLsb' 18 6 = 0x0#6 then .instr (.pfl2 (w.extractLsb' 12 6) (w.extractLsb' 10 2) (w.extractLsb' 0 10)) else .reject .nonZeroField
  | _ => .reject .reservedOpcode

/-- Class 0x3, S.CTL: the opcode field selects the row; a fixed field that does not hold its value is refused. -/
def decodeSCtl (w : SlotWord) : Decoded :=
  match w.extractLsb' 24 4 with
  | 0x0#4 => .instr (.br (w.extractLsb' 21 3) (w.extractLsb' 20 1) (w.extractLsb' 0 20))
  | 0x1#4 => .instr (.brn (w.extractLsb' 21 3) (w.extractLsb' 20 1) (w.extractLsb' 0 20))
  | 0x2#4 => .instr (.call (w.extractLsb' 21 3) (w.extractLsb' 20 1) (w.extractLsb' 0 20))
  | 0x3#4 => if w.extractLsb' 0 14 = 0x0#14 then .instr (.jr (w.extractLsb' 21 3) (w.extractLsb' 20 1) (w.extractLsb' 14 6)) else .reject .nonZeroField
  | 0x4#4 => if w.extractLsb' 0 14 = 0x0#14 then .instr (.callr (w.extractLsb' 21 3) (w.extractLsb' 20 1) (w.extractLsb' 14 6)) else .reject .nonZeroField
  | 0x5#4 => if w.extractLsb' 20 4 = 0x0#4 then .instr (.loop (w.extractLsb' 19 1) (w.extractLsb' 13 6) (w.extractLsb' 0 13)) else .reject .nonZeroField
  | 0x6#4 => if w.extractLsb' 20 4 = 0x0#4 then .instr (.loopi (w.extractLsb' 19 1) (w.extractLsb' 10 9) (w.extractLsb' 0 10)) else .reject .nonZeroField
  | 0x7#4 => if w.extractLsb' 0 24 = 0x0#24 then .instr (.endseg) else .reject .nonZeroField
  | 0x8#4 => if w.extractLsb' 0 24 = 0x0#24 then .instr (.halt) else .reject .nonZeroField
  | 0x9#4 => if w.extractLsb' 20 4 = 0x0#4 ∧ w.extractLsb' 0 12 = 0x0#12 then .instr (.stgp (w.extractLsb' 12 8)) else .reject .nonZeroField
  | 0xa#4 => if w.extractLsb' 0 12 = 0x0#12 then .instr (.trap (w.extractLsb' 21 3) (w.extractLsb' 20 1) (w.extractLsb' 12 8)) else .reject .nonZeroField
  | 0xb#4 => if w.extractLsb' 20 4 = 0x0#4 then .instr (.brk (w.extractLsb' 0 20)) else .reject .nonZeroField
  | 0xc#4 => if w.extractLsb' 20 4 = 0x0#4 then .instr (.nops (w.extractLsb' 0 20)) else .reject .nonZeroField
  | _ => .reject .reservedOpcode

/-- Class 0x4, V.FP: the opcode field selects the row; a fixed field that does not hold its value is refused. -/
def decodeVFp (w : SlotWord) : Decoded :=
  match w.extractLsb' 24 4 with
  | 0x0#4 => .instr (.vadd (w.extractLsb' 16 8) (w.extractLsb' 8 8) (w.extractLsb' 0 8))
  | 0x1#4 => .instr (.vsub (w.extractLsb' 16 8) (w.extractLsb' 8 8) (w.extractLsb' 0 8))
  | 0x2#4 => .instr (.vmul (w.extractLsb' 16 8) (w.extractLsb' 8 8) (w.extractLsb' 0 8))
  | 0x3#4 => .instr (.vfma (w.extractLsb' 16 8) (w.extractLsb' 8 8) (w.extractLsb' 0 8))
  | 0x4#4 => .instr (.vfms (w.extractLsb' 16 8) (w.extractLsb' 8 8) (w.extractLsb' 0 8))
  | 0x5#4 => .instr (.vdiv (w.extractLsb' 16 8) (w.extractLsb' 8 8) (w.extractLsb' 0 8))
  | 0x6#4 => if w.extractLsb' 0 8 = 0x0#8 then .instr (.vsqrt (w.extractLsb' 16 8) (w.extractLsb' 8 8)) else .reject .nonZeroField
  | 0x7#4 => .instr (.vmin (w.extractLsb' 16 8) (w.extractLsb' 8 8) (w.extractLsb' 0 8))
  | 0x8#4 => .instr (.vmax (w.extractLsb' 16 8) (w.extractLsb' 8 8) (w.extractLsb' 0 8))
  | 0x9#4 => .instr (.vcmpeq (w.extractLsb' 16 8) (w.extractLsb' 8 8) (w.extractLsb' 0 8))
  | 0xa#4 => .instr (.vcmplt (w.extractLsb' 16 8) (w.extractLsb' 8 8) (w.extractLsb' 0 8))
  | 0xb#4 => .instr (.vcmple (w.extractLsb' 16 8) (w.extractLsb' 8 8) (w.extractLsb' 0 8))
  | 0xc#4 => if w.extractLsb' 0 8 = 0x0#8 then .instr (.vabs (w.extractLsb' 16 8) (w.extractLsb' 8 8)) else .reject .nonZeroField
  | 0xd#4 => if w.extractLsb' 0 8 = 0x0#8 then .instr (.vneg (w.extractLsb' 16 8) (w.extractLsb' 8 8)) else .reject .nonZeroField
  | 0xe#4 => .instr (.vsel (w.extractLsb' 16 8) (w.extractLsb' 8 8) (w.extractLsb' 0 8))
  | _ => if w.extractLsb' 0 8 = 0x0#8 then .instr (.vclass (w.extractLsb' 16 8) (w.extractLsb' 8 8)) else .reject .nonZeroField

/-- Class 0x5, V.FP64: the opcode field selects the row; a fixed field that does not hold its value is refused. -/
def decodeVFp64 (w : SlotWord) : Decoded :=
  match w.extractLsb' 24 4 with
  | 0x0#4 => .instr (.vaddF64 (w.extractLsb' 16 8) (w.extractLsb' 8 8) (w.extractLsb' 0 8))
  | 0x1#4 => .instr (.vsubF64 (w.extractLsb' 16 8) (w.extractLsb' 8 8) (w.extractLsb' 0 8))
  | 0x2#4 => .instr (.vmulF64 (w.extractLsb' 16 8) (w.extractLsb' 8 8) (w.extractLsb' 0 8))
  | 0x3#4 => .instr (.vfmaF64 (w.extractLsb' 16 8) (w.extractLsb' 8 8) (w.extractLsb' 0 8))
  | 0x4#4 => .instr (.vfmsF64 (w.extractLsb' 16 8) (w.extractLsb' 8 8) (w.extractLsb' 0 8))
  | 0x5#4 => .instr (.vdivF64 (w.extractLsb' 16 8) (w.extractLsb' 8 8) (w.extractLsb' 0 8))
  | 0x6#4 => if w.extractLsb' 0 8 = 0x0#8 then .instr (.vsqrtF64 (w.extractLsb' 16 8) (w.extractLsb' 8 8)) else .reject .nonZeroField
  | 0x7#4 => .instr (.vminF64 (w.extractLsb' 16 8) (w.extractLsb' 8 8) (w.extractLsb' 0 8))
  | 0x8#4 => .instr (.vmaxF64 (w.extractLsb' 16 8) (w.extractLsb' 8 8) (w.extractLsb' 0 8))
  | 0x9#4 => .instr (.vcmpeqF64 (w.extractLsb' 16 8) (w.extractLsb' 8 8) (w.extractLsb' 0 8))
  | 0xa#4 => .instr (.vcmpltF64 (w.extractLsb' 16 8) (w.extractLsb' 8 8) (w.extractLsb' 0 8))
  | 0xb#4 => .instr (.vcmpleF64 (w.extractLsb' 16 8) (w.extractLsb' 8 8) (w.extractLsb' 0 8))
  | 0xc#4 => if w.extractLsb' 0 8 = 0x0#8 then .instr (.vabsF64 (w.extractLsb' 16 8) (w.extractLsb' 8 8)) else .reject .nonZeroField
  | 0xd#4 => if w.extractLsb' 0 8 = 0x0#8 then .instr (.vnegF64 (w.extractLsb' 16 8) (w.extractLsb' 8 8)) else .reject .nonZeroField
  | 0xe#4 => .instr (.vselF64 (w.extractLsb' 16 8) (w.extractLsb' 8 8) (w.extractLsb' 0 8))
  | _ => if w.extractLsb' 0 8 = 0x0#8 then .instr (.vclassF64 (w.extractLsb' 16 8) (w.extractLsb' 8 8)) else .reject .nonZeroField

/-- Class 0x6, V.INT: the opcode field selects the row; a fixed field that does not hold its value is refused. -/
def decodeVInt (w : SlotWord) : Decoded :=
  match w.extractLsb' 24 4 with
  | 0x0#4 => .instr (.viadd (w.extractLsb' 16 8) (w.extractLsb' 8 8) (w.extractLsb' 0 8))
  | 0x1#4 => .instr (.visub (w.extractLsb' 16 8) (w.extractLsb' 8 8) (w.extractLsb' 0 8))
  | 0x2#4 => .instr (.vimul (w.extractLsb' 16 8) (w.extractLsb' 8 8) (w.extractLsb' 0 8))
  | 0x3#4 => .instr (.vimad (w.extractLsb' 16 8) (w.extractLsb' 8 8) (w.extractLsb' 0 8))
  | 0x4#4 => .instr (.vand (w.extractLsb' 16 8) (w.extractLsb' 8 8) (w.extractLsb' 0 8))
  | 0x5#4 => .instr (.vor (w.extractLsb' 16 8) (w.extractLsb' 8 8) (w.extractLsb' 0 8))
  | 0x6#4 => .instr (.vxor (w.extractLsb' 16 8) (w.extractLsb' 8 8) (w.extractLsb' 0 8))
  | 0x7#4 => .instr (.vshl (w.extractLsb' 16 8) (w.extractLsb' 8 8) (w.extractLsb' 0 8))
  | 0x8#4 => .instr (.vshr (w.extractLsb' 16 8) (w.extractLsb' 8 8) (w.extractLsb' 0 8))
  | 0x9#4 => .instr (.vsar (w.extractLsb' 16 8) (w.extractLsb' 8 8) (w.extractLsb' 0 8))
  | 0xa#4 => .instr (.vimin (w.extractLsb' 16 8) (w.extractLsb' 8 8) (w.extractLsb' 0 8))
  | 0xb#4 => .instr (.vimax (w.extractLsb' 16 8) (w.extractLsb' 8 8) (w.extractLsb' 0 8))
  | 0xc#4 => .instr (.vicmpeq (w.extractLsb' 16 8) (w.extractLsb' 8 8) (w.extractLsb' 0 8))
  | 0xd#4 => .instr (.vicmplt (w.extractLsb' 16 8) (w.extractLsb' 8 8) (w.extractLsb' 0 8))
  | 0xe#4 => .instr (.viadds (w.extractLsb' 16 8) (w.extractLsb' 8 8) (w.extractLsb' 0 8))
  | _ => .instr (.vperm (w.extractLsb' 16 8) (w.extractLsb' 8 8) (w.extractLsb' 0 8))

/-- Class 0x7, V.XFER: the opcode field selects the row; a fixed field that does not hold its value is refused. -/
def decodeVXfer (w : SlotWord) : Decoded :=
  match w.extractLsb' 24 4 with
  | 0x0#4 => if w.extractLsb' 0 8 = 0x0#8 then .instr (.vmov (w.extractLsb' 16 8) (w.extractLsb' 8 8)) else .reject .nonZeroField
  | 0x1#4 => if w.extractLsb' 8 8 = 0x0#8 then .instr (.vbcst (w.extractLsb' 16 8) (w.extractLsb' 0 8)) else .reject .nonZeroField
  | 0x2#4 => .instr (.vcvt (w.extractLsb' 16 8) (w.extractLsb' 8 8) (w.extractLsb' 0 8))
  | 0x3#4 => if w.extractLsb' 3 5 = 0x0#5 then .instr (.vtrans (w.extractLsb' 16 8) (w.extractLsb' 8 8) (w.extractLsb' 2 1) (w.extractLsb' 0 2)) else .reject .nonZeroField
  | 0x4#4 => if w.extractLsb' 3 5 = 0x0#5 then .instr (.vred (w.extractLsb' 16 8) (w.extractLsb' 8 8) (w.extractLsb' 0 3)) else .reject .nonZeroField
  | 0x5#4 => if w.extractLsb' 14 2 = 0x0#2 then .instr (.vldt (w.extractLsb' 16 8) (w.extractLsb' 8 6) (w.extractLsb' 0 8)) else .reject .nonZeroField
  | 0x6#4 => if w.extractLsb' 14 2 = 0x0#2 then .instr (.vstt (w.extractLsb' 16 8) (w.extractLsb' 8 6) (w.extractLsb' 0 8)) else .reject .nonZeroField
  | 0x7#4 => if w.extractLsb' 14 2 = 0x0#2 then .instr (.vldg (w.extractLsb' 16 8) (w.extractLsb' 8 6) (w.extractLsb' 6 2) (w.extractLsb' 0 6)) else .reject .nonZeroField
  | 0x8#4 => if w.extractLsb' 14 2 = 0x0#2 then .instr (.vstg (w.extractLsb' 16 8) (w.extractLsb' 8 6) (w.extractLsb' 6 2) (w.extractLsb' 0 6)) else .reject .nonZeroField
  | 0x9#4 => if w.extractLsb' 3 13 = 0x0#13 then .instr (.vqrd (w.extractLsb' 16 8) (w.extractLsb' 0 3)) else .reject .nonZeroField
  | 0xa#4 => if w.extractLsb' 14 2 = 0x0#2 ∧ w.extractLsb' 0 8 = 0x0#8 then .instr (.vpop (w.extractLsb' 16 8) (w.extractLsb' 8 6)) else .reject .nonZeroField
  | 0xb#4 => if w.extractLsb' 14 2 = 0x0#2 ∧ w.extractLsb' 0 8 = 0x0#8 then .instr (.vpush (w.extractLsb' 16 8) (w.extractLsb' 8 6)) else .reject .nonZeroField
  | 0xc#4 => if w.extractLsb' 16 8 = 0x0#8 ∧ w.extractLsb' 6 2 = 0x0#2 then .instr (.vext (w.extractLsb' 8 8) (w.extractLsb' 4 2) (w.extractLsb' 0 4)) else .reject .nonZeroField
  | 0xd#4 => if w.extractLsb' 8 8 = 0x0#8 then .instr (.viota (w.extractLsb' 16 8) (w.extractLsb' 0 8)) else .reject .nonZeroField
  | 0xe#4 => if w.extractLsb' 5 3 = 0x0#3 then .instr (.vsplat (w.extractLsb' 16 8) (w.extractLsb' 8 8) (w.extractLsb' 4 1) (w.extractLsb' 0 4)) else .reject .nonZeroField
  | _ => .reject .reservedOpcode

/-- Class 0x8, A.CMD: the opcode field selects the row; a fixed field that does not hold its value is refused. -/
def decodeACmd (w : SlotWord) : Decoded :=
  match w.extractLsb' 24 4 with
  | 0x0#4 => if w.extractLsb' 1 23 = 0x0#23 then .instr (.awld (w.extractLsb' 0 1)) else .reject .nonZeroField
  | 0x1#4 => if w.extractLsb' 3 21 = 0x0#21 then .instr (.astrm (w.extractLsb' 2 1) (w.extractLsb' 1 1) (w.extractLsb' 0 1)) else .reject .nonZeroField
  | 0x2#4 => if w.extractLsb' 4 20 = 0x0#20 then .instr (.aext (w.extractLsb' 0 4)) else .reject .nonZeroField
  | 0x3#4 => if w.extractLsb' 4 20 = 0x0#20 then .instr (.achk (w.extractLsb' 3 1) (w.extractLsb' 0 3)) else .reject .nonZeroField
  | 0x4#4 => if w.extractLsb' 1 23 = 0x0#23 then .instr (.aout (w.extractLsb' 0 1)) else .reject .nonZeroField
  | 0x5#4 => if w.extractLsb' 4 20 = 0x0#20 then .instr (.aclr (w.extractLsb' 3 1) (w.extractLsb' 2 1) (w.extractLsb' 1 1) (w.extractLsb' 0 1)) else .reject .nonZeroField
  | 0x6#4 => if w.extractLsb' 8 16 = 0x0#16 then .instr (.asnap (w.extractLsb' 6 2) (w.extractLsb' 0 6)) else .reject .nonZeroField
  | 0x7#4 => if w.extractLsb' 9 15 = 0x0#15 ∧ w.extractLsb' 2 2 = 0x0#2 then .instr (.await (w.extractLsb' 4 5) (w.extractLsb' 0 2)) else .reject .nonZeroField
  | _ => .reject .reservedOpcode

/-- Class 0x9, A.CFG: the opcode field selects the row; a fixed field that does not hold its value is refused. -/
def decodeACfg (w : SlotWord) : Decoded :=
  match w.extractLsb' 24 4 with
  | 0x0#4 => if w.extractLsb' 5 19 = 0x0#19 then .instr (.asetl (w.extractLsb' 0 5)) else .reject .nonZeroField
  | 0x1#4 => if w.extractLsb' 18 6 = 0x0#6 then .instr (.aseed (w.extractLsb' 17 1) (w.extractLsb' 16 1) (w.extractLsb' 0 16)) else .reject .nonZeroField
  | 0x2#4 => if w.extractLsb' 4 20 = 0x0#20 then .instr (.amode (w.extractLsb' 3 1) (w.extractLsb' 2 1) (w.extractLsb' 0 2)) else .reject .nonZeroField
  | 0x3#4 => if w.extractLsb' 2 22 = 0x0#22 then .instr (.agen (w.extractLsb' 0 2)) else .reject .nonZeroField
  | 0x4#4 => if w.extractLsb' 16 8 = 0x0#8 ∧ w.extractLsb' 4 4 = 0x0#4 then .instr (.azone (w.extractLsb' 8 8) (w.extractLsb' 3 1) (w.extractLsb' 0 3)) else .reject .nonZeroField
  | _ => .reject .reservedOpcode

/-- Class 0xa, C.CMD: the opcode field selects the row; a fixed field that does not hold its value is refused. -/
def decodeCCmd (w : SlotWord) : Decoded :=
  match w.extractLsb' 22 5 with
  | 0x0#5 => if w.extractLsb' 14 2 = 0x0#2 ∧ w.extractLsb' 0 12 = 0x0#12 then .instr (.cpy (w.extractLsb' 27 1) (w.extractLsb' 18 4) (w.extractLsb' 17 1) (w.extractLsb' 16 1) (w.extractLsb' 12 2)) else .reject .nonZeroField
  | 0x1#5 => if w.extractLsb' 0 14 = 0x0#14 then .instr (.cpyo (w.extractLsb' 27 1) (w.extractLsb' 18 4) (w.extractLsb' 17 1) (w.extractLsb' 16 1) (w.extractLsb' 14 2)) else .reject .nonZeroField
  | 0x2#5 => if w.extractLsb' 0 16 = 0x5000#16 then .instr (.cpyt (w.extractLsb' 27 1) (w.extractLsb' 18 4) (w.extractLsb' 17 1) (w.extractLsb' 16 1)) else .reject .nonZeroField
  | 0x3#5 => if w.extractLsb' 8 8 = 0x10#8 then .instr (.gath (w.extractLsb' 27 1) (w.extractLsb' 18 4) (w.extractLsb' 17 1) (w.extractLsb' 16 1) (w.extractLsb' 0 8)) else .reject .nonZeroField
  | 0x4#5 => if w.extractLsb' 8 8 = 0x40#8 then .instr (.scat (w.extractLsb' 27 1) (w.extractLsb' 18 4) (w.extractLsb' 17 1) (w.extractLsb' 16 1) (w.extractLsb' 0 8)) else .reject .nonZeroField
  | 0x5#5 => if w.extractLsb' 0 18 = 0x0#18 then .instr (.bpf (w.extractLsb' 27 1) (w.extractLsb' 18 4)) else .reject .nonZeroField
  | 0x6#5 => if w.extractLsb' 0 12 = 0x0#12 then .instr (.qcvt (w.extractLsb' 27 1) (w.extractLsb' 18 4) (w.extractLsb' 17 1) (w.extractLsb' 16 1) (w.extractLsb' 14 2) (w.extractLsb' 12 2)) else .reject .nonZeroField
  | 0x7#5 => if w.extractLsb' 0 12 = 0x0#12 then .instr (.dqcvt (w.extractLsb' 27 1) (w.extractLsb' 18 4) (w.extractLsb' 17 1) (w.extractLsb' 16 1) (w.extractLsb' 14 2) (w.extractLsb' 12 2)) else .reject .nonZeroField
  | 0x8#5 => if w.extractLsb' 0 12 = 0x0#12 then .instr (.nmpk (w.extractLsb' 27 1) (w.extractLsb' 18 4) (w.extractLsb' 17 1) (w.extractLsb' 16 1) (w.extractLsb' 14 2) (w.extractLsb' 12 2)) else .reject .nonZeroField
  | 0x9#5 => if w.extractLsb' 0 12 = 0x0#12 then .instr (.nmup (w.extractLsb' 27 1) (w.extractLsb' 18 4) (w.extractLsb' 17 1) (w.extractLsb' 16 1) (w.extractLsb' 14 2) (w.extractLsb' 12 2)) else .reject .nonZeroField
  | 0xa#5 => if w.extractLsb' 1 15 = 0x0#15 then .instr (.publ (w.extractLsb' 27 1) (w.extractLsb' 18 4) (w.extractLsb' 17 1) (w.extractLsb' 16 1) (w.extractLsb' 0 1)) else .reject .nonZeroField
  | 0xb#5 => if w.extractLsb' 5 17 = 0x0#17 then .instr (.qbnd (w.extractLsb' 27 1) (w.extractLsb' 4 1) (w.extractLsb' 3 1) (w.extractLsb' 0 3)) else .reject .nonZeroField
  | 0xc#5 => if w.extractLsb' 16 6 = 0x0#6 then .instr (.twait (w.extractLsb' 27 1) (w.extractLsb' 0 16)) else .reject .nonZeroField
  | 0xd#5 => if w.extractLsb' 0 18 = 0x0#18 then .instr (.cfol (w.extractLsb' 27 1) (w.extractLsb' 18 4)) else .reject .nonZeroField
  | 0xe#5 => if w.extractLsb' 16 6 = 0x0#6 then .instr (.cabt (w.extractLsb' 27 1) (w.extractLsb' 0 16)) else .reject .nonZeroField
  | 0xf#5 => if w.extractLsb' 2 10 = 0x0#10 then .instr (.xpose (w.extractLsb' 27 1) (w.extractLsb' 18 4) (w.extractLsb' 17 1) (w.extractLsb' 16 1) (w.extractLsb' 14 2) (w.extractLsb' 12 2) (w.extractLsb' 0 2)) else .reject .nonZeroField
  | _ => .reject .reservedOpcode

/-- Class 0xb, Y.SYNC: the opcode field selects the row; a fixed field that does not hold its value is refused. -/
def decodeYSync (w : SlotWord) : Decoded :=
  match w.extractLsb' 23 5 with
  | 0x0#5 => .instr (.aadd (w.extractLsb' 17 6) (w.extractLsb' 11 6) (w.extractLsb' 5 6) (w.extractLsb' 3 2) (w.extractLsb' 1 2) (w.extractLsb' 0 1))
  | 0x1#5 => .instr (.aand (w.extractLsb' 17 6) (w.extractLsb' 11 6) (w.extractLsb' 5 6) (w.extractLsb' 3 2) (w.extractLsb' 1 2) (w.extractLsb' 0 1))
  | 0x2#5 => .instr (.aor (w.extractLsb' 17 6) (w.extractLsb' 11 6) (w.extractLsb' 5 6) (w.extractLsb' 3 2) (w.extractLsb' 1 2) (w.extractLsb' 0 1))
  | 0x3#5 => .instr (.axor (w.extractLsb' 17 6) (w.extractLsb' 11 6) (w.extractLsb' 5 6) (w.extractLsb' 3 2) (w.extractLsb' 1 2) (w.extractLsb' 0 1))
  | 0x4#5 => .instr (.amins (w.extractLsb' 17 6) (w.extractLsb' 11 6) (w.extractLsb' 5 6) (w.extractLsb' 3 2) (w.extractLsb' 1 2) (w.extractLsb' 0 1))
  | 0x5#5 => .instr (.aminu (w.extractLsb' 17 6) (w.extractLsb' 11 6) (w.extractLsb' 5 6) (w.extractLsb' 3 2) (w.extractLsb' 1 2) (w.extractLsb' 0 1))
  | 0x6#5 => .instr (.amaxs (w.extractLsb' 17 6) (w.extractLsb' 11 6) (w.extractLsb' 5 6) (w.extractLsb' 3 2) (w.extractLsb' 1 2) (w.extractLsb' 0 1))
  | 0x7#5 => .instr (.amaxu (w.extractLsb' 17 6) (w.extractLsb' 11 6) (w.extractLsb' 5 6) (w.extractLsb' 3 2) (w.extractLsb' 1 2) (w.extractLsb' 0 1))
  | 0x8#5 => .instr (.axchg (w.extractLsb' 17 6) (w.extractLsb' 11 6) (w.extractLsb' 5 6) (w.extractLsb' 3 2) (w.extractLsb' 1 2) (w.extractLsb' 0 1))
  | 0x9#5 => .instr (.acas (w.extractLsb' 17 6) (w.extractLsb' 11 6) (w.extractLsb' 5 6) (w.extractLsb' 3 2) (w.extractLsb' 1 2) (w.extractLsb' 0 1))
  | 0xa#5 => if w.extractLsb' 0 1 = 0x1#1 then .instr (.afadd32 (w.extractLsb' 17 6) (w.extractLsb' 11 6) (w.extractLsb' 5 6) (w.extractLsb' 3 2) (w.extractLsb' 1 2)) else .reject .nonZeroField
  | 0xb#5 => if w.extractLsb' 0 1 = 0x0#1 then .instr (.afadd64 (w.extractLsb' 17 6) (w.extractLsb' 11 6) (w.extractLsb' 5 6) (w.extractLsb' 3 2) (w.extractLsb' 1 2)) else .reject .nonZeroField
  | 0xc#5 => if w.extractLsb' 17 6 = 0x0#6 ∧ w.extractLsb' 0 1 = 0x0#1 then .instr (.barinit (w.extractLsb' 11 6) (w.extractLsb' 5 6) (w.extractLsb' 3 2) (w.extractLsb' 1 2)) else .reject .nonZeroField
  | 0xd#5 => if w.extractLsb' 5 6 = 0x0#6 ∧ w.extractLsb' 0 1 = 0x0#1 then .instr (.barrive (w.extractLsb' 17 6) (w.extractLsb' 11 6) (w.extractLsb' 3 2) (w.extractLsb' 1 2)) else if w.extractLsb' 5 6 = 0x0#6 ∧ w.extractLsb' 0 1 = 0x1#1 then .instr (.barriveJoin (w.extractLsb' 17 6) (w.extractLsb' 11 6) (w.extractLsb' 3 2) (w.extractLsb' 1 2)) else .reject .nonZeroField
  | 0xe#5 => if w.extractLsb' 0 1 = 0x0#1 then .instr (.barwait (w.extractLsb' 17 6) (w.extractLsb' 11 6) (w.extractLsb' 5 6) (w.extractLsb' 3 2) (w.extractLsb' 1 2)) else .reject .nonZeroField
  | 0xf#5 => if w.extractLsb' 5 6 = 0x0#6 ∧ w.extractLsb' 0 1 = 0x0#1 then .instr (.baraw (w.extractLsb' 17 6) (w.extractLsb' 11 6) (w.extractLsb' 3 2) (w.extractLsb' 1 2)) else .reject .nonZeroField
  | 0x10#5 => if w.extractLsb' 5 18 = 0x0#18 ∧ w.extractLsb' 0 1 = 0x0#1 then .instr (.fence (w.extractLsb' 3 2) (w.extractLsb' 1 2)) else .reject .nonZeroField
  | 0x11#5 => .instr (.ared (w.extractLsb' 17 6) (w.extractLsb' 11 6) (w.extractLsb' 5 6) (w.extractLsb' 3 2) (w.extractLsb' 1 2) (w.extractLsb' 0 1))
  | 0x12#5 => if w.extractLsb' 5 6 = 0x0#6 ∧ w.extractLsb' 0 1 = 0x0#1 then .instr (.syncq (w.extractLsb' 17 6) (w.extractLsb' 11 6) (w.extractLsb' 3 2) (w.extractLsb' 1 2)) else .reject .nonZeroField
  | _ => .reject .reservedOpcode

/-- Class 0xc, K.SYS: the opcode field selects the row; a fixed field that does not hold its value is refused. -/
def decodeKSys (w : SlotWord) : Decoded :=
  match w.extractLsb' 22 6 with
  | 0x0#6 => if w.extractLsb' 10 6 = 0x0#6 then .instr (.csrr (w.extractLsb' 16 6) (w.extractLsb' 0 10)) else .reject .nonZeroField
  | 0x1#6 => .instr (.csrw (w.extractLsb' 16 6) (w.extractLsb' 10 6) (w.extractLsb' 0 10))
  | 0x2#6 => .instr (.csrs (w.extractLsb' 16 6) (w.extractLsb' 10 6) (w.extractLsb' 0 10))
  | 0x3#6 => .instr (.csrc (w.extractLsb' 16 6) (w.extractLsb' 10 6) (w.extractLsb' 0 10))
  | 0x4#6 => if w.extractLsb' 16 6 = 0x0#6 ∧ w.extractLsb' 8 2 = 0x0#2 then .instr (.talloc (w.extractLsb' 10 6) (w.extractLsb' 0 8)) else .reject .nonZeroField
  | 0x5#6 => if w.extractLsb' 8 14 = 0x0#14 then .instr (.tfree (w.extractLsb' 0 8)) else .reject .nonZeroField
  | 0x6#6 => if w.extractLsb' 16 6 = 0x0#6 ∧ w.extractLsb' 2 8 = 0x0#8 then .instr (.bankacq (w.extractLsb' 10 6) (w.extractLsb' 0 2)) else .reject .nonZeroField
  | 0x7#6 => if w.extractLsb' 16 6 = 0x0#6 ∧ w.extractLsb' 2 8 = 0x0#8 then .instr (.bankrel (w.extractLsb' 10 6) (w.extractLsb' 0 2)) else .reject .nonZeroField
  | 0x8#6 => if w.extractLsb' 16 6 = 0x0#6 then .instr (.ringadv (w.extractLsb' 10 6) (w.extractLsb' 9 1) (w.extractLsb' 0 9)) else .reject .nonZeroField
  | 0x9#6 => if w.extractLsb' 0 10 = 0x0#10 then .instr (.ringcnt (w.extractLsb' 16 6) (w.extractLsb' 10 6)) else .reject .nonZeroField
  | 0xa#6 => if w.extractLsb' 16 6 = 0x0#6 ∧ w.extractLsb' 6 4 = 0x0#4 then .instr (.stgw (w.extractLsb' 10 6) (w.extractLsb' 4 2) (w.extractLsb' 0 4)) else .reject .nonZeroField
  | 0xb#6 => if w.extractLsb' 6 10 = 0x0#10 then .instr (.stgr (w.extractLsb' 16 6) (w.extractLsb' 4 2) (w.extractLsb' 0 4)) else .reject .nonZeroField
  | 0xc#6 => if w.extractLsb' 16 6 = 0x0#6 ∧ w.extractLsb' 2 8 = 0x1#8 then .instr (.valsetArr (w.extractLsb' 10 6) (w.extractLsb' 0 2)) else if w.extractLsb' 2 1 = 0x0#1 then .instr (.valset (w.extractLsb' 16 6) (w.extractLsb' 10 6) (w.extractLsb' 5 5) (w.extractLsb' 4 1) (w.extractLsb' 3 1) (w.extractLsb' 0 2)) else .reject .nonZeroField
  | 0xd#6 => if w.extractLsb' 2 8 = 0x0#8 then .instr (.frd (w.extractLsb' 16 6) (w.extractLsb' 10 6) (w.extractLsb' 0 2)) else .reject .nonZeroField
  | 0xe#6 => if w.extractLsb' 2 8 = 0x0#8 then .instr (.fwr (w.extractLsb' 16 6) (w.extractLsb' 10 6) (w.extractLsb' 0 2)) else .reject .nonZeroField
  | 0xf#6 => if w.extractLsb' 2 14 = 0x0#14 then .instr (.fresume (w.extractLsb' 16 6) (w.extractLsb' 0 2)) else .reject .nonZeroField
  | 0x10#6 => if w.extractLsb' 2 20 = 0x0#20 then .instr (.fkill (w.extractLsb' 0 2)) else .reject .nonZeroField
  | 0x11#6 => if w.extractLsb' 6 4 = 0x0#4 then .instr (.farrive (w.extractLsb' 16 6) (w.extractLsb' 10 6) (w.extractLsb' 4 2) (w.extractLsb' 2 2) (w.extractLsb' 0 2)) else .reject .nonZeroField
  | 0x12#6 => if w.extractLsb' 2 14 = 0x0#14 then .instr (.fnext (w.extractLsb' 16 6) (w.extractLsb' 0 2)) else .reject .nonZeroField
  | 0x13#6 => if w.extractLsb' 2 14 = 0x0#14 then .instr (.fstep (w.extractLsb' 16 6) (w.extractLsb' 0 2)) else .reject .nonZeroField
  | 0x14#6 => if w.extractLsb' 0 22 = 0x0#22 then .instr (.curtdone) else .reject .nonZeroField
  | 0x15#6 => if w.extractLsb' 0 10 = 0x0#10 then .instr (.rbseed (w.extractLsb' 16 6) (w.extractLsb' 10 6)) else .reject .nonZeroField
  | 0x16#6 => if w.extractLsb' 16 6 = 0x0#6 then .instr (.repmark (w.extractLsb' 10 6) (w.extractLsb' 0 10)) else .reject .nonZeroField
  | 0x17#6 => if w.extractLsb' 2 20 = 0x0#20 then .instr (.l1flush (w.extractLsb' 0 2)) else .reject .nonZeroField
  | 0x18#6 => if w.extractLsb' 2 20 = 0x0#20 then .instr (.l1inv (w.extractLsb' 0 2)) else .reject .nonZeroField
  | 0x19#6 => if w.extractLsb' 0 16 = 0x0#16 then .instr (.tlbiAll (w.extractLsb' 16 6)) else if w.extractLsb' 0 10 = 0x1#10 then .instr (.tlbiRange (w.extractLsb' 16 6) (w.extractLsb' 10 6)) else .reject .nonZeroField
  | 0x1a#6 => if w.extractLsb' 2 20 = 0x0#20 then .instr (.capdrop (w.extractLsb' 0 2)) else .reject .nonZeroField
  | _ => .reject .reservedOpcode
/-- A slot by its class, bits [31:28] (R31). -/
def decodeSlot (w : SlotWord) : Decoded :=
  match w.extractLsb' 28 4 with
  | 0x0#4 => decodeSRR w
  | 0x1#4 => decodeSRI w
  | 0x2#4 => decodeSMem w
  | 0x3#4 => decodeSCtl w
  | 0x4#4 => decodeVFp w
  | 0x5#4 => decodeVFp64 w
  | 0x6#4 => decodeVInt w
  | 0x7#4 => decodeVXfer w
  | 0x8#4 => decodeACmd w
  | 0x9#4 => decodeACfg w
  | 0xA#4 => decodeCCmd w
  | 0xB#4 => decodeYSync w
  | 0xC#4 => decodeKSys w
  | 0xD#4 => .reject .reservedClass
  | 0xE#4 => .header w
  | _ => if w = 0xF0000000#32 then .instr .nop else .reject .badNop

/-- A 32-bit word from its four bytes, lowest address first (R4). -/
def wordOfBytes (b0 b1 b2 b3 : Byte) : SlotWord := b3 ++ b2 ++ b1 ++ b0

/-- The four bytes of a slot, lowest address first (R4). -/
def bytesOfWord (w : SlotWord) : List Byte :=
  [w.extractLsb' 0 8, w.extractLsb' 8 8, w.extractLsb' 16 8, w.extractLsb' 24 8]

/-- The first slot of a byte sequence and the bytes after it. -/
def decodeBytes : List Byte → Option (Decoded × List Byte)
  | b0 :: b1 :: b2 :: b3 :: rest => some (decodeSlot (wordOfBytes b0 b1 b2 b3), rest)
  | _ => none

/-- The four slots of a bundle from its sixteen bytes, slot n at byte 4n (R30). -/
def slotsOfBytes : List Byte → List SlotWord
  | b0 :: b1 :: b2 :: b3 :: rest => wordOfBytes b0 b1 b2 b3 :: slotsOfBytes rest
  | _ => []

/-- The bits of a header slot (R37). -/
structure Header where
  stall : BitVec 3
  cpt : Bool
  lend1 : BitVec 8
  lend2 : BitVec 8
  lend3 : BitVec 8
  deriving DecidableEq, Repr

/-- A header slot's fields (R37). -/
def headerOf (w : SlotWord) : Header :=
  ⟨w.extractLsb' 25 3, w.getLsbD 24, w.extractLsb' 16 8, w.extractLsb' 8 8, w.extractLsb' 0 8⟩

/-- The class of a slot. -/
def slotClass (w : SlotWord) : Nat := (w.extractLsb' 28 4).toNat

/-- Slots of a bundle that consume each resource of R31: S, V, A and C. -/
def usesS (w : SlotWord) : Bool := [0, 1, 2, 3, 0xB, 0xC].contains (slotClass w)
def usesV (w : SlotWord) : Bool := [4, 5, 6, 7].contains (slotClass w)
def usesA (w : SlotWord) : Bool := [8, 9].contains (slotClass w)
def usesC (w : SlotWord) : Bool := slotClass w == 0xA

/-- The lend byte that a header lends to slot n. -/
def Header.lend (h : Header) : Nat → BitVec 8
  | 1 => h.lend1
  | 2 => h.lend2
  | 3 => h.lend3
  | _ => 0

/-- The header of a bundle, when slot 0 is of class 0xE. -/
def bundleHeader : List SlotWord → Option Header
  | w :: _ => if slotClass w = 0xE then some (headerOf w) else none
  | [] => none

/-- The slots of a bundle that hold operations, with their numbers: all four, or slots 1 to 3 behind a header. -/
def bundleOps (ws : List SlotWord) : List (Nat × SlotWord) :=
  let nw := [0, 1, 2, 3].zip ws
  if (bundleHeader ws).isSome then nw.drop 1 else nw

/-- R32: a well-formed bundle. -/
def bundleWellFormed (ws : List SlotWord) : Bool :=
  let ops := (bundleOps ws).map Prod.snd
  let cs := ops.filter usesC
  decide ((ops.filter usesS).length ≤ 1) && decide ((ops.filter usesV).length ≤ 2)
    && decide ((ops.filter usesA).length ≤ 1) && decide (cs.length ≤ 2)
    && (match cs with
        | [a, b] => a.getLsbD 27 != b.getLsbD 27
        | _ => true)
    && ops.all (fun w => slotClass w != 0xD)
    && ops.all (fun w => slotClass w != 0xF || w == 0xF0000000#32)
    && ops.all (fun w => slotClass w != 0xE)
    && (match bundleHeader ws with
        | some h => (bundleOps ws).all (fun nw => slotClass nw.2 != 0xF || h.lend nw.1 == 0)
        | none => true)

/-- The 32-bit word of a slot instruction, its fields placed as the encoding tables give them (R42 to R57).  An event
has no word; it is given one of the reserved class 0xD, which no decoder accepts. -/
def encode : Instr → SlotWord
  | .add d a b g i => BitVec.cast (by decide) (0x0#4 ++ 0x0#6 ++ d ++ a ++ b ++ g ++ i)
  | .sub d a b g i => BitVec.cast (by decide) (0x0#4 ++ 0x1#6 ++ d ++ a ++ b ++ g ++ i)
  | .and d a b g i => BitVec.cast (by decide) (0x0#4 ++ 0x2#6 ++ d ++ a ++ b ++ g ++ i)
  | .or d a b g i => BitVec.cast (by decide) (0x0#4 ++ 0x3#6 ++ d ++ a ++ b ++ g ++ i)
  | .xor d a b g i => BitVec.cast (by decide) (0x0#4 ++ 0x4#6 ++ d ++ a ++ b ++ g ++ i)
  | .andn d a b g i => BitVec.cast (by decide) (0x0#4 ++ 0x5#6 ++ d ++ a ++ b ++ g ++ i)
  | .shl d a b g i => BitVec.cast (by decide) (0x0#4 ++ 0x6#6 ++ d ++ a ++ b ++ g ++ i)
  | .shr d a b g i => BitVec.cast (by decide) (0x0#4 ++ 0x7#6 ++ d ++ a ++ b ++ g ++ i)
  | .sar d a b g i => BitVec.cast (by decide) (0x0#4 ++ 0x8#6 ++ d ++ a ++ b ++ g ++ i)
  | .rol d a b g i => BitVec.cast (by decide) (0x0#4 ++ 0x9#6 ++ d ++ a ++ b ++ g ++ i)
  | .mul d a b g i => BitVec.cast (by decide) (0x0#4 ++ 0xa#6 ++ d ++ a ++ b ++ g ++ i)
  | .mulhs d a b g i => BitVec.cast (by decide) (0x0#4 ++ 0xb#6 ++ d ++ a ++ b ++ g ++ i)
  | .mulhu d a b g i => BitVec.cast (by decide) (0x0#4 ++ 0xc#6 ++ d ++ a ++ b ++ g ++ i)
  | .divs d a b g i => BitVec.cast (by decide) (0x0#4 ++ 0xd#6 ++ d ++ a ++ b ++ g ++ i)
  | .divu d a b g i => BitVec.cast (by decide) (0x0#4 ++ 0xe#6 ++ d ++ a ++ b ++ g ++ i)
  | .rems d a b g i => BitVec.cast (by decide) (0x0#4 ++ 0xf#6 ++ d ++ a ++ b ++ g ++ i)
  | .remu d a b g i => BitVec.cast (by decide) (0x0#4 ++ 0x10#6 ++ d ++ a ++ b ++ g ++ i)
  | .mins d a b g i => BitVec.cast (by decide) (0x0#4 ++ 0x11#6 ++ d ++ a ++ b ++ g ++ i)
  | .minu d a b g i => BitVec.cast (by decide) (0x0#4 ++ 0x12#6 ++ d ++ a ++ b ++ g ++ i)
  | .maxs d a b g i => BitVec.cast (by decide) (0x0#4 ++ 0x13#6 ++ d ++ a ++ b ++ g ++ i)
  | .maxu d a b g i => BitVec.cast (by decide) (0x0#4 ++ 0x14#6 ++ d ++ a ++ b ++ g ++ i)
  | .clz d a g i => BitVec.cast (by decide) (0x0#4 ++ 0x15#6 ++ d ++ a ++ 0x0#6 ++ g ++ i)
  | .ctz d a g i => BitVec.cast (by decide) (0x0#4 ++ 0x16#6 ++ d ++ a ++ 0x0#6 ++ g ++ i)
  | .popc d a g i => BitVec.cast (by decide) (0x0#4 ++ 0x17#6 ++ d ++ a ++ 0x0#6 ++ g ++ i)
  | .brev d a g i => BitVec.cast (by decide) (0x0#4 ++ 0x18#6 ++ d ++ a ++ 0x0#6 ++ g ++ i)
  | .bswap d a g i => BitVec.cast (by decide) (0x0#4 ++ 0x19#6 ++ d ++ a ++ 0x0#6 ++ g ++ i)
  | .sext d a b g i => BitVec.cast (by decide) (0x0#4 ++ 0x1a#6 ++ d ++ a ++ b ++ g ++ i)
  | .zext d a b g i => BitVec.cast (by decide) (0x0#4 ++ 0x1b#6 ++ d ++ a ++ b ++ g ++ i)
  | .sel d a b p n => BitVec.cast (by decide) (0x0#4 ++ 0x1c#6 ++ d ++ a ++ b ++ p ++ n)
  | .addw d a b g i => BitVec.cast (by decide) (0x0#4 ++ 0x1d#6 ++ d ++ a ++ b ++ g ++ i)
  | .subw d a b g i => BitVec.cast (by decide) (0x0#4 ++ 0x1e#6 ++ d ++ a ++ b ++ g ++ i)
  | .mulw d a b g i => BitVec.cast (by decide) (0x0#4 ++ 0x1f#6 ++ d ++ a ++ b ++ g ++ i)
  | .cmpeq p a b g i => BitVec.cast (by decide) (0x0#4 ++ 0x20#6 ++ 0x0#3 ++ p ++ a ++ b ++ g ++ i)
  | .cmpne p a b g i => BitVec.cast (by decide) (0x0#4 ++ 0x21#6 ++ 0x0#3 ++ p ++ a ++ b ++ g ++ i)
  | .cmplts p a b g i => BitVec.cast (by decide) (0x0#4 ++ 0x22#6 ++ 0x0#3 ++ p ++ a ++ b ++ g ++ i)
  | .cmpltu p a b g i => BitVec.cast (by decide) (0x0#4 ++ 0x23#6 ++ 0x0#3 ++ p ++ a ++ b ++ g ++ i)
  | .cmples p a b g i => BitVec.cast (by decide) (0x0#4 ++ 0x24#6 ++ 0x0#3 ++ p ++ a ++ b ++ g ++ i)
  | .cmpleu p a b g i => BitVec.cast (by decide) (0x0#4 ++ 0x25#6 ++ 0x0#3 ++ p ++ a ++ b ++ g ++ i)
  | .pand p a b g i => BitVec.cast (by decide) (0x0#4 ++ 0x26#6 ++ 0x0#3 ++ p ++ a ++ b ++ g ++ i)
  | .por p a b g i => BitVec.cast (by decide) (0x0#4 ++ 0x27#6 ++ 0x0#3 ++ p ++ a ++ b ++ g ++ i)
  | .pxor p a b g i => BitVec.cast (by decide) (0x0#4 ++ 0x28#6 ++ 0x0#3 ++ p ++ a ++ b ++ g ++ i)
  | .pnot p a g i => BitVec.cast (by decide) (0x0#4 ++ 0x29#6 ++ 0x0#3 ++ p ++ a ++ 0x0#6 ++ g ++ i)
  | .movp d g i => BitVec.cast (by decide) (0x0#4 ++ 0x2a#6 ++ d ++ 0x0#12 ++ g ++ i)
  | .movtp a g i => BitVec.cast (by decide) (0x0#4 ++ 0x2b#6 ++ 0x0#6 ++ a ++ 0x0#6 ++ g ++ i)
  | .addi d a i => BitVec.cast (by decide) (0x1#4 ++ 0x0#6 ++ d ++ a ++ i)
  | .andi d a i => BitVec.cast (by decide) (0x1#4 ++ 0x1#6 ++ d ++ a ++ i)
  | .ori d a i => BitVec.cast (by decide) (0x1#4 ++ 0x2#6 ++ d ++ a ++ i)
  | .xori d a i => BitVec.cast (by decide) (0x1#4 ++ 0x3#6 ++ d ++ a ++ i)
  | .shli d a i => BitVec.cast (by decide) (0x1#4 ++ 0x4#6 ++ d ++ a ++ i)
  | .shri d a i => BitVec.cast (by decide) (0x1#4 ++ 0x5#6 ++ d ++ a ++ i)
  | .sari d a i => BitVec.cast (by decide) (0x1#4 ++ 0x6#6 ++ d ++ a ++ i)
  | .muli d a i => BitVec.cast (by decide) (0x1#4 ++ 0x7#6 ++ d ++ a ++ i)
  | .li d i => BitVec.cast (by decide) (0x1#4 ++ 0x8#6 ++ d ++ 0x0#6 ++ i)
  | .lix d a i => BitVec.cast (by decide) (0x1#4 ++ 0x9#6 ++ d ++ a ++ i)
  | .cmpeqi p a i => BitVec.cast (by decide) (0x1#4 ++ 0xa#6 ++ 0x0#3 ++ p ++ a ++ i)
  | .cmpltsi p a i => BitVec.cast (by decide) (0x1#4 ++ 0xb#6 ++ 0x0#3 ++ p ++ a ++ i)
  | .cmpltui p a i => BitVec.cast (by decide) (0x1#4 ++ 0xc#6 ++ 0x0#3 ++ p ++ a ++ i)
  | .ldb d b w o => BitVec.cast (by decide) (0x2#4 ++ 0x0#4 ++ d ++ b ++ w ++ o)
  | .ldbu d b w o => BitVec.cast (by decide) (0x2#4 ++ 0x1#4 ++ d ++ b ++ w ++ o)
  | .ldh d b w o => BitVec.cast (by decide) (0x2#4 ++ 0x2#4 ++ d ++ b ++ w ++ o)
  | .ldhu d b w o => BitVec.cast (by decide) (0x2#4 ++ 0x3#4 ++ d ++ b ++ w ++ o)
  | .ldw d b w o => BitVec.cast (by decide) (0x2#4 ++ 0x4#4 ++ d ++ b ++ w ++ o)
  | .ldwu d b w o => BitVec.cast (by decide) (0x2#4 ++ 0x5#4 ++ d ++ b ++ w ++ o)
  | .ldd d b w o => BitVec.cast (by decide) (0x2#4 ++ 0x6#4 ++ d ++ b ++ w ++ o)
  | .stb s b w o => BitVec.cast (by decide) (0x2#4 ++ 0x7#4 ++ s ++ b ++ w ++ o)
  | .sth s b w o => BitVec.cast (by decide) (0x2#4 ++ 0x8#4 ++ s ++ b ++ w ++ o)
  | .stw s b w o => BitVec.cast (by decide) (0x2#4 ++ 0x9#4 ++ s ++ b ++ w ++ o)
  | .std s b w o => BitVec.cast (by decide) (0x2#4 ++ 0xa#4 ++ s ++ b ++ w ++ o)
  | .ldro d b w o => BitVec.cast (by decide) (0x2#4 ++ 0xb#4 ++ d ++ b ++ w ++ o)
  | .ldacq d b w c o => BitVec.cast (by decide) (0x2#4 ++ 0xc#4 ++ d ++ b ++ w ++ c ++ o)
  | .strel s b w c o => BitVec.cast (by decide) (0x2#4 ++ 0xd#4 ++ s ++ b ++ w ++ c ++ o)
  | .pfl2 b w o => BitVec.cast (by decide) (0x2#4 ++ 0xe#4 ++ 0x0#6 ++ b ++ w ++ o)
  | .br p i d => BitVec.cast (by decide) (0x3#4 ++ 0x0#4 ++ p ++ i ++ d)
  | .brn p i d => BitVec.cast (by decide) (0x3#4 ++ 0x1#4 ++ p ++ i ++ d)
  | .call p i d => BitVec.cast (by decide) (0x3#4 ++ 0x2#4 ++ p ++ i ++ d)
  | .jr p i t => BitVec.cast (by decide) (0x3#4 ++ 0x3#4 ++ p ++ i ++ t ++ 0x0#14)
  | .callr p i t => BitVec.cast (by decide) (0x3#4 ++ 0x4#4 ++ p ++ i ++ t ++ 0x0#14)
  | .loop l c n => BitVec.cast (by decide) (0x3#4 ++ 0x5#4 ++ 0x0#4 ++ l ++ c ++ n)
  | .loopi l c n => BitVec.cast (by decide) (0x3#4 ++ 0x6#4 ++ 0x0#4 ++ l ++ c ++ n)
  | .endseg => BitVec.cast (by decide) (0x3#4 ++ 0x7#4 ++ 0x0#24)
  | .halt => BitVec.cast (by decide) (0x3#4 ++ 0x8#4 ++ 0x0#24)
  | .stgp p => BitVec.cast (by decide) (0x3#4 ++ 0x9#4 ++ 0x0#4 ++ p ++ 0x0#12)
  | .trap p i c => BitVec.cast (by decide) (0x3#4 ++ 0xa#4 ++ p ++ i ++ c ++ 0x0#12)
  | .brk t => BitVec.cast (by decide) (0x3#4 ++ 0xb#4 ++ 0x0#4 ++ t)
  | .nops n => BitVec.cast (by decide) (0x3#4 ++ 0xc#4 ++ 0x0#4 ++ n)
  | .nop => BitVec.cast (by decide) (0xf#4 ++ 0x0#28)
  | .vadd d a b => BitVec.cast (by decide) (0x4#4 ++ 0x0#4 ++ d ++ a ++ b)
  | .vsub d a b => BitVec.cast (by decide) (0x4#4 ++ 0x1#4 ++ d ++ a ++ b)
  | .vmul d a b => BitVec.cast (by decide) (0x4#4 ++ 0x2#4 ++ d ++ a ++ b)
  | .vfma d a b => BitVec.cast (by decide) (0x4#4 ++ 0x3#4 ++ d ++ a ++ b)
  | .vfms d a b => BitVec.cast (by decide) (0x4#4 ++ 0x4#4 ++ d ++ a ++ b)
  | .vdiv d a b => BitVec.cast (by decide) (0x4#4 ++ 0x5#4 ++ d ++ a ++ b)
  | .vsqrt d a => BitVec.cast (by decide) (0x4#4 ++ 0x6#4 ++ d ++ a ++ 0x0#8)
  | .vmin d a b => BitVec.cast (by decide) (0x4#4 ++ 0x7#4 ++ d ++ a ++ b)
  | .vmax d a b => BitVec.cast (by decide) (0x4#4 ++ 0x8#4 ++ d ++ a ++ b)
  | .vcmpeq d a b => BitVec.cast (by decide) (0x4#4 ++ 0x9#4 ++ d ++ a ++ b)
  | .vcmplt d a b => BitVec.cast (by decide) (0x4#4 ++ 0xa#4 ++ d ++ a ++ b)
  | .vcmple d a b => BitVec.cast (by decide) (0x4#4 ++ 0xb#4 ++ d ++ a ++ b)
  | .vabs d a => BitVec.cast (by decide) (0x4#4 ++ 0xc#4 ++ d ++ a ++ 0x0#8)
  | .vneg d a => BitVec.cast (by decide) (0x4#4 ++ 0xd#4 ++ d ++ a ++ 0x0#8)
  | .vsel d a b => BitVec.cast (by decide) (0x4#4 ++ 0xe#4 ++ d ++ a ++ b)
  | .vclass d a => BitVec.cast (by decide) (0x4#4 ++ 0xf#4 ++ d ++ a ++ 0x0#8)
  | .vaddF64 d a b => BitVec.cast (by decide) (0x5#4 ++ 0x0#4 ++ d ++ a ++ b)
  | .vsubF64 d a b => BitVec.cast (by decide) (0x5#4 ++ 0x1#4 ++ d ++ a ++ b)
  | .vmulF64 d a b => BitVec.cast (by decide) (0x5#4 ++ 0x2#4 ++ d ++ a ++ b)
  | .vfmaF64 d a b => BitVec.cast (by decide) (0x5#4 ++ 0x3#4 ++ d ++ a ++ b)
  | .vfmsF64 d a b => BitVec.cast (by decide) (0x5#4 ++ 0x4#4 ++ d ++ a ++ b)
  | .vdivF64 d a b => BitVec.cast (by decide) (0x5#4 ++ 0x5#4 ++ d ++ a ++ b)
  | .vsqrtF64 d a => BitVec.cast (by decide) (0x5#4 ++ 0x6#4 ++ d ++ a ++ 0x0#8)
  | .vminF64 d a b => BitVec.cast (by decide) (0x5#4 ++ 0x7#4 ++ d ++ a ++ b)
  | .vmaxF64 d a b => BitVec.cast (by decide) (0x5#4 ++ 0x8#4 ++ d ++ a ++ b)
  | .vcmpeqF64 d a b => BitVec.cast (by decide) (0x5#4 ++ 0x9#4 ++ d ++ a ++ b)
  | .vcmpltF64 d a b => BitVec.cast (by decide) (0x5#4 ++ 0xa#4 ++ d ++ a ++ b)
  | .vcmpleF64 d a b => BitVec.cast (by decide) (0x5#4 ++ 0xb#4 ++ d ++ a ++ b)
  | .vabsF64 d a => BitVec.cast (by decide) (0x5#4 ++ 0xc#4 ++ d ++ a ++ 0x0#8)
  | .vnegF64 d a => BitVec.cast (by decide) (0x5#4 ++ 0xd#4 ++ d ++ a ++ 0x0#8)
  | .vselF64 d a b => BitVec.cast (by decide) (0x5#4 ++ 0xe#4 ++ d ++ a ++ b)
  | .vclassF64 d a => BitVec.cast (by decide) (0x5#4 ++ 0xf#4 ++ d ++ a ++ 0x0#8)
  | .viadd d a b => BitVec.cast (by decide) (0x6#4 ++ 0x0#4 ++ d ++ a ++ b)
  | .visub d a b => BitVec.cast (by decide) (0x6#4 ++ 0x1#4 ++ d ++ a ++ b)
  | .vimul d a b => BitVec.cast (by decide) (0x6#4 ++ 0x2#4 ++ d ++ a ++ b)
  | .vimad d a b => BitVec.cast (by decide) (0x6#4 ++ 0x3#4 ++ d ++ a ++ b)
  | .vand d a b => BitVec.cast (by decide) (0x6#4 ++ 0x4#4 ++ d ++ a ++ b)
  | .vor d a b => BitVec.cast (by decide) (0x6#4 ++ 0x5#4 ++ d ++ a ++ b)
  | .vxor d a b => BitVec.cast (by decide) (0x6#4 ++ 0x6#4 ++ d ++ a ++ b)
  | .vshl d a b => BitVec.cast (by decide) (0x6#4 ++ 0x7#4 ++ d ++ a ++ b)
  | .vshr d a b => BitVec.cast (by decide) (0x6#4 ++ 0x8#4 ++ d ++ a ++ b)
  | .vsar d a b => BitVec.cast (by decide) (0x6#4 ++ 0x9#4 ++ d ++ a ++ b)
  | .vimin d a b => BitVec.cast (by decide) (0x6#4 ++ 0xa#4 ++ d ++ a ++ b)
  | .vimax d a b => BitVec.cast (by decide) (0x6#4 ++ 0xb#4 ++ d ++ a ++ b)
  | .vicmpeq d a b => BitVec.cast (by decide) (0x6#4 ++ 0xc#4 ++ d ++ a ++ b)
  | .vicmplt d a b => BitVec.cast (by decide) (0x6#4 ++ 0xd#4 ++ d ++ a ++ b)
  | .viadds d a b => BitVec.cast (by decide) (0x6#4 ++ 0xe#4 ++ d ++ a ++ b)
  | .vperm d a b => BitVec.cast (by decide) (0x6#4 ++ 0xf#4 ++ d ++ a ++ b)
  | .vmov d a => BitVec.cast (by decide) (0x7#4 ++ 0x0#4 ++ d ++ a ++ 0x0#8)
  | .vbcst d w => BitVec.cast (by decide) (0x7#4 ++ 0x1#4 ++ d ++ 0x0#8 ++ w)
  | .vcvt d a c => BitVec.cast (by decide) (0x7#4 ++ 0x2#4 ++ d ++ a ++ c)
  | .vtrans d a p f => BitVec.cast (by decide) (0x7#4 ++ 0x3#4 ++ d ++ a ++ 0x0#5 ++ p ++ f)
  | .vred d a c => BitVec.cast (by decide) (0x7#4 ++ 0x4#4 ++ d ++ a ++ 0x0#5 ++ c)
  | .vldt d a k => BitVec.cast (by decide) (0x7#4 ++ 0x5#4 ++ d ++ 0x0#2 ++ a ++ k)
  | .vstt s a k => BitVec.cast (by decide) (0x7#4 ++ 0x6#4 ++ s ++ 0x0#2 ++ a ++ k)
  | .vldg d a w o => BitVec.cast (by decide) (0x7#4 ++ 0x7#4 ++ d ++ 0x0#2 ++ a ++ w ++ o)
  | .vstg s a w o => BitVec.cast (by decide) (0x7#4 ++ 0x8#4 ++ s ++ 0x0#2 ++ a ++ w ++ o)
  | .vqrd d n => BitVec.cast (by decide) (0x7#4 ++ 0x9#4 ++ d ++ 0x0#13 ++ n)
  | .vpop d h => BitVec.cast (by decide) (0x7#4 ++ 0xa#4 ++ d ++ 0x0#2 ++ h ++ 0x0#8)
  | .vpush s h => BitVec.cast (by decide) (0x7#4 ++ 0xb#4 ++ s ++ 0x0#2 ++ h ++ 0x0#8)
  | .vext a m k => BitVec.cast (by decide) (0x7#4 ++ 0xc#4 ++ 0x0#8 ++ a ++ 0x0#2 ++ m ++ k)
  | .viota d i => BitVec.cast (by decide) (0x7#4 ++ 0xd#4 ++ d ++ 0x0#8 ++ i)
  | .vsplat d a p k => BitVec.cast (by decide) (0x7#4 ++ 0xe#4 ++ d ++ a ++ 0x0#3 ++ p ++ k)
  | .awld s => BitVec.cast (by decide) (0x8#4 ++ 0x0#4 ++ 0x0#23 ++ s)
  | .astrm o i e => BitVec.cast (by decide) (0x8#4 ++ 0x1#4 ++ 0x0#21 ++ o ++ i ++ e)
  | .aext n => BitVec.cast (by decide) (0x8#4 ++ 0x2#4 ++ 0x0#20 ++ n)
  | .achk s p => BitVec.cast (by decide) (0x8#4 ++ 0x3#4 ++ 0x0#20 ++ s ++ p)
  | .aout w => BitVec.cast (by decide) (0x8#4 ++ 0x4#4 ++ 0x0#23 ++ w)
  | .aclr k l g a => BitVec.cast (by decide) (0x8#4 ++ 0x5#4 ++ 0x0#20 ++ k ++ l ++ g ++ a)
  | .asnap s d => BitVec.cast (by decide) (0x8#4 ++ 0x6#4 ++ 0x0#16 ++ s ++ d)
  | .await k c => BitVec.cast (by decide) (0x8#4 ++ 0x7#4 ++ 0x0#15 ++ k ++ 0x0#2 ++ c)
  | .asetl k => BitVec.cast (by decide) (0x9#4 ++ 0x0#4 ++ 0x0#19 ++ k)
  | .aseed c r s => BitVec.cast (by decide) (0x9#4 ++ 0x1#4 ++ 0x0#6 ++ c ++ r ++ s)
  | .amode n s m => BitVec.cast (by decide) (0x9#4 ++ 0x2#4 ++ 0x0#20 ++ n ++ s ++ m)
  | .agen p => BitVec.cast (by decide) (0x9#4 ++ 0x3#4 ++ 0x0#22 ++ p)
  | .azone e a z => BitVec.cast (by decide) (0x9#4 ++ 0x4#4 ++ 0x0#8 ++ e ++ 0x0#4 ++ a ++ z)
  | .cpy e t b f k => BitVec.cast (by decide) (0xa#4 ++ e ++ 0x0#5 ++ t ++ b ++ f ++ 0x0#2 ++ k ++ 0x0#12)
  | .cpyo e t b f s => BitVec.cast (by decide) (0xa#4 ++ e ++ 0x1#5 ++ t ++ b ++ f ++ s ++ 0x0#14)
  | .cpyt e t b f => BitVec.cast (by decide) (0xa#4 ++ e ++ 0x2#5 ++ t ++ b ++ f ++ 0x5000#16)
  | .gath e t b f i => BitVec.cast (by decide) (0xa#4 ++ e ++ 0x3#5 ++ t ++ b ++ f ++ 0x10#8 ++ i)
  | .scat e t b f i => BitVec.cast (by decide) (0xa#4 ++ e ++ 0x4#5 ++ t ++ b ++ f ++ 0x40#8 ++ i)
  | .bpf e t => BitVec.cast (by decide) (0xa#4 ++ e ++ 0x5#5 ++ t ++ 0x0#18)
  | .qcvt e t b f s k => BitVec.cast (by decide) (0xa#4 ++ e ++ 0x6#5 ++ t ++ b ++ f ++ s ++ k ++ 0x0#12)
  | .dqcvt e t b f s k => BitVec.cast (by decide) (0xa#4 ++ e ++ 0x7#5 ++ t ++ b ++ f ++ s ++ k ++ 0x0#12)
  | .nmpk e t b f s k => BitVec.cast (by decide) (0xa#4 ++ e ++ 0x8#5 ++ t ++ b ++ f ++ s ++ k ++ 0x0#12)
  | .nmup e t b f s k => BitVec.cast (by decide) (0xa#4 ++ e ++ 0x9#5 ++ t ++ b ++ f ++ s ++ k ++ 0x0#12)
  | .publ e t b f x => BitVec.cast (by decide) (0xa#4 ++ e ++ 0xa#5 ++ t ++ b ++ f ++ 0x0#15 ++ x)
  | .qbnd e u d n => BitVec.cast (by decide) (0xa#4 ++ e ++ 0xb#5 ++ 0x0#17 ++ u ++ d ++ n)
  | .twait e m => BitVec.cast (by decide) (0xa#4 ++ e ++ 0xc#5 ++ 0x0#6 ++ m)
  | .cfol e t => BitVec.cast (by decide) (0xa#4 ++ e ++ 0xd#5 ++ t ++ 0x0#18)
  | .cabt e m => BitVec.cast (by decide) (0xa#4 ++ e ++ 0xe#5 ++ 0x0#6 ++ m)
  | .xpose e t b f s k eb => BitVec.cast (by decide) (0xa#4 ++ e ++ 0xf#5 ++ t ++ b ++ f ++ s ++ k ++ 0x0#10 ++ eb)
  | .aadd d a b c o w => BitVec.cast (by decide) (0xb#4 ++ 0x0#5 ++ d ++ a ++ b ++ c ++ o ++ w)
  | .aand d a b c o w => BitVec.cast (by decide) (0xb#4 ++ 0x1#5 ++ d ++ a ++ b ++ c ++ o ++ w)
  | .aor d a b c o w => BitVec.cast (by decide) (0xb#4 ++ 0x2#5 ++ d ++ a ++ b ++ c ++ o ++ w)
  | .axor d a b c o w => BitVec.cast (by decide) (0xb#4 ++ 0x3#5 ++ d ++ a ++ b ++ c ++ o ++ w)
  | .amins d a b c o w => BitVec.cast (by decide) (0xb#4 ++ 0x4#5 ++ d ++ a ++ b ++ c ++ o ++ w)
  | .aminu d a b c o w => BitVec.cast (by decide) (0xb#4 ++ 0x5#5 ++ d ++ a ++ b ++ c ++ o ++ w)
  | .amaxs d a b c o w => BitVec.cast (by decide) (0xb#4 ++ 0x6#5 ++ d ++ a ++ b ++ c ++ o ++ w)
  | .amaxu d a b c o w => BitVec.cast (by decide) (0xb#4 ++ 0x7#5 ++ d ++ a ++ b ++ c ++ o ++ w)
  | .axchg d a b c o w => BitVec.cast (by decide) (0xb#4 ++ 0x8#5 ++ d ++ a ++ b ++ c ++ o ++ w)
  | .acas d a b c o w => BitVec.cast (by decide) (0xb#4 ++ 0x9#5 ++ d ++ a ++ b ++ c ++ o ++ w)
  | .afadd32 d a b c o => BitVec.cast (by decide) (0xb#4 ++ 0xa#5 ++ d ++ a ++ b ++ c ++ o ++ 0x1#1)
  | .afadd64 d a b c o => BitVec.cast (by decide) (0xb#4 ++ 0xb#5 ++ d ++ a ++ b ++ c ++ o ++ 0x0#1)
  | .barinit a b c o => BitVec.cast (by decide) (0xb#4 ++ 0xc#5 ++ 0x0#6 ++ a ++ b ++ c ++ o ++ 0x0#1)
  | .barrive d a c o => BitVec.cast (by decide) (0xb#4 ++ 0xd#5 ++ d ++ a ++ 0x0#6 ++ c ++ o ++ 0x0#1)
  | .barriveJoin d a c o => BitVec.cast (by decide) (0xb#4 ++ 0xd#5 ++ d ++ a ++ 0x0#6 ++ c ++ o ++ 0x1#1)
  | .barwait d a b c o => BitVec.cast (by decide) (0xb#4 ++ 0xe#5 ++ d ++ a ++ b ++ c ++ o ++ 0x0#1)
  | .baraw d a c o => BitVec.cast (by decide) (0xb#4 ++ 0xf#5 ++ d ++ a ++ 0x0#6 ++ c ++ o ++ 0x0#1)
  | .fence c o => BitVec.cast (by decide) (0xb#4 ++ 0x10#5 ++ 0x0#18 ++ c ++ o ++ 0x0#1)
  | .ared n a b c o w => BitVec.cast (by decide) (0xb#4 ++ 0x11#5 ++ n ++ a ++ b ++ c ++ o ++ w)
  | .syncq d a c o => BitVec.cast (by decide) (0xb#4 ++ 0x12#5 ++ d ++ a ++ 0x0#6 ++ c ++ o ++ 0x0#1)
  | .csrr d c => BitVec.cast (by decide) (0xc#4 ++ 0x0#6 ++ d ++ 0x0#6 ++ c)
  | .csrw d a c => BitVec.cast (by decide) (0xc#4 ++ 0x1#6 ++ d ++ a ++ c)
  | .csrs d a c => BitVec.cast (by decide) (0xc#4 ++ 0x2#6 ++ d ++ a ++ c)
  | .csrc d a c => BitVec.cast (by decide) (0xc#4 ++ 0x3#6 ++ d ++ a ++ c)
  | .talloc a h => BitVec.cast (by decide) (0xc#4 ++ 0x4#6 ++ 0x0#6 ++ a ++ 0x0#2 ++ h)
  | .tfree h => BitVec.cast (by decide) (0xc#4 ++ 0x5#6 ++ 0x0#14 ++ h)
  | .bankacq a p => BitVec.cast (by decide) (0xc#4 ++ 0x6#6 ++ 0x0#6 ++ a ++ 0x0#8 ++ p)
  | .bankrel a p => BitVec.cast (by decide) (0xc#4 ++ 0x7#6 ++ 0x0#6 ++ a ++ 0x0#8 ++ p)
  | .ringadv a t n => BitVec.cast (by decide) (0xc#4 ++ 0x8#6 ++ 0x0#6 ++ a ++ t ++ n)
  | .ringcnt d a => BitVec.cast (by decide) (0xc#4 ++ 0x9#6 ++ d ++ a ++ 0x0#10)
  | .stgw a p r => BitVec.cast (by decide) (0xc#4 ++ 0xa#6 ++ 0x0#6 ++ a ++ 0x0#4 ++ p ++ r)
  | .stgr d p r => BitVec.cast (by decide) (0xc#4 ++ 0xb#6 ++ d ++ 0x0#10 ++ p ++ r)
  | .valsetArr b w => BitVec.cast (by decide) (0xc#4 ++ 0xc#6 ++ 0x0#6 ++ b ++ 0x1#8 ++ w)
  | .valset v b k n e w => BitVec.cast (by decide) (0xc#4 ++ 0xc#6 ++ v ++ b ++ k ++ n ++ e ++ 0x0#1 ++ w)
  | .frd d s k => BitVec.cast (by decide) (0xc#4 ++ 0xd#6 ++ d ++ s ++ 0x0#8 ++ k)
  | .fwr v s k => BitVec.cast (by decide) (0xc#4 ++ 0xe#6 ++ v ++ s ++ 0x0#8 ++ k)
  | .fresume d k => BitVec.cast (by decide) (0xc#4 ++ 0xf#6 ++ d ++ 0x0#14 ++ k)
  | .fkill k => BitVec.cast (by decide) (0xc#4 ++ 0x10#6 ++ 0x0#20 ++ k)
  | .farrive d a c w k => BitVec.cast (by decide) (0xc#4 ++ 0x11#6 ++ d ++ a ++ 0x0#4 ++ c ++ w ++ k)
  | .fnext d k => BitVec.cast (by decide) (0xc#4 ++ 0x12#6 ++ d ++ 0x0#14 ++ k)
  | .fstep d k => BitVec.cast (by decide) (0xc#4 ++ 0x13#6 ++ d ++ 0x0#14 ++ k)
  | .curtdone => BitVec.cast (by decide) (0xc#4 ++ 0x14#6 ++ 0x0#22)
  | .rbseed h l => BitVec.cast (by decide) (0xc#4 ++ 0x15#6 ++ h ++ l ++ 0x0#10)
  | .repmark a t => BitVec.cast (by decide) (0xc#4 ++ 0x16#6 ++ 0x0#6 ++ a ++ t)
  | .l1flush c => BitVec.cast (by decide) (0xc#4 ++ 0x17#6 ++ 0x0#20 ++ c)
  | .l1inv c => BitVec.cast (by decide) (0xc#4 ++ 0x18#6 ++ 0x0#20 ++ c)
  | .tlbiAll d => BitVec.cast (by decide) (0xc#4 ++ 0x19#6 ++ d ++ 0x0#16)
  | .tlbiRange d a => BitVec.cast (by decide) (0xc#4 ++ 0x19#6 ++ d ++ a ++ 0x1#10)
  | .capdrop k => BitVec.cast (by decide) (0xc#4 ++ 0x1a#6 ++ 0x0#20 ++ k)
  | .fwrAdvance _ => 0xD0000000#32
  | .fwrAbandonCommand _ _ _ => 0xD0000000#32
  | .fwrCancelPending _ _ => 0xD0000000#32
  | .annulledBundleIssue _ => 0xD0000000#32
  | .pendingWriteVisible _ _ => 0xD0000000#32
  | .loadDataArrival _ _ => 0xD0000000#32
  | .holdLineRaise _ => 0xD0000000#32
  | .afterIssueFreeze _ => 0xD0000000#32
  | .dieLostFreeze _ _ => 0xD0000000#32
  | .prompterFaultPolicy _ => 0xD0000000#32
  | .restartableReexecution _ _ => 0xD0000000#32
  | .preemptionRequest _ => 0xD0000000#32
  | .preemptPark _ => 0xD0000000#32
  | .segmentSwitch _ => 0xD0000000#32
  | .unitStart _ => 0xD0000000#32
  | .wingsLoad _ _ => 0xD0000000#32
  | .wingsSwap _ => 0xD0000000#32
  | .weightClearDone _ => 0xD0000000#32
  | .rbStep _ => 0xD0000000#32
  | .l1OpComplete _ => 0xD0000000#32
  | .copyCommandStart _ _ => 0xD0000000#32
  | .copyCommandComplete _ _ => 0xD0000000#32
  | .streamSlabTransfer _ _ => 0xD0000000#32
  | .copyEngineFault _ _ _ _ => 0xD0000000#32
  | .publCount _ _ => 0xD0000000#32
  | .flipNotice _ _ => 0xD0000000#32
  | .flipNoticeAck _ _ => 0xD0000000#32
  | .valsetPerform _ => 0xD0000000#32
  | .arrayCommandStart _ => 0xD0000000#32
  | .awldComplete _ => 0xD0000000#32
  | .vectorLatch _ => 0xD0000000#32
  | .checkpointCopy _ => 0xD0000000#32
  | .emitPublish _ => 0xD0000000#32
  | .aoutPublish _ => 0xD0000000#32
  | .aclrComplete _ => 0xD0000000#32
  | .chainPartialSums _ => 0xD0000000#32
  | .chainEnd _ => 0xD0000000#32
  | .streamPoison _ _ _ _ => 0xD0000000#32
  | .syncEngineOperation _ => 0xD0000000#32
  | .syncReply _ => 0xD0000000#32
  | .retryReceived _ => 0xD0000000#32
  | .pageMigration _ _ _ => 0xD0000000#32
  | .bufferRegistration _ _ _ _ _ => 0xD0000000#32
  | .gets _ _ => 0xD0000000#32
  | .getm _ _ => 0xD0000000#32
  | .upg _ _ => 0xD0000000#32
  | .putm _ _ => 0xD0000000#32
  | .puto _ _ => 0xD0000000#32
  | .pute _ _ => 0xD0000000#32
  | .puts _ _ => 0xD0000000#32
  | .dataS _ _ => 0xD0000000#32
  | .dataE _ _ => 0xD0000000#32
  | .dataM _ _ => 0xD0000000#32
  | .datanf _ _ => 0xD0000000#32
  | .upgack _ _ => 0xD0000000#32
  | .inv _ _ => 0xD0000000#32
  | .fwdgets _ _ => 0xD0000000#32
  | .fwdgetsnf _ _ => 0xD0000000#32
  | .fwdgetm _ _ => 0xD0000000#32
  | .fwddata _ _ => 0xD0000000#32
  | .invack _ _ => 0xD0000000#32
  | .fwdack _ _ => 0xD0000000#32
  | .putack _ _ => 0xD0000000#32
  | .putackstale _ _ => 0xD0000000#32
  | .push _ _ => 0xD0000000#32
  | .rdset _ _ => 0xD0000000#32
  | .rdinv _ _ => 0xD0000000#32
  | .rdack _ _ => 0xD0000000#32
  | .memoryFill _ => 0xD0000000#32
  | .redirectedRead _ _ => 0xD0000000#32
  | .circuitSend _ => 0xD0000000#32
  | .snoopTimerExpiry _ => 0xD0000000#32
  | .linkTrainingComplete _ => 0xD0000000#32
  | .linkTrainFail _ => 0xD0000000#32
  | .translationWalk _ _ _ _ => 0xD0000000#32
  | .walkComplete _ => 0xD0000000#32
  | .replayEventDelivery _ _ => 0xD0000000#32
  | .gaddrWrite _ _ _ => 0xD0000000#32
  | .cue _ _ => 0xD0000000#32
  | .transformDispatch _ => 0xD0000000#32
  | .phaseBoundaryRelease _ => 0xD0000000#32
  | .launchReleaseDone _ => 0xD0000000#32
  | .completionTarget _ => 0xD0000000#32
  | .cancelUnit _ _ _ => 0xD0000000#32
  | .cancelLaunch _ _ => 0xD0000000#32
  | .cancelGraph _ _ => 0xD0000000#32
  | .cancelPhase _ _ => 0xD0000000#32
  | .cancelJob _ => 0xD0000000#32
  | .budgetPeriodStart _ => 0xD0000000#32
  | .deadlineStrike _ => 0xD0000000#32
  | .curtainMessage _ _ => 0xD0000000#32
  | .diversion _ => 0xD0000000#32
  | .curtainNoentComplete _ => 0xD0000000#32
  | .curtainOverrun _ => 0xD0000000#32
  | .ptpMessage _ _ => 0xD0000000#32
  | .ppsInput => 0xD0000000#32
  | .ptmResponse _ => 0xD0000000#32
  | .holdoverEntry => 0xD0000000#32
  | .tkset _ => 0xD0000000#32
  | .tktaisRead => 0xD0000000#32
  | .inboundWrite _ _ _ _ _ _ _ => 0xD0000000#32
  | .routeRelease _ _ => 0xD0000000#32
  | .routeAck _ _ => 0xD0000000#32
  | .inboundRead _ _ _ _ _ => 0xD0000000#32
  | .inboundReadRelease _ => 0xD0000000#32
  | .apctlWrite _ => 0xD0000000#32
  | .xctlWrite _ => 0xD0000000#32
  | .outboundLoadTimeout _ => 0xD0000000#32
  | .hostLinkDown => 0xD0000000#32
  | .estalPortTrained _ _ _ _ => 0xD0000000#32
  | .estalPortStatusWrite _ _ => 0xD0000000#32
  | .moduleReset => 0xD0000000#32
  | .mreset _ => 0xD0000000#32
  | .attestationGo _ => 0xD0000000#32
  | .attestationDone => 0xD0000000#32
  | .powerThrottle _ => 0xD0000000#32
  | .thermalTrip => 0xD0000000#32
  | .powerStageFault => 0xD0000000#32
  | .registerWrite _ _ => 0xD0000000#32
  | .hubDieFault => 0xD0000000#32
  | .estalLinkDown _ _ => 0xD0000000#32
  | .hostPortTrained => 0xD0000000#32
  | .pushAcknowledgement _ _ => 0xD0000000#32
  | .memoryWriteDone _ => 0xD0000000#32
  | .shootDown _ _ => 0xD0000000#32
  | .shootDownAck _ _ => 0xD0000000#32
  | .outboundWriteAck _ _ => 0xD0000000#32
  | .ideFailure => 0xD0000000#32
  | .correctableError => 0xD0000000#32
  | .flitRetry _ => 0xD0000000#32
  | .pctlWrite _ _ => 0xD0000000#32

/-- The instruction that the decoder reads from a table row's bits: the word is laid out in memory in the device's
byte order and given to the decoder (R4, R30).  Every slot instruction has 32 bits. -/
def decodeTableWord (nbits w : Nat) : Option Instr :=
  if nbits = 32 then
    match decodeBytes (bytesOfWord (BitVec.ofNat 32 w)) with
    | some (.instr i, _) => some i
    | _ => none
  else none

end Sys2Proof
end

