-- ==== Sys2Proof/Machine/Sync.lean ====
section
/-! DEFINITION.
The synchronisation engines (R263 to R288): the issue of a Y.SYNC slot (R268 to R271), the engine's operations
(R272 to R282), its faults (R284, R285), replies and RETRY (R286), and the sync-order log (R287, R288).  The holds and
checks that every memory access shares stand here too (R111, R116, R121, R123, R131). -/

namespace Sys2Proof.Machine

/-! ### What every memory access waits for and is checked against -/

/-- R131: whether an access of n bytes matches a watch range. -/
def watchHit (u : UnitSt) (va : Va) (n : Nat) (reads writes : Bool) : Bool :=
  !u.run.watchFree && (List.finRange 2).any fun i =>
    let a := u.umem.wcha.get i
    let c := u.umem.wchc.get i
    let lo := va.extractLsb' 0 64
    let stop := min (a.toNat + (c.extractLsb' 18 30).toNat) (2 ^ 64)
    va.extractLsb' 64 16 == c.extractLsb' 0 16 && ((reads && c.getLsbD 16) || (writes && c.getLsbD 17))
      && decide (max lo.toNat a.toNat < min (lo.toNat + n) stop)

/-- WATCH at an access (R131). -/
def watchCheck (u : UnitSt) (va : Va) (n : Nat) (reads writes : Bool) : SlotResult :=
  failIf (watchHit u va n reads writes) cWatch va

/-- Requests of a cluster's core that are behind a release. -/
def heldReqs (k : Cluster) : List SyncReq :=
  k.rels.filterMap fun r => match r.payload with
    | .sync q => some q
    | _ => none

/-- An acquiring access of the unit that has not been performed (R121). -/
def acquirePending (s : State) (uid : Uid) (c : ClusterNo) : Bool :=
  let mine (q : SyncReq) : Bool := q.uid == uid && q.acquire
  (heldReqs (s.cluster c)).any mine || (List.finRange 8).any fun d =>
    (s.die d).sync.queue.any mine || (s.die d).sync.replies.any fun r => mine r.req

/-- A FENCE of kind acq_rel whose earlier stores are not performed (R123). -/
def fencePending (k : Cluster) (uid : Uid) : Bool := k.rels.any fun r => r.uid == uid && r.payload == .fence

/-- The holds of a bundle with a memory access or a copy command (R116, R121, R123). -/
def memHold (s : State) (uid : Uid) (u : UnitSt) : SlotResult :=
  let k := s.cluster u.ident.cluster
  if s.issue.ready then .done
  else if k.l1op.isSome then .hold .l1op
  else if acquirePending s uid u.ident.cluster then .hold .acquire
  else if fencePending k uid then .hold .fence
  else .done

/-- Landing-buffer entries in use on a core (R111). -/
def landingUsed (s : State) (c : ClusterNo) : Nat :=
  (s.units.map fun u => if u.ident.cluster == c then
    (u.pend.filter fun e => e.load.isSome && (e.awaited || u.run.status == .running)).length else 0).sum

/-- A load waits when the core's 32 landing-buffer entries are taken (R111); the unit's time runs on, or none would land. -/
def landingHold (s : State) (u : UnitSt) : SlotResult :=
  if 32 ≤ landingUsed s u.ident.cluster then .wait .room else .done

/-- The translation of an access with its faults, and a check of the page (R320, R322). -/
def pageCheck (s : State) (u : UnitSt) (va : Va) (acc : Access) (page : Nat → TlbEntry → SlotResult) : SlotResult :=
  match translate s u.accessor va acc with
  | .fault c a => .fault c a
  | .walk => .hold .walk
  | .ok pa e _ => page pa e

/-- What an access does while it holds for a translation: its walk is sent (R323). -/
def walkWait (s : State) (u : UnitSt) (va : Va) (acc : Access) : State :=
  match translate s u.accessor va acc with
  | .walk => requestWalk s u.ident.cluster u.ident.asid va acc.writes
  | _ => s

/-- A byte of a header page outside the header, which reads as zero (R327). -/
def blankAt (s : State) (u : UnitSt) (va : Va) : Bool :=
  match translate s u.accessor va .read with
  | .ok _ _ b => b
  | _ => false

/-- The translation of an access that has passed its checks. -/
def paOf (s : State) (u : UnitSt) (va : Va) (acc : Access) : Nat × Option TlbEntry :=
  match translate s u.accessor va acc with
  | .ok pa e _ => (pa, some e)
  | _ => (0, none)

/-- The landing delay of a load: a lend byte, or LAND.DELAY (R39, R111). -/
def landing (u : UnitSt) (lend : Nat) : Nat := if lend = 0 then u.csr.land.toNat else lend

/-- A restartable unit (R354). -/
def UnitSt.restartable (u : UnitSt) : Bool := u.ident.restart

/-- The key of a slot's requests in the budgets. -/
def slotKey (s : State) : Nat := 4 * s.issue.me + s.issue.slot.toNat

/-! ### Budgets of an access (R380) -/

def costsOpen (s : State) (a : BitVec 16) (key : Nat) (l : List (Nat × Nat)) : Bool := l.all fun x => budgetOpen s a x.1 key
def costsTake (s : State) (a : BitVec 16) (key : Nat) (l : List (Nat × Nat)) : State :=
  l.foldl (fun s x => budgetTake s a x.1 key x.2) s
def costsRefuse (s : State) (a : BitVec 16) (key : Nat) (l : List (Nat × Nat)) : State :=
  l.foldl (fun s x => if budgetOpen s a x.1 key then s else budgetRefuse s a x.1 key x.2) s

/-- The crossbar's flits of an access of at most 128 bytes (R13): a write's bytes, or a request and what answers it. -/
def accessFlits (acc : Access) : Nat := if acc = .write then 1 else 2

/-- What an access of n operations at a synchronisation engine costs: the operations (R267), and flits to another die (R13). -/
def syncCost (c : ClusterNo) (pa n : Nat) (acc : Access) : List (Nat × Nat) :=
  let d := homeOf (pa / 128)
  (bSync d, n) :: (if d = dieOf c then [] else [(bCrossbar, accessFlits acc)])

/-! ### What a load reads -/

/-- A byte count's value extended to a register. -/
def extendTo (n : Nat) (signed : Bool) (v : Nat) : Word :=
  if signed then (BitVec.ofNat (8 * n) v).signExtend 64 else BitVec.ofNat 64 v

/-- A doubleword through the read-only cache of 256 lines (R125), the line entered first leaving a full one: value, error, cycles
until it arrives (R112). -/
def roRead (s : State) (c : ClusterNo) (pa : Nat) (key : BitVec 8) (floor ceil : BitVec 3) : Word × Bool × Option Nat × State :=
  let line := pa / 128
  let value (l : BitVec 1024) : Word := l.extractLsb' (8 * (pa % 128)) 64
  match (s.cluster c).roCache.find? fun l => l.line == line && l.key == key with
  | some l => (value l.data, l.poison, some 6, s)
  | none =>
    let v := belowLine s (dieOf c) line key
    let hit := sliceServes s (dieOf c) pa 8 key
    let arrive := if hit then some (24 + rotation s c line) else none
    let s := if hit then s else readMiss s (dieOf c) line key floor ceil
    let new : CacheLine := { line := line, data := v.1, dirty := 0, key := key, rfloor := floor, rceil := ceil, poison := v.2 }
    (value v.1, v.2, arrive,
      s.modCluster c fun k =>
        let l := k.roCache.filter fun x => x.line != line
        { k with roCache := (if l.length < 256 then l else l.drop 1) ++ [new] })

/-- What a load behind an acquire reads, once that is performed: value, error, cycles until it arrives. -/
def readAgain (s : State) (c : ClusterNo) (r : Reread) : BitVec 512 × Bool × Option Nat × State :=
  if r.ro then
    let x := roRead s c r.pa r.key r.rfloor r.rceil
    (x.1.setWidth 512, x.2)
  else
    let v := viewBytes s c r.pa r.n r.key
    let arrive := arrivalOf s c r.pa r.n r.key
    (if r.vector then BitVec.ofNat 512 (leNat v.1) else (extendTo r.n r.signed (leNat v.1)).setWidth 512, v.2, arrive,
      fillCache s c (r.pa / 128) r.key r.rfloor r.rceil)

/-- One load behind an acquire is performed. -/
def rereadEntry (uid : Uid) (c : ClusterNo) (s : State) (e : PEntry) : State :=
  match e.load.bind fun l => l.reread.map fun r => (l, r) with
  | none => s
  | some (l, r) =>
    let (v, p, a, s) := readAgain s c r
    let new : PEntry := { e with value := v, load := some { l with reread := none, poison := p, arrive := a } }
    let put (l : List PEntry) : List PEntry := updateFirst (fun x => x == e) (fun _ => new) l
    s.modUnit uid fun u => { u with pend := put u.pend, drops := put u.drops }

/-- The loads that stand behind an acquire of their own bundle are performed once every acquire before them is (R121). -/
def rereadLoads (s : State) (uid : Uid) : State :=
  match s.unit? uid with
  | none => s
  | some u =>
    let c := u.ident.cluster
    if acquirePending s uid c || fencePending (s.cluster c) uid then s
    else (u.pend ++ u.drops).foldl (rereadEntry uid c) s

/-! ### Requests -/

/-- A request reaches its engine, behind the releases of its core (R266, R271). -/
def sendSync (s : State) (c : ClusterNo) (q : SyncReq) : State :=
  if (s.cluster c).rels.any fun r => r.uid == q.uid then
    let (id, s) := s.newReq
    s.modCluster c fun k => { k with rels := k.rels ++ [{ id := id, uid := q.uid, lines := [], scope := 0, flushed := true,
                                                          system := false, payload := .sync q }] }
  else s.modSync q.die fun y => { y with queue := y.queue ++ [q] }

/-- A request with no more said than what it is. -/
def syncReq (s : State) (u : UnitSt) (id : Nat) (kind : SyncKind) (pa : Nat) (va : Va) (key : BitVec 8) : SyncReq :=
  { id := id, uid := s.issue.me, who := s.issue.me, die := homeOf (pa / 128), pa := pa, va := va, key := key, kind := kind,
    width := 0, join := false, x := 0, cmp := 0, rop := 0, n := 1, done := 0, posted := true, size := 8, signed := false,
    bundle := u.flow.pc.addr, slot := s.issue.slot, acquire := false, scope := 0, copyEng := none,
    born := (s.cluster u.ident.cluster).cyc.toNat, waits := false }

/-- A pending entry that a reply fills (R270). -/
def awaitedEntry (s : State) (u : UnitSt) (d : Dest) (lat : Nat) (id : Nat) (va : Va) : PEntry :=
  { mkEntry s u d 0 lat 0 with awaited := true, load := some { req := id, va := va, arrive := none, poison := false, sync := true, reread := none } }

/-- The request of a slot, with the entry for its reply, its release and its place in the engine's order
(R270, R271). -/
def issueSync (s : State) (u : UnitSt) (q : SyncReq) (entry : Option (Dest × Nat)) (release : Bool) : State :=
  let q := { q with posted := match entry with | some (d, _) => d.discarded | none => true }
  let s := match entry with
    | some (d, lat) => s.setUnit s.issue.me (u.push (awaitedEntry s u d lat q.id q.va))
    | none => s
  if release && releases s q.uid u.ident.cluster q.scope then startRelease s q.uid u.ident.cluster q.scope (.sync q) else sendSync s u.ident.cluster q

/-! ### The issue of a Y.SYNC slot (R268 to R270) -/

/-- WIN of a lend byte (R268). -/
def syncVa (s : State) (u : UnitSt) (a : BitVec 6) : Va := u.windowVa (s.issue.lend.extractLsb' 0 2) (u.reg a)

def ordAcq (o : BitVec 2) : Bool := o.getLsbD 0
def ordRel (o : BitVec 2) : Bool := o.getLsbD 1

/-- Bytes of a width code. -/
def syncBytes (w : BitVec 1) : Nat := if w = 1 then 4 else 8

/-- A page that a Y.SYNC operation reaches: SYNC set, in LPDDR6 and not in a buffer (R264, R410); nothing of the kind in
a restartable unit (R354). -/
def syncPage (u : UnitSt) (va : Va) (query : Bool) (pa : Nat) (e : TlbEntry) : SlotResult :=
  failIf (!e.sync || (frameDie pa).isNone || (u.restartable && !query)) cProtection va

/-- The checks from the address on, and the holds of R267 and R270. -/
def syncChecks (s : State) (u : UnitSt) (va : Va) (acc : Access) (watch : SlotResult) (lands : Bool) :
    List SlotResult :=
  [pageCheck s u va acc (syncPage u va (acc == .read)), watch, memHold s s.issue.me u,
   if lands then landingHold s u else .done,
   match paOf s u va acc with
   | (pa, some _) =>
     if costsOpen s u.ident.asid (slotKey s) (syncCost u.ident.cluster pa 1 acc) then .done else .hold .budget
   | _ => .done]

/-- What a Y.SYNC slot does while it holds: a request that its budget does not admit is deferred (R381). -/
def syncWait (va : State → UnitSt → Va) (acc : Access) (ops : State → UnitSt → Nat) (s : State) (u : UnitSt) : State :=
  match paOf s u (va s u) acc with
  | (pa, some _) => costsRefuse s u.ident.asid (slotKey s) (syncCost u.ident.cluster pa (ops s u) acc)
  | _ => walkWait s u (va s u) acc

/-- The request of a Y.SYNC slot with its budget taken, numbered. -/
def newSync (s : State) (u : UnitSt) (kind : SyncKind) (va : Va) (acc : Access) (o c : BitVec 2) (ops : Nat) :
    SyncReq × State :=
  let (pa, e) := paOf s u va acc
  let s := costsTake s u.ident.asid (slotKey s) (syncCost u.ident.cluster pa ops acc)
  let (id, s) := s.newReq
  ({ syncReq s u id kind pa va ((e.map (·.key)).getD 0) with acquire := ordAcq o, scope := c }, s)

/-- LD of a lend byte: a landing delay of 4·LD cycles, 0 meaning LAND.DELAY (R268). -/
def syncLand (s : State) (u : UnitSt) : Nat := landing u (4 * (s.issue.lend.extractLsb' 2 6).toNat)

/-- An atomic (R272, R273): `cmp` says whether sd is read as a comparand. -/
def atomicSlot (op5 : BitVec 5) (d a b : BitVec 6) (c o : BitVec 2) (w : BitVec 1) (cmp signed : Bool) (s : State) :
    Host.Outcome State Fault Refusal :=
  let n := syncBytes w
  runSlotW s
    (fun s u => firstFail ([
      stallCheck u ([.scalar a, .scalar b] ++ if cmp then [.scalar d] else []) [(.scalar d, syncLand s u)],
      failIf ((syncVa s u a).toNat % n != 0) cMisaligned (syncVa s u a)] ++
      syncChecks s u (syncVa s u a) .atomic (watchCheck u (syncVa s u a) n true true) (d != 0)))
    (syncWait (fun s u => syncVa s u a) .atomic fun _ _ => 1)
    (fun s u =>
      let (q, s') := newSync s u (.op op5) (syncVa s u a) .atomic o c 1
      issueSync s' u { q with width := w, size := n, x := (u.reg b).setWidth 512, cmp := if cmp then u.reg d else 0, signed := signed }
        (some (.scalar d, syncLand s u)) (ordRel o))

/-- AADD (R272). -/
def execAadd (d a b : BitVec 6) (c o : BitVec 2) (w : BitVec 1) (s : State) : Host.Outcome State Fault Refusal :=
  atomicSlot 0x00 d a b c o w false true s

/-- AAND (R272). -/
def execAand (d a b : BitVec 6) (c o : BitVec 2) (w : BitVec 1) (s : State) : Host.Outcome State Fault Refusal :=
  atomicSlot 0x01 d a b c o w false false s

/-- AOR (R272). -/
def execAor (d a b : BitVec 6) (c o : BitVec 2) (w : BitVec 1) (s : State) : Host.Outcome State Fault Refusal :=
  atomicSlot 0x02 d a b c o w false false s

/-- AXOR (R272). -/
def execAxor (d a b : BitVec 6) (c o : BitVec 2) (w : BitVec 1) (s : State) : Host.Outcome State Fault Refusal :=
  atomicSlot 0x03 d a b c o w false false s

/-- AMINS (R272). -/
def execAmins (d a b : BitVec 6) (c o : BitVec 2) (w : BitVec 1) (s : State) : Host.Outcome State Fault Refusal :=
  atomicSlot 0x04 d a b c o w false true s

/-- AMINU (R272). -/
def execAminu (d a b : BitVec 6) (c o : BitVec 2) (w : BitVec 1) (s : State) : Host.Outcome State Fault Refusal :=
  atomicSlot 0x05 d a b c o w false false s

/-- AMAXS (R272). -/
def execAmaxs (d a b : BitVec 6) (c o : BitVec 2) (w : BitVec 1) (s : State) : Host.Outcome State Fault Refusal :=
  atomicSlot 0x06 d a b c o w false true s

/-- AMAXU (R272). -/
def execAmaxu (d a b : BitVec 6) (c o : BitVec 2) (w : BitVec 1) (s : State) : Host.Outcome State Fault Refusal :=
  atomicSlot 0x07 d a b c o w false false s

/-- AXCHG (R272). -/
def execAxchg (d a b : BitVec 6) (c o : BitVec 2) (w : BitVec 1) (s : State) : Host.Outcome State Fault Refusal :=
  atomicSlot 0x08 d a b c o w false false s

/-- ACAS (R272): sd is the comparand, read at issue. -/
def execAcas (d a b : BitVec 6) (c o : BitVec 2) (w : BitVec 1) (s : State) : Host.Outcome State Fault Refusal :=
  atomicSlot 0x09 d a b c o w true false s

/-- AFADD32 (R273). -/
def execAfadd32 (d a b : BitVec 6) (c o : BitVec 2) (s : State) : Host.Outcome State Fault Refusal :=
  atomicSlot 0x0A d a b c o 1 false false s

/-- AFADD64 (R273). -/
def execAfadd64 (d a b : BitVec 6) (c o : BitVec 2) (s : State) : Host.Outcome State Fault Refusal :=
  atomicSlot 0x0B d a b c o 0 false false s

/-! ### ARED and SYNCQ (R274 to R277) -/

/-- The number of elements that the register of [22:17] holds. -/
def aredCount (u : UnitSt) (n : BitVec 6) : Nat := ((u.reg n).extractLsb' 0 12).toNat

/-- R274's checks on n. -/
def aredCountBad (u : UnitSt) (n : BitVec 6) : Bool :=
  aredCount u n == 0 || decide (2048 < aredCount u n) || (u.reg n).extractLsb' 12 52 != 0

/-- ARED (R274 to R276). -/
def execAred (n a b : BitVec 6) (c o : BitVec 2) (w : BitVec 1) (s : State) : Host.Outcome State Fault Refusal :=
  let k := syncBytes w
  runSlotW s
    (fun s u => firstFail ([
      illegalIf u (s.issue.lend.extractLsb' 6 2 != 0 || decide (8 < (s.issue.lend.extractLsb' 2 4).toNat)),
      stallCheck u [.scalar a, .scalar b, .scalar n] [],
      failIf ((syncVa s u a).toNat % k != 0 ||
        (aredCount u n != 0 && (syncVa s u a).toNat / 2 ^ 14 != ((syncVa s u a).toNat + aredCount u n * k - 1) / 2 ^ 14))
        cMisaligned (syncVa s u a),
      failIf (aredCountBad u n) cAtomic (syncVa s u a)] ++
      syncChecks s u (syncVa s u a) .atomic (watchCheck u (syncVa s u a) (aredCount u n * k) true true) false))
    (syncWait (fun s u => syncVa s u a) .atomic fun _ u => aredCount u n)
    (fun s u =>
      let (q, s') := newSync s u (.op 0x11) (syncVa s u a) .atomic o c (aredCount u n)
      issueSync s' u { q with width := w, size := k, x := (u.reg b).setWidth 512, n := aredCount u n,
                              rop := s.issue.lend.extractLsb' 2 4 } none (ordRel o))

/-- SYNCQ (R277). -/
def execSyncq (d a : BitVec 6) (c o : BitVec 2) (s : State) : Host.Outcome State Fault Refusal :=
  runSlotW s
    (fun s u => firstFail ([
      stallCheck u [.scalar a] [(.scalar d, syncLand s u)],
      failIf ((syncVa s u a).toNat % 8 != 0) cMisaligned (syncVa s u a)] ++
      syncChecks s u (syncVa s u a) .read (watchCheck u (syncVa s u a) 8 true false) (d != 0)))
    (syncWait (fun s u => syncVa s u a) .read fun _ _ => 1)
    (fun s u =>
      let (q, s') := newSync s u (.op 0x12) (syncVa s u a) .read o c 1
      issueSync s' u { q with size := 16 } (some (.scalar d, syncLand s u)) (ordRel o))

/-! ### Barriers (R278 to R283) -/

/-- A barrier that a unit is a member of, or the table entry that an operation makes for it (R279). -/
def isMember (u : UnitSt) (pa : Nat) : Bool := u.sync.members.any fun m => m.pa == pa

/-- R279: an operation that would make the unit a member of a ninth barrier. -/
def ninth (u : UnitSt) (pa : Nat) : Bool := !isMember u pa && decide (8 ≤ u.sync.members.length)

/-- The unit with a membership entry for a barrier. -/
def UnitSt.join (u : UnitSt) (va : Va) (pa : Nat) : UnitSt :=
  if isMember u pa then u else u.modSyncSt fun y => { y with members := y.members ++ [⟨va, pa, none⟩] }

/-- The physical address that a barrier operation would reach, where its translation is at hand. -/
def barrierPa (s : State) (u : UnitSt) (va : Va) : Option Nat :=
  match translate s u.accessor va .atomic with
  | .ok pa _ _ => some pa
  | _ => none

/-- The checks that barrier operations share. -/
def barrierChecks (s : State) (u : UnitSt) (a : BitVec 6) (joins : Bool) (atomicBad lands : Bool) :
    List SlotResult :=
  let va := syncVa s u a
  [failIf (va.toNat % 16 != 0) cMisaligned va,
   failIf (atomicBad || (joins && match barrierPa s u va with | some pa => ninth u pa | none => false)) cAtomic va] ++
  syncChecks s u va .atomic (watchCheck u va 16 true false) lands

/-- A barrier operation takes no landing delay: LD of its lend byte must be zero (R268). -/
def noLand (s : State) (u : UnitSt) : SlotResult := illegalIf u (s.issue.lend.extractLsb' 2 6 != 0)

/-- BARINIT (R280). -/
def execBarinit (a b : BitVec 6) (c o : BitVec 2) (s : State) : Host.Outcome State Fault Refusal :=
  runSlotW s
    (fun s u => firstFail ([noLand s u, stallCheck u [.scalar a, .scalar b] []] ++
      barrierChecks s u a false ((u.reg b) == 0 || decide (65535 < (u.reg b).toNat)) false))
    (syncWait (fun s u => syncVa s u a) .atomic fun _ _ => 1)
    (fun s u =>
      let (q, s') := newSync s u (.op 0x0C) (syncVa s u a) .atomic o c 1
      issueSync s' u { q with size := 16, x := (u.reg b).setWidth 512 } none (ordRel o))

/-- BARRIVE and its join form (R280). -/
def arriveSlot (join : Bool) (d a : BitVec 6) (c o : BitVec 2) (s : State) : Host.Outcome State Fault Refusal :=
  runSlotW s
    (fun s u => firstFail ([stallCheck u [.scalar a] [(.scalar d, syncLand s u)]] ++
      barrierChecks s u a true false (d != 0)))
    (syncWait (fun s u => syncVa s u a) .atomic fun _ _ => 1)
    (fun s u =>
      let (q, s') := newSync s u (.op 0x0D) (syncVa s u a) .atomic o c 1
      issueSync s' (u.join q.va q.pa) { q with size := 16, join := join, width := BitVec.ofBool join }
        (some (.scalar d, syncLand s u)) (ordRel o))

/-- BARRIVE (R280). -/
def execBarrive (d a : BitVec 6) (c o : BitVec 2) (s : State) : Host.Outcome State Fault Refusal :=
  arriveSlot false d a c o s

/-- BARRIVE in its join form (R280). -/
def execBarriveJoin (d a : BitVec 6) (c o : BitVec 2) (s : State) : Host.Outcome State Fault Refusal :=
  arriveSlot true d a c o s

/-- The BARWAIT of the unit's bundle has ended with POISON, and is not repeated (R284). -/
def barwaitOver (u : UnitSt) : Bool := u.sync.barwaitDone == some u.flow.pc.addr

/-- BARWAIT (R280, R282): the request is sent when the bundle would issue, the bundle waits for the reply, and the
status is written with latency 1. -/
def execBarwait (d a b : BitVec 6) (c o : BitVec 2) (s : State) : Host.Outcome State Fault Refusal :=
  runSlotW s
    (fun s u => firstFail ([noLand s u, stallCheck u [.scalar a, .scalar b] [(.scalar d, 1)]] ++
      (if u.sync.barwaitReq.isSome || barwaitOver u then [] else barrierChecks s u a false false false) ++
      [if u.sync.barwaitReply.isSome || barwaitOver u then .done else .wait .sync]))
    (fun s u =>
      if u.sync.barwaitReq.isSome then s
      else if firstFail (barrierChecks s u a false false false) = .done then
        let (q, s') := newSync s u (.op 0x0E) (syncVa s u a) .atomic o c 1
        let q := { q with size := 16, x := (u.reg b).setWidth 512, waits := true }
        issueSync (s'.setUnit s.issue.me (u.modSyncSt fun y => { y with barwaitReq := some q })) u q none (ordRel o)
      else syncWait (fun s u => syncVa s u a) .atomic (fun _ _ => 1) s u)
    (fun s u =>
      let v := u.modSyncSt fun y => { y with barwaitReq := none, barwaitReply := none }
      match u.sync.barwaitReply with
      | some x => schedScalar s s.issue.me v d x 1
      | none => s.setUnit s.issue.me v)

/-- BARAW (R280, R282): one arrival; the status entry has latency STALL + 1, and the bundle after waits. -/
def execBaraw (d a : BitVec 6) (c o : BitVec 2) (s : State) : Host.Outcome State Fault Refusal :=
  runSlotW s
    (fun s u => firstFail ([noLand s u, stallCheck u [.scalar a] [(.scalar d, s.issue.stall.toNat + 1)]] ++
      barrierChecks s u a true false false))
    (syncWait (fun s u => syncVa s u a) .atomic fun _ _ => 1)
    (fun s u =>
      let (q, s') := newSync s u (.op 0x0F) (syncVa s u a) .atomic o c 1
      let q := { q with size := 16, waits := true }
      let u := (u.join q.va q.pa).modSyncSt fun y => { y with barawReq := some q }
      let e : PEntry := { mkEntry s u (.scalar d) 0 (s.issue.stall.toNat + 1) 0 with awaited := true, baraw := true }
      issueSync (s'.setUnit s.issue.me (u.push e)) (u.push e) q none (ordRel o))

/-! ### FENCE (R123) -/

/-- A sync access of the unit whose value has still to come. -/
def readsPending (s : State) (uid : Uid) (c : ClusterNo) : Bool :=
  let mine (q : SyncReq) : Bool := q.uid == uid && !q.posted
  (heldReqs (s.cluster c)).any mine || (List.finRange 8).any fun d =>
    (s.die d).sync.queue.any mine || (s.die d).sync.replies.any fun r => mine r.req

/-- The sync accesses of the unit whose value has still to come act as acquiring loads at a scope: those of a bundle's lower
slots, before its FENCE (R121). -/
def acquireReads (s : State) (uid : Uid) (c : ClusterNo) (scope : BitVec 2) : State :=
  let mark (q : SyncReq) : SyncReq := if q.uid == uid && !q.posted then { q with acquire := true, scope := scope } else q
  let rel (r : Release) : Release := match r.payload with
    | .sync q => { r with payload := .sync (mark q) }
    | _ => r
  (List.finRange 8).foldl (fun s d => s.modSync d fun y => { y with queue := y.queue.map mark })
    (s.modCluster c fun k => { k with rels := k.rels.map rel })

/-- FENCE: an acquire waits for the earlier loads, a release is started, and acq_rel holds the later loads (R121,
R123). -/
def execFence (c o : BitVec 2) (s : State) : Host.Outcome State Fault Refusal :=
  runSlotW s
    (fun s u => firstFail [noLend s u, memHold s s.issue.me u,
      if ordAcq o && !s.issue.ready && readsPending s s.issue.me u.ident.cluster then .hold .acquire else .done])
    (fun s _ => s)
    (fun s u =>
      let k := u.ident.cluster
      let s := if ordRel o && releases s s.issue.me k c then startRelease s s.issue.me k c (if o = 3 then .fence else .none) else s
      let s := if ordAcq o && readsPending s s.issue.me k then acquireReads s s.issue.me k c else s
      if ordAcq o then acquireAt s s.issue.me k c else s)

/-! ### The engine: memory and metadata -/

/-- Bytes of a sync line as the engine reads them, as a number. -/
def engineRead (s : State) (pa n : Nat) (key : BitVec 8) : Nat := leNat (deviceBytes s pa n key)

/-- Bytes of a sync line as the engine writes them. -/
def engineWrite (s : State) (pa n v : Nat) (key : BitVec 8) : State := deviceWrite s pa (leBytes v n) key

/-- The line of an address is poisoned. -/
def enginePoison (s : State) (pa : Nat) : Bool := s.poison.contains (pa / 128)

/-- The 16-byte granule of an address (R265). -/
def granulePa (pa : Nat) : Nat := pa / 16 * 16

/-- R278: a granule with members or waiters. -/
def barrierBusy (y : SyncEngine) (pa : Nat) : Bool :=
  y.members.any (fun m => m.pa == granulePa pa) || y.waiters.any fun w => w.pa == granulePa pa

/-- The fields of a barrier granule (R278). -/
structure Barrier where
  expected : Nat
  arrived : Nat
  lostc : Nat
  phase : Nat
  init : Bool
  lastlost : Bool
  rest : Nat
  deriving DecidableEq, Repr

def Barrier.ofNat (v : Nat) : Barrier :=
  { expected := v % 2 ^ 16, arrived := v / 2 ^ 16 % 2 ^ 16, lostc := v / 2 ^ 32 % 2 ^ 16, phase := v / 2 ^ 48 % 2 ^ 15,
    init := v / 2 ^ 63 % 2 == 1, lastlost := v / 2 ^ 64 % 2 == 1, rest := v / 2 ^ 65 }

def Barrier.toNat (b : Barrier) : Nat :=
  b.expected + 2 ^ 16 * (b.arrived % 2 ^ 16) + 2 ^ 32 * (b.lostc % 2 ^ 16) + 2 ^ 48 * (b.phase % 2 ^ 15)
    + (if b.init then 2 ^ 63 else 0) + (if b.lastlost then 2 ^ 64 else 0) + 2 ^ 65 * b.rest

def readBarrier (s : State) (q : SyncReq) : Barrier := Barrier.ofNat (engineRead s (granulePa q.pa) 16 q.key)
def writeBarrier (s : State) (q : SyncReq) (b : Barrier) : State := engineWrite s (granulePa q.pa) 16 b.toNat q.key

/-- R281: a phase completes when ARRIVED + LOSTC reach EXPECTED. -/
def Barrier.settle (b : Barrier) : Barrier × Bool :=
  if b.arrived + b.lostc = b.expected then
    ({ b with lastlost := decide (0 < b.lostc), phase := (b.phase + 1) % 2 ^ 15, arrived := 0, lostc := 0 }, true)
  else (b, false)

/-- The status of R282. -/
def barStatus (lost skip : Bool) (phase : Nat) : Word :=
  BitVec.ofNat 64 ((if lost then 1 else 0) + (if skip then 2 else 0) + 2 ^ 16 * (phase % 2 ^ 15))

/-- The status of a wait that a barrier's phase has ended: the latest phase, and SKIP when more than one completed after
the token. -/
def waitStatus (b : Barrier) (token : Nat) (mayskip : Bool) : Word :=
  barStatus b.lastlost (mayskip && (b.phase + 2 ^ 15 - token) % 2 ^ 15 != 1) (b.phase + 2 ^ 15 - 1)

/-! ### The log (R287, R288) and the recording area (R355) -/

/-- OP of a log entry (R287). -/
def logOp (k : SyncKind) : BitVec 5 :=
  match k with
  | .op o => o
  | .load => 0x13
  | .store => 0x14
  | .copyRead => 0x15
  | .lostArrival => 0x16
  | .copyArrival => 0x0D
  | .farrive => 0x0D
  | .rewait => 0x0E

/-- Whether an access is one that the log records: what only renews a wait is none. -/
def SyncKind.logged : SyncKind → Bool
  | .rewait => false
  | _ => true

/-- ST of a log entry from a fault code. -/
def logStatus (code : BitVec 8) : BitVec 2 :=
  if code = cPoison then 1 else if code = cAtomic then 2 else 0

/-- A log entry without its status (R287). -/
def logEntry (s : State) (q : SyncReq) (va : Va) (st : BitVec 2) (seq : BitVec 32) : BitVec 256 :=
  let (launch, index) : BitVec 32 × BitVec 16 := match s.unit? q.who with
    | some u => (serialOf s u, u.ident.index)
    | none => (0, 0)
  (0#64) ++ seq ++ launch ++ (0#16) ++ index ++ (0#8) ++ st ++ q.width ++ logOp q.kind ++ va

/-- The next sequence number of a virtual granule (R287). -/
def seqOf (y : SyncEngine) (a : BitVec 16) (va : Va) : BitVec 32 :=
  ((y.seqs.find? fun x => x.1 == a && x.2.1 == va.toNat / 16).map fun x => x.2.2).getD 0

/-- The address of the element that a request is at. -/
def SyncReq.elemVa (q : SyncReq) : Va := q.va + BitVec.ofNat 80 (q.done * q.size)
def SyncReq.elemPa (q : SyncReq) : Nat := q.pa + q.done * q.size

/-- A context's ring in the recording area has room: tail − head below its entries (R355). -/
def ringRoom (s : State) (k : Context) (i : Nat) : Bool :=
  match k.recAreas[i]? with
  | none => true
  | some (base, n) => decide ((deviceNat s (base + 64) 8 + 2 ^ 64 - deviceNat s base 8) % 2 ^ 64 < n)

/-- An entry in a ring of the recording area: written, then the tail advanced (R355). -/
def ringAppend (s : State) (k : Context) (i : Nat) (e : BitVec 256) : State :=
  match k.recAreas[i]? with
  | none => s
  | some (base, n) =>
    if n = 0 then s
    else
      let tail := deviceNat s (base + 64) 8
      let s := deviceWrite s (base + 128 + 32 * (tail % n)) (leBytes e.toNat 32) 0
      deviceWrite s (base + 64) (leBytes (tail + 1) 8) 0

/-- An access made for a context is logged where it is performed, and the granule's sequence number counts on (R287). -/
def logFor (s : State) (k : Context) (d : DieNo) (q : SyncReq) (va : Va) (code : BitVec 8) : State :=
  if (k.recording || k.replay) && q.kind.logged then
    let seq := seqOf (s.die d).sync k.asid va
    let e := logEntry s q va (logStatus code) seq
    let s := s.modSync d fun y =>
      { y with seqs := upsert (fun x => x.1 == k.asid && x.2.1 == va.toNat / 16) (k.asid, va.toNat / 16, seq + 1) y.seqs }
    if k.recording then ringAppend (s.modCtx k.asid fun k => { k with log := k.log ++ [(d, e)] }) k d.val e else s
  else s

/-- The same for a unit's access. -/
def logSync (s : State) (d : DieNo) (q : SyncReq) (va : Va) (code : BitVec 8) : State :=
  match (s.unit? q.who).bind fun u => s.ctx? u.ident.asid with
  | none => s
  | some k => logFor s k d q va code

/-- What replay says of an access (R288). -/
inductive ReplayTurn where
  | go | held | stray
  deriving DecidableEq, Repr

/-- Bits of a log entry that an access must match: all but ST and SEQ. -/
def logKey (e : BitVec 256) : BitVec 256 := e &&& ~~~((3#256) <<< 86) &&& ~~~((0xFFFFFFFF#256) <<< 160)

/-- Whether the turn of an access for a context has come. -/
def turnFor (s : State) (k : Context) (d : DieNo) (q : SyncReq) : ReplayTurn :=
  if !k.replay || !q.kind.logged then .go
  else if k.replayStopped then .held
  else
    let seq := seqOf (s.die d).sync k.asid q.elemVa
    let mine := k.replayLog.filter fun e => logKey e == logKey (logEntry s q q.elemVa 0 0)
    if mine.any fun e => e.extractLsb' 160 32 == seq then .go
    else if mine.any fun e => decide (seq < e.extractLsb' 160 32) then .held
    else .stray

/-- Whether a logged access's turn has come. -/
def replayTurn (s : State) (d : DieNo) (q : SyncReq) : ReplayTurn :=
  match (s.unit? q.who).bind fun u => s.ctx? u.ident.asid with
  | none => .go
  | some k => turnFor s k d q

/-- The same where the log's ring must have room first (R355). -/
def engineTurn (s : State) (k : Context) (d : DieNo) (q : SyncReq) : ReplayTurn :=
  if k.recording && q.kind.logged && !ringRoom s k d.val then .held else turnFor s k d q

/-- An access that matches no log entry stops the replay of its context, once, and the firmware is notified (R288). -/
def stopStray (s : State) (a : BitVec 16) : State :=
  if (s.ctx? a).any fun k => k.replayStopped then s
  else (s.modCtx a fun k => { k with replayStopped := true }).setMod { s.mod with errEvents := s.mod.errEvents ++ [(0x00, a.toNat)] }

/-! ### The engine's SRAM and its overflow area (R265) -/

/-- Entries of metadata that the engine keeps: members, waiters and sequence numbers. -/
def metaCount (y : SyncEngine) : Nat := y.members.length + y.waiters.length + y.seqs.length

/-- Entries of metadata that the SRAM of 2 MiB holds when it holds no line, at 16 bytes each (the model's choice of a size). -/
def sramEntries : Nat := 131072

/-- The SRAM and the overflow area are full of metadata. -/
def metaFull (s : State) (d : DieNo) : Bool := decide (sramEntries + Config.overflowEntries d.val ≤ metaCount (s.die d).sync)

/-- Performing an access would make a new sequence number for the log (R287). -/
def logNeeds (s : State) (d : DieNo) (q : SyncReq) : Bool :=
  match (s.unit? q.who).bind fun u => s.ctx? u.ident.asid with
  | some k => (k.recording || k.replay) && q.kind.logged &&
      !((s.die d).sync.seqs.any fun x => x.1 == k.asid && x.2.1 == q.elemVa.toNat / 16)
  | none => false

/-- An operation needs metadata space and there is none: it is not performed (R265, R285). -/
def noSpace (s : State) (d : DieNo) (q : SyncReq) (new : Bool) : Bool := (new || logNeeds s d q) && metaFull s d

/-- The line of an access is in the SRAM, and the lines used longest ago go home where it is full, without hints (R305); the metadata of the granule
goes to the overflow area where the SRAM holds no more. -/
def touchLine (s : State) (d : DieNo) (pa : Nat) : State :=
  let lines := ((s.die d).sync.lines.filter fun l => l != pa / 128) ++ [pa / 128]
  let room := (sramEntries - min sramEntries (metaCount (s.die d).sync)) / 8
  let s := (lines.take (lines.length - room)).foldl (fun s l => hubRead s (128 * l)) s
  s.modSync d fun y =>
    let kept (g : Nat) : Bool := y.members.any (fun m => m.pa == g) || y.waiters.any fun w => w.pa == g
    let over_ := y.overflow.filter kept
    { y with lines := lines.drop (lines.length - room),
             overflow := if decide (sramEntries < metaCount y) && kept (granulePa pa) && !over_.contains (granulePa pa)
               then over_ ++ [granulePa pa] else over_ }

/-- A line and the metadata of a granule are in the SRAM (R266). -/
def inSram (y : SyncEngine) (pa : Nat) : Bool := y.lines.contains (pa / 128) && !y.overflow.contains (granulePa pa)

/-! ### The engine: one operation (R272 to R282) -/

/-- What an operation came to: the value for sd, a fault code or 0, whether it answers, and whether it is finished. -/
structure SyncOut where
  value : BitVec 512
  code : BitVec 8
  answers : Bool
  finished : Bool
  deriving DecidableEq, Repr

def SyncOut.fault (code : BitVec 8) : SyncOut := ⟨0, code, true, true⟩
def SyncOut.ok (v : Word) : SyncOut := ⟨v.setWidth 512, 0, true, true⟩

/-- The new value of an atomic (R272, R273). -/
def atomicNew (op : Nat) (w : BitVec 1) (old x cmp : Nat) : Nat :=
  let n := if w = 1 then 32 else 64
  let a := old % 2 ^ n
  let b := x % 2 ^ n
  let sg (v : Nat) : Int := (BitVec.ofNat n v).toInt
  match op with
  | 0x00 => (a + b) % 2 ^ n
  | 0x01 => a &&& b
  | 0x02 => a ||| b
  | 0x03 => a ^^^ b
  | 0x04 => if sg b < sg a then b else a
  | 0x05 => if b < a then b else a
  | 0x06 => if sg a < sg b then b else a
  | 0x07 => if a < b then b else a
  | 0x08 => b
  | 0x09 => if a = cmp % 2 ^ n then b else a
  | 0x0A => (fpAdd f32 0 (unpack f32 a) (unpack f32 b)).1
  | _ => (fpAdd f64 0 (unpack f64 a) (unpack f64 b)).1

/-- The operation that a ROP selects (R276). -/
def ropOp (r : BitVec 4) (w : BitVec 1) : Nat := if r = 8 then (if w = 1 then 0x0A else 0x0B) else [0, 1, 2, 3, 4, 5, 6, 7].getD r.toNat 0

/-- The old value as it is returned: sign- or zero-extended. -/
def atomicReturn (w : BitVec 1) (signed : Bool) (old : Nat) : Word :=
  if w = 1 then (if signed then (BitVec.ofNat 32 old).signExtend 64 else (BitVec.ofNat 32 old).setWidth 64)
  else BitVec.ofNat 64 old

/-- One element of an atomic or of an ARED (R272, R275). -/
def doAtomic (s : State) (d : DieNo) (q : SyncReq) (op : Nat) : SyncOut × State :=
  if enginePoison s q.elemPa then (.fault cPoison, s)
  else if barrierBusy (s.die d).sync q.elemPa || noSpace s d q false then (.fault cAtomic, s)
  else
    let old := engineRead s q.elemPa q.size q.key
    (.ok (atomicReturn q.width q.signed old),
      engineWrite s q.elemPa q.size (atomicNew op q.width old q.x.toNat q.cmp.toNat) q.key)

/-- The waiters of a completed phase are answered (R281, R282). -/
def answerWaiters (s : State) (d : DieNo) (pa : Nat) (b : Barrier) (done : Bool) : State :=
  if !done then s
  else
    let mine := (s.die d).sync.waiters.filter fun w => w.pa == pa && !w.answered
    let near := inSram (s.die d).sync pa
    let reply (w : Waiter) : Option SyncReply := (s.unit? w.uid).bind fun u =>
      let q? := if w.baraw then u.sync.barawReq else u.sync.barwaitReq
      q?.map fun q => { req := q, value := (waitStatus b w.phase.toNat false).setWidth 512, code := 0, va := q.va, retry := false,
                         near := near }
    s.modSync d fun y => { y with waiters := y.waiters.map (fun w => if w.pa == pa then { w with answered := true } else w),
                                  replies := y.replies ++ mine.filterMap reply }

/-- A member of a barrier with the phase of its last arrival, at the engine and in the unit's table (R279). -/
def setMember (s : State) (d : DieNo) (uid : Uid) (va : Va) (pa : Nat) (arrived : Option (BitVec 15)) : State :=
  let old := ((s.die d).sync.members.find? fun m => m.uid == uid && m.pa == pa).bind fun m => m.arrived
  let ph := match arrived with | some p => some p | none => old
  let live := match s.unit? uid with | some u => u.live | none => false
  if !live then s
  else
  let s := s.modSync d fun y => { y with members := upsert (fun m => m.uid == uid && m.pa == pa) ⟨uid, pa, ph⟩ y.members }
  s.modUnit uid fun u => u.modSyncSt fun y => { y with members := upsert (fun m => m.pa == pa) ⟨va, pa, ph⟩ y.members }

/-- A table entry whose operation failed is taken back where the unit is no member (R279). -/
def unjoin (s : State) (d : DieNo) (uid : Uid) (pa : Nat) : State :=
  if (s.die d).sync.members.any fun m => m.uid == uid && m.pa == pa then s
  else s.modUnit uid fun u => u.modSyncSt fun y => { y with members := y.members.filter fun m => m.pa != pa }

/-- One arrival (R280, R281); `member` says on whose account, a copy arriving on its own (R226). -/
def arrive (s : State) (d : DieNo) (q : SyncReq) (member wait : Bool) : SyncOut × State :=
  let pa := granulePa q.pa
  let b := readBarrier s q
  let mine := (s.die d).sync.members.find? fun m => m.uid == q.who && m.pa == pa
  if enginePoison s q.pa then (.fault cPoison, unjoin s d q.who pa)
  else if !b.init || noSpace s d q ((member && mine.isNone) || wait) then (.fault cAtomic, unjoin s d q.who pa)
  else if member && (mine.bind fun m => m.arrived) == some (BitVec.ofNat 15 b.phase) then (.fault cAtomic, s)
  else
    let r := { b with arrived := b.arrived + 1 }.settle
    let s := writeBarrier s q r.1
    let s := if member then setMember s d q.who q.va pa (some (BitVec.ofNat 15 b.phase)) else s
    let s := if wait then s.modSync d fun y => { y with waiters := y.waiters ++ [⟨q.id, q.uid, pa, BitVec.ofNat 15 b.phase, true, false⟩] } else s
    (⟨(BitVec.ofNat 512 b.phase), 0, !wait, true⟩, answerWaiters s d pa r.1 r.2)

/-- A wait for the end of a phase (R280, R282). -/
def waitPhase (s : State) (d : DieNo) (q : SyncReq) (token : BitVec 15) (baraw : Bool) : SyncOut × State :=
  let pa := granulePa q.pa
  let b := readBarrier s q
  if enginePoison s q.pa then (.fault cPoison, s)
  else if !b.init || noSpace s d q (b.phase == token.toNat) then (.fault cAtomic, s)
  else if b.phase = token.toNat then
    (⟨0, 0, false, true⟩, s.modSync d fun y => { y with waiters := y.waiters ++ [⟨q.id, q.uid, pa, token, baraw, false⟩] })
  else (.ok (waitStatus b token.toNat (!baraw)), s)

/-- BARINIT at the engine (R280). -/
def barInit (s : State) (d : DieNo) (q : SyncReq) : SyncOut × State :=
  let b := readBarrier s q
  if enginePoison s q.pa then (.fault cPoison, s)
  else if noSpace s d q false || (s.die d).sync.waiters.any (fun w => w.pa == granulePa q.pa)
      || (b.init && (b.arrived != 0 || b.lostc != 0)) then (.fault cAtomic, s)
  else (.ok 0, writeBarrier s q { b with expected := q.x.toNat % 2 ^ 16, arrived := 0, lostc := 0, lastlost := false,
                                         phase := if b.init then b.phase else 0, init := true })

/-- BARRIVE in its join form (R280). -/
def barJoin (s : State) (d : DieNo) (q : SyncReq) : SyncOut × State :=
  let b := readBarrier s q
  if enginePoison s q.pa then (.fault cPoison, unjoin s d q.who (granulePa q.pa))
  else if !b.init || noSpace s d q (!(s.die d).sync.members.any fun m => m.uid == q.who && m.pa == granulePa q.pa) then
    (.fault cAtomic, unjoin s d q.who (granulePa q.pa))
  else (.ok (BitVec.ofNat 64 b.phase), setMember s d q.who q.va (granulePa q.pa) none)

/-- SYNCQ's answer (R277). -/
def queryGranule (s : State) (d : DieNo) (q : SyncReq) : Word :=
  let y := (s.die d).sync
  let b := readBarrier s q
  let bit (p : Bool) (i : Nat) : Nat := if p then 2 ^ i else 0
  BitVec.ofNat 64 (bit b.init 0 + bit (y.waiters.any fun w => w.pa == granulePa q.pa) 1
    + bit (y.overflow.contains (granulePa q.pa)) 2 + bit (enginePoison s q.pa) 3 + bit (y.drains.contains (q.pa / 2 ^ 14)) 4
    + (if b.init then 2 ^ 16 * b.phase else 0) + 2 ^ 32 * b.arrived + 2 ^ 48 * b.lostc)

/-- A lost arrival (R281); one at a poisoned line does not count, and is logged so (R284). -/
def lostArrive (s : State) (d : DieNo) (q : SyncReq) : SyncOut × State :=
  let b := readBarrier s q
  if enginePoison s q.pa then (⟨0, cPoison, false, true⟩, s)
  else if !b.init then (⟨0, 0, false, true⟩, s)
  else
    let r := { b with lostc := b.lostc + 1 }.settle
    (⟨0, 0, false, true⟩, answerWaiters (writeBarrier s q r.1) d (granulePa q.pa) r.1 r.2)

/-- An element of a load: element `done` in its place of the value (R264). -/
def loadElem (s : State) (q : SyncReq) : BitVec 512 :=
  if q.n = 1 then
    let v := engineRead s q.pa q.size q.key
    if q.signed then ((BitVec.ofNat (8 * q.size) v).signExtend 64).setWidth 512 else BitVec.ofNat 512 v
  else q.x ||| (BitVec.ofNat 512 (engineRead s q.elemPa q.size q.key) <<< (8 * q.size * q.done))

/-- The request's operation, or its next element, at the engine. -/
def performSync (s : State) (d : DieNo) (q : SyncReq) : SyncOut × State :=
  match q.kind with
  | .op o =>
    if o.toNat < 0x0C then doAtomic s d q o.toNat
    else if o = 0x0C then barInit s d q
    else if o = 0x0D then (if q.join then barJoin s d q else arrive s d q true false)
    else if o = 0x0E then waitPhase s d q (q.x.extractLsb' 0 15) false
    else if o = 0x0F then arrive s d q true q.waits
    else if o = 0x11 then
      let r := doAtomic s d q (ropOp q.rop q.width)
      if r.1.code = 0 then (⟨0, 0, true, decide (q.n ≤ q.done + 1)⟩, r.2) else r
    else (.ok (queryGranule s d q), s)
  | .load =>
    if enginePoison s q.elemPa then (.fault cPoison, s)
    else if noSpace s d q false then (.fault cAtomic, s)
    else (⟨loadElem s q, 0, true, decide (q.n ≤ q.done + 1)⟩, s)
  | .copyRead => (.ok 0, s)
  | .store =>
    if barrierBusy (s.die d).sync q.elemPa || noSpace s d q false then (.fault cAtomic, s)
    else (⟨0, 0, true, decide (q.n ≤ q.done + 1)⟩,
      engineWrite s q.elemPa q.size (q.x.toNat / 2 ^ (8 * q.size * q.done)) q.key)
  | .lostArrival => lostArrive s d q
  | .copyArrival => arrive s d q false false
  | .farrive => arrive s d q true false
  | .rewait =>
    match ((s.die d).sync.members.find? fun m => m.uid == q.who && m.pa == granulePa q.pa).bind fun m => m.arrived with
    | some p => waitPhase s d q p true
    | none => (.ok 0, s)

/-- A reply to the core: always for a fault and an acquire, else where an entry or an engine awaits it (R270). -/
def SyncReq.wantsReply (q : SyncReq) (o : SyncOut) : Bool :=
  o.answers && (o.code != 0 || !q.posted || q.acquire || q.kind == .copyArrival || q.kind == .op 0x0E || q.kind == .rewait)

/-- An earlier request of a unit has been returned RETRY and has still to be sent again: what its unit asked for after it waits,
for the order in which its requests reach an engine (R266, R286).  It waits for an earlier acquire of its unit at any engine as well,
which its own bundle may hold (R121). -/
def retryBefore (s : State) (q : SyncReq) : Bool :=
  let mine (x : SyncReq) : Bool := x.uid == q.uid && decide (x.id < q.id)
  s.dies.toList.any (fun x => x.sync.replies.any (fun r => r.retry && mine r.req) || x.sync.queue.any fun y => y.acquire && mine y)
    || match s.unit? q.uid with
      | some u => (heldReqs (s.cluster u.ident.cluster)).any fun y => y.acquire && mine y
      | none => false

/-- The request at an engine that is performed next: the first whose log ring has room and whose turn in a replay has
come, and which no request of its unit precedes. -/
def nextSync (s : State) (d : DieNo) : List Uid → List SyncReq → Option SyncReq
  | _, [] => none
  | skip, q :: rest =>
    let room := match (s.unit? q.who).bind fun u => s.ctx? u.ident.asid with
      | some k => !k.recording || !q.kind.logged || ringRoom s k d.val
      | none => true
    if skip.contains q.uid || retryBefore s q || !room || replayTurn s d q == .held then nextSync s d (skip ++ [q.uid]) rest else some q

/-- A request of several elements lets one of another unit's go before its next element, or goes on (R275): a free value says
which. -/
def yieldElement (s : State) (d : DieNo) (q : SyncReq) : State :=
  let (w, s) := s.freeWord
  if !w.getLsbD 0 then s
  else
    s.modSync d fun y =>
      let pre := y.queue.takeWhile fun x => x.id != q.id
      match y.queue.dropWhile fun x => x.id != q.id with
      | m :: rest =>
        let mine := rest.takeWhile fun x => x.uid == q.uid
        match rest.dropWhile fun x => x.uid == q.uid with
        | x :: more => { y with queue := pre ++ x :: m :: mine ++ more }
        | [] => y
      | [] => y

/-- SYNC_ENGINE_OPERATION (R266): an access reaches its engine and is performed, or returned RETRY behind a drain marker
(R286), or stops a replay that has no entry for it (R288). -/
def execSyncEngineOperation (d : DieNo) (s : State) : Host.Outcome State Fault Refusal :=
  .next <| match nextSync s d [] (s.die d).sync.queue with
  | none => s
  | some q =>
    if replayTurn s d q = .stray then
      match s.unit? q.who with
      | some u => stopStray s u.ident.asid
      | none => s
    else
      let drop (s : State) : State := s.modSync d fun y => { y with queue := removeFirst (fun x => x.id == q.id && x.kind == q.kind) y.queue }
      let answer (s : State) (r : SyncReply) : State := s.modSync d fun y => { y with replies := y.replies ++ [r] }
      if (s.die d).sync.drains.contains (q.pa / 2 ^ 14) then
        answer (drop s) { req := q, value := 0, code := 0, va := q.va, retry := true, near := false }
      else
        let near := inSram (s.die d).sync q.elemPa
        let (o, s') := performSync s d q
        let s' := touchLine (logSync s' d q q.elemVa o.code) d q.elemPa
        let access := q.kind == .load || q.kind == .store
        let more := q.n > q.done + 1 && (o.code == 0 || access) && !(o.code == 0 && o.finished)
        let s' := if more then s' else drop s'
        let s' := if more then
            let q' := { q with done := q.done + 1, x := if q.kind = .load && o.code == 0 then o.value else q.x,
                               rop := if access && o.code != 0 then 1 else q.rop }
            yieldElement (s'.modSync d fun y => { y with queue := updateFirst (fun x => x.id == q.id) (fun _ => q') y.queue }) d q
          else s'
        if (!more || o.code != 0) && q.wantsReply o && !(access && q.rop == 1) then
          answer s' { req := q, value := o.value, code := o.code, va := q.elemVa, retry := false, near := near }
        else s'

/-! ### Replies (R270, R282, R284, R285) -/

/-- Data for a pending entry: it waits in the landing buffer until its landing cycle (R111, R81). -/
def fillEntry (u : UnitSt) (id : Nat) (v : BitVec 512) : UnitSt :=
  let hit (e : PEntry) : Bool := match e.load with | some l => l.req == id | none => false
  { u with pend := updateFirst hit (fun e => { e with value := v, awaited := false }) u.pend }

/-- A pending entry whose data is discarded (R113, R284). -/
def dropEntry (u : UnitSt) (id : Nat) : UnitSt :=
  let hit (e : PEntry) : Bool := match e.load with | some l => l.req == id | none => false
  { u with pend := removeFirst hit u.pend }

/-- BARAW's status reaches its entry, and the bundle after it may issue (R282). -/
def fillBaraw (u : UnitSt) (v : BitVec 512) : UnitSt :=
  let fill (e : PEntry) : PEntry := if e.baraw then { e with value := v, awaited := false, baraw := false } else e
  ({ u with pend := u.pend.map fill } : UnitSt).modSyncSt fun y => { y with barawReq := none }

/-- Whether a reply answers the wait that a unit is in. -/
def answersWait (w : Option SyncReq) (q : SyncReq) : Bool := match w with
  | some x => x.id == q.id
  | none => false

/-- The fault of a reply: the entry or the wait ends, and the unit freezes at its next bundle boundary (R284, R285). -/
def replyFault (s : State) (r : SyncReply) : State :=
  let q := r.req
  let s := s.modUnit q.uid fun u =>
    let u := dropEntry u q.id
    let u := if answersWait u.sync.barawReq q then
        ({ u with pend := u.pend.filter fun e => !e.baraw } : UnitSt).modSyncSt fun y => { y with barawReq := none } else u
    if answersWait u.sync.barwaitReq q then
      u.modSyncSt fun y => { y with barwaitReq := none, barwaitDone := if r.code = cPoison then some q.bundle else y.barwaitDone }
    else u
  noteFault s q.uid { code := r.code, addr := r.va, mask := 1#4 <<< q.slot.toNat, after := true, source := .sync, slot := q.slot, bundle := q.bundle }

/-- A fault of a copy command is noted: of two engines' faults the earlier-issued command's is named first (R224). -/
def noteCopyFault (s : State) (cl : ClusterNo) (e : BitVec 1) (uid : Uid) (id : Nat) (r : FaultRec) : State :=
  let later := match (s.engine cl (e ^^^ 1)).queue.head? with
    | some o => o.fault.isSome && o.uid == some uid && decide (id < o.id)
    | none => false
  let isOther (d : FaultRec) : Bool := match d.source with | .copy e' _ => e' != e | _ => false
  s.modUnit uid fun u => u.modRun fun x =>
    { x with due := if later then (x.due.takeWhile fun d => !isOther d) ++ [r] ++ (x.due.dropWhile fun d => !isOther d)
                    else x.due ++ [r] }

/-- The arrival of a bound copy is performed (R226), or faults its command (R224). -/
def copyReply (s : State) (r : SyncReply) : State :=
  match r.req.copyEng, s.unit? r.req.uid with
  | some e, some u =>
    let mark (c : CopyCmd) : CopyCmd :=
      if c.arrival == some r.req.id then
        (if r.code = 0 then { c with arrived := true } else { c with arrival := none, fault := some ⟨r.code, r.va⟩, shadow := true })
      else c
    let hit := (s.engine u.ident.cluster e).queue.find? fun c => c.arrival == some r.req.id
    let s := s.modEngine u.ident.cluster e fun x => { x with queue := x.queue.map mark, faulted := x.faulted || (r.code != 0 && hit.isSome) }
    match hit with
    | some c =>
      if r.code = 0 then s
      else noteCopyFault s u.ident.cluster e r.req.uid c.id
        { code := r.code, addr := r.va, mask := 1#4 <<< r.req.slot.toNat, after := true, source := .copy e (c.hdr.extractLsb' 18 4),
          slot := r.req.slot, bundle := r.req.bundle }
    | none => s
  | _, _ => s

/-- A reply reaches the core (R270, R282). -/
def deliverReply (s : State) (r : SyncReply) : State :=
  let q := r.req
  if q.copyEng.isSome then copyReply s r
  else if q.kind == .lostArrival then s
  else
    match s.unit? q.uid with
    | none => s
    | some u =>
      if !u.live then s
      else if r.code != 0 then replyFault s r
      else
        let s := if answersWait u.sync.barwaitReq q then
            s.modUnit q.uid fun u => u.modSyncSt fun y => { y with barwaitReply := some (r.value.extractLsb' 0 64) }
          else if q.kind == .op 0x0F && !q.waits then s
          else if answersWait u.sync.barawReq q then s.modUnit q.uid fun u => fillBaraw u r.value
          else s.modUnit q.uid fun u => fillEntry u q.id r.value
        if q.acquire then rereadLoads (acquireAt s q.uid u.ident.cluster q.scope) q.uid else s

/-- A reply of the engine of a unit's own die whose line was in the SRAM takes 40 cycles from issue, where the core counts them: in
a core that runs no unit no cycle is observed (R266). -/
def replyDue (s : State) (d : DieNo) (r : SyncReply) : Bool :=
  match s.unit? r.req.uid with
  | none => true
  | some u =>
    let k := s.cluster u.ident.cluster
    !r.near || dieOf u.ident.cluster != d || k.running.isNone || decide (r.req.born + 40 ≤ k.cyc.toNat)

/-- SYNC_REPLY: the oldest reply of an engine reaches its core. -/
def execSyncReply (d : DieNo) (s : State) : Host.Outcome State Fault Refusal :=
  .next <| match (s.die d).sync.replies with
  | [] => s
  | r :: rest =>
    if r.retry || !replyDue s d r then s
    else deliverReply (s.modSync d fun y => { y with replies := rest }) r

/-- A request sent again takes its place before the later ones of its unit (R266). -/
def insertInOrder (q : SyncReq) (l : List SyncReq) : List SyncReq :=
  l.takeWhile (fun x => !(x.uid == q.uid && decide (q.id < x.id))) ++ q :: l.dropWhile fun x => !(x.uid == q.uid && decide (q.id < x.id))

/-- RETRY_RECEIVED (R286): the operation is translated again and sent again; a walk that it misses is sent first. -/
def execRetryReceived (d : DieNo) (s : State) : Host.Outcome State Fault Refusal :=
  .next <| match (s.die d).sync.replies with
  | [] => s
  | r :: rest =>
    if !r.retry then s
    else
      let pop (s : State) : State := s.modSync d fun y => { y with replies := rest }
      match s.unit? r.req.uid with
      | none => pop s
      | some u =>
        let acc : Access := match r.req.kind with
          | .load | .copyRead | .op 0x12 => .read
          | .store => .write
          | _ => .atomic
        match translate s u.accessor r.req.va acc with
        | .walk => requestWalk s u.ident.cluster u.ident.asid r.req.va acc.writes
        | .fault c a => deliverReply (pop s) { r with code := c, va := a, retry := false }
        | .ok pa _ _ =>
          let q := { r.req with pa := pa, die := homeOf (pa / 128) }
          (pop s).modSync q.die fun y => { y with queue := insertInOrder q y.queue }

/-! ### A park or diversion ends a wait, a resumption renews it (R282) -/

/-- The units' waits that are over leave the engines (R282): `ended` says which registrations. -/
def dropWaiters (s : State) (ended : Waiter → Bool) : State :=
  (List.finRange 8).foldl (fun s d => s.modSync d fun y => { y with waiters := y.waiters.filter fun w => !ended w }) s

/-- Every request, wherever it stands, that an engine has still to perform: behind a release, queued, or returned RETRY. -/
def mapRequests (s : State) (c : ClusterNo) (f : SyncReq → Option SyncReq) : State :=
  let rel (r : Release) : Release := match r.payload with
    | .sync q => { r with payload := match f q with | some q => .sync q | none => .none }
    | _ => r
  let reply (r : SyncReply) : Option SyncReply := if r.retry then (f r.req).map fun q => { r with req := q } else some r
  (List.finRange 8).foldl (fun s d => s.modSync d fun y =>
    { y with queue := y.queue.filterMap f, replies := y.replies.filterMap reply })
    (s.modCluster c fun k => { k with rels := k.rels.map rel })

/-- A request is still to be performed. -/
def unperformed (s : State) (c : ClusterNo) (id : Nat) : Bool :=
  (heldReqs (s.cluster c)).any (fun q => q.id == id) || s.dies.toList.any fun x =>
    x.sync.queue.any (fun q => q.id == id) || x.sync.replies.any fun r => r.retry && r.req.id == id

/-- The unit is no longer registered as a waiter, nor will be: the request of a BARWAIT that waits is taken back, and the arrival
of a BARAW registers none. -/
def endWait (s : State) (uid : Uid) : State :=
  match s.unit? uid with
  | none => s
  | some u =>
    let s := match u.sync.barwaitReq with
      | some q =>
        let s := mapRequests s u.ident.cluster fun x => if x.id = q.id then none else some x
        (List.finRange 8).foldl (fun s d => s.modSync d fun y => { y with replies := y.replies.filter fun r => r.req.id != q.id }) s
      | none => s
    let s := match u.sync.barawReq with
      | some q =>
        let s := mapRequests s u.ident.cluster fun x =>
          if x.id = q.id then (if x.kind == .rewait then none else some { x with waits := false }) else some x
        (List.finRange 8).foldl (fun s d => s.modSync d fun y =>
          { y with replies := y.replies.filter fun r => !(r.req.id == q.id && r.code == 0 && !r.retry) }) s
      | none => s
    (dropWaiters s fun w => w.uid == uid).modUnit uid fun u => u.modSyncSt fun y => { y with barwaitReq := none, barwaitReply := none }

/-- A bundle issues: its unit is no longer a waiter at the barrier whose phase it waited for. -/
def leaveWait (s : State) (uid : Uid) : State :=
  if s.dies.toList.any fun x => x.sync.waiters.any fun w => w.uid == uid && w.answered then
    dropWaiters s fun w => w.uid == uid && w.answered
  else s

/-- A unit that resumes in the wait after a BARAW registers again: with its arrival, where that is still to be performed. -/
def renewWait (s : State) (uid : Uid) : State :=
  match s.unit? uid with
  | none => s
  | some u =>
    match u.sync.barawReq with
    | none => s
    | some q =>
      if unperformed s u.ident.cluster q.id then
        mapRequests s u.ident.cluster fun x => some (if x.id = q.id then { x with waits := true } else x)
      else
        let (id, s) := s.newReq
        let q := { q with id := id, kind := .rewait, waits := true }
        let s := s.modUnit uid fun u => u.modSyncSt fun y => { y with barawReq := some q }
        sendSync s u.ident.cluster q

/-- A unit parks at a bundle boundary with its PC chain and loop state as they stand, a drain still to be
completed included, and its segment ends (R100, R101,
R200). -/
def parkUnit (s : State) (uid : Uid) : State :=
  match s.unit? uid with
  | none => s
  | some u =>
    let s := endWait s uid
    let s := s.modUnit uid fun u => u.modRun fun r =>
      { r with status := .parked, wait := none, preempt := false, endSeg := false, standing := 0, stood := false }
    endSegment s uid u.ident.cluster

end Sys2Proof.Machine
end

