-- ==== Sys2Proof/Machine/Window.lean ====
section
/-! DEFINITION.
The registers of a context's job-control page as a load finds them (R359, R360, R367, R380). -/

namespace Sys2Proof.Machine

/-- Offset in the front-end window of a physical address, and the job-control slot and offset in its page (R359). -/
def windowOff (pa : Nat) : Nat := pa - 0x8000000000000
def windowSlot (pa : Nat) : Nat := windowOff pa / 0x4000
def windowReg (pa : Nat) : Nat := windowOff pa % 0x4000

/-- The context of a job-control slot. -/
def slotCtx (s : State) (slot : Nat) : Option Context := s.hub.contexts.find? fun k => k.slot == slot

/-- A launch of a context by its serial, while it is one of the last 4096 (R360). -/
def launchBySerial (s : State) (a : BitVec 16) (serial : BitVec 32) : Option Launch :=
  ((s.hub.launches.filter fun l => l.asid == a).reverse.take 4096).find? fun l => l.serial == serial

/-- LQRES (R360). -/
def lqres (s : State) (k : Context) : Word :=
  match launchBySerial s k.asid k.lqsel with
  | none => (0#44) ++ (1#1) ++ (0#19)
  | some l =>
    (0#45) ++ BitVec.ofBool l.curtain ++ BitVec.ofBool l.killed ++ BitVec.ofBool l.done ++ BitVec.ofNat 16 l.remain

/-- A graph slot that belongs to another context (R367). -/
def foreignGraph (g : Graph) (k : Context) : Bool := g.state != 0 && g.asid != k.asid

/-- A register of a graph slot (R367). -/
def graphReg (g : Graph) (off : Nat) : Word :=
  match off with
  | 0x00 => g.gaddr
  | 0x08 => g.gahi.setWidth 64
  | 0x18 => g.fcode ++ g.node ++ g.passes ++ BitVec.ofNat 16 (min 65535 g.pends.length) ++ g.err ++ (0#5) ++ BitVec.ofBool g.drop ++ g.state
  | 0x20 => g.gcnt.setWidth 64
  | 0x28 => g.fser.setWidth 64
  | _ => 0

/-- A budget register (R380). -/
def budgetReg (k : Context) (off : Nat) : Word :=
  let r := (off - 0x100) / 8
  let i : Option Nat := if r < 3 then some r else if r < 8 then none else if r < 24 then some (r - 5) else none
  match i.bind fun i => k.budgets.toList[i]? with
  | some b => b.defer ++ b.limit
  | none => 0

/-! ### Nodes, bodies and phases (R16, R366, R372) -/

/-- Loop and conditional nodes have a body. -/
def Node.hasBody (n : Node) : Bool := decide (3 ≤ n.kind.toNat ∧ n.kind.toNat ≤ 5)

/-- Whether a node number lies in the body of a node. -/
def Node.inBody (m : Node) (i : Nat) : Bool := m.hasBody && decide (m.bfirst ≤ i ∧ i ≤ m.blast)

/-- Numbers of the nodes of a list. -/
def numbered (l : List Node) : List (Nat × Node) := l.zipIdx.map fun x => (x.2, x.1)

/-- The loop or conditional node whose body a node lies in directly: the smallest body that holds it. -/
def parentOf (l : List Node) (i : Nat) : Option Nat :=
  (numbered l).foldl (fun best x =>
    if x.2.inBody i then
      match best.bind fun b => l[b]? with
      | some y => if x.2.blast - x.2.bfirst < y.blast - y.bfirst then some x.1 else best
      | none => some x.1
    else best) none

/-- The nodes directly in a body, or the top-level nodes. -/
def childrenOf (l : List Node) (p : Option Nat) : List Nat := (List.range l.length).filter fun i => parentOf l i == p

/-- Every body around a node is at work. -/
def inRun (l : List Node) : Nat → Nat → Bool
  | 0, _ => false
  | n + 1, i =>
    match parentOf l i with
    | none => true
    | some p => match l[p]? with | some y => y.fired && !y.done && inRun l n p | none => false

/-- Phase boundaries that a running pass has still to complete, those of the bodies at work among them. -/
def boundariesLeft (x : Graph) : Nat :=
  ((numbered x.nodes).filter fun y => y.2.kind == 6 && !y.2.done && inRun x.nodes (x.nodes.length + 1) y.1).length

/-- Phase boundaries that a pass begins with. -/
def boundariesAhead (x : Graph) : Nat :=
  ((numbered x.nodes).filter fun y => y.2.kind == 6 && (parentOf x.nodes y.1).isNone).length

/-- The passes of a context that run or wait, in the order of their cues, with the boundaries that each has still to complete. -/
def openPasses (s : State) (a : BitVec 16) : List (Nat × Nat) :=
  let of (x : Graph) : List (Nat × Nat) :=
    (if x.state = 2 then [(x.cueNo, boundariesLeft x)] else []) ++ x.pends.map fun c => (c, boundariesAhead x)
  ((s.hub.graphs.toList.filter fun x => x.asid == a).flatMap of).insertionSort fun x y => x.1 ≤ y.1

/-- The phase counters of the passes of a list after a phase that counts n so far: each boundary ends a phase, and the pass that holds
it counts in the phase after its last, since its boundary waits for the passes before it alone (log 60). -/
def countPhases : Nat → List (Nat × Nat) → List Nat
  | n, [] => if n = 0 then [] else [n]
  | n, (_, 0) :: rest => countPhases (n + 1) rest
  | n, (_, b + 1) :: rest => n :: List.replicate b 0 ++ countPhases 1 rest

/-- The completion counters of a context's open phases, oldest first: the graphs of each that are not complete (R16). -/
def phaseCounts (s : State) (a : BitVec 16) : List Nat := countPhases 0 (openPasses s a)

/-- JCNT (R16, R360): the phases submitted and not yet complete. -/
def jobCount (s : State) (k : Context) : BitVec 16 := BitVec.ofNat 16 (phaseCounts s k.asid).length

/-- A 64-bit load from the front-end window (R359, R360). -/
def windowRead (s : State) (pa : Nat) : Word :=
  match slotCtx s (windowSlot pa) with
  | none => 0
  | some k =>
    let off := windowReg pa
    if off = 0x000 then (0#16) ++ jobCount s k ++ k.phase ++ k.asid
    else if off = 0x008 then BitVec.ofBool (!k.cancels.isEmpty) ++ (0#63)
    else if off = 0x010 then k.pwait.setWidth 64
    else if off = 0x018 then k.pentry
    else if off = 0x020 then k.pctl.setWidth 64
    else if off = 0x040 then k.lqsel.setWidth 64
    else if off = 0x048 then lqres s k
    else if 0x100 ≤ off ∧ off < 0x1C0 then budgetReg k off
    else if h : 0x1000 ≤ off ∧ off < 0x2000 then
      let g := s.hub.graphs[(off - 0x1000) / 64]'(by omega)
      if foreignGraph g k then 0 else graphReg g ((off - 0x1000) % 64)
    else 0

end Sys2Proof.Machine
end

