-- ==== Sys2Proof/Machine/Memory.lean ====
section
/-! DEFINITION.
Scalar and vector memory accesses (R107 to R126, R158): addresses, checks, holds, what each kind of page does with them,
landing, and the arrival of data. -/

namespace Sys2Proof.Machine

/-! ### Kinds of page -/

/-- What an access reaches: memory through the caches, a synchronisation engine (R263), the front-end window (R359), or
system space (R410). -/
inductive Route4 where
  | cached | sync | window | outside
  deriving DecidableEq, Repr

def routeOf (pa : Nat) (e : TlbEntry) : Route4 :=
  match paKind pa with
  | .dram _ => if e.sync then .sync else .cached
  | .window => .window
  | _ => .outside

/-- Checks of a page beyond those of R320: the window takes aligned 8-byte loads and stores only (R359), and a restartable
unit stores to two-version buffers only (R354). -/
def accessPage (u : UnitSt) (va : Va) (writes plain8 : Bool) (pa : Nat) (e : TlbEntry) : SlotResult :=
  failIf ((routeOf pa e == .window && !plain8) || (writes && u.restartable && !e.tvg)) cProtection va

/-! ### Budgets of an access (R380) -/

/-- Whether a die's slice supplies a line in place of memory. -/
def sliceOwned (s : State) (line : Nat) : Bool :=
  s.dies.toList.any fun x => match sliceLine? x line with | some l => l.st.owns | none => false

/-- What reading n bytes costs: two flits for a line served beyond the die, and two bursts where memory serves it. -/
def lineCost (s : State) (c : ClusterNo) (pa n : Nat) (key : BitVec 8) : List (Nat × Nat) :=
  if servedFrom s c pa n key < 2 then []
  else (bCrossbar, 2) :: (if sliceOwned s (pa / 128) then [] else [(bDram (homeOf (pa / 128)), 2)])

/-- What a transfer of n bytes with the host or an Estal peer costs: the crossbar's flits, and the host port's blocks of 64 bytes
(R13, R380). -/
def outsideCost (pa n : Nat) (acc : Access) : List (Nat × Nat) :=
  (bCrossbar, accessFlits acc) :: (if paKind pa = .host then [(bHost, (n + 63) / 64)] else [])

/-- What an access of n bytes costs. -/
def accessCost (s : State) (u : UnitSt) (pa n : Nat) (acc : Access) (e : TlbEntry) : List (Nat × Nat) :=
  match routeOf pa e with
  | .cached => lineCost s u.ident.cluster pa n e.key
  | .sync => syncCost u.ident.cluster pa (if n = 64 then 16 else 1) acc
  | .window => []
  | .outside => outsideCost pa n acc

/-! ### The checks and holds of an access -/

/-- A write of the core to the window or to system space that is still behind a release: a load there holds for it, so
that it sees it (R110, R359). -/
def outwardHold (s : State) (u : UnitSt) (pa : Nat) (e : TlbEntry) : SlotResult :=
  let waits := (s.cluster u.ident.cluster).rels.any fun r => match r.payload with
    | .window .. => true
    | .outside .. => true
    | _ => false
  if waits && (routeOf pa e == .window || routeOf pa e == .outside) then .hold .fence else .done

/-- The holds of an access whose translation is at hand. -/
def accessHolds (s : State) (u : UnitSt) (va : Va) (n : Nat) (acc : Access) (lands : Bool) : List SlotResult :=
  [memHold s s.issue.me u, if lands then landingHold s u else .done,
   match paOf s u va acc with
   | (pa, some e) => firstFail [if lands then outwardHold s u pa e else .done,
       if costsOpen s u.ident.asid (slotKey s) (accessCost s u pa n acc e) then .done else .hold .budget]
   | _ => .done]

/-- The checks of an access from alignment on (R109): MISALIGNED, translation, protection, WATCH, then the holds. -/
def accessChecks (s : State) (u : UnitSt) (va : Va) (n : Nat) (acc : Access) (plain8 lands : Bool) : List SlotResult :=
  [failIf (va.toNat % n != 0) cMisaligned va, pageCheck s u va acc (accessPage u va acc.writes plain8),
   watchCheck u va n (!acc.writes) acc.writes] ++ accessHolds s u va n acc lands

/-- What an access does while it holds. -/
def accessWait (va : State → UnitSt → Va) (n : Nat) (acc : Access) (s : State) (u : UnitSt) : State :=
  match paOf s u (va s u) acc with
  | (pa, some e) => costsRefuse s u.ident.asid (slotKey s) (accessCost s u pa n acc e)
  | _ => walkWait s u (va s u) acc

/-! ### Loads -/

/-- n bytes of memory outside the device as a request finds them: as the device has last written them there, and else the outside
world's own state (R110, R410). -/
def outsideBytes (s : State) (pa n : Nat) : List Byte × State :=
  let byte (i : Nat) : Byte :=
    match s.hub.outside.find? fun x => x.1 == (outDest pa).getD 0 && x.2.1 == pa + i with
    | some x => x.2.2
    | none => Config.outsideByte (s.fresh + i) (pa + i)
  ((List.range n).map byte, { s with fresh := s.fresh + n })

/-- What a load of a bundle of several slots may have to read again (R121); alone in its bundle it stands behind none of its
slots. -/
def rereadOf (s : State) (pa n : Nat) (e : TlbEntry) (signed vector ro : Bool) : Option Reread :=
  if s.issue.ready then some { pa := pa, n := n, key := e.key, rfloor := e.rfloor, rceil := e.rceil, signed := signed, vector := vector, ro := ro }
  else none

/-- An entry for a load of the slot whose data is on its way. -/
def loadEntry (s : State) (u : UnitSt) (d : Dest) (lat : Nat) (va : Va) (v : BitVec 512) (arrive : Option Nat)
    (poison : Bool) (again : Option Reread) : PEntry × State :=
  let (id, s) := s.newReq
  ({ mkEntry s u d v lat 0 with
      awaited := true
      load := some { req := id, va := va, arrive := arrive, poison := poison, sync := false, reread := again } }, s)

/-- The value of a load from the window or system space, and the request it leaves. -/
def outwardLoad (s : State) (va : Va) (pa n : Nat) (e : TlbEntry) : List Byte × State :=
  match routeOf pa e with
  | .window => (leBytes (windowRead s pa).toNat 8, s)
  | _ =>
    let (bs, s) := outsideBytes s pa n
    let req : OutLoad := { req := s.nextReq, uid := s.issue.me, dest := (outDest pa).getD 0, addr := pa, size := n, va := va }
    (bs, s.modHub fun h => { h with outLoads := h.outLoads ++ [req] })

/-- A load of n bytes to a destination (R110, R111): performed at issue, and its data lands when it arrives. -/
def loadTo (s : State) (u : UnitSt) (va : Va) (n elems : Nat) (d : Dest) (lat : Nat) (value : List Byte → BitVec 512)
    (signed : Bool) (acquire : Option (BitVec 2)) : State :=
  match paOf s u va .read with
  | (_, none) => s
  | (pa, some e) =>
    let c := u.ident.cluster
    let s := costsTake s u.ident.asid (slotKey s) (accessCost s u pa n .read e)
    match routeOf pa e with
    | .cached =>
      let blank := blankAt s u va
      let v := if blank then (List.replicate n 0, false) else viewBytes s c pa n e.key
      let arrive := arrivalOf s c pa n e.key
      let again := if blank then none else rereadOf s pa n e signed (elems != 1) false
      let s := fillCache s c (pa / 128) e.key e.rfloor e.rceil
      let (en, s) := loadEntry s u d lat va (value v.1) arrive v.2 again
      let s := s.setUnit s.issue.me (u.push en)
      match acquire with | some sc => acquireAt s s.issue.me c sc | none => s
    | .sync =>
      let (id, s) := s.newReq
      let q := { syncReq s u id .load pa va e.key with size := n / elems, n := elems, signed := signed,
                                                       acquire := acquire.isSome, scope := acquire.getD 0 }
      issueSync s u q (some (d, lat)) false
    | _ =>
      let (bs, s) := outwardLoad s va pa n e
      let (en, s) := loadEntry s u d lat va (value bs) none false none
      let s := s.setUnit s.issue.me (u.push en)
      match acquire with | some sc => acquireAt s s.issue.me c sc | none => s

/-- The address of an S.MEM slot (R107). -/
def memVa (u : UnitSt) (b : BitVec 6) (w : BitVec 2) (off : Int) (size : Nat) : Va :=
  u.windowVa w (u.reg b + BitVec.ofInt 64 (off * size))

/-- A scalar load of R108: n bytes, extended. -/
def loadSlot (n : Nat) (signed : Bool) (d b : BitVec 6) (w : BitVec 2) (o : BitVec 10) (s : State) :
    Host.Outcome State Fault Refusal :=
  let va (_ : State) (u : UnitSt) : Va := memVa u b w o.toInt n
  runSlotW s
    (fun s u => firstFail ([stallCheck u [.scalar b] [(.scalar d, landing u s.issue.lend.toNat)]] ++
      accessChecks s u (va s u) n .read (n == 8) (d != 0)))
    (accessWait va n .read)
    (fun s u => loadTo s u (va s u) n 1 (.scalar d) (landing u s.issue.lend.toNat)
      (fun bs => (extendTo n signed (leNat bs)).setWidth 512) signed none)

/-- LDB (R108). -/
def execLdb (d b : BitVec 6) (w : BitVec 2) (o : BitVec 10) (s : State) : Host.Outcome State Fault Refusal :=
  loadSlot 1 true d b w o s

/-- LDBU (R108). -/
def execLdbu (d b : BitVec 6) (w : BitVec 2) (o : BitVec 10) (s : State) : Host.Outcome State Fault Refusal :=
  loadSlot 1 false d b w o s

/-- LDH (R108). -/
def execLdh (d b : BitVec 6) (w : BitVec 2) (o : BitVec 10) (s : State) : Host.Outcome State Fault Refusal :=
  loadSlot 2 true d b w o s

/-- LDHU (R108). -/
def execLdhu (d b : BitVec 6) (w : BitVec 2) (o : BitVec 10) (s : State) : Host.Outcome State Fault Refusal :=
  loadSlot 2 false d b w o s

/-- LDW (R108). -/
def execLdw (d b : BitVec 6) (w : BitVec 2) (o : BitVec 10) (s : State) : Host.Outcome State Fault Refusal :=
  loadSlot 4 true d b w o s

/-- LDWU (R108). -/
def execLdwu (d b : BitVec 6) (w : BitVec 2) (o : BitVec 10) (s : State) : Host.Outcome State Fault Refusal :=
  loadSlot 4 false d b w o s

/-- LDD (R108). -/
def execLdd (d b : BitVec 6) (w : BitVec 2) (o : BitVec 10) (s : State) : Host.Outcome State Fault Refusal :=
  loadSlot 8 false d b w o s

/-- LDACQ (R108, R121): a doubleword, with an acquire at its scope. -/
def execLdacq (d b : BitVec 6) (w : BitVec 2) (c : BitVec 2) (o : BitVec 8) (s : State) :
    Host.Outcome State Fault Refusal :=
  let va (_ : State) (u : UnitSt) : Va := memVa u b w o.toInt 8
  runSlotW s
    (fun s u => firstFail ([stallCheck u [.scalar b] [(.scalar d, landing u s.issue.lend.toNat)]] ++
      accessChecks s u (va s u) 8 .read true (d != 0)))
    (accessWait va 8 .read)
    (fun s u => loadTo s u (va s u) 8 1 (.scalar d) (landing u s.issue.lend.toNat)
      (fun bs => (BitVec.ofNat 64 (leNat bs)).setWidth 512) false (some c))

/-! ### LDRO (R125) -/

/-- LDRO (R108, R125). -/
def execLdro (d b : BitVec 6) (w : BitVec 2) (o : BitVec 10) (s : State) : Host.Outcome State Fault Refusal :=
  let va (_ : State) (u : UnitSt) : Va := memVa u b w o.toInt 8
  runSlotW s
    (fun s u => firstFail ([stallCheck u [.scalar b] [(.scalar d, landing u s.issue.lend.toNat)]] ++
      accessChecks s u (va s u) 8 .read false (d != 0)))
    (accessWait va 8 .read)
    (fun s u =>
      match paOf s u (va s u) .read with
      | (pa, some e) =>
        if routeOf pa e = .cached then
          let s := costsTake s u.ident.asid (slotKey s) (accessCost s u pa 8 .read e)
          let blank := blankAt s u (va s u)
          let (v, poison, arrive, s) := roRead s u.ident.cluster pa e.key e.rfloor e.rceil
          let (v, poison) : Word × Bool := if blank then (0, false) else (v, poison)
          let again := if blank then none else rereadOf s pa 8 e false false true
          let (en, s) := loadEntry s u (.scalar d) (landing u s.issue.lend.toNat) (va s u) (v.setWidth 512) arrive poison again
          s.setUnit s.issue.me (u.push en)
        else loadTo s u (va s u) 8 1 (.scalar d) (landing u s.issue.lend.toNat)
          (fun bs => (BitVec.ofNat 64 (leNat bs)).setWidth 512) false none
      | _ => s)

/-! ### Stores -/

/-- The port by which a request to a peer leaves: the lowest-numbered one that is up, every port leading to the switch
(R413). -/
def outPort (s : State) (dest : Nat) : Option (Fin 16) :=
  if dest = 0 then none else (List.finRange 16).find? fun p => (s.hub.ports.get p).gen != 0

/-- A destination outside the device can be reached (R411, R413). -/
def destUp (s : State) (dest : Nat) : Bool := if dest = 0 then s.mod.hostUp else (outPort s dest).isSome

/-- Traffic to a destination holds while its port retrains (R415). -/
def destHolds (s : State) (dest : Nat) : Bool := match outPort s dest with | some p => (s.hub.ports.get p).training | none => false

/-- A posted write that cannot be delivered: its unit freezes with POISON at its next bundle boundary (R411). -/
def undelivered (s : State) (w : OutWrite) : State :=
  noteFault s w.uid { code := cPoison, addr := w.va, mask := 1#4 <<< w.slot.toNat, after := true, source := .core, slot := w.slot, bundle := w.bundle }

/-- A write to system space (R410). -/
def outWrite (uid : Uid) (pa : Nat) (bs : List Byte) (va : Va) (bundle : BitVec 64) (slot : BitVec 2) : OutWrite :=
  { uid := uid, dest := (outDest pa).getD 0, port := none, addr := pa, data := BitVec.ofNat 512 (leNat bs), size := bs.length, va := va,
    bundle := bundle, slot := slot }

/-- A write to system space is posted (R410). -/
def postWrite (s : State) (w : OutWrite) : State :=
  let dest := w.dest
  if !destUp s dest then undelivered s w
  else
  let w := { w with port := outPort s dest }
  let bs := leBytes w.data.toNat w.size
  s.modHub fun h =>
    { h with outWrites := h.outWrites ++ [w],
             outside := (List.range w.size).foldl (fun l i => upsert (fun x => x.1 == dest && x.2.1 == w.addr + i)
               (dest, w.addr + i, bs.getD i 0) l) h.outside }

/-- Bytes posted to system space (R410). -/
def postOutside (s : State) (uid : Uid) (pa : Nat) (bs : List Byte) (va : Va) (bundle : BitVec 64) (slot : BitVec 2) :
    State :=
  postWrite s (outWrite uid pa bs va bundle slot)

/-- What follows the releases of a core that are under way, in order. -/
def afterReleases (s : State) (uid : Uid) (c : ClusterNo) (p : RelPayload) : State :=
  let (id, s) := s.newReq
  s.modCluster c fun k => { k with rels := k.rels ++ [{ id := id, uid := uid, lines := [], scope := 0, flushed := true, system := false,
                                                        payload := p }] }

/-- A store of bytes (R114); `rel` is the scope of a release store (R120). -/
def storeBytes (s : State) (u : UnitSt) (va : Va) (bs : List Byte) (elems : Nat) (rel : Option (BitVec 2)) : State :=
  match paOf s u va .write with
  | (_, none) => s
  | (pa, some e) =>
    let c := u.ident.cluster
    let me := s.issue.me
    let s := costsTake s u.ident.asid (slotKey s) (accessCost s u pa bs.length .write e)
    let wide := match rel with | some sc => releases s me c sc | none => false
    let scope := rel.getD 0
    match routeOf pa e with
    | .cached =>
      let p : RelPayload := if scope = 0 then .none
        else .store pa bs.length scope (BitVec.ofNat 512 (leNat bs)) e.key e.rfloor e.rceil
      if wide then cacheStore (startRelease s me c scope p) c pa bs e.key e.rfloor e.rceil
      else cacheStore s c pa bs e.key e.rfloor e.rceil
    | .sync =>
      let (id, s) := s.newReq
      let q := { syncReq s u id .store pa va e.key with size := bs.length / elems, n := elems, x := BitVec.ofNat 512 (leNat bs), scope := scope }
      issueSync s u q none wide
    | .window =>
      let p : RelPayload := .window (windowSlot pa) (windowReg pa) (BitVec.ofNat 64 (leNat bs))
      if wide then startRelease s me c scope p else afterReleases s me c p
    | .outside =>
      let w := outWrite me pa bs va u.flow.pc.addr s.issue.slot
      if wide then startRelease s me c scope (.outside w)
      else if (s.cluster c).rels.any fun r => r.uid == me then afterReleases s me c (.outside w)
      else postWrite s w

/-- A scalar store of R108. -/
def storeSlot (n : Nat) (d b : BitVec 6) (w : BitVec 2) (o : BitVec 10) (s : State) : Host.Outcome State Fault Refusal :=
  let va (_ : State) (u : UnitSt) : Va := memVa u b w o.toInt n
  runSlotW s
    (fun s u => firstFail ([noLend s u, stallCheck u [.scalar d, .scalar b] []] ++
      accessChecks s u (va s u) n .write (n == 8) false))
    (accessWait va n .write)
    (fun s u => storeBytes s u (va s u) (leBytes (u.reg d).toNat n) 1 none)

/-- STB (R108). -/
def execStb (d b : BitVec 6) (w : BitVec 2) (o : BitVec 10) (s : State) : Host.Outcome State Fault Refusal :=
  storeSlot 1 d b w o s

/-- STH (R108). -/
def execSth (d b : BitVec 6) (w : BitVec 2) (o : BitVec 10) (s : State) : Host.Outcome State Fault Refusal :=
  storeSlot 2 d b w o s

/-- STW (R108). -/
def execStw (d b : BitVec 6) (w : BitVec 2) (o : BitVec 10) (s : State) : Host.Outcome State Fault Refusal :=
  storeSlot 4 d b w o s

/-- STD (R108). -/
def execStd (d b : BitVec 6) (w : BitVec 2) (o : BitVec 10) (s : State) : Host.Outcome State Fault Refusal :=
  storeSlot 8 d b w o s

/-- STREL (R108, R120): a release store. -/
def execStrel (d b : BitVec 6) (w : BitVec 2) (c : BitVec 2) (o : BitVec 8) (s : State) :
    Host.Outcome State Fault Refusal :=
  let va (_ : State) (u : UnitSt) : Va := memVa u b w o.toInt 8
  runSlotW s
    (fun s u => firstFail ([noLend s u, stallCheck u [.scalar d, .scalar b] []] ++
      accessChecks s u (va s u) 8 .write true false))
    (accessWait va 8 .write)
    (fun s u => storeBytes s u (va s u) (leBytes (u.reg d).toNat 8) 1 (some c))

/-! ### PFL2 (R126) -/

/-- The address of a PFL2: the line that holds va. -/
def prefetchVa (u : UnitSt) (b : BitVec 6) (w : BitVec 2) (o : BitVec 10) : Va := memVa u b w o.toInt 128

/-- PFL2: the line into a slice of the die in S, as a read would; it holds only while its translation is walked, a translation
fault or refusal drops it, and what it reads counts in the budgets. -/
def execPfl2 (b : BitVec 6) (w : BitVec 2) (o : BitVec 10) (s : State) : Host.Outcome State Fault Refusal :=
  let cost (s : State) (u : UnitSt) (pa : Nat) (e : TlbEntry) : List (Nat × Nat) :=
    lineCost s u.ident.cluster (pa / 128 * 128) 128 e.key
  runSlotW s
    (fun s u => firstFail [noLend s u, stallCheck u [.scalar b] [],
      match translate s u.accessor (prefetchVa u b w o) .read with
      | .walk => .hold .walk
      | _ => .done])
    (fun s u => walkWait s u (prefetchVa u b w o) .read)
    (fun s u =>
      match translate s u.accessor (prefetchVa u b w o) .read with
      | .ok pa e _ =>
        if routeOf pa e = .cached then
          let d := dieOf u.ident.cluster
          let s := costsTake s u.ident.asid (slotKey s) (cost s u pa e)
          if sliceServes s d (pa / 128 * 128) 128 e.key then s else readMiss s d (pa / 128) e.key e.rfloor e.rceil true
        else s
      | _ =>
        -- the prefetch is dropped, and with it the walk that failed for it
        s.modWalk fun x => { x with walks := x.walks.filter fun y =>
          !(y.cluster == u.ident.cluster && y.asid == u.ident.asid && vpnOf y.va == vpnOf (prefetchVa u b w o)) })

/-! ### VLDG and VSTG (R158) -/

/-- The lend-byte misuse of a vector memory slot. -/
def vmemMisuse (l : BitVec 8) : Bool := lendRm l != 0 || lendFmt l != 0 || lendTb l || lendTa l

/-- VLDG: 64 bytes of global memory to a vector, landing after LAND.DELAY. -/
def execVldg (d : BitVec 8) (a : BitVec 6) (w : BitVec 2) (o : BitVec 6) (s : State) : Host.Outcome State Fault Refusal :=
  let dd := opD s.issue d
  let va (_ : State) (u : UnitSt) : Va := memVa u a w o.toInt 64
  runSlotW s
    (fun s u => firstFail ([vectorChecks s u (vmemMisuse s.issue.lend) [.scalar a] [(dd.dest, u.csr.land.toNat)]] ++
      accessChecks s u (va s u) 64 .read false true))
    (accessWait va 64 .read)
    (fun s u => loadTo (noteVector s [] 0 0 0) u (va s u) 64 16 dd.dest u.csr.land.toNat vecOfBytes false none)

/-- VSTG: a vector to 64 bytes of global memory. -/
def execVstg (v : BitVec 8) (a : BitVec 6) (w : BitVec 2) (o : BitVec 6) (s : State) : Host.Outcome State Fault Refusal :=
  let x := opD s.issue v
  let va (_ : State) (u : UnitSt) : Va := memVa u a w o.toInt 64
  runSlotW s
    (fun s u => firstFail ([vectorChecks s u (vmemMisuse s.issue.lend) [x.dest, .scalar a] []] ++
      accessChecks s u (va s u) 64 .write false false))
    (accessWait va 64 .write)
    (fun s u => storeBytes (noteVector s [x] 0 0 0) u (va s u) (bytesOfVec (u.vec x)) 16 none)

/-! ### Landing (R60, R111, R113) -/

/-- Load data that arrives with an uncorrectable error: the entry is discarded and the unit freezes with POISON at its
next bundle boundary (R113). -/
def poisonArrival (s : State) (uid : Uid) (e : PEntry) (l : LoadInfo) : State :=
  let s := s.modUnit uid fun u => { dropEntry u l.req with drops := u.drops.filter fun x => x != e }
  noteFault s uid { code := cPoison, addr := l.va, mask := 1#4 <<< e.slot.toNat, after := true, source := .core, slot := e.slot, bundle := e.bundle }

/-- A load's data arrives (R111). -/
def arriveData (s : State) (uid : Uid) (req : Nat) : State :=
  match s.unit? uid with
  | none => s
  | some u =>
    let s := s.modHub fun h => { h with outLoads := h.outLoads.filter fun x => x.req != req }
    let hit (e : PEntry) : Bool := e.awaited && match e.load with | some l => l.req == req && l.reread.isNone | none => false
    match u.pend.find? hit with
    | some e =>
      match e.load with
      | some l => if l.poison then poisonArrival s uid e l else s.modUnit uid fun u => fillEntry u req e.value
      | none => s
    | none =>
      match u.drops.find? hit with
      | some e =>
        match e.load with
        | some l => if l.poison then poisonArrival s uid e l else s.modUnit uid fun u => { u with drops := u.drops.filter fun x => x != e }
        | none => s
      | none => s

/-- A load's data is on its way without a fixed time, from no synchronisation engine and behind no acquire (R112). -/
def LoadInfo.comes (l : LoadInfo) : Bool := l.arrive.isNone && !l.sync && l.reread.isNone

/-- Whether a pending load of a unit has its data on its way so. -/
def awaitsArrival (s : State) (uid : Uid) (req : Nat) : Bool :=
  match s.unit? uid with
  | some u => (u.pend ++ u.drops).any fun e => match e.load with | some l => l.req == req && l.comes | none => false
  | none => false

/-- LOAD_DATA_ARRIVAL (R111): the data of a load arrives into the landing buffer. -/
def execLoadDataArrival (uid : Uid) (req : Nat) (s : State) : Host.Outcome State Fault Refusal :=
  let far := match s.hub.outLoads.find? fun x => x.req == req with | some x => !destUp s x.dest || destHolds s x.dest | none => false
  .next (if awaitsArrival s uid req && !far then arriveData s uid req else s)

/-- A core cycle passes for the loads with a fixed arrival: those whose time has come arrive (R112). -/
def tickLoads (s : State) (uid : Uid) : State :=
  match s.unit? uid with
  | none => s
  | some u =>
    let tick (e : PEntry) : PEntry := match e.load with
      | some l => { e with load := some { l with arrive := l.arrive.map (· - 1) } }
      | none => e
    let due := ((u.pend ++ u.drops).map tick).filterMap fun e => match e.load with
      | some l => if e.awaited && l.arrive == some 0 && l.reread.isNone then some l.req else none
      | none => none
    let s := s.setUnit uid { u with pend := u.pend.map tick, drops := u.drops.map tick }
    due.foldl (fun s r => arriveData s uid r) s

/-- A load that has reached its landing cycle without its data (R111). -/
def missing (u : UnitSt) : Bool := u.pend.any fun e => e.m == 0 && e.awaited && !e.baraw

/-- A held cycle of a unit at issue: the hold line is up, HOLDC counts, and the unit's time stands still (R111, R113). -/
def raiseHold (s : State) (uid : Uid) (k : WaitKind) : State :=
  s.modUnit uid fun u => (u.modCsr fun c => { c with holdc := c.holdc + 1 }).modRun fun r => { r with wait := some k }

/-- HOLD_LINE_RAISE (R111): a load is missing at its landing cycle and the hold line rises. -/
def execHoldLineRaise (uid : Uid) (s : State) : Host.Outcome State Fault Refusal :=
  .next <| match s.unit? uid with
  | some u => if missing u && u.run.status == .running then raiseHold s uid .landing else s
  | none => s

/-- A write before the n-th of the record, to the same register, whose time has also come (R61). -/
def behindWrite (u : UnitSt) (n : Nat) (e : PEntry) : Bool := (u.pend.take n).any fun x => x.m == 0 && x.dest.overlaps e.dest

/-- PENDING_WRITE_VISIBLE (R60): the n-th pending write, its remaining latency at zero and its data there, becomes
visible, once no earlier one of the same register stands before it. -/
def execPendingWriteVisible (uid : Uid) (n : Nat) (s : State) : Host.Outcome State Fault Refusal :=
  .next <| match s.unit? uid with
  | some u =>
    match u.pend[n]? with
    | some e => if e.m = 0 ∧ !e.awaited ∧ !behindWrite u n e then s.setUnit uid (applyEntry { u with pend := u.pend.eraseIdx n } e) else s
    | none => s
  | none => s

end Sys2Proof.Machine
end

