-- ==== Sys2Proof/Machine/CopyRun.lean ====
section
/-! DEFINITION.
The copy engines at work (R210 to R214, R217, R223 to R227): reading and writing the rows of a command, streaming kinds,
faults, completion, the barrier arrival, publication, abandonment and follow-ons. -/

namespace Sys2Proof.Machine

/-! ### The memory accesses of an engine -/

/-- An engine's progress through a command: the machine, what the accesses cost (R380), the lines written that have
still to reach their device step, and the buffer that its writes lie in. -/
structure EngSt where
  s : State
  cost : List (Nat × Nat)
  await : List Nat
  buf : Option Nat
  deriving DecidableEq, Repr

/-- How a part of a command went: done; a fault with what was written so far; a translation that is not at hand; or a
synchronisation engine that does not perform its reads yet (R115, R266, R287), or never, a replay having no entry for them
(R288). -/
inductive EngR (α : Type) where
  | ok (x : EngSt) (a : α)
  | stop (x : EngSt) (code : BitVec 8) (addr : Va)
  | again (va : Va) (write : Bool)
  | held (stray : Bool)

def EngR.bind {α β : Type} (r : EngR α) (f : EngSt → α → EngR β) : EngR β :=
  match r with
  | .ok x a => f x a
  | .stop x c a => .stop x c a
  | .again va w => .again va w
  | .held y => .held y

/-- Sizes added up per budget. -/
def addCosts (l m : List (Nat × Nat)) : List (Nat × Nat) :=
  m.foldl (fun l x => if l.any fun y => y.1 == x.1 then updateFirst (fun y => y.1 == x.1) (fun y => (y.1, y.2 + x.2)) l else l ++ [x]) l

/-- Who a command reads and writes for. -/
def CopyCmd.accessor (c : CopyCmd) (s : State) (cl : ClusterNo) : Accessor :=
  ⟨c.asid, cl, match c.uid.bind s.unit? with | some u => u.isPrompter | none => false, c.views⟩

/-- A walk that an engine waits for: sent, and run where the walker takes it. -/
def engWalk (s : State) (cl : ClusterNo) (a : BitVec 16) (va : Va) (write : Bool) : State :=
  let s := requestWalk s cl a va write
  match walkFor s cl a (vpnOf va) with
  | some w => if w.fail.isNone then completeWalk s w.id else s
  | none => s

/-- The walks of a page that have failed, forgotten: the fault they ended with has been taken. -/
def dropWalk (s : State) (cl : ClusterNo) (a : BitVec 16) (va : Va) : State :=
  s.modWalk fun w => { w with walks := w.walks.filter fun y => !(y.cluster == cl && y.asid == a && vpnOf y.va == vpnOf va && y.fail.isSome) }

/-- A translation for an engine, with its walk (R224). -/
def engTranslate (x : EngSt) (c : CopyCmd) (cl : ClusterNo) (va : Va) (acc : Access) : EngR (Nat × TlbEntry × Bool) :=
  let who := c.accessor x.s cl
  let first := translate x.s who va acc
  let s := match first with | .walk => engWalk x.s cl c.asid va acc.writes | _ => x.s
  match (match first with | .walk => translate s who va acc | r => r) with
  | .ok pa e blank => .ok { x with s := tlbTouch s cl e } (pa, e, blank)
  | .fault code a => .stop { x with s := dropWalk s cl c.asid va } code a
  | .walk => .again va acc.writes

/-- n bytes from an address cut at 128-byte lines, addresses wrapping within the window (R212). -/
def lineChunks (hi : BitVec 16) (lo : Word) (n : Nat) : List (Va × Nat) :=
  if n = 0 then []
  else
    let o := lo.toNat % 128
    (List.range ((o + n + 127) / 128)).map fun i =>
      let a := if i = 0 then 0 else 128 * i - o
      (hi ++ (lo + BitVec.ofNat 64 a), min n (128 * (i + 1) - o) - a)

/-- A copy read of a sync page as its engine has it: element i of its aligned 4-byte elements (R263, R287). -/
def copyReadReq (s : State) (uid : Uid) (u : UnitSt) (pa : Nat) (va : Va) (key : BitVec 8) (i : Nat) : SyncReq :=
  let a := BitVec.ofNat 80 (va.toNat / 4 * 4 + 4 * i)
  { syncReq s u 0 .copyRead (pa / 4 * 4 + 4 * i) a key with uid := uid, who := uid, width := 1 }

/-- Operations that the unit issued before a command have still to be performed at an engine: the command's reads of sync pages
come after them (R115, R210, R266). -/
def earlierSync (s : State) (uid : Uid) (c : CopyCmd) (cl : ClusterNo) : Bool :=
  syncPending s uid c.id || (heldReqs (s.cluster cl)).any fun q => q.uid == uid && decide (q.id < c.id)

/-- The elements of a copy read performed in order at their engine, each logged where its ring has room and its turn in a replay
has come (R287, R288). -/
def copyReadElems (s : State) (uid : Uid) (u : UnitSt) (pa : Nat) (va : Va) (key : BitVec 8) (code : BitVec 8) :
    Nat → Nat → Except Bool State
  | _, 0 => .ok s
  | i, n + 1 =>
    let q := copyReadReq s uid u pa va key i
    match ((s.ctx? u.ident.asid).map fun k => engineTurn s k q.die q).getD .go with
      | .held => .error false
      | .stray => .error true
      | .go => copyReadElems (touchLine (logSync s q.die q q.va code) q.die q.pa) uid u pa va key code (i + 1) n

/-- A copy read of a sync page at its engine: done, or not yet, or never (`error true`). -/
def copyRead (s : State) (c : CopyCmd) (cl : ClusterNo) (pa : Nat) (va : Va) (key : BitVec 8) (n : Nat) (code : BitVec 8) :
    Except Bool State :=
  match c.uid.bind fun u => (s.unit? u).map fun x => (u, x) with
  | none => .ok s
  | some (uid, u) =>
    if earlierSync s uid c cl || (s.die (homeOf (pa / 128))).sync.drains.contains (pa / 2 ^ 14) then .error false
    else copyReadElems s uid u pa va key code 0 ((va.toNat % 4 + n + 3) / 4)

/-- The bytes of a header page below its header read as zero (R327). -/
def blankBytes (va : Va) (blank : Bool) (bs : List Byte) : List Byte :=
  if blank then bs.zipIdx.map fun x => if (va.toNat + x.2) % 16384 < 16384 - 64 then 0 else x.1 else bs

/-- The bytes of one chunk of a global source. -/
def readChunk (x : EngSt) (c : CopyCmd) (cl : ClusterNo) (va : Va) (n : Nat) : EngR (List Byte) :=
  (engTranslate x c cl va .read).bind fun x (pa, e, blank) =>
    match routeOf pa e with
    | .window => .stop x cProtection va
    | .outside =>
      let (bs, s) := outsideBytes x.s pa n
      .ok { x with s := s, cost := addCosts x.cost (outsideCost pa n .read) } bs
    | .sync =>
      let bad := enginePoison x.s pa
      match copyRead x.s c cl pa va e.key n (if bad then cPoison else 0) with
      | .error stray => .held stray
      | .ok s =>
        let x := { x with s := s, cost := addCosts x.cost (syncCost cl pa ((va.toNat % 4 + n + 3) / 4) .read) }
        if bad then .stop x cPoison va else .ok x (deviceBytes x.s pa n e.key)
    | .cached =>
      let v := viewBytes x.s cl pa n e.key
      let cost := lineCost x.s cl pa n e.key
      let miss := servedFrom x.s cl (pa / 128 * 128) 128 e.key = 2
      let s := if miss then readMiss x.s (dieOf cl) (pa / 128) e.key e.rfloor e.rceil else x.s
      let x := { x with s := s, cost := addCosts x.cost cost }
      if v.2 then .stop x cPoison va else .ok x (blankBytes va blank v.1)

/-- Bytes of a global source. -/
def readChunks (c : CopyCmd) (cl : ClusterNo) : List (Va × Nat) → EngSt → List Byte → EngR (List Byte)
  | [], x, acc => .ok x acc
  | (va, n) :: rest, x, acc => (readChunk x c cl va n).bind fun x bs => readChunks c cl rest x (acc ++ bs)

/-- The line of a cluster cache takes what the core's own engine wrote (R115). -/
def cacheFollow (s : State) (cl : ClusterNo) (line : Nat) (data : BitVec 1024) (m : BitVec 128) : State :=
  let f (l : CacheLine) : CacheLine := { l with data := mergeLine l.data data m, dirty := l.dirty &&& ~~~m }
  s.modCluster cl fun k =>
    let lines := updateFirst (fun l => l.line == line) f k.cache
    { k with cache := lines }

/-- One chunk of a global destination: inside one two-version buffer, in the version inactive at the walker (R212). -/
def writeChunk (x : EngSt) (c : CopyCmd) (cl : ClusterNo) (va : Va) (bs : List Byte) : EngR Unit :=
  (engTranslate x c cl va .write).bind fun x (pa, e, _) =>
    if e.buffer.isNone || (x.buf.isSome && x.buf != e.buffer) then .stop x cCopy va
    else
      let line := pa / 128
      let o := pa % 128
      let m := maskAt o bs.length
      let data : BitVec 1024 := (BitVec.ofNat 1024 (leNat bs)) <<< (8 * o)
      let cost := addCosts x.cost (lineCost x.s cl (128 * line) 128 e.key)
      let s := mergeIntoSlice (cacheFollow x.s cl line data m) (dieOf cl) line data m e.key e.rfloor e.rceil
      .ok { s := s, cost := cost, await := if x.await.contains line then x.await else x.await ++ [line], buf := e.buffer } ()

/-- Bytes of a global destination. -/
def writeChunks (c : CopyCmd) (cl : ClusterNo) : List (Va × Nat) → List Byte → EngSt → EngR Unit
  | [], _, x => .ok x ()
  | (va, n) :: rest, bs, x => (writeChunk x c cl va (bs.take n)).bind fun x _ => writeChunks c cl rest (bs.drop n) x

/-! ### The rows of a command (R198, R212 to R214) -/

/-- A handle of the command's unit. -/
def CopyCmd.handle (c : CopyCmd) (s : State) (h : BitVec 8) : Option Handle :=
  (c.uid.bind s.unit?).bind fun u => u.handle? h

/-- Byte k of a ring's data from a counter position, in its level. -/
def ringByte (h : Handle) (pos : BitVec 32) (k : Nat) : Nat :=
  h.slabAt (pos + BitVec.ofNat 32 (k / h.slabSize)) + k % h.slabSize

/-- The pieces of n bytes at byte k of a ring's data, cut at slabs: (address in its level, length). -/
def ringPieces (h : Handle) (pos : BitVec 32) (k n : Nat) : List (Nat × Nat) :=
  let sz := h.slabSize
  if sz = 0 || n = 0 then []
  else
    let o := k % sz
    (List.range ((o + n + sz - 1) / sz)).map fun i =>
      let a := if i = 0 then 0 else sz * i - o
      (ringByte h pos (k + a), min n (sz * (i + 1) - o) - a)

/-- A row's address in a window (R212). -/
def rowLo (base : Word) (stride : Int) (i : Nat) : Word := base + BitVec.ofInt 64 (stride * i)

/-- n bytes of a handle: at an offset, or of a ring's packed data from byte k of its claim. -/
def readHandle (s : State) (cl : ClusterNo) (h : Handle) (pos : BitVec 32) (off : Int) (k n : Nat) : List Byte :=
  if h.ring then (ringPieces h pos k n).flatMap fun p => levelRead s cl h.level p.1 p.2
  else levelRead s cl h.level (h.base + off.toNat) n

/-- Bytes stored in a handle. -/
def writeHandle (s : State) (cl : ClusterNo) (h : Handle) (pos : BitVec 32) (off : Int) (k : Nat) (bs : List Byte) : State :=
  if h.ring then
    ((ringPieces h pos k bs.length).foldl (fun (x : State × List Byte) p =>
      (levelWrite x.1 cl h.level p.1 (x.2.take p.2), x.2.drop p.2)) (s, bs)).1
  else levelWrite s cl h.level (h.base + off.toNat) bs

/-- Source row i; x is the row's place, which for GATH is its index (R213). -/
def readRow (c : CopyCmd) (cl : ClusterNo) (x : EngSt) (i at_ : Nat) : EngR (List Byte) :=
  if c.sk = 0 then
    readChunks c cl (lineChunks (c.wins.get c.swin.toFin) (rowLo (c.reg 0) c.sstride at_) c.srcRow) x []
  else
    match c.handle x.s c.srcH with
    | some h => .ok x (readHandle x.s cl h c.srcPos (c.srcOff + c.sstride * i) (c.srcRow * i) c.srcRow)
    | none => .ok x []

/-- Destination row i at its place. -/
def writeRow (c : CopyCmd) (cl : ClusterNo) (x : EngSt) (i at_ : Nat) (bs : List Byte) : EngR Unit :=
  if c.dk = 0 then
    writeChunks c cl (lineChunks (c.wins.get c.dwin.toFin) (rowLo (c.reg 1) c.dstride at_) bs.length) bs x
  else
    match c.handle x.s c.dstH with
    | some h => .ok { x with s := writeHandle x.s cl h c.dstPos (c.dstOff + c.dstride * i) (c.dstRow.1 * i) bs } ()
    | none => .ok x ()

/-- NM_INDEX's address: the row in [31:0] and the group in [63:32]. -/
def nmAddr (row group : Nat) : Va := BitVec.ofNat 80 (row % 2 ^ 32 + 2 ^ 32 * group)

/-- One row converted: the destination row and its flags, or the failing group. -/
def rowOut (c : CopyCmd) (shares : List Nat) (i : Nat) (row : List Byte) : Except Nat (List Byte × BitVec 5) :=
  match c.op.toNat with
  | 0x06 => .ok (quantRow c (shares.drop (c.len * i)) row, 0)
  | 0x07 => .ok (dequantRow c row)
  | 0x08 => (nmPackRow c row).map fun r => (r, 0)
  | 0x09 => (nmUnpackRow c row).map fun r => (r, 0)
  | _ => .ok (row, 0)

/-- Rows i, i + 1, … of a command, each read in full before it is written (R212). -/
def moveRows (c : CopyCmd) (cl : ClusterNo) (shares : List Nat) : Nat → Nat → BitVec 5 → EngSt → EngR (BitVec 5)
  | _, 0, fl, x => .ok x fl
  | i, n + 1, fl, x =>
    let idx := ((c.index.getD i 0)).toNat
    (readRow c cl x i (if c.op = 3 then idx else i)).bind fun x row =>
      match rowOut c shares i row with
      | .error g => .stop x 0x10 (nmAddr i g)
      | .ok (out, f) =>
        (writeRow c cl x i (if c.op = 4 then idx else i) out).bind fun x _ => moveRows c cl shares (i + 1) n (fl ||| f) x

/-- All source rows. -/
def readRows (c : CopyCmd) (cl : ClusterNo) : Nat → Nat → List (List Byte) → EngSt → EngR (List (List Byte))
  | _, 0, acc, x => .ok x acc
  | i, n + 1, acc, x => (readRow c cl x i i).bind fun x row => readRows c cl (i + 1) n (acc ++ [row]) x

/-- All destination rows. -/
def writeRows (c : CopyCmd) (cl : ClusterNo) : Nat → List (List Byte) → EngSt → EngR Unit
  | _, [], x => .ok x ()
  | i, r :: rest, x => (writeRow c cl x i i r).bind fun x _ => writeRows c cl (i + 1) rest x

/-- BPF: every line of the source rows into the slices of the die, as PFL2 does; lines whose translation fails are
dropped, and the others are awaited (R214). -/
def prefetchLines (c : CopyCmd) (cl : ClusterNo) : List (Va × Nat) → EngSt → EngR Unit
  | [], x => .ok x ()
  | (va, _) :: rest, x =>
    match engTranslate x c cl va .read with
    | .again va w => .again va w
    | .held y => .held y
    | .stop x _ _ => prefetchLines c cl rest x
    | .ok x (pa, e, _) =>
      let line := pa / 128
      if routeOf pa e = .cached then
        let hit := sliceServes x.s (dieOf cl) (128 * line) 128 e.key
        let s := if hit then x.s else readMiss x.s (dieOf cl) line e.key e.rfloor e.rceil true
        let await := if hit || x.await.contains line then x.await else x.await ++ [line]
        prefetchLines c cl rest { x with s := s, cost := addCosts x.cost (lineCost x.s cl (128 * line) 128 e.key), await := await }
      else prefetchLines c cl rest x

/-- The first index that is not below LIMIT makes the command take COPY_FAULT (R213). -/
def badIndex (c : CopyCmd) : Option Nat := c.index.findIdx? fun x => decide (c.limit ≤ x.toNat)

/-- The whole movement of a command that is no streaming kind: the flags of its conversions. -/
def moveCommand (c : CopyCmd) (cl : ClusterNo) (x : EngSt) : EngR (BitVec 5) :=
  match c.op.toNat with
  | 0x05 =>
    (prefetchLines c cl ((List.range c.nrows).flatMap fun i =>
      lineChunks (c.wins.get c.swin.toFin) (rowLo (c.reg 0) c.sstride i) c.len) x).bind fun x _ => .ok x 0
  | 0x0F =>
    (readRows c cl 0 c.nrows [] x).bind fun x rows =>
      (writeRows c cl 0 ((List.range (c.len / c.xeb)).map (transposeRow c.xeb rows)) x).bind fun x _ => .ok x 0
  | _ =>
    match badIndex c with
    | some i => .stop x cCopy (BitVec.ofNat 80 i)
    | none =>
      moveRows c cl (if c.op = 6 && c.sr then randShares c.rb0 c.rb1 ((c.len * c.nrows + 3) / 4) else []) 0 c.nrows 0 x

/-! ### Engines and commands -/

/-- The command at the head of an engine. -/
def headCmd (s : State) (cl : ClusterNo) (e : BitVec 1) : Option CopyCmd := (s.engine cl e).queue.head?

/-- Changing a command of an engine. -/
def modCmd (s : State) (cl : ClusterNo) (e : BitVec 1) (id : Nat) (f : CopyCmd → CopyCmd) : State :=
  s.modEngine cl e fun x => { x with queue := updateFirst (fun c => c.id == id) f x.queue }

/-- A token becomes free or busy (R211). -/
def setToken (s : State) (uid : Uid) (e : BitVec 1) (t : BitVec 4) (busy : Bool) : State :=
  let bit : BitVec 16 := (1#16) <<< t.toNat
  s.modUnit uid fun u => u.modEng fun g =>
    { g with tok := let v := g.tok.get e.toFin
                    g.tok.set e.toFin (if busy then v ||| bit else v &&& ~~~bit) }

/-- A fault found after issue: the engine stops, and the command's unit freezes at its next bundle boundary; of two
engines' faults the earlier-issued command's is named first (R224).  A transform has no unit (R373). -/
def faultCmd (s : State) (cl : ClusterNo) (e : BitVec 1) (c : CopyCmd) (code : BitVec 8) (addr : Va) : State :=
  let s := (modCmd s cl e c.id fun c => { c with fault := some ⟨code, addr⟩, shadow := true }).modEngine cl e fun x =>
    { x with faulted := true }
  match c.uid with
  | none => s
  | some uid => noteCopyFault s cl e uid c.id (afterFault code addr (.copy e c.tok) c.slot c.bundle)

/-- FRESUME's restart of a faulted command (R225): from its first byte, with the index list of its start (R213); a streaming kind goes
on from the slab it had reached, and a command whose bytes are all written from its arrival, as if it had never faulted. -/
def restartCmd (s : State) (cl : ClusterNo) (e : BitVec 1) : State :=
  s.modEngine cl e fun x => match x.queue with
    | c :: rest => { x with queue := { c with fault := none, arrival := none, publRel := none } :: rest, faulted := false }
    | [] => x

/-- The cluster of an engine stands still while its hold line is up, transfers under way among it (R15). -/
def standing (s : State) (cl : ClusterNo) : Bool := (s.cluster cl).held

/-- COPY_ENGINE_FAULT (R224): the running command meets one of the faults that arise after issue. -/
def execCopyEngineFault (cl : ClusterNo) (e : BitVec 1) (code : BitVec 8) (addr : Va) (s : State) :
    Host.Outcome State Fault Refusal :=
  .next <| if standing s cl then s else match headCmd s cl e with
  | some c =>
    if c.started && c.fault.isNone && [cTranslation, cProtection, cPoison, 0x10, cCopy, cAtomic].contains code then
      faultCmd s cl e c code addr
    else s
  | none => s

/-! ### Start (R210, R213, R217) -/

/-- A PUBL waits for every earlier command of its unit on either engine (R217). -/
def earlierDone (s : State) (cl : ClusterNo) (c : CopyCmd) : Bool :=
  (s.cluster cl).eng.toList.all fun e => e.queue.all fun q => !(q.uid == c.uid && decide (q.id < c.id))

/-- The index list of a GATH or SCAT, read at its start. -/
def indexList (s : State) (cl : ClusterNo) (c : CopyCmd) : List (BitVec 32) :=
  if c.op = 3 || c.op = 4 then
    match c.handle s c.ih with
    | some h => (readLeElems 4 c.nrows (levelRead s cl h.level h.base (4 * c.nrows))).map (BitVec.ofNat 32)
    | none => []
  else []

/-- COPY_COMMAND_START (R210): the command at the head starts, one at a time, on an engine that is not stopped. -/
def execCopyCommandStart (cl : ClusterNo) (e : BitVec 1) (s : State) : Host.Outcome State Fault Refusal :=
  .next <| if standing s cl then s else match headCmd s cl e with
  | some c =>
    if c.started || (s.engine cl e).faulted || (c.op == 0x0A && !earlierDone s cl c) then s
    else modCmd s cl e c.id fun c => { c with started := true, index := indexList s cl c }
  | none => s

/-! ### Streaming kinds (R210) -/

/-- Whether a command has a streaming side. -/
def CopyCmd.streams (c : CopyCmd) : Bool := c.sk == 2 || c.dk == 2

/-- The pieces of n bytes at byte k of rows of a length: (row, offset in it, length). -/
def rowPieces (row k n : Nat) : List (Nat × Nat × Nat) :=
  if row = 0 || n = 0 then []
  else
    let o := k % row
    (List.range ((o + n + row - 1) / row)).map fun i =>
      let a := if i = 0 then 0 else row * i - o
      ((k + a) / row, (k + a) % row, min n (row * (i + 1) - o) - a)

/-- The chunks of global memory of slab j of a streaming command. -/
def slabChunks (c : CopyCmd) (hi : BitVec 16) (base : Word) (stride : Int) : List (Va × Nat) :=
  (rowPieces c.len (64 * c.slabs) 64).flatMap fun p => lineChunks hi (rowLo base stride p.1 + BitVec.ofNat 64 p.2.1) p.2.2

/-- A command whose reads no engine performs yet goes on later; one whose reads a replay does not have stops the replay (R288). -/
def engHeld (s : State) (c : CopyCmd) (stray : Bool) : State := if stray then stopStray s c.asid else s

/-- A command's accesses admitted and its progress kept, or nothing done (R381). -/
def engCommit (s : State) (c : CopyCmd) (x : EngSt) (f : State → State) : State :=
  if costsOpen s c.asid (2 ^ 40 + c.id) x.cost then f (costsTake x.s c.asid (2 ^ 40 + c.id) x.cost)
  else costsRefuse s c.asid (2 ^ 40 + c.id) x.cost

/-- One slab of a streaming command: from global memory to the ring's tail, or from its head to global memory; nothing
while the ring has no room or no slab. -/
def slabStep (s : State) (cl : ClusterNo) (e : BitVec 1) (c : CopyCmd) (uid : Uid) (u : UnitSt) : State :=
  let out := c.dk == 2
  match (c.qHandle u out).bind u.handle? with
  | none => s
  | some h =>
    let total := c.srcBytes / 64
    let step (s : State) (x : EngSt) : State := modCmd s cl e c.id fun c =>
      { c with slabs := c.slabs + 1, moved := decide (total ≤ c.slabs + 1), await := (c.await ++ x.await).dedup, buf := x.buf
               tile := if out then c.tile ++ [(h.tc, h.slabAt h.tc, levelRead s cl h.level (h.slabAt h.tc) 64)] else c.tile }
    let x0 : EngSt := ⟨s, [], [], c.buf⟩
    let (id, _) := s.newReq
    if out then
      if !h.canTail 1 then s
      else match readChunks c cl (slabChunks c (c.wins.get c.swin.toFin) (c.reg 0) c.sstride) x0 [] with
        | .again va w => requestWalk s cl c.asid va w
        | .held stray => engHeld s c stray
        | .stop x code a => faultCmd x.s cl e c code a
        | .ok x bs => engCommit s c x fun s =>
            let s := levelWrite (s.newReq).2 cl h.level (h.slabAt h.tc) bs
            step (putHandle s uid (finishClaim (h.claimTail id 1) true id)) x
    else
      if !h.canHead 1 then s
      else
        let bs := levelRead s cl h.level (h.slabAt h.hc) 64
        match writeChunks c cl (slabChunks c (c.wins.get c.dwin.toFin) (c.reg 1) c.dstride) bs x0 with
        | .again va w => requestWalk s cl c.asid va w
        | .held stray => engHeld s c stray
        | .stop x code a => faultCmd x.s cl e c code a
        | .ok x _ => engCommit s c x fun s => step (putHandle (s.newReq).2 uid (finishClaim (h.claimHead id 1) false id)) x

/-- STREAM_SLAB_TRANSFER (R210): a streaming command publishes or releases its next slab. -/
def execStreamSlabTransfer (cl : ClusterNo) (e : BitVec 1) (s : State) : Host.Outcome State Fault Refusal :=
  .next <| match headCmd s cl e with
  | some c =>
    match c.uid.bind fun u => (s.unit? u).map fun x => (u, x) with
    | some (uid, u) => if !standing s cl && c.streams && c.started && !c.moved && c.fault.isNone then slabStep s cl e c uid u else s
    | none => s
  | none => s

/-! ### Completion (R210, R211, R226, R227) -/

/-- What a command has written on chip stands at its completion, whatever a VSTT stored there since (R157); a slab of a ring that has been
claimed again is another's. -/
def settleTile (s : State) (cl : ClusterNo) (c : CopyCmd) : State :=
  match (c.uid.bind s.unit?).bind fun u => if c.dk = 2 then (c.qHandle u true).bind u.handle? else u.handle? c.dstH with
  | none => s
  | some h => c.tile.foldl (fun s t =>
      if h.ring && decide (h.slabs < (h.tc - t.1).toNat) then s else levelWrite s cl h.level t.2.1 t.2.2) s

/-- FLAGS takes the flags of a conversion when its command completes (R220). -/
def orUnitFlags (s : State) (uid : Option Uid) (f : BitVec 5) : State :=
  match uid with
  | some u => if f = 0 then s else s.modUnit u fun u => u.modCsr fun c => { c with flags := c.flags ||| f }
  | none => s

/-- The head command completes and leaves its engine: its bytes and flags stand, its token is free, banks that waited for it free, its
follow-ons ready, those that waited before its own. -/
def finishCmd (s : State) (cl : ClusterNo) (e : BitVec 1) (c : CopyCmd) : State :=
  let s := orUnitFlags (settleTile s cl c) c.uid c.flags
  let s := s.modEngine cl e fun x => { x with queue := x.queue.filter fun q => q.id != c.id }
  match c.uid with
  | none => s
  | some uid =>
    let s := setToken s uid e c.tok false
    let s := s.modCluster cl fun k =>
      let wake (f : Follow) : Follow := { f with ready := f.ready || (f.uid == uid && f.engine == e && f.token == c.tok) }
      let image : BitVec 32 := (c.reg 7).extractLsb' 0 32
      let lend : BitVec 8 := (c.reg 7).extractLsb' 32 8
      let new : Follow := ⟨uid, e, c.tok, image, lend, c.bundle, c.slot, true, false, some c.id⟩
      let follows := k.follows.map wake ++ (if c.folBit then [new] else [])
      { k with follows := follows }
    releaseBanks s cl

/-- The claims of a command finish (R201). -/
def publishClaims (s : State) (c : CopyCmd) : State :=
  match c.uid with
  | none => s
  | some uid =>
    let s := if c.sk = 1 then publishClaim s uid c.srcH false c.id else s
    if c.dk = 1 then publishClaim s uid c.dstH true c.id else s

/-- A claim of a command has still to be published: an earlier one of its counter stands before it (R201). -/
def unpublished (s : State) (c : CopyCmd) : Bool :=
  match c.uid.bind s.unit? with
  | none => false
  | some u =>
    let mine (h : BitVec 8) (f : Handle → List Claim) : Bool := match u.handle? h with
      | some x => (f x).any fun y => y.id == c.id
      | none => false
    (c.sk == 1 && mine c.srcH Handle.heads) || (c.dk == 1 && mine c.dstH Handle.tails)

/-- The barrier of a bound command (R226). -/
def CopyCmd.barVa (c : CopyCmd) : Va := (c.wins.get c.bwin.toFin) ++ c.reg 6

/-- A request to the engine of a bound command's barrier. -/
def arrivalReq (x : EngSt) (c : CopyCmd) (uid : Uid) (u : UnitSt) (e : BitVec 1) (id : Nat) (pa : Nat) (en : TlbEntry)
    (kind : SyncKind) : SyncReq :=
  let q := syncReq x.s u id kind (granulePa pa) c.barVa en.key
  { q with uid := uid, who := uid, size := 16, copyEng := some e, scope := 2, bundle := c.bundle, slot := c.slot }

/-- The arrival of a bound command is sent, with release order at device scope (R226); its faults are the command's. -/
def sendArrival (s : State) (cl : ClusterNo) (e : BitVec 1) (c : CopyCmd) (uid : Uid) (u : UnitSt) : State :=
  if c.barVa.toNat % 16 != 0 then faultCmd s cl e c cMisaligned c.barVa
  else
    match engTranslate ⟨s, [], [], none⟩ c cl c.barVa .atomic with
    | .again va w => requestWalk s cl c.asid va w
    | .held _ => s
    | .stop x code a => faultCmd x.s cl e c code a
    | .ok x (pa, en, _) =>
      if !en.sync || (frameDie pa).isNone then faultCmd x.s cl e c cProtection c.barVa
      else
        let (id, s) := x.s.newReq
        let q := arrivalReq { x with s := s } c uid u e id pa en .copyArrival
        startRelease (modCmd s cl e c.id fun c => { c with arrival := some id }) uid cl 2 (.sync q)

/-- A line of a command has still to get where its completion needs it: to its device step, or for BPF to the slices. -/
def lineWaits (s : State) (cl : ClusterNo) (c : CopyCmd) (line : Nat) : Bool :=
  if c.op = 0x05 then match sliceLine? (s.die (dieOf cl)) line with | some l => l.st == .isD | none => false
  else awaitsDevice s (dieOf cl) line

/-- A command whose bytes are written goes on, a step at a time: its lines reach the device step, its claims are published, its
arrival is made, it completes (R210, R226). -/
def advanceCmd (s : State) (cl : ClusterNo) (e : BitVec 1) (c : CopyCmd) : State :=
  if c.await.any (lineWaits s cl c) then s
  else
    let s := publishClaims s c
    if unpublished s c then s
    else if !c.bar || c.arrived then finishCmd s cl e c
    else if c.arrival.isSome then s
    else
      match c.uid.bind fun u => (s.unit? u).map fun x => (u, x) with
      | some (uid, u) => sendArrival s cl e c uid u
      | none => finishCmd s cl e c

/-- The bytes of a command's tile destination, row by row or slab by slab: (ring position, byte address in the level, bytes). -/
def tileBytes (s : State) (cl : ClusterNo) (c : CopyCmd) : List (BitVec 32 × Nat × List Byte) :=
  if c.dk != 1 then []
  else match c.handle s c.dstH with
    | some h => (c.dstRanges h).zipIdx.map fun r =>
        let a := h.base + r.1.1.toNat
        (c.dstPos + BitVec.ofNat 32 r.2, a, levelRead s cl h.level a (r.1.2 - r.1.1).toNat)
    | none => []

/-- COPY_COMMAND_COMPLETE (R210): the started command moves its bytes, and completes once they are at device scope, its
claims published and its arrival performed. -/
def execCopyCommandComplete (cl : ClusterNo) (e : BitVec 1) (s : State) : Host.Outcome State Fault Refusal :=
  .next <| if standing s cl then s else match headCmd s cl e with
  | none => s
  | some c =>
    if !c.started || c.fault.isSome || c.op == 0x0A then s
    else if c.moved then advanceCmd s cl e c
    else if c.streams then s
    else
      let old := if c.shadow then c.old else (tileBytes s cl c).map Prod.snd
      match moveCommand c cl ⟨s, [], [], none⟩ with
      | .again va w => requestWalk s cl c.asid va w
      | .held stray => engHeld s c stray
      | .stop x code a => faultCmd (modCmd x.s cl e c.id fun c => { c with old := old }) cl e c code a
      | .ok x fl => engCommit s c x fun s =>
          let c' := { c with moved := true, await := x.await, flags := fl, old := old }
          advanceCmd (modCmd s cl e c.id fun _ => { c' with tile := tileBytes s cl c }) cl e c'

/-! ### Publication (R216, R217) -/

/-- The header's physical address in a version of a buffer (R216, R327). -/
def headerPa (b : TvBuf) (version : Bool) : Nat := (if version then b.phys1 else b.phys0) + 16384 - 64

/-- The validity word that a flip writes, over the fields that VALSET left pending (R216, R400). -/
def flippedHeader (b : TvBuf) (version count : Nat) (complete : Bool) : Nat :=
  let bit (p : Bool) (i : Nat) : Nat := if p then 2 ^ i else 0
  (bit complete 0 + bit (b.vset && b.curtain) 1 + bit (b.vset && b.nochk) 2 + bit (b.vset && b.exact) 3 + bit (!complete) 4
    + (if b.vset then b.kach.toNat else 0) * 2 ^ 8 + (count % 2 ^ 16) * 2 ^ 16 + (version % 2 ^ 32) * 2 ^ 32
    + (if b.vset then b.bound.toNat else 0) * 2 ^ 64)

/-- The dies that hold translations of a buffer's pages (R330). -/
def bufDies (s : State) (i : Nat) (b : TvBuf) : List DieNo :=
  (List.finRange 8).filter fun d => s.hub.walk.tdir.any (fun t =>
    t.asid == b.asid && t.mask.getLsbD d.val && decide (b.hbase ≤ t.vpn) && decide (t.vpn ≤ b.hbase + b.pages))
    || (s.die d).tlb.any fun e => e.buffer == some i

/-- A flip (R217, R328): the header of the version that becomes active is written, the select changes, the count, the
taint and the pending fields are reset, and notices go to the dies that hold translations. -/
def flipBuf (s : State) (i : Nat) (b : TvBuf) (count : Nat) (complete : Bool) : State :=
  let flips := b.flips + 1
  let s := deviceWrite s (headerPa b (!b.sel)) (leBytes (flippedHeader b flips.toNat count complete) 64) 0
  let dies := bufDies s i b
  let s := s.modBuf i fun b => { b with sel := !b.sel, count := 0, total := none, taint := false, flips := flips, vset := false,
                                        curtain := false, nochk := false, exact := false, kach := 0, bound := 0, flipDies := dies }
  s.modWalk fun w => { w with notices := w.notices ++ dies.map fun d => (i, d) }

/-- The buffer of a PUBL: the one whose base cg0 is (R217). -/
def publBuf (s : State) (c : CopyCmd) : Option (Nat × TvBuf) :=
  let va : Va := (c.wins.get c.swin.toFin) ++ c.reg 0
  match s.hub.walk.bufs.findIdx? fun b => b.asid == c.asid && va.toNat == (b.hbase + 1) * 2 ^ 14 with
  | some i => (s.buf? i).map fun b => (i, b)
  | none => none

/-- P, the producer count (R217). -/
def CopyCmd.producers (c : CopyCmd) : Nat := ((c.reg 2).extractLsb' 0 16).toNat

/-- One producer counted, and the flip where it is due (R217). -/
def countProducer (s : State) (cl : ClusterNo) (e : BitVec 1) (c : CopyCmd) : State :=
  let fault (s : State) : State := faultCmd s cl e c cCopy ((c.reg 0).setWidth 80)
  match publBuf s c with
  | none => fault s
  | some (i, b) =>
    if b.total.isSome && b.total != some c.producers then fault s
    else if !b.flipDies.isEmpty || versionMoves s i || s.hub.walk.valsets.any (fun v => some v.uid == c.uid) then s
    else
      let force := c.hdr.getLsbD 0
      let n := b.count + 1
      let whole := decide (c.producers ≤ n) && !b.taint
      let s := modCmd s cl e c.id fun c => { c with publDone := true, moved := true }
      let s := match c.uid with | some u => s.modUnit u fun u => u.modRun fun r => { r with publIssued := true } | none => s
      let s := if whole || force then flipBuf s i b n whole
               else s.modBuf i fun b => { b with count := n, total := some c.producers }
      advanceCmd s cl e { c with publDone := true, moved := true }

/-- Whether a PUBL's release is under way. -/
def publReleasing (s : State) (cl : ClusterNo) (id : Nat) : Bool := (s.cluster cl).rels.any fun r => r.id == id

/-- PUBL_COUNT (R217): a started PUBL releases at device scope, then counts its producer. -/
def execPublCount (cl : ClusterNo) (e : BitVec 1) (s : State) : Host.Outcome State Fault Refusal :=
  .next <| if standing s cl then s else match headCmd s cl e with
  | none => s
  | some c =>
    if c.op != 0x0A || !c.started || c.fault.isSome || !earlierDone s cl c then s
    else if c.publDone then advanceCmd s cl e c
    else
      match c.publRel with
      | some id => if publReleasing s cl id then s else countProducer s cl e c
      | none =>
        match c.uid with
        | none => countProducer s cl e c
        | some uid =>
          let id := s.nextReq
          startRelease (modCmd s cl e c.id fun c => { c with publRel := some id }) uid cl 2 (.publ e)

/-! ### Abandonment (R225, R228, R229) -/

/-- Bytes that an abandoned command leaves: each the old one or the new one, a free value says which (R225). -/
def oldOrNew (s : State) (old new : List Byte) : List Byte × State :=
  (new.zipIdx.map fun x => if (Config.freeByte (s.fresh + x.2)).getLsbD 0 then x.1 else old.getD x.2 x.1, { s with fresh := s.fresh + new.length })

/-- The tile destination, no ring, of an abandoned command that has started: what it has written, or was about to write, mixed with
what stood there. -/
def leaveTile (s : State) (cl : ClusterNo) (c : CopyCmd) (h : Handle) : State :=
  if !c.started then s
  else
    let new : State := if c.moved then s else match moveCommand c cl ⟨s, [], [], none⟩ with
      | .ok x _ => x.s
      | .stop x _ _ => x.s
      | _ => s
    let now := (tileBytes s cl c).map Prod.snd
    let old := if c.moved || c.shadow then c.old else now
    ((tileBytes new cl c).zipIdx).foldl (fun s t =>
      let r := oldOrNew s ((old[t.2]?).elim [] Prod.snd) t.1.2.2
      levelWrite r.2 cl h.level t.1.2.1 r.1) s

/-- A command that is abandoned: its token frees, its claims are published without data, its destination is tainted or
undefined, its arrival is lost, and nothing follows it (R225). -/
def abandonCmd (s : State) (cl : ClusterNo) (e : BitVec 1) (c : CopyCmd) : State :=
  let s := s.modEngine cl e fun x =>
    { x with queue := x.queue.filter fun q => q.id != c.id, faulted := x.faulted && c.fault.isNone }
  match c.uid.bind fun u => (s.unit? u).map fun x => (u, x) with
  | none => s
  | some (uid, u) =>
    let s := setToken s uid e c.tok false
    let s := if c.sk = 1 then publishClaim s uid c.srcH false c.id else s
    let s := if c.dk = 1 then
        match u.handle? c.dstH with
        | some h =>
          if h.ring then
            publishClaim (undefSlabs s uid c.dstH c.dstPos (if h.slabSize = 0 then 0 else c.dstBytes / h.slabSize)) uid c.dstH true c.id
          else leaveTile s cl c h
        | none => s
      else s
    let taints := c.dk == 0 && c.op != 0x05 && c.op != 0x0A
    let s := if taints then
        match bufOf s c.asid (vpnOf ((c.wins.get c.dwin.toFin) ++ c.reg 1)) with
        | some i => s.modBuf i fun b => { b with taint := true }
        | none => s
      else s
    let s := if c.bar && c.arrival.isNone then
        match engTranslate ⟨s, [], [], none⟩ c cl c.barVa .atomic with
        | .ok x (pa, en, _) =>
          let (id, s) := x.s.newReq
          let q := { arrivalReq { x with s := s } c uid u e id pa en .lostArrival with copyEng := none }
          s.modSync q.die fun y => { y with queue := y.queue ++ [q] }
        | .again .. =>
          -- sent where its page's home is known: it waits as a request that is to be translated and sent again
          let (id, s) := s.newReq
          let q := { syncReq s u id .lostArrival 0 c.barVa 0 with uid := uid, who := uid, size := 16, scope := 2, bundle := c.bundle, slot := c.slot }
          s.modSync q.die fun y => { y with replies := y.replies ++ [{ req := q, value := 0, code := 0, va := q.va, retry := true, near := false }] }
        | _ => s
      else s
    let s := s.modUnit uid fun u => u.modRun fun r => { r with due := r.due.filter fun d => d.source != .copy e c.tok }
    let s := s.modCluster cl fun k => { k with follows := k.follows.filter fun f => !(f.uid == uid && f.engine == e && f.token == c.tok && !f.ready) }
    releaseBanks s cl

/-- The commands of a unit on an engine that a test accepts, abandoned in order; a PUBL that has counted is complete. -/
def abandonAll (s : State) (cl : ClusterNo) (e : BitVec 1) (uid : Uid) (ok : CopyCmd → Bool) : State :=
  ((s.engine cl e).queue.filter fun c => c.uid == some uid && ok c && !c.publDone).foldl (fun s c => abandonCmd s cl e c) s

/-! ### Follow-ons (R227, R258) -/

/-- The array command that an image stands for: its opcode and header, if a follow-on may carry it. -/
def followImage (w : SlotWord) : Option (BitVec 4 × BitVec 24) :=
  let op := w.extractLsb' 24 4
  if w.extractLsb' 28 4 == 8 && [0, 1, 2, 4, 5].contains op.toNat then some (op, w.extractLsb' 0 24) else none

/-- A ready follow-on is delivered as an A.CMD of its unit: it enters the array queue, waits for a free place there, or
faults with ARRAY_FAULT, whichever of its checks fails (R227, R258).  A frozen unit's wait. -/
def deliverFollow (s : State) (cl : ClusterNo) (ok : SlotWord → Bool) (f : Follow) : State :=
  match s.unit? f.uid with
  | none => s
  | some u =>
    let drop (s : State) : State := s.modCluster cl fun k => { k with follows := removeFirst (fun x => x == f) k.follows }
    let fault (s : State) : State :=
      noteFault (drop s) f.uid (afterFault cArray (u.flow.pchi ++ f.bundle) (.copy f.engine f.token) f.slot f.bundle)
    if !u.live then drop s
    else if u.isFrozen || !f.ready || f.fresh then s
    else
      match followImage f.image with
      | none => fault s
      | some (op, hdr) =>
        if f.lend != 0 || !ok f.image then fault s
        else
          let c := mkArrayCmd s f.uid u op hdr f.bundle f.slot (some f.engine)
          match arrayCheck s u c with
          | .fault _ _ => fault s
          | _ =>
            let a := arrayOf s cl
            let waits := (c.rings a).any fun r => handleWait s u r.1 != .done
            if a.clearing != 0 || decide (4 ≤ a.queue.length) || waits then s else acceptArray (drop s) cl c

/-- The follow-ons of a core cycle: C0's before C1's, each engine's in order (R227); one that waits holds those of its unit and engine
behind it back, and a CFOL's of this cycle may go in the next. -/
def deliverFollows (s : State) (cl : ClusterNo) (ok : SlotWord → Bool) : State :=
  let l := (s.cluster cl).follows
  if l.isEmpty then s
  else
    let s := ((l.filter fun f => f.engine == 0) ++ (l.filter fun f => f.engine == 1)).foldl (fun s f => deliverFollow s cl ok f) s
    s.modCluster cl fun k => { k with follows := k.follows.map fun f => { f with fresh := false } }

end Sys2Proof.Machine
end

