-- ==== Sys2Proof/Machine/Transc.lean ====
section
/-! DEFINITION.
Correctly rounded EXP, LOG and ERF (R155).  The exact value is a real number; it is enclosed between two rationals in
fixed-point arithmetic, and when both ends round to the same result and flags that is the result.  The precision is
doubled until they do. -/

namespace Sys2Proof.Machine

/-- An enclosure of a positive real: lo / 2^p ≤ value ≤ hi / 2^p. -/
structure Encl where
  lo : Nat
  hi : Nat
  deriving DecidableEq, Repr

/-- Quotient rounded up. -/
def divUp (a b : Nat) : Nat := (a + b - 1) / b

/-- Product of enclosures at a precision. -/
def Encl.mul (p : Nat) (x y : Encl) : Encl := ⟨x.lo * y.lo / 2 ^ p, divUp (x.hi * y.hi) (2 ^ p)⟩

/-- Squaring n times. -/
def Encl.squares (p : Nat) : Nat → Encl → Encl
  | 0, x => x
  | n + 1, x => Encl.squares p n (x.mul p x)

/-- Sum of y^i / i! from term `t` = y^k / k! on, n more terms, with a remainder of one further term (y ≤ 1/2). -/
def expSum (p : Nat) (y : Encl) : Nat → Nat → Encl → Encl
  | 0, _, t => ⟨t.lo, t.hi + 2 * t.hi⟩
  | n + 1, k, t =>
    let next : Encl := ⟨t.lo * y.lo / 2 ^ p / (k + 1), divUp (divUp (t.hi * y.hi) (2 ^ p)) (k + 1)⟩
    let rest := expSum p y n (k + 1) next
    ⟨t.lo + rest.lo, t.hi + rest.hi⟩

/-- e^(n/d) for 0 ≤ n/d < 2^12: e^y with y = x / 2^16 < 1/16, squared sixteen times. -/
def expPos (p n d : Nat) : Encl :=
  let y : Encl := ⟨n * 2 ^ p / (d * 2 ^ 16), divUp (n * 2 ^ p) (d * 2 ^ 16)⟩
  (expSum p y (p / 4 + 8) 0 ⟨2 ^ p, 2 ^ p⟩).squares p 16

/-- Sum of z^(2i+1)/(2i+1) with z² at hand, n terms, the rest bounded by one further term (z ≤ 1/3). -/
def atanhSum (p : Nat) (z2 : Encl) : Nat → Nat → Encl → Encl
  | 0, k, t => ⟨0, divUp (2 * t.hi) k⟩
  | n + 1, k, t =>
    let rest := atanhSum p z2 n (k + 2) (t.mul p z2)
    ⟨t.lo / k + rest.lo, divUp t.hi k + rest.hi⟩

/-- atanh(n/d) for 0 ≤ n/d ≤ 1/3. -/
def atanhRat (p n d : Nat) : Encl :=
  let z : Encl := ⟨n * 2 ^ p / d, divUp (n * 2 ^ p) d⟩
  atanhSum p (z.mul p z) (p / 3 + 4) 1 z

/-- Sum over n of (−1)^n x2^n / (n! (2n+1)), `k` terms: the partial sums of both signs (erf's series). -/
def erfSum (p : Nat) (x2 : Encl) : Nat → Nat → Encl → Encl × Encl
  | 0, _, t => (⟨0, t.hi⟩, ⟨0, t.hi⟩)
  | k + 1, n, t =>
    let next : Encl := ⟨t.lo * x2.lo / 2 ^ p / (n + 1), divUp (divUp (t.hi * x2.hi) (2 ^ p)) (n + 1)⟩
    let rest := erfSum p x2 k (n + 1) next
    let term : Encl := ⟨t.lo / (2 * n + 1), divUp t.hi (2 * n + 1)⟩
    if n % 2 = 0 then (⟨rest.1.lo + term.lo, rest.1.hi + term.hi⟩, rest.2)
    else (rest.1, ⟨rest.2.lo + term.lo, rest.2.hi + term.hi⟩)

/-- arctan(1/n) by its alternating series, as sums of both signs. -/
def atanInv (p n : Nat) : Nat → Nat → Nat → Nat → (Nat × Nat) × (Nat × Nat)
  | 0, _, lo, hi => ((0, hi), (0, lo + hi))
  | k + 1, i, lo, hi =>
    let rest := atanInv p n k (i + 1) (lo / (n * n)) (divUp hi (n * n))
    if i % 2 = 0 then ((rest.1.1 + lo / (2 * i + 1), rest.1.2 + divUp hi (2 * i + 1)), rest.2)
    else (rest.1, (rest.2.1 + lo / (2 * i + 1), rest.2.2 + divUp hi (2 * i + 1)))

/-- An enclosure of arctan(1/n). -/
def atanEncl (p n : Nat) : Encl :=
  let r := atanInv p n (p / 2 + 4) 0 (2 ^ p / n) (divUp (2 ^ p) n)
  ⟨r.1.1 - r.2.2, r.1.2 - r.2.1⟩

/-- π = 16 arctan(1/5) − 4 arctan(1/239). -/
def piEncl (p : Nat) : Encl :=
  let a := atanEncl p 5
  let b := atanEncl p 239
  ⟨16 * a.lo - 4 * b.hi, 16 * a.hi - 4 * b.lo⟩

/-- 2/√π. -/
def twoOverRootPi (p : Nat) : Encl :=
  let q := piEncl p
  -- √(π · 2^p · 2^p) lies between the integer roots of the ends
  let lo := isqrt (q.lo * 2 ^ p)
  let hi := isqrt (q.hi * 2 ^ p) + 1
  ⟨2 * 2 ^ (2 * p) / hi, divUp (2 * 2 ^ (2 * p)) lo⟩

/-- erf(x)/x for x = n/d below 8. -/
def erfRatio (p n d : Nat) : Encl :=
  let x2 : Encl := ⟨n * n * 2 ^ p / (d * d), divUp (n * n * 2 ^ p) (d * d)⟩
  let s := erfSum p x2 (p + 300) 0 ⟨2 ^ p, 2 ^ p⟩
  (⟨s.1.lo - s.2.hi, s.1.hi - s.2.lo⟩ : Encl).mul p (twoOverRootPi p)

/-! ### Rounding an enclosure -/

/-- The rounding of an enclosed positive value: both ends must agree, and neither may be exact. -/
def roundEncl (f : Fmt) (rm : Rm) (neg : Bool) (lo hi d : Nat) : Option (Nat × BitVec 5) :=
  if lo = 0 then none
  else
    let a := roundPos f rm neg lo d
    let b := roundPos f rm neg hi d
    if a = b && a.2 != 0 then some a else none

/-- Trying precisions in turn. -/
def tryPrec (g : Nat → Option (Nat × BitVec 5)) : List Nat → Option (Nat × BitVec 5)
  | [] => none
  | p :: rest => match g p with
    | some r => some r
    | none => tryPrec g rest

/-- The precisions tried, in bits. -/
def precisions : List Nat := [192, 384, 768, 1536, 3072]

/-- A result where no precision sufficed. -/
def transOpen (fn : Nat) (f : Fmt) (bits : Nat) : Nat × BitVec 5 :=
  ((Config.transFallback fn f.fbits (BitVec.ofNat 64 bits)).toNat % 2 ^ f.width, fNX)

/-- The fraction |m · 2^e|. -/
def fracOf (m : Nat) (e : Int) : Nat × Nat := if 0 ≤ e then (m * 2 ^ e.toNat, 1) else (m, 2 ^ (-e).toNat)

/-! ### EXP, LOG, ERF (R155) -/

/-- e^x. -/
def fpExp (f : Fmt) (rm : Rm) (bits : Nat) : Nat × BitVec 5 :=
  match unpack f bits with
  | .nan b s => (quiet f b, if s then fNV else 0)
  | .inf n => (if n then 0 else f.infBits, 0)
  | .fin neg m e =>
    if m = 0 then (f.bias.toNat * 2 ^ f.fbits, 0)
    else
      let x := fracOf m e
      let r : Option (Nat × BitVec 5) :=
        if 2048 * x.2 ≤ x.1 then
          -- beyond every format's range: any value past it rounds alike
          some (if neg then roundPos f rm false 1 (2 ^ 2000) else roundPos f rm false (2 ^ 2000) 1)
        else if x.1 * 2 ^ 64 ≤ x.2 then
          -- strictly between 1 and its neighbour's midpoint
          some (if neg then roundPos f rm false (2 ^ 70 - 1) (2 ^ 70) else roundPos f rm false (2 ^ 70 + 1) (2 ^ 70))
        else
          tryPrec (fun p =>
            let v := expPos p x.1 x.2
            if neg then roundEncl f rm false (2 ^ (2 * p + 3200) / v.hi) (divUp (2 ^ (2 * p + 3200)) v.lo) (2 ^ (p + 3200))
            else roundEncl f rm false v.lo v.hi (2 ^ p)) precisions
      r.getD (transOpen 0 f bits)

/-- ln x. -/
def fpLog (f : Fmt) (rm : Rm) (bits : Nat) : Nat × BitVec 5 :=
  match unpack f bits with
  | .nan b s => (quiet f b, if s then fNV else 0)
  | .inf n => if n then (f.qnan, fNV) else (f.infBits, 0)
  | .fin neg m e =>
    if m = 0 then (withSign f true f.infBits, fDZ)
    else if neg then (f.qnan, fNV)
    else
      let x := fracOf m e
      if x.1 = x.2 then (0, 0)
      else
        -- x = 2^k · y with 2/3 < y ≤ 4/3 or so: ln x = k ln 2 ± 2 atanh(|y − 1| / (y + 1))
        let k0 := floorLog2 x.1 x.2
        let y0 := scaleDown x.1 x.2 k0
        let k : Int := if 3 * y0.1 > 4 * y0.2 then k0 + 1 else k0
        let y := scaleDown x.1 x.2 k
        let up := decide (y.2 ≤ y.1)
        let diff := if up then y.1 - y.2 else y.2 - y.1
        let r := tryPrec (fun p =>
          let a := atanhRat p diff (y.1 + y.2)
          let l := atanhRat p 1 3
          -- ends of the signed sum, in units of 2^-p
          let kl : Int := if 0 ≤ k then k * (2 * l.lo) else k * (2 * l.hi)
          let kh : Int := if 0 ≤ k then k * (2 * l.hi) else k * (2 * l.lo)
          let lo : Int := kl + (if up then (2 * a.lo : Int) else -(2 * a.hi : Int))
          let hi : Int := kh + (if up then (2 * a.hi : Int) else -(2 * a.lo : Int))
          if 0 < lo then roundEncl f rm false lo.toNat hi.toNat (2 ^ p)
          else if hi < 0 then roundEncl f rm true (-hi).toNat (-lo).toNat (2 ^ p)
          else none) precisions
        r.getD (transOpen 1 f bits)

/-- The error function. -/
def fpErf (f : Fmt) (rm : Rm) (bits : Nat) : Nat × BitVec 5 :=
  match unpack f bits with
  | .nan b s => (quiet f b, if s then fNV else 0)
  | .inf n => (withSign f n (f.bias.toNat * 2 ^ f.fbits), 0)
  | .fin neg m e =>
    if m = 0 then (withSign f neg 0, 0)
    else
      let x := fracOf m e
      let r : Option (Nat × BitVec 5) :=
        if 7 * x.2 ≤ x.1 then some (roundPos f rm neg (2 ^ 60 - 1) (2 ^ 60))
        else tryPrec (fun p =>
          let v := erfRatio p x.1 x.2
          roundEncl f rm neg (v.lo * x.1) (v.hi * x.1) (2 ^ p * x.2)) precisions
      r.getD (transOpen 2 f bits)

/-- The function of a VTRANS code (R155). -/
def fpTrans (fn : BitVec 2) (f : Fmt) (rm : Rm) (bits : Nat) : Nat × BitVec 5 :=
  match fn with
  | 0 => fpExp f rm bits
  | 1 => fpLog f rm bits
  | _ => fpErf f rm bits

end Sys2Proof.Machine
end

