-- ==== Sys2Proof/Machine/Xfer.lean ====
section
/-! DEFINITION.
V.XFER within the tile file and the registers (R151 to R156, R159): moves, conversions, transcendentals, reductions. -/

namespace Sys2Proof.Machine

/-- The lend-byte rules of an exact V.XFER form: RM and FMT zero, TB zero (R40, R151). -/
def xferExact (l : BitVec 8) : Bool := lendRm l != 0 || lendFmt l != 0 || lendTb l

/-- The lend-byte rules of a V.XFER form that rounds. -/
def xferRounds (l : BitVec 8) : Bool := lendFmt l != 0 || lendTb l

/-! ### Moves (R152) -/

/-- VMOV: sixteen elements copied. -/
def execVmov (d a : BitVec 8) (s : State) : Host.Outcome State Fault Refusal :=
  vectorSlot (fun is => xferExact is.lend) (fun is => [opA is a]) (fun is => opD is d) 1 0
    (fun is u => (u.vec (opA is a), 0)) s

/-- VBCST's vector for a width code. -/
def bcst (w : BitVec 8) (bp : Word) : BitVec 512 :=
  match w with
  | 0 => vec32 fun _ => (bp.extractLsb' 0 16).setWidth 32
  | 1 => vec32 fun _ => bp.extractLsb' 0 32
  | _ => vec64 fun _ => bp

/-- VBCST: the broadcast latch in every lane. -/
def execVbcst (d w : BitVec 8) (s : State) : Host.Outcome State Fault Refusal :=
  runSlot s
    (fun s u => vectorChecks s u (xferExact s.issue.lend || lendTa s.issue.lend || decide (2 < w.toNat))
      [.scalar 62] [((opD s.issue d).dest, 1)])
    (fun s u => schedule (noteVector s [] 0 0 1) s.issue.me u (opD s.issue d).dest (bcst w (u.reg 62)) 1)

/-- VIOTA: sext(imm8) + i in lane i. -/
def execViota (d i : BitVec 8) (s : State) : Host.Outcome State Fault Refusal :=
  vectorSlot (fun is => xferExact is.lend || lendTa is.lend) (fun _ => []) (fun is => opD is d) 1 0
    (fun _ _ => (vec32 fun k => i.signExtend 32 + BitVec.ofNat 32 k, 0)) s

/-- VSPLAT: one lane of va in every lane. -/
def execVsplat (d a : BitVec 8) (p : BitVec 1) (k : BitVec 4) (s : State) : Host.Outcome State Fault Refusal :=
  vectorSlot (fun is => xferExact is.lend || (p == 1 && k.getLsbD 0)) (fun is => [opA is a]) (fun is => opD is d) 1 0
    (fun is u =>
      let v := u.vec (opA is a)
      (if p = 1 then vec64 fun _ => lane64 v (k.toNat / 2) else vec32 fun _ => lane32 v k.toNat, 0)) s

/-- VEXT: one element or 64-bit lane to the broadcast latch. -/
def execVext (a : BitVec 8) (m : BitVec 2) (k : BitVec 4) (s : State) : Host.Outcome State Fault Refusal :=
  let o := opA s.issue a
  let l := 1 + slowExtra [o]
  runSlot s
    (fun s u => vectorChecks s u
      (xferExact s.issue.lend || lendTd s.issue.lend || m == 3 || (m == 2 && k.getLsbD 0)) [o.dest] [(.scalar 62, l)])
    (fun s u =>
      let e := lane32 (u.vec o) k.toNat
      let v : Word := match m with
        | 0 => e.setWidth 64
        | 1 => e.signExtend 64
        | _ => lane64 (u.vec o) (k.toNat / 2)
      schedScalar (noteVector s [o] 0 0 l) s.issue.me u 62 v l)

/-! ### VCVT (R153, R154) -/

/-- Codes that R153 leaves reserved. -/
def cvtReserved (c : BitVec 8) : Bool := decide (0x0D < c.toNat) && c != 0x10 && c != 0x11

/-- The codes that write half of vd and so read it. -/
def cvtHalf (c : BitVec 8) : Bool := c == 0x06 || c == 0x07 || c == 0x0C || c == 0x0D

/-- The codes that take a random word. -/
def cvtStochastic (c : BitVec 8) : Bool := c == 0x10 || c == 0x11

/-- The flags a code can raise. -/
def cvtCan (c : BitVec 8) : BitVec 5 :=
  match c.toNat with
  | 0x02 | 0x03 | 0x04 | 0x05 => fNV
  | 0x08 => fNX
  | 0x09 | 0x0C | 0x0D => fNV ||| fNX
  | 0x0A | 0x0B => 0
  | _ => canArith

def to32 (r : Nat × BitVec 5) : BitVec 32 × BitVec 5 := (BitVec.ofNat 32 r.1, r.2)
def to64 (r : Nat × BitVec 5) : BitVec 64 × BitVec 5 := (BitVec.ofNat 64 r.1, r.2)

/-- Eight results in the named half, the other half as vd stood (R153). -/
def intoHalf (hi : Bool) (vd : BitVec 512) (f : Nat → BitVec 32 × BitVec 5) : BitVec 512 × BitVec 5 :=
  lanes32 fun i =>
    let j := if hi then i - 8 else i
    if (if hi then decide (8 ≤ i) else decide (i < 8)) then f j else (lane32 vd i, 0)

/-- Rotation of a random word right by 4·i, low 16 bits (R154). -/
def wordShare (w : Word) (i : Nat) : BitVec 16 := (w.rotateRight (4 * i)).extractLsb' 0 16

/-- The conversion of a vector under a code. -/
def convert (c : BitVec 8) (rm : Rm) (w : Word) (vd a : BitVec 512) : BitVec 512 × BitVec 5 :=
  let x (i : Nat) : Nat := (lane32 a i).toNat
  let y (j : Nat) : Nat := (lane64 a j).toNat
  match c.toNat with
  | 0x00 => lanes32 fun i => to32 (fpConv f32 f16 rm (x i))
  | 0x01 => lanes32 fun i => to32 (fpConv f32 bf16 rm (x i))
  | 0x02 => lanes32 fun i => to32 (fpConv f16 f32 0 (x i % 2 ^ 16))
  | 0x03 => lanes32 fun i => to32 (fpConv bf16 f32 0 (x i % 2 ^ 16))
  | 0x04 => lanes64 fun j => to64 (fpConv f32 f64 0 (x j))
  | 0x05 => lanes64 fun j => to64 (fpConv f32 f64 0 (x (8 + j)))
  | 0x06 => intoHalf false vd fun j => to32 (fpConv f64 f32 rm (y j))
  | 0x07 => intoHalf true vd fun j => to32 (fpConv f64 f32 rm (y j))
  | 0x08 => lanes32 fun i => to32 (intToFp f32 rm (lane32 a i).toInt)
  | 0x09 => lanes32 fun i => fpToInt f32 rm (x i)
  | 0x0A => lanes64 fun j => to64 (intToFp f64 0 (lane32 a j).toInt)
  | 0x0B => lanes64 fun j => to64 (intToFp f64 0 (lane32 a (8 + j)).toInt)
  | 0x0C => intoHalf false vd fun j => fpToInt f64 rm (y j)
  | 0x0D => intoHalf true vd fun j => fpToInt f64 rm (y j)
  | 0x10 => lanes32 fun i => to32 (fpStochastic f16 (wordShare w i) (x i))
  | _ => lanes32 fun i => to32 (fpStochastic bf16 (wordShare w i) (x i))

/-- R163: a word the queue lacks is completed while the bundle waits. -/
def fillQueue (s : State) (u : UnitSt) : State :=
  s.setUnit s.issue.me (u.modCsr fun c => { c with rbqueue := if c.rbqueue < 16 then c.rbqueue + 1 else c.rbqueue })

/-- VCVT: lane by lane under its code; a stochastic code takes one random word at issue. -/
def execVcvt (d a c : BitVec 8) (s : State) : Host.Outcome State Fault Refusal :=
  let o := opA s.issue a
  let dd := opD s.issue d
  let rs := [o] ++ (if cvtHalf c then [dd] else [])
  let l := 3 + slowExtra rs
  runSlotW s
    (fun s u => firstFail [
      vectorChecks s u (xferRounds s.issue.lend || cvtReserved c) (rs.map VOperand.dest) [(dd.dest, l)],
      if cvtStochastic c && u.csr.rbqueue == 0 then .hold .random else .done])
    fillQueue
    (fun s u =>
      let w := if cvtStochastic c then takeWord u else (0, u)
      let r := convert c (slotRm u s.issue.lend) w.1 (u.vec dd) (u.vec o)
      schedule (noteVector s rs (cvtCan c) r.2 l) s.issue.me w.2 dd.dest r.1 l r.2)

/-! ### VTRANS (R155, R159) -/

/-- The flags a VTRANS can raise: LOG never overflows, EXP never divides, ERF never overflows (R155). -/
def transCan (f : BitVec 2) : BitVec 5 :=
  match f with
  | 0 => fNV ||| fOF ||| fUF ||| fNX
  | 1 => fNV ||| fDZ ||| fNX
  | _ => fNV ||| fUF ||| fNX

/-- VTRANS: the pipeline's interval delays the bundle, or makes it UNDERSIZED_STALL with the stall check set. -/
def execVtrans (d a : BitVec 8) (p : BitVec 1) (f : BitVec 2) (s : State) : Host.Outcome State Fault Refusal :=
  let o := opA s.issue a
  let dd := opD s.issue d
  let l := (if p = 1 then 36 else 16) + slowExtra [o]
  let v := s.issue.vunit
  runSlot s
    (fun s u => firstFail [
      vectorChecks s u (xferRounds s.issue.lend || f == 3) [o.dest] [(dd.dest, l)],
      failIf (u.csr.check.getLsbD 0 && u.run.vtrans.get v != 0) cUndersized u.bundleVa,
      if u.run.vtrans.get v != 0 then .wait .interval else .done])
    (fun s u =>
      let rm := slotRm u s.issue.lend
      let r := if p = 1 then lanes64 fun j => to64 (fpTrans f f64 rm (lane64 (u.vec o) j).toNat)
               else lanes32 fun i => to32 (fpTrans f f32 rm (lane32 (u.vec o) i).toNat)
      let u := u.modRun fun x => { x with vtrans := x.vtrans.set v (if p = 1 then 4 else 2) }
      schedule (noteVector s [o] (transCan f) r.2 l) s.issue.me u dd.dest r.1 l r.2)

/-! ### VRED (R156) -/

/-- One level of the pairwise tree. -/
def pairs {α : Type} (f : α → α → α × BitVec 5) : List α → List α × BitVec 5
  | x :: y :: rest => let r := f x y
                      let t := pairs f rest
                      (r.1 :: t.1, r.2 ||| t.2)
  | l => (l, 0)

/-- The tree, `n` levels. -/
def treeReduce {α : Type} (f : α → α → α × BitVec 5) : Nat → List α → BitVec 5 → List α × BitVec 5
  | 0, l, fl => (l, fl)
  | n + 1, l, fl => let r := pairs f l
                    treeReduce f n r.1 (fl ||| r.2)

/-- The combination of a reduction code on 32-bit lanes. -/
def redOp (c : BitVec 3) (rm : Rm) (x y : Nat) : Nat × BitVec 5 :=
  match c with
  | 0 => fpAdd f32 rm (unpack f32 x) (unpack f32 y)
  | 1 => fpMinMax f32 true x y
  | 2 => fpMinMax f32 false x y
  | 4 => ((x + y) % 2 ^ 32, 0)
  | 5 => (if (BitVec.ofNat 32 x).slt (BitVec.ofNat 32 y) then y else x, 0)
  | _ => (if (BitVec.ofNat 32 y).slt (BitVec.ofNat 32 x) then y else x, 0)

/-- The reduction of a vector: the result in every lane, the flags of every combination. -/
def reduce (c : BitVec 3) (rm : Rm) (v : BitVec 512) : BitVec 512 × BitVec 5 :=
  if c = 3 then
    let r := treeReduce (fun x y => fpAdd f64 rm (unpack f64 x) (unpack f64 y)) 3
      ((List.range 8).map fun j => (lane64 v j).toNat) 0
    (vec64 fun _ => BitVec.ofNat 64 (r.1.headD 0), r.2)
  else
    let r := treeReduce (redOp c rm) 4 ((List.range 16).map fun i => (lane32 v i).toNat) 0
    (vec32 fun _ => BitVec.ofNat 32 (r.1.headD 0), r.2)

def redLat (c : BitVec 3) : Nat :=
  match c with
  | 0 | 1 | 2 => 16
  | 3 => 15
  | _ => 8

def redCan (c : BitVec 3) : BitVec 5 :=
  match c with
  | 0 | 3 => canArith
  | 1 | 2 => fNV
  | _ => 0

/-- VRED. -/
def execVred (d a : BitVec 8) (c : BitVec 3) (s : State) : Host.Outcome State Fault Refusal :=
  vectorSlot (fun is => xferRounds is.lend || c == 7) (fun is => [opA is a]) (fun is => opD is d) (redLat c) (redCan c)
    (fun is u => reduce c (slotRm u is.lend) (u.vec (opA is a))) s

end Sys2Proof.Machine
end

