-- ==== Sys2Proof/Machine/CopyCmds.lean ====
section
/-! DEFINITION.
The slots that set up and issue the copy engines' work: TALLOC, TFREE (R196, R197), BANKACQ, BANKREL (R200), RINGADV,
RINGCNT (R202, R203), STGW, STGR (R206), QBND (R204), TWAIT, CFOL, CABT and the copy commands (R207 to R222). -/

namespace Sys2Proof.Machine

/-! ### The tile table (R196, R197) -/

/-- TALLOC: the descriptor enters the tile table with its ring counters at zero. -/
def execTalloc (a : BitVec 6) (h : BitVec 8) (s : State) : Host.Outcome State Fault Refusal :=
  runSlot s
    (fun s u => firstFail [noLend s u, stallCheck u [.scalar a] [],
      failIf ((u.handle? h).isSome || !descOk (u.reg a)) cTile (handleAddr h)])
    (fun s u => s.setUnit s.issue.me (u.modMem fun m => { m with tbl := m.tbl ++ [Handle.fresh h (u.reg a)] }))

/-- The handles that an array command names (R197). -/
def ArrayCmd.names (c : ArrayCmd) : List (BitVec 8) :=
  match c.op.toNat with
  | 0 => [c.wh]
  | 1 => c.ih :: (if c.emit then [c.oh] else [])
  | 4 => [c.oh]
  | _ => []

/-- A command of the unit that has not completed names a handle. -/
def handleNamed (s : State) (uid : Uid) (u : UnitSt) (h : BitVec 8) : Bool :=
  let k := s.cluster u.ident.cluster
  let a := k.array
  let arr (c : ArrayCmd) : Bool := c.uid == uid && c.names.contains h
  !s.issue.ready && (k.eng.toList.any (fun e => e.queue.any fun c => c.uid == some uid && (c.names u).contains h)
    || a.queue.any arr || (a.state == .run && match a.stream with | some x => arr x.cmd | none => false)
    || (match a.exec with | some x => arr x.cmd | none => false) || a.conv.any fun x => arr x.cmd)

/-- TFREE: the handle leaves the table once no command names it. -/
def execTfree (h : BitVec 8) (s : State) : Host.Outcome State Fault Refusal :=
  runSlot s
    (fun s u => firstFail [noLend s u, failIf (u.handle? h).isNone cTile (handleAddr h),
      failIf (!s.issue.ready && u.umem.q.toList.any fun b => match b with | some x => x.h == h | none => false) cRing (handleAddr h),
      if handleNamed s s.issue.me u h then .wait .token else .done])
    (fun s u => s.setUnit s.issue.me (u.modMem fun m => { m with tbl := m.tbl.filter fun x => x.h != h }))

/-! ### Bank ownership (R200) -/

/-- The banks of a mask. -/
def bankList (x : Word) : List Nat := maskBits x

/-- A mask that names a block above 31 of CHIP or L2PIN. -/
def bankMaskBad (x : Word) (p : BitVec 2) : Bool := p != 0 && x.extractLsb' 32 32 != 0

/-- A bank of the mask stands against a unit: one owned by another without release pending, or any owned by another. -/
def bankHeld (k : Cluster) (uid : Uid) (p : BitVec 2) (l : List Nat) : Bool :=
  k.banks.any fun b => b.space == p && l.contains b.bank && b.owner != uid && !b.pending
def bankTaken (k : Cluster) (uid : Uid) (p : BitVec 2) (l : List Nat) : Bool :=
  k.banks.any fun b => b.space == p && l.contains b.bank && b.owner != uid

/-- A unit's banks after it acquires a list that is free or its own, a pending release of them cancelled. -/
def acquireBanks (k : Cluster) (uid : Uid) (p : BitVec 2) (l : List Nat) : Cluster :=
  let kept := k.banks.filter fun b => !(b.space == p && l.contains b.bank && b.owner == uid)
  { k with banks := kept ++ l.map fun i => ⟨p, i, uid, false⟩ }

/-- BANKACQ: acquires every bank of the mask, waits for pending releases, or parks the unit. -/
def execBankacq (a : BitVec 6) (p : BitVec 2) (s : State) : Host.Outcome State Fault Refusal :=
  runSlotW s
    (fun s u => firstFail [illegalIf u (s.issue.lend != 0 || bankMaskBad (u.reg a) p), stallCheck u [.scalar a] [],
      if bankTaken (s.cluster u.ident.cluster) s.issue.me p (bankList (u.reg a)) then .wait .bank else .done])
    (fun s u => if bankHeld (s.cluster u.ident.cluster) s.issue.me p (bankList (u.reg a)) then parkUnit s s.issue.me else s)
    (fun s u => s.modCluster u.ident.cluster fun k => acquireBanks k s.issue.me p (bankList (u.reg a)))

/-- BANKREL: the unit's banks of the mask are release-pending, and free once no command touches them. -/
def execBankrel (a : BitVec 6) (p : BitVec 2) (s : State) : Host.Outcome State Fault Refusal :=
  runSlot s
    (fun s u => firstFail [illegalIf u (s.issue.lend != 0 || bankMaskBad (u.reg a) p), stallCheck u [.scalar a] []])
    (fun s u =>
      let mine (b : Bank) : Bool := b.space == p && (bankList (u.reg a)).contains b.bank && b.owner == s.issue.me
      let s := s.modCluster u.ident.cluster fun k =>
        let banks := k.banks.map fun b => if mine b then { b with pending := true } else b
        { k with banks := banks }
      releaseBanks s u.ident.cluster)

/-! ### Ring counters (R202, R203) -/

/-- The faults of RINGADV and RINGCNT. -/
def ringOnly (u : UnitSt) (h : BitVec 8) : SlotResult :=
  match u.handle? h with
  | none => .fault cTile (handleAddr h)
  | some x => failIf (!x.ring) cRing (handleAddr h)

/-- RINGADV: n slabs claimed and published. -/
def execRingadv (a : BitVec 6) (t : BitVec 1) (n : BitVec 9) (s : State) : Host.Outcome State Fault Refusal :=
  runSlot s
    (fun s u =>
      let h := (u.reg a).extractLsb' 0 8
      firstFail [noLend s u, stallCheck u [.scalar a] [], ringOnly u h,
        match u.handle? h with
        | some x => if (if t = 1 then x.canTail n.toNat else x.canHead n.toNat) then .done else .wait .ring
        | none => .done])
    (fun s u =>
      match u.handle? ((u.reg a).extractLsb' 0 8) with
      | none => s
      | some x =>
        let (id, s) := s.newReq
        let x := if t = 1 then x.claimTail id n.toNat else x.claimHead id n.toNat
        putHandle s s.issue.me (finishClaim x (t == 1) id))

/-- The counters of a ring as they stood before the core cycle: tp · 2^32 + hp (R203). -/
def ringCount (s : State) (c : ClusterNo) (x : Handle) : Word :=
  (((s.cluster c).counts.find? fun y => y.1 == x.h).map Prod.snd).getD (x.tp ++ x.hp)

/-- RINGCNT: tp · 2^32 + hp, latency 1. -/
def execRingcnt (d a : BitVec 6) (s : State) : Host.Outcome State Fault Refusal :=
  runSlot s
    (fun s u => firstFail [noLend s u, stallCheck u [.scalar a] [(.scalar d, 1)], ringOnly u ((u.reg a).extractLsb' 0 8)])
    (fun s u =>
      match u.handle? ((u.reg a).extractLsb' 0 8) with
      | some x => schedScalar s s.issue.me u d (ringCount s u.ident.cluster x) 1
      | none => s)

/-! ### Staging registers (R206, R235) -/

/-- The RSV bits of a copy staging register (R205). -/
def cgReserved (r : BitVec 4) : Word :=
  match r.toNat with
  | 0 | 1 | 4 | 6 => 0
  | 2 => 0xFF00000000000000
  | 3 => 0xFFFFFFFFFFFFFFC0
  | 5 => 0x00000000FFF80000
  | 7 => 0xFFFFFF0000000000
  | _ => 0xFFFFFFFFFFFFFFFF

/-- The RSV bits of an array staging register (R234). -/
def agReserved (r : BitVec 4) : Word :=
  match r.toNat with
  | 0 => 0xFFFFFFFFFF000000
  | 1 | 2 => 0xFFFFFFFFFFFFFF00
  | 3 | 4 => 0xFFFFFFFFFF800800
  | 5 => 0xFFFFFFFFFFFF0000
  | 6 => 0xFFFFFF8008000000
  | 7 => 0xFFFFFFFFFFFF00FC
  | _ => 0xFFFFFFFFFFFFFFFF

/-- The unit's launch owns the array (R19, R232). -/
def launchOwnsArray (s : State) (u : UnitSt) : Bool :=
  let a := arrayOf s u.ident.cluster
  a.owner.isSome && a.owner == u.ident.launch

/-- STGW: a staging register of the unit's engines, or of the launch that owns the array. -/
def execStgw (a : BitVec 6) (p : BitVec 2) (r : BitVec 4) (s : State) : Host.Outcome State Fault Refusal :=
  runSlot s
    (fun s u => firstFail [noLend s u, stallCheck u [.scalar a] [],
      if p = 2 then arrayIf u (!launchOwnsArray s u || u.reg a &&& agReserved r != 0)
      else failIf (u.reg a &&& cgReserved r != 0) cCopy u.bundleVa])
    (fun s u =>
      if p = 2 then s.modArray u.ident.cluster fun x => { x with ag := x.ag.set r.toFin (u.reg a) }
      else
        let e : Fin 2 := (p.extractLsb' 0 1).toFin
        s.setUnit s.issue.me (u.modEng fun g => { g with cg := g.cg.set e ((g.cg.get e).set r.toFin (u.reg a)) }))

/-- STGR: a staging register, latency 1. -/
def execStgr (d : BitVec 6) (p : BitVec 2) (r : BitVec 4) (s : State) : Host.Outcome State Fault Refusal :=
  runSlot s
    (fun s u => firstFail [noLend s u, stallCheck u [] [(.scalar d, 1)],
      if p = 2 then arrayIf u (!launchOwnsArray s u) else .done])
    (fun s u =>
      let v := if p = 2 then (arrayOf s u.ident.cluster).ag.get r.toFin
               else (u.eng.cg.get (p.extractLsb' 0 1).toFin).get r.toFin
      schedScalar s s.issue.me u d v 1)

/-! ### Commands that take effect at issue (R204, R208, R211, R227, R228) -/

/-- A streaming command of the unit that uses stream register n is running. -/
def streamUses (s : State) (uid : Uid) (u : UnitSt) (n : BitVec 3) : Bool :=
  (s.cluster u.ident.cluster).eng.toList.any fun e => e.queue.any fun c => c.uid == some uid &&
    ((c.sk == 2 && (c.reg 0).extractLsb' 0 3 == n) || (c.dk == 2 && (c.reg 1).extractLsb' 0 3 == n))

/-- A staging register of an engine. -/
def UnitSt.cgReg (u : UnitSt) (e : BitVec 1) (i : Fin 16) : Word := (u.eng.cg.get e.toFin).get i

/-- QBND: a stream register is bound to a ring, or unbound. -/
def execQbnd (e un d : BitVec 1) (n : BitVec 3) (s : State) : Host.Outcome State Fault Refusal :=
  runSlot s
    (fun s u =>
      let h := (u.cgReg e 0).extractLsb' 0 8
      firstFail [noLend s u,
        if un = 1 then .done else
          match u.handle? h with
          | none => .fault cTile (handleAddr h)
          | some x => failIf (!x.ring || x.slabSize != 64) cRing (handleAddr h),
        failIf (streamUses s s.issue.me u n) cRing (handleAddr ((u.boundHandle n).getD h))])
    (fun s u =>
      let b : Option QBind := if un = 1 then none else some ⟨(u.cgReg e 0).extractLsb' 0 8, d == 1⟩
      s.setUnit s.issue.me (u.modMem fun m => { m with q := m.q.set n.toFin b }))

/-- TWAIT: waits until every token of the mask is free. -/
def execTwait (e : BitVec 1) (m : BitVec 16) (s : State) : Host.Outcome State Fault Refusal :=
  runSlot s
    (fun s u => firstFail [noLend s u, if u.eng.tok.get e.toFin &&& m != 0 then .wait .token else .done])
    (fun s _ => s)

/-- CFOL: the follow-on of cg7 when the watched token frees, or in the next cycle when it is free. -/
def execCfol (e : BitVec 1) (t : BitVec 4) (s : State) : Host.Outcome State Fault Refusal :=
  runSlot s
    (fun s u => firstFail [noLend s u, arrayIf u (!launchOwnsArray s u),
      failIf ((u.cgReg e 7).extractLsb' 28 4 != 8) cCopy u.bundleVa])
    (fun s u =>
      let image : BitVec 32 := (u.cgReg e 7).extractLsb' 0 32
      let lend : BitVec 8 := (u.cgReg e 7).extractLsb' 32 8
      let free := !(u.eng.tok.get e.toFin).getLsbD t.toNat
      let f : Follow := ⟨s.issue.me, e, t, image, lend, u.flow.pc.addr, s.issue.slot, free, true, none⟩
      s.modCluster u.ident.cluster fun k => { k with follows := k.follows ++ [f] })

/-- CABT: every command of the engine whose token is in the mask is abandoned (R225, R228). -/
def execCabt (e : BitVec 1) (m : BitVec 16) (s : State) : Host.Outcome State Fault Refusal :=
  runSlot s (fun s u => noLend s u)
    (fun s u => abandonAll s u.ident.cluster e s.issue.me fun c => m.getLsbD c.tok.toNat)

/-! ### Copy commands (R207 to R210) -/

/-- A command as it would be queued, with everything it reads at issue (R47). -/
def mkCopyCmd (s : State) (u : UnitSt) (e : BitVec 1) (op : BitVec 5) (hdr : BitVec 22) : CopyCmd :=
  { id := s.nextReq, uid := some s.issue.me, asid := u.ident.asid, op := op, hdr := hdr, cg := u.eng.cg.get e.toFin,
    wins := u.csr.wb, rmode := u.csr.rmode, rb0 := 0, rb1 := 0, bundle := u.flow.pc.addr, slot := s.issue.slot, srcPos := 0,
    dstPos := 0, started := false, index := [], slabs := 0, moved := false, arrival := none, arrived := false,
    publRel := none, publDone := false, fault := none, views := u.umem.views, await := [], flags := 0, buf := none,
    shadow := false, tile := [], old := [], transform := none }

/-- A handle side of a command: allocated, every access inside it and in banks that the unit owns; a ring by its slabs. -/
def sideTile (s : State) (uid : Uid) (u : UnitSt) (c : CopyCmd) (h : BitVec 8) (dst : Bool) : SlotResult :=
  match u.handle? h with
  | none => .fault cTile (handleAddr h)
  | some x =>
    let c := { c with srcPos := x.hc, dstPos := x.tc }
    let bytes := if dst then c.dstBytes else c.srcBytes
    let r : List (Int × Int) := if x.ring && decide (x.size < bytes) then [] else if dst then c.dstRanges x else c.srcRanges x
    failIf (r.any fun (p : Int × Int) => decide (p.1 < 0) || decide ((x.size : Int) < p.2)
        || !ownsRange (s.cluster u.ident.cluster) uid x.level (x.base + p.1.toNat) (p.2 - p.1).toNat) cTile (handleAddr h)

/-- A ring used as `h`: a whole number of slabs, 1 to SLABS, and no offset. -/
def sideRing (u : UnitSt) (h : BitVec 8) (off bytes : Nat) : SlotResult :=
  match u.handle? h with
  | some x => failIf (x.ring && (off != 0 || bytes == 0 || bytes % x.slabSize != 0 || decide (x.slabs < bytes / x.slabSize)))
                cRing (handleAddr h)
  | none => .done

/-- A `q` side: its ring's storage is the unit's. -/
def streamTile (s : State) (uid : Uid) (u : UnitSt) (h : Option (BitVec 8)) : SlotResult :=
  match h with
  | none => .done
  | some h => match u.handle? h with
    | none => .fault cTile (handleAddr h)
    | some x => failIf (!ownsRange (s.cluster u.ident.cluster) uid x.level x.base x.size) cTile (handleAddr h)

/-- A `q` side: the stream register is bound, the right way. -/
def streamRing (u : UnitSt) (n : BitVec 3) (out : Bool) : SlotResult :=
  match u.umem.q.get n.toFin with
  | none => .fault cRing 0
  | some b => failIf (b.out != out) cRing (handleAddr b.h)

/-- The index list of GATH and SCAT lies in a TILE handle of the unit (R213). -/
def indexTile (s : State) (uid : Uid) (u : UnitSt) (c : CopyCmd) : SlotResult :=
  match u.handle? c.ih with
  | none => .fault cTile (handleAddr c.ih)
  | some x => failIf (x.level != 0 || decide (x.size < 4 * c.nrows)
      || !ownsRange (s.cluster u.ident.cluster) uid 0 x.base (4 * c.nrows)) cTile (handleAddr c.ih)

/-- The command's index handle, if it has one. -/
def CopyCmd.indexed (c : CopyCmd) : Bool := c.op == 3 || c.op == 4

/-- COPY_FAULT's conditions on the conversions of a command (R214, R218, R220, R222).  For the reserved RM codes 6 and 7, the HAD code
0b11, and DQCVT's ZSL 0b11 or ZSL beside Z512 the spec names no fault: COPY_FAULT at issue is the model's choice (log 82). -/
def convBad (c : CopyCmd) : Bool :=
  let code (f : Nat) : Bool := decide (3 ≤ f ∧ f ≤ 8)
  match c.op.toNat with
  | 0x06 => decide (2 < c.sfmt) || !code c.dfmt || c.had == 3 || (c.had == 1 && c.len % 16 != 0) || (c.had == 2 && c.len % 32 != 0)
      || c.zsl == 3 || (c.zsl != 0 && c.z512) || (!c.sr && decide (5 < c.rm.toNat))
  | 0x07 => !code c.sfmt || decide (2 < c.dfmt) || c.had != 0 || c.zsl == 3 || (c.zsl != 0 && c.z512) || decide (5 < c.rm.toNat)
  | 0x08 | 0x09 => c.sfmt != c.dfmt || !code c.sfmt || c.len % 8 != 0
  | 0x0F => c.len % c.xeb != 0
  | _ => false

/-- COPY_FAULT at issue (R209, R217).  For a PUBL with P = 0 or cg2[55:32] other than 1 the spec names no fault: COPY_FAULT at issue, and
cg2[31:16] ignored, are the model's choice (log 82). -/
def copyBad (u : UnitSt) (c : CopyCmd) : Bool :=
  let ringDst := match u.handle? c.dstH with | some x => x.ring | none => false
  if c.op = 0x0A then c.nrows != 1 || c.producers == 0
  else c.len == 0 || c.nrows == 0 || decide (2 ^ 31 < c.len) || convBad c
    || (c.sk == 1 && (c.reg 0).extractLsb' 40 24 != 0) || (c.dk == 1 && (c.reg 1).extractLsb' 40 24 != 0)
    || (c.bar && (c.dk == 2 || (c.dk == 1 && !ringDst)))
    || ((c.sk == 2 || c.dk == 2) && (c.srcBytes % 64 != 0))

/-- The checks of R209 in R36's order; a bound barrier is no place for a restartable unit (R354). -/
def copyChecks (s : State) (u : UnitSt) (c : CopyCmd) : List SlotResult :=
  let me := s.issue.me
  [if c.sk = 1 then sideTile s me u c c.srcH false else .done,
   if c.dk = 1 then sideTile s me u c c.dstH true else .done,
   if c.indexed then indexTile s me u c else .done,
   if c.sk = 2 then streamTile s me u (c.qHandle u false) else .done,
   if c.dk = 2 then streamTile s me u (c.qHandle u true) else .done,
   if c.sk = 1 then sideRing u c.srcH c.srcOff c.srcBytes else .done,
   if c.dk = 1 then sideRing u c.dstH c.dstOff c.dstBytes else .done,
   if c.sk = 2 then streamRing u ((c.reg 0).extractLsb' 0 3) true else .done,
   if c.dk = 2 then streamRing u ((c.reg 1).extractLsb' 0 3) false else .done,
   arrayIf u (c.folBit && !launchOwnsArray s u),
   failIf (copyBad u c || (c.folBit && (c.reg 7).extractLsb' 28 4 != 8)) cCopy u.bundleVa,
   failIf (c.bar && u.restartable) cProtection c.barVa]

/-- The slabs that a side claims at issue. -/
def CopyCmd.claimSlabs (c : CopyCmd) (u : UnitSt) (dst : Bool) : Nat :=
  if (if dst then c.dk else c.sk) = 1 then
    match u.handle? (if dst then c.dstH else c.srcH) with
    | some x => if x.ring && x.slabSize != 0 then (if dst then c.dstBytes else c.srcBytes) / x.slabSize else 0
    | none => 0
  else 0

/-- A command would reach a faulted command's tile destination (R224). -/
def shadowMeets (s : State) (u : UnitSt) (c : CopyCmd) : Bool :=
  let pos (h : BitVec 8) (f : Handle → BitVec 32) : BitVec 32 := match u.handle? h with | some x => f x | none => 0
  let c := { c with srcPos := pos c.srcH Handle.hc, dstPos := pos c.dstH Handle.tc }
  (c.touched u).any fun t => shadowed s u.ident.cluster t.1 t.2.1 t.2.2

/-- The waits of R209: a faulted command's destination (R224), a full queue, a busy token, a claim that cannot be made; then the random
words (R163). -/
def copyWaits (s : State) (u : UnitSt) (e : BitVec 1) (c : CopyCmd) : SlotResult :=
  let head := c.claimSlabs u false
  let tail := c.claimSlabs u true
  let can (h : BitVec 8) (f : Handle → Bool) : Bool := match u.handle? h with | some x => f x | none => true
  if shadowMeets s u c then .wait .bank
  else if 8 ≤ (s.engine u.ident.cluster e).queue.length then .wait .queueSlot
  else if (u.eng.tok.get e.toFin).getLsbD c.tok.toNat then .wait .token
  else if (head != 0 && !can c.srcH fun x => x.canHead head) || (tail != 0 && !can c.dstH fun x => x.canTail tail) then .wait .ring
  else if c.op = 6 && c.sr && decide (u.csr.rbqueue < 2) then .hold .random
  else .done

/-- The unit with a command's claims made. -/
def claimFor (u : UnitSt) (c : CopyCmd) : UnitSt × CopyCmd :=
  let head := c.claimSlabs u false
  let tail := c.claimSlabs u true
  let srcPos := match u.handle? c.srcH with | some x => x.hc | none => 0
  let u := if head = 0 then u else match u.handle? c.srcH with
    | some x => u.setHandle (x.claimHead c.id head)
    | none => u
  let dstPos := match u.handle? c.dstH with | some x => x.tc | none => 0
  let u := if tail = 0 then u else match u.handle? c.dstH with
    | some x => u.setHandle (x.claimTail c.id tail)
    | none => u
  (u, { c with srcPos := srcPos, dstPos := dstPos })

/-- A command is accepted: its claims made, its words taken, its token busy, its place in the queue (R34). -/
def acceptCopy (s : State) (u : UnitSt) (e : BitVec 1) (c : CopyCmd) : State :=
  let (u, c) := claimFor u c
  let (u, c) := if c.op = 6 && c.sr then
      let hi := takeWord u
      let lo := takeWord hi.2
      (lo.2, { c with rb1 := hi.1, rb0 := lo.1 })
    else (u, c)
  let s := setToken ((s.newReq).2.setUnit s.issue.me u) s.issue.me e c.tok true
  s.modEngine u.ident.cluster e fun x => { x with queue := x.queue ++ [c] }

/-- A copy command: its checks, holds and waits, and its acceptance. -/
def copySlot (e : BitVec 1) (op : BitVec 5) (hdr : BitVec 22) (s : State) : Host.Outcome State Fault Refusal :=
  runSlotW s
    (fun s u =>
      let c := mkCopyCmd s u e op hdr
      firstFail ([noLend s u] ++ copyChecks s u c ++ [memHold s s.issue.me u, copyWaits s u e c]))
    (fun s u => match copyWaits s u e (mkCopyCmd s u e op hdr) with | .hold _ => fillQueue s u | _ => s)
    (fun s u => acceptCopy s u e (mkCopyCmd s u e op hdr))

/-- The header of a copy command (R207). -/
def copyHdr (t : BitVec 4) (b f : BitVec 1) (sk dk : BitVec 2) (opf : BitVec 12) : BitVec 22 := t ++ b ++ f ++ sk ++ dk ++ opf

/-- CPY (R212). -/
def execCpy (e : BitVec 1) (t : BitVec 4) (b f : BitVec 1) (k : BitVec 2) (s : State) : Host.Outcome State Fault Refusal :=
  copySlot e 0x00 (copyHdr t b f 0 k 0) s

/-- CPYO (R212). -/
def execCpyo (e : BitVec 1) (t : BitVec 4) (b f : BitVec 1) (k : BitVec 2) (s : State) : Host.Outcome State Fault Refusal :=
  copySlot e 0x01 (copyHdr t b f k 0 0) s

/-- CPYT (R212). -/
def execCpyt (e : BitVec 1) (t : BitVec 4) (b f : BitVec 1) (s : State) : Host.Outcome State Fault Refusal :=
  copySlot e 0x02 (copyHdr t b f 1 1 0) s

/-- GATH (R213). -/
def execGath (e : BitVec 1) (t : BitVec 4) (b f : BitVec 1) (i : BitVec 8) (s : State) : Host.Outcome State Fault Refusal :=
  copySlot e 0x03 (copyHdr t b f 0 1 (i.setWidth 12)) s

/-- SCAT (R213). -/
def execScat (e : BitVec 1) (t : BitVec 4) (b f : BitVec 1) (i : BitVec 8) (s : State) : Host.Outcome State Fault Refusal :=
  copySlot e 0x04 (copyHdr t b f 1 0 (i.setWidth 12)) s

/-- BPF (R214). -/
def execBpf (e : BitVec 1) (t : BitVec 4) (s : State) : Host.Outcome State Fault Refusal :=
  copySlot e 0x05 (copyHdr t 0 0 0 0 0) s

/-- QCVT (R218, R219). -/
def execQcvt (e : BitVec 1) (t : BitVec 4) (b f : BitVec 1) (x k : BitVec 2) (s : State) : Host.Outcome State Fault Refusal :=
  copySlot e 0x06 (copyHdr t b f x k 0) s

/-- DQCVT (R220). -/
def execDqcvt (e : BitVec 1) (t : BitVec 4) (b f : BitVec 1) (x k : BitVec 2) (s : State) : Host.Outcome State Fault Refusal :=
  copySlot e 0x07 (copyHdr t b f x k 0) s

/-- NMPK (R222). -/
def execNmpk (e : BitVec 1) (t : BitVec 4) (b f : BitVec 1) (x k : BitVec 2) (s : State) : Host.Outcome State Fault Refusal :=
  copySlot e 0x08 (copyHdr t b f x k 0) s

/-- NMUP (R222). -/
def execNmup (e : BitVec 1) (t : BitVec 4) (b f : BitVec 1) (x k : BitVec 2) (s : State) : Host.Outcome State Fault Refusal :=
  copySlot e 0x09 (copyHdr t b f x k 0) s

/-- PUBL (R217). -/
def execPubl (e : BitVec 1) (t : BitVec 4) (b f x : BitVec 1) (s : State) : Host.Outcome State Fault Refusal :=
  copySlot e 0x0A (copyHdr t b f 0 0 (x.setWidth 12)) s

/-- XPOSE (R214). -/
def execXpose (e : BitVec 1) (t : BitVec 4) (b f : BitVec 1) (x k eb : BitVec 2) (s : State) : Host.Outcome State Fault Refusal :=
  copySlot e 0x0F (copyHdr t b f x k (eb.setWidth 12)) s

end Sys2Proof.Machine
end

