-- ==== Sys2Proof/Machine/Kill.lean ====
section
/-! DEFINITION.
Killing a unit (R17, R350): its engines, its array and its barriers, and the return of a prompter whose step it ended
(R349). -/

namespace Sys2Proof.Machine

/-- An arrival of a unit at a barrier that has been issued and not performed. -/
def arrivalInFlight (s : State) (uid : Uid) (c : ClusterNo) (pa : Nat) : Bool :=
  let mine (q : SyncReq) : Bool := q.who == uid && granulePa q.pa == pa &&
    (q.kind == .farrive || q.kind == .op 0x0F || (q.kind == .op 0x0D && !q.join))
  (!(s.die (dieOf c)).lost && (heldReqs (s.cluster c)).any mine) || s.dies.toList.any fun d => d.sync.queue.any mine

/-- A member has not arrived in the current phase of a barrier, and no arrival of it is on its way (R281). -/
def notArrived (s : State) (uid : Uid) (c : ClusterNo) (m : Member) : Bool :=
  let d := homeOf (m.pa / 128)
  let phase := (Barrier.ofNat (engineRead s m.pa 16 (lineKey s (m.pa / 128)))).phase
  let last := ((s.die d).sync.members.find? fun x => x.uid == uid && x.pa == m.pa).bind fun x => x.arrived
  last != some (BitVec.ofNat 15 phase) && !arrivalInFlight s uid c m.pa

/-- One lost arrival at each barrier of a unit's table where it has not arrived in the current phase (R281). -/
def loseArrivals (s : State) (uid : Uid) (u : UnitSt) : State :=
  (u.sync.members.filter fun m => notArrived s uid u.ident.cluster m).foldl (fun s m =>
    let (id, s) := s.newReq
    let q := syncReq s u id .lostArrival m.pa m.va (lineKey s (m.pa / 128))
    let q := { q with uid := uid, who := uid, size := 16 }
    s.modSync q.die fun y => { y with queue := y.queue ++ [q] }) s

/-- What every end of a unit other than HALT does: copies abandoned (R229), the array's work dropped (R262), lost
arrivals (R281). -/
def cutUnit (s : State) (uid : Uid) : State :=
  match s.unit? uid with
  | none => s
  | some u =>
    let c := u.ident.cluster
    let s := abandonAll s c 0 uid fun _ => true
    let s := abandonAll s c 1 uid fun _ => true
    loseArrivals (killArray s uid c) uid u

/-- A live unit ends with a status that is no HALT. -/
def endUnit (s : State) (uid : Uid) (e : EndStatus) : State :=
  match s.unit? uid with
  | none => s
  | some u => if u.live then completeUnit (endWait (cutUnit s uid) uid) uid e else s

/-- A unit is killed (R17, R350). -/
def killUnit (s : State) (uid : Uid) : State := endUnit s uid .killed

/-- Killing every unit that a test accepts. -/
def killUnits (s : State) (ok : UnitSt → Bool) : State :=
  (List.range s.units.length).foldl (fun s i =>
    match s.unit? i with
    | some u => if ok u then killUnit s i else s
    | none => s) s

/-! ### The end of a step (R349) -/

/-- The summary of a frozen unit, MORE apart (R345). -/
def summary (u : UnitSt) : Word :=
  match u.run.record with
  | none => 0
  | some r =>
    (0#16) ++ u.ident.index ++ u.run.gen ++ (0#1) ++ BitVec.ofBool u.run.curtFrozen ++ BitVec.ofBool u.run.dieLost
      ++ BitVec.ofBool r.after ++ r.mask ++ r.code

/-- A frozen unit of a context on a core that no prompter holds. -/
def untaken (p : UnitSt) (v : UnitSt) : Bool :=
  v.ident.cluster == p.ident.cluster && (v.run.status == .frozenFree || v.run.status == .prompterWait)

/-- The summary with MORE: another untaken frozen unit of the prompter's context is on its core (R345). -/
def summaryMore (s : State) (p u : UnitSt) : Word :=
  summary u ||| if (oldestUnit s p.ident.asid (untaken p)).isSome then 0x8000 else 0

/-- The prompter takes up its segment again with the result of its step in sd and its capability. -/
def resumePrompter (s : State) (p : Uid) (sd : BitVec 6) (kc : BitVec 2) (v cap : Word) : State :=
  match s.unit? p with
  | none => s
  | some w =>
    let w := w.modRegs fun g => { g with s := if sd = 0 then g.s else g.s.set sd.toFin v }
    let w := w.modEng fun e => { e with kc := e.kc.set kc.toFin cap }
    let s := s.setUnit p (w.modRun fun r => { r with status := .running })
    s.modCluster w.ident.cluster fun k => { k with running := some p }

/-- A stepped unit has frozen again or completed: the prompter holds it at its new generation, or holds nothing. -/
def finishStep (s : State) (uid : Uid) : State :=
  match s.unit? uid with
  | none => s
  | some u =>
    match u.run.stepFor with
    | none => s
    | some p =>
      let clear (s : State) : State := s.modUnit uid fun u => u.modRun fun r => { r with stepFor := none }
      if !(match s.unit? p with | some w => w.live | none => false) then clear s
      else if !u.live then resumePrompter (clear s) p u.run.stepSd u.run.stepKc 0 0
      else if u.isFrozen || u.run.status == .stopped then
        let s := (clear s).modUnit uid fun u => u.modRun fun r => { r with status := if firmwareTakes u then .stopped else .frozenHeld }
        match s.unit? uid, s.unit? p with
        | some u, some w =>
          resumePrompter s p u.run.stepSd u.run.stepKc (summaryMore s w u) (mkCap s uid u (w.ident.prompt.getD 0))
        | _, _ => s
      else s

/-- Every step that has ended. -/
def finishSteps (s : State) : State :=
  (List.range s.units.length).foldl (fun s i =>
    match s.unit? i with
    | some u => if u.run.stepFor.isSome then finishStep s i else s
    | none => s) s

end Sys2Proof.Machine
end

