-- ==== Sys2Proof/Machine/Graphs.lean ====
section
/-! DEFINITION.
What the parsing core reads (R358, R368): graph descriptors (R366), operator records (R361), segment tables (R363) and
wings images (R364), and the conditions under which it refuses a graph (R370, R373, R387). -/

namespace Sys2Proof.Machine

/-! ### Memory as the front end reads it -/

/-- The walker's answer to the front end for an address of a context: what the leaf maps, its ACC and DIRTY bits set. -/
def feTranslate (s : State) (a : BitVec 16) (va : Va) (acc : Access) : Option (State × Nat × TlbEntry × Bool) :=
  match s.ctx? a with
  | none => none
  | some k =>
    match walkFrom s va.toNat 5 k.root [] with
    | .fail => none
    | .leaf addr p level _ =>
      if !leafOk s a (vpnOf va) p level then none
      else
        let e := entryOfLeaf s ⟨0, a, va, acc.writes, 0, 0, none⟩ p level
        let who : Accessor := ⟨a, 0, false, []⟩
        let reads := acc == .read || acc == .fetch
        let frame : Nat := match e.buffer with
          | none => e.frame0
          | some b => if reads then (if ((s.buf? b).map (·.sel)).getD false then e.frame1 else e.frame0) else e.wframe.getD e.frame0
        let pa := frame + va.toNat % levelSize level
        let header := isHeaderPage s e (vpnOf va)
        let lost := match frameDie pa with | some d => (s.die d).lost | none => false
        if refused s who e acc || lost || (header && !reads) then none
        else some (setAccDirty s addr p acc.writes, pa, e, header && decide (va.toNat % 16384 < 16384 - 64))

/-- Bytes of a context's memory at device scope; `none` where a page of it cannot be read. -/
def feRead (a : BitVec 16) : List (Va × Nat) → State → List Byte → Option (State × List Byte)
  | [], s, acc => some (s, acc)
  | (va, n) :: rest, s, acc =>
    match feTranslate s a va .read with
    | none => none
    | some (s, pa, e, blank) =>
      if (frameDie pa).isNone then none
      else feRead a rest s (acc ++ blankBytes va blank (deviceBytes s pa n e.key))

/-- n bytes at an address. -/
def feBytes (s : State) (a : BitVec 16) (va : Va) (n : Nat) : Option (State × List Byte) :=
  feRead a (lineChunks (va.extractLsb' 64 16) (va.extractLsb' 0 64) n) s []

/-! ### Operator records (R361) -/

/-- A field of a record that must be zero. -/
def zeroAt {w : Nat} (x : BitVec w) (lo n : Nat) : Bool := x.extractLsb' lo n == 0

/-- A completion target's fields, and whether they are well formed. -/
def parseTarget (x : BitVec 192) : Target × Bool :=
  ({ va := x.extractLsb' 0 80, kind := x.extractLsb' 80 4, value := x.extractLsb' 96 64 },
   decide ((x.extractLsb' 80 4).toNat ≤ 3) && zeroAt x 84 12 && zeroAt x 160 32)

/-- The fields of a record. -/
def parseRecord (x : BitVec 2048) : OpRecord :=
  { kind := x.extractLsb' 0 8, restart := x.getLsbD 8, nodl := x.getLsbD 9, rel := x.getLsbD 10, noent := x.getLsbD 11,
    units := (x.extractLsb' 16 16).toNat, cmask := x.extractLsb' 64 128, prog := x.extractLsb' 192 80,
    segt := x.extractLsb' 288 80, nseg := (x.extractLsb' 368 16).toNat, wings := x.extractLsb' 384 80,
    dlsec := x.extractLsb' 480 48, dlns := x.extractLsb' 528 32, centry := x.extractLsb' 560 64,
    wrap := (x.extractLsb' 624 24).toNat, cpi := (x.extractLsb' 648 16).toNat,
    tgt0 := (parseTarget (x.extractLsb' 768 192)).1, tgt1 := (parseTarget (x.extractLsb' 960 192)).1,
    cgimg := Vector.ofFn fun i => x.extractLsb' (1152 + 64 * i.val) 64, cslot := x.extractLsb' 1664 32,
    twin := Vector.ofFn fun i => x.extractLsb' (1696 + 16 * i.val) 16 }

/-- Whether a transform's slot is a copy command that a transform may carry (R373). -/
def transformSlotOk (ok : SlotWord → Bool) (w : SlotWord) : Bool :=
  ok w && w.extractLsb' 28 4 == 0xA && !w.getLsbD 17 && !w.getLsbD 16
    && ((w.extractLsb' 22 5).toNat ≤ 0x0A || w.extractLsb' 22 5 == 0x0F)

/-- A record is well formed (R361, R373, R386, R387). `ok` says which slot words decode. -/
def recordOk (ok : SlotWord → Bool) (va : Va) (x : BitVec 2048) : Bool :=
  let r := parseRecord x
  let reserved := zeroAt x 12 4 && zeroAt x 32 32 && zeroAt x 272 16 && zeroAt x 464 16 && zeroAt x 664 104 && zeroAt x 1760 288
  let targets := (parseTarget (x.extractLsb' 768 192)).2 && (parseTarget (x.extractLsb' 960 192)).2
  zeroAt va 0 8 && reserved && targets && r.cmask != 0 &&
    match r.kind.toNat with
    | 1 =>
      decide (1 ≤ r.units) && zeroAt r.prog 0 4 && decide (1 ≤ r.nseg) && zeroAt r.wings 0 8 && decide (r.dlns.toNat < 1000000000)
        && zeroAt r.centry 0 4 && zeroAt x 1152 608
        && (if r.noent then r.centry == 0 && r.wrap == 0 && r.cpi == 0 else r.nodl || decide (1 ≤ r.cpi))
    | 2 => zeroAt x 192 472 && transformSlotOk ok r.cslot
    | _ => false

/-! ### Segment tables (R363) -/

/-- The entries of a segment table. -/
def parseSegs : Nat → List Byte → List (BitVec 64 × BitVec 32)
  | 0, _ => []
  | n + 1, bs => (BitVec.ofNat 64 (leNat (bs.take 8)), BitVec.ofNat 32 (leNat ((bs.drop 8).take 4))) :: parseSegs n (bs.drop 16)

/-! ### Wings images (R364) -/

/-- The 64-bit word at an offset of an image. -/
def wordAt (bs : List Byte) (off : Nat) : Word := BitVec.ofNat 64 (leNat ((bs.drop off).take 8))

/-- The handle entries, and whether each is well formed: no handle twice, and a descriptor that TALLOC would accept. -/
def parseHandles : Nat → List Byte → List (BitVec 8 × BitVec 64) → List (BitVec 8 × BitVec 64) × Bool
  | 0, _, acc => (acc, true)
  | n + 1, bs, acc =>
    let w := wordAt bs 0
    let d := wordAt bs 8
    let h : BitVec 8 := w.extractLsb' 0 8
    if zeroAt w 8 56 && descOk d && !(acc.any fun x => x.1 == h) then parseHandles n (bs.drop 16) (acc ++ [(h, d)]) else (acc, false)

/-- Bytes of an image up to its handles, of its handles, and where its cue sheet lies. -/
def wingsHead : Nat := 0x100
def wingsCount (bs : List Byte) : Nat := ((wordAt bs 0xC0).extractLsb' 0 9).toNat
def sheetAt (bs : List Byte) : Nat := (wingsHead + 16 * wingsCount bs + 63) / 64 * 64
def wingsHasSheet (bs : List Byte) : Bool := (wordAt bs 0xC0).getLsbD 9

/-- The whole length of an image whose first 256 bytes are given. -/
def wingsLen (bs : List Byte) : Nat :=
  let n := min 256 (wingsCount bs)
  if wingsHasSheet bs then sheetAt bs + 4096 else wingsHead + 16 * n

/-- The fields of an image. -/
def parseWings (bs : List Byte) : Wings :=
  let w (off : Nat) : Word := wordAt bs off
  { wb := Vector.ofFn fun i => (w (8 * i.val)).extractLsb' 0 16, land := (w 0x20).extractLsb' 0 8,
    check := (w 0x28).extractLsb' 0 2, rmode := (w 0x30).extractLsb' 0 3, fte := (w 0x38).extractLsb' 0 5,
    rbseed0 := w 0x40, rbseed1 := w 0x48, wcha := Vector.ofFn fun i => w (0x50 + 16 * i.val),
    wchc := Vector.ofFn fun i => w (0x58 + 16 * i.val), arrcfg := w 0x70,
    ez := Vector.ofFn fun i => (w 0x78).extractLsb' (8 * i.val) 8, ag := Vector.ofFn fun i => w (0x80 + 8 * i.val),
    handles := (parseHandles (wingsCount bs) (bs.drop wingsHead) []).1, tbank := w 0xC8,
    cbank := (w 0xD0).extractLsb' 0 32, lbank := (w 0xD0).extractLsb' 32 32,
    sheet := if wingsHasSheet bs then some ((bs.drop (sheetAt bs)).take 4096) else none }

/-- An image is well formed. -/
def wingsOk (bs : List Byte) : Bool :=
  let w (off : Nat) : Word := wordAt bs off
  let cfg := w 0x70
  ((List.range 4).all fun i => zeroAt (w (8 * i)) 16 48)
    && zeroAt (w 0x20) 8 56 && w 0x20 != 0 && zeroAt (w 0x28) 2 62 && decide ((w 0x30).toNat < 5) && zeroAt (w 0x38) 5 59
    && zeroAt (w 0x58) 48 16 && zeroAt (w 0x68) 48 16
    && decide (4 ≤ (cfg.extractLsb' 0 5).toNat ∧ (cfg.extractLsb' 0 5).toNat ≤ 16) && zeroAt cfg 5 3 && cfg.extractLsb' 44 2 != 3
    && zeroAt cfg 48 16
    && ((List.range 8).all fun i => w (0x80 + 8 * i) &&& agReserved (BitVec.ofNat 4 i) == 0)
    && decide (wingsCount bs ≤ 256) && zeroAt (w 0xC0) 10 54
    && ((List.range 5).all fun i => w (0xD8 + 8 * i) == 0)
    && (parseHandles (wingsCount bs) (bs.drop wingsHead) []).2
    && (!wingsHasSheet bs || ((bs.drop (sheetAt bs)).take 4096).all fun b => zeroAt b 5 3)

/-! ### Graph descriptors (R366, R370) -/

/-- The fields of a node. -/
def parseNode (x : BitVec 512) : Node :=
  { kind := x.extractLsb' 0 8, depc := (x.extractLsb' 8 8).toNat,
    succ := (List.range (x.extractLsb' 16 8).toNat).map fun i => (x.extractLsb' (24 + 8 * i) 8).toNat,
    arg := x.extractLsb' 96 80, bfirst := (x.extractLsb' 192 8).toNat, blast := (x.extractLsb' 200 8).toNat,
    count := (x.extractLsb' 224 32).toNat, record := none, wings := none, segs := [], dep := 0, fired := false,
    done := false, iter := 0, launch := none }

/-- A node's own fields are well formed (R366). -/
def nodeOk (x : BitVec 512) : Bool :=
  let n := parseNode x
  decide (1 ≤ n.kind.toNat ∧ n.kind.toNat ≤ 6) && decide ((x.extractLsb' 16 8).toNat ≤ 8) && zeroAt x 88 8 && zeroAt x 176 16
    && zeroAt x 208 16 && zeroAt x 256 256
    && (n.kind == 1 || n.kind == 2 || n.kind == 4 || n.kind == 5 || n.arg == 0)
    && (n.hasBody || (n.bfirst == 0 && n.blast == 0))
    && (if n.kind = 3 then decide (1 ≤ n.count) else n.count == 0)

/-- No path of successor edges returns to its start: taking away the nodes that no remaining node reaches ends with
none. -/
def acyclic (l : List Node) : Nat → List Nat → Bool
  | 0, left => left.isEmpty
  | n + 1, left =>
    let reached := left.flatMap fun i => ((l[i]?).map Node.succ).getD []
    acyclic l n (left.filter fun i => reached.contains i)

/-- Two bodies overlap without nesting. -/
def bodiesClash (m n : Node) : Bool :=
  let meet := decide (m.bfirst ≤ n.blast ∧ n.bfirst ≤ m.blast ∧ m.bfirst ≤ m.blast ∧ n.bfirst ≤ n.blast)
  let within (a b : Node) : Bool := decide (b.bfirst ≤ a.bfirst ∧ a.blast ≤ b.blast)
  m.hasBody && n.hasBody && meet && ((!within m n && !within n m) || (within m n && within n m))

/-- The first node whose edges or body break R370. -/
def badEdges (l : List Node) : Option Nat :=
  ((numbered l).find? fun x =>
    let (i, n) := x
    n.succ.any (fun j => decide (l.length ≤ j) || l.any fun m => m.inBody i != m.inBody j)
      || n.inBody i || (n.hasBody && decide (l.length ≤ n.blast) && decide (n.bfirst ≤ n.blast))
      || (numbered l).any fun y => y.1 != i && bodiesClash n y.2).map (·.1)

/-- Edges that reach a node. -/
def edgesTo (l : List Node) (j : Nat) : Nat := (l.map fun n => (n.succ.filter fun x => x == j).length).sum

/-- The first node whose DEPC is not the number of edges that reach it. -/
def badDepc (l : List Node) : Option Nat := ((numbered l).find? fun x => x.2.depc != edgesTo l x.1).map (·.1)

/-- The nodes of a descriptor, or the node at fault. -/
def readNodes (a : BitVec 16) (va : Va) : Nat → Nat → State → List Node → Except Nat (State × List Node)
  | _, 0, s, acc => .ok (s, acc)
  | i, n + 1, s, acc =>
    match feBytes s a (va + BitVec.ofNat 80 (64 * (i + 1))) 64 with
    | none => .error i
    | some (s, bs) =>
      let x := BitVec.ofNat 512 (leNat bs)
      if nodeOk x then readNodes a va (i + 1) n s (acc ++ [parseNode x]) else .error i

/-- The record, wings and segments of a node: the node with them, or the code of a refusal. -/
def readNode (ok : SlotWord → Bool) (a : BitVec 16) (s : State) (n : Node) : Except (BitVec 8) (State × Node) :=
  if n.kind != 1 && n.kind != 2 then .ok (s, n)
  else
    match feBytes s a n.arg 256 with
    | none => .error 0x02
    | some (s, bs) =>
      let x := BitVec.ofNat 2048 (leNat bs)
      let r := parseRecord x
      if !recordOk ok n.arg x || r.kind != n.kind then .error 0x02
      else if n.kind = 2 then .ok (s, { n with record := some r })
      else
        match feBytes s a r.wings wingsHead with
        | none => .error 0x03
        | some (s, head) =>
          match feBytes s a r.wings (wingsLen head) with
          | none => .error 0x03
          | some (s, image) =>
            if !wingsOk image then .error 0x03
            else
              match feBytes s a r.segt (16 * r.nseg) with
              | none => .error 0x02
              | some (s, segs) => .ok (s, { n with record := some r, wings := some (parseWings image), segs := parseSegs r.nseg segs })

/-- The records of the nodes from number i on. -/
def readRecords (ok : SlotWord → Bool) (a : BitVec 16) : Nat → List Node → State → List Node → Except (BitVec 8 × Nat) (State × List Node)
  | _, [], s, acc => .ok (s, acc)
  | i, n :: rest, s, acc =>
    match readNode ok a s n with
    | .error c => .error (c, i)
    | .ok (s, n) => readRecords ok a (i + 1) rest s (acc ++ [n])

/-- The graph that a descriptor gives, or ERR and NODE of the refusal (R370). -/
def readGraph (ok : SlotWord → Bool) (s : State) (a : BitVec 16) (va : Va) : Except (BitVec 8 × Nat) (State × List Node) :=
  match feBytes s a va 64 with
  | none => .error (0x01, 0)
  | some (s, bs) =>
    let x := BitVec.ofNat 512 (leNat bs)
    let n := (x.extractLsb' 0 9).toNat
    if !zeroAt va 0 6 || !zeroAt x 9 503 || n = 0 || 256 < n then .error (0x01, 0)
    else
      match readNodes a va 0 n s [] with
      | .error i => .error (0x01, i)
      | .ok (s, l) =>
        match readRecords ok a 0 l s [] with
        | .error e => .error e
        | .ok (s, l) =>
          match badEdges l with
          | some i => .error (0x04, i)
          | none =>
            if !acyclic l l.length (List.range l.length) then .error (0x04, 0)
            else
              match badDepc l with
              | some i => .error (0x05, i)
              | none => .ok (s, l)

end Sys2Proof.Machine
end

