-- ==== Sys2Proof/Machine/FrontEnd.lean ====
section
/-! DEFINITION.
The front end at work: placing units (R362, R365, R376), passes of graphs (R369 to R373), completion targets (R374),
cancels (R17, R375), and writes of the job-control page (R359, R360, R367). -/

namespace Sys2Proof.Machine

/-! ### Small accessors -/

def State.graph (s : State) (g : Fin 64) : Graph := s.hub.graphs.get g
def State.modGraph (s : State) (g : Fin 64) (f : Graph → Graph) : State :=
  s.modHub fun h => { h with graphs := h.graphs.set g (f (h.graphs.get g)) }

/-- Changing a node of a graph. -/
def modNode (s : State) (g : Fin 64) (n : Nat) (f : Node → Node) : State :=
  s.modGraph g fun x => { x with nodes := x.nodes.modify n f }

def pushTodo (s : State) (g : Fin 64) (t : List Todo) : State := s.modGraph g fun x => { x with todo := x.todo ++ t }

/-- Words of slots that decode to a well-formed instruction. -/
def slotOk (w : SlotWord) : Bool := match decodeSlot w with | .instr i => i.wellFormed | _ => false

/-! ### Placement (R362, R365, R376) -/

/-- The clusters of a launch, in ascending order (R362). -/
def OpRecord.clusters (r : OpRecord) : List ClusterNo := (List.finRange 128).filter fun c => r.cmask.getLsbD c.val

/-- The cluster of unit i (R362). -/
def OpRecord.clusterOf (r : OpRecord) (i : Nat) : ClusterNo :=
  match r.clusters with
  | [] => 0
  | l => l.getD (i % l.length) 0

/-- A running order takes another entry of a context (R376). -/
def seatFree (s : State) (c : ClusterNo) (a : BitVec 16) : Bool :=
  let k := s.cluster c
  let asids := (k.order.filterMap fun u => (s.unit? u).map fun x => x.ident.asid).dedup
  decide (k.order.length < 64) && (asids.contains a || decide (asids.length < 8))

/-- A unit of a launch as its wings make it (R365). -/
def wingedUnit (l : Launch) (li i : Nat) (c : ClusterNo) (instances : Nat) : UnitSt :=
  let w := l.wings
  let id : UnitId := { launch := some li, index := BitVec.ofNat 16 i, asid := l.asid, cluster := c, prompt := none,
                       restart := l.record.restart, instances := instances, serves := none }
  let u := UnitSt.fresh id (l.record.prog.extractLsb' 64 16) (l.record.prog.extractLsb' 0 64)
  let u := u.modCsr fun x => { x with wb := w.wb, land := w.land, check := w.check, rmode := w.rmode, fte := w.fte,
                                      rbseed0 := w.rbseed0, rbseed1 := w.rbseed1 }
  u.modMem fun m => { m with wcha := w.wcha, wchc := w.wchc, tbl := w.handles.map (fun h => Handle.fresh h.1 h.2),
                             tbank := w.tbank, cbank := w.cbank, lbank := w.lbank }

/-- A unit enters the running order of its core, or stays unplaced. -/
def seatUnit (s : State) (uid : Uid) (u : UnitSt) : State :=
  let c := u.ident.cluster
  if seatFree s c u.ident.asid then
    let s := s.modUnit uid fun u => u.modRun fun r => { r with status := .parked }
    rebuildOrder (s.modCluster c fun k => { k with order := k.order ++ [uid] }) c
  else s.modUnit uid fun u => u.modRun fun r => { r with status := .unplaced }

/-- A unit is created and placed; one of a launch that has been struck, or on a lost die, completes at
once (R22, R388, R389). -/
def placeUnit (s : State) (li : Nat) (l : Launch) (i : Nat) (c : ClusterNo) (instances : Nat) : State :=
  let uid := s.units.length
  let u := wingedUnit l li i c instances
  let s := activate (touchDie { s with units := s.units ++ [u] } l.asid (dieOf c)) c
  if (s.die (dieOf c)).lost then completeUnit s uid .lost
  else if l.struck then
    let s := s.modUnit uid fun u => u.modCurt fun x => { x with struck := true }
    completeUnit (s.modLaunch li fun l => { l with curtain := true }) uid .curtain
  else seatUnit s uid u

/-- A unit of a launch stands already. -/
def unitExists (s : State) (li i : Nat) : Bool := s.units.any fun u => u.ident.launch == some li && u.ident.index.toNat == i

/-- Every unit of a launch whose cluster is c is placed. -/
def placeOn (s : State) (li : Nat) (c : ClusterNo) : State :=
  match s.launch? li with
  | none => s
  | some l =>
    let mine := (List.range l.record.units).filter fun i => l.record.clusterOf i == c && !unitExists s li i
    let s := mine.foldl (fun s i => placeUnit s li l i c 0) s
    s.modLaunch li fun l => { l with placed := l.placed + mine.length, pendingWings := l.pendingWings.filter fun x => x != c }

/-- Units that no running order had room for take their place (R376). -/
def admitUnplaced (s : State) : State :=
  (List.range s.units.length).foldl (fun s i =>
    match s.unit? i with
    | some u => if u.run.status == .unplaced && seatFree s u.ident.cluster u.ident.asid then seatUnit s i u else s
    | none => s) s

/-! ### Wings (R233, R365) -/

/-- The fields of the wings enter the array; the rest of its state is cleared, the weights kept under RETAIN (R233). -/
def swapArray (s : State) (c : ClusterNo) (li : Nat) (l : Launch) : State :=
  let cfg := l.wings.arrcfg
  let old := arrayOf s c
  let same := match old.owner.bind s.launch? with | some o => o.asid == l.asid | none => false
  let keep := cfg.getLsbD 46 && same
  s.modArray c fun a =>
    let ag : Vector Word 16 := Vector.ofFn fun i => if h : i.val < 8 then l.wings.ag.get ⟨i.val, h⟩ else 0
    { ArraySt.reset with
      owner := some li
      cells := if keep then a.cells else []
      forms := if keep then a.forms else []
      scales := if keep then a.scales else []
      slen := cfg.extractLsb' 0 5
      rowseed := cfg.extractLsb' 8 16
      colseed := cfg.extractLsb' 24 16
      mode := cfg.extractLsb' 40 2
      spread := cfg.getLsbD 42
      nm := cfg.getLsbD 43
      pair := cfg.extractLsb' 44 2
      ez := l.wings.ez
      ag := ag
      acyc := a.acyc
      clearing := if keep then 0 else 2048 }

/-- A sheet is refused unless it gives every ordered pair of cores at least one cycle of the revolution (R291). -/
def sheetFaulty (sheet : List (BitVec 8)) : Bool :=
  let pairs := sheet.zipIdx.filterMap fun x => if x.1.getLsbD 4 then some (x.2 % 16, x.1.toNat % 16) else none
  (List.range 16).any fun a => (List.range 16).any fun d => a != d && !pairs.contains (a, d)

/-- The launch of a die's cue sheet is still live on the die. -/
def sheetLive (s : State) (d : DieNo) : Bool :=
  match (s.die d).sheetLaunch with
  | none => false
  | some li => s.units.any fun u => u.ident.launch == some li && dieOf u.ident.cluster == d && u.live

/-- The refusal of a launch's sheet on a die is reported to the host, once (R291). -/
def refuseSheet (s : State) (li : Nat) (d : DieNo) : State :=
  if s.mod.sheetReports.contains (li, d) then s else s.setMod { s.mod with sheetReports := s.mod.sheetReports ++ [(li, d)] }

/-- The sheet of wings that are loaded on a die is checked there, whether the launch takes the array or not (R291). -/
def checkSheet (s : State) (c : ClusterNo) (li : Nat) (l : Launch) : State :=
  match l.wings.sheet with
  | some x => if sheetFaulty x then refuseSheet s li (dieOf c) else s
  | none => s

/-- A launch's cue sheet is loaded at its first swap on a die; a faulty one is not, and one that would replace a live launch's is
refused like it (R291, R365). -/
def loadSheet (s : State) (c : ClusterNo) (li : Nat) (l : Launch) : State :=
  let d := dieOf c
  match l.wings.sheet with
  | none => s
  | some x =>
    if (s.die d).sheetLaunch == some li || sheetFaulty x then s
    else if sheetLive s d then refuseSheet s li d
    else s.modDie d fun y => { y with cueSheet := some x, sheetLaunch := some li }

/-- WINGS_LOAD (R365): a launch's wings enter a free shadow bank; without ARRAY its units are placed at once. -/
def execWingsLoad (li : Nat) (c : ClusterNo) (s : State) : Host.Outcome State Fault Refusal :=
  .next <| match s.launch? li with
  | none => s
  | some l =>
    if !l.pendingWings.contains c || (s.cluster c).shadowWings.isSome || (l.deadline.isSome && !l.registered) then s
    else
      let s := checkSheet s c li l
      if l.wings.arrcfg.getLsbD 47 then
        let s := s.modLaunch li fun l => { l with pendingWings := l.pendingWings.filter fun x => x != c }
        activate (s.modCluster c fun k => { k with shadowWings := some li }) c
      else placeOn s li c

/-- Every unit of a launch on a cluster has completed. -/
def launchLeft (s : State) (li : Nat) (c : ClusterNo) : Bool :=
  s.units.all fun u => !(u.ident.launch == some li && u.ident.cluster == c && u.live)

/-- The shadow wings of a cluster may swap in. -/
def canSwap (s : State) (c : ClusterNo) : Bool :=
  let k := s.cluster c
  k.shadowWings.isSome && match k.activeWings with | some o => launchLeft s o c | none => true

/-- WINGS_SWAP (R365): the shadow becomes active, the array passes to the launch, and its units are placed. -/
def execWingsSwap (c : ClusterNo) (s : State) : Host.Outcome State Fault Refusal :=
  .next <| match (s.cluster c).shadowWings with
  | none => s
  | some li =>
    match s.launch? li with
    | none => s
    | some l =>
      if !canSwap s c then s
      else
        let s := s.modCluster c fun k => { k with activeWings := some li, shadowWings := none }
        let s := loadSheet (swapArray s c li l) c li l
        placeOn s li c

/-! ### Deadlines (R386 to R388) -/

/-- Deadlines registered and not yet struck (TKLIVE). -/
def liveDeadlines (s : State) : Nat := (s.hub.launches.filter fun l => l.registered && !l.struck && !l.done).length

/-- A deadline is registered where the table has room, and struck at once if it has passed. -/
def registerDeadline (s : State) (li : Nat) : State :=
  match s.launch? li with
  | none => s
  | some l =>
    match l.deadline with
    | none => s
    | some d =>
      if l.registered || l.done || decide (4096 ≤ liveDeadlines s) then s
      else s.modLaunch li fun l => { l with registered := true, struck := decide (d ≤ s.hub.tk.tai) }

/-! ### Launches of a pass (R362) -/

/-- A launch node takes a serial, in the counter's order; its units stand unplaced, and a recorder keeps its images (R355). -/
def newLaunch (s : State) (a : BitVec 16) (g : Fin 64) (n : Nat) (x : Node) : State :=
  match x.record, x.wings, s.ctx? a with
  | some r, some w, some k =>
    let start := (s.graph g).taiStart
    let at_ := r.dlsec.toNat * 1000000000 + r.dlns.toNat
    let l : Launch := { serial := k.serial, asid := a, graph := some (g.val, n), record := r, wings := w, segs := x.segs,
                        remain := r.units, placed := 0, deadline := if r.nodl then none else some (if r.rel then start + at_ else at_),
                        registered := false, struck := false, killed := false, curtain := false, done := false, finish := 0,
                        pendingWings := [] }
    let li := s.hub.launches.length
    let s := s.modHub fun h => { h with launches := h.launches ++ [l] }
    let s := s.modCtx a fun k =>
      { k with serial := k.serial + 1
               recLaunches := if k.recording then k.recLaunches ++ [⟨k.serial, r, w⟩] else k.recLaunches }
    modNode s g n fun x => { x with launch := some li }
  | _, _, _ => s

/-- A launch node fires: its wings are wanted on its clusters; one that a cancel has reached has nothing to place. -/
def fireLaunch (s : State) (li : Nat) : State :=
  match s.launch? li with
  | none => s
  | some l =>
    if l.killed then s.modLaunch li fun l => { l with remain := 0, finish := 1 }
    else
      let used := l.record.clusters.filter fun c => (List.range l.record.units).any fun i => l.record.clusterOf i == c
      registerDeadline (s.modLaunch li fun l => { l with pendingWings := used }) li

/-! ### Bodies (R366, R372) -/

/-- A run of a body, or of the whole pass, begins: counters take DEPC, launches take serials, and what depends on nothing
fires (R362, R372). -/
def startRun (s : State) (g : Fin 64) (p : Option Nat) : State :=
  let x := s.graph g
  let ns := childrenOf x.nodes p
  let s := ns.foldl (fun s n => modNode s g n fun y =>
    { y with dep := y.depc, fired := false, done := false, iter := 0, launch := none }) s
  let s := ns.foldl (fun s n => match x.nodes[n]? with
    | some y => if y.kind = 1 then newLaunch s x.asid g n y else s
    | none => s) s
  pushTodo s g ((ns.filter fun n => match x.nodes[n]? with | some y => y.depc == 0 | none => false).map .fire)

/-- The word of a loop or conditional, read at device scope (R368, R372); where it cannot be read nothing says what it
is. -/
def readWord (s : State) (a : BitVec 16) (va : Va) : Word × State :=
  match feBytes s a va 8 with
  | some (s, bs) => (BitVec.ofNat 64 (leNat bs), s)
  | none => s.freeWord

/-! ### Transforms (R373) -/

/-- The command of a transform node: it has no unit, and so no RMODE and no random-bit queue. -/
def transformCmd (s : State) (a : BitVec 16) (g : Fin 64) (n : Nat) (r : OpRecord) : CopyCmd × State :=
  let (r0, s) := s.freeWord
  let (r1, s) := s.freeWord
  let (id, s) := s.newReq
  let cg : Vector Word 16 := Vector.ofFn fun i => if h : i.val < 8 then r.cgimg.get ⟨i.val, h⟩ else 0
  ({ id := id, uid := none, asid := a, op := r.cslot.extractLsb' 22 5, hdr := r.cslot.extractLsb' 0 22, cg := cg, wins := r.twin,
     rmode := 0, rb0 := r0, rb1 := r1, bundle := 0, slot := 0, srcPos := 0, dstPos := 0, started := false, index := [],
     slabs := 0, moved := false, arrival := none, arrived := false, publRel := none, publDone := false, fault := none,
     views := [], await := [], flags := 0, buf := none, shadow := false, tile := [], old := [], transform := some (g.val, n) }, s)

/-- A transform waits for the next segment boundary of the lowest cluster of its mask. -/
def fireTransform (s : State) (a : BitVec 16) (g : Fin 64) (n : Nat) (r : OpRecord) : State :=
  let (c, s) := transformCmd s a g n r
  let cl := r.clusters.headD 0
  activate (s.modCluster cl fun k => { k with transforms := k.transforms ++ [c] }) cl

/-- The engine of a transform's command. -/
def transformEngine (s : State) (c : CopyCmd) : BitVec 1 :=
  match c.transform with
  | some (g, n) =>
    if h : g < 64 then
      match ((s.graph ⟨g, h⟩).nodes[n]?).bind Node.record with
      | some r => r.cslot.extractLsb' 27 1
      | none => 0
    else 0
  | none => 0

/-- A transform's command is waiting or at work. -/
def transformBusy (s : State) (g n : Nat) : Bool :=
  s.clusters.toList.any fun k => k.transforms.any (fun c => c.transform == some (g, n))
    || k.eng.toList.any fun e => e.queue.any fun c => c.transform == some (g, n)

/-- The commands of a graph's transforms, taken away. -/
def dropTransforms (s : State) (g : Nat) : State :=
  let mine (c : CopyCmd) : Bool := match c.transform with | some x => x.1 == g | none => false
  (List.finRange 128).foldl (fun s cl =>
    let k := s.cluster cl
    if k.transforms.any mine || k.eng.toList.any (fun e => e.queue.any mine) then
      let s := s.modCluster cl fun k => { k with transforms := k.transforms.filter fun c => !mine c }
      [0, 1].foldl (fun (s : State) (e : BitVec 1) => s.modEngine cl e fun x =>
        { x with queue := x.queue.filter fun c => !mine c, faulted := x.faulted && !(x.queue.any fun c => mine c && c.fault.isSome) }) s
    else s) s

/-! ### Cancelling a launch or a pass (R375) -/

/-- Every unit of a launch is killed, those not yet placed counted as complete. -/
def cutLaunch (s : State) (li : Nat) : State :=
  match s.launch? li with
  | none => s
  | some l =>
    if l.done || l.finish != 0 then s
    else
      let fired := l.placed != 0 || !l.pendingWings.isEmpty || s.clusters.toList.any fun k => k.shadowWings == some li
      let missing := l.record.units - l.placed
      let s := s.modLaunch li fun l => { l with killed := true }
      if !fired then s
      else
        let s := s.modLaunch li fun l =>
          { l with pendingWings := [], placed := l.record.units, remain := l.remain - missing,
                   finish := if l.remain ≤ missing then 1 else l.finish }
        let s := (List.finRange 128).foldl (fun s c =>
          if (s.cluster c).shadowWings == some li then s.modCluster c fun k => { k with shadowWings := none } else s) s
        killUnits s fun u => u.ident.launch == some li

/-- A node of a pass that is fired and has work outstanding. -/
def Node.working (n : Node) : Bool := n.fired && !n.done && n.kind == 1

/-- A cut pass is over once its launches are. -/
def settleCut (s : State) (g : Fin 64) : State :=
  let x := s.graph g
  if x.cut && !(x.nodes.any Node.working) then s.modGraph g fun x => { x with cut := false, state := 1, gcnt := 0 } else s

/-- The pass of a slot and its pending cues are cancelled. -/
def cutGraph (s : State) (g : Fin 64) : State :=
  let x := s.graph g
  if x.state != 2 then s
  else
    let s := s.modGraph g fun x =>
      let nodes := x.nodes.map fun n => if n.working then n else { n with fired := true, done := true }
      { x with cut := true, pends := [], todo := [], nodes := nodes }
    let s := dropTransforms s g.val
    let s := x.nodes.foldl (fun s n => match n.launch with
      | some li => if n.fired && !n.done then cutLaunch s li else s.modLaunch li fun l => { l with killed := l.killed || !n.done }
      | none => s) s
    settleCut s g

/-- A transform faults: its pass is cancelled at graph level and the slot records the fault (R373). -/
def faultTransform (s : State) (g : Fin 64) (n : Nat) (code : BitVec 8) : State :=
  (cutGraph s g).modGraph g fun x => { x with err := 0x06, node := BitVec.ofNat 8 n, fcode := code }

/-! ### Passes (R369, R372) -/

/-- A pass begins. -/
def startPass (s : State) (g : Fin 64) (cue : Nat) : State :=
  let x := s.graph g
  let fser := match s.ctx? x.asid with | some k => k.serial | none => 0
  let top := (childrenOf x.nodes none).length
  let s := s.modGraph g fun x => { x with state := 2, gcnt := BitVec.ofNat 16 top, fser := fser, todo := [], cut := false,
                                          cueNo := cue, taiStart := s.hub.tk.tai }
  startRun s g none

/-- The pass of a slot is complete: the next pending cue starts one. -/
def passDone (s : State) (g : Fin 64) : State :=
  let s := s.modGraph g fun x => { x with passes := x.passes + 1, state := 1, todo := [] }
  match (s.graph g).pends with
  | [] => s
  | c :: rest => startPass (s.modGraph g fun x => { x with pends := rest }) g c

/-- A node fires (R372). -/
def fireNode (s : State) (g : Fin 64) (n : Nat) : State :=
  let x := s.graph g
  match x.nodes[n]? with
  | none => s
  | some y =>
    let s := modNode s g n fun y => { y with fired := true }
    let body (s : State) (empty : Todo) : State :=
      if (childrenOf x.nodes (some n)).isEmpty then pushTodo s g [empty] else startRun s g (some n)
    match y.kind.toNat with
    | 1 => match y.launch with | some li => fireLaunch s li | none => s
    | 2 => match y.record with | some r => fireTransform s x.asid g n r | none => s
    | 3 => body s (.done n)
    | 4 =>
      let (w, s) := readWord s x.asid y.arg
      if w = 0 then pushTodo s g [.done n] else body s (.fire n)
    | 5 =>
      let (w, s) := readWord s x.asid y.arg
      if w = 0 then pushTodo s g [.done n] else body s (.done n)
    | _ => s

/-- A run of the body of node m has ended. -/
def bodyDone (s : State) (g : Fin 64) (m : Nat) : State :=
  let x := s.graph g
  match x.nodes[m]? with
  | none => s
  | some y =>
    match y.kind.toNat with
    | 3 =>
      let s := modNode s g m fun y => { y with iter := y.iter + 1 }
      if y.count ≤ y.iter + 1 then pushTodo s g [.done m] else startRun s g (some m)
    | 4 =>
      let (w, s) := readWord s x.asid y.arg
      if w = 0 then pushTodo s g [.done m] else startRun s g (some m)
    | _ => pushTodo s g [.done m]

/-- A node completes: its successors' counters fall, and its body run or its pass may end. -/
def doneNode (s : State) (g : Fin 64) (n : Nat) : State :=
  let x := s.graph g
  match x.nodes[n]? with
  | none => s
  | some y =>
    if y.done then s
    else
      let s := modNode s g n fun y => { y with done := true }
      if x.cut then settleCut s g
      else
        let s := y.succ.foldl (fun s j =>
          let s := modNode s g j fun z => { z with dep := z.dep - 1 }
          match (s.graph g).nodes[j]? with
          | some z => if z.dep = 0 && !z.fired then pushTodo s g [.fire j] else s
          | none => s) s
        match parentOf x.nodes n with
        | none =>
          let s := s.modGraph g fun x => { x with gcnt := x.gcnt - 1 }
          if (s.graph g).gcnt = 0 then passDone s g else s
        | some m =>
          let all := (childrenOf x.nodes (some m)).all fun i => match (s.graph g).nodes[i]? with | some z => z.done | none => true
          if all then bodyDone s g m else s

/-- The next thing to do for a graph, up to a number of times. -/
def runTodo (g : Fin 64) : Nat → State → State
  | 0, s => s
  | n + 1, s =>
    match (s.graph g).todo with
    | [] => s
    | t :: rest =>
      let s := s.modGraph g fun x => { x with todo := rest }
      runTodo g n (match t with
        | .fire i => if ((s.graph g).nodes[i]?).any (fun y => !y.done) then fireNode s g i else s
        | .done i => doneNode s g i)

/-- A node's completion and what follows from it at once. -/
def finishNode (s : State) (g : Fin 64) (n : Nat) : State := runTodo g 512 (doneNode s g n)

/-! ### Cues (R369, R371) -/

/-- A cue reaches a slot of a context: it starts a pass, waits, or is discarded. -/
def performCue (s : State) (a : BitVec 16) (g : Fin 64) : State :=
  let x := s.graph g
  let cancelled := match s.ctx? a with | some k => k.cancelled | none => true
  if x.state = 0 || (x.state == 3 && x.asid == a) then s.modGraph g fun x => { x with drop := true }
  else if x.asid != a || cancelled then s
  else
    let cue := s.hub.cueSeq
    let s := s.modHub fun h => { h with cueSeq := h.cueSeq + 1 }
    if x.state = 2 then s.modGraph g fun x => { x with pends := if x.pends.length < 65535 then x.pends ++ [cue] else x.pends }
    else if x.resident then runTodo g 512 (startPass s g cue)
    else
      match readGraph slotOk s a (x.gahi ++ x.gaddr) with
      | .error (c, n) => s.modGraph g fun x => { x with state := 3, err := c, node := BitVec.ofNat 8 n, pends := [] }
      | .ok (s, l) => runTodo g 512 (startPass (s.modGraph g fun x => { x with nodes := l, resident := true }) g cue)

/-- CUE (R369): a host store to a cue register. -/
def execCue (a : BitVec 16) (g : Fin 64) (s : State) : Host.Outcome State Fault Refusal :=
  .next (performCue s a g)

/-- GADDR_WRITE (R367): a host write of GADDR claims, replaces or frees a slot. -/
def writeGaddr (s : State) (a : BitVec 16) (g : Fin 64) (v : Word) : State :=
  let x := s.graph g
  if (s.ctx? a).isNone || x.state = 2 || (x.state != 0 && x.asid != a) then s
  else
    let s := s.modCtx a fun k => { k with cancelled := false }
    if v = 0 then s.modGraph g fun x => { Graph.reset with gahi := x.gahi }
    else s.modGraph g fun x =>
      { x with asid := a, gaddr := v, state := 1, drop := false, err := 0, node := 0, fcode := 0, resident := false, nodes := [], pends := [] }

/-- GADDR_WRITE. -/
def execGaddrWrite (a : BitVec 16) (g : Fin 64) (v : Word) (s : State) : Host.Outcome State Fault Refusal := .next (writeGaddr s a g v)

/-- TRANSFORM_DISPATCH (R373): at a segment boundary the oldest waiting transform enters its engine's queue. -/
def execTransformDispatch (c : ClusterNo) (s : State) : Host.Outcome State Fault Refusal :=
  .next <| match (s.cluster c).transforms with
  | [] => s
  | x :: rest =>
    let e := transformEngine s x
    if (s.cluster c).running.isSome || decide (8 ≤ (s.engine c e).queue.length) then s
    else
      let s' := s.modCluster c fun k => { k with transforms := rest }
      let dummy := UnitSt.fresh ⟨none, 0, x.asid, c, none, false, 0, none⟩ 0 0
      -- it reads the versions that stand at its dispatch (R127)
      let x := { x with views := s.hub.walk.bufs.zipIdx.map fun b => (b.2, b.1.sel) }
      match firstFail (copyChecks s dummy x), x.transform with
      | .fault code _, some (g, n) => if h : g < 64 then faultTransform s' ⟨g, h⟩ n code else s'
      | _, _ => (invalidate s' c false).modEngine c e fun q => { q with queue := q.queue ++ [x] }

/-! ### Cancels (R375) -/

/-- CANCEL_UNIT. -/
def cancelUnit (s : State) (a : BitVec 16) (serial : BitVec 32) (n : BitVec 16) : State :=
  match s.hub.launches.findIdx? fun l => l.asid == a && l.serial == serial && !l.done with
  | none => s
  | some li =>
    match s.launch? li with
    | none => s
    | some l =>
      let i := n.toNat
      let placing := !l.pendingWings.isEmpty || s.clusters.toList.any fun k => k.shadowWings == some li
      let s := if !unitExists s li i && placing && decide (i < l.record.units) then
          (placeUnit s li l i (l.record.clusterOf i) 0).modLaunch li fun l => { l with placed := l.placed + 1 }
        else s
      killUnits s fun u => u.ident.launch == some li && u.ident.index == n

/-- CANCEL_LAUNCH. -/
def cancelLaunch (s : State) (a : BitVec 16) (serial : BitVec 32) : State :=
  match s.hub.launches.findIdx? fun l => l.asid == a && l.serial == serial && !l.done with
  | none => s
  | some li => cutLaunch s li

/-- CANCEL_GRAPH. -/
def cancelGraph (s : State) (a : BitVec 16) (g : Fin 64) : State := if (s.graph g).asid = a then cutGraph s g else s

/-- The cues, in order, whose passes have phase boundaries still to complete, once for each. -/
def boundaryCues (s : State) (a : BitVec 16) : List Nat := (openPasses s a).flatMap fun x => List.replicate x.2 x.1

/-- CANCEL_PHASE: every pass cued before the boundary that ends the phase; a phase that no boundary cued so far ends takes
every pass. -/
def cancelPhase (s : State) (a : BitVec 16) (phase : BitVec 16) : State :=
  match s.ctx? a with
  | none => s
  | some k =>
    let j := (phase - k.phase).toNat
    if 2 ^ 15 ≤ j then s
    else
      let limit := (boundaryCues s a)[j]?
      let before (c : Nat) : Bool := match limit with | some m => decide (c < m) | none => true
      (List.finRange 64).foldl (fun s g =>
        let x := s.graph g
        if x.asid = a && x.state == 2 then
          let later := x.pends.filter fun c => !before c
          if before x.cueNo then
            let s := cutGraph s g
            s.modGraph g fun x => { x with pends := later }
          else s.modGraph g fun x => { x with pends := later }
        else s) s

/-- CANCEL_JOB: every pass of the context, then its prompters; no cue is accepted until a GADDR is written. -/
def cancelJob (s : State) (a : BitVec 16) : State :=
  let s := (List.finRange 64).foldl (fun s g => cancelGraph s a g) s
  let s := killUnits s fun u => u.ident.asid == a && !u.isPrompter
  let s := killUnits s fun u => u.ident.asid == a
  s.modCtx a fun k => { k with cancelled := true }

/-- A cancel at work, with the effects of R17. -/
def runCancel (s : State) (a : BitVec 16) : Cancel → State
  | .unit serial n => cancelUnit s a serial n
  | .launch serial => cancelLaunch s a serial
  | .graph g => cancelGraph s a g
  | .phase p => cancelPhase s a p
  | .job => cancelJob s a

/-- A cancel of a context is performed where it is the one in progress or none is; another is queued behind that one (R375). -/
def performCancel (s : State) (a : BitVec 16) (c : Cancel) : State :=
  match s.ctx? a with
  | none => runCancel s a c
  | some k =>
    match k.cancels with
    | [] => runCancel s a c
    | x :: rest =>
      if x = c then (runCancel s a c).modCtx a fun k => { k with cancels := rest }
      else s.modCtx a fun k => { k with cancels := k.cancels ++ [c] }

/-- CANCEL_UNIT. -/
def execCancelUnit (a : BitVec 16) (serial : BitVec 32) (n : BitVec 16) (s : State) : Host.Outcome State Fault Refusal :=
  .next (performCancel s a (.unit serial n))

/-- CANCEL_LAUNCH. -/
def execCancelLaunch (a : BitVec 16) (serial : BitVec 32) (s : State) : Host.Outcome State Fault Refusal :=
  .next (performCancel s a (.launch serial))

/-- CANCEL_GRAPH. -/
def execCancelGraph (a : BitVec 16) (g : Fin 64) (s : State) : Host.Outcome State Fault Refusal := .next (performCancel s a (.graph g))

/-- CANCEL_PHASE. -/
def execCancelPhase (a : BitVec 16) (phase : BitVec 16) (s : State) : Host.Outcome State Fault Refusal :=
  .next (performCancel s a (.phase phase))

/-- CANCEL_JOB. -/
def execCancelJob (a : BitVec 16) (s : State) : Host.Outcome State Fault Refusal := .next (performCancel s a .job)

/-! ### Phase boundaries (R372) -/

/-- Every graph of the context cued before a pass has completed its pass. -/
def earlierPassesDone (s : State) (a : BitVec 16) (cue : Nat) (g : Fin 64) : Bool :=
  (List.finRange 64).all fun i =>
    let x := s.graph i
    x.asid != a || i == g || ((x.state != 2 || decide (cue < x.cueNo)) && x.pends.all fun c => decide (cue < c))

/-- Dirty bytes of every core are written back to the slices, but for those that a release of its own holds. -/
def flushCores (s : State) : State :=
  (List.finRange 128).foldl (fun s c =>
    if (s.cluster c).cache.any (fun l => l.dirty != 0) then flushDie s c else s) s

/-- No store of any core stands before its device step. -/
def allWritten (s : State) : Bool :=
  s.clusters.toList.all (fun k => k.cache.all fun l => l.dirty == 0) && (List.finRange 8).all fun d => (pendingLines s d).isEmpty

/-- PHASE_BOUNDARY_RELEASE (R372): the boundary a pass waits at releases at device scope and completes. -/
def execPhaseBoundaryRelease (g : Fin 64) (s : State) : Host.Outcome State Fault Refusal :=
  .next <|
    let x := s.graph g
    match (numbered x.nodes).find? fun y => y.2.kind == 6 && y.2.fired && !y.2.done with
    | none => s
    | some (n, _) =>
      if x.state != 2 || !earlierPassesDone s x.asid x.cueNo g then s
      else
        let s := flushCores s
        if !allWritten s then s
        else
          let s := s.modCtx x.asid fun k => { k with phase := k.phase + 1 }
          finishNode s g n

/-! ### Completion targets (R374) -/

/-- The unit under whose number a launch's own posted writes stand. -/
def launchUid (s : State) (li : Nat) : Uid := (s.units.findIdx? fun u => u.ident.launch == some li).getD (s.units.length + li)

/-- ERR and NODE of a launch's graph. -/
def noteTarget (s : State) (l : Launch) (err : BitVec 8) : State :=
  match l.graph with
  | some (g, n) => if h : g < 64 then s.modGraph ⟨g, h⟩ fun x => { x with err := err, node := BitVec.ofNat 8 n } else s
  | none => s

/-- A target on a sync page is performed at its engine, and logged when the context records (R263, R287). -/
def targetAtEngine (s : State) (l : Launch) (q : SyncReq) : State :=
  let r := performSync s q.die q
  let s := touchLine (logSync r.2 q.die q q.va r.1.code) q.die q.pa
  if r.1.code != 0 then noteTarget s l 0x07 else s

/-- The request of a target at its engine. -/
def targetReq (s : State) (li : Nat) (l : Launch) (t : Target) (pa : Nat) (e : TlbEntry) (add : Bool) : SyncReq :=
  let dummy := UnitSt.fresh ⟨some li, 0, l.asid, 0, none, false, 0, none⟩ 0 0
  let q := syncReq s dummy 0 (if add then .op 0 else .store) pa t.va e.key
  { q with uid := launchUid s li, who := launchUid s li, x := t.value.setWidth 512, scope := 2 }

/-- A cue target: discarded with ERR 0x08 where the slot is free, refused or another context's (R371). -/
def targetCue (s : State) (l : Launch) (v : Word) : State :=
  let g : Fin 64 := (v.extractLsb' 0 6).toFin
  let x := s.graph g
  if x.state = 0 || x.state = 3 || x.asid != l.asid then noteTarget (performCue s l.asid g) l 0x08 else performCue s l.asid g

end Sys2Proof.Machine
end

