-- ==== Sys2Proof/Machine/JobPage.lean ====
section
/-! DEFINITION.
Completion targets (R374), writes of the job-control page (R359, R360, R367, R380), PCTL (R340, R360), and what the front
end does by itself in every step. -/

namespace Sys2Proof.Machine

/-! ### PCTL (R339, R340, R360) -/

/-- A free slot goes to the oldest waiting unit of a context. -/
def handOne (s : State) (a : BitVec 16) : State :=
  match s.ctx? a with
  | none => s
  | some k =>
    match freeSlot k, oldestUnit s a (fun v => v.run.status == .prompterWait) with
    | some slot, some v =>
      match s.unit? v with
      | some w =>
        if k.pen then startPrompter (s.modUnit v fun u => u.modRun fun r => { r with status := .frozenFree }) k slot w.ident.cluster v
        else s
      | none => s
    | _, _ => s

/-- Every free slot is handed out. -/
def handAll (a : BitVec 16) : Nat → State → State
  | 0, s => s
  | n + 1, s => handAll a n (handOne s a)

/-- Recording starts: the log, the recorder's stream and the sequence numbers begin anew (R287, R355); whether the context selects
digests of inbound data is told by no register, so it is open. -/
def startRecording (s : State) (a : BitVec 16) : State :=
  let (b, s) := s.freeWord
  let s := s.modCtx a fun k =>
    { k with log := [], recorder := [], recDone := 0, recLaunches := [], recInputs := [], recDigest := b.getLsbD 0 }
  (List.finRange 8).foldl (fun s d => s.modSync d fun y => { y with seqs := y.seqs.filter fun x => x.1 != a }) s

/-- A host write of PCTL: a reserved POLICY is not taken, nor POOL while a prompter holds a slot. -/
def writePctl (s : State) (a : BitVec 16) (v : Word) : State :=
  match s.ctx? a with
  | none => s
  | some k =>
    let pool := if k.slots.isEmpty then v.extractLsb' 16 6 else k.pctl.extractLsb' 16 6
    let policy := if v.extractLsb' 22 2 = 3 then k.pctl.extractLsb' 22 2 else v.extractLsb' 22 2
    let new : BitVec 26 := v.extractLsb' 25 1 ++ v.extractLsb' 24 1 ++ policy ++ pool ++ v.extractLsb' 0 16
    let s := s.modCtx a fun k => { k with pctl := new }
    let s := if new.getLsbD 24 && !k.recording then startRecording s a else s
    handAll a 64 s

/-- PCTL_WRITE. -/
def execPctlWrite (a : BitVec 16) (v : Word) (s : State) : Host.Outcome State Fault Refusal := .next (writePctl s a v)

/-! ### Writes of the page (R359, R360, R367, R380) -/

/-- What a store to CANCEL names; reserved levels and slots name nothing. -/
def cancelOf (v : Word) : Option Cancel :=
  let id : BitVec 32 := v.extractLsb' 24 32
  match (v.extractLsb' 0 3).toNat with
  | 0 => some (.unit id (v.extractLsb' 8 16))
  | 1 => some (.launch id)
  | 2 => if h : id.toNat < 64 then some (.graph ⟨id.toNat, h⟩) else none
  | 3 => some (.phase (id.extractLsb' 0 16))
  | 4 => some .job
  | _ => none

/-- A store to CANCEL starts a cancel: BUSY is 1 until it is performed (R375). -/
def writeCancel (s : State) (k : Context) (v : Word) : State :=
  match cancelOf v with
  | some c => s.modCtx k.asid fun k => { k with cancels := k.cancels ++ [c] }
  | none => s

/-! ### Mailboxes of the firmware cores (R358) -/

/-- Core i sends core j a message: a full mailbox of 16 entries holds its sender, who sends nothing yet. -/
def mailSend (s : State) (i j : Fin 8) (m : BitVec 512) : Option State :=
  let box := (s.hub.mail.get i).get j
  if box.length < 16 then some (s.modHub fun h => { h with mail := h.mail.set i ((h.mail.get i).set j (box ++ [m])) }) else none

/-- Core j takes the oldest message of core i. -/
def mailTake (s : State) (i j : Fin 8) : Option (BitVec 512 × State) :=
  match (s.hub.mail.get i).get j with
  | [] => none
  | m :: rest => some (m, s.modHub fun h => { h with mail := h.mail.set i ((h.mail.get i).set j rest) })

/-- A write of a graph slot's register. -/
def writeGraphReg (s : State) (k : Context) (g : Fin 64) (off : Nat) (v : Word) (host : Bool) : State :=
  if foreignGraph (s.graph g) k then s
  else
    match off with
    | 0x00 => if host then writeGaddr s k.asid g v else s
    | 0x08 => if host then s.modGraph g fun x => { x with gahi := v.extractLsb' 0 16 } else s
    | 0x10 => performCue s k.asid g
    | _ => s

/-- An aligned 8-byte store to the front-end window, by a unit or by the host. -/
def windowWrite (s : State) (slot off : Nat) (v : Word) (host : Bool) : State :=
  match slotCtx s slot with
  | none => s
  | some k =>
    if off = 0x008 then writeCancel s k v
    else if off = 0x018 then (if host then s.modCtx k.asid fun k => { k with pentry := v &&& ~~~0xF#64 } else s)
    else if off = 0x020 then (if host then writePctl s k.asid v else s)
    else if off = 0x040 then s.modCtx k.asid fun k => { k with lqsel := v.extractLsb' 0 32 }
    else if 0x100 ≤ off ∧ off < 0x1C0 then
      let r := (off - 0x100) / 8
      let i := if r < 3 then r else if r < 8 then 19 else r - 5
      if host && off % 8 == 0 then modBudget s k.asid i fun b => { b with limit := v.extractLsb' 0 32 } else s
    else if h : 0x1000 ≤ off ∧ off < 0x2000 then
      writeGraphReg s k ⟨(off - 0x1000) / 64, by omega⟩ ((off - 0x1000) % 64) v host
    else s

/-! ### Completion targets (R374) -/

/-- A store or add target is performed where its page lies; one that faults is skipped with ERR 0x07. -/
def storeTarget (s : State) (li : Nat) (l : Launch) (t : Target) (add : Bool) : State :=
  match feTranslate s l.asid t.va (if add then .atomic else .write) with
  | none => noteTarget s l 0x07
  | some (s', pa, e, _) =>
    if t.va.toNat % 8 != 0 then noteTarget s l 0x07
    else
      match routeOf pa e with
      | .sync => targetAtEngine s' l (targetReq s' li l t pa e add)
      | .window => if add then noteTarget s l 0x07 else windowWrite s' (windowSlot pa) (windowReg pa) t.value false
      | .outside => if add then noteTarget s l 0x07 else postOutside s' (launchUid s' li) pa (leBytes t.value.toNat 8) t.va 0 0
      | .cached => if add then noteTarget s l 0x07 else deviceWrite s' pa (leBytes t.value.toNat 8) e.key

/-- A completion target. -/
def performTarget (s : State) (li : Nat) (l : Launch) (t : Target) : State :=
  match t.kind.toNat with
  | 1 => storeTarget s li l t false
  | 2 => storeTarget s li l t true
  | 3 => targetCue s l t.value
  | _ => s

/-- Whether a target's turn at its engine has come (R287, R288). -/
def targetTurn (s : State) (li : Nat) (l : Launch) (t : Target) : ReplayTurn :=
  if t.kind.toNat != 1 && t.kind.toNat != 2 then .go
  else
    match feTranslate s l.asid t.va (if t.kind = 2 then .atomic else .write), s.ctx? l.asid with
    | some (s, pa, e, _), some k =>
      if routeOf pa e = .sync && t.va.toNat % 8 == 0 then let q := targetReq s li l t pa e (t.kind == 2)
                                                          engineTurn s k q.die q
      else .go
    | _, _ => .go

/-- A target performed where its turn has come; `none` where it has still to come. -/
def takeTarget (s : State) (li : Nat) (l : Launch) (t : Target) : Option State :=
  match targetTurn s li l t with
  | .go => some (performTarget s li l t)
  | _ => none

/-- What a target whose turn has not come does: one that a replay does not have stops the replay (R288). -/
def targetHeld (s : State) (li : Nat) (l : Launch) (t : Target) : State :=
  if targetTurn s li l t = .stray then stopStray s l.asid else s

/-- The cores on which a launch's units have run. -/
def launchCores (s : State) (li : Nat) : List ClusterNo :=
  ((s.units.filter fun u => u.ident.launch == some li).map fun u => u.ident.cluster).dedup

/-- The release of a completed launch: its cores flushed. -/
def launchRelease (s : State) (li : Nat) : State :=
  (launchCores s li).foldl (fun s c => flushDie s c) s

/-- Every write of a launch's units is performed, and every write they sent outside is acknowledged. -/
def launchReleased (s : State) (li : Nat) : Bool :=
  let mine (u : Uid) : Bool := match s.unit? u with | some x => x.ident.launch == some li | none => false
  (launchCores s li).all (fun c => canRelease s c && (pendingLines s (dieOf c)).isEmpty)
    && !(s.dies.toList.any fun d => d.sync.queue.any fun q => mine q.uid)
    && !s.hub.outWrites.any fun w => mine w.uid

/-- LAUNCH_RELEASE_DONE (R374): a launch whose counter is 0 releases at system scope and performs TGT0. -/
def execLaunchReleaseDone (li : Nat) (s : State) : Host.Outcome State Fault Refusal :=
  .next <| match s.launch? li with
  | none => s
  | some l =>
    if l.finish != 1 || l.remain != 0 then s
    else
      let s := launchRelease s li
      if !launchReleased s li then s
      else match takeTarget s li l l.record.tgt0 with
        | some s => s.modLaunch li fun l => { l with finish := 2 }
        | none => targetHeld s li l l.record.tgt0

/-- COMPLETION_TARGET (R374): once TGT0 is performed at its destination TGT1 is, and the launch is done. -/
def execCompletionTarget (li : Nat) (s : State) : Host.Outcome State Fault Refusal :=
  .next <| match s.launch? li with
  | none => s
  | some l =>
    if l.finish != 2 || s.hub.outWrites.any (fun w => w.uid == launchUid s li) then s
    else
      match takeTarget s li l l.record.tgt1 with
      | none => targetHeld s li l l.record.tgt1
      | some s =>
        let s := s.modLaunch li fun l => { l with finish := 3, done := true }
        match l.graph with
        | some (g, n) => if h : g < 64 then finishNode s ⟨g, h⟩ n else s
        | none => s

/-! ### What the front end does in every step -/

/-- Transforms of a running graph that have completed or faulted (R373). -/
def pollTransforms (s : State) (g : Fin 64) : State :=
  (numbered (s.graph g).nodes).foldl (fun s x =>
    let (n, y) := x
    if y.kind != 2 || !y.fired || y.done then s
    else
      let bad := s.clusters.toList.findSome? fun k => k.eng.toList.findSome? fun e => e.queue.findSome? fun c =>
        if c.transform == some (g.val, n) then c.fault else none
      match bad with
      | some f => faultTransform s g n f.code
      | none => if transformBusy s g.val n then s else finishNode s g n) s

/-- A running graph goes on; an idle one with a cue that waits starts its next pass (R369, R372). -/
def pollGraph (s : State) (g : Fin 64) : State :=
  let x := s.graph g
  if x.state = 2 then pollTransforms (runTodo g 64 s) g
  else if x.state = 1 then
    match x.pends with
    | c :: rest => startPass (s.modGraph g fun x => { x with pends := rest }) g c
    | [] => s
  else s

/-- The default sheet returns to a die when the launch of its sheet has completed there (R365). -/
def pollSheets (s : State) : State :=
  (List.finRange 8).foldl (fun s d =>
    match (s.die d).sheetLaunch with
    | none => s
    | some li =>
      let waits := match s.launch? li with | some l => l.pendingWings.any fun c => dieOf c == d | none => false
      if sheetLive s d || waits then s else s.modDie d fun y => { y with cueSheet := none, sheetLaunch := none }) s

/-- The front end's own work: graphs, deadlines that found the table full (R386), units without a place (R376), cue
sheets. -/
def frontTick (s : State) : State :=
  let s := (List.finRange 64).foldl pollGraph s
  let s := (List.range s.hub.launches.length).foldl (fun s i =>
    match s.launch? i with
    | some l => if l.deadline.isSome && !l.registered && !l.pendingWings.isEmpty then registerDeadline s i else s
    | none => s) s
  pollSheets (admitUnplaced s)

end Sys2Proof.Machine
end

