-- ==== Sys2Proof/Machine/KSys.lean ====
section
/-! DEFINITION.
The K.SYS operations that are neither ring, bank, staging nor prompter forms: CSRs (R77), the random-bit seeds (R164),
REPMARK (R357), L1FLUSH and L1INV (R116), TLBI (R331), VALSET (R399) and CURTDONE (R401). -/

namespace Sys2Proof.Machine

/-! ### CSRs (R77) -/

/-- A CSR instruction: `new` is the value it would leave, none for CSRR. -/
def csrSlot (d : BitVec 6) (srcs : List Dest) (c : BitVec 10) (new : UnitSt → Word → Option Word) (s : State) :
    Host.Outcome State Fault Refusal :=
  runSlot s
    (fun s u => firstFail [noLend s u,
      match readCsr s u c with
      | none => illegalIf u true
      | some old => match new u old with
        | some v => illegalIf u (csrWriteIllegal c v)
        | none => .done,
      stallCheck u (srcs ++ [.csr c]) ([(.scalar d, 1)] ++ if (new u 0).isSome then [(.csr c, 1)] else [])])
    (fun s u =>
      let old := (readCsr s u c).getD 0
      let u := u.push (mkEntry s u (.scalar d) (old.setWidth 512) 1 0)
      let u := match new u old with
        | some v => u.push (mkEntry s u (.csr c) (v.setWidth 512) 1 0)
        | none => u
      s.setUnit s.issue.me u)

/-- CSRR (R77). -/
def execCsrr (d : BitVec 6) (c : BitVec 10) (s : State) : Host.Outcome State Fault Refusal :=
  csrSlot d [] c (fun _ _ => none) s

/-- CSRW (R77). -/
def execCsrw (d a : BitVec 6) (c : BitVec 10) (s : State) : Host.Outcome State Fault Refusal :=
  csrSlot d [.scalar a] c (fun u _ => some (u.reg a)) s

/-- CSRS (R77). -/
def execCsrs (d a : BitVec 6) (c : BitVec 10) (s : State) : Host.Outcome State Fault Refusal :=
  csrSlot d [.scalar a] c (fun u old => some (old ||| u.reg a)) s

/-- CSRC (R77). -/
def execCsrc (d a : BitVec 6) (c : BitVec 10) (s : State) : Host.Outcome State Fault Refusal :=
  csrSlot d [.scalar a] c (fun u old => some (old &&& ~~~u.reg a)) s

/-- RBSEED (R164): both halves of the generator's state, latency 1. -/
def execRbseed (h l : BitVec 6) (s : State) : Host.Outcome State Fault Refusal :=
  runSlot s
    (fun s u => firstFail [noLend s u, stallCheck u [.scalar h, .scalar l] [(.csr 0x18, 1), (.csr 0x19, 1)]])
    (fun s u =>
      let low := mkEntry s u (.csr 0x18) ((u.reg l).setWidth 512) 1 0
      let high := mkEntry s u (.csr 0x19) ((u.reg h).setWidth 512) 1 0
      s.setUnit s.issue.me ((u.push low).push high))

/-- RB_STEP (R162): the generator steps ahead to fill its queue, up to sixteen words. -/
def execRbStep (uid : Uid) (s : State) : Host.Outcome State Fault Refusal :=
  .next (s.modUnit uid fun u =>
    if u.live then u.modCsr fun c => { c with rbqueue := if c.rbqueue < 16 then c.rbqueue + 1 else c.rbqueue } else u)

/-! ### REPMARK (R357) and the recorder's stream (R355, R356) -/

/-- The recorder's ring of a context's recording area. -/
def recorderRing : Nat := 8

/-- Entries of the recorder's stream go to its ring while there is room; the bits of an entry stand in no rule, so they
are open. -/
def drainRecorder (a : BitVec 16) : Nat → State → State
  | 0, s => s
  | n + 1, s =>
    match s.ctx? a with
    | none => s
    | some k =>
      if k.recorder.length ≤ k.recDone || (k.recAreas[recorderRing]?).isNone || !ringRoom s k recorderRing then s
      else
        let (w0, s) := s.freeWord
        let (w1, s) := s.freeWord
        let (w2, s) := s.freeWord
        let (w3, s) := s.freeWord
        let s := ringAppend s k recorderRing (w3 ++ w2 ++ w1 ++ w0)
        drainRecorder a n (s.modCtx a fun k => { k with recDone := k.recDone + 1 })

/-- Every recording context's entries. -/
def drainRecorders (s : State) : State :=
  s.hub.contexts.foldl (fun s k => if k.recording then drainRecorder k.asid (k.recorder.length - k.recDone) s else s) s

/-- A replay stops (R288, R356), once: the firmware is notified, and receives the logged entry and the actual one (R357). -/
def stopReplay (s : State) (a : BitVec 16) (want : Option RecEntry) (got : RecEntry) : State :=
  if (s.ctx? a).any fun k => k.replayStopped then s
  else
    (s.modCtx a fun k => { k with replayStopped := true }).setMod
      { s.mod with errEvents := s.mod.errEvents ++ [(0x00, a.toNat)], replayReports := s.mod.replayReports ++ [(want, got)] }

/-- A logged entry of a replay for a unit at its bundle count (R356). -/
def logged (s : State) (u : UnitSt) (kind : RecKind) : Option RecEntry :=
  (s.ctx? u.ident.asid).bind fun k => k.replayEvents.find? fun e =>
    e.kind == kind && e.launch == serialOf s u && e.index == u.ident.index && e.bundles == u.run.bundles

/-- A replay has no objection to a mark: none runs, or the log has this mark at the unit's bundle count (R357). -/
def markAgrees (s : State) (u : UnitSt) (t : BitVec 10) (v : Word) : Bool :=
  match s.ctx? u.ident.asid with
  | some k => !k.replay || (!k.replayStopped && match logged s u .repmark with
    | some e => e.tag == t.toNat && e.value == v
    | none => false)
  | none => true

/-- REPMARK (R357): one that a replay's log does not have stops the replay, and holds as an engine holds such an access
(R288). -/
def execRepmark (a : BitVec 6) (t : BitVec 10) (s : State) : Host.Outcome State Fault Refusal :=
  let recs (s : State) (u : UnitSt) : Bool := match s.ctx? u.ident.asid with | some k => k.recording | none => false
  let cost : List (Nat × Nat) := [(bCrossbar, 1)]
  runSlotW s
    (fun s u => firstFail [noLend s u, stallCheck u [.scalar a] [],
      match s.ctx? u.ident.asid with
      | some k => if k.recording && !ringRoom s k recorderRing then .hold .recorder else .done
      | none => .done,
      if markAgrees s u t (u.reg a) then .done else .hold .recorder,
      if recs s u && !costsOpen s u.ident.asid (slotKey s) cost then .hold .budget else .done])
    (fun s u =>
      if !markAgrees s u t (u.reg a) then stopReplay s u.ident.asid (logged s u .repmark) (recEntry s u .repmark t.toNat (u.reg a))
      else if recs s u && !((s.ctx? u.ident.asid).any fun k => !ringRoom s k recorderRing) then
        costsRefuse s u.ident.asid (slotKey s) cost
      else s)
    (fun s u =>
      if recs s u then recordEvent (costsTake s u.ident.asid (slotKey s) cost) s.issue.me .repmark t.toNat (u.reg a) else s)

/-! ### L1FLUSH and L1INV (R116) -/

/-- The holds of an operation on the cluster cache: one runs at a time. -/
def l1Checks (s : State) (u : UnitSt) : SlotResult :=
  firstFail [noLend s u, if (s.cluster u.ident.cluster).l1op.isSome then .hold .l1op else .done]

/-- The operation starts: its flush, behind the releases of the core that are under way, the lines whose device step it awaits,
and what it invalidates when it completes. -/
def startL1 (s : State) (u : UnitSt) (c : BitVec 2) (inval : Bool) : State :=
  let cl := u.ident.cluster
  let first := canRelease s cl
  let s := if c != 0 && first then flushDie s cl else s
  let lines := if first then scopeLines s cl c else []
  s.modCluster cl fun k =>
    { k with l1op := some { lines := lines, inval := inval && c != 0, invalRo := inval, scope := c, flushed := c == 0 || first,
                            before := s.nextReq } }

/-- L1FLUSH. -/
def execL1flush (c : BitVec 2) (s : State) : Host.Outcome State Fault Refusal :=
  runSlot s (fun s u => l1Checks s u) (fun s u => if c = 0 then s else startL1 s u c false)

/-- L1INV. -/
def execL1inv (c : BitVec 2) (s : State) : Host.Outcome State Fault Refusal :=
  runSlot s (fun s u => l1Checks s u) (fun s u => startL1 s u c true)

/-- The flush of an operation that began behind releases of its core. -/
def flushL1 (s : State) (cl : ClusterNo) (o : L1Op) : State :=
  let s := flushDie s cl
  let lines := scopeLines s cl o.scope
  s.modCluster cl fun k => { k with l1op := some { o with flushed := true, lines := lines } }

/-- L1_OP_COMPLETE: the operation of a core completes once its flush is done and every write it awaits is at its device step. -/
def execL1OpComplete (cl : ClusterNo) (s : State) : Host.Outcome State Fault Refusal :=
  .next <| match (s.cluster cl).l1op with
  | none => s
  | some o =>
    if !o.flushed then (if (s.cluster cl).rels.any fun r => decide (r.id < o.before) then s else flushL1 s cl o)
    else if o.lines.any fun l => awaitsDevice s (dieOf cl) l then s
    else s.modCluster cl fun k =>
      { k with l1op := none, cache := if o.inval then k.cache.filter fun l => l.dirty != 0 else k.cache,
               roCache := if o.invalRo then [] else k.roCache }

/-! ### TLBI (R330, R331) -/

/-- A translation of a range of virtual pages. -/
def inRange (r : Option (Nat × Nat)) (vpn level : Nat) : Bool :=
  match r with
  | none => true
  | some (lo, n) => decide (vpn < lo + n) && decide (lo < vpn + 2 ^ (11 * level))

/-- The dies that the translation directory names for what a shoot-down matches. -/
def shootMask (s : State) (a : BitVec 16) (r : Option (Nat × Nat)) : List DieNo :=
  (List.finRange 8).filter fun d => !(s.die d).lost && s.hub.walk.tdir.any fun t =>
    t.asid == a && inRange r t.vpn t.level && t.mask.getLsbD d.val

/-- A shoot-down starts: pointer entries of the context leave the page-walk caches at once, and every die of the mask
is sent a notice (R331, R333). -/
def startShoot (s : State) (a : BitVec 16) (r : Option (Nat × Nat)) (migrate : Option Nat) (waiter : Option Uid) : State :=
  let dies := shootMask s a r
  let (id, s) := s.newReq
  s.modWalk fun w =>
    { w with pwc := w.pwc.filter (fun e => e.1 != a),
             shoots := w.shoots ++ [{ id := id, asid := a, range := r, mask := dies, dies := dies, migrate := migrate, version := none,
                                      frames := [], waiter := waiter }] }

/-- A physical address lies in one of the frames. -/
def inFrames (l : List (Nat × Nat)) (pa : Nat) : Bool := l.any fun f => decide (f.1 ≤ pa) && decide (pa < f.1 + f.2)

/-- An inbound write to one of the frames has still to be performed. -/
def inboundBusy (s : State) (frames : List (Nat × Nat)) : Bool :=
  s.hub.inWrites.any fun w => w.routes.any fun r => !r.performed && r.pieces.any fun p => inFrames frames p.pa

/-- The physical address that a release of a core lets go on to, where that is no rest of dirty bytes. -/
def RelPayload.target? (p : RelPayload) : Option Nat :=
  match p with
  | .sync q => some q.pa
  | .window slot off _ => some (0x8000000000000 + 0x4000 * slot + off)
  | .outside w => some w.addr
  | _ => Option.none

/-- An access translated under a dropped entry has still to be performed at device scope (R331). -/
def shootBusy (s : State) (x : Shoot) : Bool :=
  x.mask.any (fun d => (pendingLines s d).any fun l => inFrames x.frames (128 * l))
    || s.dies.toList.any (fun d => d.sync.queue.any fun q => inFrames x.frames q.pa)
    || (List.finRange 128).any (fun c => x.mask.contains (dieOf c) &&
        (s.cluster c).rels.any fun r => match r.payload.target? with | some pa => inFrames x.frames pa | none => false)
    || s.hub.outWrites.any (fun w => inFrames x.frames w.addr) || inboundBusy s x.frames

/-- The shoot-down of a unit's TLBI. -/
def myShoot (s : State) (uid : Uid) : Option Shoot := s.hub.walk.shoots.find? fun x => x.waiter == some uid

/-- A TLBI: the range of its operands, none for every translation. -/
def tlbiSlot (d : BitVec 6) (srcs : List Dest) (bad : UnitSt → Bool) (range : UnitSt → Option (Nat × Nat)) (s : State) :
    Host.Outcome State Fault Refusal :=
  let asid (u : UnitSt) : BitVec 16 := (u.reg d).extractLsb' 0 16
  runSlotW s
    (fun s u => firstFail [noLend s u, illegalIf u (bad u), privileged u,
      failIf (asid u != u.ident.asid) cPrivilege u.bundleVa, stallCheck u (.scalar d :: srcs) [],
      match myShoot s s.issue.me with
      | some x => if x.dies.isEmpty && !shootBusy s x then .done else .hold .shootdown
      | none => .hold .shootdown])
    (fun s u => if (myShoot s s.issue.me).isSome then s else startShoot s (asid u) (range u) none (some s.issue.me))
    (fun s _ => s.modWalk fun w => { w with shoots := w.shoots.filter fun x => x.waiter != some s.issue.me })

/-- TLBI of every translation of the context. -/
def execTlbiAll (d : BitVec 6) (s : State) : Host.Outcome State Fault Refusal :=
  tlbiSlot d [] (fun _ => false) (fun _ => none) s

/-- TLBI of a range of pages. -/
def execTlbiRange (d a : BitVec 6) (s : State) : Host.Outcome State Fault Refusal :=
  tlbiSlot d [.scalar a] (fun u => (u.reg d).extractLsb' 32 32 == 0)
    (fun u => some (vpnOf ((u.reg d).extractLsb' 16 16 ++ u.reg a), ((u.reg d).extractLsb' 32 32).toNat)) s

/-! ### VALSET (R399) -/

/-- The buffer of the context whose base an address is. -/
def bufAtBase (s : State) (a : BitVec 16) (va : Va) : Option Nat :=
  s.hub.walk.bufs.findIdx? fun b => b.asid == a && va.toNat == (b.hbase + 1) * 2 ^ 14

/-- VALSET's checks of its address, and its posting with the values that `vals` forms. -/
def valsetSlot (b : BitVec 6) (w : BitVec 2) (srcs : List Dest) (chk : State → UnitSt → SlotResult)
    (vals : State → UnitSt → Bool × Bool × BitVec 5 × BitVec 64) (s : State) : Host.Outcome State Fault Refusal :=
  let va (u : UnitSt) : Va := u.windowVa w (u.reg b)
  let cost : List (Nat × Nat) := [(bCrossbar, 1)]
  runSlotW s
    (fun s u => firstFail [noLend s u, stallCheck u (.scalar b :: srcs) [], chk s u,
      pageCheck s u (va u) .write fun _ _ => failIf (bufAtBase s u.ident.asid (va u)).isNone cProtection (va u),
      if costsOpen s u.ident.asid (slotKey s) cost then .done else .hold .budget])
    (fun s u =>
      match translate s u.accessor (va u) .write with
      | .walk => requestWalk s u.ident.cluster u.ident.asid (va u) true
      | _ => costsRefuse s u.ident.asid (slotKey s) cost)
    (fun s u =>
      match bufAtBase s u.ident.asid (va u) with
      | none => s
      | some i =>
        let x := vals s u
        let m : ValsetMsg := { uid := s.issue.me, buffer := i, curtain := u.curt.inentry, nochk := x.1, exact := x.2.1,
                               kach := x.2.2.1, bound := x.2.2.2 }
        (costsTake s u.ident.asid (slotKey s) cost).modWalk fun y => { y with valsets := y.valsets ++ [m] })

/-- VALSET with the values of the array's checkpoint set. -/
def execValsetArr (b : BitVec 6) (w : BitVec 2) (s : State) : Host.Outcome State Fault Refusal :=
  valsetSlot b w [] (fun s u => arrayIf u (u.isPrompter || !launchOwnsArray s u))
    (fun s u =>
      let a := arrayOf s u.ident.cluster
      let kc := a.set.bind CheckSet.kc
      (kc.isNone, (match a.set with | some x => x.mode == 3 | none => false), BitVec.ofNat 5 (kc.getD 0), snapBound a)) s

/-- BOUND as VALSET takes it from a register. -/
def valsetBound (exact : Bool) (v : Word) : Word :=
  let nan := decide (0x7FF0000000000000 < (v.extractLsb' 0 63).toNat)
  if exact then 0
  else if nan || (v.getLsbD 63 && v != 0x8000000000000000) then 0x7FF0000000000000
  else if v = 0x8000000000000000 then 0 else v

/-- VALSET with the values of its operands. -/
def execValset (v b : BitVec 6) (k : BitVec 5) (n e : BitVec 1) (w : BitVec 2) (s : State) :
    Host.Outcome State Fault Refusal :=
  valsetSlot b w [.scalar v] (fun _ _ => .done)
    (fun _ u => (n == 1, e == 1, k, valsetBound (e == 1) (u.reg v))) s

/-- The larger of two bounds, neither NaN nor negative. -/
def boundMax (x y : BitVec 64) : BitVec 64 := if decide (x.toNat < y.toNat) then y else x

/-- The least non-zero of two values of KACH. -/
def kachMin (x y : BitVec 5) : BitVec 5 := if x = 0 then y else if y = 0 then x else if y < x then y else x

/-- VALSET_PERFORM (R400): the n-th posted VALSET merges into the pending fields of its buffer's inactive version. -/
def execValsetPerform (n : Nat) (s : State) : Host.Outcome State Fault Refusal :=
  .next <| match s.hub.walk.valsets[n]? with
  | none => s
  | some m =>
    let merge (b : TvBuf) : TvBuf :=
      if b.vset then
        { b with curtain := b.curtain || m.curtain, nochk := b.nochk || m.nochk, exact := b.exact && m.exact,
                 kach := kachMin b.kach m.kach, bound := boundMax b.bound m.bound }
      else { b with vset := true, curtain := m.curtain, nochk := m.nochk, exact := m.exact, kach := m.kach, bound := m.bound }
    (s.modWalk fun w => { w with valsets := w.valsets.eraseIdx n }).modBuf m.buffer merge

/-! ### CURTDONE (R401) -/

/-- CURTDONE: HALT's waits, then the unit completes with status CURTAIN. -/
def execCurtdone (s : State) : Host.Outcome State Fault Refusal :=
  runSlotW s (fun s u => firstFail [noLend s u, illegalIf u (!u.curt.inentry), haltCheck s u]) haltWait
    (fun s _ => completeUnit s s.issue.me .curtain)

end Sys2Proof.Machine
end

