-- ==== Sys2Proof/Machine/Prompter.lean ====
section
/-! DEFINITION.
The prompter operations (R343 to R352), what they read and write of a frozen unit (R346, R347), their record and replay
(R355, R356), and the prompter-fault policy (R340, R342). -/

namespace Sys2Proof.Machine

/-! ### The chain at a bundle (R89, R96, R97) -/

/-- What the issue of the bundle at PC, annulled or not, does before its slots read: levels that a taken transfer has left
end (R98), the chain is resolved (R97), iterations start (R96). -/
def enterBundle (u : UnitSt) : UnitSt :=
  let u := resolveChain (u.modFlow leaveLevels)
  let r := startsAt u.flow u.regs.ps u.flow.pc.addr
  ({ u with flow := r.1 } : UnitSt).modRegs fun g => { g with ps := r.2 }

/-- What the issue does after them: levels whose last boundary this is end, and the chain advances (R89, R96). -/
def leaveBundle (u : UnitSt) (t : Option Xfer) : UnitSt :=
  u.modFlow fun f => advanceChain (loopBoundary f u.run.drainLevel f.pc.addr).2 t

/-- The chain as the loop engine has it (R97). -/
def chainView (u : UnitSt) : Flow := (resolveChain (u.modFlow leaveLevels)).flow

/-- ADVANCE (R346): the chain steps past the bundle at PC, and the entry it makes stands as written (R97). -/
def advanceFrozen (u : UnitSt) : UnitSt :=
  let u := resolveChain (leaveBundle (enterBundle u) none)
  u.modFlow fun f => { f with nnpc := { f.nnpc with src := none } }

/-! ### Pending-write entries as a prompter sees them (R346) -/

/-- An entry that a prompter has cancelled: its place stays until the freeze ends, and it writes nothing. -/
def PEntry.cancelled (e : PEntry) : PEntry :=
  { e with dest := .scalar 0, value := 0, awaited := false, flags := 0, load := none, baraw := false }

/-- The record without the places of cancelled entries. -/
def dropCancelled (u : UnitSt) : UnitSt := { u with pend := u.pend.filter fun e => !e.dest.discarded }

/-- Kind and destination of an entry, as the descriptor codes them. -/
def destCode : Dest → BitVec 3 × BitVec 16
  | .scalar r => (0, r.setWidth 16)
  | .pred i => (1, i.setWidth 16)
  | .tile t d i => (2, (0#5) ++ t ++ d ++ (0#2) ++ i)
  | .csr n => (3, n.setWidth 16)
  | .stage i => (4, i.setWidth 16)

/-- The descriptor word of an entry. -/
def PEntry.descriptor (e : PEntry) : Word :=
  let c := destCode e.dest
  (0#16) ++ c.2 ++ (0#1) ++ e.slot ++ BitVec.ofNat 8 e.m ++ e.flags ++ (0#11) ++ c.1 ++ BitVec.ofBool e.awaited ++ 1#1

/-- The entry at a place of the record, if it is valid. -/
def entryAt (u : UnitSt) (n : Nat) : Option PEntry := (u.pend[n]?).bind fun e => if e.dest.discarded then none else some e

/-- A word of an entry: the descriptor, the issuing bundle, or a doubleword of the value. -/
def entryWord (u : UnitSt) (n w : Nat) : Word :=
  match entryAt u n with
  | none => 0
  | some e => if w = 0 then e.descriptor else if w = 1 then e.bundle else e.value.extractLsb' (64 * (w - 2)) 64

/-- Value words that an entry has: one, or eight for a tile vector. -/
def PEntry.valueWords (e : PEntry) : Nat := match e.dest with | .tile .. => 8 | _ => 1

/-- Cancelling an entry (R346). -/
def cancelEntry (u : UnitSt) (n : Nat) : UnitSt :=
  match entryAt u n with
  | none => u
  | some _ => { u with pend := u.pend.modify n PEntry.cancelled }

/-- A write of a word of an entry (R346). -/
def writeEntryWord (u : UnitSt) (n w : Nat) (v : Word) : UnitSt :=
  match entryAt u n with
  | none => u
  | some e =>
    if w = 0 then (if v.getLsbD 0 then u else cancelEntry u n)
    else if w < 2 || e.awaited || e.valueWords < w - 1 then u
    else
      let at_ := 64 * (w - 2)
      let mask : BitVec 512 := (0xFFFFFFFFFFFFFFFF#512) <<< at_
      { u with pend := u.pend.modify n fun e => { e with value := (e.value &&& ~~~mask) ||| ((v.setWidth 512) <<< at_) } }

/-! ### Elements of a frozen unit (R346) -/

/-- The source word of a freeze record. -/
def sourceWord (r : FaultRec) : Word :=
  let x : BitVec 7 := match r.source with
    | .core => 0
    | .copy e t => t ++ e ++ 1#2
    | .array t => t ++ (0#1) ++ 2#2
    | .sync => 3
  (0#54) ++ r.slot ++ (0#1) ++ x

/-- A loop level's flags word. -/
def loopWord (x : LoopSt) : Word :=
  (0#48) ++ BitVec.ofBool x.cleared ++ BitVec.ofBool x.active ++ x.initps ++ x.drain ++ x.e

/-- The copy command of a unit under a token of an engine. -/
def tokenCmd (s : State) (uid : Uid) (u : UnitSt) (e : BitVec 1) (t : BitVec 4) : Option CopyCmd :=
  (s.engine u.ident.cluster e).queue.find? fun c => c.uid == some uid && c.tok == t

/-- The word of class 0x09. -/
def tokenWord (s : State) (uid : Uid) (u : UnitSt) (e : BitVec 1) (t : BitVec 4) : Word :=
  let busy := (u.eng.tok.get e.toFin).getLsbD t.toNat
  match tokenCmd s uid u e t with
  | some c =>
    let code : BitVec 8 := match c.fault with | some f => f.code | none => 0
    (0#43) ++ c.op ++ code ++ (0#6) ++ BitVec.ofBool c.fault.isSome ++ BitVec.ofBool busy
  | none => (0#63) ++ BitVec.ofBool busy

/-- Word n of the random-bit queue (R163). -/
def queueWord (u : UnitSt) (n : Nat) : Word :=
  if u.csr.rbqueue ≤ n then 0
  else ((List.range n).foldl (fun (x : Word × Word × Word) _ => rbStep x.2.1 x.2.2) (rbStep u.csr.rbseed0 u.csr.rbseed1)).1

/-- Whether a selector names an element: its class and its index (R346). -/
def selectorOk (cls : BitVec 8) (i : Nat) : Bool :=
  match cls.toNat with
  | 0x00 => decide (i ≤ 6)
  | 0x01 => decide (i ≤ 5)
  | 0x02 => decide (i < 64)
  | 0x03 => i == 0
  | 0x04 => decide (i < 1024) && Instr.csrKnown (BitVec.ofNat 10 i)
  | 0x05 => decide (i < 2048)
  | 0x06 => decide (i ≤ 7)
  | 0x07 => decide (i % 64 < 48) && decide (i / 64 ≤ 9)
  | 0x08 => decide (i ≤ 3)
  | 0x09 => decide (i < 32)
  | 0x0A => decide (i < 32)
  | 0x0B => decide (i < 16)
  | _ => false

/-- A selector word that names no element. -/
def selectorBad (v : Word) : Bool := v.extractLsb' 24 40 != 0 || !selectorOk (v.extractLsb' 0 8) (v.extractLsb' 8 16).toNat

/-- What FRD reads (R346, R347). -/
def readElement (s : State) (uid : Uid) (u : UnitSt) (cap : Word) (cls : BitVec 8) (i : Nat) : Word :=
  let f := chainView u
  let r := u.run.record
  match cls.toNat with
  | 0x00 =>
    match i with
    | 0 => summary u
    | 1 => match r with | some r => r.addr.extractLsb' 0 64 | none => 0
    | 2 => match r with | some r => (r.addr.extractLsb' 64 16).setWidth 64 | none => 0
    | 3 => match r with | some r => sourceWord r | none => 0
    | 4 => match r with | some r => if r.after then r.bundle else u.flow.pc.addr | none => u.flow.pc.addr
    | 5 => BitVec.ofNat 64 u.run.bundles
    | _ => cap
  | 0x01 =>
    match i with
    | 0 => f.pc.addr
    | 1 => f.npc.addr
    | 2 => f.nnpc.addr
    | 3 => (0#62) ++ BitVec.ofBool f.nnpc.ann ++ BitVec.ofBool f.npc.ann
    | 4 => f.pchi.setWidth 64
    | _ => 0
  | 0x02 => u.reg (BitVec.ofNat 6 i)
  | 0x03 => (0#48) ++ u.regs.ps ++ u.predByte
  | 0x04 => (readCsr s u (BitVec.ofNat 10 i)).getD 0
  | 0x05 => (tileElem (u.regs.tiles.get (BitVec.ofNat 3 (i / 256)).toFin) (i / 16 % 16) (i % 16)).setWidth 64
  | 0x06 =>
    match i with
    | 0 => (u.flow.lc.get 0).setWidth 64
    | 1 => (u.flow.lc.get 1).setWidth 64
    | 2 => (u.flow.loops.get 0).start
    | 3 => (u.flow.loops.get 0).stop
    | 4 => loopWord (u.flow.loops.get 0)
    | 5 => (u.flow.loops.get 1).start
    | 6 => (u.flow.loops.get 1).stop
    | _ => loopWord (u.flow.loops.get 1)
  | 0x07 => entryWord u (i % 64) (i / 64)
  | 0x08 => if i % 2 = 0 then u.umem.wcha.get (BitVec.ofNat 1 (i / 2)).toFin else u.umem.wchc.get (BitVec.ofNat 1 (i / 2)).toFin
  | 0x09 => tokenWord s uid u (BitVec.ofNat 1 i) (BitVec.ofNat 4 (i / 2))
  | 0x0A => u.cgReg (BitVec.ofNat 1 (i / 16)) (BitVec.ofNat 4 i).toFin
  | _ => queueWord u i

/-- A written entry of the chain. -/
def writtenEntry (e : ChainEntry) (v : Word) : ChainEntry := ⟨v &&& ~~~0xF#64, e.ann, none, false⟩

/-- A loop level from its flags word. -/
def LoopSt.ofWord (x : LoopSt) (v : Word) : LoopSt :=
  { x with e := v.extractLsb' 0 3, drain := v.extractLsb' 3 3, initps := v.extractLsb' 6 8, active := v.getLsbD 14, cleared := v.getLsbD 15 }

/-- The bundles of a zero-trip body (R95) that still follow the last of the chain, once a prompter has written that. -/
def skipFrom (f : Flow) (a : BitVec 64) : Nat := f.skip - (a - f.nnpc.addr).toNat / 16

/-- A write of class 0x01. -/
def writeChain (u : UnitSt) (i : Nat) (v : Word) : UnitSt :=
  match i with
  | 0 => u.modFlow fun f => { f with pc := writtenEntry f.pc v }
  | 1 => u.modFlow fun f => { f with npc := writtenEntry f.npc v }
  | 2 => u.modFlow fun f => { f with nnpc := writtenEntry f.nnpc v, skip := skipFrom f (v &&& ~~~0xF#64) }
  | 3 => u.modFlow fun f => { f with npc := { f.npc with ann := v.getLsbD 0 }, nnpc := { f.nnpc with ann := v.getLsbD 1 } }
  | 5 => advanceFrozen u
  | _ => u

/-- A write of class 0x06. -/
def writeLoops (u : UnitSt) (i : Nat) (v : Word) : UnitSt :=
  let x (l : Fin 2) : LoopSt := u.flow.loops.get l
  match i with
  | 0 => u.modFlow fun f => { f with lc := f.lc.set 0 (v.extractLsb' 0 32) }
  | 1 => u.modFlow fun f => { f with lc := f.lc.set 1 (v.extractLsb' 0 32) }
  | 2 => u.modFlow fun f => f.setLoop 0 { x 0 with start := v }
  | 3 => u.modFlow fun f => f.setLoop 0 { x 0 with stop := v }
  | 4 => u.modFlow fun f => f.setLoop 0 ((x 0).ofWord v)
  | 5 => u.modFlow fun f => f.setLoop 1 { x 1 with start := v }
  | 6 => u.modFlow fun f => f.setLoop 1 { x 1 with stop := v }
  | _ => u.modFlow fun f => f.setLoop 1 ((x 1).ofWord v)

/-- A write of class 0x08; the reserved bits of WCHnC are ignored (R8, R130). -/
def writeWatch (u : UnitSt) (i : Nat) (v : Word) : UnitSt :=
  let n := (BitVec.ofNat 1 (i / 2)).toFin
  if i % 2 = 0 then u.modMem fun m => { m with wcha := m.wcha.set n v }
  else u.modMem fun m => { m with wchc := m.wchc.set n (v &&& 0x0000FFFFFFFFFFFF) }

/-- A prompter abandons a copy command (R225); a PUBL that has counted its producer is complete. -/
def abandonToken (s : State) (uid : Uid) (u : UnitSt) (e : BitVec 1) (t : BitVec 4) : State :=
  match tokenCmd s uid u e t with
  | some c => if c.publDone then s else abandonCmd s u.ident.cluster e c
  | none => s

/-- What FWR writes (R346, R347); read-only elements ignore it (R7). -/
def writeElement (s : State) (uid : Uid) (u : UnitSt) (cls : BitVec 8) (i : Nat) (v : Word) : State :=
  match cls.toNat with
  | 0x01 => s.setUnit uid (writeChain u i v)
  | 0x02 => if i = 0 then s else s.setUnit uid (u.modRegs fun g => { g with s := g.s.set (BitVec.ofNat 6 i).toFin v })
  | 0x03 => s.setUnit uid (u.modRegs fun g => { g with p := v.extractLsb' 0 8 ||| 1, ps := v.extractLsb' 8 8 })
  | 0x04 => s.setUnit uid (u.modCsr fun c => applyCsr c (BitVec.ofNat 10 i) v)
  | 0x05 =>
    let t := (BitVec.ofNat 3 (i / 256)).toFin
    s.setUnit uid (u.modRegs fun g =>
      { g with tiles := g.tiles.set t (setTileElem (g.tiles.get t) (i / 16 % 16) (i % 16) (v.extractLsb' 0 32)) })
  | 0x06 => s.setUnit uid (writeLoops u i v)
  | 0x07 => s.setUnit uid (writeEntryWord u (i % 64) (i / 64) v)
  | 0x08 => s.setUnit uid (writeWatch u i v)
  | 0x09 => if v = 2 then abandonToken s uid u (BitVec.ofNat 1 i) (BitVec.ofNat 4 (i / 2)) else s
  | 0x0A =>
    let e := (BitVec.ofNat 1 (i / 16)).toFin
    let r := (BitVec.ofNat 4 i).toFin
    s.setUnit uid (u.modEng fun g => { g with cg := g.cg.set e ((g.cg.get e).set r v) })
  | _ => s

/-! ### The record of prompter operations (R355, R356) -/

/-- The next logged prompter operation on a unit. -/
def isOpOn (s : State) (u : UnitSt) (e : RecEntry) : Bool :=
  e.kind == .prompterOp && e.launch == serialOf s u && e.index == u.ident.index

/-- A replay has no objection to a prompter operation on a unit: none runs, or the operation is the one that is logged next. -/
def opAgrees (s : State) (target : Uid) (op : Nat) (v : Word) : Bool :=
  match (s.unit? target).bind fun u => (s.ctx? u.ident.asid).map fun k => (u, k) with
  | some (u, k) => !k.replay || (!k.replayStopped && match k.replayEvents.find? (isOpOn s u) with
    | some e => e.tag == op && e.value == v
    | none => false)
  | none => true

/-- An operation that a replay does not allow holds at issue, as an engine holds such an access (R288, R356). -/
def opHold (s : State) (target : Option Uid) (op : Nat) (v : Word) : SlotResult :=
  match target with
  | some i => if opAgrees s i op v then .done else .hold .recorder
  | none => .done

/-- Such an operation stops the replay. -/
def opStray (s : State) (target : Option Uid) (op : Nat) (v : Word) : State :=
  match target.bind fun i => (s.unit? i).map fun u => (i, u) with
  | some (i, u) =>
    if opAgrees s i op v then s
    else stopReplay s u.ident.asid ((s.ctx? u.ident.asid).bind fun k => k.replayEvents.find? (isOpOn s u)) (recEntry s u .prompterOp op v)
  | none => s

/-- A prompter operation on a unit is recorded (R355), and taken from the log of a replay (R356). -/
def noteOp (s : State) (target : Uid) (op : Nat) (v : Word) : State :=
  let s := recordEvent s target .prompterOp op v
  match s.unit? target with
  | none => s
  | some u => s.modCtx u.ident.asid fun k => if k.replay then { k with replayEvents := removeFirst (isOpOn s u) k.replayEvents } else k

/-! ### The slots (R344) -/

/-- A prompter's capability register. -/
def UnitSt.kcReg (p : UnitSt) (k : BitVec 2) : Word := p.eng.kc.get k.toFin

/-- CAPABILITY unless a capability register is current (R343). -/
def capCheck (s : State) (p : UnitSt) (k : BitVec 2) : SlotResult := failIf (capUnit s p (p.kcReg k)).isNone cCapability p.bundleVa

/-- A capability register written. -/
def setKc (s : State) (me : Uid) (k : BitVec 2) (v : Word) : State :=
  s.modUnit me fun p => p.modEng fun e => { e with kc := e.kc.set k.toFin v }

/-- sd of a prompter operation, latency 1. -/
def prompterResult (s : State) (d : BitVec 6) (v : Word) : State :=
  match s.unit? s.issue.me with
  | some p => schedScalar s s.issue.me p d v 1
  | none => s

/-- The checks of an operation on a held unit. -/
def heldChecks (s : State) (p : UnitSt) (k : BitVec 2) (bad : Bool) (reads : List Dest) (writes : List (Dest × Nat)) :
    SlotResult :=
  firstFail [noLend s p, illegalIf p bad, privileged p, capCheck s p k, stallCheck p reads writes]

/-- The unit that a current capability names. -/
def heldUnit (s : State) (p : UnitSt) (k : BitVec 2) : Option (Uid × UnitSt) :=
  (capUnit s p (p.kcReg k)).bind fun i => (s.unit? i).map fun u => (i, u)

/-- The code of a prompter operation in the record: its OP6, and the selector of FRD and FWR. -/
def opCode (op : Nat) (sel : Word) : Nat := op + 256 * (sel.extractLsb' 0 24).toNat

/-- An operation on the unit whose capability is in kc: its checks, then the replay's; what it does to the unit. -/
def onHeld (s : State) (k : BitVec 2) (op : UnitSt → Nat) (v : UnitSt → Word) (chk : State → UnitSt → SlotResult)
    (eff : State → UnitSt → Uid → UnitSt → State) : Host.Outcome State Fault Refusal :=
  runSlotW s
    (fun s p => firstFail [chk s p, opHold s ((heldUnit s p k).map (·.1)) (op p) (v p)])
    (fun s p => opStray s ((heldUnit s p k).map (·.1)) (op p) (v p))
    (fun s p =>
      match heldUnit s p k with
      | none => s
      | some (i, u) => eff (noteOp s i (op p) (v p)) p i u)

/-- FRD (R346): an element of the frozen unit, latency 2. -/
def execFrd (d sel : BitVec 6) (k : BitVec 2) (s : State) : Host.Outcome State Fault Refusal :=
  onHeld s k (fun p => opCode 0x0D (p.reg sel)) (fun _ => 0)
    (fun s p => heldChecks s p k (selectorBad (p.reg sel)) [.scalar sel] [(.scalar d, 2)])
    (fun s p i u =>
      let x := p.reg sel
      schedScalar s s.issue.me p d (readElement s i u (p.kcReg k) (x.extractLsb' 0 8) (x.extractLsb' 8 16).toNat) 2)

/-- A value that FWR may not write: a CSR's (R77). -/
def writeIllegal (sel v : Word) : Bool :=
  sel.extractLsb' 0 8 == 4 && csrWriteIllegal (sel.extractLsb' 8 10) v

/-- A value that a staging register may not take (R206). -/
def writeFaults (sel v : Word) : Bool :=
  sel.extractLsb' 0 8 == 0x0A && v &&& cgReserved (sel.extractLsb' 8 4) != 0

/-- FWR (R346). -/
def execFwr (v sel : BitVec 6) (k : BitVec 2) (s : State) : Host.Outcome State Fault Refusal :=
  onHeld s k (fun p => opCode 0x0E (p.reg sel)) (fun p => p.reg v)
    (fun s p => firstFail [
      heldChecks s p k (selectorBad (p.reg sel) || writeIllegal (p.reg sel) (p.reg v)) [.scalar sel, .scalar v] [],
      failIf (writeFaults (p.reg sel) (p.reg v)) cCopy p.bundleVa])
    (fun s p i u => let x := p.reg sel
      writeElement s i u (x.extractLsb' 0 8) (x.extractLsb' 8 16).toNat (p.reg v))

/-- A frozen unit whose capability a prompter holds. -/
def ifHeld (s : State) (uid : Uid) (f : UnitSt → State) : State :=
  match s.unit? uid with
  | some u => if u.run.status = .frozenHeld then f u else s
  | none => s

/-- FWR_ADVANCE: the chain of a held unit advances. -/
def execFwrAdvance (uid : Uid) (s : State) : Host.Outcome State Fault Refusal :=
  .next (ifHeld s uid fun u => s.setUnit uid (advanceFrozen u))

/-- FWR_ABANDON_COMMAND: a command of a held unit is abandoned. -/
def execFwrAbandonCommand (uid : Uid) (e : BitVec 1) (t : BitVec 4) (s : State) : Host.Outcome State Fault Refusal :=
  .next (ifHeld s uid fun u => abandonToken s uid u e t)

/-- FWR_CANCEL_PENDING: a pending write of a held unit is cancelled. -/
def execFwrCancelPending (uid : Uid) (n : Nat) (s : State) : Host.Outcome State Fault Refusal :=
  .next (ifHeld s uid fun u => s.setUnit uid (cancelEntry u n))

/-! ### FNEXT and CAPDROP (R345, R352) -/

/-- The capability in a register is dropped. -/
def dropKc (s : State) (p : UnitSt) (me : Uid) (k : BitVec 2) : State :=
  match capUnit s p (p.kcReg k) with
  | some v => setKc (dropCap s v) me k 0
  | none => setKc s me k 0

/-- The unit that FNEXT would take. -/
def nextTaken (s : State) (p : UnitSt) (k : BitVec 2) : Option Uid :=
  oldestUnit (dropKc s p s.issue.me k) p.ident.asid (untaken p)

/-- FNEXT (R345). -/
def execFnext (d : BitVec 6) (k : BitVec 2) (s : State) : Host.Outcome State Fault Refusal :=
  runSlotW s
    (fun s p => firstFail [noLend s p, privileged p, stallCheck p [] [(.scalar d, 1)], opHold s (nextTaken s p k) 0x12 0])
    (fun s p => opStray s (nextTaken s p k) 0x12 0)
    (fun s p =>
      let me := s.issue.me
      let s := dropKc s p me k
      match oldestUnit s p.ident.asid (untaken p), p.ident.prompt with
      | some i, some pool =>
        let s := noteOp s i 0x12 0
        let s := s.modUnit i fun v => v.modRun fun r => { r with status := .frozenHeld }
        match s.unit? i with
        | some v => prompterResult (setKc s me k (mkCap s i v pool)) d (summaryMore s p v)
        | none => prompterResult s d 0
      | _, _ => prompterResult s d 0)

/-- CAPDROP (R352). -/
def execCapdrop (k : BitVec 2) (s : State) : Host.Outcome State Fault Refusal :=
  onHeld s k (fun _ => 0x1A) (fun _ => 0) (fun s p => heldChecks s p k false [] []) (fun s p _ _ => dropKc s p s.issue.me k)

/-! ### FRESUME, FSTEP and FKILL (R348 to R350) -/

/-- A faulted command at the head of an engine restarts, unless its fault has still to be reported (R225). -/
def restartHead (s : State) (uid : Uid) (u : UnitSt) (e : BitVec 1) : State :=
  let cl := u.ident.cluster
  match headCmd s cl e with
  | some c =>
    let unreported := u.run.due.any fun d => d.source == .copy e c.tok
    if c.uid == some uid && c.fault.isSome && !unreported then restartCmd s cl e else s
  | none => s

/-- The freeze of a unit ends (R348): its faulted commands start again, and weight loads that a fault had ended publish what they had
claimed (R225, R248). -/
def thaw (s : State) (uid : Uid) (u : UnitSt) : State :=
  let watch := u.run.watchFree || match u.run.record with | some r => r.code == cWatch | none => false
  let s := payOwed (restartHead (restartHead s uid u 0) uid u 1) uid u.ident.cluster
  s.modUnit uid fun u => ((dropCancelled u).modMem fun m => { m with haltRel := none }).modRun fun r =>
    { r with status := .parked, record := none, dieLost := false, watchFree := watch, wait := none, endSeg := false, parkPoint := none }

/-- DIE_LOST of a frozen unit, noted during its freeze (R22, R348). -/
def dieLostRec (u : UnitSt) : FaultRec :=
  { code := cDieLost, addr := BitVec.ofNat 80 u.run.lostAt.val, mask := 0, after := true, source := .core, slot := 0, bundle := u.flow.pc.addr }

/-- Which of the three cases of R348 a resumption is. -/
def resumeCase (u : UnitSt) : Nat := if u.run.curtFrozen then 1 else if u.run.dieLost then 2 else 0

/-- FRESUME (R348). -/
def execFresume (d : BitVec 6) (k : BitVec 2) (s : State) : Host.Outcome State Fault Refusal :=
  onHeld s k (fun _ => 0x0F) (fun _ => 0) (fun s p => heldChecks s p k false [] [(.scalar d, 1)])
    (fun s _ i u =>
      let s := setKc s s.issue.me k 0
      match resumeCase u with
      | 1 => prompterResult (killUnit s i) d 1
      | 2 => prompterResult (freeze s i (dieLostRec u)) d 2
      | _ => prompterResult (thaw s i u) d 0)

/-- A unit's fresh view of every buffer, taken when its segment begins (R127). -/
def takeViews (s : State) (uid : Uid) : State :=
  let views := (List.range s.hub.walk.bufs.length).map fun b => (b, ((s.buf? b).map (·.sel)).getD false)
  s.modUnit uid fun u => u.modMem fun m => { m with views := views }

/-- FSTEP (R349): the prompter's segment passes to the unit for one bundle. -/
def execFstep (d : BitVec 6) (k : BitVec 2) (s : State) : Host.Outcome State Fault Refusal :=
  onHeld s k (fun _ => 0x13) (fun _ => 0) (fun s p => heldChecks s p k false [] [(.scalar d, 1)])
    (fun s p i u =>
      let me := s.issue.me
      match resumeCase u with
      | 1 => prompterResult (setKc (killUnit s i) me k 0) d 0
      | 2 =>
        let s := (freeze s i (dieLostRec u)).modUnit i fun v => v.modRun fun r =>
          { r with status := if firmwareTakes v then .stopped else .frozenHeld }
        match s.unit? i, p.ident.prompt with
        | some v, some pool => prompterResult (setKc s me k (mkCap s i v pool)) d (summaryMore s p v)
        | _, _ => s
      | _ =>
        let s := thaw s i u
        let s := s.modUnit i fun v => v.modRun fun r =>
          { r with status := .running, stepFor := some me, stepSd := d, stepKc := k, stepFrom := r.bundles }
        let s := s.modUnit me fun v => v.modRun fun r => { r with status := .parked }
        renewWait (takeViews (s.modCluster p.ident.cluster fun c => { c with running := some i }) i) i)

/-- FKILL (R350). -/
def execFkill (k : BitVec 2) (s : State) : Host.Outcome State Fault Refusal :=
  onHeld s k (fun _ => 0x10) (fun _ => 0) (fun s p => heldChecks s p k false [] [])
    (fun s _ i _ => killUnit (setKc s s.issue.me k 0) i)

/-! ### FARRIVE (R351) -/

/-- The address of an FARRIVE. -/
def farriveVa (p : UnitSt) (a : BitVec 6) (w : BitVec 2) : Va := p.windowVa w (p.reg a)

/-- A page that an FARRIVE reaches for a unit. -/
def farrivePage (s : State) (p : UnitSt) (k : BitVec 2) (va : Va) (pa : Nat) (e : TlbEntry) : SlotResult :=
  match heldUnit s p k with
  | some (_, u) => syncPage u va false pa e
  | none => .done

/-- FARRIVE: a release for the frozen unit, then its arrival, whose reply comes to the prompter. -/
def execFarrive (d a : BitVec 6) (c w : BitVec 2) (k : BitVec 2) (s : State) : Host.Outcome State Fault Refusal :=
  let va (_ : State) (p : UnitSt) : Va := farriveVa p a w
  runSlotW s
    (fun s p => firstFail [heldChecks s p k false [.scalar a] [(.scalar d, p.csr.land.toNat)],
      failIf ((va s p).toNat % 16 != 0) cMisaligned (va s p),
      (match heldUnit s p k, barrierPa s p (va s p) with
       | some (_, u), some pa => failIf (ninth u pa) cAtomic (va s p)
       | _, _ => .done),
      firstFail ((pageCheck s p (va s p) .atomic (farrivePage s p k (va s p))) ::
        (syncChecks s p (va s p) .atomic (watchCheck p (va s p) 16 true false) (d != 0))),
      opHold s ((heldUnit s p k).map (·.1)) 0x11 (p.reg a)])
    (fun s p => opStray (syncWait va .atomic (fun _ _ => 1) s p) ((heldUnit s p k).map (·.1)) 0x11 (p.reg a))
    (fun s p =>
      match heldUnit s p k with
      | none => s
      | some (i, _) =>
        let (q, s) := newSync (noteOp s i 0x11 (p.reg a)) p .farrive (va s p) .atomic 2 c 1
        let q := { q with who := i, size := 16, posted := d == 0 }
        let s := s.modUnit i fun u => u.join q.va q.pa
        let s := s.setUnit s.issue.me (p.push (awaitedEntry s p (.scalar d) p.csr.land.toNat q.id q.va))
        if releases s i p.ident.cluster c then startRelease s i p.ident.cluster c (.sync q) else sendSync s p.ident.cluster q)

/-! ### The prompter-fault policy (R340, R342) -/

/-- PROMPTER_FAULT_POLICY: the policy is applied to a stopped prompter, or to a unit frozen while PEN is 0. -/
def execPrompterFaultPolicy (uid : Uid) (s : State) : Host.Outcome State Fault Refusal :=
  .next <| match s.unit? uid with
  | none => s
  | some u =>
    if u.run.status != .stopped || firmwareTakes u then s
    else
      let policy : Nat := match s.ctx? u.ident.asid with | some k => (k.pctl.extractLsb' 22 2).toNat | none => 0
      match policy with
      | 1 => cancelJob (killUnit s uid) u.ident.asid
      | 2 =>
        if u.isPrompter then s
        else
          let s := s.modUnit uid fun u => u.modRun fun r => { r with status := .prompterWait }
          handAll u.ident.asid 64 (s.modCtx u.ident.asid fun k => { k with pwait := k.pwait + 1 })
      | _ => killUnit s uid

end Sys2Proof.Machine
end

