-- ==== Sys2Proof/Machine/Segments.lean ====
section
/-! DEFINITION.
What a core does with the units of its running order: releases (R120), the fetch of a bundle (R75), segments and their
switches (R376 to R379), parks and drains (R100 to R102), the diversion to the curtain entry and the kill when its time
runs out (R387 to R397), freezes at a bundle boundary (R22, R34), and the replay of logged events (R356). -/

namespace Sys2Proof.Machine

/-! ### Releases (R120) -/

/-- The mask of the bytes in which two lines agree. -/
def sameBytes (x y : BitVec 1024) : BitVec 128 :=
  (List.range 128).foldl (fun m i => if lineByte x i = lineByte y i then m ||| (1#128 <<< i) else m) 0

/-- The bytes of a release store are written into the die's slices; the cluster cache keeps as dirty what a later store has put
over them. -/
def releaseStore (s : State) (c : ClusterNo) (pa size : Nat) (data : BitVec 512) (key : BitVec 8) (floor ceil : BitVec 3) : State :=
  let m := maskAt (pa % 128) size
  let line : BitVec 1024 := data.setWidth 1024 <<< (8 * (pa % 128))
  let clean (k : Cluster) (x : CacheLine) : CacheLine := { x with dirty := x.dirty &&& ~~~(m &&& sameBytes x.data line &&& ~~~(heldBytes k x.line)) }
  let s := s.modCluster c fun k => { k with cache := updateFirst (fun x => x.line == pa / 128) (clean k) k.cache }
  mergeIntoSlice s (dieOf c) (pa / 128) line m key floor ceil

/-- What follows a release is performed. -/
def performPayload (s : State) (c : ClusterNo) (r : Release) : State :=
  match r.payload with
  | .store pa size _ data key floor ceil => releaseStore s c pa size data key floor ceil
  | .sync q => s.modSync q.die fun y => { y with queue := y.queue ++ [q] }
  | .halt => s.modUnit r.uid fun u => u.modMem fun m =>
      { m with haltRel := if m.haltRel = some false then some true else m.haltRel }
  | .window slot off data => windowWrite s slot off data false
  | .outside w => postWrite s w
  | .fence => rereadLoads s r.uid
  | .publ _ | .none => s

/-- The flush of the oldest release of a core, where it stood behind another when it began. -/
def flushRelease (s : State) (c : ClusterNo) (r : Release) : State :=
  if r.flushed then s
  else
    let s := flushDie s c
    let lines := scopeLines s c r.scope
    s.modCluster c fun k => { k with rels := match k.rels with
      | x :: rest => { x with flushed := true, lines := lines } :: rest
      | [] => [] }

/-- The oldest release of a core is performed when all that it waits for is done. -/
def performRelease (s : State) (c : ClusterNo) : State :=
  match (s.cluster c).rels with
  | [] => s
  | r :: _ =>
    let s := flushRelease s c r
    match (s.cluster c).rels with
    | [] => s
    | r :: rest => if releaseReady s c r then performPayload (s.modCluster c fun k => { k with rels := rest }) c r else s

/-- The releases of a core that are due, in order. -/
def performReleases (c : ClusterNo) : Nat → State → State
  | 0, s => s
  | n + 1, s => performReleases c n (performRelease s c)

/-! ### The fetch of a bundle (R36 row 1, R75) -/

/-- What a fetch meets. -/
inductive FetchOut where
  | got (bs : List Byte)
  | fault (code : BitVec 8) (addr : Va)
  | walk
  deriving DecidableEq, Repr

/-- The sixteen bytes at PCHI:PC as they are performed at device scope, or the fault of the fetch; the front-end window
holds no bundles (R359), and bytes of system space are the outside world's (R410). -/
def fetchBundle (s : State) (u : UnitSt) : FetchOut × State :=
  match translate s u.accessor u.bundleVa .fetch with
  | .walk => (.walk, s)
  | .fault code a => (.fault code (if code = cDieLost then a else u.bundleVa), s)
  | .ok pa e blank =>
    match routeOf pa e with
    | .window => (.fault cProtection u.bundleVa, s)
    | .outside => let r := outsideBytes s pa 16; (.got r.1, r.2)
    | _ =>
      if blank then (.got (List.replicate 16 0), s)
      else if (deviceLine s (pa / 128) e.key).2 then (.fault cPoison u.bundleVa, s)
      else (.got (deviceBytes s pa 16 e.key), s)

/-- The header of fetched bytes. -/
def headerOfBytes (bs : List Byte) : Option Header := bundleHeader (slotsOfBytes bs)

/-- The STALL of fetched bytes (R37). -/
def stallOfBytes (bs : List Byte) : BitVec 3 := match headerOfBytes bs with | some h => h.stall | none => 0

/-- The bundle at PC lies in the body of an active level (R101). -/
def inBody (f : Flow) : Bool :=
  (List.finRange 2).any fun l => let x := f.loops.get l
    x.active && decide (x.start ≤ f.pc.addr) && decide (f.pc.addr ≤ x.stop)

/-- The bundle at PC has a CPT bit that counts: it is not annulled and stands outside every active loop body (R90,
R101). -/
def cptCounts (u : UnitSt) (bs : List Byte) : Bool :=
  !u.flow.pc.ann && !inBody (leaveLevels u.flow) && match headerOfBytes bs with | some h => h.cpt | none => false

/-! ### Declared cost and pre-emption requests (R363, R379) -/

/-- The segment table of a unit's launch. -/
def unitSegs (s : State) (u : UnitSt) : List (BitVec 64 × BitVec 32) := ((u.ident.launch.bind s.launch?).map Launch.segs).getD []

/-- COST of the current segment of the unit of the entry in which a unit runs. -/
def segmentCost (s : State) (c : ClusterNo) (uid : Uid) : Option Nat :=
  match (entryOf s (s.cluster c) uid).bind s.unit? with
  | some e => ((unitSegs s e)[e.run.segIndex]?).map fun x => x.2.toNat
  | none => none

/-- Another entry of the running order is ready. -/
def otherReady (s : State) (c : ClusterNo) (uid : Uid) : Bool :=
  let k := s.cluster c
  let mine := entryOf s k uid
  k.order.any fun e => some e != mine && (runner s e).isSome

/-- The core asks for the pre-emption of a unit whose segment has outrun its COST (R379); a unit in its curtain entry is
never pre-empted (R395). -/
def requestPreempt (s : State) (c : ClusterNo) : State :=
  match (s.cluster c).running with
  | none => s
  | some uid =>
    match s.unit? uid with
    | none => s
    | some u =>
      let late := match segmentCost s c uid with | some n => decide (n < u.run.segCycles) | none => false
      if late && !u.run.preempt && !u.curt.inentry && otherReady s c uid then
        s.modUnit uid fun u => u.modRun fun r => { r with preempt := true }
      else s

/-- PREEMPTION_REQUEST (R379). -/
def execPreemptionRequest (c : ClusterNo) (s : State) : Host.Outcome State Fault Refusal := .next (requestPreempt s c)

/-! ### Segments begin (R127, R365, R376 to R378) -/

/-- The start banks of a unit that has not started (R365). -/
def takeStartBanks (s : State) (uid : Uid) (u : UnitSt) : State :=
  if u.run.started then s
  else
    s.modCluster u.ident.cluster fun k =>
      acquireBanks (acquireBanks (acquireBanks k uid 0 (maskBits u.umem.tbank)) uid 1 (maskBits u.umem.cbank)) uid 2
        (maskBits u.umem.lbank)

/-- The refill of R102: levels that were cleared for a drain that has ended start anew. -/
def refill (u : UnitSt) : UnitSt :=
  if u.run.drainLevel.isSome then u
  else (List.finRange 2).foldl (fun (u : UnitSt) l =>
    let x := u.flow.loops.get l
    if x.active && x.cleared then
      (u.modRegs fun g => { g with ps := x.initps }).modFlow fun f => f.setLoop l { x with drain := x.e, cleared := false }
    else u) u

/-- The segment that a unit is in: the entry whose START is its PC, or the one it was in (R363). -/
def segmentAt (segs : List (BitVec 64 × BitVec 32)) (u : UnitSt) : Nat :=
  (segs.findIdx? fun x => x.1 == u.flow.pc.addr).getD u.run.segIndex

/-- A unit that a pre-emption parked at a point and that the curtain has struck since diverts before it issues (R389). -/
def divertsAtOnce (u : UnitSt) : Option (BitVec 2) := if u.curt.struck && !u.curt.inentry then u.run.parkPoint else none

/-- A unit's segment begins in an entry of the running order; its first begins behind the acquire that its pass's cue performed
(R369), so its core reads again what it holds clean. -/
def startSegment (s : State) (c : ClusterNo) (entry : Uid) : State :=
  match runner s entry with
  | none => s
  | some uid =>
    match s.unit? uid with
    | none => s
    | some u =>
      let reached := match (s.cluster c).order.findIdx? fun e => e == entry with | some i => i + 1 | none => (s.cluster c).pos
      let s := s.modCluster c fun k => { k with switch := none, pos := reached, running := some uid }
      let s := takeStartBanks s uid u
      let s := if u.run.started then s else invalidate s c false
      let segs := unitSegs s u
      let s := s.modUnit uid fun u => (if (divertsAtOnce u).isSome then u else refill u).modRun fun r =>
        { r with status := .running, inEntry := some entry, segCycles := 0, segIndex := segmentAt segs u, wait := none, preempt := false, started := true,
                 parkPoint := divertsAtOnce u }
      renewWait (takeViews s uid) uid

/-- The next ready entry after those reached, wrapping to the start (R378). -/
def nextEntry (s : State) (c : ClusterNo) : Option Uid :=
  let k := s.cluster c
  (k.order.drop k.pos ++ k.order.take k.pos).find? fun e => (runner s e).isSome

/-- A release at cluster scope whose earlier writes at synchronisation engines are still to be performed: the next segment, which could
see the released store, waits for it (R120). -/
def clusterRelease (k : Cluster) : Bool := k.rels.any fun r => r.scope == 0 && r.payload == .none

/-- A switch begins when a core has no unit and an entry is ready. -/
def beginSwitch (s : State) (c : ClusterNo) : State :=
  let k := s.cluster c
  if k.running.isSome || k.switch.isSome || clusterRelease k then s
  else match nextEntry s c with
    | some e => s.setCluster c { k with switch := some (96, e) }
    | none => s

/-- A switch whose cycles are over leads to its entry, or to another that is ready if that one no longer is. -/
def endSwitch (s : State) (c : ClusterNo) : State :=
  match (s.cluster c).switch with
  | some (0, e) =>
    if (runner s e).isSome then startSegment s c e
    else match nextEntry s c with
      | some e => startSegment s c e
      | none => s.modCluster c fun k => { k with switch := none }
  | _ => s

/-- One cycle of a switch (R378). -/
def switchTick (s : State) (c : ClusterNo) : State :=
  s.modCluster c fun k => { k with switch := k.switch.map fun x => (x.1 - 1, x.2) }

/-- SEGMENT_SWITCH (R378): a switch begins, or at its end the next ready entry's segment. -/
def execSegmentSwitch (c : ClusterNo) (s : State) : Host.Outcome State Fault Refusal := .next (endSwitch (beginSwitch s c) c)

/-- UNIT_START (R365): a placed unit to which its core has switched acquires its start banks and starts. -/
def execUnitStart (uid : Uid) (s : State) : Host.Outcome State Fault Refusal :=
  .next <| match s.unit? uid with
  | none => s
  | some u =>
    let c := u.ident.cluster
    if !u.run.started && u.run.status == .parked && (s.cluster c).running.isNone && (s.cluster c).switch == some (0, uid)
    then endSwitch s c else s

/-! ### Parks, diversions and kills at a bundle boundary -/

/-- The reach window ends where a curtain point is reached (R392). -/
def endWindow (u : UnitSt) : UnitSt := u.modCurt fun x => { x with window := none }

/-- A drain that the loop engine has begun by clearing its level goes on to its end, and nothing else is a point meanwhile
(R102); a level that drains by itself leaves the points of its body as they are (R101). -/
def draining (u : UnitSt) : Bool := match u.run.drainLevel with | some l => (u.flow.loops.get l).cleared | none => false

/-- A unit parks at a pre-emption point (R101), which is recorded (R355). -/
def preemptPark (s : State) (uid : Uid) (point : BitVec 2) : State :=
  let s := parkUnit (recordEvent s uid .preemption 0 (point.setWidth 64)) uid
  let s := s.modUnit uid fun u => u.modRun fun r => { r with parkPoint := some point, drainLevel := none }
  match s.unit? uid with
  | some u => rebuildOrder s u.ident.cluster
  | none => s

/-- The operator record of a unit's launch. -/
def unitRecord (s : State) (u : UnitSt) : Option OpRecord := (u.ident.launch.bind s.launch?).map Launch.record

/-- At the diversion the array has a stream of the unit in RUN or in its queue (R398). -/
def streamStopped (s : State) (uid : Uid) (c : ClusterNo) : Bool :=
  let a := arrayOf s c
  (a.state == .run && a.streamUid == some uid) || a.queue.any fun q => q.uid == uid && (q.op == 1 || q.op == 2)

/-- The diversion (R391): the chain is that of the curtain entry, the loops end, what the unit waited for is given up. -/
def divert (s : State) (uid : Uid) (point : BitVec 2) : State :=
  match s.unit? uid with
  | none => s
  | some u =>
    match unitRecord s u with
    | none => s
    | some r =>
      let c := u.ident.cluster
      let stopped := streamStopped s uid c
      let s := curtainArray (endWait (recordEvent s uid .diversion 0 (point.setWidth 64)) uid) uid c
      s.modUnit uid fun u =>
        let u : UnitSt := if u.sync.barawReq.isSome then { u with pend := u.pend.filter fun e => !e.baraw } else u
        let u := u.modSyncSt fun y => { y with barawReq := none }
        let u := u.modFlow fun f =>
          { f with pc := ⟨r.centry, false, none, false⟩, npc := ⟨r.centry + 16, false, some r.centry, false⟩,
                   nnpc := ⟨r.centry + 32, false, some (r.centry + 16), false⟩, skip := 0, last := none,
                   loops := f.loops.map fun x => { x with active := false } }
        let u := u.modCurt fun x =>
          { x with inentry := true, point := point, stopped := stopped, budget := BitVec.ofNat 25 r.wrap + 1, window := none }
        let u := u.modMem fun m => { m with haltRel := none }
        u.modRun fun x =>
          { x with wait := none, preempt := false, drainLevel := none, endSeg := false, standing := 0, stood := false, gap := 0,
                    parkPoint := none }

/-- A unit reaches a point of R101 or R390 with something asked of it: it is diverted, or parks. -/
def takePoint (s : State) (uid : Uid) (u : UnitSt) (point : BitVec 2) : State :=
  if u.curt.struck && !u.curt.inentry then divert s uid point else preemptPark s uid point

/-- A replay of the unit's context runs: its asynchronous events come from the log (R356). -/
def replays (s : State) (u : UnitSt) : Bool := (s.ctx? u.ident.asid).any fun k => k.replay && !k.replayStopped

/-- Something is asked of the unit at its next point: a diversion or a pre-emption. -/
def pointWanted (s : State) (u : UnitSt) : Bool := !u.curt.inentry && (u.curt.struck || u.run.preempt) && !replays s u

/-- The waits of R101 and R390. -/
def WaitKind.isPoint : WaitKind → Bool
  | .array | .sync | .ring | .token | .queueSlot | .bank | .drainHalt | .releaseHalt => true
  | _ => false

/-- LQRES of a launch whose unit has overrun (R397). -/
def markKilled (s : State) (u : UnitSt) : State :=
  match u.ident.launch with
  | some l => s.modLaunch l fun x => { x with killed := true, curtain := true }
  | none => s

/-- CURTAIN_OVERRUN (R397): the unit is killed, and the firmware receives the code and the bundle address. -/
def overrun (s : State) (uid : Uid) : State :=
  match s.unit? uid with
  | none => s
  | some u =>
    let s := s.setMod { s.mod with errEvents := s.mod.errEvents ++ [(cOverrun, u.bundleVa.toNat)] }
    killUnit (markKilled s u) uid

/-- The unit's launch has no curtain entry (R387). -/
def noEntry (s : State) (u : UnitSt) : Bool := match unitRecord s u with | some r => r.noent | none => false

/-- The fault that freezes a unit at its next bundle boundary (R34). -/
def freezeDue (s : State) (uid : Uid) (u : UnitSt) : State :=
  match u.run.due with
  | [] => s
  | r :: rest => freeze (s.setUnit uid (u.modRun fun x => { x with due := rest })) uid r

/-- The kind of event that a code names. -/
def replayKind (k : BitVec 2) : RecKind :=
  match k with
  | 0 => .freeze
  | 1 => .dieLost
  | 2 => .diversion
  | _ => .preemption

/-- A freeze that the log of a replay still has for the unit: freezes of its own wait for the logged counts (R356). -/
def freezeLogged (s : State) (u : UnitSt) : Bool :=
  replays s u && (s.ctx? u.ident.asid).any fun k => k.replayEvents.any fun e =>
    (e.kind == .freeze || e.kind == .dieLost) && e.launch == serialOf s u && e.index == u.ident.index && decide (u.run.bundles ≤ e.bundles)

/-- A logged event of the unit at its bundle count. -/
def eventDue (s : State) (u : UnitSt) : Option (BitVec 2) :=
  if replays s u then [(0 : BitVec 2), 1, 2, 3].find? fun k => (logged s u (replayKind k)).isSome else none

/-- The logged event is taken from the log. -/
def consumeEvent (s : State) (u : UnitSt) (e : RecEntry) : State :=
  s.modCtx u.ident.asid fun k => { k with replayEvents := removeFirst (fun x => x == e) k.replayEvents }

/-- A logged freeze comes back with its record, or with its code and address. -/
def loggedFreeze (u : UnitSt) (e : RecEntry) : FaultRec :=
  e.fault.getD { code := if e.kind == .dieLost then cDieLost else BitVec.ofNat 8 e.tag, addr := e.value.setWidth 80, mask := 0,
                 after := true, source := .core, slot := 0, bundle := u.flow.pc.addr }

/-- A freeze of the log: the fault it stands for, if the unit has met it already, is no longer due. -/
def replayFreeze (s : State) (uid : Uid) (u : UnitSt) (r : FaultRec) : State :=
  freeze (s.setUnit uid (u.modRun fun x => { x with due := removeFirst (fun y => y.code == r.code) x.due })) uid r

/-- The freeze that ends a step (R349). -/
def stepFreeze (s : State) (uid : Uid) (u : UnitSt) : State :=
  freeze s uid { code := cBreak, addr := 0xFFFFFFFFFFFFFFFF, mask := 0, after := false, source := .core, slot := 0,
                 bundle := u.flow.pc.addr }

/-- The unit stands at an iteration boundary of an active level (R96, R101). -/
def iterationBoundary (u : UnitSt) : Option (Fin 2) :=
  [(1 : Fin 2), 0].find? fun l => let x := u.flow.loops.get l
    x.active && x.start == u.flow.pc.addr && u.flow.last == some x.stop

/-- The level whose natural drain is under way: the innermost active level, its last start made (R102). -/
def naturalDrain (u : UnitSt) : Option (Fin 2) :=
  match innermost u.flow with
  | some l => if u.flow.lc.get l = 0 && !(u.flow.loops.get l).cleared then some l else none
  | none => none

/-- A drain is over: its level has ended, or stands at its boundary with no iteration left (R102). -/
def drainOver (u : UnitSt) (l : Fin 2) : Bool :=
  let f := leaveLevels u.flow
  let x := f.loops.get l
  !x.active || (x.cleared && x.drain == 0 && x.start == u.flow.pc.addr && u.flow.last == some x.stop)

/-- The tag of a logged pre-emption or diversion for whose sake a drain began at this bundle count, in place of the park or the
diversion itself. -/
def drainTag : Nat := 1

/-- A drain for a park or a diversion clears its level: recorded where it begins (R355). -/
def recordDrain (s : State) (uid : Uid) (u : UnitSt) : State :=
  recordEvent s uid (if u.curt.struck && !u.curt.inentry then .diversion else .preemption) drainTag 0

/-- A park or a diversion at an iteration boundary: a level whose iterations have all started drains as it is, another
is cleared first, and the drain is over at once where nothing is left in it (R102). -/
def drainFor (s : State) (uid : Uid) (u : UnitSt) : State × Bool :=
  let begin_ (u : UnitSt) (l : Fin 2) : UnitSt := (endWindow u).modRun fun r => { r with drainLevel := some l }
  match naturalDrain u with
  | some l => (s.setUnit uid (begin_ u l), false)
  | none =>
    match iterationBoundary u with
    | none => (s, false)
    | some l =>
      let s := recordDrain s uid u
      let u := u.modFlow fun f => f.setLoop l { f.loops.get l with cleared := true }
      if (u.flow.loops.get l).drain = 0 then (takePoint (s.setUnit uid (endWindow u)) uid u 2, true)
      else (s.setUnit uid (begin_ u l), false)

/-- A logged event takes effect at its unit's bundle boundary (R356); false where it only begins a drain. -/
def deliverLogged (s : State) (uid : Uid) (u : UnitSt) (kind : BitVec 2) (e : RecEntry) : State × Bool :=
  let point : BitVec 2 := e.value.extractLsb' 0 2
  if kind.toNat < 2 then (replayFreeze (consumeEvent s u e) uid u (loggedFreeze u e), true)
  else if !(u.run.status == .running && u.run.gap == 0) then (s, true)
  else
    let s := consumeEvent s u e
    let s := if kind = 2 then s.modUnit uid fun u => u.modCurt fun x => { x with struck := true } else s
    if e.tag = drainTag then drainFor s uid u
    else (if kind = 2 then divert s uid point else preemptPark s uid point, true)

/-- What a bundle boundary brings before the bundle at PC is tried: freezes first (R393), then the end of a step, ENDSEG's
park, the end of a unit without curtain entry, and parks and diversions at loop boundaries.  True where the unit does not
go on to issue in this cycle. -/
def boundary (s : State) (uid : Uid) (u : UnitSt) : State × Bool :=
  match (eventDue s u).bind fun k => (logged s u (replayKind k)).map fun e => (k, e) with
  | some (k, e) => deliverLogged s uid u k e
  | none =>
    if !u.run.due.isEmpty && !freezeLogged s u then (freezeDue s uid u, true)
    else if u.run.stepFor.isSome && u.run.bundles != u.run.stepFrom then (stepFreeze s uid u, true)
    else if u.run.endSeg then (parkUnit s uid, true)
    else if u.curt.struck && !u.curt.inentry && noEntry s u then (endUnit s uid .curtain, true)
    else if (divertsAtOnce u).isSome && !replays s u then (divert s uid ((divertsAtOnce u).getD 0), true)
    else match u.run.drainLevel with
      | some l =>
        if drainOver u l then
          let u := u.modRun fun r => { r with drainLevel := none }
          (takePoint (s.setUnit uid u) uid u 2, true)
        else (s, false)
      | none => if pointWanted s u then drainFor s uid u else (s, false)

/-- A unit whose segment runs stands at a bundle boundary. -/
def atBoundary (u : UnitSt) : Bool := u.run.status == .running && u.run.gap == 0

/-- The unit waits, or its CPT bundle stands at PC: a point that needs no drain (R101, R390). -/
def plainPoint (s : State) (u : UnitSt) : Option (BitVec 2) :=
  if draining u then none
  else if (match u.run.wait with | some k => k.isPoint | none => false) then some 3
  else match fetchBundle s u with
    | (.got bs, _) => if cptCounts u bs then some 1 else none
    | _ => none

/-- A unit that is asked for a point takes it: where it stands at one, or by the drain of its loop. -/
def pointEvent (s : State) (uid : Uid) (u : UnitSt) : State :=
  match boundary s uid u with
  | (t, true) => t
  | (t, false) =>
    match t.unit? uid with
    | none => t
    | some u => match plainPoint t u with
      | some p => takePoint t uid u p
      | none => t

/-- PREEMPT_PARK (R101, R102): a unit asked to give way parks at its pre-emption point, or starts its drain. -/
def execPreemptPark (uid : Uid) (s : State) : Host.Outcome State Fault Refusal :=
  .next <| match s.unit? uid with
  | some u => if atBoundary u && u.run.preempt && !u.curt.inentry && !u.curt.struck then pointEvent s uid u else s
  | none => s

/-- DIVERSION (R391): a struck unit is diverted at its curtain point, or starts the drain that leads to it. -/
def execDiversion (uid : Uid) (s : State) : Host.Outcome State Fault Refusal :=
  .next <| match s.unit? uid with
  | some u => if atBoundary u && u.curt.struck && !u.curt.inentry && !noEntry s u then pointEvent s uid u else s
  | none => s

/-- CURTAIN_NOENT_COMPLETE (R387): a struck unit without a curtain entry completes at its bundle boundary. -/
def execCurtainNoentComplete (uid : Uid) (s : State) : Host.Outcome State Fault Refusal :=
  .next <| match s.unit? uid with
  | some u =>
    if (atBoundary u || u.run.status == .parked) && u.curt.struck && !u.curt.inentry && noEntry s u && u.run.due.isEmpty
    then endUnit s uid .curtain else s
  | none => s

/-- The time of a struck unit has run out: its budget is 0, or its reach window at 0. -/
def timeOut (u : UnitSt) : Bool := (u.curt.inentry && u.curt.budget == 0) || (u.curt.struck && u.curt.window == some 0)

/-- CURTAIN_OVERRUN (R397). -/
def execCurtainOverrun (uid : Uid) (s : State) : Host.Outcome State Fault Refusal :=
  .next <| match s.unit? uid with
  | some u => if u.live && timeOut u then overrun s uid else s
  | none => s

/-! ### Freezes at a boundary (R22, R34) -/

/-- A unit that is parked or between bundles: a freeze that is due takes it. -/
def canFreeze (u : UnitSt) : Bool := atBoundary u || u.run.status == .parked

/-- AFTER_ISSUE_FREEZE (R34): a fault found after issue freezes the unit at its next bundle boundary. -/
def execAfterIssueFreeze (uid : Uid) (s : State) : Host.Outcome State Fault Refusal :=
  .next <| match s.unit? uid with
  | some u => if canFreeze u && !freezeLogged s u then freezeDue s uid u else s
  | none => s

/-- The loss of a die concerns a unit: a placed unit of a context that has touched it (R22). -/
def lossConcerns (s : State) (u : UnitSt) (d : DieNo) : Bool :=
  u.live && !u.isPrompter && match s.ctx? u.ident.asid with | some k => k.dies.getLsbD d.val | none => false

/-- The fault of a die loss. -/
def lossRec (u : UnitSt) (d : DieNo) : FaultRec :=
  { code := cDieLost, addr := BitVec.ofNat 80 d.val, mask := 0, after := true, source := .core, slot := 0, bundle := u.flow.pc.addr }

/-- DIE_LOST_FREEZE (R22): the loss of a die freezes a unit of a context that has touched it, and is noted in the record of
one that is frozen already. -/
def execDieLostFreeze (uid : Uid) (d : DieNo) (s : State) : Host.Outcome State Fault Refusal :=
  .next <| match s.unit? uid with
  | some u =>
    if !(s.die d).lost || !lossConcerns s u d then s
    else if u.isFrozen then s.setUnit uid (u.modRun fun r => { r with dieLost := true, lostAt := d })
    else if freezeLogged s u then s
    else if canFreeze u then
      freeze (s.setUnit uid (u.modRun fun r => { r with due := r.due.filter fun x => x.code != cDieLost })) uid (lossRec u d)
    else s
  | none => s

/-- An annulled bundle issues: the chain advances, with its STALL and nothing else of it; iterations that start there start
(R90, R96). -/
def issueAnnulled (s : State) (uid : Uid) (u : UnitSt) (bs : List Byte) : State :=
  let u := (leaveBundle (enterBundle u) none).modRun fun r =>
    { r with bundles := r.bundles + 1, gap := (stallOfBytes bs).toNat, wait := none, watchFree := false, standing := 0, stood := false }
  s.setUnit uid (u.modMem fun m => { m with haltRel := none })

/-- ANNULLED_BUNDLE_ISSUE (R90): the annulled bundle at PC passes its fetch checks and the chain advances. -/
def execAnnulledBundleIssue (uid : Uid) (s : State) : Host.Outcome State Fault Refusal :=
  .next <| match s.unit? uid with
  | some u =>
    if atBoundary u && u.flow.pc.ann && u.run.due.isEmpty && !u.run.endSeg then
      match fetchBundle s u with
      | (.got bs, s) => issueAnnulled s uid u bs
      | _ => s
    else s
  | none => s

/-! ### Restartable units (R354) -/

/-- A unit that the firmware re-executes: lost with its die, or frozen with POISON or DIE_LOST. -/
def reexecutable (u : UnitSt) : Bool :=
  againAllowed u && (u.run.status == .complete .lost || (u.run.status == .stopped && firmwareTakes u))

/-- A cluster whose array a launch can take: no array launch is active or waiting there, or that launch itself is. -/
def arrayFree (s : State) (li : Nat) (l : Launch) (c : ClusterNo) : Bool :=
  let k := s.cluster c
  !l.wings.arrcfg.getLsbD 47 || k.activeWings == some li
    || ((match k.activeWings with | some o => launchLeft s o c | none => true) && k.shadowWings.isNone)

/-- A fresh instance of a unit on another cluster, with the index it had and the values of its launch. -/
def replaceUnit (s : State) (u : UnitSt) (li : Nat) (l : Launch) (c : ClusterNo) : State :=
  let s := if l.wings.arrcfg.getLsbD 47 && (s.cluster c).activeWings != some li then
      swapArray (s.modCluster c fun k => { k with activeWings := some li }) c li l
    else s
  placeUnit s li l u.ident.index.toNat c (u.ident.instances + 1)

/-- The count of a launch with one more unit outstanding: the instance that ended does not complete the unit; at the loss
of its die it is counted so before the instance ends (R22). -/
def recount (s : State) (li : Nat) : State :=
  s.modLaunch li fun l => { l with remain := l.remain + 1, finish := if l.finish = 1 then 0 else l.finish }

/-- RESTARTABLE_REEXECUTION (R354): the instance is killed with the effects of FKILL, and a fresh one starts on another
cluster. -/
def execRestartableReexecution (uid : Uid) (c : ClusterNo) (s : State) : Host.Outcome State Fault Refusal :=
  .next <| match s.unit? uid with
  | none => s
  | some u =>
    match u.ident.launch with
    | none => s
    | some li =>
      match s.launch? li with
      | none => s
      | some l =>
        if !reexecutable u || c == u.ident.cluster || (s.die (dieOf c)).lost || l.done || !arrayFree s li l c then s
        else
          let s := if u.live then recount (killUnit s uid) li else s
          let s := s.modUnit uid fun u => { u with ident := { u.ident with restart := false } }
          replaceUnit s u li l c

/-! ### Replay (R356) -/

/-- REPLAY_EVENT_DELIVERY (R356): at a bundle boundary a logged asynchronous event of the unit, logged at this bundle
count, is delivered. -/
def execReplayEventDelivery (uid : Uid) (kind : BitVec 2) (s : State) : Host.Outcome State Fault Refusal :=
  .next <| match s.unit? uid with
  | none => s
  | some u =>
    match logged s u (replayKind kind) with
    | none => s
    | some e => if replays s u && canFreeze u then (deliverLogged s uid u kind e).1 else s

end Sys2Proof.Machine
end

