-- ==== Sys2Proof/Machine/Directory.lean ====
section
/-! DEFINITION.
The directory, the slices and the network interfaces at work (R293 to R310), and the die circuits (R291, R292). -/

namespace Sys2Proof.Machine

/-! ### Requests in order -/

/-- A request of a slice at a line in a stable state; one for a line of a lost die has no answer, and its die's units freeze
(R314); one under another key slot than the line is held under collapses every copy first (R325). -/
def handleReq (s : State) (e : DirEntry) (q : DirReq) : State :=
  if (s.die (homeOf e.line)).lost then dropSliceLine s q.die e.line
  else
    let other := (e.owner.isSome || e.sharers != 0) && e.key != q.key
    let s := if other then collapseFor s e.line (some q.die) else s
    let e := if other then { DirEntry.empty e.line with queue := e.queue } else e
    let (s, lowered) := if q.counted then (s, false) else applyRequest s e.line q.die q.rfloor q.rceil
    let q := { q with counted := true }
    let e := { e with key := q.key }
    match (if lowered && q.kind == .getS then trimReplicas s e (some q) else none) with
    | some s => s
    | none => if q.kind == .getS then pushHot (handleGetS s e q) e.line else handleWrite s e q

/-- The requests that wait for a line, in order, while its state is stable (R298). -/
def drainLine (line : Nat) : Nat → State → State
  | 0, s => s
  | n + 1, s =>
    let e := dirEntry s line
    match e.queue with
    | [] => s
    | q :: rest => if e.st.stable then drainLine line n (handleReq (setEntry s { e with queue := rest }) { e with queue := rest } q) else s

/-- What has waited for a line to come to rest: the PutS of helpers, behind whose acknowledgements the line's redirect entries go
(R308), and replicas above a lowered D (R305). -/
def settleLate (s : State) (line : Nat) : State :=
  let e := dirEntry s line
  if !e.st.stable then s
  else
    match e.late with
    | d :: rest =>
      if e.redirects = 0 then
        (d :: rest).foldl (fun s d => sendMsg s (toDie .putAck d line)) (setEntry s { e with late := [] })
      else
        let q : DirReq := { kind := .putS, die := d, key := 0, rfloor := 0, rceil := 0, hinted := false, counted := true, prefetch := false }
        (maskDies e.redirects).foldl (fun s d => sendMsg s (toDie .rdInv d line))
          (setEntry s { e with st := .sMA, cur := some q, rdis := e.redirects, late := rest })
    | [] => if e.trimDue then let e := { e with trimDue := false }
                              (trimReplicas s e none).getD (setEntry s e)
            else s

/-- A line has come to rest: what has waited for that, then the requests in its queue. -/
def resume (s : State) (line : Nat) : State :=
  let s := settleLate s line
  drainLine line (dirEntry s line).queue.length s

/-- A transient state ends where nothing more is awaited. -/
def settleEntry (s : State) (line : Nat) : State :=
  let e := dirEntry s line
  if !e.acked then s
  else
    let s := match e.st, e.cur with
      | .sMA, some q =>
        if q.kind == .putS then sendMsg (setEntry s e.rest) (toDie .putAck q.die line)
        else if q.kind == .getS then handleReq (setEntry s e.rest) e.rest q
        else grantWrite s e q (q.kind == .upg && holds e q.die) (e.owner.isSome && e.owner != some q.die)
      | .mFA, some q => grantWrite s e q false true
      | .mFS, _ => pushHot (setEntry s e.rest) line
      | .sMA, none | .pA, _ => setEntry s e.rest
      | _, _ => s
    resume s line

/-- A request reaches the directory: it is handled, or waits behind another (R298). -/
def arriveReq (s : State) (m : Msg) : State :=
  let e := dirEntry s m.line
  let q : DirReq := { kind := m.kind, die := m.die, key := m.key, rfloor := m.rfloor, rceil := m.rceil, hinted := m.hinted, counted := false,
                      prefetch := m.shared }
  if e.st.stable && e.queue.isEmpty then handleReq s e q else setEntry s { e with queue := e.queue ++ [q] }

/-- A redirect entry of a die's interface for a line (R307). -/
def redirect? (s : State) (d : DieNo) (line : Nat) : Option Redirect := (s.die d).redirects.find? fun r => r.line == line

/-- A die's slice can answer a read of a line under a key slot. -/
def sliceHits (s : State) (d : DieNo) (line : Nat) (key : BitVec 8) : Option SliceLine :=
  (sliceLine? (s.die d) line).bind fun l => if l.st.hits && l.key == key && (!l.st.leaves || putWaits s d line) then some l else none

/-- A redirect entry leaves an interface. -/
def dropRedirect (s : State) (d : DieNo) (line : Nat) : State :=
  let s := s.modDie d fun x => { x with redirects := x.redirects.filter fun r => r.line != line }
  modEntry s line fun e => { e with redirects := e.redirects &&& ~~~(dieBit d) }

/-- The helper's line that answers a read miss which a redirect entry sends to it. -/
def helperLine (s : State) (d : DieNo) (line : Nat) (m : Msg) : Option (Redirect × SliceLine) :=
  (redirect? s d line).bind fun r => (sliceHits s r.helper line m.key).map fun l => (r, l)

/-- GETS (R298): a read miss reaches the directory; one that its interface redirects to a helper with the line does not
(R307). -/
def execGets (d : DieNo) (line : Nat) (s : State) : Host.Outcome State Fault Refusal :=
  .next <| match redirect? s d line, headMsg s .getS d line false with
  | some _, some m =>
    if (helperLine s d line m).isSome then s else deliver (dropRedirect s d line) .getS d line false arriveReq
  | _, _ => deliver s .getS d line false arriveReq

/-- GETM (R298). -/
def execGetm (d : DieNo) (line : Nat) (s : State) : Host.Outcome State Fault Refusal := .next (deliver s .getM d line false arriveReq)

/-- UPG (R299). -/
def execUpg (d : DieNo) (line : Nat) (s : State) : Host.Outcome State Fault Refusal := .next (deliver s .upg d line false arriveReq)

/-- REDIRECTED_READ (R307): a read miss that hits a redirect entry is answered by the helper's slice without filling, the
entry used last; where the helper no longer holds the line the entry goes, and the request goes to the directory. -/
def execRedirectedRead (d : DieNo) (line : Nat) (s : State) : Host.Outcome State Fault Refusal :=
  .next <| match redirect? s d line, headMsg s .getS d line false with
  | some _, some m =>
    match helperLine s d line m with
    | some (r, l) =>
      let v := (deviceCopy s r.helper l, l.poison)
      let s := (popMsg s m).modDie d fun x => { x with redirects := (x.redirects.filter fun y => y.line != line) ++ [r] }
      sendLine (countEvent (countEvent s line [d] .rhits) line [d] .nofill) .dataNF d line v m.key
    | none => arriveReq (popMsg (dropRedirect s d line) m) m
  | _, _ => s

/-! ### Puts (R298, R300, R308) -/

/-- A Put from a die that is no longer the owner, or whose line a forward has been sent for. -/
def staleAt (e : DirEntry) (d : DieNo) : Bool :=
  e.owner != some d || e.st == .mFA || (e.st == .sMA && match e.cur with | some q => q.kind != .getS && q.kind != .putS | none => false)

/-- The owner gives a line back: a dirty one is written to memory, and later requests wait until it is (X_WB). -/
def takeBack (s : State) (e : DirEntry) (m : Msg) (dirty : Bool) : State :=
  let s := sendMsg s (toDie .putAck m.die m.line)
  let s := if dirty then
      let s := { s with poison := if m.poison then (if s.poison.contains m.line then s.poison else s.poison ++ [m.line])
                                  else s.poison.filter fun l => l != m.line }
      writeMemLine s m.line m.data m.key
    else s
  let e := { e with owner := none }
  if !e.st.stable then setEntry s e
  else if dirty then (setEntry s { e with st := .xWB }).modDir fun d => { d with mem := d.mem ++ [(e.line, false)] }
  else resume (setEntry s e.rest) m.line

/-- A Put of an owner reaches the directory. -/
def arrivePut (dirty : Bool) (s : State) (m : Msg) : State :=
  let s := countQuiet s m.line
  let e := dirEntry s m.line
  if staleAt e m.die then sendMsg s (toDie .putAckStale m.die m.line) else takeBack s e m dirty

/-- PUTM (R298). -/
def execPutm (d : DieNo) (line : Nat) (s : State) : Host.Outcome State Fault Refusal := .next (deliver s .putM d line false (arrivePut true))

/-- PUTO (R298). -/
def execPuto (d : DieNo) (line : Nat) (s : State) : Host.Outcome State Fault Refusal := .next (deliver s .putO d line false (arrivePut true))

/-- PUTE (R298). -/
def execPute (d : DieNo) (line : Nat) (s : State) : Host.Outcome State Fault Refusal := .next (deliver s .putE d line false (arrivePut false))

/-- A PutS: the die leaves the sharer mask; a helper's is answered once the line's redirect entries are gone (R308). -/
def arrivePutS (s : State) (m : Msg) : State :=
  let s := countQuiet s m.line
  let e := dirEntry s m.line
  let helper := e.helpers.getLsbD m.die.val
  let e := { e with sharers := e.sharers &&& ~~~(dieBit m.die), helpers := e.helpers &&& ~~~(dieBit m.die) }
  if helper && e.redirects != 0 then
    let s := setEntry s { e with late := e.late ++ [m.die] }
    if e.st.stable then resume s m.line else s
  else if e.st.stable then resume (sendMsg (setEntry s e.rest) (toDie .putAck m.die m.line)) m.line
  else sendMsg (setEntry s e) (toDie .putAck m.die m.line)

/-- PUTS (R308). -/
def execPuts (d : DieNo) (line : Nat) (s : State) : Host.Outcome State Fault Refusal := .next (deliver s .putS d line false arrivePutS)

/-! ### Acknowledgements at the directory -/

/-- INVACK (R301). -/
def execInvack (d : DieNo) (line : Nat) (s : State) : Host.Outcome State Fault Refusal :=
  .next (deliver s .invAck d line false fun s m =>
    let bit := ~~~(dieBit m.die)
    settleEntry (modEntry s line fun e =>
      { e with invs := e.invs &&& bit, sharers := e.sharers &&& bit, helpers := e.helpers &&& bit,
               owner := if e.owner = some m.die then none else e.owner }) line)

/-- FWDACK (R301); one that a push has waited for sends the Pushes (R306). -/
def execFwdack (d : DieNo) (line : Nat) (s : State) : Host.Outcome State Fault Refusal :=
  .next (deliver s .fwdAck d line false fun s _ =>
    let s := modEntry s line fun e => { e with fwd := false }
    settleEntry (if (dirEntry s line).st == .pA then sendPushes s (dirEntry s line) else s) line)

/-- RDACK (R307): an interface has installed or removed its redirect entry. -/
def execRdack (d : DieNo) (line : Nat) (s : State) : Host.Outcome State Fault Refusal :=
  .next (deliver s .rdAck d line false fun s m =>
    let bit := ~~~(dieBit m.die)
    settleEntry (modEntry s line fun e =>
      { e with rdis := e.rdis &&& bit, redirects := if e.st == .pA then e.redirects else e.redirects &&& bit }) line)

/-- PUSH_ACKNOWLEDGEMENT (R306). -/
def execPushAcknowledgement (d : DieNo) (line : Nat) (s : State) : Host.Outcome State Fault Refusal :=
  .next (deliver s .pushAck d line false fun s m => settleEntry (modEntry s line fun e => { e with pushes := e.pushes &&& ~~~(dieBit m.die) }) line)

/-! ### Memory under the directory -/

/-- MEMORY_FILL (R298): the data for a line in I_D arrives and its request is answered. -/
def execMemoryFill (line : Nat) (s : State) : Host.Outcome State Fault Refusal :=
  .next <|
    let e := dirEntry s line
    if !s.hub.dir.mem.contains (line, true) || e.st != .iD then s
    else
      let s := s.modDir fun d => { d with mem := removeFirst (fun x => x == (line, true)) d.mem }
      match e.cur with
      | none => s
      | some q =>
        let e' := { e with cur := none, st := DirSt.i, invs := 0, rdis := 0 }
        let s :=
          if q.kind == .getS then
            if fills s e q.die && q.prefetch then
              sendLine (setEntry s { e' with st := .s, sharers := dieBit q.die }) .dataS q.die line (memLine s line q.key, s.poison.contains line) q.key
            else if fills s e q.die then
              sendLine (setEntry s { e' with st := .e, owner := some q.die }) .dataE q.die line (memLine s line q.key, s.poison.contains line) q.key
            else pushHot (answerNF (setEntry s e') e' q) line
          else grantWrite s e' q false false
        resume s line

/-- MEMORY_WRITE_DONE (R298): the write of a Put is done and the line leaves X_WB. -/
def execMemoryWriteDone (line : Nat) (s : State) : Host.Outcome State Fault Refusal :=
  .next <|
    let e := dirEntry s line
    if !s.hub.dir.mem.contains (line, false) || e.st != .xWB then s
    else
      let s := s.modDir fun d => { d with mem := removeFirst (fun x => x == (line, false)) d.mem }
      resume (setEntry s e.rest) line

/-! ### The slices (R296, R297, R299, R300) -/

/-- A fill takes its place in a slice.  Bytes that wait for their device step are merged over a line that the die may write: given
to be written, or alone its own (E).  Over forwarded data that comes before the directory's grant they still wait, and `base` keeps
the line without them. -/
def fillSlice (s : State) (d : DieNo) (m : Msg) (st : SliceState) : State :=
  match sliceLine? (s.die d) m.line with
  | none =>
    if st = .m then
      setSliceLine (makeRoom s d m.line) d { line := m.line, st := .m, data := m.data, base := m.data, dirty := 0, key := m.key,
                                             poison := m.poison, helper := false }
    else s
  | some l =>
    match l.st with
    | .isD => setSliceLine s d { l with st := st, data := m.data, base := m.data, poison := m.poison, dirty := 0, key := m.key }
    | .imD | .imW | .smW =>
      if st = .m || st = .e then
        let whole := l.dirty == BitVec.allOnes 128
        setSliceLine s d { l with st := .m, data := mergeLine m.data l.data l.dirty, base := m.data, poison := m.poison && !whole }
      else s
    | _ => s

/-- DATA_S: a fill in S. -/
def execDataS (d : DieNo) (line : Nat) (s : State) : Host.Outcome State Fault Refusal :=
  .next (deliver s .dataS d line true fun s m => fillSlice s d m .s)

/-- DATA_E: a fill in E; a line that waits to write may write it without a message, and enters M (R301). -/
def execDataE (d : DieNo) (line : Nat) (s : State) : Host.Outcome State Fault Refusal :=
  .next (deliver s .dataE d line true fun s m => fillSlice s d m .e)

/-- DATA_M (R299): a fill in M, the waiting bytes merged over it. -/
def execDataM (d : DieNo) (line : Nat) (s : State) : Host.Outcome State Fault Refusal :=
  .next (deliver s .dataM d line true fun s m => fillSlice s d m .m)

/-- FWDDATA (R297): forwarded data, shared or with the line. -/
def execFwddata (d : DieNo) (line : Nat) (s : State) : Host.Outcome State Fault Refusal :=
  .next (deliver s .fwdData d line true fun s m => fillSlice s d m (if m.shared then .s else .m))

/-- DATANF (R303): the requesting core's data; the slice keeps nothing. -/
def execDatanf (d : DieNo) (line : Nat) (s : State) : Host.Outcome State Fault Refusal :=
  .next (deliver s .dataNF d line true fun s _ =>
    match sliceLine? (s.die d) line with
    | some l => if l.st == .isD then dropSliceLine s d line else s
    | none => s)

/-- UPGACK (R297): the line enters M. -/
def execUpgack (d : DieNo) (line : Nat) (s : State) : Host.Outcome State Fault Refusal :=
  .next (deliver s .upgAck d line true fun s _ =>
    match sliceLine? (s.die d) line with
    | some l =>
      if l.st == .smW then setSliceLine s d { l with st := .m, dirty := 0, poison := l.poison && l.dirty != BitVec.allOnes 128 } else s
    | none => s)

/-- INV (R299): a copy is collapsed; bytes that wait are kept in IM_W. -/
def execInv (d : DieNo) (line : Nat) (s : State) : Host.Outcome State Fault Refusal :=
  .next (deliver s .inv d line true fun s _ =>
    let s := sendMsg s (reqMsg .invAck d line 0 0 0 false)
    match sliceLine? (s.die d) line with
    | some l =>
      match l.st with
      | .smW => setSliceLine s d { l with st := .imW }
      | .imW | .imD | .isD | .iiA => s
      | .siA | .oiA | .eiA | .miA => setSliceLine s d { l with st := .iiA }
      | _ => dropSliceLine s d line
    | none => s)

/-- The data that an owner's slice forwards. -/
def forwardData (s : State) (d : DieNo) (line : Nat) : BitVec 1024 × Bool :=
  match sliceLine? (s.die d) line with
  | some l => (deviceCopy s d l, l.poison)
  | none => (memLine s line (dirEntry s line).key, s.poison.contains line)

/-- FWDGETS (R300): the owner supplies a reader, or the directory for a push, and keeps the line, dirty or shared, in O. -/
def execFwdgets (d : DieNo) (line : Nat) (s : State) : Host.Outcome State Fault Refusal :=
  .next (deliver s .fwdGetS d line true fun s m =>
    let v := forwardData s d line
    let s := if m.shared then s
      else sendMsg s { toDie .fwdData m.req line with data := v.1, poison := v.2, key := m.key, shared := true }
    let s := match sliceLine? (s.die d) line with
      | some l => if l.st == .m || l.st == .e then setSliceLine s d { l with st := .o } else s
      | none => s
    sendMsg s (reqMsg .fwdAck d line 0 0 0 false))

/-- FWDGETSNF (R297): the owner supplies a reader that does not fill, and stays as it is. -/
def execFwdgetsnf (d : DieNo) (line : Nat) (s : State) : Host.Outcome State Fault Refusal :=
  .next (deliver s .fwdGetSNF d line true fun s m =>
    let v := forwardData s d line
    sendMsg (sendMsg s { toDie .dataNF m.req line with data := v.1, poison := v.2, key := m.key }) (reqMsg .fwdAck d line 0 0 0 false))

/-- FWDGETM (R300): the owner supplies a writer and gives the line up. -/
def execFwdgetm (d : DieNo) (line : Nat) (s : State) : Host.Outcome State Fault Refusal :=
  .next (deliver s .fwdGetM d line true fun s m =>
    let v := forwardData s d line
    let s := sendMsg s { toDie .fwdData m.req line with data := v.1, poison := v.2, key := m.key }
    let s := match sliceLine? (s.die d) line with
      | some l =>
        match l.st with
        | .smW => setSliceLine s d { l with st := .imW }
        | .miA | .oiA | .eiA => setSliceLine s d { l with st := .iiA }
        | .imW | .imD | .isD | .iiA => s
        | _ => dropSliceLine s d line
      | none => s
    sendMsg s (reqMsg .fwdAck d line 0 0 0 false))

/-- A Put is answered: the line leaves the slice. -/
def putAnswered (s : State) (d : DieNo) (line : Nat) : State :=
  match sliceLine? (s.die d) line with
  | some l =>
    match l.st with
    | .miA | .oiA | .eiA | .siA | .iiA => dropSliceLine s d line
    | _ => s
  | none => s

/-- PUTACK (R300). -/
def execPutack (d : DieNo) (line : Nat) (s : State) : Host.Outcome State Fault Refusal :=
  .next (deliver s .putAck d line true fun s _ => putAnswered s d line)

/-- PUTACKSTALE (R300). -/
def execPutackstale (d : DieNo) (line : Nat) (s : State) : Host.Outcome State Fault Refusal :=
  .next (deliver s .putAckStale d line true fun s _ => putAnswered s d line)

/-- PUSH (R306): a helper's slice installs the copy in S. -/
def execPush (d : DieNo) (line : Nat) (s : State) : Host.Outcome State Fault Refusal :=
  .next (deliver s .push d line true fun s m =>
    let s := sendMsg s (reqMsg .pushAck d line 0 0 0 false)
    match sliceLine? (s.die d) line with
    | none => setSliceLine (makeRoom s d line) d { line := line, st := .s, data := m.data, base := 0, dirty := 0, key := m.key,
                                                   poison := m.poison, helper := true }
    | some l => if l.st == .isD then setSliceLine s d { l with st := .s, data := m.data, poison := m.poison, helper := true } else s)

/-- RDSET (R306): an interface of 256 entries takes a redirect entry, the one used least recently leaving a full one. -/
def execRdset (d : DieNo) (line : Nat) (s : State) : Host.Outcome State Fault Refusal :=
  .next (deliver s .rdSet d line true fun s m =>
    let put (l : List Redirect) : List Redirect :=
      let l := l.filter fun r => r.line != line
      (if l.length < 256 then l else l.drop 1) ++ [⟨line, m.helper⟩]
    sendMsg (s.modDie d fun x => { x with redirects := put x.redirects }) (reqMsg .rdAck d line 0 0 0 false))

/-- RDINV (R307): an interface removes its redirect entry. -/
def execRdinv (d : DieNo) (line : Nat) (s : State) : Host.Outcome State Fault Refusal :=
  .next (deliver s .rdInv d line true fun s _ =>
    sendMsg (s.modDie d fun x => { x with redirects := x.redirects.filter fun r => r.line != line }) (reqMsg .rdAck d line 0 0 0 false))

/-! ### The circuits of a die (R291, R292) -/

/-- The destination that the sheet gives a core in a cycle of the revolution; the default sheet where none is loaded. -/
def sheetDest (x : Die) (k a : Nat) : Option Nat :=
  match x.cueSheet with
  | some l =>
    let b := l.getD (16 * k + a) 0
    if b.getLsbD 4 then some (b.toNat % 16) else none
  | none => some ((a + k) % 16)

/-- What lands at the other end of a circuit: a slab with the count that publishes it, or a count. -/
def landCircuit (s : State) (m : CircuitMsg) : State :=
  match s.unit? m.uid with
  | none => s
  | some u =>
    match u.handle? m.h with
    | none => s
    | some h =>
      let s := if m.slab.isEmpty then s else levelWrite s u.ident.cluster h.level (h.slabAt (m.pos - 1)) m.slab
      s.modUnit m.uid fun u => u.setHandle (if m.head then { h with hp := m.pos } else { h with tp := m.pos, tc := m.pos })

/-- What each core sends in this cycle of the revolution: the oldest message for the core that the sheet gives it. -/
def circuitCycle (s : State) (d : DieNo) : State :=
  let k := (s.die d).revolution.toNat
  let s := (List.range 16).foldl (fun s a =>
    match sheetDest (s.die d) k a with
    | none => s
    | some dst =>
      match (s.die d).circuits.find? fun m => m.src == a && m.dst == dst with
      | none => s
      | some m => landCircuit (s.modDie d fun x => { x with circuits := removeFirst (fun y => y == m) x.circuits }) m) s
  s.modDie d fun x => { x with revolution := x.revolution + 1 }

/-- CIRCUIT_SEND (R292): one cycle of the revolution. -/
def execCircuitSend (d : DieNo) (s : State) : Host.Outcome State Fault Refusal := .next (circuitCycle s d)

end Sys2Proof.Machine
end

