-- ==== Sys2Proof/Machine/Walker.lean ====
section
/-! DEFINITION.
The walker complex at work: walks (R321, R323), two-version buffers and their flips (R326, R328), shoot-downs (R330 to
R332), migration (R286, R333, R334), and the start of a budget period (R381). -/

namespace Sys2Proof.Machine

/-! ### Walks (R321, R323) -/

/-- TRANSLATION_WALK (R323): a page that the TLBs do not serve for an access sends a walk. -/
def execTranslationWalk (a : BitVec 16) (va : Va) (write : Bool) (c : ClusterNo) (s : State) : Host.Outcome State Fault Refusal :=
  .next <|
    let served := match tlbFind s c a (vpnOf va) with
      | some e => !write || (e.dirty && (e.buffer.isNone || e.wframe.isSome))
      | none => false
    if served then s else requestWalk s c a va write

/-- A request that is still aimed at a page of the old home of a migrated page. -/
def aimedAt (s : State) (page : Nat) : Bool :=
  s.dies.toList.any (fun d => d.sync.queue.any fun q => q.pa / 2 ^ 14 == page)
    || (List.finRange 128).any fun c => (heldReqs (s.cluster c)).any fun q => q.pa / 2 ^ 14 == page

/-- A sync page that translations reach again, with nothing aimed at what lay there before, has no drain marker. -/
def clearMarkers (s : State) (e : TlbEntry) : State :=
  match frameDie e.frame0 with
  | none => s
  | some d =>
    let lo := e.frame0 / 2 ^ 14
    let here (p : Nat) : Bool := decide (lo ≤ p) && decide (p < lo + 2 ^ (11 * e.level))
    s.modSync d fun y => { y with drains := y.drains.filter fun p => !here p || aimedAt s p }

/-- WALK_COMPLETE (R321): a walk loads its translation, or faults, or is held at a leaf that is being migrated. -/
def execWalkComplete (id : Nat) (s : State) : Host.Outcome State Fault Refusal :=
  .next <| match s.hub.walk.walks.find? fun w => w.id == id && w.fail.isNone with
  | none => s
  | some w =>
    let s := completeWalk s id
    match tlbFind s w.cluster w.asid (vpnOf w.va) with
    | some e => if e.sync && !(s.hub.walk.walks.any fun x => x.id == id) then clearMarkers s e else s
    | none => s

/-! ### Two-version buffers (R326, R328) -/

/-- A version of a buffer lies in one die's memory. -/
def versionOk (frame pages : Nat) : Bool :=
  match frameDie (frame * 2 ^ 14), frameDie ((frame + pages + 1) * 2 ^ 14 - 1) with
  | some d, some e => d == e
  | _, _ => false

/-- BUFFER_REGISTRATION (R326): header page va[79:14], data pages, and pa[51:14] of the two header pages. -/
def execBufferRegistration (a : BitVec 16) (hbase pages phys0 phys1 : Nat) (s : State) : Host.Outcome State Fault Refusal :=
  .next <|
    let mine := (s.hub.walk.bufs.filter fun b => b.asid == a).length
    if (s.ctx? a).isNone || decide (4096 ≤ mine) || pages == 0 || decide (65536 < pages) || decide (2 ^ 66 ≤ hbase)
        || !versionOk phys0 pages || !versionOk phys1 pages then s
    else s.modWalk fun w =>
      { w with bufs := w.bufs ++ [{ asid := a, hbase := hbase, pages := pages, phys0 := phys0 * 2 ^ 14, phys1 := phys1 * 2 ^ 14,
                                    sel := false, count := 0, total := none, taint := false, flips := 0, vset := false,
                                    curtain := false, nochk := false, exact := false, kach := 0, bound := 0, flipDies := [] }] }

/-- The cores of a die. -/
def coresOf (d : DieNo) : List ClusterNo := (List.finRange 128).filter fun c => dieOf c == d

/-- Changing every TLB of a die. -/
def modTlbs (s : State) (d : DieNo) (f : List TlbEntry → List TlbEntry) : State :=
  (coresOf d).foldl (fun s c => s.modCluster c fun k => { k with tlb := f k.tlb }) (s.modDie d fun x => { x with tlb := f x.tlb })

/-- FLIP_NOTICE (R328, step 3): a die drops the write frames of a buffer's entries. -/
def execFlipNotice (b : Nat) (d : DieNo) (s : State) : Host.Outcome State Fault Refusal :=
  .next <|
    if !s.hub.walk.notices.contains (b, d) then s
    else
      let s := modTlbs s d fun l => l.map fun e => if e.buffer = some b then { e with wframe := none } else e
      s.modWalk fun w => { w with notices := removeFirst (fun x => x == (b, d)) w.notices, noticeAcks := w.noticeAcks ++ [(b, d)] }

/-- FLIP_NOTICE_ACK (R328, step 4): the last acknowledgement completes the flip. -/
def execFlipNoticeAck (b : Nat) (d : DieNo) (s : State) : Host.Outcome State Fault Refusal :=
  .next <|
    if !s.hub.walk.noticeAcks.contains (b, d) then s
    else (s.modBuf b fun x => { x with flipDies := x.flipDies.filter fun y => y != d }).modWalk fun w =>
      { w with noticeAcks := removeFirst (fun x => x == (b, d)) w.noticeAcks }

/-! ### Shoot-downs (R330 to R332) -/

def shoot? (s : State) (id : Nat) : Option Shoot := s.hub.walk.shoots.find? fun x => x.id == id
def modShoot (s : State) (id : Nat) (f : Shoot → Shoot) : State :=
  s.modWalk fun w => { w with shoots := updateFirst (fun x => x.id == id) f w.shoots }
def dropShoot (s : State) (id : Nat) : State := s.modWalk fun w => { w with shoots := w.shoots.filter fun x => x.id != id }

/-- A translation that a shoot-down drops. -/
def Shoot.hits (x : Shoot) (e : TlbEntry) : Bool := e.asid == x.asid && inRange x.range e.vpn e.level

/-- The page that a migration moves: the leaf's address, the leaf and its level. -/
def migLeaf (s : State) (x : Shoot) : Option (Nat × Word × Nat) :=
  match s.ctx? x.asid, x.range with
  | some k, some (vpn, _) =>
    match walkFrom s (vpn * 2 ^ 14) 5 k.root [] with
    | .leaf addr p level _ => if pteMig p then some (addr, p, level) else none
    | .fail => none
  | _, _ => none

/-- What a migration moves: the old home's first address and its bytes, of a page or of a version of a buffer with its header. -/
def migFrame (s : State) (x : Shoot) : Option (Nat × Nat) :=
  match x.version with
  | some (i, v) => (s.buf? i).map fun b => (if v then b.phys1 else b.phys0, (b.pages + 1) * 2 ^ 14)
  | none => if x.migrate.isSome then (migLeaf s x).map fun m => (ptePa m.2.1, levelSize m.2.2) else none

/-- A core writes back its dirty bytes of what is moved at die scope and drops its lines (R333, step 2). -/
def leavePage (s : State) (c : ClusterNo) (f : Nat × Nat) : State :=
  let here (line : Nat) : Bool := inFrames [f] (128 * line)
  let dirty := (s.cluster c).cache.filter fun l => l.dirty != 0 && here l.line
  let s := s.modCluster c fun k =>
    { k with cache := k.cache.filter (fun l => !here l.line), roCache := k.roCache.filter fun l => !here l.line }
  dirty.foldl (fun s l => mergeIntoSlice s (dieOf c) l.line l.data l.dirty l.key l.rfloor l.rceil) s

/-- A die's cores hold dirty bytes, or stores that wait behind a release: the translation directory goes on naming the die, so that
a migration reaches it (R330, R334). -/
def dirtyDie (s : State) (d : DieNo) : Bool :=
  (coresOf d).any fun c => (s.cluster c).cache.any (fun l => l.dirty != 0) || !canRelease s c

/-- SHOOT_DOWN (R331, R333): a die drops the matching entries of its TLBs and acknowledges; for a migration its cores first
give up the page, which waits for the releases that they have under way. -/
def execShootDown (id : Nat) (d : DieNo) (s : State) : Host.Outcome State Fault Refusal :=
  .next <| match shoot? s id with
  | none => s
  | some x =>
    let moves := migFrame s x
    if !x.dies.contains d || s.hub.walk.shootAcks.contains (id, d) || (moves.isSome && (coresOf d).any fun c => !canRelease s c) then s
    else
      let gone := (s.die d).tlb.filter x.hits
      let frames := gone.flatMap fun e => [(e.frame0, levelSize e.level), (e.frame1, levelSize e.level)]
      let s := modTlbs s d fun l => l.filter fun e => !x.hits e
      let s := match moves with
        | some f => (coresOf d).foldl (fun s c => leavePage s c f) s
        | none => s
      let stays := dirtyDie s d
      let left (t : TransDir) : TransDir :=
        if !stays && t.asid == x.asid && inRange x.range t.vpn t.level then { t with mask := t.mask &&& ~~~(dieBit d) } else t
      (modShoot s id fun y => { y with frames := y.frames ++ frames }).modWalk fun w =>
        { w with shootAcks := w.shootAcks ++ [(id, d)], tdir := (w.tdir.map left).filter fun t => t.mask != 0 }

/-! ### Migration (R286, R333) -/

/-- A store of what is moved has still to be performed at its old home (R334). -/
def pageBusy (s : State) (f : Nat × Nat) : Bool :=
  (List.finRange 8).any (fun d => (pendingLines s d).any fun l => inFrames [f] (128 * l)) || inboundBusy s [f]

/-- One line goes from the old frame to the new one, read and written under the page's key slot, poison with it. -/
def moveLine (old new : Nat) (key : BitVec 8) (s : State) (i : Nat) : State :=
  let from_ := old / 128 + i
  let v := deviceLine s from_ key
  let s := deviceWrite (collapseLine s from_) (new + 128 * i) (bytesOfLine v.1) key
  if v.2 then { s with poison := s.poison ++ [new / 128 + i] } else s

/-- An address of the old frame in the new one. -/
def rebase (old new size pa : Nat) : Nat := if old ≤ pa ∧ pa < old + size then new + (pa - old) else pa

/-- A unit's own record of barriers and waits follows the page. -/
def rebaseUnit (old new size : Nat) (u : UnitSt) : UnitSt :=
  let req (q : SyncReq) : SyncReq := let pa := rebase old new size q.pa; { q with pa := pa, die := homeOf (pa / 128) }
  u.modSyncSt fun y => { y with members := y.members.map fun m => { m with pa := rebase old new size m.pa },
                                barawReq := y.barawReq.map req, barwaitReq := y.barwaitReq.map req }

/-- The metadata of a sync page goes to the engine of its new home, and a drain marker stands at the old one: what reaches it
from now on is returned RETRY (R286, steps 4 and 5). -/
def moveSync (s : State) (a : BitVec 16) (vpn old new size : Nat) : State :=
  let d := homeOf (old / 128)
  let e := homeOf (new / 128)
  let here (pa : Nat) : Bool := inFrames [(old, size)] pa
  let inVa (g : Nat) : Bool := decide (vpn * 1024 ≤ g) && decide (g < vpn * 1024 + size / 16)
  let y := (s.die d).sync
  let waiters := (y.waiters.filter fun w => here w.pa).map fun w => { w with pa := rebase old new size w.pa }
  let members := (y.members.filter fun m => here m.pa).map fun m => { m with pa := rebase old new size m.pa }
  let seqs := y.seqs.filter fun x => x.1 == a && inVa x.2.1
  let over_ := (y.overflow.filter here).map (rebase old new size)
  let pages := (List.range (size / 2 ^ 14)).map fun i => old / 2 ^ 14 + i
  let s := s.modSync d fun y =>
    { y with waiters := y.waiters.filter (fun w => !here w.pa), members := y.members.filter (fun m => !here m.pa),
             seqs := y.seqs.filter (fun x => !(x.1 == a && inVa x.2.1)), overflow := y.overflow.filter (fun p => !here p),
             drains := y.drains ++ pages }
  let s := s.modSync e fun y =>
    { y with waiters := y.waiters ++ waiters, members := y.members ++ members, seqs := y.seqs ++ seqs,
             overflow := y.overflow ++ over_,
             drains := y.drains.filter fun p => !(decide (new / 2 ^ 14 ≤ p) && decide (p < (new + size) / 2 ^ 14)) }
  { s with units := s.units.map (rebaseUnit old new size) }

/-- The leaf of a migrated page: its new frame, MIG clear. -/
def movedLeaf (p : Word) (new : Nat) : Word :=
  (p &&& ~~~(0x003FFFFFFFFF0100#64)) ||| ((BitVec.ofNat 64 (new / 2 ^ 14 % 2 ^ 38)) <<< 16)

/-- The walks that a migration held are released, and its shoot-down is over. -/
def releaseWalks (s : State) (x : Shoot) : State :=
  dropShoot (s.modWalk fun w => { w with held := w.held.filter fun k => !(k.asid == x.asid && inRange x.range (vpnOf k.va) 0) }) x.id

/-- The end of the move of a version of a buffer (R333): its lines stand in the new frames, each under the key slot it was written
under, and PHYS0 or PHYS1 names them. -/
def finishVersion (s : State) (x : Shoot) (i : Nat) (v : Bool) (new : Nat) : State :=
  match migFrame s x with
  | none => dropShoot s x.id
  | some (old, size) =>
    let s := (List.range (size / 128)).foldl (fun s n =>
      let s := collapseLine s (old / 128 + n)
      moveLine old new (lineKey s (old / 128 + n)) s n) s
    releaseWalks (s.modBuf i fun b => if v then { b with phys1 := new } else { b with phys0 := new }) x

/-- The end of a migration (R333, steps 3 and 4): every copy collapsed, the page copied, the leaf written, and the walks
that were held released. -/
def finishMigration (s : State) (x : Shoot) (new : Nat) : State :=
  match x.version with
  | some (i, v) => finishVersion s x i v new
  | none =>
  match migLeaf s x with
  | none => dropShoot s x.id
  | some (addr, p, level) =>
    let old := ptePa p
    let size := levelSize level
    let vpn := (x.range.map Prod.fst).getD 0
    let s := (List.range (size / 128)).foldl (moveLine old new (pteKey p)) s
    let s := if pteSync p then moveSync s x.asid vpn old new size else s
    releaseWalks (deviceWrite s addr (leBytes (movedLeaf p new).toNat 8) 0) x

/-- SHOOT_DOWN_ACK (R331, R333): the last acknowledgement lets a TLBI issue, and a migration go on, once no store of the page
is on its way to its old home. -/
def execShootDownAck (id : Nat) (d : DieNo) (s : State) : Host.Outcome State Fault Refusal :=
  .next <| match shoot? s id with
  | none => s
  | some x =>
    if !s.hub.walk.shootAcks.contains (id, d) && !(x.dies.isEmpty && x.migrate.isSome) then s
    else
      let left := x.dies.filter fun y => y != d
      let busy := match migFrame s x with
        | some f => left.isEmpty && pageBusy s f
        | none => false
      if busy then s
      else
        let s := (modShoot s id fun y => { y with dies := left }).modWalk fun w =>
          { w with shootAcks := removeFirst (fun y => y == (id, d)) w.shootAcks }
        let live := match x.waiter.bind s.unit? with | some u => u.live | none => false
        if !left.isEmpty then s
        else match x.migrate with
          | some new => finishMigration s { x with dies := left } new
          | none => if live then s else dropShoot s id

/-- A migration's shoot-down, finished at once where the mask names no die (R330) and no store is on its way. -/
def startMove (s : State) (a : BitVec 16) (r : Nat × Nat) (new : Nat) (version : Option (Nat × Bool)) : State :=
  let id := s.nextReq
  let s := modShoot (startShoot s a (some r) (some new) none) id fun x => { x with version := version }
  match shoot? s id with
  | some x =>
    let busy := match migFrame s x with | some f => pageBusy s f | none => false
    if x.dies.isEmpty && !busy then finishMigration s x new else s
  | none => s

/-- The move of a version of the buffer that a TVG page lies in: a buffer in no flip and in no other move.  Which version the firmware
moves is its choice, a free value; walks to the buffer hold meanwhile. -/
def moveVersion (s : State) (a : BitVec 16) (vpn new : Nat) : State :=
  match (bufOf s a vpn).bind fun i => (s.buf? i).map fun b => (i, b) with
  | none => s
  | some (i, b) =>
    if !b.flipDies.isEmpty || versionMoves s i || !versionOk (new / 2 ^ 14) b.pages then s
    else
      let (w, s) := s.freeWord
      startMove s a (b.hbase, b.pages + 1) new (some (i, w.getLsbD 0))

/-- PAGE_MIGRATION (R333, step 1): MIG is set in the leaf of a page outside every buffer, and its translations are shot down;
`frame` is pa[51:14] of its new home.  For a page of a buffer a whole version of it moves. -/
def execPageMigration (a : BitVec 16) (va : Va) (frame : Nat) (s : State) : Host.Outcome State Fault Refusal :=
  .next <| match s.ctx? a with
  | none => s
  | some k =>
    match walkFrom s va.toNat 5 k.root [] with
    | .fail => s
    | .leaf addr p level _ =>
      let new := frame * 2 ^ 14
      let size := levelSize level
      let alive (pa : Nat) : Bool := match frameDie pa with | some d => !(s.die d).lost | none => false
      if !leafOk s a (vpnOf va) p level || pteMig p || !alive new then s
      else if pteTvg p then moveVersion s a (vpnOf va) new
      else if !alive (ptePa p) || new % size != 0 || !frameOk new size then s
      else
        let s := deviceWrite s (addr + 1) [p.extractLsb' 8 8 ||| 1] 0
        let vpn := pageBase (vpnOf va) level
        startMove s a (vpn, 2 ^ (11 * level)) new none

/-! ### Budget periods (R380, R381) -/

/-- BUDGET_PERIOD_START (R381): a period of one resource begins for every context: the excess is carried, and the requests
that waited are admitted in order. -/
def startPeriod (s : State) (r : Fin 19) : State :=
  s.modHub fun h => { h with contexts := h.contexts.map fun k => { k with budgets := k.budgets.set r (k.budgets.get r).period } }

/-- BUDGET_PERIOD_START. -/
def execBudgetPeriodStart (r : Fin 19) (s : State) : Host.Outcome State Fault Refusal := .next (startPeriod s r)

/-- Periods of resources begin, n times. -/
def beginPeriods (rs : List (Fin 19)) : Nat → State → State
  | 0, s => s
  | n + 1, s => beginPeriods rs n (rs.foldl startPeriod s)

end Sys2Proof.Machine
end

