-- ==== Sys2Proof/Machine/Links.lean ====
section
/-! DEFINITION.
The hub links: snoops to a waking link (R311, R312), and the loss of a die (R22, R313, R314). -/

namespace Sys2Proof.Machine

/-! ### The directory at the loss of a die (R314) -/

/-- A line homed on a die. -/
def homedOn (d : DieNo) (line : Nat) : Bool := homeOf line == d && frameDie (128 * line) == some d

/-- The forward of a line to its owner, still on its way. -/
def forwardFor (s : State) (line : Nat) (owner : DieNo) : Option Msg :=
  s.hub.dir.net.find? fun m => m.toDie && m.die == owner && m.line == line &&
    (m.kind == .fwdGetS || m.kind == .fwdGetSNF || m.kind == .fwdGetM)

/-- A poisoned line goes to the die that a forward was for. -/
def poisonedForward (s : State) (e : DirEntry) (q : DirReq) : State :=
  let kind : MsgKind := if q.kind == .getS && !e.sharers.getLsbD q.die.val then .dataNF else .fwdData
  sendMsg s { toDie kind q.die e.line with poison := true, key := q.key, shared := q.kind == .getS }

/-- A line is marked as poisoned at its home. -/
def poisonLine (s : State) (line : Nat) : State := if s.poison.contains line then s else { s with poison := s.poison ++ [line] }

/-- The entry without a die: no sharer, no owner, nothing awaited of it, no request of it. -/
def DirEntry.without (e : DirEntry) (d : DieNo) : DirEntry :=
  let bit := ~~~(dieBit d)
  { e with sharers := e.sharers &&& bit, invs := e.invs &&& bit, rdis := e.rdis &&& bit, pushes := e.pushes &&& bit,
           helpers := e.helpers &&& bit, redirects := e.redirects &&& bit, owner := if e.owner = some d then none else e.owner,
           queue := e.queue.filter (fun q => q.die != d), late := e.late.filter fun x => x != d }

/-- An entry as the loss of a die leaves it.  Lines that the die owned are poisoned; a forward to it completes with poisoned
data; a request of its own is forgotten, and a forward for it that the owner has not received is taken back. -/
def loseEntry (d : DieNo) (s : State) (e : DirEntry) : State :=
  let owned := e.owner == some d
  let s := if owned then poisonLine s e.line else s
  let e1 := e.without d
  match e.cur with
  | none =>
    if owned && e.fwd then let e1 := { e1 with fwd := false }
                           sendPushes (setEntry s e1) e1
    else setEntry s e1
  | some q =>
    if q.die = d then
      match e.st with
      | .iD => (setEntry s { e1 with cur := none, st := .i }).modDir fun x => { x with mem := removeFirst (fun m => m == (e.line, true)) x.mem }
      | .mFA | .mFS =>
        match e.owner.bind fun o => forwardFor s e.line o with
        | some m => setEntry (popMsg s m) { e1 with cur := none, fwd := false }.rest
        | none =>
          let gone := e.st == .mFA
          setEntry (if gone then poisonLine s e.line else s) { e1 with cur := none, fwd := false, owner := if gone then none else e1.owner }.rest
      | _ => setEntry s { e1 with cur := none }
    else if owned && e.fwd then
      let s := poisonedForward s e q
      setEntry s { e1 with fwd := false }
    else setEntry s e1

/-- Redirect entries that name a lost die as helper are removed. -/
def loseRedirects (d : DieNo) (s : State) : State :=
  (List.finRange 8).foldl (fun s k =>
    ((s.die k).redirects.filter fun r => r.helper == d).foldl (fun s r => dropRedirect s k r.line) s) s

/-- The directory, the slices and the messages at the loss of a die: lines homed there can be reached no more. -/
def loseLines (s : State) (d : DieNo) : State :=
  let s := (s.hub.dir.entries.filter fun e => !homedOn d e.line).foldl (loseEntry d) s
  let s := loseRedirects d s
  let s := s.modDir fun x =>
    { x with entries := x.entries.filter (fun e => !homedOn d e.line), hot := x.hot.filter (fun h => !homedOn d h.line),
             mem := x.mem.filter (fun m => !homedOn d m.1),
             net := x.net.filter fun m => m.die != d && !homedOn d m.line && !(m.toDie && m.req == d && m.kind != .inv) }
  let s := (List.finRange 8).foldl (fun s k => s.modDie k fun x =>
    { x with lines := if k = d then [] else x.lines.filter (fun l => !homedOn d l.line),
             redirects := if k = d then [] else x.redirects.filter fun r => !homedOn d r.line }) s
  (s.hub.dir.entries.map fun e => e.line).foldl settleEntry s

/-! ### The synchronisation engine at the loss of its die -/

/-- A request that its die's loss leaves without an answer: a prompter takes DIE_LOST for it, a copy command faults, and a
unit that the loss freezes anyway only loses its entry (R22). -/
def loseRequest (d : DieNo) (s : State) (q : SyncReq) : State :=
  let r : SyncReply := { req := q, value := 0, code := cDieLost, va := BitVec.ofNat 80 d.val, retry := false, near := false }
  match s.unit? q.uid with
  | none => s
  | some u =>
    if q.copyEng.isSome then copyReply s r
    else if u.isPrompter && u.live && !q.posted then replyFault s r
    else s.modUnit q.uid fun u => dropEntry u q.id

/-- Waits at a barrier of the lost die end without a status. -/
def loseWait (d : DieNo) (u : UnitSt) : UnitSt :=
  let there (q : Option SyncReq) : Bool := match q with | some q => q.die == d | none => false
  let u : UnitSt := if there u.sync.barawReq then { u with pend := u.pend.filter fun e => !e.baraw } else u
  u.modSyncSt fun y =>
    { y with barawReq := if there y.barawReq then none else y.barawReq, barwaitReq := if there y.barwaitReq then none else y.barwaitReq }

def loseEngine (s : State) (d : DieNo) : State :=
  let y := (s.die d).sync
  let s := (y.queue ++ y.replies.map fun r => r.req).foldl (loseRequest d) s
  let s := s.modSync d fun _ => Die.reset.sync
  { s with units := s.units.map (loseWait d) }

/-! ### Units at the loss of a die (R22) -/

/-- A surviving unit of a context that has touched the die freezes at its next bundle boundary, or has the loss noted in its
freeze record. -/
def noteLoss (d : DieNo) (s : State) (i : Nat) : State :=
  match s.unit? i with
  | none => s
  | some u =>
    if !lossConcerns s u d || dieOf u.ident.cluster == d then s
    else if u.isFrozen then s.setUnit i (u.modRun fun r => { r with dieLost := true, lostAt := d })
    else noteFault s i (lossRec u d)

/-- A unit of the lost die completes with status LOST; one that will be executed again is counted as outstanding. -/
def loseUnit (d : DieNo) (prompters : Bool) (s : State) (i : Nat) : State :=
  match s.unit? i with
  | none => s
  | some u =>
    if !u.live || dieOf u.ident.cluster != d || u.isPrompter != prompters then s
    else
      let s := match u.ident.launch with | some li => if againAllowed u then recount s li else s | none => s
      endUnit s i .lost

/-- A cluster of the lost die: what waits there for a launch ends, its transforms fault, and its state is gone. -/
def loseCluster (s : State) (c : ClusterNo) : State :=
  let k := s.cluster c
  let s := match k.shadowWings with | some li => placeOn s li c | none => s
  let lost := (k.transforms ++ k.eng.toList.flatMap fun e => e.queue).filterMap fun x => x.transform
  let s := lost.foldl (fun s x => if h : x.1 < 64 then faultTransform s ⟨x.1, h⟩ x.2 cDieLost else s) s
  { s.setCluster c { Cluster.reset with cyc := k.cyc } with active := s.active.filter fun x => x != c }

/-- What the walker complex still awaited of the lost die counts as acknowledged. -/
def loseWalks (s : State) (d : DieNo) : State :=
  s.modWalk fun w =>
    { w with walks := w.walks.filter (fun x => x.die != d), held := w.held.filter (fun x => x.die != d),
             notices := w.notices.filter (fun x => x.2 != d),
             noticeAcks := w.noticeAcks ++ (w.notices.filter fun x => x.2 == d),
             tdir := (w.tdir.map fun t => { t with mask := t.mask &&& ~~~(dieBit d) }).filter (fun t => t.mask != 0),
             shootAcks := w.shootAcks ++ (w.shoots.filter (fun x => x.dies.contains d && !w.shootAcks.contains (x.id, d))).map fun x => (x.id, d) }

/-- A die is declared lost (R22, R313, R314). -/
def loseDie (s : State) (d : DieNo) : State :=
  if (s.die d).lost then s
  else
    let s := s.modDie d fun x => { x with lost := true, link := .lost }
    let s := loseEngine (loseLines s d) d
    let us := List.range s.units.length
    let s := us.foldl (noteLoss d) s
    let s := us.foldl (loseUnit d false) s
    let s := us.foldl (loseUnit d true) s
    let s := (coresOf d).foldl loseCluster s
    let s := loseWalks s d
    s.modDie d fun x => { Die.reset with lost := true, link := .lost, counters := x.counters, dieCyc := x.dieCyc }

/-! ### Links (R311 to R313) -/

/-- An event reported to the error-handling firmware. -/
def reportEvent (s : State) (code : BitVec 8) (arg : Nat) : State :=
  s.setMod { s.mod with errEvents := s.mod.errEvents ++ [(code, arg)] }

/-- SNOOP_TIMER_EXPIRY (R312, R313): a timer to a link in training expires; the link is woken again, and after the last re-wake
the error-handling firmware's health check decides. -/
def execSnoopTimerExpiry (d : DieNo) (s : State) : Host.Outcome State Fault Refusal :=
  .next <|
    let x := s.die d
    if x.link != .training then s
    else
      let s := (reportEvent s 0x01 d.val).modDie d fun x => { x with counters := { x.counters with waketo := x.counters.waketo + 1 } }
      if x.rewakes < dirRewake s then s.modDie d fun x => { x with rewakes := x.rewakes + 1 }
      else
        let (b, s) := s.freeWord
        if b.getLsbD 0 then s.modDie d fun x => { x with rewakes := 0 } else loseDie (reportEvent s 0x03 d.val) d

/-- LINK_TRAINING_COMPLETE (R312): the link is active and its messages are delivered. -/
def execLinkTrainingComplete (d : DieNo) (s : State) : Host.Outcome State Fault Refusal :=
  .next (if (s.die d).link = .training then s.modDie d fun x => { x with link := .active, rewakes := 0 } else s)

/-- LINK_TRAIN_FAIL (R313): training reports failure and the die is lost. -/
def execLinkTrainFail (d : DieNo) (s : State) : Host.Outcome State Fault Refusal :=
  .next (if (s.die d).link = .lost then s else loseDie (reportEvent s 0x02 d.val) d)

end Sys2Proof.Machine
end

