-- ==== Sys2Proof/Machine/Timekeeper.lean ====
section
/-! DEFINITION.
The timekeeper (R382 to R385), the strike of a deadline (R386), and the curtain message (R387 to R392). -/

namespace Sys2Proof.Machine

/-! ### Time (R382, R384) -/

/-- A change of the timekeeper. -/
def modTk (s : State) (f : Timekeeper → Timekeeper) : State := s.modHub fun h => { h with tk := f h.tk }

/-- Every registered deadline that TAI has reached strikes (R386). -/
def strikeDue (s : State) : State :=
  s.modHub fun h => { h with launches := h.launches.map fun l =>
    match l.deadline with
    | some d => if l.registered && !l.struck && !l.done && decide (d ≤ h.tk.tai) then { l with struck := true } else l
    | none => l }

/-- Cycles of the hub clock: the periods of the hub's resources begin at multiples of 65,536 (R5, R380). -/
def countHubCycles (s : State) (n : Nat) : State :=
  beginPeriods [0, 1, 2] ((s.hub.cycles + n) / 65536 - s.hub.cycles / 65536) (s.modHub fun h => { h with cycles := h.cycles + n })

/-- Hub cycles pass: 0.625 ns each at the steered rate (R382, R383). -/
def passHubCycles (s : State) (n : Nat) : State :=
  strikeDue (modTk (countHubCycles s n) fun t =>
    let f := t.frac + n * (5 * (1000000000 + t.rate).toNat)
    { t with tai := t.tai + f / 8000000000, frac := f % 8000000000 })

/-- Fields of TKCTL (R385). -/
def Timekeeper.src (t : Timekeeper) : BitVec 2 := t.ctl.extractLsb' 0 2
def Timekeeper.pps (t : Timekeeper) : Bool := t.ctl.getLsbD 11

/-- The greatest offset that is slewed: 1 ms (R384). -/
def slewLimit : Nat := 1000000

/-- An offset as OFFSET holds it: signed, saturating (R385). -/
def offsetField (x : Int) : BitVec 32 := BitVec.ofInt 32 (max (-(2 ^ 31)) (min (2 ^ 31 - 1) x))

/-- A step of TAI (R384). -/
def stepTai (s : State) (tai : Nat) : State := strikeDue (modTk s fun t => { t with tai := tai, frac := 0, stepped := true })

/-- A measured offset is corrected (R384): up to 1 ms by a rate that the manual bounds and does not give, beyond it by one
step.  The source that measured it is in use and locked. -/
def discipline (s : State) (src : BitVec 2) (offset : Int) : State :=
  let s := modTk s fun t => { t with lock := true, hold := false, active := src, offset := offsetField offset }
  if offset.natAbs ≤ slewLimit then
    let (x, s) := s.freeWord
    modTk s fun t => { t with rate := offset.sign * ((x.toNat % 200001 : Nat) : Int) }
  else stepTai s ((s.hub.tk.tai : Int) + offset).toNat

/-- PTP_MESSAGE (R383): the offset of a master's time from TAI; a master that announces the ARB timescale is ignored. -/
def execPtpMessage (offset : Int) (arb : Bool) (s : State) : Host.Outcome State Fault Refusal :=
  .next (if s.hub.tk.src = 1 && !arb then discipline s 1 offset else s)

/-- PPS_INPUT (R383): the second is aligned to the edge, the nearest second being meant. -/
def execPpsInput (s : State) : Host.Outcome State Fault Refusal :=
  .next <|
    let t := s.hub.tk
    let ns := t.tai % 1000000000
    if t.src = 1 && t.pps then discipline s 1 (if ns < 500000000 then -(ns : Int) else 1000000000 - (ns : Int)) else s

/-- PTM_RESPONSE (R382, R383): the host's PTM time is taken as TAI. -/
def execPtmResponse (time : Nat) (s : State) : Host.Outcome State Fault Refusal :=
  .next (if s.hub.tk.src = 2 then discipline s 2 ((time : Int) - s.hub.tk.tai) else s)

/-- HOLDOVER_ENTRY (R384): the source has fallen silent; the timekeeper runs on at its last rate. -/
def execHoldoverEntry (s : State) : Host.Outcome State Fault Refusal :=
  .next (if s.hub.tk.src = 0 then s else modTk s fun t => { t with hold := true, lock := false })

/-- A write of TKSET (R385): a step to whole seconds while free-running. -/
def writeTkset (s : State) (v : Word) : State :=
  if s.hub.tk.src = 0 then stepTai s ((v.extractLsb' 0 48).toNat * 1000000000) else s

/-- TKSET. -/
def execTkset (v : Word) (s : State) : Host.Outcome State Fault Refusal := .next (writeTkset s v)

/-- TAI's seconds and nanoseconds. -/
def Timekeeper.sec (t : Timekeeper) : BitVec 48 := BitVec.ofNat 48 (t.tai / 1000000000)
def Timekeeper.ns (t : Timekeeper) : BitVec 32 := BitVec.ofNat 32 (t.tai % 1000000000)

/-- A read of TKTAIS latches the nanoseconds. -/
def latchTai (s : State) : State := modTk s fun t => { t with tain := t.ns }

/-- TKTAIS_READ. -/
def execTktaisRead (s : State) : Host.Outcome State Fault Refusal := .next (latchTai s)

/-- A write of TKCTL: the reserved source is not taken; another source is in use and not yet locked. -/
def writeTkctl (s : State) (v : Word) : State :=
  let new : BitVec 24 := v.extractLsb' 0 24 &&& 0xFF0FFF
  modTk s fun t =>
    let src := if new.extractLsb' 0 2 = 3 then t.src else new.extractLsb' 0 2
    let t' := { t with ctl := (new &&& 0xFFFFFC) ||| src.setWidth 24 }
    if src = t.src then t' else { t' with active := src, lock := false, hold := false }

/-! ### The strike (R386, R388) -/

/-- DEADLINE_STRIKE (R386): TAI reaches the deadline of a registered launch. -/
def execDeadlineStrike (li : Nat) (s : State) : Host.Outcome State Fault Refusal :=
  .next <| match s.launch? li with
  | none => s
  | some l =>
    match l.deadline with
    | some d =>
      if l.registered && !l.struck && !l.done then
        strikeDue (modTk s fun t => if t.tai < d then { t with tai := d, frac := 0 } else t)
      else s
    | none => s

/-! ### The message (R388, R389) -/

/-- The message for a launch has still to reach a core: a unit of it there has not been struck. -/
def messageDue (s : State) (li : Nat) (c : ClusterNo) : Bool :=
  s.units.any fun u => u.ident.launch == some li && u.ident.cluster == c && u.live && !u.curt.struck

/-- The reach window of a struck unit (R392): CPI unheld cycles, none with no curtain entry, and none once a drain has
begun. -/
def reachWindow (s : State) (u : UnitSt) : Option Nat :=
  match unitRecord s u with
  | some r => if r.noent || u.run.drainLevel.isSome then none else some r.cpi
  | none => none

/-- What the message does to a unit, by its status at receipt (R389). -/
def strikeUnit (li : Nat) (c : ClusterNo) (s : State) (i : Nat) : State :=
  match s.unit? i with
  | none => s
  | some u =>
    if !(u.ident.launch == some li && u.ident.cluster == c && u.live && !u.curt.struck) then s
    else
      let hit (s : State) (window : Option Nat) : State :=
        s.modUnit i fun u => u.modCurt fun x => { x with struck := true, window := window }
      if u.isFrozen then
        (curtainArray (hit s none) i c).modUnit i fun u => u.modRun fun r => { r with curtFrozen := true }
      else if u.run.bundles = 0 then endUnit (hit s none) i .curtain
      else hit s (reachWindow s u)

/-- CURTAIN_MESSAGE (R388): the message of a struck launch reaches every unit of it on a core in one core cycle. -/
def execCurtainMessage (li : Nat) (c : ClusterNo) (s : State) : Host.Outcome State Fault Refusal :=
  .next <| match s.launch? li with
  | none => s
  | some l =>
    if !l.struck || !messageDue s li c then s
    else
      let s := (List.range s.units.length).foldl (strikeUnit li c) s
      rebuildOrder (s.modLaunch li fun l => { l with curtain := true }) c

end Sys2Proof.Machine
end

