-- ==== Sys2Proof/Machine/Module.lean ====
section
/-! DEFINITION.
The module (R416 to R424): reset, failure, attestation, power and heat, and the registers of the hub management window
(R417). -/

namespace Sys2Proof.Machine

/-! ### Reset and failure (R419, R423) -/

/-- A module reset (R423): the machine as reset leaves it.  The flash stays, so the same image slot boots; what the
outside has still to do, and the model's own counters, go on. -/
def resetModule (s : State) : State :=
  { State.reset with inputs := s.inputs, nextReq := s.nextReq, fresh := s.fresh,
                     mod := { ModuleSt.reset with img := s.mod.img } }

/-- A module failure (R423): FAIL and CODE, MSI-X vector 0, an AER uncorrectable fatal error, every cluster stopped. -/
def failModule (s : State) (code : BitVec 8) : State :=
  s.setMod { s.mod with fail := true, code := code, stopped := true, msix := s.mod.msix ||| 1, aerFatal := s.mod.aerFatal + 1 }

/-- MODULE_RESET. -/
def execModuleReset (s : State) : Host.Outcome State Fault Refusal := .next (resetModule s)

/-- A write of MRESET: only 0x0000_A5A5 resets. -/
def writeMreset (s : State) (v : Word) : State := if v = 0xA5A5 then resetModule s else s

/-- MRESET. -/
def execMreset (v : Word) (s : State) : Host.Outcome State Fault Refusal := .next (writeMreset s v)

/-- HUB_DIE_FAULT (R23). -/
def execHubDieFault (s : State) : Host.Outcome State Fault Refusal := .next (failModule s 0x02)

/-- THERMAL_TRIP (R422). -/
def execThermalTrip (s : State) : Host.Outcome State Fault Refusal := .next (failModule s 0x03)

/-- POWER_STAGE_FAULT. -/
def execPowerStageFault (s : State) : Host.Outcome State Fault Refusal := .next (failModule s 0x04)

/-! ### Attestation (R421) -/

/-- A write of ATTCTL: GO starts a report unless one is under way. -/
def writeAttctl (s : State) (v : Word) : State :=
  if v.getLsbD 0 && !s.mod.attBusy then s.setMod { s.mod with attBusy := true, attDone := false, report := [] } else s

/-- ATTESTATION_GO. -/
def execAttestationGo (v : Word) (s : State) : Host.Outcome State Fault Refusal := .next (writeAttctl s v)

/-- The report of core 0: the nonce, then fields whose lengths and values no rule gives. -/
def attReport (s : State) : List Byte :=
  leBytes s.mod.nonce.toNat 32 ++ (List.range (8192 - 32)).map fun i => Config.attestationByte s.fresh i

/-- ATTESTATION_DONE. -/
def execAttestationDone (s : State) : Host.Outcome State Fault Refusal :=
  .next (if s.mod.attBusy then
    { s.setMod { s.mod with attBusy := false, attDone := true, report := attReport s } with fresh := s.fresh + 1 } else s)

/-! ### Power and heat (R422) -/

/-- The cluster whose hold line is raised next in the rotation. -/
def nextThrottled (s : State) : ClusterNo :=
  match (List.finRange 128).find? fun c => (s.cluster c).throttled with
  | some c => c + 1
  | none => 0

/-- No cluster held. -/
def releaseThrottle (s : State) : State := { s with clusters := s.clusters.map fun k => { k with throttled := false } }

/-- POWER_THROTTLE: the hold lines of clusters in rotation, and THROT. -/
def execPowerThrottle (on : Bool) (s : State) : Host.Outcome State Fault Refusal :=
  .next <|
    let c := nextThrottled s
    let s := (releaseThrottle s).setMod { s.mod with throt := on }
    if on then s.modCluster c fun k => { k with throttled := true } else s

/-- PWRCAP clamps what is written to it. -/
def clampCap (v : Word) : BitVec 12 :=
  let x := (v.extractLsb' 0 12).toNat
  BitVec.ofNat 12 (max 800 (min 2200 x))

/-- A read of PWRNOW: a mean power and a temperature that no rule computes. -/
def readPwrnow (s : State) : Word × State :=
  let v : BitVec 24 := Config.powerReading s.fresh &&& 0xFF0FFF
  (v.setWidth 64, { s.setMod { s.mod with pwrnow := v } with fresh := s.fresh + 1 })

/-! ### Registers of the hub management window (R417) -/

/-- MSTAT (R418). -/
def ModuleSt.mstat (m : ModuleSt) : Word :=
  (0#40) ++ m.dies ++ m.code ++ BitVec.ofBool m.img ++ BitVec.ofBool m.throt ++ BitVec.ofBool m.fail ++ BitVec.ofBool m.ready ++ m.stage

/-- TKCTL as it reads: HOLDS of 0 reads as 1 (R385). -/
def Timekeeper.ctlReg (t : Timekeeper) : Word := (if t.ctl.extractLsb' 16 8 = 0 then t.ctl ||| 0x010000 else t.ctl).setWidth 64

/-- TKSTAT (R385). -/
def Timekeeper.statReg (t : Timekeeper) : Word :=
  t.offset ++ (0#27) ++ BitVec.ofBool t.stepped ++ t.active ++ BitVec.ofBool t.hold ++ BitVec.ofBool t.lock

/-- APCTL or XCTL (R405, R414). -/
def Aperture.ctlReg (a : Aperture) : Word := (0#31) ++ BitVec.ofBool a.en ++ a.asid ++ a.vahi

/-- An Estal port's status (R415). -/
def EstalPort.statReg (p : EstalPort) : Word :=
  (0#16) ++ p.retry ++ (0#2) ++ BitVec.ofBool p.maxg1 ++ p.peer ++ BitVec.ofBool p.x4 ++ p.gen

/-- The counters of a region or of a die, in the order of R310's table. -/
def Region.counts (r : Region) : List (BitVec 16) := [r.fills, r.nofill, r.collapses, r.pushes, r.dchg, r.rhits]
def DieCounters.counts (c : DieCounters) : List (BitVec 48) :=
  [c.fills, c.nofill, c.collapses, c.pushes, c.dchg, c.rhits, c.waketo]

/-- Counter i of the region that RSEL selects; a region without a table entry reads zero. -/
def regionCount (s : State) (i : Nat) : Word :=
  match s.hub.dir.regions.find? fun r => r.region == s.mod.rsel with
  | some r => (r.counts.getD i 0).setWidth 64
  | none => 0

/-- Eight bytes of a list. -/
def wordOf (bs : List Byte) (off : Nat) : Word := BitVec.ofNat 64 (leNat ((bs.drop off).take 8))

/-- An aligned 8-byte read of the hub management window; `none` at an offset not listed. -/
def mgmtRead (s : State) (off : Nat) : Option (Word × State) :=
  let pure (w : Word) : Option (Word × State) := some (w, s)
  if off = 0x0000 then pure s.mod.mstat
  else if off = 0x0008 then pure 0
  else if off = 0x0010 then pure (s.mod.pwrcap.setWidth 64)
  else if off = 0x0018 then some (readPwrnow s)
  else if off = 0x1000 then pure s.hub.tk.ctlReg
  else if off = 0x1008 then pure s.hub.tk.statReg
  else if off = 0x1010 then some (s.hub.tk.sec.setWidth 64, latchTai s)
  else if off = 0x1018 then pure (s.hub.tk.tain.setWidth 64)
  else if off = 0x1020 then pure 0
  else if off = 0x1028 then pure (BitVec.ofNat 13 (liveDeadlines s) |>.setWidth 64)
  else if off = 0x2000 then pure s.hub.ap.base
  else if off = 0x2008 then pure s.hub.ap.ctlReg
  else if off = 0x2010 then pure s.hub.xap.base
  else if off = 0x2018 then pure s.hub.xap.ctlReg
  else if h : 0x2100 ≤ off ∧ off < 0x2180 then pure (s.hub.ports[(off - 0x2100) / 8]'(by omega)).statReg
  else if off = 0x3000 then pure ((0#61) ++ BitVec.ofBool s.mod.attBusy ++ BitVec.ofBool s.mod.attDone ++ 0#1)
  else if 0x3040 ≤ off ∧ off < 0x3060 then pure (s.mod.nonce.extractLsb' (8 * (off - 0x3040)) 64)
  else if 0x4000 ≤ off ∧ off < 0x6000 then pure (if s.mod.attBusy then 0 else wordOf s.mod.report (off - 0x4000))
  else if off = 0x6000 then pure (BitVec.ofNat 64 s.mod.rsel)
  else if 0x6008 ≤ off ∧ off < 0x6038 then pure (regionCount s ((off - 0x6008) / 8))
  else if h : 0x6100 ≤ off ∧ off < 0x6300 then
    let i := (off - 0x6100) % 64 / 8
    if i < 7 then pure (((s.dies[(off - 0x6100) / 64]'(by omega)).counters.counts.getD i 0).setWidth 64) else none
  else if 0x10000 ≤ off ∧ off < 0x100000 then pure (BitVec.ofNat 64 (Memory.readLe s.mod.update (off - 0x10000) 8))
  else none

/-- A write of an aperture's control register: one that names an ASID with no resident context clears EN (R405). -/
def apertureCtl (s : State) (a : Aperture) (v : Word) : Aperture :=
  { a with vahi := v.extractLsb' 0 16, asid := v.extractLsb' 16 16, en := v.getLsbD 32 && (s.ctx? (v.extractLsb' 16 16)).isSome }

/-- BASE without the bits that writes ignore. -/
def apertureBase (a : Aperture) (v : Word) : Aperture := { a with base := v &&& ~~~0x3FFF#64 }

def writeApctl (s : State) (v : Word) : State := s.modHub fun h => { h with ap := apertureCtl s h.ap v }
def writeXctl (s : State) (v : Word) : State := s.modHub fun h => { h with xap := apertureCtl s h.xap v }

/-- APCTL_WRITE (R405). -/
def execApctlWrite (v : Word) (s : State) : Host.Outcome State Fault Refusal := .next (writeApctl s v)

/-- XCTL_WRITE (R414). -/
def execXctlWrite (v : Word) (s : State) : Host.Outcome State Fault Refusal := .next (writeXctl s v)

/-- A write of a port's status register (R415): MAXG1 alone is writable, and a write of it retrains the port. -/
def writePortStatus (s : State) (p : Fin 16) (v : Word) : State :=
  s.modHub fun h => { h with ports := h.ports.set p { h.ports.get p with maxg1 := v.getLsbD 13, training := true } }

/-- ESTAL_PORT_STATUS_WRITE. -/
def execEstalPortStatusWrite (p : Fin 16) (v : Word) (s : State) : Host.Outcome State Fault Refusal :=
  .next (writePortStatus s p v)

/-- Eight bytes of the nonce, while no report is under way (R421). -/
def writeNonce (s : State) (lo : Nat) (v : Word) : State :=
  if s.mod.attBusy then s
  else s.setMod { s.mod with nonce := (s.mod.nonce &&& ~~~((0xFFFFFFFFFFFFFFFF#256) <<< lo)) ||| (v.setWidth 256 <<< lo) }

/-- An aligned 8-byte write of the hub management window; `none` at an offset not listed. -/
def mgmtWrite (s : State) (off : Nat) (v : Word) : Option State :=
  if off = 0x0008 then some (writeMreset s v)
  else if off = 0x0010 then some (s.setMod { s.mod with pwrcap := clampCap v })
  else if off = 0x1000 then some (writeTkctl s v)
  else if off = 0x1008 then some (modTk s fun t => { t with stepped := t.stepped && !v.getLsbD 4 })
  else if off = 0x1020 then some (writeTkset s v)
  else if off = 0x2000 then some (s.modHub fun h => { h with ap := apertureBase h.ap v })
  else if off = 0x2008 then some (writeApctl s v)
  else if off = 0x2010 then some (s.modHub fun h => { h with xap := apertureBase h.xap v })
  else if off = 0x2018 then some (writeXctl s v)
  else if h : 0x2100 ≤ off ∧ off < 0x2180 then some (writePortStatus s ⟨(off - 0x2100) / 8, by omega⟩ v)
  else if off = 0x3000 then some (writeAttctl s v)
  else if 0x3040 ≤ off ∧ off < 0x3060 then some (writeNonce s (8 * (off - 0x3040)) v)
  else if off = 0x6000 then some (s.setMod { s.mod with rsel := (v.extractLsb' 0 38).toNat })
  else if 0x10000 ≤ off ∧ off < 0x100000 then some (s.setMod { s.mod with update := Memory.writeLe s.mod.update (off - 0x10000) 8 v.toNat })
  else if (mgmtRead s off).isSome then some s
  else none

/-- REGISTER_WRITE (R7): a register of the hub management window by its offset, or DIRCFG, which only the
memory-management firmware reaches (R309). -/
def execRegisterWrite (off : Option (BitVec 20)) (v : Word) (s : State) : Host.Outcome State Fault Refusal :=
  .next <| match off with
  | none => s.modDir fun d => { d with cfg := v.extractLsb' 0 42 }
  | some o => if o.toNat % 8 = 0 then (mgmtWrite s o.toNat v).getD s else s

end Sys2Proof.Machine
end

