-- ==== Sys2Proof/Machine/HostPort.lean ====
section
/-! DEFINITION.
The host port and the Estal links: inbound writes and reads at the ordering point (R404 to R408), and the errors of
either direction (R411 to R413). -/

namespace Sys2Proof.Machine

/-! ### Inbound requests (R403 to R405, R414) -/

/-- Requests of a BAR reach the device: the host's while its link is up, and those of peers (5) while a port is up. -/
def inboundUp (s : State) (bar : BitVec 3) : Bool :=
  if bar = 5 then s.hub.ports.toList.any fun p => p.gen != 0 && !p.training else s.mod.hostUp

/-- The aperture of BAR4 or of the export window. -/
def apertureOf (s : State) (bar : BitVec 3) : Aperture := if bar = 5 then s.hub.xap else s.hub.ap

/-- Until READY and after a module failure, BAR0 and apertures are answered as with EN = 0 (R419, R423). -/
def serving (s : State) : Bool := s.mod.ready && !s.mod.fail

/-- A refused inbound request (R411). -/
def refuseInbound (s : State) (addr : Nat) (asid : BitVec 16) : State :=
  s.setMod { s.mod with aerNonFatal := s.mod.aerNonFatal + 1, errLog := s.mod.errLog ++ [(addr, asid)] }

/-- Bytes of an aperture request, cut at lines, translated and checked as accesses of the aperture's context. -/
def inboundPieces (a : Aperture) (acc : Access) : List (Va × Nat) → List Byte → State → List (InPiece × Bool) → Option (State × List (InPiece × Bool))
  | [], _, s, out => some (s, out)
  | (va, n) :: rest, bs, s, out =>
    match feTranslate s a.asid va acc with
    | none => none
    | some (s, pa, e, blank) =>
      let ok := match routeOf pa e with
        | .outside => false
        | .window => n == 8 && pa % 8 == 0
        | _ => true
      let piece : InPiece := { va := va, pa := pa, key := e.key, sync := e.sync, bytes := bs.take n }
      if ok then inboundPieces a acc rest (bs.drop n) s (out ++ [(piece, blank)]) else none

/-- The lines of an aperture request. -/
def apertureChunks (a : Aperture) (off n : Nat) : List (Va × Nat) := lineChunks a.vahi (a.base + BitVec.ofNat 64 off) n

/-- What an aperture request reaches, when it is allowed. -/
def apertureAccess (s : State) (a : Aperture) (off : Nat) (bs : List Byte) (acc : Access) : Option (State × List (InPiece × Bool)) :=
  if a.en && serving s then inboundPieces a acc (apertureChunks a off bs.length) bs s [] else none

/-- A request of BAR0 or BAR2: one aligned 8-byte access inside it. -/
def barAligned (bar : BitVec 3) (addr n : Nat) : Bool :=
  addr % 8 == 0 && n == 8 && decide (addr < if bar = 0 then 2 ^ 24 else 2 ^ 20)

/-! ### Inbound writes (R406, R407) -/

/-- The routes of pieces: one for each home die, and one for what has none. -/
def routesOf (ps : List InPiece) : List Route :=
  let dies := (ps.map fun p => frameDie p.pa).dedup
  dies.map fun d => { die := d, released := none, performed := false, acked := false, pieces := ps.filter fun p => frameDie p.pa == d }

/-- Every route of a write is acknowledged: it has passed the ordering point. -/
def InWrite.passed (w : InWrite) : Bool := w.routes.all fun r => r.acked

/-- An earlier write counts for the order of a later one: with IDO only those of its requester, and for a peer only those
without IDO of other requesters (R407, R414). -/
def countsFor (w e : InWrite) : Bool :=
  ((w.bar == 5) == (e.bar == 5) && w.requester == e.requester) || (!w.ido && !(w.bar == 5 && e.ido))

/-- A route is no longer in the way of a later one to a die: to the same die once it is released, elsewhere once it is
acknowledged. -/
def routeClear (d : Option DieNo) (r : Route) : Bool := r.acked || (r.die == d && d.isSome && r.released.isSome)

/-- The release rule (R407), for a route of a write behind the writes `before`. -/
def mayRelease (before : List InWrite) (w : InWrite) (r : Route) : Bool :=
  w.admitted && (w.ro || before.all fun e => !(w.bar == 0 || w.bar == 2 || countsFor w e) || e.routes.all (routeClear r.die))

/-- Key of an inbound request in the host-port budget. -/
def inboundKey (id : Nat) : Nat := 2 ^ 40 + id

/-- 64-byte blocks of a transfer. -/
def inboundBlocks (n : Nat) : Nat := (n + 63) / 64

/-- Changing an inbound write. -/
def modInWrite (s : State) (id : Nat) (f : InWrite → InWrite) : State :=
  s.modHub fun h => { h with inWrites := updateFirst (fun w => w.id == id) f h.inWrites }

/-- A write that waits for its context's budget is admitted when it may be (R381). -/
def admitWrite (s : State) (w : InWrite) : State :=
  if w.admitted then s
  else if budgetOpen s w.asid bHost (inboundKey w.id) then
    modInWrite (budgetTake s w.asid bHost (inboundKey w.id) (inboundBlocks w.data.length)) w.id fun w => { w with admitted := true }
  else budgetRefuse s w.asid bHost (inboundKey w.id) (inboundBlocks w.data.length)

def InWrite.setRoute (w : InWrite) (n : Nat) (f : Route → Route) : InWrite := { w with routes := w.routes.modify n f }

/-- A waiting route is released when the rule lets it go. -/
def releaseRoute (s : State) (id n : Nat) : State :=
  match s.hub.inWrites.find? fun w => w.id == id with
  | none => s
  | some w =>
    let s := admitWrite s w
    match s.hub.inWrites.find? fun w => w.id == id with
    | none => s
    | some w =>
      match w.routes[n]? with
      | none => s
      | some r =>
        let before := s.hub.inWrites.takeWhile fun e => e.id != id
        if r.released.isNone && inboundUp s w.bar && mayRelease before w r then
          let (k, s) := s.newReq
          modInWrite s id fun w => w.setRoute n fun r => { r with released := some k }
        else s

/-- The pieces of a write, when it is allowed. -/
def writePieces (s : State) (bar : BitVec 3) (addr : Nat) (bs : List Byte) : Option (State × List InPiece) :=
  if bar = 0 then
    if barAligned 0 addr bs.length && serving s then some (s, [{ va := 0, pa := 2 ^ 51 + addr, key := 0, sync := false, bytes := bs }]) else none
  else if bar = 2 then
    if barAligned 2 addr bs.length && (mgmtWrite s addr (BitVec.ofNat 64 (leNat bs))).isSome then
      some (s, [{ va := 0, pa := addr + 2 ^ 51, key := 0, sync := false, bytes := bs }])
    else none
  else (apertureAccess s (apertureOf s bar) addr bs .write).map fun x => (x.1, x.2.map Prod.fst)

/-- The context that an inbound request is made for. -/
def inboundAsid (s : State) (bar : BitVec 3) : BitVec 16 := if bar = 0 || bar = 2 then 0 else (apertureOf s bar).asid

/-- A posted write is split into routes, and those that need not wait are released (R406, R407). -/
def acceptWrite (s : State) (w : InWrite) : State :=
  let s := s.modHub fun h => { h with inWrites := h.inWrites ++ [w] }
  let s := w.routes.foldl (fun s r => match r.die with | some d => touchDie s w.asid d | none => s) s
  (List.range w.routes.length).foldl (fun s n => releaseRoute s w.id n) s

/-- INBOUND_WRITE (R406): BAR 0, 2 or 4 of the host, or 5 for the export aperture. -/
def execInboundWrite (bar : BitVec 3) (addr : Nat) (data : List Byte) (ro ido ep : Bool) (requester : Nat) (s : State) :
    Host.Outcome State Fault Refusal :=
  let small := bar == 0 || bar == 2
  .next <|
    if !([0, 2, 4, 5].contains bar.toNat) || !inboundUp s bar then s
    else
      match writePieces s bar addr data with
      | none => refuseInbound s addr (inboundAsid s bar)
      | some (s, ps) =>
        let s := if ep then s.setMod { s.mod with aerNonFatal := s.mod.aerNonFatal + 1 } else s
        if ps.isEmpty || (ep && small) then s
        else
          let (id, s) := s.newReq
          acceptWrite s { id := id, bar := bar, addr := addr, data := data, ro := ro, ido := ido, requester := requester,
                          poisoned := ep, asid := inboundAsid s bar, admitted := small, routes := routesOf ps }

/-- ROUTE_RELEASE (R407). -/
def execRouteRelease (id n : Nat) (s : State) : Host.Outcome State Fault Refusal := .next (releaseRoute s id n)

/-! ### What a route performs (R404, R406) -/

/-- Pieces of an inbound access to a sync page: the aligned power-of-two accesses of at most 8 bytes that make it up, as
(offset, size). -/
def syncParts (pa : Nat) : Nat → Nat → List (Nat × Nat)
  | 0, _ => []
  | fuel + 1, n =>
    let size := if n ≥ 8 && pa % 8 == 0 then 8 else if n ≥ 4 && pa % 4 == 0 then 4 else if n ≥ 2 && pa % 2 == 0 then 2 else 1
    if n = 0 then [] else (0, size) :: (syncParts (pa + size) fuel (n - size)).map fun x => (x.1 + size, x.2)

/-- A request of no unit to a synchronisation engine. -/
def inboundReq (s : State) (kind : SyncKind) (pa : Nat) (va : Va) (key : BitVec 8) (size : Nat) : SyncReq :=
  { id := 0, uid := s.units.length, who := s.units.length, die := homeOf (pa / 128), pa := pa, va := va, key := key, kind := kind,
    width := 0, join := false, x := 0, cmp := 0, rop := 0, n := 1, done := 0, posted := true, size := size, signed := false,
    bundle := 0, slot := 0, acquire := false, scope := 2, copyEng := none, born := 0, waits := false }

/-- An inbound access to a sync page, performed at its engine and logged when the context records (R263, R287), once the log has room
and its turn in a replay has come; `error true` where a replay has no entry for it (R288). -/
def inboundSync (s : State) (a : BitVec 16) (q : SyncReq) : Except Bool (SyncOut × State) :=
  let turn := ((s.ctx? a).map fun k => engineTurn s k q.die q).getD .go
  if turn = .held then .error false
  else if turn = .stray then .error true
  else
    let (o, t) := performSync s q.die q
    let t := match t.ctx? a with | some k => logFor t k q.die q q.va o.code | none => t
    .ok (o, touchLine t q.die q.pa)

/-- The stores of a piece to a sync page. -/
def performSyncPiece (s : State) (a : BitVec 16) (p : InPiece) : Except Bool State :=
  (syncParts p.pa p.bytes.length p.bytes.length).foldlM (fun s x =>
    let q := inboundReq s .store (p.pa + x.1) (p.va + BitVec.ofNat 80 x.1) p.key x.2
    (inboundSync s a { q with x := BitVec.ofNat 512 (leNat ((p.bytes.drop x.1).take x.2)) }).map Prod.snd) s

/-- A piece is performed at device scope at its home; a poisoned write leaves its lines poisoned (R411). -/
def performPiece (w : InWrite) (s : State) (p : InPiece) : Except Bool State :=
  let v : Word := BitVec.ofNat 64 (leNat p.bytes)
  if w.bar = 2 then .ok ((mgmtWrite s w.addr v).getD s)
  else
    match frameDie p.pa with
    | none => .ok (windowWrite s (windowSlot p.pa) (windowReg p.pa) v (w.bar != 5))
    | some d =>
      if (s.die d).lost then .ok s
      else
        (if p.sync then performSyncPiece s w.asid p else .ok (deviceWrite s p.pa p.bytes p.key)).map fun s =>
          if w.poisoned then poisonLine s (p.pa / 128) else s

/-- The recorder keeps inbound data, or their digests (R355). -/
def keepInbound (s : State) (w : InWrite) (r : Route) : State :=
  if w.bar = 0 || w.bar = 2 then s
  else s.modCtx w.asid fun k =>
    let keep (p : InPiece) : RecInput :=
      if k.recDigest then .digest p.va p.bytes.length (Config.shake256 p.bytes) else .data p.va p.bytes
    if k.recording then { k with recInputs := k.recInputs ++ r.pieces.map keep } else k

/-- A released route to the same die that was released before one. -/
def routeBehind (s : State) (r : Route) : Bool :=
  match r.released with
  | none => true
  | some k => s.hub.inWrites.any fun w => w.routes.any fun x =>
      x.die == r.die && !x.performed && match x.released with | some j => decide (j < k) | none => false

/-- Writes that have passed leave the ordering point. -/
def dropPassed (s : State) : State := s.modHub fun h => { h with inWrites := h.inWrites.filter fun w => !w.passed }

/-- ROUTE_ACK (R406): a released route reaches its die and is performed, in the order of release; then it is
acknowledged.  What has no home die is performed and acknowledged in one. -/
def execRouteAck (id n : Nat) (s : State) : Host.Outcome State Fault Refusal :=
  .next <| match s.hub.inWrites.find? fun w => w.id == id with
  | none => s
  | some w =>
    match w.routes[n]? with
    | none => s
    | some r =>
      if r.released.isNone then s
      else if r.performed then
        dropPassed (modInWrite s id fun w => w.setRoute n fun r => { r with acked := true })
      else if routeBehind s r then s
      else
        let t := modInWrite s id fun w => w.setRoute n fun r => { r with performed := true, acked := r.die.isNone }
        match r.pieces.foldlM (performPiece w) (keepInbound t w r) with
        | .ok t => dropPassed t
        | .error stray => if stray then stopStray s w.asid else s

/-! ### Inbound reads (R408) -/

/-- The dies that a read reaches. -/
def readDies (s : State) (ap : Aperture) (addr len : Nat) : List (Option DieNo) :=
  match apertureAccess s ap addr (List.replicate len 0) .read with
  | some (_, ps) => (ps.map fun p => frameDie p.1.pa).dedup
  | none => []

/-- INBOUND_READ: the read waits for the earlier writes that count. -/
def execInboundRead (bar : BitVec 3) (addr len : Nat) (ro : Bool) (requester : Nat) (s : State) :
    Host.Outcome State Fault Refusal :=
  .next <|
    if !([0, 2, 4, 5].contains bar.toNat) || !inboundUp s bar then s
    else
      let ap := apertureOf s bar
      let dies := if bar = 0 || bar = 2 then [none] else readDies s ap addr len
      let counts (w : InWrite) : Bool := !w.ro && (!ro || w.routes.any fun r => dies.contains r.die)
      let after := (s.hub.inWrites.filter counts).map fun w => w.id
      let (id, s) := s.newReq
      s.modHub fun h => { h with inReads := h.inReads ++ [{ id := id, bar := bar, addr := addr, len := len, ro := ro, requester := requester,
                                                            ap := ap, after := after }] }

/-- The bytes of a piece of a read, and whether they are poisoned. -/
def readPiece (a : BitVec 16) (x : State × List Byte × Bool) (p : InPiece × Bool) : Except Bool (State × List Byte × Bool) :=
  let (s, bs, bad) := x
  let n := p.1.bytes.length
  match frameDie p.1.pa with
  | none => .ok (s, bs ++ leBytes (windowRead s p.1.pa).toNat 8, bad)
  | some _ =>
    if p.1.sync then
      (syncParts p.1.pa n n).foldlM (fun x part =>
        (inboundSync x.1 a (inboundReq x.1 .load (p.1.pa + part.1) (p.1.va + BitVec.ofNat 80 part.1) p.1.key part.2)).map fun r =>
          (r.2, x.2.1 ++ leBytes r.1.value.toNat part.2, x.2.2 || r.1.code != 0)) (s, bs, bad)
    else
      let line := p.1.pa / 128
      .ok (s, bs ++ blankBytes p.1.va p.2 (deviceBytes s p.1.pa n p.1.key), bad || s.poison.contains line || (deviceLine s line p.1.key).2)

/-- What a read returns: its bytes and whether they are poisoned, or nothing where it is refused. -/
def readInbound (s : State) (r : InRead) : Option (Except Bool (State × List Byte × Bool)) :=
  if r.bar = 0 then
    if barAligned 0 r.addr r.len && serving s then some (.ok (s, leBytes (windowRead s (2 ^ 51 + r.addr)).toNat 8, false)) else none
  else if r.bar = 2 then
    if barAligned 2 r.addr r.len then (mgmtRead s r.addr).map fun x => .ok (x.2, leBytes x.1.toNat 8, false) else none
  else
    (apertureAccess s r.ap r.addr (List.replicate r.len 0) .read).map fun x =>
      let s := x.2.foldl (fun s p => match frameDie p.1.pa with | some d => touchDie s r.ap.asid d | none => s) x.1
      x.2.foldlM (readPiece r.ap.asid) (s, [], false)

/-- The budget of a read's context lets it go (R381). -/
def readOpen (s : State) (r : InRead) : Bool :=
  r.bar == 0 || r.bar == 2 || budgetOpen s r.ap.asid bHost (inboundKey r.id)

/-- INBOUND_READ_RELEASE (R408): a read that waits for nothing more is performed and its completion returned. -/
def execInboundReadRelease (id : Nat) (s : State) : Host.Outcome State Fault Refusal :=
  .next <| match s.hub.inReads.find? fun r => r.id == id with
  | none => s
  | some r =>
    if s.hub.inWrites.any (fun w => r.after.contains w.id) || !inboundUp s r.bar then s
    else if !readOpen s r then budgetRefuse s r.ap.asid bHost (inboundKey id) (inboundBlocks r.len)
    else
      let s0 := s
      let s := if r.bar = 0 || r.bar = 2 then s else budgetTake s r.ap.asid bHost (inboundKey id) (inboundBlocks r.len)
      let s := s.modHub fun h => { h with inReads := h.inReads.filter fun x => x.id != id }
      let reply (s : State) (c : Completion) : State := s.modHub fun h => { h with completions := h.completions ++ [c] }
      match readInbound s r with
      | none => reply (refuseInbound s r.addr (if r.bar = 0 || r.bar = 2 then 0 else r.ap.asid)) { id := id, ur := true, poisoned := false, data := [] }
      | some (.error stray) => if stray then stopStray s0 r.ap.asid else s0
      | some (.ok (s, bs, bad)) => reply s { id := id, ur := false, poisoned := bad, data := bs }

/-! ### Outbound errors (R411, R413) -/

/-- OUTBOUND_LOAD_TIMEOUT: a load that is answered UR or CA, comes poisoned, or is not answered in 50 ms. -/
def execOutboundLoadTimeout (req : Nat) (s : State) : Host.Outcome State Fault Refusal :=
  .next <| match s.hub.outLoads.find? fun x => x.req == req with
  | none => s
  | some x =>
    let s := s.modHub fun h => { h with outLoads := h.outLoads.filter fun y => y.req != req }
    match (s.unit? x.uid).bind fun u => u.pend.find? fun e => e.awaited && match e.load with | some l => l.req == req | none => false with
    | some e => match e.load with | some l => poisonArrival s x.uid e l | none => s
    | none => s

/-- Posted writes that a failure leaves undelivered. -/
def failWrites (s : State) (bad : OutWrite → Bool) : State :=
  let lost := s.hub.outWrites.filter bad
  let s := s.modHub fun h => { h with outWrites := h.outWrites.filter fun w => !bad w }
  lost.foldl undelivered s

/-- HOST_LINK_DOWN: inbound traffic stops and undeliverable stores fail. -/
def execHostLinkDown (s : State) : Host.Outcome State Fault Refusal :=
  .next (failWrites (s.setMod { s.mod with hostUp := false }) fun w => w.dest == 0)

/-- HOST_PORT_TRAINED (R402). -/
def execHostPortTrained (s : State) : Host.Outcome State Fault Refusal := .next (s.setMod { s.mod with hostUp := true })

/-- IDE_FAILURE: outbound stores to the host cannot be delivered. -/
def execIdeFailure (s : State) : Host.Outcome State Fault Refusal := .next (failWrites s fun w => w.dest == 0)

/-- CORRECTABLE_ERROR. -/
def execCorrectableError (s : State) : Host.Outcome State Fault Refusal :=
  .next (s.setMod { s.mod with aerCorrectable := s.mod.aerCorrectable + 1 })

/-- Changing an Estal port. -/
def modPort (s : State) (p : Fin 16) (f : EstalPort → EstalPort) : State :=
  s.modHub fun h => { h with ports := h.ports.set p (f (h.ports.get p)) }

/-- ESTAL_PORT_TRAINED (R412): MAXG1 limits the generation. -/
def execEstalPortTrained (p : Fin 16) (gen2 x4 : Bool) (peer : BitVec 10) (s : State) : Host.Outcome State Fault Refusal :=
  .next (modPort s p fun q => { q with gen := if gen2 && !q.maxg1 then 2 else 1, x4 := x4, peer := peer, training := false })

/-- ESTAL_LINK_DOWN (R412, R413): a port trains down to 4 lanes, or goes down with what it still carries. -/
def execEstalLinkDown (p : Fin 16) (lanes : Bool) (s : State) : Host.Outcome State Fault Refusal :=
  .next <|
    if lanes then modPort s p fun q => if q.gen = 0 then q else { q with x4 := true }
    else failWrites (modPort s p fun q => { q with gen := 0, x4 := false, peer := 0, training := false }) fun w => w.port == some p

/-- FLIT_RETRY (R412). -/
def execFlitRetry (p : Fin 16) (s : State) : Host.Outcome State Fault Refusal :=
  .next (modPort s p fun q => { q with retry := q.retry + 1 })

/-- OUTBOUND_WRITE_ACK (R411, R413): a unit's writes to a destination are acknowledged. -/
def execOutboundWriteAck (u : Uid) (dest : Nat) (s : State) : Host.Outcome State Fault Refusal :=
  .next (if destUp s dest && !destHolds s dest then
    s.modHub fun h => { h with outWrites := h.outWrites.filter fun w => !(w.uid == u && w.dest == dest) } else s)

end Sys2Proof.Machine
end

