-- ==== Sys2Proof/Machine/Scalar.lean ====
section
/-! DEFINITION.
S.RR and S.RI: the scalar integer forms, compares, predicate operations and immediates (R82 to R88). -/

namespace Sys2Proof.Machine

/-! ### Results (R83, R84) -/

/-- Bits [127:64] of the product of sign-extended operands. -/
def mulHighS (x y : Word) : Word := (x.signExtend 128 * y.signExtend 128).extractLsb' 64 64
/-- Bits [127:64] of the product of zero-extended operands. -/
def mulHighU (x y : Word) : Word := (x.setWidth 128 * y.setWidth 128).extractLsb' 64 64
/-- The shift count of the shifts, ROL, SEXT and ZEXT: y[5:0]. -/
def shiftCount (y : Word) : Nat := (y.extractLsb' 0 6).toNat
/-- Leading zeros; 64 when x = 0. -/
def clz64 (x : Word) : Word := if x = 0 then 64 else BitVec.ofNat 64 (63 - Nat.log2 x.toNat)
/-- Trailing zeros; 64 when x = 0. -/
def ctz64 (x : Word) : Word := BitVec.ofNat 64 (((List.range 64).find? fun i => x.getLsbD i).getD 64)
/-- The number of one bits. -/
def popc64 (x : Word) : Word := BitVec.ofNat 64 ((List.range 64).filter fun i => x.getLsbD i).length
/-- Bit i moved to bit 63 − i. -/
def brev64 (x : Word) : Word := x.reverse
/-- Byte i moved to byte 7 − i. -/
def bswap64 (x : Word) : Word :=
  x.extractLsb' 0 8 ++ x.extractLsb' 8 8 ++ x.extractLsb' 16 8 ++ x.extractLsb' 24 8 ++ x.extractLsb' 32 8
    ++ x.extractLsb' 40 8 ++ x.extractLsb' 48 8 ++ x.extractLsb' 56 8
/-- Bits above bit n set to copies of bit n. -/
def sextFrom (x y : Word) : Word := let n := shiftCount y; (x <<< (63 - n)).sshiftRight (63 - n)
/-- Bits above bit n cleared. -/
def zextFrom (x y : Word) : Word := let n := shiftCount y; (x <<< (63 - n)) >>> (63 - n)
/-- Sign-extension of the low word. -/
def sextWord (x : Word) : Word := (x.extractLsb' 0 32).signExtend 64

/-! ### The shared forms -/

/-- An S.RR form with a scalar result (R82): guarded, the result entered with its latency. -/
def scalarRR (lat : Nat) (f : Word → Word → Word) (d a b : BitVec 6) (g : BitVec 3) (i : BitVec 1) (s : State) :
    Host.Outcome State Fault Refusal :=
  runSlot s
    (fun s u => firstFail [noLend s u, stallCheck u [.pred g, .scalar a, .scalar b] [(.scalar d, lat)]])
    (fun s u => if guardHolds u g i then schedScalar s s.issue.me u d (f (u.reg a) (u.reg b)) lat else s)

/-- A division (R84): latency 18, INT_DIV_ZERO for a zero divisor whether the guard holds or fails. -/
def scalarDiv (f : Word → Word → Word) (d a b : BitVec 6) (g : BitVec 3) (i : BitVec 1) (s : State) :
    Host.Outcome State Fault Refusal :=
  runSlot s
    (fun s u => firstFail [noLend s u, stallCheck u [.pred g, .scalar a, .scalar b] [(.scalar d, 18)],
      failIf (u.reg b == 0) cDivZero u.bundleVa])
    (fun s u => if guardHolds u g i then schedScalar s s.issue.me u d (f (u.reg a) (u.reg b)) 18 else s)

/-- A compare (R85): a guard that fails leaves the predicate unchanged. -/
def scalarCmp (f : Word → Word → Bool) (p : BitVec 3) (a b : BitVec 6) (g : BitVec 3) (i : BitVec 1) (s : State) :
    Host.Outcome State Fault Refusal :=
  runSlot s
    (fun s u => firstFail [noLend s u, stallCheck u [.pred g, .scalar a, .scalar b] [(.pred p, 1)]])
    (fun s u => if guardHolds u g i then schedPred s s.issue.me u p (f (u.reg a) (u.reg b)) 1 else s)

/-- A predicate operation on two sources of R86; a source of 16 or more takes ILLEGAL_OP. -/
def predOp (f : Bool → Bool → Bool) (p : BitVec 3) (a b : BitVec 6) (g : BitVec 3) (i : BitVec 1) (s : State) :
    Host.Outcome State Fault Refusal :=
  runSlot s
    (fun s u => firstFail [noLend s u, illegalIf u (decide (16 ≤ a.toNat) || decide (16 ≤ b.toNat)),
      stallCheck u [.pred g, predDest a, predDest b] [(.pred p, 1)]])
    (fun s u => if guardHolds u g i then schedPred s s.issue.me u p (f (predSource u a) (predSource u b)) 1 else s)

/-- An S.RI form with a scalar result (R88): unguarded; `bad` is the immediate that takes ILLEGAL_OP. -/
def scalarRI (lat : Nat) (bad : Word → Bool) (f : Word → Word → Word) (d a : BitVec 6) (i : BitVec 10) (s : State) :
    Host.Outcome State Fault Refusal :=
  runSlot s
    (fun s u => firstFail [illegalIf u (bad (immSext s.issue i)), stallCheck u [.scalar a] [(.scalar d, lat)]])
    (fun s u => schedScalar s s.issue.me u d (f (u.reg a) (immSext s.issue i)) lat)

/-- A compare with an immediate (R88). -/
def scalarCmpI (f : Word → Word → Bool) (p : BitVec 3) (a : BitVec 6) (i : BitVec 10) (s : State) :
    Host.Outcome State Fault Refusal :=
  runSlot s
    (fun _ u => stallCheck u [.scalar a] [(.pred p, 1)])
    (fun s u => schedPred s s.issue.me u p (f (u.reg a) (immSext s.issue i)) 1)

/-- No immediate is refused. -/
def anyImm (_ : Word) : Bool := false
/-- R88: a shift immediate outside 0 to 63. -/
def badShift (v : Word) : Bool := decide (64 ≤ v.toNat)

/-! ### S.RR -/

def execAdd (d a b : BitVec 6) (g : BitVec 3) (i : BitVec 1) (s : State) : Host.Outcome State Fault Refusal :=
  scalarRR 1 (fun x y => x + y) d a b g i s

def execSub (d a b : BitVec 6) (g : BitVec 3) (i : BitVec 1) (s : State) : Host.Outcome State Fault Refusal :=
  scalarRR 1 (fun x y => x - y) d a b g i s

def execAnd (d a b : BitVec 6) (g : BitVec 3) (i : BitVec 1) (s : State) : Host.Outcome State Fault Refusal :=
  scalarRR 1 (fun x y => x &&& y) d a b g i s

def execOr (d a b : BitVec 6) (g : BitVec 3) (i : BitVec 1) (s : State) : Host.Outcome State Fault Refusal :=
  scalarRR 1 (fun x y => x ||| y) d a b g i s

def execXor (d a b : BitVec 6) (g : BitVec 3) (i : BitVec 1) (s : State) : Host.Outcome State Fault Refusal :=
  scalarRR 1 (fun x y => x ^^^ y) d a b g i s

def execAndn (d a b : BitVec 6) (g : BitVec 3) (i : BitVec 1) (s : State) : Host.Outcome State Fault Refusal :=
  scalarRR 1 (fun x y => x &&& ~~~y) d a b g i s

def execShl (d a b : BitVec 6) (g : BitVec 3) (i : BitVec 1) (s : State) : Host.Outcome State Fault Refusal :=
  scalarRR 1 (fun x y => x <<< shiftCount y) d a b g i s

def execShr (d a b : BitVec 6) (g : BitVec 3) (i : BitVec 1) (s : State) : Host.Outcome State Fault Refusal :=
  scalarRR 1 (fun x y => x >>> shiftCount y) d a b g i s

def execSar (d a b : BitVec 6) (g : BitVec 3) (i : BitVec 1) (s : State) : Host.Outcome State Fault Refusal :=
  scalarRR 1 (fun x y => x.sshiftRight (shiftCount y)) d a b g i s

def execRol (d a b : BitVec 6) (g : BitVec 3) (i : BitVec 1) (s : State) : Host.Outcome State Fault Refusal :=
  scalarRR 1 (fun x y => x.rotateLeft (shiftCount y)) d a b g i s

def execMul (d a b : BitVec 6) (g : BitVec 3) (i : BitVec 1) (s : State) : Host.Outcome State Fault Refusal :=
  scalarRR 3 (fun x y => x * y) d a b g i s

def execMulhs (d a b : BitVec 6) (g : BitVec 3) (i : BitVec 1) (s : State) : Host.Outcome State Fault Refusal :=
  scalarRR 3 (fun x y => mulHighS x y) d a b g i s

def execMulhu (d a b : BitVec 6) (g : BitVec 3) (i : BitVec 1) (s : State) : Host.Outcome State Fault Refusal :=
  scalarRR 3 (fun x y => mulHighU x y) d a b g i s

def execMins (d a b : BitVec 6) (g : BitVec 3) (i : BitVec 1) (s : State) : Host.Outcome State Fault Refusal :=
  scalarRR 1 (fun x y => if x.sle y then x else y) d a b g i s

def execMinu (d a b : BitVec 6) (g : BitVec 3) (i : BitVec 1) (s : State) : Host.Outcome State Fault Refusal :=
  scalarRR 1 (fun x y => if x ≤ y then x else y) d a b g i s

def execMaxs (d a b : BitVec 6) (g : BitVec 3) (i : BitVec 1) (s : State) : Host.Outcome State Fault Refusal :=
  scalarRR 1 (fun x y => if x.sle y then y else x) d a b g i s

def execMaxu (d a b : BitVec 6) (g : BitVec 3) (i : BitVec 1) (s : State) : Host.Outcome State Fault Refusal :=
  scalarRR 1 (fun x y => if x ≤ y then y else x) d a b g i s

def execSext (d a b : BitVec 6) (g : BitVec 3) (i : BitVec 1) (s : State) : Host.Outcome State Fault Refusal :=
  scalarRR 1 (fun x y => sextFrom x y) d a b g i s

def execZext (d a b : BitVec 6) (g : BitVec 3) (i : BitVec 1) (s : State) : Host.Outcome State Fault Refusal :=
  scalarRR 1 (fun x y => zextFrom x y) d a b g i s

def execAddw (d a b : BitVec 6) (g : BitVec 3) (i : BitVec 1) (s : State) : Host.Outcome State Fault Refusal :=
  scalarRR 1 (fun x y => sextWord (x + y)) d a b g i s

def execSubw (d a b : BitVec 6) (g : BitVec 3) (i : BitVec 1) (s : State) : Host.Outcome State Fault Refusal :=
  scalarRR 1 (fun x y => sextWord (x - y)) d a b g i s

def execMulw (d a b : BitVec 6) (g : BitVec 3) (i : BitVec 1) (s : State) : Host.Outcome State Fault Refusal :=
  scalarRR 3 (fun x y => sextWord (x * y)) d a b g i s

/-- DIVS (R84): quotient rounded toward zero. -/
def execDivs (d a b : BitVec 6) (g : BitVec 3) (i : BitVec 1) (s : State) : Host.Outcome State Fault Refusal :=
  scalarDiv (fun x y => x.sdiv y) d a b g i s

/-- DIVU (R84): quotient rounded toward zero. -/
def execDivu (d a b : BitVec 6) (g : BitVec 3) (i : BitVec 1) (s : State) : Host.Outcome State Fault Refusal :=
  scalarDiv (fun x y => x / y) d a b g i s

/-- REMS (R84): remainder with the sign of x. -/
def execRems (d a b : BitVec 6) (g : BitVec 3) (i : BitVec 1) (s : State) : Host.Outcome State Fault Refusal :=
  scalarDiv (fun x y => x.srem y) d a b g i s

/-- REMU (R84): remainder with the sign of x. -/
def execRemu (d a b : BitVec 6) (g : BitVec 3) (i : BitVec 1) (s : State) : Host.Outcome State Fault Refusal :=
  scalarDiv (fun x y => x % y) d a b g i s

def execClz (d a : BitVec 6) (g : BitVec 3) (i : BitVec 1) (s : State) : Host.Outcome State Fault Refusal :=
  scalarRR 1 (fun x _ => clz64 x) d a 0 g i s

def execCtz (d a : BitVec 6) (g : BitVec 3) (i : BitVec 1) (s : State) : Host.Outcome State Fault Refusal :=
  scalarRR 1 (fun x _ => ctz64 x) d a 0 g i s

def execPopc (d a : BitVec 6) (g : BitVec 3) (i : BitVec 1) (s : State) : Host.Outcome State Fault Refusal :=
  scalarRR 1 (fun x _ => popc64 x) d a 0 g i s

def execBrev (d a : BitVec 6) (g : BitVec 3) (i : BitVec 1) (s : State) : Host.Outcome State Fault Refusal :=
  scalarRR 1 (fun x _ => brev64 x) d a 0 g i s

def execBswap (d a : BitVec 6) (g : BitVec 3) (i : BitVec 1) (s : State) : Host.Outcome State Fault Refusal :=
  scalarRR 1 (fun x _ => bswap64 x) d a 0 g i s

/-- SEL (R87): never guarded; sa when the selector predicate, inverted or not, is true. -/
def execSel (d a b : BitVec 6) (p : BitVec 3) (n : BitVec 1) (s : State) : Host.Outcome State Fault Refusal :=
  runSlot s
    (fun s u => firstFail [noLend s u, stallCheck u [.pred p, .scalar a, .scalar b] [(.scalar d, 1)]])
    (fun s u => schedScalar s s.issue.me u d (if guardHolds u p n then u.reg a else u.reg b) 1)

def execCmpeq (p : BitVec 3) (a b : BitVec 6) (g : BitVec 3) (i : BitVec 1) (s : State) :
    Host.Outcome State Fault Refusal :=
  scalarCmp (fun x y => x == y) p a b g i s

def execCmpne (p : BitVec 3) (a b : BitVec 6) (g : BitVec 3) (i : BitVec 1) (s : State) :
    Host.Outcome State Fault Refusal :=
  scalarCmp (fun x y => x != y) p a b g i s

def execCmplts (p : BitVec 3) (a b : BitVec 6) (g : BitVec 3) (i : BitVec 1) (s : State) :
    Host.Outcome State Fault Refusal :=
  scalarCmp (fun x y => x.slt y) p a b g i s

def execCmpltu (p : BitVec 3) (a b : BitVec 6) (g : BitVec 3) (i : BitVec 1) (s : State) :
    Host.Outcome State Fault Refusal :=
  scalarCmp (fun x y => x.ult y) p a b g i s

def execCmples (p : BitVec 3) (a b : BitVec 6) (g : BitVec 3) (i : BitVec 1) (s : State) :
    Host.Outcome State Fault Refusal :=
  scalarCmp (fun x y => x.sle y) p a b g i s

def execCmpleu (p : BitVec 3) (a b : BitVec 6) (g : BitVec 3) (i : BitVec 1) (s : State) :
    Host.Outcome State Fault Refusal :=
  scalarCmp (fun x y => x.ule y) p a b g i s

def execPand (p : BitVec 3) (a b : BitVec 6) (g : BitVec 3) (i : BitVec 1) (s : State) :
    Host.Outcome State Fault Refusal :=
  predOp (fun x y => x && y) p a b g i s

def execPor (p : BitVec 3) (a b : BitVec 6) (g : BitVec 3) (i : BitVec 1) (s : State) :
    Host.Outcome State Fault Refusal :=
  predOp (fun x y => x || y) p a b g i s

def execPxor (p : BitVec 3) (a b : BitVec 6) (g : BitVec 3) (i : BitVec 1) (s : State) :
    Host.Outcome State Fault Refusal :=
  predOp (fun x y => x != y) p a b g i s

def execPnot (p : BitVec 3) (a : BitVec 6) (g : BitVec 3) (i : BitVec 1) (s : State) : Host.Outcome State Fault Refusal :=
  predOp (fun x _ => !x) p a 0 g i s

/-- Every predicate and stage predicate, as MOVP reads them. -/
def allPreds : List Dest :=
  ((List.range 8).map fun k => Dest.pred (BitVec.ofNat 3 k)) ++ (List.range 8).map fun k => Dest.stage (BitVec.ofNat 3 k)

/-- MOVP (R86): ps7…ps0 in [15:8], p7…p0 in [7:0], bit 0 always 1. -/
def execMovp (d : BitVec 6) (g : BitVec 3) (i : BitVec 1) (s : State) : Host.Outcome State Fault Refusal :=
  runSlot s
    (fun s u => firstFail [noLend s u, stallCheck u (.pred g :: allPreds) [(.scalar d, 1)]])
    (fun s u => if guardHolds u g i then
        schedScalar s s.issue.me u d ((u.regs.ps ++ u.predByte : BitVec 16).setWidth 64) 1 else s)

/-- The entries of a write to p1 to p7. -/
def pushPreds (s : State) (u : UnitSt) (x : Word) : UnitSt :=
  [1, 2, 3, 4, 5, 6, 7].foldl (fun u (k : Nat) =>
    u.push (mkEntry s u (.pred (BitVec.ofNat 3 k)) ((BitVec.ofBool (x.getLsbD k)).setWidth 512) 1 0)) u

/-- MOVTP (R86): pi := sa[i] for i = 1 to 7. -/
def execMovtp (a : BitVec 6) (g : BitVec 3) (i : BitVec 1) (s : State) : Host.Outcome State Fault Refusal :=
  runSlot s
    (fun s u => firstFail [noLend s u,
      stallCheck u [.pred g, .scalar a] ((List.range 8).map fun k => (Dest.pred (BitVec.ofNat 3 k), 1))])
    (fun s u => if guardHolds u g i then s.setUnit s.issue.me (pushPreds s u (u.reg a)) else s)

/-! ### S.RI -/

def execAddi (d a : BitVec 6) (i : BitVec 10) (s : State) : Host.Outcome State Fault Refusal :=
  scalarRI 1 anyImm (fun x v => x + v) d a i s

def execAndi (d a : BitVec 6) (i : BitVec 10) (s : State) : Host.Outcome State Fault Refusal :=
  scalarRI 1 anyImm (fun x v => x &&& v) d a i s

def execOri (d a : BitVec 6) (i : BitVec 10) (s : State) : Host.Outcome State Fault Refusal :=
  scalarRI 1 anyImm (fun x v => x ||| v) d a i s

def execXori (d a : BitVec 6) (i : BitVec 10) (s : State) : Host.Outcome State Fault Refusal :=
  scalarRI 1 anyImm (fun x v => x ^^^ v) d a i s

def execShli (d a : BitVec 6) (i : BitVec 10) (s : State) : Host.Outcome State Fault Refusal :=
  scalarRI 1 badShift (fun x v => x <<< v.toNat) d a i s

def execShri (d a : BitVec 6) (i : BitVec 10) (s : State) : Host.Outcome State Fault Refusal :=
  scalarRI 1 badShift (fun x v => x >>> v.toNat) d a i s

def execSari (d a : BitVec 6) (i : BitVec 10) (s : State) : Host.Outcome State Fault Refusal :=
  scalarRI 1 badShift (fun x v => x.sshiftRight v.toNat) d a i s

def execMuli (d a : BitVec 6) (i : BitVec 10) (s : State) : Host.Outcome State Fault Refusal :=
  scalarRI 3 anyImm (fun x v => x * v) d a i s

def execLi (d : BitVec 6) (i : BitVec 10) (s : State) : Host.Outcome State Fault Refusal :=
  scalarRI 1 anyImm (fun _ v => v) d 0 i s

/-- LIX (R50, R88): sd := (sa << 18) or the zero-extended immediate. -/
def execLix (d a : BitVec 6) (i : BitVec 10) (s : State) : Host.Outcome State Fault Refusal :=
  runSlot s
    (fun _ u => stallCheck u [.scalar a] [(.scalar d, 1)])
    (fun s u => schedScalar s s.issue.me u d ((u.reg a <<< 18) ||| immZext s.issue i) 1)

def execCmpeqi (p : BitVec 3) (a : BitVec 6) (i : BitVec 10) (s : State) : Host.Outcome State Fault Refusal :=
  scalarCmpI (fun x v => x == v) p a i s

def execCmpltsi (p : BitVec 3) (a : BitVec 6) (i : BitVec 10) (s : State) : Host.Outcome State Fault Refusal :=
  scalarCmpI (fun x v => x.slt v) p a i s

def execCmpltui (p : BitVec 3) (a : BitVec 6) (i : BitVec 10) (s : State) : Host.Outcome State Fault Refusal :=
  scalarCmpI (fun x v => x.ult v) p a i s

end Sys2Proof.Machine
end

