-- ==== Sys2Proof/Machine/VectorInt.lean ====
section
/-! DEFINITION.
V.INT (R149, R150): sixteen 32-bit lanes, latency 2, no flags. -/

namespace Sys2Proof.Machine

/-- a + b signed, saturated (R149). -/
def saddSat (a b : BitVec 32) : BitVec 32 :=
  let v := a.toInt + b.toInt
  if 2 ^ 31 - 1 < v then 0x7FFFFFFF else if v < -(2 ^ 31) then 0x80000000 else BitVec.ofInt 32 v

/-- A V.INT slot: RM and FMT must be zero (R40, R149); `f` has the lanes of vd, va and vb. -/
def intSlot (useD : Bool) (f : BitVec 32 → BitVec 32 → BitVec 32 → BitVec 32) (d a b : BitVec 8) (s : State) :
    Host.Outcome State Fault Refusal :=
  vectorSlot (fun is => lendRm is.lend != 0 || lendFmt is.lend != 0)
    (fun is => [opA is a, opB is b] ++ (if useD then [opD is d] else []))
    (fun is => opD is d) 2 0
    (fun is u => lanes32 fun i =>
      (f (lane32 (u.vec (opD is d)) i) (lane32 (u.vec (opA is a)) i) (lane32 (u.vec (opB is b)) i), 0)) s

/-- VIADD (R149). -/
def execViadd (d a b : BitVec 8) (s : State) : Host.Outcome State Fault Refusal :=
  intSlot false (fun _ a b => a + b) d a b s

/-- VISUB (R149). -/
def execVisub (d a b : BitVec 8) (s : State) : Host.Outcome State Fault Refusal :=
  intSlot false (fun _ a b => a - b) d a b s

/-- VIMUL (R149). -/
def execVimul (d a b : BitVec 8) (s : State) : Host.Outcome State Fault Refusal :=
  intSlot false (fun _ a b => a * b) d a b s

/-- VIMAD (R149). -/
def execVimad (d a b : BitVec 8) (s : State) : Host.Outcome State Fault Refusal :=
  intSlot true (fun c a b => c + a * b) d a b s

/-- VAND (R149). -/
def execVand (d a b : BitVec 8) (s : State) : Host.Outcome State Fault Refusal :=
  intSlot false (fun _ a b => a &&& b) d a b s

/-- VOR (R149). -/
def execVor (d a b : BitVec 8) (s : State) : Host.Outcome State Fault Refusal :=
  intSlot false (fun _ a b => a ||| b) d a b s

/-- VXOR (R149). -/
def execVxor (d a b : BitVec 8) (s : State) : Host.Outcome State Fault Refusal :=
  intSlot false (fun _ a b => a ^^^ b) d a b s

/-- VSHL (R149). -/
def execVshl (d a b : BitVec 8) (s : State) : Host.Outcome State Fault Refusal :=
  intSlot false (fun _ a b => a <<< (b.extractLsb' 0 5).toNat) d a b s

/-- VSHR (R149). -/
def execVshr (d a b : BitVec 8) (s : State) : Host.Outcome State Fault Refusal :=
  intSlot false (fun _ a b => a >>> (b.extractLsb' 0 5).toNat) d a b s

/-- VSAR (R149). -/
def execVsar (d a b : BitVec 8) (s : State) : Host.Outcome State Fault Refusal :=
  intSlot false (fun _ a b => a.sshiftRight (b.extractLsb' 0 5).toNat) d a b s

/-- VIMIN (R149). -/
def execVimin (d a b : BitVec 8) (s : State) : Host.Outcome State Fault Refusal :=
  intSlot false (fun _ a b => if b.slt a then b else a) d a b s

/-- VIMAX (R149). -/
def execVimax (d a b : BitVec 8) (s : State) : Host.Outcome State Fault Refusal :=
  intSlot false (fun _ a b => if a.slt b then b else a) d a b s

/-- VICMPEQ (R149). -/
def execVicmpeq (d a b : BitVec 8) (s : State) : Host.Outcome State Fault Refusal :=
  intSlot false (fun _ a b => if a = b then 0xFFFFFFFF else 0) d a b s

/-- VICMPLT (R149). -/
def execVicmplt (d a b : BitVec 8) (s : State) : Host.Outcome State Fault Refusal :=
  intSlot false (fun _ a b => if a.slt b then 0xFFFFFFFF else 0) d a b s

/-- VIADDS (R149). -/
def execViadds (d a b : BitVec 8) (s : State) : Host.Outcome State Fault Refusal :=
  intSlot false (fun _ a b => saddSat a b) d a b s

/-- VPERM (R149, R150): lane b[3:0] of va as read at issue. -/
def execVperm (d a b : BitVec 8) (s : State) : Host.Outcome State Fault Refusal :=
  vectorSlot (fun is => lendRm is.lend != 0 || lendFmt is.lend != 0)
    (fun is => [opA is a, opB is b]) (fun is => opD is d) 2 0
    (fun is u => lanes32 fun i =>
      (lane32 (u.vec (opA is a)) ((lane32 (u.vec (opB is b)) i).extractLsb' 0 4).toNat, 0)) s

end Sys2Proof.Machine
end

