-- ==== Sys2Proof/Machine/Dispatch.lean ====
section
/-! DEFINITION.
One arm per constructor of Instr: each a direct call of that instruction's meaning. -/

namespace Sys2Proof.Machine

open Sys2Proof

def exec (i : Instr) (s : State) : Host.Outcome State Fault Refusal :=
  match i with
  | .add d a b g inv => Sys2Proof.Machine.execAdd d a b g inv s
  | .sub d a b g inv => Sys2Proof.Machine.execSub d a b g inv s
  | .and d a b g inv => Sys2Proof.Machine.execAnd d a b g inv s
  | .or d a b g inv => Sys2Proof.Machine.execOr d a b g inv s
  | .xor d a b g inv => Sys2Proof.Machine.execXor d a b g inv s
  | .andn d a b g inv => Sys2Proof.Machine.execAndn d a b g inv s
  | .shl d a b g inv => Sys2Proof.Machine.execShl d a b g inv s
  | .shr d a b g inv => Sys2Proof.Machine.execShr d a b g inv s
  | .sar d a b g inv => Sys2Proof.Machine.execSar d a b g inv s
  | .rol d a b g inv => Sys2Proof.Machine.execRol d a b g inv s
  | .mul d a b g inv => Sys2Proof.Machine.execMul d a b g inv s
  | .mulhs d a b g inv => Sys2Proof.Machine.execMulhs d a b g inv s
  | .mulhu d a b g inv => Sys2Proof.Machine.execMulhu d a b g inv s
  | .divs d a b g inv => Sys2Proof.Machine.execDivs d a b g inv s
  | .divu d a b g inv => Sys2Proof.Machine.execDivu d a b g inv s
  | .rems d a b g inv => Sys2Proof.Machine.execRems d a b g inv s
  | .remu d a b g inv => Sys2Proof.Machine.execRemu d a b g inv s
  | .mins d a b g inv => Sys2Proof.Machine.execMins d a b g inv s
  | .minu d a b g inv => Sys2Proof.Machine.execMinu d a b g inv s
  | .maxs d a b g inv => Sys2Proof.Machine.execMaxs d a b g inv s
  | .maxu d a b g inv => Sys2Proof.Machine.execMaxu d a b g inv s
  | .clz d a g inv => Sys2Proof.Machine.execClz d a g inv s
  | .ctz d a g inv => Sys2Proof.Machine.execCtz d a g inv s
  | .popc d a g inv => Sys2Proof.Machine.execPopc d a g inv s
  | .brev d a g inv => Sys2Proof.Machine.execBrev d a g inv s
  | .bswap d a g inv => Sys2Proof.Machine.execBswap d a g inv s
  | .sext d a b g inv => Sys2Proof.Machine.execSext d a b g inv s
  | .zext d a b g inv => Sys2Proof.Machine.execZext d a b g inv s
  | .sel d a b p n => Sys2Proof.Machine.execSel d a b p n s
  | .addw d a b g inv => Sys2Proof.Machine.execAddw d a b g inv s
  | .subw d a b g inv => Sys2Proof.Machine.execSubw d a b g inv s
  | .mulw d a b g inv => Sys2Proof.Machine.execMulw d a b g inv s
  | .cmpeq p a b g inv => Sys2Proof.Machine.execCmpeq p a b g inv s
  | .cmpne p a b g inv => Sys2Proof.Machine.execCmpne p a b g inv s
  | .cmplts p a b g inv => Sys2Proof.Machine.execCmplts p a b g inv s
  | .cmpltu p a b g inv => Sys2Proof.Machine.execCmpltu p a b g inv s
  | .cmples p a b g inv => Sys2Proof.Machine.execCmples p a b g inv s
  | .cmpleu p a b g inv => Sys2Proof.Machine.execCmpleu p a b g inv s
  | .pand p a b g inv => Sys2Proof.Machine.execPand p a b g inv s
  | .por p a b g inv => Sys2Proof.Machine.execPor p a b g inv s
  | .pxor p a b g inv => Sys2Proof.Machine.execPxor p a b g inv s
  | .pnot p a g inv => Sys2Proof.Machine.execPnot p a g inv s
  | .movp d g inv => Sys2Proof.Machine.execMovp d g inv s
  | .movtp a g inv => Sys2Proof.Machine.execMovtp a g inv s
  | .addi d a inv => Sys2Proof.Machine.execAddi d a inv s
  | .andi d a inv => Sys2Proof.Machine.execAndi d a inv s
  | .ori d a inv => Sys2Proof.Machine.execOri d a inv s
  | .xori d a inv => Sys2Proof.Machine.execXori d a inv s
  | .shli d a inv => Sys2Proof.Machine.execShli d a inv s
  | .shri d a inv => Sys2Proof.Machine.execShri d a inv s
  | .sari d a inv => Sys2Proof.Machine.execSari d a inv s
  | .muli d a inv => Sys2Proof.Machine.execMuli d a inv s
  | .li d inv => Sys2Proof.Machine.execLi d inv s
  | .lix d a inv => Sys2Proof.Machine.execLix d a inv s
  | .cmpeqi p a inv => Sys2Proof.Machine.execCmpeqi p a inv s
  | .cmpltsi p a inv => Sys2Proof.Machine.execCmpltsi p a inv s
  | .cmpltui p a inv => Sys2Proof.Machine.execCmpltui p a inv s
  | .ldb d b w o => Sys2Proof.Machine.execLdb d b w o s
  | .ldbu d b w o => Sys2Proof.Machine.execLdbu d b w o s
  | .ldh d b w o => Sys2Proof.Machine.execLdh d b w o s
  | .ldhu d b w o => Sys2Proof.Machine.execLdhu d b w o s
  | .ldw d b w o => Sys2Proof.Machine.execLdw d b w o s
  | .ldwu d b w o => Sys2Proof.Machine.execLdwu d b w o s
  | .ldd d b w o => Sys2Proof.Machine.execLdd d b w o s
  | .stb sel b w o => Sys2Proof.Machine.execStb sel b w o s
  | .sth sel b w o => Sys2Proof.Machine.execSth sel b w o s
  | .stw sel b w o => Sys2Proof.Machine.execStw sel b w o s
  | .std sel b w o => Sys2Proof.Machine.execStd sel b w o s
  | .ldro d b w o => Sys2Proof.Machine.execLdro d b w o s
  | .ldacq d b w c o => Sys2Proof.Machine.execLdacq d b w c o s
  | .strel sel b w c o => Sys2Proof.Machine.execStrel sel b w c o s
  | .pfl2 b w o => Sys2Proof.Machine.execPfl2 b w o s
  | .br p inv d => Sys2Proof.Machine.execBr p inv d s
  | .brn p inv d => Sys2Proof.Machine.execBrn p inv d s
  | .call p inv d => Sys2Proof.Machine.execCall p inv d s
  | .jr p inv t => Sys2Proof.Machine.execJr p inv t s
  | .callr p inv t => Sys2Proof.Machine.execCallr p inv t s
  | .loop l c n => Sys2Proof.Machine.execLoop l c n s
  | .loopi l c n => Sys2Proof.Machine.execLoopi l c n s
  | .endseg => Sys2Proof.Machine.execEndseg s
  | .halt => Sys2Proof.Machine.execHalt s
  | .stgp p => Sys2Proof.Machine.execStgp p s
  | .trap p inv c => Sys2Proof.Machine.execTrap p inv c s
  | .brk t => Sys2Proof.Machine.execBrk t s
  | .nops n => Sys2Proof.Machine.execNops n s
  | .nop => Sys2Proof.Machine.execNop s
  | .vadd d a b => Sys2Proof.Machine.execVadd d a b s
  | .vsub d a b => Sys2Proof.Machine.execVsub d a b s
  | .vmul d a b => Sys2Proof.Machine.execVmul d a b s
  | .vfma d a b => Sys2Proof.Machine.execVfma d a b s
  | .vfms d a b => Sys2Proof.Machine.execVfms d a b s
  | .vdiv d a b => Sys2Proof.Machine.execVdiv d a b s
  | .vsqrt d a => Sys2Proof.Machine.execVsqrt d a s
  | .vmin d a b => Sys2Proof.Machine.execVmin d a b s
  | .vmax d a b => Sys2Proof.Machine.execVmax d a b s
  | .vcmpeq d a b => Sys2Proof.Machine.execVcmpeq d a b s
  | .vcmplt d a b => Sys2Proof.Machine.execVcmplt d a b s
  | .vcmple d a b => Sys2Proof.Machine.execVcmple d a b s
  | .vabs d a => Sys2Proof.Machine.execVabs d a s
  | .vneg d a => Sys2Proof.Machine.execVneg d a s
  | .vsel d a b => Sys2Proof.Machine.execVsel d a b s
  | .vclass d a => Sys2Proof.Machine.execVclass d a s
  | .vaddF64 d a b => Sys2Proof.Machine.execVaddF64 d a b s
  | .vsubF64 d a b => Sys2Proof.Machine.execVsubF64 d a b s
  | .vmulF64 d a b => Sys2Proof.Machine.execVmulF64 d a b s
  | .vfmaF64 d a b => Sys2Proof.Machine.execVfmaF64 d a b s
  | .vfmsF64 d a b => Sys2Proof.Machine.execVfmsF64 d a b s
  | .vdivF64 d a b => Sys2Proof.Machine.execVdivF64 d a b s
  | .vsqrtF64 d a => Sys2Proof.Machine.execVsqrtF64 d a s
  | .vminF64 d a b => Sys2Proof.Machine.execVminF64 d a b s
  | .vmaxF64 d a b => Sys2Proof.Machine.execVmaxF64 d a b s
  | .vcmpeqF64 d a b => Sys2Proof.Machine.execVcmpeqF64 d a b s
  | .vcmpltF64 d a b => Sys2Proof.Machine.execVcmpltF64 d a b s
  | .vcmpleF64 d a b => Sys2Proof.Machine.execVcmpleF64 d a b s
  | .vabsF64 d a => Sys2Proof.Machine.execVabsF64 d a s
  | .vnegF64 d a => Sys2Proof.Machine.execVnegF64 d a s
  | .vselF64 d a b => Sys2Proof.Machine.execVselF64 d a b s
  | .vclassF64 d a => Sys2Proof.Machine.execVclassF64 d a s
  | .viadd d a b => Sys2Proof.Machine.execViadd d a b s
  | .visub d a b => Sys2Proof.Machine.execVisub d a b s
  | .vimul d a b => Sys2Proof.Machine.execVimul d a b s
  | .vimad d a b => Sys2Proof.Machine.execVimad d a b s
  | .vand d a b => Sys2Proof.Machine.execVand d a b s
  | .vor d a b => Sys2Proof.Machine.execVor d a b s
  | .vxor d a b => Sys2Proof.Machine.execVxor d a b s
  | .vshl d a b => Sys2Proof.Machine.execVshl d a b s
  | .vshr d a b => Sys2Proof.Machine.execVshr d a b s
  | .vsar d a b => Sys2Proof.Machine.execVsar d a b s
  | .vimin d a b => Sys2Proof.Machine.execVimin d a b s
  | .vimax d a b => Sys2Proof.Machine.execVimax d a b s
  | .vicmpeq d a b => Sys2Proof.Machine.execVicmpeq d a b s
  | .vicmplt d a b => Sys2Proof.Machine.execVicmplt d a b s
  | .viadds d a b => Sys2Proof.Machine.execViadds d a b s
  | .vperm d a b => Sys2Proof.Machine.execVperm d a b s
  | .vmov d a => Sys2Proof.Machine.execVmov d a s
  | .vbcst d w => Sys2Proof.Machine.execVbcst d w s
  | .vcvt d a c => Sys2Proof.Machine.execVcvt d a c s
  | .vtrans d a p f => Sys2Proof.Machine.execVtrans d a p f s
  | .vred d a c => Sys2Proof.Machine.execVred d a c s
  | .vldt d a k => Sys2Proof.Machine.execVldt d a k s
  | .vstt sel a k => Sys2Proof.Machine.execVstt sel a k s
  | .vldg d a w o => Sys2Proof.Machine.execVldg d a w o s
  | .vstg sel a w o => Sys2Proof.Machine.execVstg sel a w o s
  | .vqrd d n => Sys2Proof.Machine.execVqrd d n s
  | .vpop d h => Sys2Proof.Machine.execVpop d h s
  | .vpush sel h => Sys2Proof.Machine.execVpush sel h s
  | .vext a m k => Sys2Proof.Machine.execVext a m k s
  | .viota d inv => Sys2Proof.Machine.execViota d inv s
  | .vsplat d a p k => Sys2Proof.Machine.execVsplat d a p k s
  | .awld sel => Sys2Proof.Machine.execAwld sel s
  | .astrm o inv e => Sys2Proof.Machine.execAstrm o inv e s
  | .aext n => Sys2Proof.Machine.execAext n s
  | .achk sel p => Sys2Proof.Machine.execAchk sel p s
  | .aout w => Sys2Proof.Machine.execAout w s
  | .aclr k l g a => Sys2Proof.Machine.execAclr k l g a s
  | .asnap sel d => Sys2Proof.Machine.execAsnap sel d s
  | .await k c => Sys2Proof.Machine.execAwait k c s
  | .asetl k => Sys2Proof.Machine.execAsetl k s
  | .aseed c r sel => Sys2Proof.Machine.execAseed c r sel s
  | .amode n sel m => Sys2Proof.Machine.execAmode n sel m s
  | .agen p => Sys2Proof.Machine.execAgen p s
  | .azone e a z => Sys2Proof.Machine.execAzone e a z s
  | .cpy e t b f k => Sys2Proof.Machine.execCpy e t b f k s
  | .cpyo e t b f sel => Sys2Proof.Machine.execCpyo e t b f sel s
  | .cpyt e t b f => Sys2Proof.Machine.execCpyt e t b f s
  | .gath e t b f inv => Sys2Proof.Machine.execGath e t b f inv s
  | .scat e t b f inv => Sys2Proof.Machine.execScat e t b f inv s
  | .bpf e t => Sys2Proof.Machine.execBpf e t s
  | .qcvt e t b f sel k => Sys2Proof.Machine.execQcvt e t b f sel k s
  | .dqcvt e t b f sel k => Sys2Proof.Machine.execDqcvt e t b f sel k s
  | .nmpk e t b f sel k => Sys2Proof.Machine.execNmpk e t b f sel k s
  | .nmup e t b f sel k => Sys2Proof.Machine.execNmup e t b f sel k s
  | .publ e t b f x => Sys2Proof.Machine.execPubl e t b f x s
  | .qbnd e u d n => Sys2Proof.Machine.execQbnd e u d n s
  | .twait e m => Sys2Proof.Machine.execTwait e m s
  | .cfol e t => Sys2Proof.Machine.execCfol e t s
  | .cabt e m => Sys2Proof.Machine.execCabt e m s
  | .xpose e t b f sel k eb => Sys2Proof.Machine.execXpose e t b f sel k eb s
  | .aadd d a b c o w => Sys2Proof.Machine.execAadd d a b c o w s
  | .aand d a b c o w => Sys2Proof.Machine.execAand d a b c o w s
  | .aor d a b c o w => Sys2Proof.Machine.execAor d a b c o w s
  | .axor d a b c o w => Sys2Proof.Machine.execAxor d a b c o w s
  | .amins d a b c o w => Sys2Proof.Machine.execAmins d a b c o w s
  | .aminu d a b c o w => Sys2Proof.Machine.execAminu d a b c o w s
  | .amaxs d a b c o w => Sys2Proof.Machine.execAmaxs d a b c o w s
  | .amaxu d a b c o w => Sys2Proof.Machine.execAmaxu d a b c o w s
  | .axchg d a b c o w => Sys2Proof.Machine.execAxchg d a b c o w s
  | .acas d a b c o w => Sys2Proof.Machine.execAcas d a b c o w s
  | .afadd32 d a b c o => Sys2Proof.Machine.execAfadd32 d a b c o s
  | .afadd64 d a b c o => Sys2Proof.Machine.execAfadd64 d a b c o s
  | .barinit a b c o => Sys2Proof.Machine.execBarinit a b c o s
  | .barrive d a c o => Sys2Proof.Machine.execBarrive d a c o s
  | .barriveJoin d a c o => Sys2Proof.Machine.execBarriveJoin d a c o s
  | .barwait d a b c o => Sys2Proof.Machine.execBarwait d a b c o s
  | .baraw d a c o => Sys2Proof.Machine.execBaraw d a c o s
  | .fence c o => Sys2Proof.Machine.execFence c o s
  | .ared n a b c o w => Sys2Proof.Machine.execAred n a b c o w s
  | .syncq d a c o => Sys2Proof.Machine.execSyncq d a c o s
  | .csrr d c => Sys2Proof.Machine.execCsrr d c s
  | .csrw d a c => Sys2Proof.Machine.execCsrw d a c s
  | .csrs d a c => Sys2Proof.Machine.execCsrs d a c s
  | .csrc d a c => Sys2Proof.Machine.execCsrc d a c s
  | .talloc a h => Sys2Proof.Machine.execTalloc a h s
  | .tfree h => Sys2Proof.Machine.execTfree h s
  | .bankacq a p => Sys2Proof.Machine.execBankacq a p s
  | .bankrel a p => Sys2Proof.Machine.execBankrel a p s
  | .ringadv a t n => Sys2Proof.Machine.execRingadv a t n s
  | .ringcnt d a => Sys2Proof.Machine.execRingcnt d a s
  | .stgw a p r => Sys2Proof.Machine.execStgw a p r s
  | .stgr d p r => Sys2Proof.Machine.execStgr d p r s
  | .valsetArr b w => Sys2Proof.Machine.execValsetArr b w s
  | .valset v b k n e w => Sys2Proof.Machine.execValset v b k n e w s
  | .frd d sel k => Sys2Proof.Machine.execFrd d sel k s
  | .fwr v sel k => Sys2Proof.Machine.execFwr v sel k s
  | .fwrAdvance u => Sys2Proof.Machine.execFwrAdvance u s
  | .fwrAbandonCommand u e t => Sys2Proof.Machine.execFwrAbandonCommand u e t s
  | .fwrCancelPending u n => Sys2Proof.Machine.execFwrCancelPending u n s
  | .fresume d k => Sys2Proof.Machine.execFresume d k s
  | .fkill k => Sys2Proof.Machine.execFkill k s
  | .farrive d a c w k => Sys2Proof.Machine.execFarrive d a c w k s
  | .fnext d k => Sys2Proof.Machine.execFnext d k s
  | .fstep d k => Sys2Proof.Machine.execFstep d k s
  | .curtdone => Sys2Proof.Machine.execCurtdone s
  | .rbseed h l => Sys2Proof.Machine.execRbseed h l s
  | .repmark a t => Sys2Proof.Machine.execRepmark a t s
  | .l1flush c => Sys2Proof.Machine.execL1flush c s
  | .l1inv c => Sys2Proof.Machine.execL1inv c s
  | .tlbiAll d => Sys2Proof.Machine.execTlbiAll d s
  | .tlbiRange d a => Sys2Proof.Machine.execTlbiRange d a s
  | .capdrop k => Sys2Proof.Machine.execCapdrop k s
  | .annulledBundleIssue u => Sys2Proof.Machine.execAnnulledBundleIssue u s
  | .pendingWriteVisible u n => Sys2Proof.Machine.execPendingWriteVisible u n s
  | .loadDataArrival u req => Sys2Proof.Machine.execLoadDataArrival u req s
  | .holdLineRaise u => Sys2Proof.Machine.execHoldLineRaise u s
  | .afterIssueFreeze u => Sys2Proof.Machine.execAfterIssueFreeze u s
  | .dieLostFreeze u d => Sys2Proof.Machine.execDieLostFreeze u d s
  | .prompterFaultPolicy u => Sys2Proof.Machine.execPrompterFaultPolicy u s
  | .restartableReexecution u c => Sys2Proof.Machine.execRestartableReexecution u c s
  | .preemptionRequest c => Sys2Proof.Machine.execPreemptionRequest c s
  | .preemptPark u => Sys2Proof.Machine.execPreemptPark u s
  | .segmentSwitch c => Sys2Proof.Machine.execSegmentSwitch c s
  | .unitStart u => Sys2Proof.Machine.execUnitStart u s
  | .wingsLoad l c => Sys2Proof.Machine.execWingsLoad l c s
  | .wingsSwap c => Sys2Proof.Machine.execWingsSwap c s
  | .weightClearDone c => Sys2Proof.Machine.execWeightClearDone c s
  | .rbStep u => Sys2Proof.Machine.execRbStep u s
  | .l1OpComplete c => Sys2Proof.Machine.execL1OpComplete c s
  | .copyCommandStart c e => Sys2Proof.Machine.execCopyCommandStart c e s
  | .copyCommandComplete c e => Sys2Proof.Machine.execCopyCommandComplete c e s
  | .streamSlabTransfer c e => Sys2Proof.Machine.execStreamSlabTransfer c e s
  | .copyEngineFault c e code addr => Sys2Proof.Machine.execCopyEngineFault c e code addr s
  | .publCount c e => Sys2Proof.Machine.execPublCount c e s
  | .flipNotice b d => Sys2Proof.Machine.execFlipNotice b d s
  | .flipNoticeAck b d => Sys2Proof.Machine.execFlipNoticeAck b d s
  | .valsetPerform n => Sys2Proof.Machine.execValsetPerform n s
  | .arrayCommandStart c => Sys2Proof.Machine.execArrayCommandStart c s
  | .awldComplete c => Sys2Proof.Machine.execAwldComplete c s
  | .vectorLatch c => Sys2Proof.Machine.execVectorLatch c s
  | .checkpointCopy c => Sys2Proof.Machine.execCheckpointCopy c s
  | .emitPublish c => Sys2Proof.Machine.execEmitPublish c s
  | .aoutPublish c => Sys2Proof.Machine.execAoutPublish c s
  | .aclrComplete c => Sys2Proof.Machine.execAclrComplete c s
  | .chainPartialSums c => Sys2Proof.Machine.execChainPartialSums c s
  | .chainEnd c => Sys2Proof.Machine.execChainEnd c s
  | .streamPoison c row col inSet => Sys2Proof.Machine.execStreamPoison c row col inSet s
  | .syncEngineOperation d => Sys2Proof.Machine.execSyncEngineOperation d s
  | .syncReply d => Sys2Proof.Machine.execSyncReply d s
  | .retryReceived d => Sys2Proof.Machine.execRetryReceived d s
  | .pageMigration asid va frame => Sys2Proof.Machine.execPageMigration asid va frame s
  | .bufferRegistration asid hbase pages phys0 phys1 => Sys2Proof.Machine.execBufferRegistration asid hbase pages phys0 phys1 s
  | .gets d line => Sys2Proof.Machine.execGets d line s
  | .getm d line => Sys2Proof.Machine.execGetm d line s
  | .upg d line => Sys2Proof.Machine.execUpg d line s
  | .putm d line => Sys2Proof.Machine.execPutm d line s
  | .puto d line => Sys2Proof.Machine.execPuto d line s
  | .pute d line => Sys2Proof.Machine.execPute d line s
  | .puts d line => Sys2Proof.Machine.execPuts d line s
  | .dataS d line => Sys2Proof.Machine.execDataS d line s
  | .dataE d line => Sys2Proof.Machine.execDataE d line s
  | .dataM d line => Sys2Proof.Machine.execDataM d line s
  | .datanf d line => Sys2Proof.Machine.execDatanf d line s
  | .upgack d line => Sys2Proof.Machine.execUpgack d line s
  | .inv d line => Sys2Proof.Machine.execInv d line s
  | .fwdgets d line => Sys2Proof.Machine.execFwdgets d line s
  | .fwdgetsnf d line => Sys2Proof.Machine.execFwdgetsnf d line s
  | .fwdgetm d line => Sys2Proof.Machine.execFwdgetm d line s
  | .fwddata d line => Sys2Proof.Machine.execFwddata d line s
  | .invack d line => Sys2Proof.Machine.execInvack d line s
  | .fwdack d line => Sys2Proof.Machine.execFwdack d line s
  | .putack d line => Sys2Proof.Machine.execPutack d line s
  | .putackstale d line => Sys2Proof.Machine.execPutackstale d line s
  | .push d line => Sys2Proof.Machine.execPush d line s
  | .rdset d line => Sys2Proof.Machine.execRdset d line s
  | .rdinv d line => Sys2Proof.Machine.execRdinv d line s
  | .rdack d line => Sys2Proof.Machine.execRdack d line s
  | .memoryFill line => Sys2Proof.Machine.execMemoryFill line s
  | .redirectedRead d line => Sys2Proof.Machine.execRedirectedRead d line s
  | .circuitSend d => Sys2Proof.Machine.execCircuitSend d s
  | .snoopTimerExpiry d => Sys2Proof.Machine.execSnoopTimerExpiry d s
  | .linkTrainingComplete d => Sys2Proof.Machine.execLinkTrainingComplete d s
  | .linkTrainFail d => Sys2Proof.Machine.execLinkTrainFail d s
  | .translationWalk asid va write c => Sys2Proof.Machine.execTranslationWalk asid va write c s
  | .walkComplete id => Sys2Proof.Machine.execWalkComplete id s
  | .replayEventDelivery u kind => Sys2Proof.Machine.execReplayEventDelivery u kind s
  | .gaddrWrite asid g v => Sys2Proof.Machine.execGaddrWrite asid g v s
  | .cue asid g => Sys2Proof.Machine.execCue asid g s
  | .transformDispatch c => Sys2Proof.Machine.execTransformDispatch c s
  | .phaseBoundaryRelease g => Sys2Proof.Machine.execPhaseBoundaryRelease g s
  | .launchReleaseDone l => Sys2Proof.Machine.execLaunchReleaseDone l s
  | .completionTarget l => Sys2Proof.Machine.execCompletionTarget l s
  | .cancelUnit asid serial n => Sys2Proof.Machine.execCancelUnit asid serial n s
  | .cancelLaunch asid serial => Sys2Proof.Machine.execCancelLaunch asid serial s
  | .cancelGraph asid g => Sys2Proof.Machine.execCancelGraph asid g s
  | .cancelPhase asid phase => Sys2Proof.Machine.execCancelPhase asid phase s
  | .cancelJob asid => Sys2Proof.Machine.execCancelJob asid s
  | .budgetPeriodStart r => Sys2Proof.Machine.execBudgetPeriodStart r s
  | .deadlineStrike l => Sys2Proof.Machine.execDeadlineStrike l s
  | .curtainMessage l c => Sys2Proof.Machine.execCurtainMessage l c s
  | .diversion u => Sys2Proof.Machine.execDiversion u s
  | .curtainNoentComplete u => Sys2Proof.Machine.execCurtainNoentComplete u s
  | .curtainOverrun u => Sys2Proof.Machine.execCurtainOverrun u s
  | .ptpMessage offset arb => Sys2Proof.Machine.execPtpMessage offset arb s
  | .ppsInput => Sys2Proof.Machine.execPpsInput s
  | .ptmResponse time => Sys2Proof.Machine.execPtmResponse time s
  | .holdoverEntry => Sys2Proof.Machine.execHoldoverEntry s
  | .tkset v => Sys2Proof.Machine.execTkset v s
  | .tktaisRead => Sys2Proof.Machine.execTktaisRead s
  | .inboundWrite bar addr data ro ido ep requester => Sys2Proof.Machine.execInboundWrite bar addr data ro ido ep requester s
  | .routeRelease id n => Sys2Proof.Machine.execRouteRelease id n s
  | .routeAck id n => Sys2Proof.Machine.execRouteAck id n s
  | .inboundRead bar addr len ro requester => Sys2Proof.Machine.execInboundRead bar addr len ro requester s
  | .inboundReadRelease id => Sys2Proof.Machine.execInboundReadRelease id s
  | .apctlWrite v => Sys2Proof.Machine.execApctlWrite v s
  | .xctlWrite v => Sys2Proof.Machine.execXctlWrite v s
  | .outboundLoadTimeout req => Sys2Proof.Machine.execOutboundLoadTimeout req s
  | .hostLinkDown => Sys2Proof.Machine.execHostLinkDown s
  | .estalPortTrained p gen2 x4 peer => Sys2Proof.Machine.execEstalPortTrained p gen2 x4 peer s
  | .estalPortStatusWrite p v => Sys2Proof.Machine.execEstalPortStatusWrite p v s
  | .moduleReset => Sys2Proof.Machine.execModuleReset s
  | .mreset v => Sys2Proof.Machine.execMreset v s
  | .attestationGo v => Sys2Proof.Machine.execAttestationGo v s
  | .attestationDone => Sys2Proof.Machine.execAttestationDone s
  | .powerThrottle on => Sys2Proof.Machine.execPowerThrottle on s
  | .thermalTrip => Sys2Proof.Machine.execThermalTrip s
  | .powerStageFault => Sys2Proof.Machine.execPowerStageFault s
  | .registerWrite off v => Sys2Proof.Machine.execRegisterWrite off v s
  | .hubDieFault => Sys2Proof.Machine.execHubDieFault s
  | .estalLinkDown p lanes => Sys2Proof.Machine.execEstalLinkDown p lanes s
  | .hostPortTrained => Sys2Proof.Machine.execHostPortTrained s
  | .pushAcknowledgement d line => Sys2Proof.Machine.execPushAcknowledgement d line s
  | .memoryWriteDone line => Sys2Proof.Machine.execMemoryWriteDone line s
  | .shootDown id d => Sys2Proof.Machine.execShootDown id d s
  | .shootDownAck id d => Sys2Proof.Machine.execShootDownAck id d s
  | .outboundWriteAck u dest => Sys2Proof.Machine.execOutboundWriteAck u dest s
  | .ideFailure => Sys2Proof.Machine.execIdeFailure s
  | .correctableError => Sys2Proof.Machine.execCorrectableError s
  | .flitRetry p => Sys2Proof.Machine.execFlitRetry p s
  | .pctlWrite asid v => Sys2Proof.Machine.execPctlWrite asid v s

end Sys2Proof.Machine
end

