-- ==== Sys2Proof/Machine/Issue.lean ====
section
/-! DEFINITION.
The issue of a bundle (R32 to R36): its slots are checked against the state before any of them takes effect, and then all
take effect or none does. -/

namespace Sys2Proof.Machine

/-! ### The slots of a bundle -/

/-- An operation of a bundle: its slot, its word, its instruction unless the encoding is reserved, and for a vector slot the
unit it uses (R135). -/
structure SlotOp where
  slot : Nat
  word : SlotWord
  instr : Option Instr
  vunit : Fin 2
  deriving DecidableEq, Repr

/-- The instruction of a slot; none for an encoding that R65 makes ILLEGAL_OP. -/
def instrOf (w : SlotWord) : Option Instr :=
  match decodeSlot w with
  | .instr i => if i.wellFormed then some i else none
  | _ => none

/-- The operations of numbered slots, the first vector slot on unit 0 and the second on unit 1; NOPs do nothing. -/
def slotOps (vec : Nat) : List (Nat × SlotWord) → List SlotOp
  | [] => []
  | (k, w) :: rest =>
    if w = 0xF0000000 then slotOps vec rest
    else { slot := k, word := w, instr := instrOf w, vunit := if vec = 0 then 0 else 1 } ::
      slotOps (if usesV w then vec + 1 else vec) rest

/-- The operations of a bundle. -/
def opsOf (ws : List SlotWord) : List SlotOp := slotOps 0 (bundleOps ws)

/-- The slot as its instruction sees it (R37). -/
def SlotOp.issue (o : SlotOp) (me : Uid) (h : Option Header) : Issue :=
  { Issue.empty with
    me := me, slot := BitVec.ofNat 2 o.slot, hasHdr := h.isSome, vunit := o.vunit,
    lend := match h with | some h => h.lend o.slot | none => 0
    stall := match h with | some h => h.stall | none => 0 }

/-- Running one slot. -/
def runOp (s : State) (o : SlotOp) : Host.Outcome State Fault Refusal :=
  match o.instr with
  | some i => exec i s
  | none => .next (noteResult s (match s.unit? s.issue.me with | some u => .fault cIllegalOp u.bundleVa | none => .done))

/-- The random-bit generator of a unit as the words that an earlier slot takes leave it, all else as it was (R163). -/
def keepRandom (s t : State) (me : Uid) : State :=
  match s.unit? me, t.unit? me with
  | some u, some v =>
    if v.csr.rbseed0 = u.csr.rbseed0 ∧ v.csr.rbseed1 = u.csr.rbseed1 then s
    else s.setUnit me (u.modCsr fun c => { c with rbseed0 := v.csr.rbseed0, rbseed1 := v.csr.rbseed1, rbqueue := v.csr.rbqueue })
  | _, _ => s

/-- What each slot of a bundle finds when it is tried on the state before the bundle; a vector slot behind one that takes a
random word finds the next one (R163). -/
def probe (s : State) (me : Uid) (h : Option Header) : List SlotOp → List (SlotOp × Issue) →
    Host.Outcome (List (SlotOp × Issue)) Fault Refusal
  | [], acc => .next acc
  | o :: rest, acc =>
    match runOp (s.setIssue (o.issue me h)) o with
    | .next t =>
      probe (if usesV o.word && t.issue.result == .done then keepRandom s t me else s) me h rest (acc ++ [(o, t.issue)])
    | .fault r => .fault r
    | .refused r => .refused r

/-! ### The order of effects

All slots read the state before the bundle.  Results go to the pending-write record, so the order matters only between an
effect at issue and a read of what it changes: loads and other reads come first, memory accesses among them in slot order
(R110, R117), random words are taken in the order of R163, a stream register is bound behind the commands that use it, and
stores come last. -/

/-- A store of vector elements. -/
def SlotOp.vectorStore (o : SlotOp) : Bool := match o.instr with | some (.vstg ..) => true | _ => false

/-- A Y.SYNC slot that orders the stores before it (R120). -/
def SlotOp.releases (o : SlotOp) : Bool := slotClass o.word == 0xB && o.word.getLsbD 2

/-- The place of an operation of a bundle in that order; a release stands behind the store of a lower slot. -/
def slotRank (ops : List SlotOp) (o : SlotOp) : Nat :=
  match o.instr with
  | some (.stb ..) | some (.sth ..) | some (.stw ..) | some (.std ..) | some (.strel ..) | some (.vstt ..) | some (.vstg ..) => 6
  | some (.vldt ..) | some (.vldg ..) | some (.csrr ..) | some (.csrw ..) | some (.csrs ..) | some (.csrc ..)
  | some (.ringcnt ..) | some (.stgr ..) | some (.rbseed ..) => 0
  | some (.qbnd ..) => 5
  | _ =>
    let c := slotClass o.word
    if c ≤ 2 then 0 else if c = 3 then 6 else if c ≤ 7 then 1 else if c ≤ 9 then 2
    else if c = 0xA then (if o.word.getLsbD 27 then 4 else 3)
    else if c = 0xB && !(o.releases && ops.any fun x => x.vectorStore && decide (x.slot < o.slot)) then 0 else 6

/-- The operations of a bundle in the order of their effects. -/
def ranked (ops : List SlotOp) : List SlotOp := (List.range 7).flatMap fun r => ops.filter fun o => slotRank ops o == r

/-- What the effects of a bundle came to: all of them, or one that could not follow those before it. -/
inductive Folded where
  | all (s : State)
  | stopped (t : State) (o : SlotOp) (r : SlotResult)

/-- Entries of one bundle by slot, the order in which those that become visible together are applied (R61). -/
def bySlot (l : List PEntry) : List PEntry := (List.range 4).flatMap fun k => l.filter fun e => e.slot.toNat == k

/-- The unit with the record it had before the bundle, of n entries, and the entries that a slot has made since. -/
def stash (s : State) (me : Uid) (n : Nat) : State × List PEntry :=
  match s.unit? me with
  | some u => (s.setUnit me { u with pend := u.pend.take n }, u.pend.drop n)
  | none => (s, [])

/-- The unit with all entries of its bundle in its record, but for one that the bundle has completed (R16). -/
def unstash (s : State) (me : Uid) (n : Nat) (l : List PEntry) : State :=
  match s.unit? me with
  | some u => if u.live then s.setUnit me { u with pend := u.pend.take n ++ bySlot (l ++ u.pend.drop n) } else s
  | none => s

/-- The effects of a bundle's slots, one after another.  Where there are `many`, each has passed its checks and meets the record
of n entries that stood before the bundle (R33, R62); `l` holds the entries made so far. -/
def runOps (me : Uid) (h : Option Header) (many : Bool) (n : Nat) (l : List PEntry) :
    List SlotOp → State → Host.Outcome Folded Fault Refusal
  | [], s => .next (.all (if many then unstash s me n l else s))
  | o :: rest, s =>
    match s.unit? me with
    | none => .next (.all s)
    | some _ =>
      match runOp (s.setIssue { o.issue me h with ready := many, xfer := s.issue.xfer, nops := s.issue.nops }) o with
      | .next t => match t.issue.result with
        | .done => if many then runOps me h many n (l ++ (stash t me n).2) rest (stash t me n).1
                   else runOps me h many n l rest t
        | r => .next (.stopped t o r)
      | .fault r => .fault r
      | .refused r => .refused r

/-! ### Read ports (R63, R64) and the check pass (R35, R141) -/

/-- The excess of one bank. -/
def bankExcess (ports : List (BitVec 3 × BitVec 2 × BitVec 4)) (b : Nat) : Nat :=
  let mine := ports.filter fun p => p.1.toNat % 4 == b
  ((mine.filter fun p => p.2.1 == 0).length - 2) + ((mine.filter fun p => p.2.1 != 0).length - 1)

/-- The summed excess of a bundle's reads, equal reads counting once. -/
def portExcess (l : List (SlotOp × Issue)) : Nat :=
  let ports := (l.flatMap fun x => x.2.ports).dedup
  ((List.range 4).map (bankExcess ports)).sum

/-- Length of the check pass: the longest latency of a slot that can raise an enabled flag. -/
def checkLength (fte : BitVec 5) (l : List (SlotOp × Issue)) : Nat :=
  (l.map fun x => if x.2.canRaise &&& fte = 0 then 0 else x.2.lat).foldl max 0

/-- Slots that raised an enabled flag, with the flags. -/
def trapping (fte : BitVec 5) (l : List (SlotOp × Issue)) : List (Nat × BitVec 5) :=
  (l.filter fun x => x.2.raised &&& fte != 0).map fun x => (x.1.slot, x.2.raised &&& fte)

/-! ### Freezes, waits and holds of a bundle (R36) -/

/-- The mask of slots. -/
def slotMask (l : List Nat) : BitVec 4 := l.foldl (fun m k => m ||| ((1#4) <<< k)) 0

/-- The unit freezes at its bundle. -/
def freezeBundle (s : State) (uid : Uid) (mask : BitVec 4) (slot : Nat) (code : BitVec 8) (addr : Va) : State :=
  freezeAtIssue (s.setIssue { Issue.empty with me := uid, slot := BitVec.ofNat 2 slot, mask := mask }) code addr

/-- Slots whose checks fail, lowest first: slot, code, address. -/
def failing (l : List (SlotOp × Issue)) : List (Nat × BitVec 8 × Va) :=
  l.filterMap fun x => match x.2.result with | .fault c a => some (x.1.slot, c, a) | _ => none

/-- A slot's translation is being walked: the bundle's checks are not complete, and another slot's fault waits for them
(R33, R36). -/
def walking (l : List (SlotOp × Issue)) : Bool := l.any fun x => x.2.result == .hold .walk

/-- What the bundle waits or holds for: a hold comes before a wait. -/
def waiting (l : List (SlotOp × Issue)) : Option (WaitKind × Bool) :=
  match l.findSome? fun x => match x.2.result with | .hold k => some k | _ => none with
  | some k => some (k, true)
  | none => (l.findSome? fun x => match x.2.result with | .wait k => some k | _ => none).map fun k => (k, false)

/-- What the slots that wait or hold do meanwhile, a slot that no longer does so doing nothing;
the bundle has not issued, so the chain and the loops stand as before. -/
def whileWaiting (s : State) (me : Uid) (h : Option Header) (u : UnitSt) (l : List (SlotOp × Issue)) : State :=
  let t := l.foldl (fun t x =>
    let again := match runOp (t.setIssue (x.1.issue me h)) x.1 with
      | .next t' => (match t'.issue.result with | .wait _ => t' | .hold _ => t' | _ => t)
      | _ => t
    match x.2.result with
    | .wait _ => again
    | .hold .random => match t.unit? me with
      | some v => fillQueue (t.setIssue (x.1.issue me h)) v
      | none => t
    | .hold _ => again
    | _ => t) s
  t.modUnit me fun v => { v with flow := u.flow, regs := { v.regs with ps := u.regs.ps } }

/-- Budget requests that a slot behind an admitted one leaves deferred (R381). -/
def keepDeferred (pre t : State) : State :=
  let keep (a b : Context) : Context :=
    { a with budgets := Vector.ofFn fun i => { a.budgets.get i with defer := (b.budgets.get i).defer, waiting := (b.budgets.get i).waiting } }
  pre.modHub fun x => { x with contexts := List.zipWith keep x.contexts t.hub.contexts }

/-- What is kept of the effects of a bundle that stopped part-way at a slot which waits: the deferral of its request, the
random word that is made for it (R163). -/
def afterStop (pre : State) (me : Uid) (t : State) (r : SlotResult) : State :=
  match r, pre.unit? me with
  | .hold .random, some u => fillQueue (pre.setIssue { Issue.empty with me := me }) u
  | .hold .budget, _ => keepDeferred pre t
  | _, _ => pre

/-! ### One attempt -/

/-- What the attempt to issue a bundle came to. -/
inductive Tried where
  | issued (s : State)
  | frozen (s : State)
  | waits (s : State) (k : WaitKind)
  | holds (s : State) (k : WaitKind)
  | stands (s : State)
  | lastWait

/-- The bundle has issued: the chain advances past it, and STALL and NOPS give the cycles to the next (R60, R89, R105); the
bundles behind a HALT that has issued never issue (R103). -/
def afterIssue (s : State) (uid : Uid) (h : Option Header) : State :=
  match s.unit? uid with
  | none => s
  | some u =>
    match u.run.status with
    | .complete _ => s.setUnit uid (u.modRun fun r => { r with bundles := r.bundles + 1 })
    | _ =>
      let stall := match h with | some h => h.stall.toNat | none => 0
      let s := leaveWait s uid
      let u := (leaveBundle u s.issue.xfer).modRun fun r =>
        { r with bundles := r.bundles + 1, gap := stall + s.issue.nops, wait := none, watchFree := false, standing := 0, stood := false,
                 parkPoint := none }
      s.setUnit uid ((u.modMem fun m => { m with haltRel := none }).modSyncSt fun y => { y with barwaitDone := none })

/-- The bytes that a store beside a HALT leaves in the cluster cache are written back behind the unit's end: every store of the
unit is then performed at device scope (R128). -/
def flushBehind (s : State) (uid : Uid) : State :=
  match s.unit? uid with
  | some u =>
    match u.run.status with
    | .complete .halted | .complete .curtain =>
      if (s.cluster u.ident.cluster).cache.any fun l => l.dirty != 0 then startRelease s uid u.ident.cluster 2 .none else s
    | _ => s
  | none => s

/-- The record and the landing buffer have room for what a bundle of several slots enters (R62, R111). -/
def hasRoom (t : State) (uid : Uid) (u : UnitSt) (many : Bool) : Bool :=
  match t.unit? uid with
  | some v => (decide (v.pend.length ≤ 48) || decide (v.pend.length ≤ u.pend.length))
      && (!many || decide (landingUsed t u.ident.cluster ≤ 32))
  | none => true

/-- An acquire that a lower slot of the bundle has begun, or the stores that its FENCE of kind acq_rel awaits, before a slot. -/
def acquireBelow (pre t : State) (uid : Uid) (c : ClusterNo) (ops : List SlotOp) (slot : BitVec 2) : Bool :=
  let mine (q : SyncReq) : Bool := q.uid == uid && q.acquire && decide (pre.nextReq ≤ q.id) && decide (q.slot < slot)
  let fence (o : SlotOp) : Bool := decide (o.slot < slot.toNat) && match o.instr with | some (.fence _ k) => k == 3 | _ => false
  (heldReqs (t.cluster c)).any mine || t.dies.toList.any (fun d => d.sync.queue.any mine)
    || (ops.any fence && (t.cluster c).rels.any fun r => r.uid == uid && r.payload == .fence && decide (pre.nextReq ≤ r.id))

/-- Of the loads of a bundle only those behind such an acquire are performed again once it is; the others stand (R121). -/
def settleRereads (pre t : State) (uid : Uid) (ops : List SlotOp) : State :=
  match t.unit? uid with
  | none => t
  | some u =>
    let fix (e : PEntry) : PEntry := match e.load with
      | some l =>
        if l.reread.isSome && decide (pre.nextReq ≤ l.req) && !acquireBelow pre t uid u.ident.cluster ops e.slot then
          { e with load := some { l with reread := none } }
        else e
      | none => e
    if (u.pend ++ u.drops).any fun e => e.load.any fun l => l.reread.isSome then
      t.setUnit uid { u with pend := u.pend.map fix, drops := u.drops.map fix }
    else t

/-- All checks have passed: the effects, or nothing where a slot must wait for one before it or the record has no room
(R62). -/
def commit (pre s : State) (uid : Uid) (u : UnitSt) (h : Option Header) (ops : List SlotOp) :
    Host.Outcome Tried Fault Refusal :=
  let many := decide (1 < ops.length)
  match runOps uid h many u.pend.length [] (ranked ops) (s.setIssue Issue.empty) with
  | .fault r => .fault r
  | .refused r => .refused r
  | .next (.stopped t o r) =>
    match r with
    | .fault c a => .next (.frozen (freezeBundle pre uid (slotMask [o.slot]) o.slot c a))
    | .wait k => .next (.waits (afterStop pre uid t r) k)
    | .hold k => .next (.holds (afterStop pre uid t r) k)
    | .done => .next (.issued (afterIssue t uid h))
  | .next (.all t) =>
    .next (if hasRoom t uid u many then .issued (afterIssue (if many then flushBehind (settleRereads pre t uid ops) uid else t) uid h) else .waits pre .room)

/-- A cycle of the check pass or of the serialisation of a bundle whose checks have passed: `some` while the cluster stands
still, or freezes with FP_TRAP where the check pass ends (R35, R36, R64). -/
def stand (s : State) (uid : Uid) (u : UnitSt) (l : List (SlotOp × Issue)) : Option Tried :=
  let pass := checkLength u.csr.fte l
  let excess := if u.csr.check.getLsbD 1 then 0 else portExcess l
  let left := if u.run.stood then u.run.standing else pass + excess
  if left ≤ excess && decide (0 < pass) && !(trapping u.csr.fte l).isEmpty then
    let t := trapping u.csr.fte l
    let first := t.headD (0, 0)
    some (.frozen (freezeBundle s uid (slotMask (t.map Prod.fst)) first.1 cFpTrap (first.2.setWidth 80)))
  else if left = 0 then none
  else
    let u := u.modRun fun r => { r with standing := left - 1, stood := true }
    let u := u.modCsr fun c => if excess < left then { c with holdc := c.holdc + 1 } else { c with portc := c.portc + 1 }
    some (.stands (s.setUnit uid u))

/-- A bundle that waited in an array, sync or engine wait issues in the cycle after its condition first holds (R242, R282,
R425). -/
def WaitKind.stops : WaitKind → Bool
  | .array | .sync | .ring | .token | .queueSlot | .bank | .releaseHalt => true
  | _ => false

/-- An attempt to issue the bundle at PC, fetched as `bs`. -/
def tryIssue (s : State) (uid : Uid) (u : UnitSt) (bs : List Byte) : Host.Outcome Tried Fault Refusal :=
  let ws := slotsOfBytes bs
  let h := bundleHeader ws
  if !bundleWellFormed ws then .next (.frozen (freezeBundle s uid 0xF 0 cIllegalBundle u.bundleVa))
  else
    let ops := opsOf ws
    let s1 := s.setUnit uid (enterBundle u)
    match probe s1 uid h ops [] with
    | .fault r => .fault r
    | .refused r => .refused r
    | .next l =>
      match (if walking l then [] else failing l) with
      | (k, c, a) :: rest => .next (.frozen (freezeBundle s uid (slotMask (k :: rest.map Prod.fst)) k c a))
      | [] =>
        match waiting l with
        | some (k, true) => .next (.holds (whileWaiting s1 uid h u l) k)
        | some (k, false) => .next (.waits (whileWaiting s1 uid h u l) k)
        | none =>
          if u.csr.check.getLsbD 1 && decide (0 < portExcess l) then .next (.frozen (freezeBundle s uid 0xF 0 cPort u.bundleVa))
          else if (match u.run.wait with | some k => k.stops | none => false) then .next .lastWait
          else match stand s uid u l with
            | some t => .next t
            | none => commit s s1 uid u h ops

end Sys2Proof.Machine
end

