-- ==== Sys2Proof/Machine/Cycle.lean ====
section
/-! DEFINITION.
One cycle of a core (R59, R80, R376 to R379): switches, holds, waits, the bundle at PC, unit time, the array's cycle, and
the budget of a curtain entry. -/

namespace Sys2Proof.Machine

/-! ### The end of a unit's cycle -/

/-- How a unit's cycle went: unheld; in an array, sync or engine wait; held, the cluster standing still; or its segment
ended, at a boundary or by the issue of its last bundle. -/
inductive CycleKind where
  | unheld | waited | held | parted | halted
  deriving DecidableEq, Repr

/-- Loads of every unit of a core whose data has a fixed time come one cycle nearer (R112). -/
def coreLoads (s : State) (c : ClusterNo) : State :=
  (List.range s.units.length).foldl (fun s i =>
    match s.unit? i with
    | some u => if u.ident.cluster == c && u.live && (u.pend ++ u.drops).any (fun e => e.awaited) then tickLoads s i else s
    | none => s) s

/-- The reach window of a struck unit: one unheld cycle less, or the kill where it is exhausted (R392). -/
def tickWindow (s : State) (uid : Uid) : State :=
  match s.unit? uid with
  | some u =>
    match u.curt.window with
    | some 0 => overrun s uid
    | some (n + 1) => s.setUnit uid (u.modCurt fun x => { x with window := some n })
    | none => s
  | none => s

/-- An unheld cycle of a unit (R80, R379). -/
def passTime (s : State) (uid : Uid) : State :=
  match s.unit? uid with
  | some u =>
    if u.live then tickWindow (s.setUnit uid ((retire u).modRun fun r => { r with segCycles := r.segCycles + 1 })) uid else s
  | none => s

/-- One cycle of the wrap-up budget of a unit in its curtain entry (R396, R397). -/
def tickBudget (s : State) (uid : Uid) : State :=
  match s.unit? uid with
  | some u =>
    if u.run.status == .running && u.curt.inentry then
      let s := s.setUnit uid (u.modCurt fun x => { x with budget := x.budget - 1 })
      if u.curt.budget ≤ 1 then overrun s uid else s
    else s
  | none => s

/-! ### The cycle of the unit that runs -/

/-- A cycle that waits: HOLDC counts, and the unit's time stands still. -/
def waitCycle (s : State) (uid : Uid) (k : Option WaitKind) : State :=
  s.modUnit uid fun u => (u.modCsr fun c => { c with holdc := c.holdc + 1 }).modRun fun r => { r with wait := k }

/-- A cycle in which the bundle at PC does not issue and the unit's time runs on. -/
def idleCycle (s : State) (uid : Uid) (k : WaitKind) : State :=
  s.modUnit uid fun u => u.modRun fun r => { r with wait := some k }

/-- The unit's segment still runs. -/
def runsOn (s : State) (uid : Uid) : Bool := match s.unit? uid with | some u => u.run.status == .running | none => false

/-- A cycle in which the unit took a boundary's event: diverted it runs on, else it has parted from its core. -/
def afterBoundary (s : State) (uid : Uid) : State × CycleKind := (s, if runsOn s uid then .unheld else .parted)

/-- A bundle found to wait: the unit gives way there when it is asked to (R101, R390), else it waits. -/
def waitOrGive (s : State) (uid : Uid) (k : WaitKind) : State × CycleKind :=
  match s.unit? uid with
  | none => (s, .parted)
  | some u =>
    if u.run.status != .running then (s, .parted)
    else if k.isPoint && pointWanted s u && !draining u then afterBoundary (takePoint s uid u 3) uid
    else if k.stops then (waitCycle s uid (some k), .waited)
    else (idleCycle s uid k, .unheld)

/-- The unit already waits at its bundle. -/
def alreadyWaits (u : UnitSt) : Bool := match u.run.wait with | some k => k.isPoint | none => false

/-- The bundle at PC, fetched: a CPT point, an annulled bundle, or an attempt to issue. -/
def bundleCycle (s : State) (uid : Uid) (u : UnitSt) (bs : List Byte) :
    Host.Outcome (State × CycleKind) Fault Refusal :=
  if cptCounts u bs && pointWanted s u && !draining u then .next (afterBoundary (takePoint s uid u 1) uid)
  else if u.flow.pc.ann then .next (issueAnnulled s uid u bs, .unheld)
  else
    match tryIssue s uid u bs with
    | .fault r => .fault r
    | .refused r => .refused r
    | .next t => .next <| match t with
      | .issued s => (s, if runsOn s uid then .unheld else .halted)
      | .frozen s => (s, .parted)
      | .waits s k => waitOrGive s uid k
      | .holds s k => (raiseHold s uid k, .held)
      | .stands s => (s, .held)
      | .lastWait => (waitCycle s uid none, .waited)

/-- The fetch of the bundle at PC (R36 row 1, R75). -/
def fetchCycle (s : State) (uid : Uid) (u : UnitSt) : Host.Outcome (State × CycleKind) Fault Refusal :=
  match fetchBundle s u with
  | (.walk, s) => .next (raiseHold (requestWalk s u.ident.cluster u.ident.asid u.bundleVa false) uid .walk, .held)
  | (.fault code a, s) => .next (freezeBundle s uid 0xF 0 code a, .parted)
  | (.got bs, s) => bundleCycle s uid u bs

/-- A bundle boundary: what it brings, then the bundle at PC. -/
def boundaryCycle (s : State) (uid : Uid) (u : UnitSt) : Host.Outcome (State × CycleKind) Fault Refusal :=
  match boundary s uid u with
  | (s, true) => .next (afterBoundary s uid)
  | (s, false) =>
    match s.unit? uid with
    | none => .next (s, .parted)
    | some u =>
      if alreadyWaits u && pointWanted s u && !draining u then .next (afterBoundary (takePoint s uid u 3) uid)
      else fetchCycle s uid u

/-- The cycle of the unit whose segment runs. -/
def unitCycle (s : State) (uid : Uid) : Host.Outcome (State × CycleKind) Fault Refusal :=
  match s.unit? uid with
  | none => .next (s, .parted)
  | some u =>
    let u := settle u
    let s := s.setUnit uid u
    if missing u then .next (raiseHold s uid .landing, .held)
    else if u.sync.barawReq.isSome && u.run.gap == 0 then
      match boundary s uid u with
      | (s, true) => .next (afterBoundary s uid)
      | (s, false) => .next (waitOrGive s uid .sync)
    else if u.run.gap != 0 then .next (s.setUnit uid (u.modRun fun r => { r with gap := r.gap - 1 }), .unheld)
    else boundaryCycle s uid u

/-! ### The cycle of a core -/

/-- Weight clearing of the array, one cycle (R233). -/
def clearCycle (s : State) (c : ClusterNo) : State := if (arrayOf s c).clearing = 1 then clearDone s c else clearTick s c

/-- The counters of the rings of the unit that runs, as the cycle finds them (R203). -/
def takeCounts (s : State) (c : ClusterNo) (uid : Uid) : State :=
  match s.unit? uid with
  | some u =>
    let l := (u.umem.tbl.filter fun x => x.ring).map fun x => (x.h, x.tp ++ x.hp)
    s.modCluster c fun k => { k with counts := l }
  | none => s

/-- What every core cycle ends with: the unit's part by kind, releases, banks that nothing touches any more, follow-ons where no unit
runs, the wrap-up budget, requests for pre-emption.  The cluster's engines stand still while the cycle is held (R15). -/
def endCycle (s : State) (c : ClusterNo) (uid : Option Uid) (kind : CycleKind) : State :=
  let s := match uid with
    | some u => if kind == .unheld || kind == .halted then passTime (coreLoads s c) u else coreLoads s c
    | none => coreLoads s c
  let s := if kind == .held then s else clearCycle s c
  let s := performReleases c (s.cluster c).rels.length s
  let s := if uid.isNone then deliverFollows s c slotOk else s
  let s := (if kind == .held then s else releaseBanks s c).modCluster c fun k => { k with held := kind == .held, counts := [] }
  let s := match uid with | some u => tickBudget s u | none => s
  let s := requestPreempt s c
  if kind == .parted then switchTick (beginSwitch s c) c else s

/-- A cycle of a core whose unit runs: the array's cycle begins before the bundle and ends after it, the follow-ons coming behind the
bundle's own command (R227), and a cycle that turns out to be held leaves the array as it was (R241). -/
def runCycle (s : State) (c : ClusterNo) (uid : Uid) : Host.Outcome State Fault Refusal :=
  if (s.cluster c).throttled then .next (endCycle (raiseHold s uid .power) c (some uid) .held)
  else if arrayRuns s c && chainHolds (arrayOf s c) then .next (endCycle (raiseHold s uid .array) c (some uid) .held)
  else
    match unitCycle (arrayPre (takeCounts s c uid) c) uid with
    | .fault r => .fault r
    | .refused r => .refused r
    | .next (t, kind) =>
      if kind != .held then .next (endCycle (arrayPost (deliverFollows t c slotOk) c) c (some uid) kind)
      else
        match unitCycle (takeCounts s c uid) uid with
        | .fault r => .fault r
        | .refused r => .refused r
        | .next (t, k) => .next (endCycle (if k == .held then t else raiseHold s uid .landing) c (some uid) .held)

/-- A cycle of a core (R59, R378): CYC counts; a switch goes on; a unit runs.  CYC counts before the bundle issues, so that it reads 1 in
the first core cycle after module reset: R76 gives its reset value 0 and that it counts the issue cycle and leaves the rest open, which is
the model's choice (log 82). -/
def coreCycle (s : State) (c : ClusterNo) : Host.Outcome State Fault Refusal :=
  let s := s.modCluster c fun k => { k with cyc := k.cyc + 1 }
  let s := endSwitch (beginSwitch s c) c
  match (s.cluster c).running with
  | some uid => runCycle s c uid
  | none => .next (endCycle (switchTick s c) c none .waited)

/-- Cycles of a die's memory controllers by its n-th core cycle: 1.8 GHz beside 1.2 GHz. -/
def memCycles (n : Nat) : Nat := 3 * n / 2

/-- A core-clock cycle of a die: its circuits advance (R291, R292), and the budget periods of its synchronisation engine and its
memory controllers begin where their own clocks reach a multiple of 65,536 (R5, R380). -/
def tickDie (s : State) (d : DieNo) : State :=
  let n := (s.die d).dieCyc + 1
  let s := circuitCycle (s.modDie d fun x => { x with dieCyc := n }) d
  let s := if n % 65536 = 0 then startPeriod s (Fin.ofNat 19 (bSync d)) else s
  if memCycles (n - 1) / 65536 = memCycles n / 65536 then s else startPeriod s (Fin.ofNat 19 (bDram d))

/-- The cycle of the die, which its first active core brings with it; the first active core of all brings that of the dies with none. -/
def dieCycle (s : State) (c : ClusterNo) : State :=
  let first (p : ClusterNo → Bool) : Bool := !(s.active.any fun x => p x && decide (x.val < c.val))
  let s' := if first fun x => dieOf x == dieOf c then tickDie s (dieOf c) else s
  if first fun _ => true then
    ((List.finRange 8).filter fun d => d != dieOf c && !(s.die d).lost && !(s.active.any fun x => dieOf x == d)).foldl tickDie s'
  else s'

/-- A core takes a cycle, unless a module failure has stopped it (R423) or its die is lost. -/
def coreStep (s : State) (c : ClusterNo) : Host.Outcome State Fault Refusal :=
  if s.mod.stopped || (s.die (dieOf c)).lost then .next s
  else
    match coreCycle (dieCycle s c) c with
    | .next t => .next (t.setIssue Issue.empty)
    | .fault r => .fault r
    | .refused r => .refused r

end Sys2Proof.Machine
end

