-- ==== Sys2Proof/Machine/Schedule.lean ====
section
/-! DEFINITION.
What the next step does.  The cores, the engines, the caches, the walker and the outside world act each in its own time,
and the manual orders them only where a rule says so; one step is one event of one of them, or one cycle of one core.
`State.inputs` says which, as plain data; where it is empty the default order below chooses (notes/assumptions 1). -/

namespace Sys2Proof.Machine

/-- The instruction is an event row of the table, which no slot encodes. -/
def isEvent (i : Instr) : Bool := encode i == 0xD0000000

/-! ### Events that may be due -/

/-- An event, by its meaning. -/
abbrev Event := State → Host.Outcome State Fault Refusal

/-- A message of the directory protocol reaches its end (R297). -/
def messageEvents (m : Msg) : List Event :=
  match m.kind with
  | .getS => [execRedirectedRead m.die m.line, execGets m.die m.line]
  | .getM => [execGetm m.die m.line]
  | .upg => [execUpg m.die m.line]
  | .putM => [execPutm m.die m.line]
  | .putO => [execPuto m.die m.line]
  | .putE => [execPute m.die m.line]
  | .putS => [execPuts m.die m.line]
  | .dataS => [execDataS m.die m.line]
  | .dataE => [execDataE m.die m.line]
  | .dataM => [execDataM m.die m.line]
  | .dataNF => [execDatanf m.die m.line]
  | .upgAck => [execUpgack m.die m.line]
  | .inv => [execInv m.die m.line]
  | .fwdGetS => [execFwdgets m.die m.line]
  | .fwdGetSNF => [execFwdgetsnf m.die m.line]
  | .fwdGetM => [execFwdgetm m.die m.line]
  | .fwdData => [execFwddata m.die m.line]
  | .invAck => [execInvack m.die m.line]
  | .fwdAck => [execFwdack m.die m.line]
  | .putAck => [execPutack m.die m.line]
  | .putAckStale => [execPutackstale m.die m.line]
  | .push => [execPush m.die m.line]
  | .pushAck => [execPushAcknowledgement m.die m.line]
  | .rdSet => [execRdset m.die m.line]
  | .rdInv => [execRdinv m.die m.line]
  | .rdAck => [execRdack m.die m.line]

/-- The directory: messages under way, memory reads and writes. -/
def directoryEvents (s : State) : List Event :=
  s.hub.dir.net.flatMap messageEvents ++
  s.hub.dir.mem.map fun x => if x.2 then execMemoryFill x.1 else execMemoryWriteDone x.1

/-- The walker: walks, shoot-downs, flip notices, validity fields. -/
def walkerEvents (s : State) : List Event :=
  let w := s.hub.walk
  (w.walks.filter fun x => x.fail.isNone).map (fun x => execWalkComplete x.id) ++
  w.shoots.flatMap (fun x => (if x.dies.isEmpty && x.migrate.isSome then [0] else x.dies).map fun d => if x.dies.isEmpty || w.shootAcks.contains (x.id, d) then execShootDownAck x.id d else execShootDown x.id d) ++
  w.noticeAcks.map (fun x => execFlipNoticeAck x.1 x.2) ++ w.notices.map (fun x => execFlipNotice x.1 x.2) ++
  (if w.valsets.isEmpty then [] else [execValsetPerform 0])

/-- A die: its synchronisation engine and its link. -/
def dieEvents (s : State) (d : DieNo) : List Event :=
  let x := s.die d
  (if x.lost then [] else
    (if x.sync.replies.isEmpty then [] else [execRetryReceived d, execSyncReply d]) ++
    (if x.sync.queue.isEmpty then [] else [execSyncEngineOperation d]) ++
    (if x.link == .training then [execLinkTrainingComplete d] else []))

/-- A copy engine. -/
def engineEvents (s : State) (c : ClusterNo) (e : BitVec 1) : List Event :=
  if (s.engine c e).queue.isEmpty then []
  else [execCopyCommandStart c e, execStreamSlabTransfer c e, execCopyCommandComplete c e, execPublCount c e]

/-- A cluster: its engines, caches, wings, and the chain that ends at its array. -/
def clusterEvents (s : State) (c : ClusterNo) : List Event :=
  let k := s.cluster c
  engineEvents s c 0 ++ engineEvents s c 1 ++
  (if k.l1op.isSome then [execL1OpComplete c] else []) ++
  (if k.transforms.isEmpty then [] else [execTransformDispatch c]) ++
  (if k.shadowWings.isSome then [execWingsSwap c] else []) ++
  (match k.array.chainNet with | [] => [] | m :: _ => if m.fin then [execChainEnd c] else [execChainPartialSums c])

/-- A unit: its loads that only an event brings, faults found after issue while it is parked, an escalated prompter's policy,
and what a replay delivers. -/
def unitEvents (s : State) (uid : Uid) (u : UnitSt) : List Event :=
  (u.pend.filterMap fun e => match e.load with
    | some l => if e.awaited && l.arrive.isNone then some (execLoadDataArrival uid l.req) else none
    | none => none) ++
  (if u.run.status == .parked && !u.run.due.isEmpty then [execAfterIssueFreeze uid] else []) ++
  (if u.run.status == .stopped then [execPrompterFaultPolicy uid] else []) ++
  (if reexecutable u then (List.finRange 128).map (execRestartableReexecution uid) else []) ++
  (match s.ctx? u.ident.asid with
    | some k => if k.replay && !k.replayStopped then [execReplayEventDelivery uid 0, execReplayEventDelivery uid 1,
        execReplayEventDelivery uid 2, execReplayEventDelivery uid 3] else []
    | none => [])

/-- A launch: wings to load, its release and completion target, curtain messages. -/
def launchEvents (s : State) (li : Nat) (l : Launch) : List Event :=
  l.pendingWings.map (fun c => execWingsLoad li c) ++
  (if l.finish = 1 then [execLaunchReleaseDone li] else if l.finish = 2 then [execCompletionTarget li] else []) ++
  (if l.struck && !l.done then (s.active.filter fun c => messageDue s li c).map (fun c => execCurtainMessage li c) else [])

/-- The host port and the module. -/
def portEvents (s : State) : List Event :=
  s.hub.inWrites.flatMap (fun w => (List.range w.routes.length).map fun n =>
    match w.routes[n]? with
    | some r => if r.released.isNone then execRouteRelease w.id n else execRouteAck w.id n
    | none => execRouteAck w.id n) ++
  s.hub.inReads.map (fun r => execInboundReadRelease r.id) ++
  s.hub.outWrites.map (fun w => execOutboundWriteAck w.uid w.dest) ++
  (if s.mod.attBusy then [execAttestationDone] else [])

/-- A graph at a phase boundary. -/
def graphEvents (s : State) : List Event :=
  (List.finRange 64).filterMap fun g =>
    let x := s.graph g
    if x.state == 2 && x.nodes.any (fun n => n.kind == 6 && n.fired && !n.done) then some (execPhaseBoundaryRelease g) else none

/-- The cancels in progress (R375). -/
def cancelEvents (s : State) : List Event :=
  s.hub.contexts.filterMap fun k => k.cancels.head?.map fun c t => .next (performCancel t k.asid c)

/-- The events that may be due, in the order in which the default schedule looks at them. -/
def candidates (s : State) : List Event :=
  walkerEvents s ++ directoryEvents s ++ (List.finRange 8).flatMap (dieEvents s) ++
  (List.range s.units.length).flatMap (fun i => match s.unit? i with | some u => unitEvents s i u | none => []) ++
  s.active.flatMap (clusterEvents s) ++
  (List.range s.hub.launches.length).flatMap (fun i => match s.launch? i with | some l => launchEvents s i l | none => []) ++
  graphEvents s ++ cancelEvents s ++ portEvents s

/-! ### The default order -/

/-- An event's effect, where it has one. -/
def effectOf (s : State) (e : Event) : Option State :=
  match e s with
  | .next t => if t = s then none else some t
  | _ => none

/-- The effect of the first event that has one, looking from the n-th on, round the list. -/
def firstEffect (s : State) (n : Nat) : Option State :=
  let l := candidates s
  match l with
  | [] => none
  | _ => (l.rotate n).findSome? (effectOf s)

/-- A core with something to do in its next cycle. -/
def coreBusy (s : State) (c : ClusterNo) : Bool :=
  let k := s.cluster c
  !(s.die (dieOf c)).lost &&
  (k.running.isSome || k.switch.isSome || (nextEntry s c).isSome || !k.rels.isEmpty || decide (0 < k.array.clearing))

/-- The hub's clock beside a core's: four hub cycles pass in three of the first active core (R5). -/
def passClocks (s : State) (c : ClusterNo) : State :=
  if s.active.head? == some c then passHubCycles s (if (s.cluster c).cyc.toNat % 3 = 0 then 2 else 1) else s

/-- A die with no core at work and no message under way may let its link doze or sleep: when a link does the manual does not say, so a
free value does (R311). -/
def restLink (s : State) (d : DieNo) : State :=
  if (s.die d).link == .active && !(s.active.any fun c => dieOf c == d) && !(s.hub.dir.net.any fun m => m.die == d) then
    let (w, s) := s.freeWord
    if w.getLsbD 0 then s.modDie d fun x => { x with link := if w.getLsbD 1 then .sleep else .doze } else s
  else s

/-- Hub time passes with nothing else going on. -/
def restLinks (s : State) : State := (List.finRange 8).foldl restLink s

/-- A cycle of the busy core whose turn it is; none where no core has anything to do. -/
def busyCycle (s : State) : Option (Host.Outcome State Fault Refusal) :=
  let l := s.active.filter (coreBusy s)
  (l[s.turn / 2 % l.length]?).map fun c =>
    match coreStep s c with
    | .next t => .next (passClocks t c)
    | x => x

/-- The earliest deadline that has not struck: its launch and its time. -/
def nextDeadline (s : State) : Option (Nat × Nat) :=
  (List.range s.hub.launches.length).foldl (fun best i =>
    match s.launch? i with
    | some l =>
      match l.deadline with
      | some t => if l.registered && !l.struck && !l.done then
          (match best with | some (b, t') => if t < t' then some (i, t) else some (b, t') | none => some (i, t)) else best
      | none => best
    | none => best) none

/-- A step that no input orders: events and core cycles take turns, and where neither is due time runs on to the next
deadline. -/
def defaultStep (s : State) : Host.Outcome State Fault Refusal :=
  if s.mod.stopped then .next s
  else
    let s' := { s with turn := s.turn + 1 }
    if s.turn % 2 = 0 then
      match busyCycle s' with
      | some o => o
      | none => match firstEffect s' (s.turn / 2) with
        | some t => .next t
        | none => match nextDeadline s with | some (li, _) => execDeadlineStrike li s' | none => .next (restLinks s)
    else
      match firstEffect s' (s.turn / 2) with
      | some t => .next t
      | none => match busyCycle s' with
        | some o => o
        | none => match nextDeadline s with | some (li, _) => execDeadlineStrike li s' | none => .next (restLinks s)

/-! ### The step -/

/-- What every step ends with: the front end's own work, prompters whose single step has ended, the recorder's ring. -/
def settleAll (s : State) : State :=
  if s.mod.stopped then s.setIssue Issue.empty
  else (drainRecorders (finishSteps (frontTick s))).setIssue Issue.empty

/-- The outcome with everything settled. -/
def settled (o : Host.Outcome State Fault Refusal) : Host.Outcome State Fault Refusal :=
  match o with
  | .next t => .next (settleAll t)
  | .fault r => .fault r
  | .refused r => .refused r

/-- An input of the schedule; an instruction that is no event is not the schedule's to execute. -/
def takeInput (i : Input) (s : State) : Host.Outcome State Fault Refusal :=
  match i with
  | .event i => if isEvent i then exec i s else .next s
  | .core c => coreStep s c
  | .hub n => .next (if s.mod.stopped then s else restLinks (passHubCycles s n))

/-- One step. -/
def scheduled (s : State) : Host.Outcome State Fault Refusal :=
  match s.inputs with
  | i :: rest => settled (takeInput i { s with inputs := rest })
  | [] => settled (defaultStep s)

end Sys2Proof.Machine
end

