-- ==== Sys2Proof/Machine/Step.lean ====
section
/-! DEFINITION.
The step of the machine, and the placing of one instruction where the next step fetches it. -/

namespace Sys2Proof.Machine

/-- One step: the input that is first in `inputs`, or what the default order chooses (notes/assumptions 1). -/
def step (s : State) : Host.Outcome State Fault Refusal := scheduled s

/-! ### A program at hand (notes/assumptions 4)

A program is loaded from outside: the host writes an image, a job page and a graph, and a cue starts the unit that runs it.
`withFetchWord` stands for all of that, with a program of one bundle at virtual address 0. -/

/-- The sixteen bytes of a bundle whose first slot is `w` and whose other slots are NOP. -/
def fetchBytes (w : Nat) : List Byte :=
  bytesOfWord (BitVec.ofNat 32 w) ++ bytesOfWord 0xF0000000 ++ bytesOfWord 0xF0000000 ++ bytesOfWord 0xF0000000

/-- Virtual page 0 of ASID 1 at physical address 0, readable, writable and executable. -/
def fetchEntry : TlbEntry :=
  { asid := 1, vpn := 0, level := 0, frame0 := 0, frame1 := 0, buffer := none, rd := true, wr := true, ex := true,
    priv := false, sync := false, tvg := false, key := 0, rfloor := 0, rceil := 0, dirty := true, wframe := none }

/-- The context of the program: ASID 1, resident in front-end slot 0, with no budget limit. -/
def fetchContext : Context :=
  { asid := 1, slot := 0, root := 0, dies := 1, phase := 0, cancels := [], pwait := 0, pentry := 0, pctl := 0,
    lqsel := 0, serial := 0, budgets := Vector.replicate 19 ⟨0, 0, 0, [], []⟩, slots := [], frozenSeq := 0,
    cancelled := false, replay := false, replayStopped := false, log := [], recorder := [], recLaunches := [], recInputs := [], recDigest := false, recDone := 0,
    replayLog := [], replayEvents := [], recAreas := [] }

/-- The program's unit, at the bundle at address 0. -/
def fetchUnit : UnitSt :=
  (UnitSt.fresh { launch := none, index := 0, asid := 1, cluster := 0, prompt := none, restart := false, instances := 0,
                  serves := none } 0 0).modRun fun r => { r with status := .running, started := true }

/-- `s` with the instruction word `w` in the first slot of the bundle that the next step fetches: a unit of its own runs on
cluster 0, which takes the next core cycle. -/
def State.withFetchWord (s : State) (_nbits w : Nat) : State :=
  let t := deviceWrite { s with poison := s.poison.filter fun l => l != 0 } 0 (fetchBytes w) 0
  let uid := t.units.length
  let h : Hub := { t.hub with contexts := fetchContext :: t.hub.contexts
                              walk := { t.hub.walk with walks := t.hub.walk.walks.filter fun x => x.asid != 1 } }
  { t with
    units := t.units ++ [fetchUnit]
    clusters := t.clusters.set 0 { Cluster.reset with running := some uid, order := [uid], tlb := [fetchEntry] }
    dies := t.dies.set 0 { t.dies.get 0 with lost := false }
    hub := h
    mod := { t.mod with stopped := false }
    active := if t.active.contains 0 then t.active else 0 :: t.active
    inputs := .core 0 :: t.inputs }

end Sys2Proof.Machine
end

