-- ==== Sys2Proof/Safety.lean ====
section
/-! DEFINITION.
The terms that statements about the machine use: a slot at issue, what a run may not do, what an instruction leaves as it
was, and the canonical form of memory. -/

namespace Sys2Proof.Safety

open Sys2Proof.Machine

/-! ### Runs -/

/-- The outcome is a next state. -/
def Runs (o : Host.Outcome State Fault Refusal) : Prop := ∃ t, o = .next t

/-- A safe state: the machine's next step is a next state, neither a fault nor a refusal. -/
def Safe (s : State) : Prop := Runs (step s)

/-- Every memory is held in its one canonical form: LPDDR6, the on-chip storage of every cluster, and the buffer of the update
window. -/
def Canonical (s : State) : Prop :=
  Memory.wf s.mem = true ∧ Memory.wf s.mod.update = true ∧
  ∀ c, Memory.wf (s.cluster c).tileSram = true ∧ Memory.wf (s.cluster c).chipSram = true ∧ Memory.wf (s.cluster c).pinSram = true

/-! ### A slot at issue -/

/-- `u` is the unit whose bundle is at issue. -/
abbrev AtIssue (s : State) (u : UnitSt) : Prop := s.unit? s.issue.me = some u

/-- No header lends the slot a byte (R41). -/
abbrev Unlent (s : State) : Prop := s.issue.lend = 0

/-- The stall check of R62 passes: it is off, or no pending write stands in the way. -/
abbrev NoHazard (u : UnitSt) (reads : List Dest) (writes : List (Dest × Nat)) : Prop := stallBad u reads writes = false

/-! ### Frames -/

/-- Nothing but the units and the record of the slot at issue differs: memory, caches, SRAM, engines, the array, the hub
and the module are as they were. -/
def SameBeyondUnits (s t : State) : Prop :=
  t.clusters = s.clusters ∧ t.dies = s.dies ∧ t.hub = s.hub ∧ t.mod = s.mod ∧ t.mem = s.mem ∧ t.poison = s.poison ∧
  t.lineKeys = s.lineKeys ∧ t.inputs = s.inputs ∧ t.active = s.active ∧ t.turn = s.turn ∧ t.nextReq = s.nextReq ∧
  t.fresh = s.fresh

/-- Of the units only the one at issue differs, and of it only the pending-write record, which has entries for `ds` more. -/
def OnlyRecord (s t : State) (u : UnitSt) (ds : List Dest) : Prop :=
  ∃ es : List PEntry, (∀ e ∈ es, e.dest ∈ ds ∧ e.dest.discarded = false) ∧
    t.units = s.units.set s.issue.me { u with pend := u.pend ++ es }

/-- Everything of a unit but its registers, predicates and FLAGS, its pending writes and its other CSRs. -/
def SameBeyondRegs (u v : UnitSt) : Prop :=
  v.ident = u.ident ∧ v.curt = u.curt ∧ v.flow = u.flow ∧ v.umem = u.umem ∧ v.eng = u.eng ∧ v.sync = u.sync ∧ v.run = u.run

/-! ### What a slot comes to -/

/-- The state behind a slot whose checks pass: its effect, noted as done. -/
def done (t : State) : State := noteResult t .done

/-- The state behind a slot that takes a fault: the unit frozen at its bundle with that code and address, and no effect of
the slot (R33). -/
def faulted (s : State) (code : BitVec 8) (addr : Va) : State := noteResult (freezeAtIssue s code addr) (.fault code addr)

/-! ### The scalar forms, in the arithmetic of R83 to R88 -/

/-- A register-to-register form: its instruction, latency and result. -/
structure RRForm where
  ins : BitVec 6 → BitVec 6 → BitVec 6 → BitVec 3 → BitVec 1 → Instr
  lat : Nat
  f : Word → Word → Word

/-- n of R83: y[5:0]. -/
def cnt (y : Word) : Nat := y.toNat % 64

/-- The rows of R83 with two sources. -/
def rrForms : List RRForm :=
  [⟨.add, 1, fun x y => BitVec.ofNat 64 (x.toNat + y.toNat)⟩,
   ⟨.sub, 1, fun x y => BitVec.ofInt 64 (x.toNat - y.toNat)⟩,
   ⟨.and, 1, fun x y => BitVec.ofFnLE fun i : Fin 64 => x.getLsbD i && y.getLsbD i⟩,
   ⟨.or, 1, fun x y => BitVec.ofFnLE fun i : Fin 64 => x.getLsbD i || y.getLsbD i⟩,
   ⟨.xor, 1, fun x y => BitVec.ofFnLE fun i : Fin 64 => x.getLsbD i != y.getLsbD i⟩,
   ⟨.andn, 1, fun x y => BitVec.ofFnLE fun i : Fin 64 => x.getLsbD i && !y.getLsbD i⟩,
   ⟨.shl, 1, fun x y => BitVec.ofNat 64 (x.toNat * 2 ^ cnt y)⟩,
   ⟨.shr, 1, fun x y => BitVec.ofNat 64 (x.toNat / 2 ^ cnt y)⟩,
   ⟨.sar, 1, fun x y => BitVec.ofInt 64 (x.toInt / 2 ^ cnt y)⟩,
   ⟨.rol, 1, fun x y => BitVec.ofFnLE fun i : Fin 64 => x.getLsbD ((i + 64 - cnt y) % 64)⟩,
   ⟨.mul, 3, fun x y => BitVec.ofNat 64 (x.toNat * y.toNat)⟩,
   ⟨.mulhs, 3, fun x y => BitVec.ofInt 64 (x.toInt * y.toInt / 2 ^ 64)⟩,
   ⟨.mulhu, 3, fun x y => BitVec.ofNat 64 (x.toNat * y.toNat / 2 ^ 64)⟩,
   ⟨.mins, 1, fun x y => BitVec.ofInt 64 (min x.toInt y.toInt)⟩,
   ⟨.minu, 1, fun x y => BitVec.ofNat 64 (min x.toNat y.toNat)⟩,
   ⟨.maxs, 1, fun x y => BitVec.ofInt 64 (max x.toInt y.toInt)⟩,
   ⟨.maxu, 1, fun x y => BitVec.ofNat 64 (max x.toNat y.toNat)⟩,
   ⟨.sext, 1, fun x y => BitVec.ofFnLE fun i : Fin 64 => x.getLsbD (min i (cnt y))⟩,
   ⟨.zext, 1, fun x y => BitVec.ofNat 64 (x.toNat % 2 ^ (cnt y + 1))⟩,
   ⟨.addw, 1, fun x y => (BitVec.ofNat 32 (x.toNat + y.toNat)).signExtend 64⟩,
   ⟨.subw, 1, fun x y => (BitVec.ofInt 32 (x.toNat - y.toNat)).signExtend 64⟩,
   ⟨.mulw, 3, fun x y => (BitVec.ofNat 32 (x.toNat % 2 ^ 32 * (y.toNat % 2 ^ 32))).signExtend 64⟩]

/-- A form with one source: its instruction and result; latency 1. -/
structure UnaryForm where
  ins : BitVec 6 → BitVec 6 → BitVec 3 → BitVec 1 → Instr
  f : Word → Word

/-- The rows of R83 with one source. -/
def unaryForms : List UnaryForm :=
  [⟨.clz, fun x => BitVec.ofNat 64 ((List.range 64).takeWhile fun i => !x.getLsbD (63 - i)).length⟩,
   ⟨.ctz, fun x => BitVec.ofNat 64 ((List.range 64).takeWhile fun i => !x.getLsbD i).length⟩,
   ⟨.popc, fun x => BitVec.ofNat 64 ((List.range 64).countP fun i => x.getLsbD i)⟩,
   ⟨.brev, fun x => BitVec.ofFnLE fun i : Fin 64 => x.getLsbD (63 - i)⟩,
   ⟨.bswap, fun x => BitVec.ofFnLE fun i : Fin 64 => x.getLsbD (8 * (7 - i / 8) + i % 8)⟩]

/-- The divisions of R84: rounded toward zero, the remainder with the sign of x. -/
def divForms : List RRForm :=
  [⟨.divs, 18, fun x y => BitVec.ofInt 64 (x.toInt.tdiv y.toInt)⟩,
   ⟨.divu, 18, fun x y => BitVec.ofNat 64 (x.toNat / y.toNat)⟩,
   ⟨.rems, 18, fun x y => BitVec.ofInt 64 (x.toInt - x.toInt.tdiv y.toInt * y.toInt)⟩,
   ⟨.remu, 18, fun x y => BitVec.ofNat 64 (x.toNat - x.toNat / y.toNat * y.toNat)⟩]

/-- A compare: its instruction and truth. -/
structure CmpForm where
  ins : BitVec 3 → BitVec 6 → BitVec 6 → BitVec 3 → BitVec 1 → Instr
  f : Word → Word → Bool

/-- The compares of R85. -/
def cmpForms : List CmpForm :=
  [⟨.cmpeq, fun x y => decide (x = y)⟩, ⟨.cmpne, fun x y => decide (x ≠ y)⟩,
   ⟨.cmplts, fun x y => decide (x.toInt < y.toInt)⟩, ⟨.cmpltu, fun x y => decide (x.toNat < y.toNat)⟩,
   ⟨.cmples, fun x y => decide (x.toInt ≤ y.toInt)⟩, ⟨.cmpleu, fun x y => decide (x.toNat ≤ y.toNat)⟩]

/-- A predicate operation on two sources: its instruction and truth. -/
structure PredForm where
  ins : BitVec 3 → BitVec 6 → BitVec 6 → BitVec 3 → BitVec 1 → Instr
  f : Bool → Bool → Bool

/-- PAND, POR and PXOR (R86). -/
def predForms : List PredForm := [⟨.pand, fun x y => x && y⟩, ⟨.por, fun x y => x || y⟩, ⟨.pxor, fun x y => x != y⟩]

/-- The immediate of an S.RI slot after R38's extension: imm18 with a header, else imm10, two's complement. -/
def immOf (is : Issue) (i : BitVec 10) : Int := if is.hasHdr then (is.lend ++ i).toInt else i.toInt

/-- An immediate form: its instruction, latency, the immediates it admits, and result. -/
structure RIForm where
  ins : BitVec 6 → BitVec 6 → BitVec 10 → Instr
  lat : Nat
  ok : Int → Bool
  f : Word → Int → Word

/-- The immediate forms of R88 with a scalar result and a source. -/
def riForms : List RIForm :=
  [⟨.addi, 1, fun _ => true, fun x v => BitVec.ofInt 64 (x.toInt + v)⟩,
   ⟨.andi, 1, fun _ => true, fun x v => x &&& BitVec.ofInt 64 v⟩,
   ⟨.ori, 1, fun _ => true, fun x v => x ||| BitVec.ofInt 64 v⟩,
   ⟨.xori, 1, fun _ => true, fun x v => x ^^^ BitVec.ofInt 64 v⟩,
   ⟨.shli, 1, fun v => decide (0 ≤ v ∧ v ≤ 63), fun x v => BitVec.ofNat 64 (x.toNat * 2 ^ v.toNat)⟩,
   ⟨.shri, 1, fun v => decide (0 ≤ v ∧ v ≤ 63), fun x v => BitVec.ofNat 64 (x.toNat / 2 ^ v.toNat)⟩,
   ⟨.sari, 1, fun v => decide (0 ≤ v ∧ v ≤ 63), fun x v => BitVec.ofInt 64 (x.toInt / 2 ^ v.toNat)⟩,
   ⟨.muli, 3, fun _ => true, fun x v => BitVec.ofInt 64 (x.toInt * v)⟩]

/-- A compare with an immediate: its instruction and truth. -/
structure CmpIForm where
  ins : BitVec 3 → BitVec 6 → BitVec 10 → Instr
  f : Word → Int → Bool

/-- The compares of R88. -/
def cmpIForms : List CmpIForm :=
  [⟨.cmpeqi, fun x v => decide (x.toInt = v)⟩, ⟨.cmpltsi, fun x v => decide (x.toInt < v)⟩,
   ⟨.cmpltui, fun x v => decide (x.toNat < (BitVec.ofInt 64 v).toNat)⟩]

/-! ### Memory accesses (R107 to R126) -/

/-- An access of n bytes executes: it is aligned (R109), its translation is at hand and permits it (R320), it meets no watch
range (R131), nothing makes it hold (R111, R116, R121, R123) and its budget is open (R381). -/
structure Reaches (s : State) (u : UnitSt) (va : Va) (n : Nat) (acc : Access) (plain8 lands : Bool) (pa : Nat)
    (e : TlbEntry) (blank : Bool) : Prop where
  aligned : va.toNat % n = 0
  translated : translate s u.accessor va acc = .ok pa e blank
  page : accessPage u va acc.writes plain8 pa e = .done
  watch : watchHit u va n (!acc.writes) acc.writes = false
  order : memHold s s.issue.me u = .done
  room : lands = true → landingHold s u = .done ∧ outwardHold s u pa e = .done
  budget : costsOpen s u.ident.asid (slotKey s) (accessCost s u pa n acc e) = true

/-- A Y.SYNC access executes: its translation permits it and reaches a synchronisation page (R264), and nothing makes it
hold (R111, R267, R270, R381). -/
structure Syncs (s : State) (u : UnitSt) (va : Va) (acc : Access) (lands : Bool) (o c : BitVec 2) (pa : Nat) (e : TlbEntry)
    (blank : Bool) : Prop where
  translated : translate s u.accessor va acc = .ok pa e blank
  page : syncPage u va (acc == .read) pa e = .done
  order : memHold s s.issue.me u = .done
  room : lands = true → landingHold s u = .done
  budget : costsOpen s u.ident.asid (slotKey s) (syncCost u.ident.cluster pa 1 acc) = true

/-- A scalar load: its instruction, its bytes, and whether they are sign-extended (R108). -/
structure LoadForm where
  ins : BitVec 6 → BitVec 6 → BitVec 2 → BitVec 10 → Instr
  n : Nat
  signed : Bool

def loadForms : List LoadForm :=
  [⟨.ldb, 1, true⟩, ⟨.ldbu, 1, false⟩, ⟨.ldh, 2, true⟩, ⟨.ldhu, 2, false⟩, ⟨.ldw, 4, true⟩, ⟨.ldwu, 4, false⟩, ⟨.ldd, 8, false⟩]

/-- A scalar store: its instruction and its bytes (R108). -/
structure StoreForm where
  ins : BitVec 6 → BitVec 6 → BitVec 2 → BitVec 10 → Instr
  n : Nat

def storeForms : List StoreForm := [⟨.stb, 1⟩, ⟨.sth, 2⟩, ⟨.stw, 4⟩, ⟨.std, 8⟩]

/-- The value of loaded bytes: little-endian, sign- or zero-extended to 64 bits. -/
def loaded (n : Nat) (signed : Bool) (bs : List Byte) : Word :=
  if signed then (BitVec.ofNat (8 * n) (leNat bs)).signExtend 64 else BitVec.ofNat 64 (leNat bs)

/-- The record entry of a load that a synchronisation engine answers, which its reply fills (R270). -/
def replyEntryOf (s : State) (u : UnitSt) (d : Dest) (lat : Nat) (va : Va) : PEntry :=
  { dest := d, value := 0, awaited := true, flags := 0, bundle := u.flow.pc.addr, slot := s.issue.slot, m := lat,
    load := some { req := s.nextReq, va := va, arrive := none, poison := false, sync := true, reread := none }, baraw := false }

/-- The dies hold a line under no other key slot (R325). -/
def DirUnder (s : State) (line : Nat) (key : BitVec 8) : Prop :=
  ∀ x, dirEntry? s line = some x → x.owner.isSome = true ∨ x.sharers ≠ 0 → x.key = key

/-- Neither do they, nor a cluster's cache. -/
def HeldUnder (s : State) (c : ClusterNo) (line : Nat) (key : BitVec 8) : Prop :=
  (∀ l, cacheLine? (s.cluster c) line = some l → l.key = key) ∧ DirUnder s line key

/-- So it is for every line of a cluster's cache. -/
def CacheUnder (s : State) (c : ClusterNo) : Prop := ∀ l ∈ (s.cluster c).cache, DirUnder s l.line l.key

/-- The byte that a unit of a cluster reads at a physical address under a key slot. -/
def byteSeen (s : State) (c : ClusterNo) (key : BitVec 8) (a : Nat) : Byte := lineByte (viewLine s c (a / 128) key).1 (a % 128)

/-- The record entry of a load in flight: awaited, landing after `lat`, with what it will deliver, or what it reads again behind an
acquire of its own bundle (R121). -/
def loadEntryOf (s : State) (u : UnitSt) (d : Dest) (lat : Nat) (va : Va) (v : BitVec 512) (arrive : Option Nat) (poison : Bool)
    (again : Option Reread) : PEntry :=
  { dest := d, value := v, awaited := true, flags := 0, bundle := u.flow.pc.addr, slot := s.issue.slot, m := lat,
    load := some { req := s.nextReq, va := va, arrive := arrive, poison := poison, sync := false, reread := again }, baraw := false }

/-! ### Vector forms (R133 to R161) -/

/-- A form of V.FP (`wide` false) or V.FP64: its instruction on the fields of vd, va and vb (unused where it has no vb), whether
vb and vd are read, its latency (R59), the flags it can raise, and what it computes on one lane. -/
structure FpForm where
  ins : BitVec 8 → BitVec 8 → BitVec 8 → Instr
  wide : Bool
  useB : Bool
  useD : Bool
  lat : Nat
  can : BitVec 5
  op : LaneOp

def fpForms : List FpForm :=
  [⟨.vadd, false, true, false, 4, canArith, fun f _ rm _ a b => fpAdd f rm (unpack f a) (unpack f b)⟩,
   ⟨.vsub, false, true, false, 4, canArith, fun f _ rm _ a b => fpSub f rm (unpack f a) (unpack f b)⟩,
   ⟨.vmul, false, true, false, 4, canArith, fun f _ rm _ a b => fpMul f rm (unpack f a) (unpack f b)⟩,
   ⟨.vfma, false, true, true, 5, canArith, fun f _ rm c a b => fpFma f rm false (unpack f c) (unpack f a) (unpack f b)⟩,
   ⟨.vfms, false, true, true, 5, canArith, fun f _ rm c a b => fpFma f rm true (unpack f c) (unpack f a) (unpack f b)⟩,
   ⟨.vdiv, false, true, false, 14, canArith ||| fDZ, fun f _ rm _ a b => fpDiv f rm (unpack f a) (unpack f b)⟩,
   ⟨fun d a _ => .vsqrt d a, false, false, false, 14, fNV ||| fNX, fun f _ rm _ a _ => fpSqrt f rm (unpack f a)⟩,
   ⟨.vmin, false, true, false, 4, fNV, fun f _ _ _ a b => fpMinMax f false (a % 2 ^ f.width) (b % 2 ^ f.width)⟩,
   ⟨.vmax, false, true, false, 4, fNV, fun f _ _ _ a b => fpMinMax f true (a % 2 ^ f.width) (b % 2 ^ f.width)⟩,
   ⟨.vcmpeq, false, true, false, 4, fNV, laneCmp 0⟩, ⟨.vcmplt, false, true, false, 4, fNV, laneCmp 1⟩,
   ⟨.vcmple, false, true, false, 4, fNV, laneCmp 2⟩,
   ⟨fun d a _ => .vabs d a, false, false, false, 2, 0, fun f _ _ _ a _ => (a % 2 ^ (f.width - 1), 0)⟩,
   ⟨fun d a _ => .vneg d a, false, false, false, 2, 0,
     fun f _ _ _ a _ => (if a / 2 ^ (f.width - 1) % 2 = 1 then a % 2 ^ (f.width - 1) else a % 2 ^ (f.width - 1) + 2 ^ (f.width - 1), 0)⟩,
   ⟨.vsel, false, true, true, 2, 0, fun _ w _ c a b => (if c.testBit (w - 1) then a else b, 0)⟩,
   ⟨fun d a _ => .vclass d a, false, false, false, 2, 0, fun f _ _ _ a _ => ((fpClass f (a % 2 ^ f.width)).toNat, 0)⟩,
   ⟨.vaddF64, true, true, false, 5, canArith, fun f _ rm _ a b => fpAdd f rm (unpack f a) (unpack f b)⟩,
   ⟨.vsubF64, true, true, false, 5, canArith, fun f _ rm _ a b => fpSub f rm (unpack f a) (unpack f b)⟩,
   ⟨.vmulF64, true, true, false, 5, canArith, fun f _ rm _ a b => fpMul f rm (unpack f a) (unpack f b)⟩,
   ⟨.vfmaF64, true, true, true, 6, canArith, fun f _ rm c a b => fpFma f rm false (unpack f c) (unpack f a) (unpack f b)⟩,
   ⟨.vfmsF64, true, true, true, 6, canArith, fun f _ rm c a b => fpFma f rm true (unpack f c) (unpack f a) (unpack f b)⟩,
   ⟨.vdivF64, true, true, false, 24, canArith ||| fDZ, fun f _ rm _ a b => fpDiv f rm (unpack f a) (unpack f b)⟩,
   ⟨fun d a _ => .vsqrtF64 d a, true, false, false, 24, fNV ||| fNX, fun f _ rm _ a _ => fpSqrt f rm (unpack f a)⟩,
   ⟨.vminF64, true, true, false, 5, fNV, fun f _ _ _ a b => fpMinMax f false (a % 2 ^ f.width) (b % 2 ^ f.width)⟩,
   ⟨.vmaxF64, true, true, false, 5, fNV, fun f _ _ _ a b => fpMinMax f true (a % 2 ^ f.width) (b % 2 ^ f.width)⟩,
   ⟨.vcmpeqF64, true, true, false, 5, fNV, laneCmp 0⟩, ⟨.vcmpltF64, true, true, false, 5, fNV, laneCmp 1⟩,
   ⟨.vcmpleF64, true, true, false, 5, fNV, laneCmp 2⟩,
   ⟨fun d a _ => .vabsF64 d a, true, false, false, 2, 0, fun f _ _ _ a _ => (a % 2 ^ (f.width - 1), 0)⟩,
   ⟨fun d a _ => .vnegF64 d a, true, false, false, 2, 0,
     fun f _ _ _ a _ => (if a / 2 ^ (f.width - 1) % 2 = 1 then a % 2 ^ (f.width - 1) else a % 2 ^ (f.width - 1) + 2 ^ (f.width - 1), 0)⟩,
   ⟨.vselF64, true, true, true, 2, 0, fun _ w _ c a b => (if c.testBit (w - 1) then a else b, 0)⟩,
   ⟨fun d a _ => .vclassF64 d a, true, false, false, 2, 0, fun f _ _ _ a _ => ((fpClass f (a % 2 ^ f.width)).toNat, 0)⟩]

/-- The operands that a form reads. -/
def FpForm.reads (r : FpForm) (is : Issue) (d a b : BitVec 8) : List VOperand :=
  [opA is a] ++ (if r.useB then [opB is b] else []) ++ (if r.useD then [opD is d] else [])

/-- The format of a form's lanes and their width. -/
def FpForm.fmt (r : FpForm) (is : Issue) : Fmt := if r.wide then f64 else fmtOf (lendFmt is.lend)

/-- Lane i of a form, with its flags. -/
def FpForm.lane (r : FpForm) (is : Issue) (u : UnitSt) (d a b : BitVec 8) (i : Nat) : Nat × BitVec 5 :=
  let x (o : VOperand) : Nat := if r.wide then (lane64 (u.vec o) i).toNat else (lane32 (u.vec o) i).toNat
  r.op (r.fmt is) (if r.wide then 64 else 32) (slotRm u is.lend) (x (opD is d)) (x (opA is a)) (if r.useB then x (opB is b) else 0)

/-- The lend byte of a form is in order (R40): RM is no reserved code, FMT a format of its class, TB clear without a vb. -/
def FpForm.lendOk (r : FpForm) (l : BitVec 8) : Prop :=
  (lendRm l).toNat < 6 ∧ (if r.wide then lendFmt l = 0 else lendFmt l ≠ 3) ∧ (r.useB = false → lendTb l = false)

/-- Latency with the two cycles more of an operand in the slow partition (R134). -/
def slowLat (lat : Nat) (reads : List VOperand) : Nat := lat + (if reads.any (fun o => o.tile.getLsbD 2) then 2 else 0)

/-- A form of V.INT: its instruction, whether vd is read, and its lane of the lanes of vd, va and vb (R149). -/
structure IntForm where
  ins : BitVec 8 → BitVec 8 → BitVec 8 → Instr
  useD : Bool
  f : BitVec 32 → BitVec 32 → BitVec 32 → BitVec 32

def intForms : List IntForm :=
  [⟨.viadd, false, fun _ a b => BitVec.ofNat 32 (a.toNat + b.toNat)⟩, ⟨.visub, false, fun _ a b => BitVec.ofInt 32 (a.toNat - b.toNat)⟩,
   ⟨.vimul, false, fun _ a b => BitVec.ofNat 32 (a.toNat * b.toNat)⟩,
   ⟨.vimad, true, fun c a b => BitVec.ofNat 32 (c.toNat + a.toNat * b.toNat)⟩,
   ⟨.vand, false, fun _ a b => a &&& b⟩, ⟨.vor, false, fun _ a b => a ||| b⟩, ⟨.vxor, false, fun _ a b => a ^^^ b⟩,
   ⟨.vshl, false, fun _ a b => BitVec.ofNat 32 (a.toNat * 2 ^ (b.toNat % 32))⟩,
   ⟨.vshr, false, fun _ a b => BitVec.ofNat 32 (a.toNat / 2 ^ (b.toNat % 32))⟩,
   ⟨.vsar, false, fun _ a b => BitVec.ofInt 32 (a.toInt / 2 ^ (b.toNat % 32))⟩,
   ⟨.vimin, false, fun _ a b => BitVec.ofInt 32 (min a.toInt b.toInt)⟩, ⟨.vimax, false, fun _ a b => BitVec.ofInt 32 (max a.toInt b.toInt)⟩,
   ⟨.vicmpeq, false, fun _ a b => if a = b then BitVec.allOnes 32 else 0⟩,
   ⟨.vicmplt, false, fun _ a b => if a.toInt < b.toInt then BitVec.allOnes 32 else 0⟩,
   ⟨.viadds, false, fun _ a b => BitVec.ofInt 32 (max (-(2 ^ 31)) (min (2 ^ 31 - 1) (a.toInt + b.toInt)))⟩]

/-- A vector slot's result enters with its flags: the record, the ports it reads and what it can raise. -/
def vectorDone (s : State) (u : UnitSt) (reads : List VOperand) (dest : Dest) (v : BitVec 512) (lat : Nat)
    (can fl : BitVec 5) : State :=
  done (schedule (noteVector s reads can fl lat) s.issue.me u dest v lat fl)

/-! ### On-chip storage and plain vector slots (R157 to R161, R196) -/

/-- A byte of a level of a cluster's on-chip storage. -/
def levelByte (s : State) (c : ClusterNo) (l : BitVec 2) (a : Nat) : Byte := Memory.read (levelMem (s.cluster c) l) a

/-- A lend byte of a vector slot that defines only TD: RM, TA, TB and FMT are clear. -/
def PlainLend (s : State) : Prop :=
  lendRm s.issue.lend = 0 ∧ lendTa s.issue.lend = false ∧ lendTb s.issue.lend = false ∧ lendFmt s.issue.lend = 0

/-- A ring of one unit alone, with no claim of it unpublished at its head or tail. -/
def QuietRing (x : Handle) : Prop := x.heads = [] ∧ x.tails = [] ∧ x.peer = none

/-! ### Synchronisation requests (R263 to R288) -/

/-- A request has left its core: behind a release of its own where the operation releases and the release has something to wait
for (R120), behind the unit's releases under way where there are any, else in its engine's queue. -/
def Sent (s t : State) (c : ClusterNo) (q : SyncReq) (release : Bool) : Prop :=
  if release && releases { s with nextReq := q.id + 1 } q.uid c q.scope then ∃ r, (t.cluster c).rels = (s.cluster c).rels ++ [r] ∧ r.uid = q.uid ∧ r.payload = .sync q ∧
    r.system = (q.scope == 3)
  else if (s.cluster c).rels.any (fun r => r.uid == q.uid) then
    ∃ r, (t.cluster c).rels = (s.cluster c).rels ++ [r] ∧ r.uid = q.uid ∧ r.payload = .sync q ∧ r.lines = [] ∧ r.system = false
  else (t.die q.die).sync.queue = (s.die q.die).sync.queue ++ [q]

/-- The request of the slot at issue: what every one carries. -/
structure RequestOf (s : State) (u : UnitSt) (q : SyncReq) (va : Va) (pa : Nat) (e : TlbEntry) (o c : BitVec 2) : Prop where
  id : q.id = s.nextReq
  unit : q.uid = s.issue.me ∧ q.bundle = u.flow.pc.addr ∧ q.slot = s.issue.slot
  place : q.va = va ∧ q.pa = pa ∧ q.die = homeOf (pa / 128) ∧ q.key = e.key
  order : q.acquire = ordAcq o ∧ q.scope = c
  fresh : q.done = 0 ∧ q.copyEng = none

/-- A form of Y.SYNC with an operation on one element: its code, its instruction, a width of its own, whether sd is a comparand,
and whether the old value is sign-extended (R272, R273). -/
structure AtomForm where
  op : BitVec 5
  ins : BitVec 6 → BitVec 6 → BitVec 6 → BitVec 2 → BitVec 2 → BitVec 1 → Instr
  width : Option (BitVec 1)
  cmp : Bool
  signed : Bool

def atomForms : List AtomForm :=
  [⟨0x00, .aadd, none, false, true⟩, ⟨0x01, .aand, none, false, false⟩, ⟨0x02, .aor, none, false, false⟩,
   ⟨0x03, .axor, none, false, false⟩, ⟨0x04, .amins, none, false, true⟩, ⟨0x05, .aminu, none, false, false⟩,
   ⟨0x06, .amaxs, none, false, true⟩, ⟨0x07, .amaxu, none, false, false⟩, ⟨0x08, .axchg, none, false, false⟩,
   ⟨0x09, .acas, none, true, false⟩, ⟨0x0A, fun d a b c o _ => .afadd32 d a b c o, some 1, false, false⟩,
   ⟨0x0B, fun d a b c o _ => .afadd64 d a b c o, some 0, false, false⟩]

/-- A copy command: its code, its instruction, its token and the other fields of its header (R207, R208). -/
structure CopyForm where
  op : BitVec 5
  ins : Instr
  hdr : BitVec 22

/-- The copy commands under a token t with BAR b and FOL f, kinds x and k, an index handle i and an element size z. -/
def copyForms (e : BitVec 1) (t : BitVec 4) (b f y : BitVec 1) (x k z : BitVec 2) (i : BitVec 8) : List CopyForm :=
  [⟨0x00, .cpy e t b f k, copyHdr t b f 0 k 0⟩, ⟨0x01, .cpyo e t b f x, copyHdr t b f x 0 0⟩,
   ⟨0x02, .cpyt e t b f, copyHdr t b f 1 1 0⟩, ⟨0x03, .gath e t b f i, copyHdr t b f 0 1 (i.setWidth 12)⟩,
   ⟨0x04, .scat e t b f i, copyHdr t b f 1 0 (i.setWidth 12)⟩, ⟨0x05, .bpf e t, copyHdr t 0 0 0 0 0⟩,
   ⟨0x06, .qcvt e t b f x k, copyHdr t b f x k 0⟩, ⟨0x07, .dqcvt e t b f x k, copyHdr t b f x k 0⟩,
   ⟨0x08, .nmpk e t b f x k, copyHdr t b f x k 0⟩, ⟨0x09, .nmup e t b f x k, copyHdr t b f x k 0⟩,
   ⟨0x0A, .publ e t b f y, copyHdr t b f 0 0 (y.setWidth 12)⟩, ⟨0x0F, .xpose e t b f x k z, copyHdr t b f x k (z.setWidth 12)⟩]

/-! ### Memory at device scope (R301, R324) -/

/-- A byte as performed at device scope, read under a key slot. -/
def deviceByte (s : State) (a : Nat) (key : BitVec 8) : Byte := lineByte (deviceLine s (a / 128) key).1 (a % 128)

/-- A context that neither records nor replays made the request, or none did (R287, R288). -/
def Unlogged (s : State) (q : SyncReq) : Prop :=
  ∀ u k, s.unit? q.who = some u → s.ctx? u.ident.asid = some k → k.recording = false ∧ k.replay = false


/-! ### Messages of the hub (R297, R298) -/

/-- What the links carry once a message is taken from them and others are added behind. -/
def NetAfter (s t : State) (m : Msg) (out : List Msg) : Prop :=
  t.hub.dir.net = removeFirst (fun y => y == m) s.hub.dir.net ++ out

/-- Units and memory are as they were. -/
def SameData (s t : State) : Prop := t.units = s.units ∧ t.mem = s.mem

/-- A message to a die with data. -/
def dataTo (k : MsgKind) (d : DieNo) (line : Nat) (v : BitVec 1024 × Bool) (key : BitVec 8) : Msg :=
  { toDie k d line with data := v.1, poison := v.2, key := key }

end Sys2Proof.Safety
end

