-- ==== Sys2Proof/Certificates/Slice0/Obligations.lean ====
section
/-! DEFINITION.
The statements about the machine, from the numbered rules of spec/.  A hypothesis is about the state and the operands alone.
`done t` is the state `t` with the slot noted as done, and `faulted s c a` the state in which the unit at issue is frozen with
code c and address a. -/

open Sys2Proof Sys2Proof.Machine Sys2Proof.Safety

/-! ## Reset -/

/-- R419, R418, R416, R76, R309, R385: what bring-up leaves.  Three clauses are the model's own choice and no rule: that no
context, unit or launch is resident (log entry 4), that the caches list nothing (log entry 11), and SLEN 4 (log entry 13). -/
def Obligations.ResetState : Prop :=
  State.reset.mod.stage = 9 ∧ State.reset.mod.ready = true ∧ State.reset.mod.fail = false ∧
  State.reset.mod.dies = 0xFF ∧ State.reset.units = [] ∧ State.reset.hub.contexts = [] ∧ State.reset.hub.launches = [] ∧
  (∀ a, Memory.read State.reset.mem a = 0) ∧
  (∀ c, (State.reset.cluster c).cyc = 0 ∧ (State.reset.cluster c).cache = [] ∧ (State.reset.cluster c).array.slen = 4) ∧
  (∀ d, (State.reset.die d).lost = false) ∧ State.reset.hub.dir.cfg = dircfgReset ∧ State.reset.hub.tk.ctl = 0x040000

/-- At reset every memory has its canonical form (log entry 12 names what it holds). -/
def Obligations.ResetMemoryCanonical : Prop := Canonical State.reset

/-! ## Encoding -/

/-- R42 to R57: words written out from the encoding tables decode to the instructions they stand for. -/
def Obligations.DecodeWords : Prop :=
  decodeSlot 0x00041467 = .instr (.add 4 5 6 3 1) ∧
  decodeSlot 0x08C21C90 = .instr (.cmpltu 2 7 9 0 0) ∧
  decodeSlot 0x09832800 = .instr (.pand 3 10 0 0 0) ∧
  decodeSlot 0x100512BC = .instr (.addi 5 4 0x2BC) ∧
  decodeSlot 0x240C5000 = .instr (.ldw 3 5 0 0) ∧
  decodeSlot 0x29085001 = .instr (.stw 2 5 0 1) ∧
  decodeSlot 0x2C0C1300 = .instr (.ldacq 3 1 0 3 0) ∧
  decodeSlot 0x3020001F = .instr (.br 1 0 31) ∧
  decodeSlot 0x35012005 = .instr (.loop 0 9 5) ∧
  decodeSlot 0x53135200 = .instr (.vfmaF64 0x13 0x52 0x00) ∧
  decodeSlot 0x87000041 = .instr (.await 4 1) ∧
  decodeSlot 0x82000002 = .instr (.aext 2) ∧
  decodeSlot 0x90000004 = .instr (.asetl 4) ∧
  decodeSlot 0xB2A69231 = .instr (.aminu 19 18 17 2 0 1) ∧
  decodeSlot 0xB800001E = .instr (.fence 3 3) ∧
  decodeSlot 0xC0050008 = .instr (.csrr 5 8) ∧
  decodeSlot 0xC5431000 = .instr (.rbseed 3 4) ∧
  decodeSlot 0xC6441401 = .instr (.tlbiRange 4 5) ∧
  decodeSlot 0xC3003006 = .instr (.valsetArr 12 2) ∧
  decodeSlot 0xF0000000 = .instr .nop

/-- R42 to R57: for every well-formed instruction, decoding its word gives it back with every operand. -/
def Obligations.DecodeEncode : Prop := ∀ i : Instr, i.wellFormed = true → decodeSlot (encode i) = .instr i

/-- R31, R42, R65: a word that decodes to an instruction is that instruction's word, so that no bit of it is ignored; a slot of
class 0xD is refused as a reserved class, one of class 0xE is a header, and one of class 0xF is the NOP or is refused. -/
def Obligations.AcceptedWordIsEncoding : Prop :=
  (∀ (w : SlotWord) (i : Instr), decodeSlot w = .instr i → encode i = w) ∧
  (∀ w : SlotWord, (slotClass w = 0xD → decodeSlot w = .reject .reservedClass) ∧
      (slotClass w = 0xF → decodeSlot w = if w = 0xF0000000 then .instr .nop else .reject .badNop) ∧
      (slotClass w = 0xE → decodeSlot w = .header w))

/-! ## Steps -/

/-- R32, R33, R60, R80, R89: a core's step that finds one operation in the bundle at PC, whose bytes decode to the instruction i,
runs i on the state at hand: the chain advances past the bundle, an unheld cycle of the unit passes, and the machine settles. A
step whose input is an event runs the event.
The model's choices that clauses of it rest on: log entry 7. -/
def Obligations.StepRunsDecoded : Prop :=
  (∀ (s : State) (c : ClusterNo) (rest : List Input) (uid : Uid), s.inputs = .core c :: rest → s.mod.stopped = false →
    (s.die (dieOf c)).lost = false →
    let s1 := endSwitch (beginSwitch ((dieCycle { s with inputs := rest } c).modCluster c fun k => { k with cyc := k.cyc + 1 }) c) c
    (s1.cluster c).running = some uid → (s1.cluster c).throttled = false → arrayRuns s1 c = false →
    let s2 := arrayPre (takeCounts s1 c uid) c
    ∀ u0, s2.unit? uid = some u0 → (settle u0).sync.barawReq = none → missing (settle u0) = false → (settle u0).run.gap = 0 →
    ∀ s4 u, boundary (s2.setUnit uid (settle u0)) uid (settle u0) = (s4, false) → s4.unit? uid = some u →
    u.flow.pc.ann = false → u.run.wait = none → u.run.stood = false → u.csr.fte = 0 → u.csr.check = 0 →
    ∀ bs s5, fetchBundle s4 u = (.got bs, s5) → pointWanted s5 u = false → bundleWellFormed (slotsOfBytes bs) = true →
    ∀ o i, opsOf (slotsOfBytes bs) = [o] → decodeSlot o.word = .instr i → i.wellFormed = true →
    let h := bundleHeader (slotsOfBytes bs)
    ∀ t, exec i ((s5.setUnit uid (enterBundle u)).setIssue (o.issue uid h)) = .next t → t.issue.result = .done →
    portExcess [(o, t.issue)] = 0 → (∀ v, t.unit? uid = some v → v.pend.length ≤ 48) →
    step s = .next (settleAll ((endCycle (arrayPost (deliverFollows (afterIssue t uid h) c slotOk) c) c (some uid)
      (if runsOn (afterIssue t uid h) uid then .unheld else .halted)).setIssue Issue.empty))) ∧
  (∀ (s t : State) (i : Instr) (rest : List Input), s.inputs = .event i :: rest → isEvent i = true →
    exec i { s with inputs := rest } = .next t → step s = .next (settleAll t))

/-- The canonical form of every memory is kept by every step. -/
def Obligations.StepKeepsMemoryCanonical : Prop := ∀ s t : State, Canonical s → step s = .next t → Canonical t

/-- No step of the machine stops it: every state has a next state. -/
def Obligations.EveryStepRuns : Prop := ∀ s : State, Safe s

/-- R33, R36: a bundle whose issue ends in a freeze has no effect: registers, CSRs, chain and pending writes of its unit and all
of memory are as they were, and the record's mask holds its slot. -/
def Obligations.FrozenBundleHasNoEffect : Prop :=
  ∀ (s t : State) (uid : Uid) (u : UnitSt) (bs : List Byte), s.unit? uid = some u → tryIssue s uid u bs = .next (.frozen t) →
    t.mem = s.mem ∧ t.dies = s.dies ∧ ∃ v, t.unit? uid = some v ∧ v.regs = u.regs ∧ v.csr = u.csr ∧ v.flow = u.flow ∧
      v.pend = u.pend ∧ v.umem = u.umem ∧ v.eng = u.eng ∧ v.run.bundles = u.run.bundles ∧
      ∃ r, v.run.record = some r ∧ r.bundle = u.flow.pc.addr ∧ r.after = false ∧ r.mask.getLsbD r.slot.toNat = true

/-- R33, R80, R335 to R341: a fault at issue freezes the unit at its bundle. Its registers, CSRs, chain and pending writes stand;
the record holds code, address, slots and the bundle; the generation rises; a prompter, and a unit whose context is not resident
or has PEN 0, stops, and so does a restartable unit that the firmware executes again (R354); else the unit is FROZEN_FREE where a
prompter runs on its core or a slot is free, and PROMPTER_WAIT where none is. Memory is untouched. -/
def Obligations.FaultFreezes : Prop :=
  ∀ (s : State) (u : UnitSt) (code : BitVec 8) (addr : Va), AtIssue s u → ∃ v, (faulted s code addr).unit? s.issue.me = some v ∧
    v.regs = u.regs ∧ v.csr = u.csr ∧ v.flow = u.flow ∧ v.pend = u.pend ∧ v.umem = u.umem ∧ v.eng = u.eng ∧ v.curt = u.curt ∧
    v.ident = u.ident ∧ v.run.gen = u.run.gen + 1 ∧
    v.run.record = some { code := code, addr := addr, mask := s.issue.mask, after := false, source := .core,
                          slot := s.issue.slot, bundle := u.flow.pc.addr } ∧
    v.run.status = (if u.isPrompter then .stopped else match s.ctx? u.ident.asid with
      | none => .stopped
      | some k => if !k.pen || againAllowed u && (code == cPoison || code == cDieLost) then .stopped
                  else if (prompterOn s u.ident.asid u.ident.cluster).isSome || (freeSlot k).isSome then .frozenFree
                  else .prompterWait) ∧
    (faulted s code addr).mem = s.mem ∧ (faulted s code addr).dies = s.dies

/-! ## Scalar instructions (R82 to R88) -/

/-- R82, R83: each form with two sources, and each with one, enters its result with its latency when its guard holds, and has no
effect when it fails. -/
def Obligations.ScalarResults : Prop :=
  (∀ r ∈ rrForms, ∀ (s : State) (u : UnitSt) (d a b : BitVec 6) (g : BitVec 3) (i : BitVec 1),
      AtIssue s u → Unlent s → NoHazard u [.pred g, .scalar a, .scalar b] [(.scalar d, r.lat)] →
      exec (r.ins d a b g i) s =
        .next (done (if guardHolds u g i then schedScalar s s.issue.me u d (r.f (u.reg a) (u.reg b)) r.lat else s))) ∧
  (∀ r ∈ unaryForms, ∀ (s : State) (u : UnitSt) (d a : BitVec 6) (g : BitVec 3) (i : BitVec 1),
      AtIssue s u → Unlent s → NoHazard u [.pred g, .scalar a, .scalar 0] [(.scalar d, 1)] →
      exec (r.ins d a g i) s = .next (done (if guardHolds u g i then schedScalar s s.issue.me u d (r.f (u.reg a)) 1 else s)))

/-- R84: quotient and remainder with latency 18; a zero divisor takes INT_DIV_ZERO at the bundle's address whether the guard holds
or fails. A fault leaves the divides in flight in the record. -/
def Obligations.Divisions : Prop :=
  ∀ r ∈ divForms, ∀ (s : State) (u : UnitSt) (d a b : BitVec 6) (g : BitVec 3) (i : BitVec 1),
    AtIssue s u → Unlent s → NoHazard u [.pred g, .scalar a, .scalar b] [(.scalar d, 18)] →
    (u.reg b ≠ 0 → exec (r.ins d a b g i) s =
      .next (done (if guardHolds u g i then schedScalar s s.issue.me u d (r.f (u.reg a) (u.reg b)) 18 else s))) ∧
    (u.reg b = 0 → exec (r.ins d a b g i) s = .next (faulted s cDivZero u.bundleVa)) ∧
    (∀ (c : BitVec 8) (x : Va), ∃ v, (faulted s c x).unit? s.issue.me = some v ∧ v.pend = u.pend)

/-- R85 to R87: the compares, and PAND, POR, PXOR and PNOT of the sixteen sources, set their predicate with latency 1; a guard
that fails leaves it unchanged; a source of 16 or more takes ILLEGAL_OP; SEL, MOVP and MOVTP. -/
def Obligations.ComparesAndPredicates : Prop :=
  (∀ r ∈ cmpForms, ∀ (s : State) (u : UnitSt) (p : BitVec 3) (a b : BitVec 6) (g : BitVec 3) (i : BitVec 1),
      AtIssue s u → Unlent s → NoHazard u [.pred g, .scalar a, .scalar b] [(.pred p, 1)] →
      exec (r.ins p a b g i) s =
        .next (done (if guardHolds u g i then schedPred s s.issue.me u p (r.f (u.reg a) (u.reg b)) 1 else s))) ∧
  ((∀ r ∈ predForms, ∀ (s : State) (u : UnitSt) (p : BitVec 3) (a b : BitVec 6) (g : BitVec 3) (i : BitVec 1),
      AtIssue s u → Unlent s → NoHazard u [.pred g, predDest a, predDest b] [(.pred p, 1)] → a.toNat < 16 → b.toNat < 16 →
      exec (r.ins p a b g i) s =
        .next (done (if guardHolds u g i then schedPred s s.issue.me u p (r.f (predSource u a) (predSource u b)) 1 else s))) ∧
    (∀ (s : State) (u : UnitSt) (p : BitVec 3) (a : BitVec 6) (g : BitVec 3) (i : BitVec 1),
      AtIssue s u → Unlent s → NoHazard u [.pred g, predDest a, predDest 0] [(.pred p, 1)] → a.toNat < 16 →
      exec (.pnot p a g i) s =
        .next (done (if guardHolds u g i then schedPred s s.issue.me u p (!predSource u a) 1 else s)))) ∧
  (∀ (s : State) (u : UnitSt) (p : BitVec 3) (a b : BitVec 6) (g : BitVec 3) (i : BitVec 1), AtIssue s u → Unlent s →
      (∀ r ∈ predForms, 16 ≤ a.toNat ∨ 16 ≤ b.toNat → exec (r.ins p a b g i) s = .next (faulted s cIllegalOp u.bundleVa)) ∧
      (16 ≤ a.toNat → exec (.pnot p a g i) s = .next (faulted s cIllegalOp u.bundleVa))) ∧
  ((∀ (s : State) (u : UnitSt) (d a b : BitVec 6) (p : BitVec 3) (n : BitVec 1),
      AtIssue s u → Unlent s → NoHazard u [.pred p, .scalar a, .scalar b] [(.scalar d, 1)] →
      exec (.sel d a b p n) s =
        .next (done (schedScalar s s.issue.me u d (if guardHolds u p n then u.reg a else u.reg b) 1))) ∧
    (∀ (s : State) (u : UnitSt) (d : BitVec 6) (g : BitVec 3) (i : BitVec 1),
      AtIssue s u → Unlent s → NoHazard u (.pred g :: allPreds) [(.scalar d, 1)] →
      exec (.movp d g i) s =
        .next (done (if guardHolds u g i then
          schedScalar s s.issue.me u d (BitVec.ofNat 64 (u.regs.ps.toNat * 256 + (u.regs.p ||| 1).toNat)) 1 else s))) ∧
    (∀ (s : State) (u : UnitSt) (a : BitVec 6) (g : BitVec 3) (i : BitVec 1),
      AtIssue s u → Unlent s →
      NoHazard u [.pred g, .scalar a] ((List.range 8).map fun k => (Dest.pred (BitVec.ofNat 3 k), 1)) →
      ∃ t, exec (.movtp a g i) s = .next (done t) ∧
        (guardHolds u g i = false → t = s) ∧
        (guardHolds u g i = true → t = s.setUnit s.issue.me { u with pend := u.pend ++
          ([1, 2, 3, 4, 5, 6, 7].map fun k =>
            mkEntry s u (.pred (BitVec.ofNat 3 k)) ((BitVec.ofBool ((u.reg a).getLsbD k)).setWidth 512) 1 0) })))

/-- R38, R88: the immediate forms, where a shift by an immediate outside 0 to 63 takes ILLEGAL_OP; LI, LIX and the compares with
an immediate. -/
def Obligations.ImmediateForms : Prop :=
  (∀ r ∈ riForms, ∀ (s : State) (u : UnitSt) (d a : BitVec 6) (i : BitVec 10),
      AtIssue s u →
      (r.ok (immOf s.issue i) = true → NoHazard u [.scalar a] [(.scalar d, r.lat)] → exec (r.ins d a i) s =
        .next (done (schedScalar s s.issue.me u d (r.f (u.reg a) (immOf s.issue i)) r.lat))) ∧
      (r.ok (immOf s.issue i) = false → exec (r.ins d a i) s = .next (faulted s cIllegalOp u.bundleVa))) ∧
  ((∀ (s : State) (u : UnitSt) (d : BitVec 6) (i : BitVec 10),
      AtIssue s u → NoHazard u [.scalar 0] [(.scalar d, 1)] →
      exec (.li d i) s = .next (done (schedScalar s s.issue.me u d (BitVec.ofInt 64 (immOf s.issue i)) 1))) ∧
    (∀ (s : State) (u : UnitSt) (d a : BitVec 6) (i : BitVec 10),
      AtIssue s u → NoHazard u [.scalar a] [(.scalar d, 1)] →
      exec (.lix d a i) s = .next (done (schedScalar s s.issue.me u d
        (BitVec.ofNat 64 ((u.reg a).toNat * 2 ^ 18 + (if s.issue.hasHdr then s.issue.lend.toNat * 1024 else 0) + i.toNat)) 1))) ∧
    (∀ r ∈ cmpIForms, ∀ (s : State) (u : UnitSt) (p : BitVec 3) (a : BitVec 6) (i : BitVec 10),
      AtIssue s u → NoHazard u [.scalar a] [(.pred p, 1)] →
      exec (r.ins p a i) s = .next (done (schedPred s s.issue.me u p (r.f (u.reg a) (immOf s.issue i)) 1))))

/-- R61, R74, R79: entering a scalar result adds one entry to the record, and none for s0, which discards writes. -/
def Obligations.ResultEntry : Prop :=
  ∀ (s : State) (uid : Uid) (u : UnitSt) (d : BitVec 6) (v : Word) (lat : Nat),
    (d ≠ 0 → schedScalar s uid u d v lat = s.setUnit uid { u with pend := u.pend ++
      [{ dest := .scalar d, value := v.setWidth 512, awaited := false, flags := 0, bundle := u.flow.pc.addr,
         slot := s.issue.slot, m := lat, load := none, baraw := false }] }) ∧
    (d = 0 → schedScalar s uid u d v lat = s.setUnit uid u) ∧ (∀ w : UnitSt, w.reg 0 = 0 ∧ w.pred 0 = true)

/-- R60, R61, R78: PENDING_WRITE_VISIBLE puts the value of an entry whose latency has run out, and before which no other write of
the register stands whose latency has run out, into its register, ORs its flags into FLAGS, takes it from the record, and leaves
every other register as it was. -/
def Obligations.PendingWriteVisible : Prop :=
  ∀ (s : State) (uid : Uid) (n : Nat) (u : UnitSt) (e : PEntry) (r : BitVec 6),
    s.unit? uid = some u → u.pend[n]? = some e → e.m = 0 → e.awaited = false → e.dest = .scalar r →
    (∀ k x, k < n → u.pend[k]? = some x → x.m = 0 → x.dest ≠ .scalar r) →
    ∃ v, exec (.pendingWriteVisible uid n) s = .next (s.setUnit uid v) ∧
      v.regs.s.get r.toFin = e.value.setWidth 64 ∧ (∀ q : BitVec 6, q ≠ r → v.regs.s.get q.toFin = u.regs.s.get q.toFin) ∧
      v.regs.p = u.regs.p ∧ v.regs.ps = u.regs.ps ∧ v.regs.tiles = u.regs.tiles ∧ v.csr.flags = u.csr.flags ||| e.flags ∧
      v.pend = u.pend.eraseIdx n ∧ SameBeyondRegs u v

/-- R40, R41, R62, R135: an S.RR slot with a lent byte takes ILLEGAL_OP, and one that reads a register with a pending write while
the stall check is on takes UNDERSIZED_STALL; a vector slot with a reserved RM, a reserved FMT, or TB set in a form without vb
takes ILLEGAL_OP. -/
def Obligations.IssueFaults : Prop :=
  (∀ r ∈ rrForms, ∀ (s : State) (u : UnitSt) (d a b : BitVec 6) (g : BitVec 3) (i : BitVec 1), AtIssue s u →
      (¬ Unlent s → exec (r.ins d a b g i) s = .next (faulted s cIllegalOp u.bundleVa)) ∧
      (Unlent s → ¬ NoHazard u [.pred g, .scalar a, .scalar b] [(.scalar d, r.lat)] →
        exec (r.ins d a b g i) s = .next (faulted s cUndersized u.bundleVa))) ∧
  (∀ r ∈ fpForms, ∀ (s : State) (u : UnitSt) (d a b : BitVec 8), AtIssue s u → ¬ r.lendOk s.issue.lend →
      exec (r.ins d a b) s = .next (faulted s cIllegalOp u.bundleVa))

/-- R74, R82 to R88, R143, R149: a scalar or vector slot that completes changes nothing but the record of its unit, which has at
most an entry for its destination more: every register, flag, CSR and byte of memory reads as before. -/
def Obligations.SlotFrame : Prop :=
  (∀ (s t : State) (u : UnitSt), AtIssue s u → t.issue.result = .done →
      (∀ r ∈ rrForms ++ divForms, ∀ d a b g i, exec (r.ins d a b g i) s = .next t →
        SameBeyondUnits s t ∧ OnlyRecord s t u [.scalar d]) ∧
      (∀ r ∈ unaryForms, ∀ d a g i, exec (r.ins d a g i) s = .next t → SameBeyondUnits s t ∧ OnlyRecord s t u [.scalar d]) ∧
      (∀ r ∈ cmpForms, ∀ p a b g i, exec (r.ins p a b g i) s = .next t → SameBeyondUnits s t ∧ OnlyRecord s t u [.pred p]) ∧
      (∀ r ∈ predForms, ∀ p a b g i, exec (r.ins p a b g i) s = .next t → SameBeyondUnits s t ∧ OnlyRecord s t u [.pred p]) ∧
      (∀ r ∈ riForms, ∀ d a i, exec (r.ins d a i) s = .next t → SameBeyondUnits s t ∧ OnlyRecord s t u [.scalar d]) ∧
      (∀ r ∈ cmpIForms, ∀ p a i, exec (r.ins p a i) s = .next t → SameBeyondUnits s t ∧ OnlyRecord s t u [.pred p])) ∧
  (∀ (s t : State) (u : UnitSt) (d a b : BitVec 8), AtIssue s u → t.issue.result = .done →
      (∀ r ∈ fpForms, exec (r.ins d a b) s = .next t → SameBeyondUnits s t ∧ OnlyRecord s t u [(opD s.issue d).dest]) ∧
      (∀ r ∈ intForms, exec (r.ins d a b) s = .next t → SameBeyondUnits s t ∧ OnlyRecord s t u [(opD s.issue d).dest]))

/-! ## Control flow (R89 to R106) -/

/-- R92, R93: BR, BRN and CALL go to A + 16·disp, JR and CALLR to the value of sT at issue, when their guard holds; a taken CALL
enters s63 := A + 48 with latency 1; at END or END − 16 of an active loop body each takes ILLEGAL_OP, taken or not; a register
target that is no multiple of 16 takes MISALIGNED with the target as fault address when the guard holds. -/
def Obligations.Transfers : Prop :=
  (∀ (s : State) (u : UnitSt) (p : BitVec 3) (i : BitVec 1) (d : BitVec 20), AtIssue s u → Unlent s →
      (atLoopEnd u = false →
        (NoHazard u [.pred p] [] →
          exec (.br p i d) s = .next (done (s.setIssue { s.issue with
            xfer := some ⟨u.flow.pc.addr + BitVec.ofInt 64 (16 * d.toInt), guardHolds u p i, false, false⟩ })) ∧
          exec (.brn p i d) s = .next (done (s.setIssue { s.issue with
            xfer := some ⟨u.flow.pc.addr + BitVec.ofInt 64 (16 * d.toInt), guardHolds u p i, true, false⟩ }))) ∧
        (NoHazard u [.pred p] [(.scalar 63, 1)] →
          exec (.call p i d) s = .next (done
            (let t := s.setIssue { s.issue with
               xfer := some ⟨u.flow.pc.addr + BitVec.ofInt 64 (16 * d.toInt), guardHolds u p i, false, true⟩ }
             if guardHolds u p i then schedScalar t s.issue.me u 63 (u.flow.pc.addr + 48) 1 else t)))) ∧
      (atLoopEnd u = true → ∀ j ∈ [Instr.br p i d, .brn p i d, .call p i d],
        exec j s = .next (faulted s cIllegalOp u.bundleVa))) ∧
  (∀ (s : State) (u : UnitSt) (p : BitVec 3) (i : BitVec 1) (r : BitVec 6), AtIssue s u → Unlent s →
      (atLoopEnd u = false → (guardHolds u p i = true → (u.reg r).toNat % 16 = 0) →
        (NoHazard u [.pred p, .scalar r] [] →
          exec (.jr p i r) s = .next (done (s.setIssue { s.issue with
            xfer := some ⟨u.reg r, guardHolds u p i, false, false⟩ }))) ∧
        (NoHazard u [.pred p, .scalar r] [(.scalar 63, 1)] →
          exec (.callr p i r) s = .next (done
            (let t := s.setIssue { s.issue with xfer := some ⟨u.reg r, guardHolds u p i, false, true⟩ }
             if guardHolds u p i then schedScalar t s.issue.me u 63 (u.flow.pc.addr + 48) 1 else t)))) ∧
      (atLoopEnd u = false → guardHolds u p i = true → (u.reg r).toNat % 16 ≠ 0 →
        (NoHazard u [.pred p, .scalar r] [] → exec (.jr p i r) s = .next (faulted s cMisaligned (u.flow.pchi ++ u.reg r))) ∧
        (NoHazard u [.pred p, .scalar r] [(.scalar 63, 1)] →
          exec (.callr p i r) s = .next (faulted s cMisaligned (u.flow.pchi ++ u.reg r)))) ∧
      (atLoopEnd u = true → exec (.jr p i r) s = .next (faulted s cIllegalOp u.bundleVa) ∧
        exec (.callr p i r) s = .next (faulted s cIllegalOp u.bundleVa)))

/-- R89: after every bundle PC := NPC and NPC := NNPC; a taken transfer's target becomes NNPC with its annul bit clear; a BRN not
taken annuls both delay bundles. -/
def Obligations.ChainAdvance : Prop :=
  ∀ (f : Flow) (x : Xfer),
    (advanceChain f (some x)).pc.addr = f.npc.addr ∧ (advanceChain f (some x)).npc.addr = f.nnpc.addr ∧
    (x.taken = true → (advanceChain f (some x)).nnpc.addr = x.target ∧ (advanceChain f (some x)).nnpc.ann = false ∧
      (advanceChain f (some x)).pc.ann = f.npc.ann ∧ (advanceChain f (some x)).npc.ann = f.nnpc.ann) ∧
    (x.taken = false → x.brn = true → (advanceChain f (some x)).pc.ann = true ∧ (advanceChain f (some x)).npc.ann = true) ∧
    (x.taken = false → (advanceChain f (some x)).nnpc.addr = f.nnpc.addr + 16) ∧
    (advanceChain f none).pc = f.npc ∧ (advanceChain f none).npc = f.nnpc ∧
    (advanceChain f none).nnpc.addr = f.nnpc.addr + 16 ∧ (advanceChain f (some x)).lc = f.lc ∧
    (advanceChain f (some x)).loops = f.loops

/-- R94 to R96: LOOP and LOOPI set START, END, lc, the drain depth, INITPS, CLEARED and ACTIVE of their level and leave the other
level alone; with N + E = 0 the level does not become active and the body is annulled once; R95's cases take ILLEGAL_OP. An
iteration start of the innermost active level rotates the stage predicates, puts `first` into ps0, and counts lc down when
`first`, else DRAIN; an outer level's rotates nothing. -/
def Obligations.Loops : Prop :=
  (∀ (s : State) (u : UnitSt) (l : BitVec 1), AtIssue s u → Unlent s →
      (∀ (c : BitVec 6) (n : BitVec 13),
        let stop := u.flow.pc.addr + BitVec.ofNat 64 (16 * (n.toNat + 1))
        let N := (u.reg c).extractLsb' 0 32
        let E := (u.reg c).extractLsb' 32 3
        (loopIllegal u l.toFin stop = true → exec (.loop l c n) s = .next (faulted s cIllegalOp u.bundleVa)) ∧
        (loopIllegal u l.toFin stop = false → NoHazard u [.scalar c] [] →
          ∃ v, exec (.loop l c n) s = .next (done (s.setUnit s.issue.me v)) ∧ v.regs = u.regs ∧ v.pend = u.pend ∧ v.csr = u.csr ∧
            v.flow.pc = u.flow.pc ∧
            (N ≠ 0 ∨ E ≠ 0 → v.flow = { u.flow with
              lc := u.flow.lc.set l.toFin N,
              loops := u.flow.loops.set l.toFin ⟨u.flow.pc.addr + 16, stop, E, E, u.regs.ps, true, false⟩ }) ∧
            (N = 0 → E = 0 → v.flow.loops = u.flow.loops ∧ v.flow.lc = u.flow.lc ∧ v.flow.npc = { u.flow.npc with ann := true } ∧
              v.flow.nnpc = { u.flow.nnpc with ann := decide (2 ≤ n.toNat + 1) } ∧ v.flow.skip = n.toNat + 1 - 2))) ∧
      (∀ (c : BitVec 9) (n : BitVec 10),
        let stop := u.flow.pc.addr + BitVec.ofNat 64 (16 * (n.toNat + 1))
        (loopIllegal u l.toFin stop = true → exec (.loopi l c n) s = .next (faulted s cIllegalOp u.bundleVa)) ∧
        (loopIllegal u l.toFin stop = false →
          exec (.loopi l c n) s = .next (done (s.setUnit s.issue.me { u with flow := { u.flow with
            lc := u.flow.lc.set l.toFin (BitVec.ofNat 32 (c.toNat + 1)),
            loops := u.flow.loops.set l.toFin ⟨u.flow.pc.addr + 16, stop, 0, 0, u.regs.ps, true, false⟩ } }))))) ∧
  (∀ (f : Flow) (ps : BitVec 8) (l : Fin 2),
      let first : Bool := decide (0 < (f.lc.get l).toNat) && !(f.loops.get l).cleared
      let r := startIteration f ps l
      (innermost f = some l → (∀ i : Nat, 0 < i → i < 8 → r.2.getLsbD i = ps.getLsbD (i - 1)) ∧ r.2.getLsbD 0 = first) ∧
      (innermost f ≠ some l → r.2 = ps) ∧
      (first = true → r.1.lc.get l = f.lc.get l - 1 ∧ r.1.loops = f.loops) ∧
      (first = false → r.1.lc = f.lc ∧ (r.1.loops.get l).drain = (f.loops.get l).drain - 1) ∧
      (∀ k, k ≠ l → r.1.lc.get k = f.lc.get k ∧ r.1.loops.get k = f.loops.get k) ∧
      r.1.pc = f.pc ∧ r.1.npc = f.npc ∧ r.1.nnpc = f.nnpc)

/-- R31, R99, R100, R104, R105: STGP, its initial values in [19:12], enters the eight stage predicates with latency 1, NOPS its idle cycles, ENDSEG the end of the
segment at the next boundary; NOP has no effect; TRAP takes SOFTWARE_TRAP with its code zero-extended as fault address when its
guard holds, and has no effect when it fails; BRK takes BREAKPOINT with its tag. -/
def Obligations.StagesAndTraps : Prop :=
  (∀ (s : State) (u : UnitSt), AtIssue s u →
      (∀ p : BitVec 8, Unlent s → NoHazard u [] ((List.range 8).map fun i => (Dest.stage (BitVec.ofNat 3 i), 1)) →
        exec (.stgp p) s = .next (done (s.setUnit s.issue.me { u with pend := u.pend ++
          ((List.range 8).map fun i => mkEntry s u (.stage (BitVec.ofNat 3 i)) ((BitVec.ofBool (p.getLsbD i)).setWidth 512) 1 0) }))) ∧
      (∀ n : BitVec 20, Unlent s → exec (.nops n) s = .next (done (s.setIssue { s.issue with nops := n.toNat }))) ∧
      (Unlent s → exec .endseg s = .next (done (s.setUnit s.issue.me { u with run := { u.run with endSeg := true } }))) ∧
      exec .nop s = .next (done s)) ∧
  (∀ p : BitVec 8, decodeSlot (0x39000000 ||| (p.setWidth 32 <<< 12)) = .instr (.stgp p)) ∧
  (∀ (s : State) (u : UnitSt) (p : BitVec 3) (i : BitVec 1) (c : BitVec 8) (t : BitVec 20), AtIssue s u → Unlent s →
      (NoHazard u [.pred p] [] →
        (guardHolds u p i = true → exec (.trap p i c) s = .next (faulted s cTrap (BitVec.ofNat 80 c.toNat))) ∧
        (guardHolds u p i = false → exec (.trap p i c) s = .next (done s))) ∧
      exec (.brk t) s = .next (faulted s cBreak (BitVec.ofNat 80 t.toNat)))

/-- R16, R103, R128, R395, R401: HALT whose record is empty, whose engines are done and whose release is complete, completes the
unit: HALTED, or CURTAIN in its curtain entry; its record is empty and its launch's counter falls by one. CURTDONE completes a
unit in its curtain entry with CURTAIN, and takes ILLEGAL_OP outside it. With pending writes either waits, and its cycles are
unheld. -/
def Obligations.HaltCompletes : Prop :=
  ∀ (s : State) (u : UnitSt), AtIssue s u → Unlent s →
    (u.pend = [] → engineBusy s s.issue.me u.ident.cluster = false →
      (u.umem.haltRel = some true ∨ u.umem.haltRel = none ∧ releaseIdle s u = true) →
      (u.curt.inentry = true → exec .curtdone s = exec .halt s) ∧
      ∃ t, exec .halt s = .next (done t) ∧ t = completeUnit s s.issue.me (if u.curt.inentry then .curtain else .halted) ∧
        (u.isPrompter = false → ∃ v, t.unit? s.issue.me = some v ∧
          v.run.status = .complete (if u.curt.inentry then .curtain else .halted) ∧ v.pend = [] ∧ v.regs = u.regs ∧
          (∀ n l, u.ident.launch = some n → s.launch? n = some l → ∃ l', t.launch? n = some l' ∧ l'.remain = l.remain - 1) ∧
          t.mem = s.mem)) ∧
    (u.curt.inentry = false → exec .curtdone s = .next (faulted s cIllegalOp u.bundleVa)) ∧
    (u.pend ≠ [] → exec .halt s = .next (noteResult s (.wait .drainHalt)) ∧ WaitKind.stops .drainHalt = false ∧
      (u.curt.inentry = true → exec .curtdone s = .next (noteResult s (.wait .drainHalt))))

/-! ## Memory accesses (R107 to R126, R158) -/

/-- R107, R108, R110, R111, R121: each load is performed at issue at its address; LDACQ with an acquire of its scope, VLDG into a
vector after LAND.DELAY. -/
def Obligations.LoadsComplete : Prop :=
  ∀ (s : State) (u : UnitSt) (pa : Nat) (e : TlbEntry) (blank : Bool), AtIssue s u →
    (∀ r ∈ loadForms, ∀ (d b : BitVec 6) (w : BitVec 2) (o : BitVec 10),
      let va := u.windowVa w (u.reg b + BitVec.ofInt 64 (o.toInt * r.n))
      let lat := landing u s.issue.lend.toNat
      NoHazard u [.scalar b] [(.scalar d, lat)] → Reaches s u va r.n .read (r.n == 8) (d != 0) pa e blank →
      exec (r.ins d b w o) s = .next (done
        (loadTo s u va r.n 1 (.scalar d) lat (fun bs => (loaded r.n r.signed bs).setWidth 512) r.signed none))) ∧
    (∀ (d b : BitVec 6) (w c : BitVec 2) (o : BitVec 8),
      let va := u.windowVa w (u.reg b + BitVec.ofInt 64 (o.toInt * 8))
      let lat := landing u s.issue.lend.toNat
      NoHazard u [.scalar b] [(.scalar d, lat)] → Reaches s u va 8 .read true (d != 0) pa e blank →
      exec (.ldacq d b w c o) s = .next (done
        (loadTo s u va 8 1 (.scalar d) lat (fun bs => (loaded 8 false bs).setWidth 512) false (some c)))) ∧
    (∀ (d : BitVec 8) (a : BitVec 6) (w : BitVec 2) (o : BitVec 6),
      let va := u.windowVa w (u.reg a + BitVec.ofInt 64 (o.toInt * 64))
      let dest := (opD s.issue d).dest
      vmemMisuse s.issue.lend = false → NoHazard u [.scalar a] [(dest, u.csr.land.toNat)] →
      Reaches s u va 64 .read false true pa e blank →
      exec (.vldg d a w o) s = .next (done (loadTo (noteVector s [] 0 0 0) u va 64 16 dest u.csr.land.toNat
        (fun bs => BitVec.ofNat 512 (leNat bs)) false none)))

/-- R108, R110 to R112, R121: a load of cacheable memory enters in the record the bytes that its unit sees at issue, to land after
its delay, makes no entry for a load to s0, and leaves the unit's registers and, where the line is held under no other key slot (R325),
memory and the bytes it sees as they were.
The model's choices that clauses of it rest on: log entry 30. -/
def Obligations.CachedLoadEffect : Prop :=
  ∀ (s : State) (u : UnitSt) (va : Va) (n : Nat) (d : Dest) (lat : Nat) (f : List Byte → BitVec 512) (sg : Bool) (pa : Nat)
    (e : TlbEntry) (blank : Bool),
    AtIssue s u → translate s u.accessor va .read = .ok pa e blank → routeOf pa e = .cached →
    let c := u.ident.cluster
    let bs := if blank then (List.replicate n 0, false) else viewBytes s c pa n e.key
    let t := loadTo s u va n 1 d lat f sg none
    t.unit? s.issue.me = some (u.push (loadEntryOf s u d lat va (f bs.1) (arrivalOf s c pa n e.key) bs.2
      (if blank then none else rereadOf s pa n e sg false false))) ∧
    t.units.length = s.units.length ∧
    ((s.cluster c).cache.length < 2048 → HeldUnder s c (pa / 128) e.key →
      t.mem = s.mem ∧ ∀ a, byteSeen t c e.key a = byteSeen s c e.key a)

/-- R108, R125, R126: LDRO reads the read-only path: the read-only cache's line where it holds one, else the die's slice or the
device; what the cluster cache holds is not looked at. PFL2 asks for the line of its address for the die, where no slice holds it;
a translation that faults drops it, with no fault taken. -/
def Obligations.ReadOnlyAndPrefetch : Prop :=
  (∀ (s : State) (u : UnitSt) (d b : BitVec 6) (w : BitVec 2) (o : BitVec 10) (pa : Nat) (e : TlbEntry),
      let va := u.windowVa w (u.reg b + BitVec.ofInt 64 (o.toInt * 8))
      let lat := landing u s.issue.lend.toNat
      AtIssue s u → NoHazard u [.scalar b] [(.scalar d, lat)] → Reaches s u va 8 .read false (d != 0) pa e false →
      (routeOf pa e = .cached → ∃ t arrive,
        let l := match (s.cluster u.ident.cluster).roCache.find? fun x => x.line == pa / 128 && x.key == e.key with
          | some x => (x.data, x.poison)
          | none => belowLine s (dieOf u.ident.cluster) (pa / 128) e.key
        exec (.ldro d b w o) s = .next (done t) ∧
        t.unit? s.issue.me = some (u.push (loadEntryOf s u (.scalar d) lat va
          ((l.1.extractLsb' (8 * (pa % 128)) 64).setWidth 512) arrive l.2 (rereadOf s pa 8 e false false true))) ∧
        (HeldUnder s u.ident.cluster (pa / 128) e.key → t.mem = s.mem)) ∧
      (routeOf pa e ≠ .cached → exec (.ldro d b w o) s = .next (done
        (loadTo s u va 8 1 (.scalar d) lat (fun bs => (loaded 8 false bs).setWidth 512) false none)))) ∧
  (∀ (s : State) (u : UnitSt) (b : BitVec 6) (w : BitVec 2) (o : BitVec 10),
      let va := u.windowVa w (u.reg b + BitVec.ofInt 64 (o.toInt * 128))
      AtIssue s u → Unlent s → NoHazard u [.scalar b] [] →
      (∀ c a, translate s u.accessor va .read = .fault c a → ∃ t, exec (.pfl2 b w o) s = .next (done t) ∧ t.units = s.units ∧
        t.mem = s.mem) ∧
      (∀ pa e blank, translate s u.accessor va .read = .ok pa e blank → routeOf pa e = .cached →
        ∃ t, exec (.pfl2 b w o) s = .next (done t) ∧ t.units = s.units ∧
          (HeldUnder s u.ident.cluster (pa / 128) e.key → t.mem = s.mem) ∧
          (sliceLine? (s.die (dieOf u.ident.cluster)) (pa / 128) = none →
            ∃ l, sliceLine? (t.die (dieOf u.ident.cluster)) (pa / 128) = some l ∧ l.st = .isD)) ∧
      (∀ pa e blank, translate s u.accessor va .read = .ok pa e blank → routeOf pa e ≠ .cached →
        exec (.pfl2 b w o) s = .next (done s)))

/-- R107, R108, R114, R120: each store stores the low bytes of its register at its address; STREL as a release of its scope; VSTG
sixteen elements of a vector. -/
def Obligations.StoresComplete : Prop :=
  ∀ (s : State) (u : UnitSt) (pa : Nat) (e : TlbEntry) (blank : Bool), AtIssue s u →
    (∀ r ∈ storeForms, ∀ (d b : BitVec 6) (w : BitVec 2) (o : BitVec 10),
      let va := u.windowVa w (u.reg b + BitVec.ofInt 64 (o.toInt * r.n))
      Unlent s → NoHazard u [.scalar d, .scalar b] [] → Reaches s u va r.n .write (r.n == 8) false pa e blank →
      exec (r.ins d b w o) s = .next (done (storeBytes s u va (leBytes (u.reg d).toNat r.n) 1 none))) ∧
    (∀ (d b : BitVec 6) (w c : BitVec 2) (o : BitVec 8),
      let va := u.windowVa w (u.reg b + BitVec.ofInt 64 (o.toInt * 8))
      Unlent s → NoHazard u [.scalar d, .scalar b] [] → Reaches s u va 8 .write true false pa e blank →
      exec (.strel d b w c o) s = .next (done (storeBytes s u va (leBytes (u.reg d).toNat 8) 1 (some c)))) ∧
    (∀ (v : BitVec 8) (a : BitVec 6) (w : BitVec 2) (o : BitVec 6),
      let va := u.windowVa w (u.reg a + BitVec.ofInt 64 (o.toInt * 64))
      let x := opD s.issue v
      vmemMisuse s.issue.lend = false → NoHazard u [x.dest, .scalar a] [] → Reaches s u va 64 .write false false pa e blank →
      exec (.vstg v a w o) s = .next (done (storeBytes (noteVector s [x] 0 0 0) u va (leBytes (u.vec x).toNat 64) 16 none)))

/-- R4, R114, R115: a store to cacheable memory changes, for its core, exactly the bytes stored, little-endian; every byte outside
them reads as before; no unit changes; LPDDR6 does not. -/
def Obligations.CachedStoreFrame : Prop :=
  ∀ (s : State) (u : UnitSt) (va : Va) (bs : List Byte) (pa : Nat) (e : TlbEntry) (blank : Bool),
    translate s u.accessor va .write = .ok pa e blank → routeOf pa e = .cached → bs.length ≤ 128 → pa % 128 + bs.length ≤ 128 →
    let c := u.ident.cluster
    (s.cluster c).cache.length < 2048 → HeldUnder s c (pa / 128) e.key →
    let t := storeBytes s u va bs 1 none
    (∀ i, i < bs.length → byteSeen t c e.key (pa + i) = bs.getD i 0) ∧
    (∀ a, a < pa ∨ pa + bs.length ≤ a → byteSeen t c e.key a = byteSeen s c e.key a) ∧ t.units = s.units ∧ t.mem = s.mem

/-- R120, R263, R359, R410: a release store at die scope or wider starts a release of the core at its scope, which holds the
store's bytes until the earlier writes are performed. A store elsewhere is posted: a request to the home die's synchronisation
engine, a write that follows the core's releases into the window, or a write to system space; a load from a synchronisation page
is a request whose reply it awaits. No byte of memory changes at issue.
The model's choices that clauses of it rest on: log entry 28. -/
def Obligations.ReleasesAndOtherTargets : Prop :=
  (∀ (s : State) (u : UnitSt) (va : Va) (bs : List Byte) (pa : Nat) (e : TlbEntry) (blank : Bool) (c : BitVec 2),
      translate s u.accessor va .write = .ok pa e blank → routeOf pa e = .cached → c ≠ 0 →
      (s.cluster u.ident.cluster).cache.length < 2048 →
      ∃ r, (( storeBytes s u va bs 1 (some c)).cluster u.ident.cluster).rels = (s.cluster u.ident.cluster).rels ++ [r] ∧
        r.uid = s.issue.me ∧ r.payload = .store pa bs.length c (BitVec.ofNat 512 (leNat bs)) e.key e.rfloor e.rceil ∧ r.system = (c == 3)) ∧
  (∀ (s : State) (u : UnitSt) (va : Va) (pa : Nat) (e : TlbEntry) (blank : Bool), AtIssue s u →
      (∀ bs : List Byte, translate s u.accessor va .write = .ok pa e blank →
        let t := storeBytes s u va bs 1 none
        (routeOf pa e = .sync → ((s.cluster u.ident.cluster).rels.any fun r => r.uid == s.issue.me) = false →
          ∃ q, (t.die (homeOf (pa / 128))).sync.queue = (s.die (homeOf (pa / 128))).sync.queue ++ [q] ∧ q.kind = .store ∧
            q.pa = pa ∧ q.va = va ∧ q.size = bs.length ∧ q.x = BitVec.ofNat 512 (leNat bs) ∧ q.uid = s.issue.me ∧ t.mem = s.mem ∧
            t.units = s.units) ∧
        (routeOf pa e = .window → ∃ r, (t.cluster u.ident.cluster).rels = (s.cluster u.ident.cluster).rels ++ [r] ∧
          r.uid = s.issue.me ∧ r.payload = .window (windowSlot pa) (windowReg pa) (BitVec.ofNat 64 (leNat bs)) ∧ t.mem = s.mem) ∧
        (routeOf pa e = .outside → ((s.cluster u.ident.cluster).rels.any fun r => r.uid == s.issue.me) = false →
          destUp s ((outDest pa).getD 0) = true →
          ∃ w, t.hub.outWrites = s.hub.outWrites ++ [w] ∧ w.addr = pa ∧ w.dest = (outDest pa).getD 0 ∧ w.size = bs.length ∧
            w.data = BitVec.ofNat 512 (leNat bs) ∧ w.uid = s.issue.me ∧ t.mem = s.mem)) ∧
      (∀ (n : Nat) (d : Dest) (lat : Nat) (f : List Byte → BitVec 512) (sg : Bool),
        translate s u.accessor va .read = .ok pa e blank → routeOf pa e = .sync →
        ((s.cluster u.ident.cluster).rels.any fun r => r.uid == s.issue.me) = false →
        ∃ q, ((loadTo s u va n 1 d lat f sg none).die (homeOf (pa / 128))).sync.queue =
            (s.die (homeOf (pa / 128))).sync.queue ++ [q] ∧ q.kind = .load ∧ q.pa = pa ∧ q.size = n ∧ q.signed = sg ∧
          (loadTo s u va n 1 d lat f sg none).unit? s.issue.me = some (u.push (replyEntryOf s u d lat va))))

/-- R109, R131, R320: an access that is not aligned to its size takes MISALIGNED with its address; one whose translation faults
takes that fault; one that meets a watch range takes WATCH. -/
def Obligations.AccessFaults : Prop :=
  ∀ (s : State) (u : UnitSt) (d b : BitVec 6) (w : BitVec 2) (o : BitVec 10), AtIssue s u →
    (∀ r ∈ loadForms,
      let va := u.windowVa w (u.reg b + BitVec.ofInt 64 (o.toInt * r.n))
      NoHazard u [.scalar b] [(.scalar d, landing u s.issue.lend.toNat)] →
      (va.toNat % r.n ≠ 0 → exec (r.ins d b w o) s = .next (faulted s cMisaligned va)) ∧
      (va.toNat % r.n = 0 → ∀ c a, translate s u.accessor va .read = .fault c a →
        exec (r.ins d b w o) s = .next (faulted s c a)) ∧
      (va.toNat % r.n = 0 → ∀ pa e bl, translate s u.accessor va .read = .ok pa e bl →
        accessPage u va false (r.n == 8) pa e = .done → watchHit u va r.n true false = true →
        exec (r.ins d b w o) s = .next (faulted s cWatch va))) ∧
    (∀ r ∈ storeForms,
      let va := u.windowVa w (u.reg b + BitVec.ofInt 64 (o.toInt * r.n))
      Unlent s → NoHazard u [.scalar d, .scalar b] [] →
      (va.toNat % r.n ≠ 0 → exec (r.ins d b w o) s = .next (faulted s cMisaligned va)) ∧
      (va.toNat % r.n = 0 → ∀ c a, translate s u.accessor va .write = .fault c a →
        exec (r.ins d b w o) s = .next (faulted s c a)) ∧
      (va.toNat % r.n = 0 → ∀ pa e bl, translate s u.accessor va .write = .ok pa e bl →
        accessPage u va true (r.n == 8) pa e = .done → watchHit u va r.n false true = true →
        exec (r.ins d b w o) s = .next (faulted s cWatch va)))

/-! ## Vector instructions (R133 to R161) -/

/-- R46, R133: the four directions name the row, the column, the diagonal and the anti-diagonal of an index; a vector written
reads back, and no other element of the tile changes. -/
def Obligations.TileOperands : Prop :=
  ∀ (t : BitVec 8192) (x : BitVec 4) (v : BitVec 512) (i : Nat), i < 16 →
    lane32 (readVec t 0 x) i = tileElem t x.toNat i ∧ lane32 (readVec t 1 x) i = tileElem t i x.toNat ∧
    lane32 (readVec t 2 x) i = tileElem t i ((i + x.toNat) % 16) ∧
    lane32 (readVec t 3 x) i = tileElem t i ((x.toNat + 16 - i) % 16) ∧
    ∀ d : BitVec 2, readVec (writeVec t d x v) d x = v ∧
      ∀ r c, r < 16 → c < 16 → (∀ k < 16, elemPos d x k ≠ (r, c)) → tileElem (writeVec t d x v) r c = tileElem t r c

/-- R59, R134, R143 to R147: each V.FP and V.FP64 form computes every lane on its own and enters the vector with the flags of all
lanes, its latency longer by two where an operand read is in t4 to t7. -/
def Obligations.VectorFloat : Prop :=
  ∀ r ∈ fpForms, ∀ (s : State) (u : UnitSt) (d a b : BitVec 8), AtIssue s u → r.lendOk s.issue.lend →
    let reads := r.reads s.issue d a b
    let lat := slowLat r.lat reads
    let dest := (opD s.issue d).dest
    NoHazard u (reads.map VOperand.dest) [(dest, lat)] →
    ∃ v fl, exec (r.ins d a b) s = .next (vectorDone s u reads dest v lat r.can fl) ∧
      (r.wide = true → ∀ j < 8, lane64 v j = BitVec.ofNat 64 (r.lane s.issue u d a b j).1) ∧
      (r.wide = false → ∀ i < 16, lane32 v i = BitVec.ofNat 32 (r.lane s.issue u d a b i).1) ∧
      (∀ k : Nat, fl.getLsbD k = true ↔ ∃ i < (if r.wide then 8 else 16), (r.lane s.issue u d a b i).2.getLsbD k = true)

/-- R138 to R140: rounding a non-negative fraction to an integer, mode by mode, `neg` the sign of the number rounded; a number
that the format holds is rounded to itself in every mode and raises nothing. -/
def Obligations.RoundingRules : Prop :=
  (∀ (neg : Bool) (n d : Nat), 0 < d →
      (∀ rm : Rm, (roundNat rm neg n d).2 = decide (n % d ≠ 0)) ∧
      (roundNat 1 neg n d).1 = n / d ∧
      (roundNat 2 neg n d).1 = (if neg then (n + d - 1) / d else n / d) ∧
      (roundNat 3 neg n d).1 = (if neg then n / d else (n + d - 1) / d) ∧
      (roundNat 4 neg n d).1 = (2 * n + d) / (2 * d) ∧
      (2 * n ≤ (2 * (roundNat 0 neg n d).1 + 1) * d ∧ 2 * (roundNat 0 neg n d).1 * d ≤ 2 * n + d) ∧
      (2 * n = (2 * (roundNat 0 neg n d).1 + 1) * d ∨ 2 * (roundNat 0 neg n d).1 * d = 2 * n + d →
        (roundNat 0 neg n d).1 % 2 = 0)) ∧
  (∀ f ∈ [f64, f32, f16, bf16], ∀ (rm : Rm) (neg : Bool) (b m : Nat) (e : Int), 0 < b → b < f.infBits →
      unpack f b = .fin false m e → roundPos f rm neg (fracOf m e).1 (fracOf m e).2 = (withSign f neg b, 0))

/-- R142: an operation with a NaN input returns the first one in operand order, quieted, with NV only for a signalling input,
before any rule of an invalid operation; an invalid operation returns the canonical quiet NaN and NV; finite ÷ 0 gives an infinity
and DZ. -/
def Obligations.NanAndInvalidRules : Prop :=
  ∀ (f : Fmt) (rm : Rm),
    (∀ (x : Nat) (sg : Bool) (b : Fp), b.isNan = false → ∀ r ∈ [fpAdd f rm (.nan x sg) b, fpSub f rm (.nan x sg) b,
      fpMul f rm (.nan x sg) b, fpDiv f rm (.nan x sg) b, fpAdd f rm b (.nan x sg), fpSub f rm b (.nan x sg),
      fpMul f rm b (.nan x sg), fpDiv f rm b (.nan x sg)], r = (x ||| 2 ^ (f.fbits - 1), if sg then fNV else 0)) ∧
    (∀ (x y : Nat) (sg tg : Bool) (c : Fp) (sub : Bool),
      fpFma f rm sub (.nan x sg) (.nan y tg) c = (x ||| 2 ^ (f.fbits - 1), if sg || tg || c.isSnan then fNV else 0)) ∧
    (∀ (n : Bool) (e : Int) (g : Bool), fpMul f rm (.fin n 0 e) (.inf g) = (f.qnan, fNV) ∧ fpAdd f rm (.inf n) (.inf !n) = (f.qnan, fNV) ∧
      fpDiv f rm (.inf n) (.inf g) = (f.qnan, fNV) ∧ fpDiv f rm (.fin n 0 e) (.fin g 0 e) = (f.qnan, fNV) ∧
      fpSqrt f rm (.inf true) = (f.qnan, fNV)) ∧
    (∀ (n g : Bool) (m : Nat) (e e' : Int), m ≠ 0 →
      fpDiv f rm (.fin n m e) (.fin g 0 e') = (withSign f (n != g) f.infBits, fDZ)) ∧
    f32.qnan = 0x7FC00000 ∧ f16.qnan = 0x7E00 ∧ bf16.qnan = 0x7FC0 ∧ f64.qnan = 0x7FF8000000000000

/-- R149 to R152: the V.INT forms, lane by lane, with latency 2 and no flag; VPERM selects the lane of va that b[3:0] names; VMOV,
VIOTA, VSPLAT, VBCST and VEXT. -/
def Obligations.VectorIntegerAndMoves : Prop :=
  (∀ (s : State) (u : UnitSt) (d a b : BitVec 8), AtIssue s u → lendRm s.issue.lend = 0 → lendFmt s.issue.lend = 0 →
      let dest := (opD s.issue d).dest
      (∀ r ∈ intForms,
        let reads := [opA s.issue a, opB s.issue b] ++ (if r.useD then [opD s.issue d] else [])
        NoHazard u (reads.map VOperand.dest) [(dest, slowLat 2 reads)] →
        ∃ v, exec (r.ins d a b) s = .next (vectorDone s u reads dest v (slowLat 2 reads) 0 0) ∧
          ∀ i < 16, lane32 v i =
            r.f (lane32 (u.vec (opD s.issue d)) i) (lane32 (u.vec (opA s.issue a)) i) (lane32 (u.vec (opB s.issue b)) i)) ∧
      (let reads := [opA s.issue a, opB s.issue b]
       NoHazard u (reads.map VOperand.dest) [(dest, slowLat 2 reads)] →
       ∃ v, exec (.vperm d a b) s = .next (vectorDone s u reads dest v (slowLat 2 reads) 0 0) ∧
         ∀ i < 16, lane32 v i = lane32 (u.vec (opA s.issue a)) ((lane32 (u.vec (opB s.issue b)) i).toNat % 16))) ∧
  (∀ (s : State) (u : UnitSt) (d a : BitVec 8), AtIssue s u → lendRm s.issue.lend = 0 → lendFmt s.issue.lend = 0 →
      lendTb s.issue.lend = false →
      let dest := (opD s.issue d).dest
      let o := opA s.issue a
      (NoHazard u [o.dest] [(dest, slowLat 1 [o])] →
        exec (.vmov d a) s = .next (vectorDone s u [o] dest (u.vec o) (slowLat 1 [o]) 0 0)) ∧
      (∀ i : BitVec 8, lendTa s.issue.lend = false → NoHazard u [] [(dest, 1)] →
        ∃ v, exec (.viota d i) s = .next (vectorDone s u [] dest v 1 0 0) ∧
          ∀ k < 16, lane32 v k = BitVec.ofInt 32 (i.toInt + k)) ∧
      (∀ (p : BitVec 1) (k : BitVec 4), (p = 1 → k.toNat % 2 = 0) → NoHazard u [o.dest] [(dest, slowLat 1 [o])] →
        ∃ v, exec (.vsplat d a p k) s = .next (vectorDone s u [o] dest v (slowLat 1 [o]) 0 0) ∧
          (p = 0 → ∀ i < 16, lane32 v i = lane32 (u.vec o) k.toNat) ∧
          (p = 1 → ∀ j < 8, lane64 v j = lane64 (u.vec o) (k.toNat / 2))) ∧
      (∀ w : BitVec 8, w.toNat ≤ 2 → lendTa s.issue.lend = false → NoHazard u [.scalar 62] [(dest, 1)] →
        ∃ v, exec (.vbcst d w) s = .next (done (schedule (noteVector s [] 0 0 1) s.issue.me u dest v 1)) ∧
          (w = 0 → ∀ i < 16, lane32 v i = BitVec.ofNat 32 ((u.reg 62).toNat % 2 ^ 16)) ∧
          (w = 1 → ∀ i < 16, lane32 v i = BitVec.ofNat 32 (u.reg 62).toNat) ∧
          (w = 2 → ∀ j < 8, lane64 v j = u.reg 62)) ∧
      (∀ (m : BitVec 2) (k : BitVec 4), m ≠ 3 → (m = 2 → k.toNat % 2 = 0) → lendTd s.issue.lend = false →
        NoHazard u [o.dest] [(.scalar 62, slowLat 1 [o])] →
        exec (.vext a m k) s = .next (done (schedScalar (noteVector s [o] 0 0 (slowLat 1 [o])) s.issue.me u 62
          (if m = 0 then BitVec.ofNat 64 (lane32 (u.vec o) k.toNat).toNat
           else if m = 1 then BitVec.ofInt 64 (lane32 (u.vec o) k.toNat).toInt else lane64 (u.vec o) (k.toNat / 2)) (slowLat 1 [o])))))

/-- R153 to R156, R159, R163: VCVT under a code, which takes a random word where it rounds stochastically and holds while the
queue has none; VTRANS of a free pipeline, which it takes for its interval; VRED.
The model's choices that clauses of it rest on: log entry 17. -/
def Obligations.VectorConversions : Prop :=
  ∀ (s : State) (u : UnitSt) (d a : BitVec 8), AtIssue s u → (lendRm s.issue.lend).toNat < 6 → lendFmt s.issue.lend = 0 →
    lendTb s.issue.lend = false →
    let dd := opD s.issue d
    let o := opA s.issue a
    let rm := slotRm u s.issue.lend
    (∀ c : BitVec 8, cvtReserved c = false →
      let reads := [o] ++ (if cvtHalf c then [dd] else [])
      NoHazard u (reads.map VOperand.dest) [(dd.dest, slowLat 3 reads)] →
      (cvtStochastic c = false →
        let r := convert c rm 0 (u.vec dd) (u.vec o)
        exec (.vcvt d a c) s = .next (vectorDone s u reads dd.dest r.1 (slowLat 3 reads) (cvtCan c) r.2)) ∧
      (cvtStochastic c = true → u.csr.rbqueue ≠ 0 →
        let r := convert c rm (takeWord u).1 (u.vec dd) (u.vec o)
        exec (.vcvt d a c) s = .next (vectorDone s (takeWord u).2 reads dd.dest r.1 (slowLat 3 reads) (cvtCan c) r.2)) ∧
      (cvtStochastic c = true → u.csr.rbqueue = 0 →
        exec (.vcvt d a c) s = .next (noteResult (fillQueue s u) (.hold .random)))) ∧
    (∀ (p : BitVec 1) (f : BitVec 2), f ≠ 3 → u.run.vtrans.get s.issue.vunit = 0 →
      let lat := slowLat (if p = 1 then 36 else 16) [o]
      NoHazard u [o.dest] [(dd.dest, lat)] →
      ∃ v fl, exec (.vtrans d a p f) s = .next (vectorDone s
          { u with run := { u.run with vtrans := u.run.vtrans.set s.issue.vunit (if p = 1 then 4 else 2) } } [o] dd.dest v lat
          (transCan f) fl) ∧
        (p = 1 → ∀ j < 8, lane64 v j = BitVec.ofNat 64 (fpTrans f f64 rm (lane64 (u.vec o) j).toNat).1) ∧
        (p = 0 → ∀ i < 16, lane32 v i = BitVec.ofNat 32 (fpTrans f f32 rm (lane32 (u.vec o) i).toNat).1)) ∧
    (∀ c : BitVec 3, c ≠ 7 → NoHazard u [o.dest] [(dd.dest, slowLat (redLat c) [o])] →
      exec (.vred d a c) s = .next (vectorDone s u [o] dd.dest (reduce c rm (u.vec o)).1 (slowLat (redLat c) [o]) (redCan c)
        (reduce c rm (u.vec o)).2))

/-! ## Tiles, rings and staging registers (R157 to R161, R196 to R206) -/

/-- R157: VLDT reads and VSTT writes the 64 bytes of block k + x[39:8] of the TILE handle in x[7:0]; a handle that is not the
unit's, not of level TILE, too short, or in a bank of another unit takes TILE_FAULT with handle and block.
The model's choices that clauses of it rest on: log entry 82. -/
def Obligations.TileVectors : Prop :=
  ∀ (s : State) (u : UnitSt) (v : BitVec 8) (r : BitVec 6) (k : BitVec 8), AtIssue s u → PlainLend s →
    let x := u.reg r
    let b := (x.extractLsb' 8 32).toNat + k.toNat
    let o := opD s.issue v
    let c := u.ident.cluster
    (∀ h, u.handle? (x.extractLsb' 0 8) = some h → h.level = 0 → 64 * b + 64 ≤ h.size →
      ownsRange (s.cluster c) s.issue.me 0 (h.base + 64 * b) 64 = true → shadowWait s c 0 (h.base + 64 * b) 64 = .done →
      (NoHazard u [.scalar r] [(o.dest, 4)] →
        ∃ w, exec (.vldt v r k) s = .next (vectorDone s u [] o.dest w 4 0 0) ∧
          ∀ i < 64, w.extractLsb' (8 * i) 8 = levelByte s c 0 (h.base + 64 * b + i)) ∧
      (NoHazard u [o.dest, .scalar r] [] → Memory.wf (s.cluster c).tileSram = true →
        ∃ t, exec (.vstt v r k) s = .next (done t) ∧ t.units = s.units ∧ t.mem = s.mem ∧
          (∀ i < 64, levelByte t c 0 (h.base + 64 * b + i) = (u.vec o).extractLsb' (8 * i) 8) ∧
          (∀ a, a < h.base + 64 * b ∨ h.base + 64 * b + 64 ≤ a → levelByte t c 0 a = levelByte s c 0 a) ∧
          (∀ d l a, d ≠ c ∨ l ≠ 0 → levelByte t d l a = levelByte s d l a))) ∧
    ((u.handle? (x.extractLsb' 0 8) = none ∨ ∃ h, u.handle? (x.extractLsb' 0 8) = some h ∧ (h.level ≠ 0 ∨ h.size < 64 * b + 64 ∨
        ownsRange (s.cluster c) s.issue.me 0 (h.base + 64 * b) 64 = false)) →
      let a : Va := BitVec.ofNat 80 (b % 2 ^ 32 * 256 + (x.extractLsb' 0 8).toNat)
      (NoHazard u [.scalar r] [(o.dest, 4)] → exec (.vldt v r k) s = .next (faulted s cTile a)) ∧
      (NoHazard u [o.dest, .scalar r] [] → exec (.vstt v r k) s = .next (faulted s cTile a)))

/-- R160, R161, R201: VQRD, VPOP and VPUSH move one slab of a ring whose claims are all published: its head or tail advances by
one, and the slab is read, or written, at the counter's place; where there is none, or no room, the slot waits. A claim that
finishes is published with every finished claim behind it, and not before every claim ahead of it.
The model's choices that clauses of it rest on: log entries 16 and 82. -/
def Obligations.VectorRings : Prop :=
  (∀ (s : State) (u : UnitSt) (v : BitVec 8) (x : Handle), AtIssue s u → PlainLend s → QuietRing x →
      let o := opD s.issue v
      let c := u.ident.cluster
      let popped (t : State) (w : BitVec 512) : Prop := w = vecOfBytes (levelRead s c x.level (x.slabAt x.hc) 64) ∧
        t.unit? s.issue.me = some ((u.setHandle { x with hp := x.hp + 1, hc := x.hc + 1 }).push (mkEntry s u o.dest w 2 0)) ∧ t.mem = s.mem
      (∀ n : BitVec 3, ∀ b, u.umem.q.get n.toFin = some b → b.out = false → u.handle? b.h = some x → x.hp = x.hc →
        ownsRange (s.cluster c) s.issue.me x.level (x.slabAt x.hc) 64 = true → NoHazard u [] [(o.dest, 2)] →
        shadowWait s c x.level (x.slabAt x.hc) 64 = .done →
        (x.canHead 1 = true → ∃ t w, exec (.vqrd v n) s = .next (done t) ∧ popped t w) ∧
        (x.canHead 1 = false → exec (.vqrd v n) s = .next (noteResult s (.wait .ring)))) ∧
      (∀ r : BitVec 6, u.handle? ((u.reg r).extractLsb' 0 8) = some x → x.ring = true → x.level = 0 → x.slabSize = 64 →
        (x.hp = x.hc → ownsRange (s.cluster c) s.issue.me 0 (x.slabAt x.hc) 64 = true → NoHazard u [.scalar r] [(o.dest, 2)] →
          shadowWait s c 0 (x.slabAt x.hc) 64 = .done →
          (x.canHead 1 = true → ∃ t w, exec (.vpop v r) s = .next (done t) ∧ popped t w) ∧
          (x.canHead 1 = false → exec (.vpop v r) s = .next (noteResult s (.wait .ring)))) ∧
        (x.tp = x.tc → ownsRange (s.cluster c) s.issue.me 0 (x.slabAt x.tc) 64 = true → NoHazard u [o.dest, .scalar r] [] →
          Memory.wf (s.cluster c).tileSram = true → shadowWait s c 0 (x.slabAt x.tc) 64 = .done →
          (x.canTail 1 = true → ∃ t, exec (.vpush v r) s = .next (done t) ∧
            t.unit? s.issue.me = some (u.setHandle { x with tp := x.tp + 1, tc := x.tc + 1 }) ∧ t.mem = s.mem ∧
            (∀ i < 64, levelByte t c 0 (x.slabAt x.tc + i) = (u.vec o).extractLsb' (8 * i) 8) ∧
            (∀ a, a < x.slabAt x.tc ∨ x.slabAt x.tc + 64 ≤ a → levelByte t c 0 a = levelByte s c 0 a)) ∧
          (x.canTail 1 = false → exec (.vpush v r) s = .next (noteResult s (.wait .ring)))))) ∧
  (∀ (h : Handle) (id n : Nat) (rest : List Claim), (∀ x ∈ rest, x.id ≠ id) →
      (∀ x y zs, h.heads = x :: y :: zs → x.done = false → x.id ≠ id → (finishClaim h false id).hp = h.hp) ∧
      (h.heads = ⟨id, n, false⟩ :: rest → (∀ x ∈ rest, x.done = true) →
        (finishClaim h false id).hp = h.hp + BitVec.ofNat 32 (n + (rest.map fun x => x.n).sum) ∧ (finishClaim h false id).heads = []) ∧
      (h.tails = ⟨id, n, false⟩ :: rest → (∀ x ∈ rest, x.done = true) →
        (finishClaim h true id).tp = h.tp + BitVec.ofNat 32 (n + (rest.map fun x => x.n).sum) ∧ (finishClaim h true id).tails = []) ∧
      (finishClaim h false id).tp = h.tp ∧ (finishClaim h true id).hp = h.hp)

/-- R196, R197, R200, R202, R203, R206: TALLOC, TFREE, BANKACQ, BANKREL, RINGADV, RINGCNT, STGW and STGR; RINGCNT
reads the counters that the core found at the start of the cycle.
The model's choices that clauses of it rest on: log entry 82. -/
def Obligations.TileTableAndStaging : Prop :=
  ∀ (s : State) (u : UnitSt), AtIssue s u → Unlent s →
    let c := u.ident.cluster
    (∀ (r : BitVec 6) (h : BitVec 8), NoHazard u [.scalar r] [] →
      ((u.handle? h).isNone → descOk (u.reg r) = true → exec (.talloc r h) s = .next (done (s.setUnit s.issue.me
        (u.modMem fun m => { m with tbl := m.tbl ++ [Handle.fresh h (u.reg r)] })))) ∧
      ((u.handle? h).isSome ∨ descOk (u.reg r) = false → exec (.talloc r h) s = .next (faulted s cTile (h.setWidth 80)))) ∧
    (∀ h : BitVec 8, (u.handle? h = none → exec (.tfree h) s = .next (faulted s cTile (h.setWidth 80))) ∧
      ((u.handle? h).isSome → (∀ b ∈ u.umem.q.toList, ∀ x, b = some x → x.h ≠ h) →
        (handleNamed s s.issue.me u h = true → exec (.tfree h) s = .next (noteResult s (.wait .token))) ∧
        (handleNamed s s.issue.me u h = false → ∃ w, exec (.tfree h) s = .next (done (s.setUnit s.issue.me w)) ∧
          w.handle? h = none ∧ (∀ k, k ≠ h → w.handle? k = u.handle? k) ∧ w.regs = u.regs ∧ w.pend = u.pend ∧ w.csr = u.csr))) ∧
    (∀ (r : BitVec 6) (p : BitVec 2), NoHazard u [.scalar r] [] → (p = 0 ∨ (u.reg r).toNat < 2 ^ 32) →
      (bankTaken (s.cluster c) s.issue.me p (bankList (u.reg r)) = false → ∃ t, exec (.bankacq r p) s = .next (done t) ∧
        (∀ i < 64, (u.reg r).getLsbD i = true → ⟨p, i, s.issue.me, false⟩ ∈ (t.cluster c).banks) ∧
        (∀ b ∈ (s.cluster c).banks, b.owner ≠ s.issue.me → b ∈ (t.cluster c).banks) ∧ t.units = s.units ∧ t.mem = s.mem) ∧
      (bankTaken (s.cluster c) s.issue.me p (bankList (u.reg r)) = true → ∃ t, exec (.bankacq r p) s = .next t ∧
        t.issue.result = .wait .bank) ∧
      (∃ t, exec (.bankrel r p) s = .next (done t) ∧ t.units = s.units ∧ t.mem = s.mem ∧
        (∀ b ∈ (t.cluster c).banks, b.space = p → b.owner = s.issue.me → (u.reg r).getLsbD b.bank = true → b.bank < 64 →
          b.pending = true))) ∧
    (∀ (r : BitVec 6) (e : BitVec 1) (n : BitVec 9) (x : Handle), NoHazard u [.scalar r] [] →
      u.handle? ((u.reg r).extractLsb' 0 8) = some x → x.ring = true → QuietRing x →
      (e = 0 → x.hp = x.hc → x.canHead n.toNat = true → ∃ t, exec (.ringadv r e n) s = .next (done t) ∧ t.mem = s.mem ∧
        t.unit? s.issue.me = some (u.setHandle { x with hp := x.hp + n.setWidth 32, hc := x.hc + n.setWidth 32 })) ∧
      (e = 1 → x.tp = x.tc → x.canTail n.toNat = true → ∃ t, exec (.ringadv r e n) s = .next (done t) ∧ t.mem = s.mem ∧
        t.unit? s.issue.me = some (u.setHandle { x with tp := x.tp + n.setWidth 32, tc := x.tc + n.setWidth 32 }))) ∧
    (∀ (d r : BitVec 6) (x : Handle), NoHazard u [.scalar r] [(.scalar d, 1)] → u.handle? ((u.reg r).extractLsb' 0 8) = some x →
      (x.ring = true → ∃ w, exec (.ringcnt d r) s = .next (done (schedScalar s s.issue.me u d w 1)) ∧
        (∀ y, (s.cluster c).counts.find? (fun y => y.1 == x.h) = some y → w = y.2) ∧
        ((s.cluster c).counts.find? (fun y => y.1 == x.h) = none → w = BitVec.ofNat 64 (x.tp.toNat * 2 ^ 32 + x.hp.toNat))) ∧
      (∀ i v, s.unit? i = some v → v.handle? x.h = some x → x.ring = true →
        (takeCounts s c i).cluster c = { s.cluster c with counts := (v.umem.tbl.filter fun y => y.ring).map fun y =>
          (y.h, BitVec.ofNat 64 (y.tp.toNat * 2 ^ 32 + y.hp.toNat)) }) ∧
      (x.ring = false → exec (.ringcnt d r) s = .next (faulted s cRing (((u.reg r).extractLsb' 0 8).setWidth 80)))) ∧
    (∀ (r : BitVec 6) (p : BitVec 2) (n : BitVec 4), NoHazard u [.scalar r] [] →
      (p.toNat < 2 → u.reg r &&& cgReserved n = 0 → ∃ w, exec (.stgw r p n) s = .next (done (s.setUnit s.issue.me w)) ∧
        (∀ e m, (w.eng.cg.get e).get m = if e.val = p.toNat ∧ m.val = n.toNat then u.reg r else (u.eng.cg.get e).get m) ∧
        w.regs = u.regs ∧ w.pend = u.pend ∧ w.umem = u.umem ∧ w.eng.tok = u.eng.tok) ∧
      (p = 2 → launchOwnsArray s u = true → u.reg r &&& agReserved n = 0 → ∃ t, exec (.stgw r p n) s = .next (done t) ∧
        t.units = s.units ∧ t.mem = s.mem ∧
        (∀ m, (arrayOf t c).ag.get m = if m.val = n.toNat then u.reg r else (arrayOf s c).ag.get m)) ∧
      (p.toNat < 2 → u.reg r &&& cgReserved n ≠ 0 → exec (.stgw r p n) s = .next (faulted s cCopy u.bundleVa)) ∧
      (p = 2 → launchOwnsArray s u = false → exec (.stgw r p n) s = .next (faulted s cArray u.bundleVa))) ∧
    (∀ (d : BitVec 6) (p : BitVec 2) (n : BitVec 4), NoHazard u [] [(.scalar d, 1)] →
      (∀ e : Fin 2, p.toNat = e.val → exec (.stgr d p n) s =
        .next (done (schedScalar s s.issue.me u d ((u.eng.cg.get e).get n.toFin) 1))) ∧
      (p = 2 → launchOwnsArray s u = true → exec (.stgr d p n) s =
        .next (done (schedScalar s s.issue.me u d ((arrayOf s c).ag.get n.toFin) 1))))

/-! ## The copy engines and the stream array (R204 to R262) -/

/-- R34, R204 to R211, R227, R228: a copy command whose checks pass enters its engine's queue with the staging registers, windows
and PC of its issue, its token busy and its slabs claimed; it waits for a place among eight and for its token. QBND
binds or unbinds a stream register, TWAIT waits until its tokens are free, CFOL adds a follow-on that watches its token, and CABT
takes the engine's commands of its tokens out of the queue.
The model's choices that clauses of it rest on: log entries 24 and 82. -/
def Obligations.CopySlots : Prop :=
  (∀ (s : State) (u : UnitSt) (e : BitVec 1) (t : BitVec 4) (b f y : BitVec 1) (x k z : BitVec 2) (i : BitVec 8), AtIssue s u →
      Unlent s → ∀ r ∈ copyForms e t b f y x k z i,
        let c := u.ident.cluster
        let cmd := mkCopyCmd s u e r.op r.hdr
        (∀ n code a, (copyChecks s u cmd).take n = List.replicate n .done → (copyChecks s u cmd)[n]? = some (.fault code a) →
          exec r.ins s = .next (faulted s code a)) ∧
        ((∀ m ∈ copyChecks s u cmd, m = .done) → memHold s s.issue.me u = .done →
          (shadowMeets s u cmd = true → exec r.ins s = .next (noteResult s (.wait .bank))) ∧
          (shadowMeets s u cmd = false → 8 ≤ (s.engine c e).queue.length → exec r.ins s = .next (noteResult s (.wait .queueSlot))) ∧
          (shadowMeets s u cmd = false → (s.engine c e).queue.length < 8 → (u.eng.tok.get e.toFin).getLsbD t.toNat = true →
            exec r.ins s = .next (noteResult s (.wait .token))) ∧
          (copyWaits s u e cmd = .done → ∃ w q v, exec r.ins s = .next (done w) ∧ w.mem = s.mem ∧
            (w.engine c e).queue = (s.engine c e).queue ++ [q] ∧ q.op = r.op ∧ q.hdr = r.hdr ∧ q.tok = t ∧ q.uid = some s.issue.me ∧
            q.cg = u.eng.cg.get e.toFin ∧ q.wins = u.csr.wb ∧ q.bundle = u.flow.pc.addr ∧ q.slot = s.issue.slot ∧ q.started = false ∧
            q.fault = none ∧ w.unit? s.issue.me = some v ∧ v.regs = u.regs ∧ v.pend = u.pend ∧
            (v.eng.tok.get e.toFin).getLsbD t.toNat = true ∧
            (∀ j : Nat, j ≠ t.toNat → (v.eng.tok.get e.toFin).getLsbD j = (u.eng.tok.get e.toFin).getLsbD j) ∧
            (∀ h, cmd.claimSlabs u false ≠ 0 → u.handle? cmd.srcH = some h → q.srcPos = h.hc ∧ ∃ h', v.handle? cmd.srcH = some h' ∧
              h'.hc = h.hc + BitVec.ofNat 32 (cmd.claimSlabs u false) ∧ h'.hp = h.hp) ∧
            (∀ h, cmd.claimSlabs u true ≠ 0 → u.handle? cmd.dstH = some h → q.dstPos = h.tc ∧ ∃ h', v.handle? cmd.dstH = some h' ∧
              h'.tc = h.tc + BitVec.ofNat 32 (cmd.claimSlabs u true) ∧ h'.tp = h.tp)))) ∧
  (∀ (s : State) (u : UnitSt) (e : BitVec 1), AtIssue s u → Unlent s →
      let c := u.ident.cluster
      (∀ (n : BitVec 3) (d : BitVec 1), streamUses s s.issue.me u n = false →
        (∃ v, exec (.qbnd e 1 d n) s = .next (done (s.setUnit s.issue.me v)) ∧ v.umem.q.get n.toFin = none ∧
          (∀ m, m ≠ n.toFin → v.umem.q.get m = u.umem.q.get m) ∧ v.regs = u.regs ∧ v.pend = u.pend) ∧
        (∀ h, u.handle? ((u.cgReg e 0).extractLsb' 0 8) = some h → h.ring = true → h.slabSize = 64 →
          ∃ v, exec (.qbnd e 0 d n) s = .next (done (s.setUnit s.issue.me v)) ∧
            v.umem.q.get n.toFin = some ⟨(u.cgReg e 0).extractLsb' 0 8, d == 1⟩ ∧
            (∀ m, m ≠ n.toFin → v.umem.q.get m = u.umem.q.get m) ∧ v.regs = u.regs ∧ v.pend = u.pend) ∧
        (∀ h, u.handle? ((u.cgReg e 0).extractLsb' 0 8) = some h → h.ring = false ∨ h.slabSize ≠ 64 →
          exec (.qbnd e 0 d n) s = .next (faulted s cRing (((u.cgReg e 0).extractLsb' 0 8).setWidth 80)))) ∧
      (∀ m : BitVec 16, (u.eng.tok.get e.toFin &&& m = 0 → exec (.twait e m) s = .next (done s)) ∧
        (u.eng.tok.get e.toFin &&& m ≠ 0 → exec (.twait e m) s = .next (noteResult s (.wait .token)))) ∧
      (∀ t : BitVec 4,
        (launchOwnsArray s u = false → exec (.cfol e t) s = .next (faulted s cArray u.bundleVa)) ∧
        (launchOwnsArray s u = true → (u.cgReg e 7).extractLsb' 28 4 ≠ 8 → exec (.cfol e t) s = .next (faulted s cCopy u.bundleVa)) ∧
        (launchOwnsArray s u = true → (u.cgReg e 7).extractLsb' 28 4 = 8 → ∃ w f, exec (.cfol e t) s = .next (done w) ∧
          w.units = s.units ∧ w.mem = s.mem ∧ (w.cluster c).follows = (s.cluster c).follows ++ [f] ∧ f.uid = s.issue.me ∧
          f.image = (u.cgReg e 7).extractLsb' 0 32 ∧ f.ready = !(u.eng.tok.get e.toFin).getLsbD t.toNat ∧
          f.fresh = true)) ∧
      (∀ m : BitVec 16, ∃ w, exec (.cabt e m) s = .next (done w) ∧ ((∀ q ∈ (s.engine c e).queue, q.bar = false) → w.mem = s.mem) ∧
        ∀ q ∈ (w.engine c e).queue, q.uid = some s.issue.me → m.getLsbD q.tok.toNat = true → q.publDone = true))

/-- R239, R240, R245, R246, R252, R253, R255 to R257: an array command of the unit whose launch owns the array enters the queue
with the staging registers and modes of its issue, its claims made, its tag counted; AEXT raises SLEN; ACLR with KILL empties the
queue first. It waits while the array clears, while four commands are queued and while a claim cannot be made. ACHK, ASNAP and
AWAIT act at issue on the array's state, and A.CFG writes a mode of an array that has no command and no running stream, ending the
extendability of a held or stopped stream. -/
def Obligations.ArraySlots : Prop :=
  (∀ (s : State) (u : UnitSt) (x o i e w k l g a : BitVec 1) (n : BitVec 4), AtIssue s u → Unlent s →
      ∀ f ∈ [(Instr.awld x, 0#4, x.setWidth 24), (.astrm o i e, 1#4, (o ++ i ++ e).setWidth 24), (.aext n, 2#4, n.setWidth 24),
          (.aout w, 4#4, w.setWidth 24), (.aclr k l g a, 5#4, (k ++ l ++ g ++ a).setWidth 24)],
        let c := u.ident.cluster
        let r := arrayOf s c
        let cmd := mkArrayCmd s s.issue.me u f.2.1 f.2.2 u.flow.pc.addr s.issue.slot none
        (ownsArray s s.issue.me u = false → exec f.1 s = .next (faulted s cArray u.bundleVa)) ∧
        (arrayCheck s u cmd = .done →
          (r.clearing ≠ 0 ∨ 4 ≤ r.queue.length → exec f.1 s = .next (noteResult s (.wait .array))) ∧
          (r.clearing = 0 → r.queue.length < 4 → (∀ h ∈ cmd.rings r, handleWait s u h.1 = .done) → canClaim u cmd = false → exec f.1 s = .next (noteResult s (.wait .ring))) ∧
          (r.clearing = 0 → r.queue.length < 4 → (∀ h ∈ cmd.rings r, handleWait s u h.1 = .done) → canClaim u cmd = true →
            ∃ t q v, exec f.1 s = .next (done t) ∧ t.mem = s.mem ∧
              (arrayOf t c).queue = (if f.2.1 = 5 ∧ k = 1 then [] else r.queue) ++ [q] ∧
              q.op = f.2.1 ∧ q.hdr = f.2.2 ∧ q.uid = s.issue.me ∧ q.tag = u.eng.arrayTag ∧ q.mode = r.mode ∧ q.slen = r.slen ∧
              q.nm = r.nm ∧ q.pair = r.pair ∧ (∀ j : Fin 8, q.ag.get j = r.ag.get ⟨j.val, by omega⟩) ∧
              (arrayOf t c).slen = (if f.2.1 = 2 then BitVec.ofNat 5 (extendedTarget r s.issue.me n.toNat) else r.slen) ∧
              t.unit? s.issue.me = some v ∧ v.regs = u.regs ∧ v.pend = u.pend ∧ v.eng.arrayTag = u.eng.arrayTag + 1 ∧
              (k = 0 → ∀ h, cmd.headSlabs ≠ 0 → u.handle? cmd.headRing = some h → ∃ h', v.handle? cmd.headRing = some h' ∧
                q.inPos = h.hc ∧ h'.hc = h.hc + BitVec.ofNat 32 cmd.headSlabs ∧ h'.hp = h.hp)))) ∧
  (∀ (s : State) (u : UnitSt), AtIssue s u → Unlent s → ownsArray s s.issue.me u = true →
      let c := u.ident.cluster
      let r := arrayOf s c
      r.clearing = 0 →
      (∀ (x : BitVec 1) (p : BitVec 3), (r.folt = true → arrayIdle r = true) → NoHazard u [] [(.pred p, 3)] → achkBad r = false →
        ∃ t v, exec (.achk x p) s = .next (done t) ∧ t.mem = s.mem ∧ t.unit? s.issue.me = some v ∧ v.regs = u.regs ∧
          v.pend = (u.push (mkEntry s u (.pred p) ((BitVec.ofBool (achkTest r).1).setWidth 512) 3 0)).pend ∧
          (arrayOf t c).check.valid = true ∧ (arrayOf t c).check.pass = (achkTest r).1 ∧
          (x = 1 → (achkTest r).1 = true → r.state = .run → r.stream.isSome = true → u.curt.inentry = false →
            (arrayOf t c).state = .stopped ∧ (arrayOf t c).cause = 1) ∧
          (x = 0 ∨ (achkTest r).1 = false ∨ r.state ≠ .run ∨ u.curt.inentry = true → (arrayOf t c).state = r.state)) ∧
      (∀ (x : BitVec 2) (d : BitVec 6), (r.folt = true → arrayIdle r = true) → NoHazard u [] [(.scalar d, 2)] → x.toNat < 2 →
        exec (.asnap x d) s = .next (done (schedScalar s s.issue.me { u with eng := { u.eng with arrayTag := u.eng.arrayTag + 1 } } d
          (if x = 0 then snapStatus r s.issue.me else snapCheck r) 2))) ∧
      (∀ d : BitVec 6, (r.folt = true → arrayIdle r = true) → NoHazard u [] [(.scalar d, 2)] →
        ((r.ag.get 4).extractLsb' 0 11).toNat ≤ ((r.ag.get 4).extractLsb' 12 11).toNat →
        exec (.asnap 2 d) s = .next (done (schedScalar s s.issue.me { u with eng := { u.eng with arrayTag := u.eng.arrayTag + 1 } } d
          (snapBound r) 2))) ∧
      (∀ (k : BitVec 5) (x : BitVec 2),
        (awaitHolds r s.issue.me k x = true → exec (.await k x) s = .next (done (s.setUnit s.issue.me
          { u with eng := { u.eng with arrayTag := u.eng.arrayTag + 1 } }))) ∧
        (awaitHolds r s.issue.me k x = false → exec (.await k x) s = .next (noteResult s (.wait .array)))) ∧
      (∀ (e : BitVec 8) (l : BitVec 1) (z : BitVec 3), ∃ t, exec (.azone e l z) s = .next (done t) ∧ t.units = s.units ∧ t.mem = s.mem ∧
        ∀ j, (arrayOf t c).ez.get j = if l = 1 ∨ j.val = z.toNat then e else r.ez.get j) ∧
      (∀ (k : BitVec 5) (rs cs n p : BitVec 1) (x : BitVec 16) (m y : BitVec 2),
        (r.queue = [] → r.state ≠ .run → ∀ f ∈ ([(.asetl k, fun a => { a with slen := k }),
            (.aseed cs rs x, fun a => { a with rowseed := if rs = 1 then x else a.rowseed, colseed := if cs = 1 then x else a.colseed }),
            (.amode n p m, fun a => { a with mode := m, spread := p == 1, nm := n == 1 }),
            (.agen y, fun a => { a with pair := y })] : List (Instr × (ArraySt → ArraySt))),
          ∃ t, exec f.1 s = .next (done t) ∧ t.units = s.units ∧ t.mem = s.mem ∧
            arrayOf t c = f.2 (if r.state = .held ∨ r.state = .stopped then { r with state := .idle, cause := 0 } else r)) ∧
        (r.queue ≠ [] ∨ r.state = .run → ∀ f ∈ [Instr.asetl k, .aseed cs rs x, .amode n p m, .agen y],
          exec f s = .next (noteResult s (.wait .array)))))

/-! ## Synchronisation and the K slots (R116, R120 to R126, R263 to R288, R331, R335 to R357) -/

/-- R264, R268 to R274, R277 to R282: an atomic, an ARED or a SYNCQ that reaches a synchronisation page is a request to the home
die's engine, with an entry for the old value, or the query's answer, that its reply fills. BARRIVE and
its join form make the unit a member and await the phase; BARAW arrives with an entry of latency STALL + 1 and a wait; BARWAIT
sends its request, waits, and writes its status with latency 1, and where it has ended with POISON issues without it (R284); a value outside 1 to 65535 for BARINIT, or a ninth membership,
takes ATOMIC_ERROR. -/
def Obligations.AtomicsAndBarriers : Prop :=
  (∀ (s : State) (u : UnitSt) (d a b : BitVec 6) (c o : BitVec 2) (w : BitVec 1) (pa : Nat) (e : TlbEntry) (blank : Bool),
      AtIssue s u →
      let va := syncVa s u a
      let lat := syncLand s u
      (∀ f ∈ atomForms,
        let w := f.width.getD w
        let n := if w = 1 then 4 else 8
        NoHazard u ([.scalar a, .scalar b] ++ if f.cmp then [.scalar d] else []) [(.scalar d, lat)] →
        (va.toNat % n ≠ 0 → exec (f.ins d a b c o w) s = .next (faulted s cMisaligned va)) ∧
        (va.toNat % n = 0 → watchHit u va n true true = false → Syncs s u va .atomic (d != 0) o c pa e blank →
          ∃ t q, exec (f.ins d a b c o w) s = .next (done t) ∧ t.mem = s.mem ∧ RequestOf s u q va pa e o c ∧ q.kind = .op f.op ∧
            q.width = w ∧ q.size = n ∧ q.n = 1 ∧ q.x = (u.reg b).setWidth 512 ∧ q.cmp = (if f.cmp then u.reg d else 0) ∧
            q.signed = f.signed ∧ q.posted = (d == 0) ∧ Sent s t u.ident.cluster q (ordRel o) ∧
            t.unit? s.issue.me = some (u.push (awaitedEntry s u (.scalar d) lat s.nextReq va)))) ∧
      (∀ n : BitVec 6,
        let m := (u.reg n).toNat
        let k := if w = 1 then 4 else 8
        s.issue.lend.extractLsb' 6 2 = 0 → (s.issue.lend.extractLsb' 2 4).toNat ≤ 8 → NoHazard u [.scalar a, .scalar b, .scalar n] [] →
        va.toNat % k = 0 →
        (m = 0 ∨ 2048 < m ∧ m < 4096 ∧ va.toNat / 2 ^ 14 = (va.toNat + m * k - 1) / 2 ^ 14 →
          exec (.ared n a b c o w) s = .next (faulted s cAtomic va)) ∧
        (1 ≤ m → m ≤ 2048 → va.toNat / 2 ^ 14 = (va.toNat + m * k - 1) / 2 ^ 14 → watchHit u va (m * k) true true = false →
          Syncs s u va .atomic false o c pa e blank →
          ∃ t q, exec (.ared n a b c o w) s = .next (done t) ∧ t.mem = s.mem ∧ t.units = s.units ∧ RequestOf s u q va pa e o c ∧
            q.kind = .op 0x11 ∧ q.width = w ∧ q.size = k ∧ q.n = m ∧ q.x = (u.reg b).setWidth 512 ∧
            q.rop = s.issue.lend.extractLsb' 2 4 ∧ q.posted = true ∧ Sent s t u.ident.cluster q (ordRel o))) ∧
      (NoHazard u [.scalar a] [(.scalar d, lat)] →
        (va.toNat % 8 ≠ 0 → exec (.syncq d a c o) s = .next (faulted s cMisaligned va)) ∧
        (va.toNat % 8 = 0 → watchHit u va 8 true false = false → Syncs s u va .read (d != 0) o c pa e blank →
          ∃ t q, exec (.syncq d a c o) s = .next (done t) ∧ t.mem = s.mem ∧ RequestOf s u q va pa e o c ∧ q.kind = .op 0x12 ∧
            q.size = 16 ∧ q.n = 1 ∧ q.posted = (d == 0) ∧ Sent s t u.ident.cluster q (ordRel o) ∧
            t.unit? s.issue.me = some (u.push (awaitedEntry s u (.scalar d) lat s.nextReq va))))) ∧
  (∀ (s : State) (u : UnitSt) (d a b : BitVec 6) (c o : BitVec 2) (pa : Nat) (e : TlbEntry) (blank : Bool), AtIssue s u →
      let va := syncVa s u a
      let lat := syncLand s u
      let noLd := s.issue.lend.extractLsb' 2 6 = 0
      va.toNat % 16 = 0 →
      (noLd → NoHazard u [.scalar a, .scalar b] [] →
        ((u.reg b).toNat = 0 ∨ 65535 < (u.reg b).toNat → exec (.barinit a b c o) s = .next (faulted s cAtomic va)) ∧
        (1 ≤ (u.reg b).toNat → (u.reg b).toNat ≤ 65535 → watchHit u va 16 true false = false →
          Syncs s u va .atomic false o c pa e blank →
          ∃ t q, exec (.barinit a b c o) s = .next (done t) ∧ t.mem = s.mem ∧ t.units = s.units ∧ RequestOf s u q va pa e o c ∧
            q.kind = .op 0x0C ∧ q.x = (u.reg b).setWidth 512 ∧ q.posted = true ∧ Sent s t u.ident.cluster q (ordRel o))) ∧
      (∀ j ∈ [(false, Instr.barrive d a c o), (true, .barriveJoin d a c o)], NoHazard u [.scalar a] [(.scalar d, lat)] →
        Syncs s u va .atomic (d != 0) o c pa e blank →
        (ninth u pa = true → exec j.2 s = .next (faulted s cAtomic va)) ∧
        (ninth u pa = false → watchHit u va 16 true false = false →
          ∃ t q, exec j.2 s = .next (done t) ∧ t.mem = s.mem ∧ RequestOf s u q va pa e o c ∧ q.kind = .op 0x0D ∧ q.join = j.1 ∧
            q.posted = (d == 0) ∧ Sent s t u.ident.cluster q (ordRel o) ∧
            t.unit? s.issue.me = some ((u.join va pa).push (awaitedEntry s u (.scalar d) lat s.nextReq va)))) ∧
      (noLd → NoHazard u [.scalar a] [(.scalar d, s.issue.stall.toNat + 1)] → ninth u pa = false → watchHit u va 16 true false = false →
        Syncs s u va .atomic false o c pa e blank →
        ∃ t q v, exec (.baraw d a c o) s = .next (done t) ∧ t.mem = s.mem ∧ RequestOf s u q va pa e o c ∧ q.kind = .op 0x0F ∧
          Sent s t u.ident.cluster q (ordRel o) ∧ t.unit? s.issue.me = some v ∧ v.regs = u.regs ∧
          (∃ r, v.sync.barawReq = some r ∧ r.id = q.id) ∧ isMember v pa = true ∧
          v.pend = (u.push { mkEntry s u (.scalar d) 0 (s.issue.stall.toNat + 1) 0 with awaited := true, baraw := true }).pend) ∧
      (noLd → NoHazard u [.scalar a, .scalar b] [(.scalar d, 1)] →
        (u.sync.barwaitReq = none → u.sync.barwaitReply = none → u.sync.barwaitDone ≠ some u.flow.pc.addr → watchHit u va 16 true false = false →
          Syncs s u va .atomic false o c pa e blank →
          ∃ t q v, exec (.barwait d a b c o) s = .next t ∧ t.issue.result = .wait .sync ∧ t.mem = s.mem ∧ RequestOf s u q va pa e o c ∧
            q.kind = .op 0x0E ∧ q.x = (u.reg b).setWidth 512 ∧ Sent s t u.ident.cluster q (ordRel o) ∧ t.unit? s.issue.me = some v ∧
            (∃ r, v.sync.barwaitReq = some r ∧ r.id = q.id) ∧ v.pend = u.pend ∧ v.regs = u.regs) ∧
        (∀ q x, u.sync.barwaitReq = some q → u.sync.barwaitReply = some x → exec (.barwait d a b c o) s = .next (done
          (schedScalar s s.issue.me { u with sync := { u.sync with barwaitReq := none, barwaitReply := none } } d x 1))) ∧
        (u.sync.barwaitDone = some u.flow.pc.addr → u.sync.barwaitReq = none → u.sync.barwaitReply = none →
          exec (.barwait d a b c o) s = .next (done (s.setUnit s.issue.me u)))))

/-- R120, R121, R123: FENCE starts a release where its order has one and there is something to release, as at a scope of the die or
wider there is, and invalidates where it acquires: the read-only cache, and with a scope beyond the cluster every clean line. R116, R357, R399: L1FLUSH and L1INV start
their operation on the cluster cache, which keeps no dirty byte with a scope beyond the cluster; REPMARK notes its register in the
recorder's stream of a context that records; VALSET posts its values.
The model's choices that clauses of it rest on: log entries 28 and 29. -/
def Obligations.FencesAndCaches : Prop :=
  (∀ (s : State) (u : UnitSt) (c o : BitVec 2), AtIssue s u → Unlent s → memHold s s.issue.me u = .done →
      (ordAcq o = true → readsPending s s.issue.me u.ident.cluster = false) →
      let k := u.ident.cluster
      ∃ t v, exec (.fence c o) s = .next (done t) ∧ (CacheUnder s k → t.mem = s.mem) ∧ t.unit? s.issue.me = some v ∧ v.regs = u.regs ∧
        v.pend = u.pend ∧
        (ordRel o = true → releases s s.issue.me k c = true → ∃ r, (t.cluster k).rels = (s.cluster k).rels ++ [r] ∧ r.uid = s.issue.me ∧
          r.system = (c == 3) ∧ r.scope = c ∧ r.payload = (if o = 3 then .fence else .none)) ∧
        (ordRel o = false ∨ releases s s.issue.me k c = false → (t.cluster k).rels = (s.cluster k).rels) ∧
        (c ≠ 0 → releases s s.issue.me k c = true) ∧
        (ordAcq o = true → (t.cluster k).roCache = [] ∧ (c ≠ 0 → ∀ l ∈ (t.cluster k).cache, l.dirty ≠ 0)) ∧
        (ordAcq o = false → t.units = s.units ∧ (t.cluster k).roCache = (s.cluster k).roCache)) ∧
  (∀ (s : State) (u : UnitSt), AtIssue s u → Unlent s →
      let k := u.ident.cluster
      (∀ c : BitVec 2, (s.cluster k).l1op = none → (c ≠ 0 → (s.cluster k).rels = []) →
        (c = 0 → exec (.l1flush c) s = .next (done s)) ∧
        (∀ i ∈ [Instr.l1flush c, .l1inv c], (c ≠ 0 ∨ i = .l1inv c) → ∃ t o, exec i s = .next (done t) ∧ t.units = s.units ∧
          (CacheUnder s k → t.mem = s.mem) ∧ (t.cluster k).l1op = some o ∧ o.scope = c ∧ o.flushed = true ∧ o.inval = (decide (i = .l1inv c) && c != 0) ∧ o.invalRo = decide (i = .l1inv c) ∧
          (c.toNat < 2 → o.lines = []) ∧ (c ≠ 0 → ∀ l ∈ (t.cluster k).cache, l.dirty = 0))) ∧
      (∀ c : BitVec 2, (s.cluster k).l1op ≠ none → exec (.l1flush c) s = .next (noteResult s (.hold .l1op)) ∧
        exec (.l1inv c) s = .next (noteResult s (.hold .l1op))) ∧
      (∀ (a : BitVec 6) (n : BitVec 10) (x : Context), NoHazard u [.scalar a] [] → s.ctx? u.ident.asid = some x → x.replay = false →
        (x.recording = false → exec (.repmark a n) s = .next (done s)) ∧
        (x.recording = true → ringRoom s x recorderRing = true → budgetOpen s u.ident.asid bCrossbar (slotKey s) = true →
          ∃ t y, exec (.repmark a n) s = .next (done t) ∧ t.units = s.units ∧ t.mem = s.mem ∧ t.ctx? u.ident.asid = some y ∧
            y.recorder = x.recorder ++ [⟨.repmark, serialOf s u, u.ident.index, u.run.bundles, n.toNat, u.reg a, none⟩])) ∧
      (∀ (b : BitVec 6) (w : BitVec 2) (pa : Nat) (e : TlbEntry) (blank : Bool) (i : Nat),
        let va := u.windowVa w (u.reg b)
        translate s u.accessor va .write = .ok pa e blank → bufAtBase s u.ident.asid va = some i →
        budgetOpen s u.ident.asid bCrossbar (slotKey s) = true →
        (∀ (v : BitVec 6) (kc : BitVec 5) (n x : BitVec 1), NoHazard u [.scalar b, .scalar v] [] →
          ∃ t, exec (.valset v b kc n x w) s = .next (done t) ∧ t.units = s.units ∧ t.mem = s.mem ∧
            t.hub.walk.valsets = s.hub.walk.valsets ++
              [⟨s.issue.me, i, u.curt.inentry, n == 1, x == 1, kc, valsetBound (x == 1) (u.reg v)⟩]) ∧
        (NoHazard u [.scalar b] [] → u.isPrompter = false → launchOwnsArray s u = true →
          ∃ t m, exec (.valsetArr b w) s = .next (done t) ∧ t.units = s.units ∧ t.mem = s.mem ∧
            t.hub.walk.valsets = s.hub.walk.valsets ++ [m] ∧ m.buffer = i ∧ m.bound = snapBound (arrayOf s k) ∧
            m.nochk = ((arrayOf s k).set.bind CheckSet.kc).isNone)))

/-- R272, R273, R275: what an engine leaves in memory and answers for one element: the old value, and the operation's new one.
R280, R281: at the engine an arrival counts, and completes the phase when arrivals and losses reach EXPECTED: the phase number
rises by one modulo 2^15, both counts clear, and LASTLOST says whether any arrival was lost. -/
def Obligations.AtomicValues : Prop :=
  (∀ (w : BitVec 1) (old x cmp : Nat),
      let n := if w = 1 then 32 else 64
      let f (op : Nat) : BitVec n := BitVec.ofNat n (atomicNew op w old x cmp)
      let a : BitVec n := BitVec.ofNat n old
      let b : BitVec n := BitVec.ofNat n x
      f 0x00 = a + b ∧ f 0x01 = a &&& b ∧ f 0x02 = a ||| b ∧ f 0x03 = a ^^^ b ∧
      f 0x04 = (if b.toInt < a.toInt then b else a) ∧ f 0x05 = (if b.toNat < a.toNat then b else a) ∧
      f 0x06 = (if a.toInt < b.toInt then b else a) ∧ f 0x07 = (if a.toNat < b.toNat then b else a) ∧ f 0x08 = b ∧
      f 0x09 = (if a = BitVec.ofNat n cmp then b else a) ∧
      (∀ op, atomicNew op w old x cmp < 2 ^ n ∨ 0x0A ≤ op)) ∧
  (∀ b : Barrier,
      (b.arrived + b.lostc = b.expected → b.settle.2 = true ∧ b.settle.1.phase = (b.phase + 1) % 2 ^ 15 ∧ b.settle.1.arrived = 0 ∧
        b.settle.1.lostc = 0 ∧ b.settle.1.lastlost = decide (0 < b.lostc) ∧ b.settle.1.expected = b.expected ∧ b.settle.1.init = b.init) ∧
      (b.arrived + b.lostc ≠ b.expected → b.settle = (b, false)) ∧
      (b.expected < 2 ^ 16 → b.arrived < 2 ^ 16 → b.lostc < 2 ^ 16 → b.phase < 2 ^ 15 → Barrier.ofNat b.toNat = b))

/-- R58, R76, R77, R164: CSRR, CSRW, CSRS and CSRC enter the old value and the new one with latency 1, RBSEED both seeds; a
reserved number, a reserved rounding mode and a zero landing delay take ILLEGAL_OP; UNITID's fields. -/
def Obligations.ControlRegisters : Prop :=
  ∀ (s : State) (u : UnitSt) (d a : BitVec 6) (n : BitVec 10), AtIssue s u → Unlent s →
    (∀ old, readCsr s u n = some old →
      let enter (v : Word) : State := s.setUnit s.issue.me
        ((u.push (mkEntry s u (.scalar d) (old.setWidth 512) 1 0)).push (mkEntry s u (.csr n) (v.setWidth 512) 1 0))
      (NoHazard u [.csr n] [(.scalar d, 1)] → exec (.csrr d n) s = .next (done (schedScalar s s.issue.me u d old 1))) ∧
      (NoHazard u [.scalar a, .csr n] [(.scalar d, 1), (.csr n, 1)] →
        ∀ f ∈ [(Instr.csrw d a n, u.reg a), (.csrs d a n, old ||| u.reg a), (.csrc d a n, old &&& ~~~u.reg a)],
          (¬ (n = 2 ∧ 5 ≤ f.2.toNat % 8) → ¬ (n = 4 ∧ f.2.toNat % 256 = 0) → exec f.1 s = .next (done (enter f.2))) ∧
          (n = 2 ∧ 5 ≤ f.2.toNat % 8 ∨ n = 4 ∧ f.2.toNat % 256 = 0 → exec f.1 s = .next (faulted s cIllegalOp u.bundleVa)))) ∧
    (readCsr s u n = none → ∀ i ∈ [Instr.csrr d n, .csrw d a n, .csrs d a n, .csrc d a n],
      exec i s = .next (faulted s cIllegalOp u.bundleVa)) ∧
    (∀ h l : BitVec 6, NoHazard u [.scalar h, .scalar l] [(.csr 0x18, 1), (.csr 0x19, 1)] →
      exec (.rbseed h l) s = .next (done (s.setUnit s.issue.me
        ((u.push (mkEntry s u (.csr 0x18) ((u.reg l).setWidth 512) 1 0)).push
          (mkEntry s u (.csr 0x19) ((u.reg h).setWidth 512) 1 0))))) ∧
    readCsr s u 0x20 = some (BitVec.ofNat 64 (u.ident.index.toNat + 2 ^ 16 * u.ident.cluster.val +
      (if u.isPrompter then 2 ^ 23 else 0) + 2 ^ 32 * u.ident.asid.toNat))

/-- R8, R345 to R347: a selector names the elements of R346's table. FRD enters the element of the frozen unit that its selector
names, each class laid out as the table has it, and FWR writes it, where the class is written; a selector that names none, and a CSR's
refused value, take ILLEGAL_OP, and a staging register's reserved bit takes the copy fault. The events advance the chain of a held
unit, cancel a pending write and abandon a copy command, and leave every other unit alone.
The model's choices that clauses of it rest on: log entry 52. -/
def Obligations.PrompterElements : Prop :=
  (∀ x : Word, selectorBad x = false ↔ x.toNat < 2 ^ 24 ∧
    let c := x.toNat % 256
    let n := x.toNat / 256
    c = 0 ∧ n ≤ 6 ∨ c = 1 ∧ n ≤ 5 ∨ c = 2 ∧ n < 64 ∨ c = 3 ∧ n = 0 ∨ c = 4 ∧ n < 1024 ∧ Instr.csrKnown (BitVec.ofNat 10 n) = true ∨
    c = 5 ∧ n < 2048 ∨ c = 6 ∧ n ≤ 7 ∨ c = 7 ∧ n % 64 < 48 ∧ n / 64 ≤ 9 ∨ c = 8 ∧ n ≤ 3 ∨ c = 9 ∧ n < 32 ∨ c = 10 ∧ n < 32 ∨
    c = 11 ∧ n < 16) ∧
  (∀ (s : State) (p u : UnitSt) (i : Uid) (d v sel : BitVec 6) (k : BitVec 2), AtIssue s p → Unlent s → p.isPrompter = true →
    capUnit s p (p.kcReg k) = some i → s.unit? i = some u →
    let x := p.reg sel
    let cls := x.extractLsb' 0 8
    let n := (x.extractLsb' 8 16).toNat
    let y := p.reg v
    let rd := noteOp s i (0x0D + 256 * (x.toNat % 2 ^ 24)) 0
    let wr := noteOp s i (0x0E + 256 * (x.toNat % 2 ^ 24)) y
    (selectorBad x = true → exec (.frd d sel k) s = .next (faulted s cIllegalOp p.bundleVa) ∧
      exec (.fwr v sel k) s = .next (faulted s cIllegalOp p.bundleVa)) ∧
    (selectorBad x = false →
      (NoHazard p [.scalar sel] [(.scalar d, 2)] → opAgrees s i (0x0D + 256 * (x.toNat % 2 ^ 24)) 0 = true →
        exec (.frd d sel k) s = .next (done (rd.setUnit s.issue.me
          (p.push (mkEntry rd p (.scalar d) ((readElement rd i u (p.kcReg k) cls n).setWidth 512) 2 0))))) ∧
      (writeIllegal x y = true → exec (.fwr v sel k) s = .next (faulted s cIllegalOp p.bundleVa)) ∧
      (writeIllegal x y = false → NoHazard p [.scalar sel, .scalar v] [] →
        (writeFaults x y = true → exec (.fwr v sel k) s = .next (faulted s cCopy p.bundleVa)) ∧
        (writeFaults x y = false → opAgrees s i (0x0E + 256 * (x.toNat % 2 ^ 24)) y = true →
          exec (.fwr v sel k) s = .next (done (writeElement wr i u cls n y)))))) ∧
  (∀ (s : State) (i : Uid) (u : UnitSt) (cap : Word),
    let rd (c : BitVec 8) (n : Nat) := readElement s i u cap c n
    let f := chainView u
    (u.run.record = none → rd 0 0 = 0 ∧ rd 0 1 = 0 ∧ rd 0 2 = 0 ∧ rd 0 3 = 0 ∧ rd 0 4 = u.flow.pc.addr) ∧
    (∀ r, u.run.record = some r →
      ((rd 0 0).extractLsb' 0 8 = r.code ∧ (rd 0 0).extractLsb' 8 4 = r.mask ∧ (rd 0 0).getLsbD 12 = r.after ∧
        (rd 0 0).getLsbD 13 = u.run.dieLost ∧ (rd 0 0).getLsbD 14 = u.run.curtFrozen ∧ (rd 0 0).getLsbD 15 = false ∧
        (rd 0 0).extractLsb' 16 16 = u.run.gen ∧ (rd 0 0).extractLsb' 32 16 = u.ident.index ∧ (rd 0 0).extractLsb' 48 16 = 0) ∧
      rd 0 1 = r.addr.extractLsb' 0 64 ∧ rd 0 2 = BitVec.ofNat 64 (r.addr.toNat / 2 ^ 64) ∧
      ((rd 0 3).extractLsb' 0 2 = (match r.source with | .core => 0 | .copy .. => 1 | .array _ => 2 | .sync => 3) ∧
        (rd 0 3).extractLsb' 2 5 = (match r.source with | .copy e t => t ++ e | .array t => t ++ 0#1 | _ => 0) ∧
        (rd 0 3).getLsbD 7 = false ∧ (rd 0 3).extractLsb' 8 2 = r.slot ∧ (rd 0 3).extractLsb' 10 54 = 0) ∧
      rd 0 4 = (if r.after then r.bundle else u.flow.pc.addr)) ∧
    rd 0 5 = BitVec.ofNat 64 u.run.bundles ∧ rd 0 6 = cap ∧
    rd 1 0 = f.pc.addr ∧ rd 1 1 = f.npc.addr ∧ rd 1 2 = f.nnpc.addr ∧
      rd 1 3 = BitVec.ofNat 64 (f.npc.ann.toNat + 2 * f.nnpc.ann.toNat) ∧ rd 1 4 = f.pchi.setWidth 64 ∧ rd 1 5 = 0 ∧
    (∀ r : BitVec 6, rd 2 r.toNat = if r = 0 then 0 else u.regs.s.get r.toFin) ∧
    rd 3 0 = BitVec.ofNat 64 ((u.regs.p ||| 1).toNat + 2 ^ 8 * u.regs.ps.toNat) ∧
    (∀ n : BitVec 10, rd 4 n.toNat = (readCsr s u n).getD 0) ∧
    (∀ (t : BitVec 3) (r c : BitVec 4), rd 5 (t.toNat * 256 + r.toNat * 16 + c.toNat) =
      (tileElem (u.regs.tiles.get t.toFin) r.toNat c.toNat).setWidth 64) ∧
    rd 6 0 = (u.flow.lc.get 0).setWidth 64 ∧ rd 6 1 = (u.flow.lc.get 1).setWidth 64 ∧
    (∀ l : Fin 2, let z := u.flow.loops.get l; rd 6 (2 + 3 * l.val) = z.start ∧ rd 6 (3 + 3 * l.val) = z.stop ∧
      let w := rd 6 (4 + 3 * l.val); w.extractLsb' 0 3 = z.e ∧ w.extractLsb' 3 3 = z.drain ∧ w.extractLsb' 6 8 = z.initps ∧
        w.getLsbD 14 = z.active ∧ w.getLsbD 15 = z.cleared ∧ w.extractLsb' 16 48 = 0) ∧
    (∀ n, n < 48 → (∀ e, entryAt u n = some e ↔ u.pend[n]? = some e ∧ e.dest.discarded = false) ∧
      (entryAt u n = none → ∀ w, rd 7 (n + 64 * w) = 0) ∧
      (∀ e, entryAt u n = some e → rd 7 (n + 64) = e.bundle ∧ (∀ w, w < 8 → rd 7 (n + 64 * (w + 2)) = e.value.extractLsb' (64 * w) 64) ∧
        let z := rd 7 n
        z.getLsbD 0 = true ∧ z.getLsbD 1 = e.awaited ∧ z.extractLsb' 5 11 = 0 ∧ z.extractLsb' 16 5 = e.flags ∧
        z.extractLsb' 21 8 = BitVec.ofNat 8 e.m ∧ z.extractLsb' 29 2 = e.slot ∧ z.getLsbD 31 = false ∧ z.extractLsb' 48 16 = 0 ∧
        match e.dest with
        | .scalar r => z.extractLsb' 2 3 = 0 ∧ z.extractLsb' 32 16 = r.setWidth 16
        | .pred q => z.extractLsb' 2 3 = 1 ∧ z.extractLsb' 32 16 = q.setWidth 16
        | .tile t d q => z.extractLsb' 2 3 = 2 ∧ z.extractLsb' 40 3 = t ∧ z.extractLsb' 38 2 = d ∧ z.extractLsb' 32 4 = q ∧
            z.extractLsb' 36 2 = 0 ∧ z.extractLsb' 43 5 = 0
        | .csr q => z.extractLsb' 2 3 = 3 ∧ z.extractLsb' 32 16 = q.setWidth 16
        | .stage q => z.extractLsb' 2 3 = 4 ∧ z.extractLsb' 32 16 = q.setWidth 16)) ∧
    (∀ q : Fin 2, rd 8 (2 * q.val) = u.umem.wcha.get q ∧ rd 8 (2 * q.val + 1) = u.umem.wchc.get q) ∧
    (∀ (e : BitVec 1) (t : BitVec 4), let z := rd 9 (e.toNat + 2 * t.toNat)
      z.getLsbD 0 = (u.eng.tok.get e.toFin).getLsbD t.toNat ∧ z.extractLsb' 2 6 = 0 ∧ z.extractLsb' 21 43 = 0 ∧
      match (s.engine u.ident.cluster e).queue.find? fun c => c.uid == some i && c.tok == t with
      | none => z.extractLsb' 1 20 = 0
      | some c => z.getLsbD 1 = c.fault.isSome ∧ z.extractLsb' 8 8 = (match c.fault with | some r => r.code | none => 0) ∧
          z.extractLsb' 16 5 = c.op) ∧
    (∀ (e : BitVec 1) (r : BitVec 4), rd 10 (e.toNat * 16 + r.toNat) = (u.eng.cg.get e.toFin).get r.toFin) ∧
    (∀ n, rd 11 n = if n < u.csr.rbqueue then
      (Nat.iterate (fun z : Word × Word × Word => rbStep z.2.1 z.2.2) n (rbStep u.csr.rbseed0 u.csr.rbseed1)).1 else 0)) ∧
  (∀ (s : State) (i : Uid) (u : UnitSt) (y : Word),
    let wr (c : BitVec 8) (n : Nat) := writeElement s i u c n y
    let f := u.flow
    let chain (g : Flow) := s.setUnit i { u with flow := g }
    let aim (e : ChainEntry) : ChainEntry := { e with addr := y &&& ~~~15, src := none, jump := false }
    (∀ n, wr 0 n = s ∧ wr 11 n = s) ∧
    wr 1 0 = chain { f with pc := aim f.pc } ∧ wr 1 1 = chain { f with npc := aim f.npc } ∧
    (f.skip = 0 → wr 1 2 = chain { f with nnpc := aim f.nnpc }) ∧
    wr 1 3 = chain { f with npc := { f.npc with ann := y.getLsbD 0 }, nnpc := { f.nnpc with ann := y.getLsbD 1 } } ∧
    wr 1 4 = s.setUnit i u ∧ wr 1 5 = s.setUnit i (advanceFrozen u) ∧
    (∀ r : BitVec 6, wr 2 r.toNat = if r = 0 then s else s.setUnit i { u with regs := { u.regs with s := u.regs.s.set r.toFin y } }) ∧
    wr 3 0 = s.setUnit i { u with regs := { u.regs with p := y.extractLsb' 0 8 ||| 1, ps := y.extractLsb' 8 8 } } ∧
    (∀ n : BitVec 10, wr 4 n.toNat = s.setUnit i { u with csr := applyCsr u.csr n y }) ∧
    (∀ (t : BitVec 3) (r c : BitVec 4), wr 5 (t.toNat * 256 + r.toNat * 16 + c.toNat) = s.setUnit i { u with regs := { u.regs with
      tiles := u.regs.tiles.set t.toFin (setTileElem (u.regs.tiles.get t.toFin) r.toNat c.toNat (y.extractLsb' 0 32)) } }) ∧
    (∀ l : Fin 2, let z := f.loops.get l
      let lp (z' : LoopSt) := chain { f with loops := f.loops.set l z' }
      wr 6 l.val = chain { f with lc := f.lc.set l (y.extractLsb' 0 32) } ∧ wr 6 (2 + 3 * l.val) = lp { z with start := y } ∧
      wr 6 (3 + 3 * l.val) = lp { z with stop := y } ∧
      wr 6 (4 + 3 * l.val) = lp { z with e := y.extractLsb' 0 3, drain := y.extractLsb' 3 3, initps := y.extractLsb' 6 8,
                                         active := y.getLsbD 14, cleared := y.getLsbD 15 }) ∧
    (∀ n, n < 48 →
      (entryAt u n = none → ∀ w, wr 7 (n + 64 * w) = s.setUnit i u) ∧
      (∀ e, entryAt u n = some e →
        wr 7 n = s.setUnit i (if y.getLsbD 0 then u else cancelEntry u n) ∧ wr 7 (n + 64) = s.setUnit i u ∧
        (∀ w, w < 8 → wr 7 (n + 64 * (w + 2)) = s.setUnit i
          (if e.awaited = true ∨ (∀ t d q, e.dest ≠ .tile t d q) ∧ w ≠ 0 then u
           else { u with pend := u.pend.set n { e with value :=
             (e.value &&& ~~~((0xFFFFFFFFFFFFFFFF#512) <<< (64 * w))) ||| ((y.setWidth 512) <<< (64 * w)) } })))) ∧
    (∀ q : Fin 2, wr 8 (2 * q.val) = s.setUnit i { u with umem := { u.umem with wcha := u.umem.wcha.set q y } } ∧
      wr 8 (2 * q.val + 1) = s.setUnit i { u with umem := { u.umem with wchc := u.umem.wchc.set q (y &&& 0x0000FFFFFFFFFFFF) } }) ∧
    (∀ (e : BitVec 1) (t : BitVec 4), wr 9 (e.toNat + 2 * t.toNat) = if y = 2 then abandonToken s i u e t else s) ∧
    (∀ (e : BitVec 1) (r : BitVec 4), wr 10 (e.toNat * 16 + r.toNat) =
      s.setUnit i { u with eng := { u.eng with cg := u.eng.cg.set e.toFin ((u.eng.cg.get e.toFin).set r.toFin y) } })) ∧
  (∀ (s : State) (i : Uid) (u : UnitSt), s.unit? i = some u →
    (∀ (n : Nat) (e : BitVec 1) (t : BitVec 4), u.run.status ≠ .frozenHeld → exec (.fwrAdvance i) s = .next s ∧
      exec (.fwrCancelPending i n) s = .next s ∧ exec (.fwrAbandonCommand i e t) s = .next s) ∧
    (u.run.status = .frozenHeld →
      (exec (.fwrAdvance i) s = .next (s.setUnit i (advanceFrozen u)) ∧ (advanceFrozen u).regs.s = u.regs.s ∧
        (advanceFrozen u).pend = u.pend ∧ (advanceFrozen u).run = u.run ∧ (advanceFrozen u).csr = u.csr) ∧
      (∀ n, exec (.fwrCancelPending i n) s = .next (s.setUnit i (cancelEntry u n)) ∧ entryAt (cancelEntry u n) n = none ∧
        (∀ m, m ≠ n → entryAt (cancelEntry u n) m = entryAt u m) ∧ { cancelEntry u n with pend := u.pend } = u) ∧
      (∀ (e : BitVec 1) (t : BitVec 4), exec (.fwrAbandonCommand i e t) s = .next (abandonToken s i u e t) ∧
        (tokenCmd s i u e t = none → abandonToken s i u e t = s) ∧
        (∀ c, tokenCmd s i u e t = some c →
          (c.publDone = true → abandonToken s i u e t = s) ∧
          (c.publDone = false → ∃ w, (abandonToken s i u e t).unit? i = some w ∧ (w.eng.tok.get e.toFin).getLsbD t.toNat = false ∧
            w.regs = u.regs ∧ w.pend = u.pend ∧
            ∀ q ∈ ((abandonToken s i u e t).engine u.ident.cluster e).queue, q.id ≠ c.id)))))

/-- R345, R348 to R352: FNEXT takes the oldest untaken unit of its core, FRESUME, FSTEP, FKILL and CAPDROP give it up: resumed and
parked, running for one bundle in place of the prompter, killed, or frozen for another; FARRIVE arrives for it. R54, R331, R343:
in a unit that is no prompter every prompter operation and TLBI takes PRIVILEGE; without a current capability the operations on a
unit take CAPABILITY; TLBI of another context takes PRIVILEGE, and of its own starts a shoot-down, holds until it is over, and
completes.
The model's choices that clauses of it rest on: log entry 53. -/
def Obligations.PrompterOperations : Prop :=
  (∀ (s : State) (p : UnitSt) (k : BitVec 2), AtIssue s p → Unlent s → p.isPrompter = true → untaken p p = false →
      let me := s.issue.me
      (∀ d : BitVec 6, capUnit s p (p.kcReg k) = none → NoHazard p [] [(.scalar d, 1)] →
        (oldestUnit (setKc s me k 0) p.ident.asid (untaken p) = none → ∃ t v, exec (.fnext d k) s = .next (done t) ∧ t.mem = s.mem ∧
          t.unit? me = some v ∧ v.kcReg k = 0 ∧ v.pend = (p.push (mkEntry s p (.scalar d) 0 1 0)).pend) ∧
        (∀ i u pool, oldestUnit (setKc s me k 0) p.ident.asid (untaken p) = some i → i ≠ me → s.unit? i = some u → p.ident.prompt = some pool →
          opAgrees s i 0x12 0 = true →
          ∃ t v w m, exec (.fnext d k) s = .next (done t) ∧ t.mem = s.mem ∧ t.unit? me = some v ∧ t.unit? i = some w ∧
            w.run.status = .frozenHeld ∧ w.regs = u.regs ∧ v.kcReg k = mkCap s i u pool ∧
            v.pend = (p.push (mkEntry s p (.scalar d) ((summary u ||| m).setWidth 512) 1 0)).pend ∧
            (m = 0x8000 ∨ m = 0) ∧ (m = 0x8000 ↔ ∃ j x, j ≠ i ∧ j ≠ me ∧ s.unit? j = some x ∧ x.ident.asid = p.ident.asid ∧ untaken p x = true))) ∧
      (∀ (i : Uid) (u : UnitSt), capUnit s p (p.kcReg k) = some i → i ≠ me → s.unit? i = some u →
        (∀ d : BitVec 6, NoHazard p [] [(.scalar d, 1)] →
          (u.run.curtFrozen = false → u.run.dieLost = false →
            (opAgrees s i 0x0F 0 = true → ∃ t v w, exec (.fresume d k) s = .next (done t) ∧ t.mem = s.mem ∧ t.unit? me = some v ∧ t.unit? i = some w ∧
              v.kcReg k = 0 ∧ v.pend = (p.push (mkEntry s p (.scalar d) 0 1 0)).pend ∧ w.run.status = .parked ∧ w.run.record = none ∧
              w.regs = u.regs ∧ w.flow = u.flow ∧ w.csr = u.csr ∧ w.pend = (dropCancelled u).pend) ∧
            (opAgrees s i 0x13 0 = true → ∃ t v w, exec (.fstep d k) s = .next (done t) ∧ t.mem = s.mem ∧ t.unit? me = some v ∧ t.unit? i = some w ∧
              v.run.status = .parked ∧ v.pend = p.pend ∧ w.run.status = .running ∧ w.run.stepFor = some me ∧ w.run.stepSd = d ∧
              w.run.stepFrom = u.run.bundles ∧ w.regs = u.regs ∧ (t.cluster p.ident.cluster).running = some i)) ∧
          (u.run.curtFrozen = true → opAgrees s i 0x0F 0 = true → ∃ t v w, exec (.fresume d k) s = .next (done t) ∧ t.unit? me = some v ∧ t.unit? i = some w ∧
            v.kcReg k = 0 ∧ v.pend = (p.push (mkEntry s p (.scalar d) 1 1 0)).pend ∧ w.run.status = .complete .killed)) ∧
        (opAgrees s i 0x10 0 = true → ∃ t v w, exec (.fkill k) s = .next (done t) ∧ t.unit? me = some v ∧ t.unit? i = some w ∧ v.kcReg k = 0 ∧ v.pend = p.pend ∧
          w.run.status = .complete .killed ∧ w.pend = []) ∧
        (opAgrees s i 0x1A 0 = true → ∃ t v w, exec (.capdrop k) s = .next (done t) ∧ t.mem = s.mem ∧ t.unit? me = some v ∧ t.unit? i = some w ∧ v.kcReg k = 0 ∧
          v.pend = p.pend ∧ w.run.status = .frozenFree ∧ w.run.gen = u.run.gen + 1 ∧ w.regs = u.regs) ∧
        (∀ (d a : BitVec 6) (c w : BitVec 2) (pa : Nat) (e : TlbEntry) (blank : Bool),
          let va := p.windowVa w (p.reg a)
          NoHazard p [.scalar a] [(.scalar d, p.csr.land.toNat)] → va.toNat % 16 = 0 → Syncs s p va .atomic (d != 0) 2 c pa e blank →
          syncPage u va false pa e = .done → ninth u pa = false → watchHit p va 16 true false = false →
          opAgrees s i 0x11 (p.reg a) = true →
          ∃ t q, exec (.farrive d a c w k) s = .next (done t) ∧ t.mem = s.mem ∧ q.kind = .farrive ∧ q.uid = me ∧ q.who = i ∧
            q.pa = pa ∧ q.va = va ∧ q.posted = (d == 0) ∧ q.scope = c ∧ t.unit? i = some (u.join va pa) ∧
            t.unit? me = some (p.push (awaitedEntry s p (.scalar d) p.csr.land.toNat q.id va)) ∧
            (releases { s with nextReq := q.id + 1 } i p.ident.cluster c = true →
              ∃ r, (t.cluster p.ident.cluster).rels = (s.cluster p.ident.cluster).rels ++ [r] ∧ r.uid = i ∧ r.payload = .sync q) ∧
            (releases { s with nextReq := q.id + 1 } i p.ident.cluster c = false → ((s.cluster p.ident.cluster).rels.any fun r => r.uid == me) = false →
              (t.die q.die).sync.queue = (s.die q.die).sync.queue ++ [q])))) ∧
  (∀ (s : State) (p : UnitSt) (d a : BitVec 6) (c w k : BitVec 2), AtIssue s p → Unlent s →
      let ops := [Instr.fresume d k, .fkill k, .fstep d k, .capdrop k, .farrive d a c w k] ++
        (if selectorBad (p.reg a) then [] else [.frd d a k]) ++
        (if selectorBad (p.reg a) || writeIllegal (p.reg a) (p.reg d) then [] else [.fwr d a k])
      (p.isPrompter = false → ∀ i ∈ ops ++ [.fnext d k, .tlbiAll d], exec i s = .next (faulted s cPrivilege p.bundleVa)) ∧
      (p.isPrompter = true → capUnit s p (p.kcReg k) = none → ∀ i ∈ ops, exec i s = .next (faulted s cCapability p.bundleVa)) ∧
      (p.isPrompter = true →
        let n := ((p.reg d).extractLsb' 32 32).toNat
        let asid := (p.reg d).extractLsb' 0 16
        let fs : List (Instr × List Dest × Option (Nat × Nat)) := (Instr.tlbiAll d, [.scalar d], none) :: (if n = 0 then [] else
          [(.tlbiRange d a, [.scalar d, .scalar a], some (vpnOf ((p.reg d).extractLsb' 16 16 ++ p.reg a), n))])
        ∀ f ∈ fs,
          (asid ≠ p.ident.asid → exec f.1 s = .next (faulted s cPrivilege p.bundleVa)) ∧
          (asid = p.ident.asid → NoHazard p f.2.1 [] →
            (myShoot s s.issue.me = none → ∃ t x, exec f.1 s = .next t ∧ t.issue.result = .hold .shootdown ∧ t.units = s.units ∧
              t.mem = s.mem ∧ t.hub.walk.shoots = s.hub.walk.shoots ++ [x] ∧ x.asid = asid ∧ x.range = f.2.2 ∧
              x.waiter = some s.issue.me ∧ x.dies = shootMask s asid f.2.2) ∧
            (∀ x, myShoot s s.issue.me = some x → (x.dies ≠ [] ∨ shootBusy s x = true) →
              exec f.1 s = .next (noteResult s (.hold .shootdown))) ∧
            (∀ x, myShoot s s.issue.me = some x → x.dies = [] → shootBusy s x = false → ∃ t, exec f.1 s = .next (done t) ∧
              t.units = s.units ∧ t.mem = s.mem ∧ myShoot t s.issue.me = none))))

/-! ## Events (R7) -/

/-- R22, R34, R90, R111, R113, R162, R342, R354, R356: what the events of one unit do: an annulled bundle passes with its chain
alone; data that comes to a load reaches its entry, or is dropped with POISON due; the hold line counts in HOLDC; the random-bit queue fills; a
fault found after issue, a lost die and a logged freeze freeze the unit between bundles with its registers as they were; the
policy kills a stopped prompter; a restartable unit that its die's loss has ended, or that a freeze with POISON or DIE_LOST has stopped,
starts afresh on another cluster.
The model's choices that clauses of it rest on: log entry 6. -/
def Obligations.UnitEvents : Prop :=
  ∀ (s : State) (i : Uid) (u : UnitSt), s.unit? i = some u →
    let frozen (i' : Instr) (w : UnitSt) (r : FaultRec) : Prop := ∃ t v, exec i' s = .next t ∧ t.mem = s.mem ∧ t.unit? i = some v ∧
      v.run.record = some r ∧ v.run.gen = u.run.gen + 1 ∧ v.run.due = w.run.due ∧ v.regs = u.regs ∧ v.csr = u.csr ∧ v.flow = u.flow ∧
      v.pend = u.pend
    (u.run.status = .running → u.run.gap = 0 → u.flow.pc.ann = true → u.run.due = [] → u.run.endSeg = false →
      ∀ bs s', fetchBundle s u = (.got bs, s') → ∃ t v, exec (.annulledBundleIssue i) s = .next t ∧ t.mem = s.mem ∧ t.unit? i = some v ∧
        v.regs.s = u.regs.s ∧ v.regs.p = u.regs.p ∧ v.regs.tiles = u.regs.tiles ∧ v.csr = u.csr ∧ v.pend = u.pend ∧
        v.flow = (leaveBundle (enterBundle u) none).flow ∧ v.run.bundles = u.run.bundles + 1 ∧ v.run.gap = (stallOfBytes bs).toNat) ∧
    (∀ (n k : Nat) (e : PEntry) (l : LoadInfo), l.comes = true → s.hub.outLoads.find? (fun x => x.req == n) = none →
      u.pend.findIdx? (fun x => x.load.any fun y => y.req == n) = some k → u.pend[k]? = some e → e.awaited = true → e.load = some l →
      ∃ t v, exec (.loadDataArrival i n) s = .next t ∧ t.mem = s.mem ∧ t.unit? i = some v ∧ v.regs = u.regs ∧ v.csr = u.csr ∧
        (l.poison = false → v.pend = u.pend.set k { e with awaited := false } ∧ v.run = u.run) ∧
        (l.poison = true → v.pend = u.pend.eraseIdx k ∧ v.run.due = u.run.due ++
          [{ code := cPoison, addr := l.va, mask := 1#4 <<< e.slot.toNat, after := true, source := .core, slot := e.slot, bundle := e.bundle }])) ∧
    (missing u = true → u.run.status = .running → exec (.holdLineRaise i) s = .next (s.setUnit i
      { u with csr := { u.csr with holdc := u.csr.holdc + 1 }, run := { u.run with wait := some .landing } })) ∧
    (u.live = true → u.csr.rbqueue < 16 → exec (.rbStep i) s = .next (s.setUnit i
      { u with csr := { u.csr with rbqueue := u.csr.rbqueue + 1 } })) ∧
    (∀ r rest, canFreeze u = true → freezeLogged s u = false → u.run.due = r :: rest →
      frozen (.afterIssueFreeze i) (u.modRun fun x => { x with due := rest }) r) ∧
    (∀ d, (s.die d).lost = true → lossConcerns s u d = true →
      (u.isFrozen = true → exec (.dieLostFreeze i d) s = .next (s.setUnit i { u with run := { u.run with dieLost := true, lostAt := d } })) ∧
      (canFreeze u = true → freezeLogged s u = false → frozen (.dieLostFreeze i d) (u.modRun fun x => { x with due := x.due.filter fun y => y.code != cDieLost })
        (lossRec u d))) ∧
    (∀ k, u.run.status = .stopped → firmwareTakes u = false → s.ctx? u.ident.asid = some k →
      let p := (k.pctl.extractLsb' 22 2).toNat
      (p ≠ 2 → ∃ t v, exec (.prompterFaultPolicy i) s = .next t ∧ t.unit? i = some v ∧ v.run.status = .complete .killed ∧ v.pend = []) ∧
      (p = 2 → u.isPrompter = true → exec (.prompterFaultPolicy i) s = .next s)) ∧
    (∀ (c : ClusterNo) (n : Nat) (l : Launch), reexecutable u = true → u.isPrompter = false → c ≠ u.ident.cluster →
      (s.die (dieOf c)).lost = false → u.ident.launch = some n → s.launch? n = some l → l.done = false → arrayFree s n l c = true →
      ∃ t v w, exec (.restartableReexecution i c) s = .next t ∧ t.unit? i = some w ∧ (u.live = true → w.run.status = .complete .killed) ∧
        (u.live = false → w.run.status = .complete .lost) ∧ w.ident.restart = false ∧
        t.unit? s.units.length = some v ∧ v.ident.cluster = c ∧ v.ident.index = u.ident.index ∧ v.ident.launch = some n ∧
        v.ident.instances = u.ident.instances + 1 ∧ v.flow.pc.addr = l.record.prog.extractLsb' 0 64 ∧ v.run.bundles = 0) ∧
    (∀ k e, s.ctx? u.ident.asid = some k → k.replay = true → k.replayStopped = false → canFreeze u = true →
      logged s u .freeze = some e →
      let r : FaultRec := e.fault.getD { code := BitVec.ofNat 8 e.tag, addr := e.value.setWidth 80, mask := 0, after := true, source := .core,
                                         slot := 0, bundle := u.flow.pc.addr }
      frozen (.replayEventDelivery i 0) (u.modRun fun x => { x with due := removeFirst (fun y => y.code == r.code) x.due }) r)

/-- R101, R116, R233, R365, R376 to R379: the events of a core: a request for pre-emption and the park that answers it; a switch
of 96 cycles and the start of a unit in its start banks; wings into the shadow and into the array; the end of weight clearing and
of a background cache operation. -/
def Obligations.SegmentEvents : Prop :=
  ∀ (s : State) (c : ClusterNo),
    let k := s.cluster c
    (∀ i u n, k.running = some i → s.unit? i = some u → segmentCost s c i = some n → n < u.run.segCycles → u.run.preempt = false →
      u.curt.inentry = false → otherReady s c i = true →
      exec (.preemptionRequest c) s = .next (s.setUnit i { u with run := { u.run with preempt := true } })) ∧
    (∀ i u w, s.unit? i = some u → u.run.status = .running → u.run.gap = 0 → u.run.preempt = true → u.curt.inentry = false → replays s u = false →
      u.curt.struck = false → u.run.due = [] → u.run.stepFor = none → u.run.endSeg = false → u.run.drainLevel = none →
      (∀ l, (u.flow.loops.get l).active = false) → u.run.wait = some w → w.isPoint = true →
      ∃ t v, exec (.preemptPark i) s = .next t ∧ t.mem = s.mem ∧ t.unit? i = some v ∧ v.run.status = .parked ∧ v.run.parkPoint = some 3 ∧
        v.regs = u.regs ∧ v.csr = u.csr ∧ v.flow = u.flow ∧ v.pend = u.pend) ∧
    (∀ e, k.running = none → k.switch = none → clusterRelease k = false → nextEntry s c = some e →
      exec (.segmentSwitch c) s = .next (s.setCluster c { k with switch := some (96, e) })) ∧
    (∀ i u, s.unit? i = some u → u.ident.cluster = c → u.run.started = false → u.run.status = .parked → k.running = none →
      k.switch = some (0, i) → startBanksFree s i u = true →
      ∃ t v, exec (.unitStart i) s = .next t ∧ t.mem = s.mem ∧ (t.cluster c).running = some i ∧ (t.cluster c).switch = none ∧
        t.unit? i = some v ∧ v.run.status = .running ∧ v.run.started = true ∧ v.run.segCycles = 0 ∧ v.regs.s = u.regs.s ∧ v.csr = u.csr ∧
        (∀ b : Nat, u.umem.tbank.getLsbD b = true → ⟨0, b, i, false⟩ ∈ (t.cluster c).banks)) ∧
    (∀ n l, s.launch? n = some l → c ∈ l.pendingWings → k.shadowWings = none → (l.deadline = none ∨ l.registered = true) →
      ∃ t l', exec (.wingsLoad n c) s = .next t ∧ t.mem = s.mem ∧ t.launch? n = some l' ∧ c ∉ l'.pendingWings ∧
        (l.wings.arrcfg.getLsbD 47 = true → t.units = s.units ∧ (t.cluster c).shadowWings = some n) ∧
        (l.wings.arrcfg.getLsbD 47 = false → ∀ j : Nat, j < l.record.units → j < 65536 → l.record.clusterOf j = c → unitExists t n j = true)) ∧
    (∀ n l, k.shadowWings = some n → s.launch? n = some l → canSwap s c = true →
      ∃ t, exec (.wingsSwap c) s = .next t ∧ t.mem = s.mem ∧ (t.cluster c).activeWings = some n ∧ (t.cluster c).shadowWings = none ∧
        let a := arrayOf t c
        a.owner = some n ∧ a.slen = l.wings.arrcfg.extractLsb' 0 5 ∧ a.mode = l.wings.arrcfg.extractLsb' 40 2 ∧ a.ez = l.wings.ez ∧
        a.state = .idle ∧ a.set = none ∧ a.queue = [] ∧ a.latches = [] ∧
        (l.wings.arrcfg.getLsbD 46 = false → a.cells = [] ∧ a.clearing = 2048)) ∧
    ((arrayOf s c).clearing = 1 → ∃ t, exec (.weightClearDone c) s = .next t ∧ t.units = s.units ∧ t.mem = s.mem ∧
      arrayOf t c = { arrayOf s c with clearing := 0 }) ∧
    (∀ o, k.l1op = some o → o.flushed = true → (∀ l ∈ o.lines, awaitsDevice s (dieOf c) l = false) →
      ∃ t, exec (.l1OpComplete c) s = .next t ∧ t.units = s.units ∧ t.mem = s.mem ∧ t.dies = s.dies ∧ (t.cluster c).l1op = none ∧
        (t.cluster c).cache = (if o.inval then k.cache.filter fun l => l.dirty != 0 else k.cache) ∧
        (t.cluster c).roCache = (if o.invalRo then [] else k.roCache))

/-- R383 to R386: a source in use disciplines TAI: it locks, the offset is kept, an offset of more than 1 ms is stepped at once
and a smaller one leaves TAI as it is, to be slewed; a silent source leaves the timekeeper in holdover; TKSET steps TAI only while
free-running; a read of the seconds latches the nanoseconds. R386 to R397: a deadline strikes when TAI reaches it; the message
strikes a unit, which goes on to its curtain point, is noted in its freeze, or completes where nothing of it has issued; the
diversion enters the curtain entry; a unit without one, and one whose time has run out, ends.
The model's choices that clauses of it rest on: log entries 67 and 68. -/
def Obligations.TimeAndCurtainEvents : Prop :=
  (∀ s : State,
      let k := s.hub.tk
      let disciplined (t : State) (src : BitVec 2) (off : Int) : Prop :=
        t.mem = s.mem ∧ t.units = s.units ∧ t.hub.tk.lock = true ∧ t.hub.tk.hold = false ∧ t.hub.tk.active = src ∧
        t.hub.tk.offset = offsetField off ∧
        (off.natAbs ≤ 1000000 → t.hub.tk.tai = k.tai ∧ t.hub.tk.stepped = k.stepped ∧ t.hub.tk.rate.natAbs ≤ 200000) ∧
        (1000000 < off.natAbs → (t.hub.tk.tai : Int) = max 0 (k.tai + off) ∧ t.hub.tk.stepped = true)
      (∀ off : Int, (k.src = 1 → ∃ t, exec (.ptpMessage off false) s = .next t ∧ disciplined t 1 off) ∧
        exec (.ptpMessage off true) s = .next s ∧ (k.src ≠ 1 → exec (.ptpMessage off false) s = .next s)) ∧
      (k.src = 1 → k.pps = true → ∃ t off, exec .ppsInput s = .next t ∧ disciplined t 1 off ∧ off.natAbs ≤ 500000000 ∧
        (k.tai + off) % 1000000000 = 0) ∧
      (∀ time : Nat, k.src = 2 → ∃ t, exec (.ptmResponse time) s = .next t ∧ disciplined t 2 ((time : Int) - (k.tai : Int))) ∧
      (k.src ≠ 0 → ∃ t, exec .holdoverEntry s = .next t ∧ t = modTk s fun x => { x with hold := true, lock := false }) ∧
      (∀ v : Word, (k.src = 0 → ∃ t, exec (.tkset v) s = .next t ∧ t.mem = s.mem ∧ t.units = s.units ∧
          t.hub.tk.tai = (v.toNat % 2 ^ 48) * 1000000000 ∧ t.hub.tk.stepped = true) ∧
        (k.src ≠ 0 → exec (.tkset v) s = .next s)) ∧
      (∃ t, exec .tktaisRead s = .next t ∧ t = modTk s (fun x => { x with tain := BitVec.ofNat 32 (k.tai % 1000000000) }))) ∧
  ((∀ (s : State) (n : Nat) (l : Launch) (d : Nat), s.launch? n = some l → l.deadline = some d → l.registered = true → l.struck = false →
      l.done = false → ∃ t l', exec (.deadlineStrike n) s = .next t ∧ t.units = s.units ∧ t.mem = s.mem ∧ t.launch? n = some l' ∧
        l'.struck = true ∧ t.hub.tk.tai = max d s.hub.tk.tai ∧
        (∀ j x y, s.launch? j = some x → x.deadline = some y → t.hub.tk.tai < y → t.launch? j = some x)) ∧
    (∀ (s : State) (i : Uid) (u : UnitSt), s.unit? i = some u →
      (∀ n l, s.launch? n = some l → l.struck = true → u.ident.launch = some n → u.live = true → u.curt.struck = false →
        (∀ j w, j ≠ i → s.unit? j = some w → w.ident.launch ≠ some n ∨ w.ident.cluster ≠ u.ident.cluster ∨ w.live = false ∨ w.curt.struck = true) →
        ∃ t v, exec (.curtainMessage n u.ident.cluster) s = .next t ∧ t.unit? i = some v ∧ v.curt.struck = true ∧
          (u.isFrozen = true → v.run.curtFrozen = true ∧ v.curt.window = none ∧ v.regs = u.regs) ∧
          (u.isFrozen = false → u.run.bundles = 0 → v.run.status = .complete .curtain) ∧
          (u.isFrozen = false → u.run.bundles ≠ 0 → v.curt.window = reachWindow s u ∧ v.run.status = u.run.status ∧ v.regs = u.regs ∧
            v.flow = u.flow ∧ v.pend = u.pend)) ∧
      (∀ r w, u.run.status = .running → u.run.gap = 0 → u.curt.struck = true → u.curt.inentry = false → unitRecord s u = some r →
        r.noent = false → replays s u = false → u.run.due = [] → u.run.stepFor = none → u.run.endSeg = false → u.run.parkPoint = none → u.run.drainLevel = none →
        (∀ l, (u.flow.loops.get l).active = false) → u.run.wait = some w → w.isPoint = true →
        ∃ t v, exec (.diversion i) s = .next t ∧ t.unit? i = some v ∧ v.curt.inentry = true ∧ v.curt.point = 3 ∧ v.curt.window = none ∧
          v.flow.pc = ⟨r.centry, false, none, false⟩ ∧ v.flow.npc.addr = r.centry + 16 ∧ v.flow.nnpc.addr = r.centry + 32 ∧
          v.regs = u.regs ∧ v.csr = u.csr) ∧
      (∀ r, u.run.status = .running ∧ u.run.gap = 0 ∨ u.run.status = .parked → u.curt.struck = true → u.curt.inentry = false →
        unitRecord s u = some r → r.noent = true → u.run.due = [] →
        ∃ t v, exec (.curtainNoentComplete i) s = .next t ∧ t.unit? i = some v ∧ v.run.status = .complete .curtain ∧ v.pend = []) ∧
      (u.live = true → timeOut u = true → ∃ t v, exec (.curtainOverrun i) s = .next t ∧ t.unit? i = some v ∧
        v.run.status = .complete .killed ∧ v.pend = [] ∧ (cOverrun, u.bundleVa.toNat) ∈ t.mod.errEvents)))

/-- R210 to R213, R217, R224: the command at the head of an engine starts; its bytes move, row by row, each read before it is
written; moved and written it leaves, its token free; a streaming kind transfers one slab; a fault stops the engine and is due to
its unit; a PUBL behind its release counts its producer, and flips the buffer when all have counted untainted or it is forced. No
register of a unit changes. R227, R328, R373, R400: a flip notice drops the write frames of a die's translations of the buffer and
is acknowledged; the last acknowledgement completes the flip; a VALSET merges into the pending fields; a transform enters its
engine at a segment boundary. -/
def Obligations.CopyAndBufferEvents : Prop :=
  (∀ (s : State) (k : ClusterNo) (e : BitVec 1) (c : CopyCmd) (rest : List CopyCmd), (s.engine k e).queue = c :: rest → c.fault = none →
      (s.cluster k).held = false → (∀ q ∈ rest, q.id ≠ c.id) →
      (c.started = false → (s.engine k e).faulted = false → (c.op = 0x0A → earlierDone s k c = true) →
        ∃ t, exec (.copyCommandStart k e) s = .next t ∧ t.units = s.units ∧ t.mem = s.mem ∧
          (t.engine k e).queue = { c with started := true, index := indexList s k c } :: rest) ∧
      (∀ uid u, c.started = true → c.uid = some uid → s.unit? uid = some u →
        let quiet (t : State) (v : UnitSt) : Prop := t.mem = s.mem ∧ t.unit? uid = some v ∧ v.regs = u.regs ∧ v.pend = u.pend ∧ v.flow = u.flow
        (c.op ≠ 0x0A → c.moved = true → c.bar = false ∨ c.arrived = true → (∀ l ∈ c.await, lineWaits s k c l = false) →
          unpublished (publishClaims s c) c = false →
          ∃ t v, exec (.copyCommandComplete k e) s = .next t ∧ quiet t v ∧ (t.engine k e).queue = rest ∧
            v.csr = { u.csr with flags := u.csr.flags ||| c.flags } ∧
            (∀ h p a bs, c.dk = 1 → u.handle? c.dstH = some h → h.ring = false → c.tile = [(p, a, bs)] →
              Memory.wf (levelMem (s.cluster k) h.level) = true → ∀ i < bs.length, levelByte t k h.level (a + i) = bs.getD i 0) ∧
            ∀ j : Nat, (v.eng.tok.get e.toFin).getLsbD j = ((u.eng.tok.get e.toFin).getLsbD j && j != c.tok.toNat)) ∧
        (∀ x y, c.op = 2 → c.sk = 1 → c.dk = 1 → c.bar = false → c.moved = false → c.await = [] → c.index = [] → c.nrows = 1 →
          u.handle? c.srcH = some x → u.handle? c.dstH = some y → x.ring = false → y.ring = false → x.heads = [] → y.tails = [] →
          Memory.wf (levelMem (s.cluster k) y.level) = true →
          ∃ t v, exec (.copyCommandComplete k e) s = .next t ∧ quiet t v ∧ (t.engine k e).queue = rest ∧
            (∀ i < c.len, levelByte t k y.level (y.base + c.dstOff + i) = levelByte s k x.level (x.base + c.srcOff + i)) ∧
            ∀ a, a < y.base + c.dstOff ∨ y.base + c.dstOff + c.len ≤ a → levelByte t k y.level a = levelByte s k y.level a) ∧
        (∀ h x bs, c.dk = 2 → c.moved = false → (c.qHandle u true).bind u.handle? = some h → h.canTail 1 = true → QuietRing h → h.tp = h.tc →
          readChunks c k (slabChunks c (c.wins.get c.swin.toFin) (c.reg 0) c.sstride) ⟨s, [], [], c.buf⟩ [] = .ok x bs →
          costsOpen s c.asid (2 ^ 40 + c.id) x.cost = true → x.s.unit? uid = some u → (x.s.engine k e).queue = c :: rest →
          ∃ t v q, exec (.streamSlabTransfer k e) s = .next t ∧ t.unit? uid = some v ∧ (t.engine k e).queue.head? = some q ∧
            q.slabs = c.slabs + 1 ∧ q.moved = decide (c.srcBytes / 64 ≤ c.slabs + 1) ∧ v.handle? h.h = some { h with tp := h.tp + 1, tc := h.tc + 1 } ∧
            v.regs = u.regs ∧ v.pend = u.pend ∧
            (Memory.wf (levelMem (x.s.cluster k) h.level) = true → ∀ i < bs.length,
              levelByte t k h.level (h.slabAt h.tc + i) = bs.getD i 0)) ∧
        (∀ code a, code ∈ [cTranslation, cProtection, cPoison, cNmIndex, cCopy, cAtomic] → (s.engine k (e ^^^ 1)).queue = [] →
          ∃ t v, exec (.copyEngineFault k e code a) s = .next t ∧ quiet t v ∧ (t.engine k e).faulted = true ∧
            (t.engine k e).queue = { c with fault := some ⟨code, a⟩, shadow := true } :: rest ∧ v.run.due = u.run.due ++
              [{ code := code, addr := a, mask := 1#4 <<< c.slot.toNat, after := true, source := .copy e c.tok, slot := c.slot, bundle := c.bundle }]) ∧
        (∀ i b r, c.op = 0x0A → c.sk = 0 → c.dk = 0 → c.bar = false → c.await = [] → earlierDone s k c = true → c.publDone = false → c.publRel = some r →
          publReleasing s k r = false → publBuf s c = some (i, b) → (b.total = none ∨ b.total = some c.producers) → b.flipDies = [] →
          versionMoves s i = false → (∀ m ∈ s.hub.walk.valsets, m.uid ≠ uid) →
          ∃ t v y, exec (.publCount k e) s = .next t ∧ t.unit? uid = some v ∧ v.regs = u.regs ∧ v.pend = u.pend ∧ (t.engine k e).queue = rest ∧
            t.buf? i = some y ∧ v.run.publIssued = true ∧
            (c.hdr.getLsbD 0 = false → b.count + 1 < c.producers ∨ b.taint = true →
              t.mem = s.mem ∧ y = { b with count := b.count + 1, total := some c.producers }) ∧
            (c.hdr.getLsbD 0 = true ∨ c.producers ≤ b.count + 1 ∧ b.taint = false →
              y.sel = !b.sel ∧ y.count = 0 ∧ y.total = none ∧ y.taint = false ∧ y.flips = b.flips + 1 ∧ y.vset = false ∧ y.flipDies = bufDies s i b)))) ∧
  ((∀ (s : State) (b : Nat) (d : DieNo), s.hub.walk.notices.contains (b, d) = true →
      ∃ t, exec (.flipNotice b d) s = .next t ∧ t.units = s.units ∧ t.mem = s.mem ∧ t.hub.walk.noticeAcks = s.hub.walk.noticeAcks ++ [(b, d)] ∧
        (∀ c x, dieOf c = d → x ∈ (t.cluster c).tlb → x.buffer = some b → x.wframe = none) ∧ (∀ c, dieOf c ≠ d → t.cluster c = s.cluster c)) ∧
    (∀ (s : State) (b : Nat) (d : DieNo) (x : TvBuf), s.hub.walk.noticeAcks.contains (b, d) = true → s.buf? b = some x →
      ∃ t, exec (.flipNoticeAck b d) s = .next t ∧ t.units = s.units ∧ t.mem = s.mem ∧
        t.buf? b = some { x with flipDies := x.flipDies.filter fun y => y != d }) ∧
    (∀ (s : State) (n : Nat) (m : ValsetMsg) (x : TvBuf), s.hub.walk.valsets[n]? = some m → s.buf? m.buffer = some x →
      ∃ t y, exec (.valsetPerform n) s = .next t ∧ t.units = s.units ∧ t.mem = s.mem ∧ t.hub.walk.valsets = s.hub.walk.valsets.eraseIdx n ∧
        t.buf? m.buffer = some y ∧ y.vset = true ∧ y.sel = x.sel ∧ y.count = x.count ∧
        (x.vset = false → y.curtain = m.curtain ∧ y.nochk = m.nochk ∧ y.exact = m.exact ∧ y.kach = m.kach ∧ y.bound = m.bound) ∧
        (x.vset = true → y.curtain = (x.curtain || m.curtain) ∧ y.nochk = (x.nochk || m.nochk) ∧ y.exact = (x.exact && m.exact) ∧
          y.bound.toNat = max x.bound.toNat m.bound.toNat ∧
          y.kach.toNat = (if x.kach = 0 then m.kach.toNat else if m.kach = 0 then x.kach.toNat else min x.kach.toNat m.kach.toNat))) ∧
    (∀ (s : State) (k : ClusterNo) (c : CopyCmd) (rest : List CopyCmd), (s.cluster k).transforms = c :: rest → (s.cluster k).running = none →
      let e := transformEngine s c
      (s.engine k e).queue.length < 8 →
      let x := { c with views := s.hub.walk.bufs.zipIdx.map fun b => (b.2, b.1.sel) }
      (∀ r ∈ copyChecks s (UnitSt.fresh ⟨none, 0, c.asid, k, none, false, 0, none⟩ 0 0) x, r = .done) →
      ∃ t, exec (.transformDispatch k) s = .next t ∧ t.units = s.units ∧ t.mem = s.mem ∧ (t.cluster k).transforms = rest ∧
        (t.engine k e).queue = (s.engine k e).queue ++ [x]))

/-- R181, R231, R240, R243, R247 to R255, R259: a claimed command whose resource is free leaves the queue and acts; a load writes its
columns in turn, an equal index pair ending it, and a load or a clear ends; a vector is latched; a checkpoint whose array cycle is over is copied, and the last of a stream without emission leaves it HELD; conversions
publish their slabs and flags; chain messages arrive, end a stream, or show that the streams disagree; an error makes the stream
FAULTED and is due to its unit. No register of a unit and no byte of LPDDR6 changes.
The model's choices that clauses of it rest on: log entries 25, 26 and 82. -/
def Obligations.ArrayEvents : Prop :=
  ∀ (s : State) (c : ClusterNo), arrayRuns s c = true →
    let r := arrayOf s c
    let goes (i : Instr) (p : State → Prop) : Prop := ∃ t, exec i s = .next t ∧ t.mem = s.mem ∧
      (∀ j u, s.unit? j = some u → ∃ v, t.unit? j = some v ∧ v.regs = u.regs ∧ v.pend = u.pend ∧ v.flow = u.flow) ∧ p t
    let due (t : State) (q : ArrayCmd) (code : BitVec 8) (a : Va) : Prop := ∀ u, s.unit? q.uid = some u → ∃ v, t.unit? q.uid = some v ∧
      v.run.due = u.run.due ++ [{ code := code, addr := a, mask := 1#4 <<< q.slot.toNat, after := true, source := .array q.tag, slot := q.slot, bundle := q.bundle }]
    (∀ q rest, r.queue = q :: rest → q.claimed = true → canStart r q = true → goes (.arrayCommandStart c) fun t =>
      let b := arrayOf t c
      b.queue = rest ∧
      (q.op = 0 → ∃ x, b.exec = some x ∧ x.cmd = q ∧ x.finish = r.acyc + 4 + 2 * q.logicalCols ∧ x.good = 0 ∧ b.cells = r.cells ∧
        x.slabs = (List.range q.logicalCols).map fun i => slabBytes s q.uid q.wh (q.inPos + BitVec.ofNat 32 i)) ∧
      (q.op = 1 → b.state = .run ∧ b.streamUid = some q.uid ∧ b.kt = BitVec.ofNat 5 q.slen.toNat ∧ b.vdone = 0 ∧ b.check.valid = false ∧
        b.cells = r.cells ∧ ∃ x, b.stream = some x ∧ x.cmd = q ∧ x.start = r.acyc ∧ x.vector = 0 ∧ x.nextJ = 4) ∧
      (q.op = 2 → ∀ x, r.stream = some x → r.state = .run ∨ r.state = .held → b.state = .run ∧ ∃ y, b.stream = some y ∧
        y.kt = x.kt + (q.hdr.extractLsb' 0 4).toNat ∧ y.cmd = x.cmd ∧ y.nextJ = x.nextJ) ∧
      (q.op = 4 → ∃ k, b.conv = r.conv ++ [k] ∧ k.cmd = q ∧ k.vector = none ∧ k.finish = r.acyc + convCycles (aoutColumns r q)) ∧
      (q.op = 5 → (∃ x, b.exec = some x ∧ x.cmd = q) ∧ (q.hdr.getLsbD 0 = true → b.set = none ∧ b.state = .idle) ∧
        (q.hdr.getLsbD 2 = true → b.latches = []) ∧ (q.hdr.getLsbD 1 = false → b.cells = r.cells))) ∧
    (∀ x, r.exec = some x → x.cmd.op = 0 → r.acyc < x.finish → x.good + 1 = x.cmd.logicalCols - (x.finish - r.acyc + 1) / 2 →
      let n := x.cmd.clo / x.cmd.gw + x.good
      (∀ a, loadColumn r x.cmd n (x.slabs.getD x.good []) = .ok a → goes (.awldComplete c) fun t =>
        arrayOf t c = { a with exec := some { x with good := x.good + 1 } }) ∧
      (∀ g, loadColumn r x.cmd n (x.slabs.getD x.good []) = .error g → goes (.awldComplete c) fun t =>
        (arrayOf t c).exec = none ∧ (arrayOf t c).cells = r.cells ∧ due t x.cmd cNmIndex (BitVec.ofNat 80 (n + 2 ^ 16 * g)))) ∧
    (∀ x, r.exec = some x → x.finish ≤ r.acyc →
      (x.cmd.op = 0 → x.cmd.logicalCols ≤ x.good → goes (.awldComplete c) fun t => (arrayOf t c).exec = none ∧ (arrayOf t c).cells = r.cells) ∧
      (x.cmd.op = 5 → goes (.aclrComplete c) fun t => arrayOf t c = { r with exec := none } ∧ t.units = s.units)) ∧
    (∀ x, r.stream = some x → r.state = .run →
      (x.nextLatch < x.cmd.v → x.start + 4 + x.nextLatch * 2 ^ x.kt ≤ r.acyc → goes (.vectorLatch c) fun t =>
        let v := readVector s r x.cmd x.nextLatch
        (arrayOf t c).latches = v.1 ∧ (arrayOf t c).latchEa = v.2 ∧ ∃ y, (arrayOf t c).stream = some y ∧ y.nextLatch = x.nextLatch + 1 ∧
          y.vecs = x.vecs ++ [(x.nextLatch, v.1, v.2)]) ∧
      (copyDue r = true → dueCycle x < r.acyc → x.cmd.chin = false → x.cmd.chout = false → (x.nextJ = x.kt → x.cmd.emit = false) →
        goes (.checkpointCopy c) fun t =>
          let v := (x.vecs.find? fun v => v.1 == x.vector).getD (0, [], [])
          (arrayOf t c).set = some (makeSet r x.cmd v.2.1 v.2.2 (some x.nextJ)) ∧
          (∃ y, (arrayOf t c).stream = some y ∧ y.nextJ = x.nextJ + 1 ∧ y.kt = x.kt) ∧
          (x.nextJ = x.kt → (arrayOf t c).state = .held ∧ (arrayOf t c).vdone = 1) ∧ (x.nextJ ≠ x.kt → (arrayOf t c).state = .run)) ∧
      (∀ row col : BitVec 16, ∀ b : Bool, goes (.streamPoison c row col b) fun t => (arrayOf t c).state = .faulted ∧
        due t x.cmd cPoison (BitVec.ofNat 80 (row.toNat + 2 ^ 16 * col.toNat)) ∧
        (b = true → ∀ y, (arrayOf t c).set = some y → y.kc = none) ∧ (b = false → (arrayOf t c).set = r.set)) ∧
      (∀ m rest, r.chainNet = m :: rest →
        (m.fin = false → goes (.chainPartialSums c) fun t => (arrayOf t c).chainNet = rest ∧
          (arrayOf t c).chainIn = (if x.chained r m || decide (r.chainUp < m.sender) then r.chainIn ++ [m] else r.chainIn) ∧
          (arrayOf t c).state = (if x.chained r m && chainDiffers x m then .faulted else .run)) ∧
        (m.fin = true → x.chained r m = true → goes (.chainEnd c) fun t => (arrayOf t c).chainNet = rest ∧ (arrayOf t c).state = .stopped ∧
          (arrayOf t c).cause = 3 ∧ (arrayOf t c).set = r.set))) ∧
    (∀ k u h, k.finish ≤ r.acyc → s.unit? k.cmd.uid = some u → u.handle? k.cmd.oh = some h → k.fault = false →
      let lands (t : State) (pos : BitVec 32) : Prop := (∃ v, t.unit? k.cmd.uid = some v ∧ v.csr.flags = u.csr.flags ||| k.flags) ∧
        (Memory.wf (levelMem (s.cluster u.ident.cluster) h.level) = true → ∀ i < h.slabSize,
          levelByte t u.ident.cluster h.level (h.slabAt pos + i) = k.slab.getD i 0)
      (r.conv.find? (fun x => decide (x.finish ≤ r.acyc) && x.vector.isNone) = some k → goes (.aoutPublish c) fun t =>
        lands t k.cmd.outPos ∧ (arrayOf t c).state = r.state) ∧
      (∀ n, k.vector = some n → r.conv.find? (fun x => decide (x.finish ≤ r.acyc) && x.vector.isSome) = some k →
        goes (.emitPublish c) fun t => lands t (k.cmd.outPos + BitVec.ofNat 32 n) ∧ (arrayOf t c).vdone = BitVec.ofNat 16 (n + 1) ∧
          (arrayOf t c).state = (if n + 1 = k.cmd.v then .done else r.state)))

/-- R301, R324: bytes written at device scope are what is read there under the same key slot, and every other byte reads as
before.
The model's choices that clauses of it rest on: log entry 61. -/
def Obligations.DeviceWrites : Prop :=
  ∀ (s : State) (pa : Nat) (bs : List Byte) (key : BitVec 8), Canonical s →
    let t := deviceWrite s pa bs key
    (∀ i < bs.length, deviceByte t (pa + i) key = bs.getD i 0) ∧
    (∀ a, a < pa ∨ pa + bs.length ≤ a → deviceByte t a key = deviceByte s a key) ∧ t.units = s.units ∧ Canonical t

/-- R266 to R274, R284 to R286: the oldest request of an engine is performed: an atomic changes exactly its element, and its old
value is the reply; a request behind a drain marker is returned RETRY; a reply fills its entry, ends its wait, or is a fault due
to its unit; a request returned RETRY is translated again and sent to its home.
The model's choices that clauses of it rest on: log entries 33, 34 and 35. -/
def Obligations.SyncEngineEvents : Prop :=
  ∀ (s : State) (d : DieNo),
    let y := (s.die d).sync
    (∀ q rest, y.queue = q :: rest → Unlogged s q → retryBefore s q = false →
      (y.drains.contains (q.pa / 2 ^ 14) = true → ∃ t, exec (.syncEngineOperation d) s = .next t ∧ t.mem = s.mem ∧ t.units = s.units ∧
        (t.die d).sync.queue = rest ∧ (t.die d).sync.replies = y.replies ++ [{ req := q, value := 0, code := 0, va := q.va, retry := true, near := false }]) ∧
      (∀ op : BitVec 5, y.drains.contains (q.pa / 2 ^ 14) = false → q.kind = .op op → op.toNat < 0x0C → q.n = 1 → q.done = 0 →
        (enginePoison s q.pa = true ∨ barrierBusy y q.pa = true → ∃ t r, exec (.syncEngineOperation d) s = .next t ∧ t.mem = s.mem ∧
          (t.die d).sync.queue = rest ∧ (t.die d).sync.replies = y.replies ++ [r] ∧ r.req = q ∧
          r.code = (if enginePoison s q.pa then cPoison else cAtomic)) ∧
        (enginePoison s q.pa = false → barrierBusy y q.pa = false → Canonical s →
          y.lines.length < (sramEntries - min sramEntries (metaCount y)) / 8 →
          ∃ t, exec (.syncEngineOperation d) s = .next t ∧ t.units = s.units ∧ (t.die d).sync.queue = rest ∧
            let old := leNat ((List.range q.size).map fun i => deviceByte s (q.pa + i) q.key)
            (∀ i < q.size, deviceByte t (q.pa + i) q.key =
              (leBytes (atomicNew op.toNat q.width old q.x.toNat q.cmp.toNat) q.size).getD i 0) ∧
            (∀ a, a < q.pa ∨ q.pa + q.size ≤ a → deviceByte t a q.key = deviceByte s a q.key) ∧
            (t.die d).sync.replies = y.replies ++ (if q.posted && !q.acquire then [] else
              [{ req := q, value := (atomicReturn q.width q.signed old).setWidth 512, code := 0, va := q.va, retry := false,
                 near := inSram y q.pa }])))) ∧
    (∀ r rest u, y.replies = r :: rest → s.unit? r.req.uid = some u →
      (r.retry = false → r.req.copyEng = none → r.req.kind ≠ .lostArrival → u.live = true → replyDue s d r = true →
        (r.code ≠ 0 → ∃ t v, exec (.syncReply d) s = .next t ∧ t.mem = s.mem ∧ (t.die d).sync.replies = rest ∧ t.unit? r.req.uid = some v ∧
          v.regs = u.regs ∧ v.run.due = u.run.due ++ 
            [⟨r.code, r.va, 1#4 <<< r.req.slot.toNat, true, .sync, r.req.slot, r.req.bundle⟩]) ∧
        (r.code = 0 → (r.req.kind = .op 0x0F → r.req.waits = true) →
          (r.req.acquire = true → ∀ e ∈ u.pend, ∀ l, e.load = some l → l.reread = none) →
          ∃ t v, exec (.syncReply d) s = .next t ∧ t.mem = s.mem ∧ (t.die d).sync.replies = rest ∧ t.unit? r.req.uid = some v ∧
          v.regs = u.regs ∧ v.csr = u.csr ∧ v.run = u.run ∧
          (∀ q, u.sync.barwaitReq = some q → q.id = r.req.id → v.sync.barwaitReply = some (r.value.extractLsb' 0 64) ∧ v.pend = u.pend) ∧
          (∀ q, u.sync.barwaitReq = none → u.sync.barawReq = some q → q.id = r.req.id → v.sync.barawReq = none ∧
            v.pend = u.pend.map fun e => if e.baraw then { e with value := r.value, awaited := false, baraw := false } else e) ∧
          (∀ k e, u.sync.barwaitReq = none → u.sync.barawReq = none →
            u.pend.findIdx? (fun x => x.load.any fun l => l.req == r.req.id) = some k → u.pend[k]? = some e →
            v.pend = u.pend.set k { e with value := r.value, awaited := false }))) ∧
      (∀ op pa e b, r.retry = true → r.req.kind = .op op → op ≠ 0x12 → translate s u.accessor r.req.va .atomic = .ok pa e b →
        ∃ t, exec (.retryReceived d) s = .next t ∧ t.units = s.units ∧ t.mem = s.mem ∧ (t.die d).sync.replies = rest ∧
          let l := (s.die (homeOf (pa / 128))).sync.queue
          let before (x : SyncReq) : Bool := x.uid != r.req.uid || decide (x.id ≤ r.req.id)
          (t.die (homeOf (pa / 128))).sync.queue =
            l.takeWhile before ++ { r.req with pa := pa, die := homeOf (pa / 128) } :: l.dropWhile before))

/-- R319 to R333: a miss sends a walk; a walk loads the leaf's translation and sets ACC, and DIRTY for a write, or ends in
TRANSLATION; a buffer is registered; a shoot-down drops a die's matching translations and is over with its last acknowledgement; a
migration sets MIG and shoots the page's translations down.
The model's choices that clauses of it rest on: log entries 9 and 64. -/
def Obligations.WalkerEvents : Prop :=
  (∀ (s : State) (a : BitVec 16) (va : Va) (w : Bool) (c : ClusterNo), tlbFind s c a (vpnOf va) = none → walkFor s c a (vpnOf va) = none →
    s.hub.walk.walks.length < 64 → budgetOpen s a bWalker (walkKey c (vpnOf va)) = true →
    ∃ t, exec (.translationWalk a va w c) s = .next t ∧ t.units = s.units ∧ t.mem = s.mem ∧ t.hub.walk.walks = s.hub.walk.walks ++
      [{ id := s.nextReq, asid := a, va := va, write := w, die := dieOf c, cluster := c, fail := none }]) ∧
  (∀ (s : State) (id : Nat) (w : Walk) (k : Context), s.hub.walk.walks.find? (fun x => x.id == id) = some w → w.fail = none →
    s.ctx? w.asid = some k →
    let start := walkStart s w.asid k.root w.va.toNat
    (walkFrom s w.va.toNat start.1 start.2 [] = .fail → ∃ t, exec (.walkComplete id) s = .next t ∧ t.units = s.units ∧ t.mem = s.mem ∧
      t.hub.walk.walks.find? (fun x => x.id == id) = some { w with fail := some cTranslation }) ∧
    (∀ addr p level ptrs, walkFrom s w.va.toNat start.1 start.2 [] = .leaf addr p level ptrs → leafOk s w.asid (vpnOf w.va) p level = true →
      (pteMig p = true → ∃ t, exec (.walkComplete id) s = .next t ∧ t.units = s.units ∧ t.mem = s.mem ∧ w ∈ t.hub.walk.held ∧
        t.hub.walk.walks = s.hub.walk.walks) ∧
      (pteMig p = false → (∀ b, pteTvg p = true → bufOf s w.asid (vpnOf w.va) = some b → versionMoves s b = false) →
        (∀ d, (s.die d).lost = false) → ∃ t, exec (.walkComplete id) s = .next t ∧ t.units = s.units ∧
        entryOfLeaf s w p level ∈ (t.cluster w.cluster).tlb ∧ (∀ x ∈ t.hub.walk.walks, x.id ≠ id) ∧
        (Canonical s → (∀ r ∈ s.hub.dir.regions, r.d = 0) → deviceNat t addr 8 = (p ||| 0x20 ||| (if w.write then 0x40 else 0)).toNat)))) ∧
  (∀ (s : State) (a : BitVec 16) (hbase pages p0 p1 : Nat), (s.ctx? a).isSome → (s.hub.walk.bufs.filter fun b => b.asid == a).length < 4096 →
    1 ≤ pages → pages ≤ 65536 → hbase < 2 ^ 66 → versionOk p0 pages = true → versionOk p1 pages = true →
    ∃ t b, exec (.bufferRegistration a hbase pages p0 p1) s = .next t ∧ t.units = s.units ∧ t.mem = s.mem ∧
      t.hub.walk.bufs = s.hub.walk.bufs ++ [b] ∧ b.asid = a ∧ b.hbase = hbase ∧ b.pages = pages ∧ b.phys0 = p0 * 2 ^ 14 ∧
      b.phys1 = p1 * 2 ^ 14 ∧ b.sel = false ∧ b.count = 0 ∧ b.total = none ∧ b.taint = false ∧ b.flips = 0 ∧ b.vset = false) ∧
  (∀ (s : State) (id : Nat) (d : DieNo) (x : Shoot), shoot? s id = some x → x.migrate = none → x.version = none →
    (d ∈ x.dies → s.hub.walk.shootAcks.contains (id, d) = false → ∃ t, exec (.shootDown id d) s = .next t ∧ t.units = s.units ∧ t.mem = s.mem ∧
      (t.die d).tlb = (s.die d).tlb.filter (fun e => !x.hits e) ∧ (∀ c, dieOf c = d → ∀ e ∈ (t.cluster c).tlb, x.hits e = false) ∧
      (∀ c, dieOf c ≠ d → t.cluster c = s.cluster c) ∧ t.hub.walk.shootAcks = s.hub.walk.shootAcks ++ [(id, d)]) ∧
    (s.hub.walk.shootAcks.contains (id, d) = true →
      let left := x.dies.filter fun y => y != d
      ∃ t, exec (.shootDownAck id d) s = .next t ∧ t.units = s.units ∧ t.mem = s.mem ∧
        (left ≠ [] → shoot? t id = some { x with dies := left }) ∧
        (left = [] → (∀ i u, x.waiter = some i → s.unit? i = some u → u.live = false) → shoot? t id = none))) ∧
  (∀ (s : State) (a : BitVec 16) (va : Va) (frame : Nat) (k : Context) (addr : Nat) (p : Word) (level : Nat) (ptrs : List (Nat × Nat)) (d e : DieNo),
    s.ctx? a = some k → walkFrom s va.toNat 5 k.root [] = .leaf addr p level ptrs → leafOk s a (vpnOf va) p level = true →
    pteMig p = false → pteTvg p = false → frameDie (ptePa p) = some d → (s.die d).lost = false → frameDie (frame * 2 ^ 14) = some e →
    (s.die e).lost = false → frame * 2 ^ 14 % levelSize level = 0 → frameOk (frame * 2 ^ 14) (levelSize level) = true →
    (∀ x ∈ s.hub.walk.shoots, x.id ≠ s.nextReq) → shootMask s a (some (pageBase (vpnOf va) level, 2 ^ (11 * level))) ≠ [] →
    ∃ t, exec (.pageMigration a va frame) s = .next t ∧ t.units = s.units ∧
      (∃ x ∈ t.hub.walk.shoots, x.asid = a ∧ x.range = some (pageBase (vpnOf va) level, 2 ^ (11 * level)) ∧ x.migrate = some (frame * 2 ^ 14)) ∧
      (Canonical s → deviceNat t addr 8 = (p ||| 0x100).toNat))

/-- R296, R297, R299, R300, R303, R306, R307: what a die's slice, or its interface, does with each message that the hub delivers
to it: a fill enters its state, the bytes that wait merged over it; an invalidation or a forward is answered and the copy kept,
shared or dropped; a Put that is answered leaves the slice.
The model's choices that clauses of it rest on: log entries 58 and 59. -/
def Obligations.DieMessages : Prop :=
  ∀ (s : State) (d : DieNo) (line : Nat) (m : Msg),
    let head (k : MsgKind) : Prop := headMsg s k d line true = some m
    let before := sliceLine? (s.die d) line
    let after (t : State) := sliceLine? (t.die d) line
    let plain (k : MsgKind) : Msg := reqMsg k d line 0 0 0 false
    -- fills
    (∀ l, before = some l → l.st = .isD →
      (∀ x ∈ [(Instr.dataS d line, MsgKind.dataS, SliceState.s), (.dataE d line, .dataE, .e), (.dataM d line, .dataM, .m)], head x.2.1 →
        ∃ t, exec x.1 s = .next t ∧ SameData s t ∧ NetAfter s t m [] ∧
          after t = some { l with st := x.2.2, data := m.data, base := m.data, poison := m.poison, dirty := 0, key := m.key }) ∧
      (head .fwdData → ∃ t, exec (.fwddata d line) s = .next t ∧ SameData s t ∧ NetAfter s t m [] ∧
        after t = some { l with st := if m.shared then .s else .m, data := m.data, base := m.data, poison := m.poison, dirty := 0,
                                key := m.key }) ∧
      (head .dataNF → ∃ t, exec (.datanf d line) s = .next t ∧ SameData s t ∧ NetAfter s t m [] ∧ after t = none)) ∧
    (∀ l, before = some l → l.st = .imD ∨ l.st = .imW ∨ l.st = .smW →
      (∀ x ∈ [(Instr.dataM d line, MsgKind.dataM), (.fwddata d line, .fwdData), (.dataE d line, .dataE)], head x.2 → m.shared = false →
        ∃ t l', exec x.1 s = .next t ∧ SameData s t ∧ NetAfter s t m [] ∧ after t = some l' ∧ l'.st = .m ∧ l'.base = m.data ∧
          ∀ i < 128, lineByte l'.data i = if l.dirty.getLsbD i then lineByte l.data i else lineByte m.data i)) ∧
    (∀ l, before = some l → l.st = .smW → head .upgAck → ∃ t, exec (.upgack d line) s = .next t ∧ SameData s t ∧ NetAfter s t m [] ∧
      after t = some { l with st := .m, dirty := 0, poison := l.poison && l.dirty != BitVec.allOnes 128 }) ∧
    -- invalidations, forwards
    (∀ l, before = some l → head .inv → ∃ t, exec (.inv d line) s = .next t ∧ SameData s t ∧ NetAfter s t m [plain .invAck] ∧
      (l.st = .s ∨ l.st = .o → after t = none) ∧ (l.st = .smW → after t = some { l with st := .imW })) ∧
    (∀ l, before = some l → l.st = .e ∨ l.st = .o ∨ l.st = .m →
      (head .fwdGetS → ∃ t, exec (.fwdgets d line) s = .next t ∧ SameData s t ∧
        NetAfter s t m ((if m.shared then [] else
          [{ dataTo .fwdData m.req line (deviceCopy s d l, l.poison) m.key with shared := true }]) ++ [plain .fwdAck]) ∧
        after t = some { l with st := .o }) ∧
      (head .fwdGetSNF → ∃ t, exec (.fwdgetsnf d line) s = .next t ∧ SameData s t ∧
        NetAfter s t m [dataTo .dataNF m.req line (deviceCopy s d l, l.poison) m.key, plain .fwdAck] ∧ after t = some l) ∧
      (head .fwdGetM → ∃ t, exec (.fwdgetm d line) s = .next t ∧ SameData s t ∧
        NetAfter s t m [dataTo .fwdData m.req line (deviceCopy s d l, l.poison) m.key, plain .fwdAck] ∧ after t = none)) ∧
    -- Puts answered, pushes, redirect entries
    (∀ l, before = some l → l.st ∈ [SliceState.miA, .oiA, .eiA, .siA, .iiA] →
      ∀ x ∈ [(Instr.putack d line, MsgKind.putAck), (.putackstale d line, .putAckStale)], head x.2 →
        ∃ t, exec x.1 s = .next t ∧ SameData s t ∧ NetAfter s t m [] ∧ after t = none) ∧
    (before = none → head .push → ∃ t l, exec (.push d line) s = .next t ∧ SameData s t ∧ plain .pushAck ∈ t.hub.dir.net ∧
      after t = some l ∧ l.st = .s ∧ l.data = m.data ∧ l.poison = m.poison ∧ l.helper = true) ∧
    (head .rdSet → ∃ t, exec (.rdset d line) s = .next t ∧ SameData s t ∧ NetAfter s t m [plain .rdAck] ∧
      redirect? t d line = some ⟨line, m.helper⟩ ∧ (t.die d).redirects.length ≤ max 256 (s.die d).redirects.length) ∧
    (head .rdInv → ∃ t, exec (.rdinv d line) s = .next t ∧ SameData s t ∧ NetAfter s t m [plain .rdAck] ∧ redirect? t d line = none)

/-- R298 to R300, R303, R306 to R308: what the directory does with each message of a die, and with what memory answers: requests
for lines in I, S, E, O and M, requests that wait, Puts, stale Puts, acknowledgements, and reads that a helper answers.
The model's choices that clauses of it rest on: log entries 58 and 59. -/
def Obligations.DirectoryMessages : Prop :=
  ∀ (s : State) (d : DieNo) (line : Nat) (m : Msg),
    let head (k : MsgKind) : Prop := headMsg s k d line false = some m
    let e := dirEntry s line
    let asked (q : DirReq) (k : MsgKind) : Prop := q.kind = k ∧ q.die = d ∧ q.key = m.key
    let acked (x : DirEntry) : Prop := x.invs = 0 ∧ x.rdis = 0 ∧ x.pushes = 0 ∧ x.fwd = false
    let calm : Prop := e.queue = [] ∧ e.late = [] ∧ e.trimDue = false
    let requests := [(Instr.gets d line, MsgKind.getS), (.getm d line, .getM), (.upg d line, .upg)]
    -- requests
    (∀ x ∈ requests, head x.2 → redirect? s d line = none →
      (e.st.stable = false ∨ e.queue ≠ [] → ∃ t q, exec x.1 s = .next t ∧ SameData s t ∧ NetAfter s t m [] ∧ asked q x.2 ∧
        dirEntry t line = { e with queue := e.queue ++ [q] }) ∧
      (dirEntry? s line = none → (s.die (homeOf line)).lost = false →
        ∃ t q, exec x.1 s = .next t ∧ SameData s t ∧ asked q x.2 ∧ (dirEntry t line).st = .iD ∧ (dirEntry t line).cur = some q ∧
          (line, true) ∈ t.hub.dir.mem)) ∧
    ((s.die (homeOf line)).lost = false → e.queue = [] → acked e → e.key = m.key →
      (head .getS → redirect? s d line = none → dirRepen s = false →
        (e.st = .s → ∃ t, exec (.gets d line) s = .next t ∧ SameData s t ∧
          dataTo (if d = homeOf line then .dataS else .dataNF) d line (memLine s line m.key, s.poison.contains line) m.key ∈ t.hub.dir.net ∧
          (d = homeOf line → (dirEntry t line).sharers.getLsbD d.val = true)) ∧
        (∀ o, e.st = .e ∨ e.st = .o ∨ e.st = .m → e.owner = some o → ∃ t, exec (.gets d line) s = .next t ∧ SameData s t ∧
          { toDie (if d = homeOf line then .fwdGetS else .fwdGetSNF) o line with req := d, key := m.key } ∈ t.hub.dir.net ∧
          (dirEntry t line).st = .mFS ∧ (dirEntry t line).fwd = true)) ∧
      (head .getM → e.st = .s → e.owner = none → e.sharers ≠ 0 → e.sharers.getLsbD d.val = false →
        ∃ t, exec (.getm d line) s = .next t ∧ SameData s t ∧ (dirEntry t line).st = .sMA ∧ (dirEntry t line).invs = e.sharers ∧
          ∀ x : DieNo, e.sharers.getLsbD x.val = true → toDie .inv x line ∈ t.hub.dir.net) ∧
      (∀ o, head .getM → e.st = .e ∨ e.st = .m → e.owner = some o → o ≠ d → e.sharers = 0 → ∃ t, exec (.getm d line) s = .next t ∧
        SameData s t ∧ { toDie .fwdGetM o line with req := d, key := m.key } ∈ t.hub.dir.net ∧ (dirEntry t line).st = .mFA ∧
        (dirEntry t line).fwd = true) ∧
      (head .upg → e.st = .s → e.owner = none → e.sharers = dieBit d → e.redirects = 0 → ∃ t, exec (.upg d line) s = .next t ∧
        SameData s t ∧ toDie .upgAck d line ∈ t.hub.dir.net ∧ (dirEntry t line).st = .m ∧ (dirEntry t line).owner = some d ∧
        (dirEntry t line).sharers = 0)) ∧
    -- Puts
    (e.owner = some d → e.st.stable = true →
      (∀ x ∈ [(Instr.putm d line, MsgKind.putM), (.puto d line, .putO)], head x.2 → ∃ t, exec x.1 s = .next t ∧ t.units = s.units ∧
        NetAfter s t m [toDie .putAck d line] ∧ (dirEntry t line).st = .xWB ∧ (dirEntry t line).owner = none ∧
        (line, false) ∈ t.hub.dir.mem ∧ (Canonical s → memLine t line m.key = m.data)) ∧
      (head .putE → calm → ∃ t, exec (.pute d line) s = .next t ∧ SameData s t ∧ NetAfter s t m [toDie .putAck d line] ∧
        (dirEntry t line).owner = none ∧ (dirEntry t line).st = (if e.sharers = 0 then .i else .s))) ∧
    (e.owner ≠ some d → ∀ x ∈ [(Instr.putm d line, MsgKind.putM), (.puto d line, .putO), (.pute d line, .putE)], head x.2 →
      ∃ t, exec x.1 s = .next t ∧ SameData s t ∧ NetAfter s t m [toDie .putAckStale d line] ∧ dirEntry t line = e) ∧
    (head .putS → e.st.stable = true → calm → e.helpers.getLsbD d.val = false ∨ e.redirects = 0 →
      ∃ t, exec (.puts d line) s = .next t ∧ SameData s t ∧ NetAfter s t m [toDie .putAck d line] ∧
        (dirEntry t line).sharers = e.sharers &&& ~~~(dieBit d)) ∧
    -- acknowledgements
    (∀ q, head .invAck → e.st = .sMA → e.owner = none → e.cur = some q →
      (e.invs &&& ~~~(dieBit d) ≠ 0 → ∃ t, exec (.invack d line) s = .next t ∧ SameData s t ∧ NetAfter s t m [] ∧
        (dirEntry t line).st = .sMA ∧ (dirEntry t line).invs = e.invs &&& ~~~(dieBit d) ∧
        (dirEntry t line).sharers = e.sharers &&& ~~~(dieBit d)) ∧
      (e.invs &&& ~~~(dieBit d) = 0 → e.rdis = 0 → e.pushes = 0 → e.fwd = false → calm → q.kind = .getM →
        ∃ t, exec (.invack d line) s = .next t ∧ SameData s t ∧ NetAfter s t m [dataTo .dataM q.die line (deviceLine s line q.key) q.key] ∧
          (dirEntry t line).st = .m ∧ (dirEntry t line).owner = some q.die ∧ (dirEntry t line).sharers = 0)) ∧
    (∀ q, head .fwdAck → e.cur = some q → e.invs = 0 → e.rdis = 0 → e.pushes = 0 → calm →
      (e.st = .mFA → ∃ t, exec (.fwdack d line) s = .next t ∧ SameData s t ∧ NetAfter s t m [] ∧ (dirEntry t line).st = .m ∧
        (dirEntry t line).owner = some q.die) ∧
      (∀ o, e.st = .mFS → e.owner = some o → dirPushen s = false → ∃ t, exec (.fwdack d line) s = .next t ∧ SameData s t ∧ NetAfter s t m [] ∧
        (dirEntry t line).owner = some o ∧ (dirEntry t line).st = (if e.sharers = 0 then .m else .o))) ∧
    (e.st = .pA → calm →
      (head .rdAck → ∃ t, exec (.rdack d line) s = .next t ∧ SameData s t ∧ NetAfter s t m [] ∧
        (dirEntry t line).rdis = e.rdis &&& ~~~(dieBit d) ∧ (dirEntry t line).redirects = e.redirects) ∧
      (head .pushAck → ∃ t, exec (.pushAcknowledgement d line) s = .next t ∧ SameData s t ∧ NetAfter s t m [] ∧
        (dirEntry t line).pushes = e.pushes &&& ~~~(dieBit d))) ∧
    -- memory, and reads that a helper answers
    (∀ q, e.st = .iD → e.cur = some q → calm → e.owner = none → (line, true) ∈ s.hub.dir.mem →
      ∃ t, exec (.memoryFill line) s = .next t ∧ SameData s t ∧
        (q.kind = .getS → q.die = homeOf line → q.prefetch = false → (dirEntry t line).owner = some q.die ∧ (dirEntry t line).st = .e ∧
          t.hub.dir.net = s.hub.dir.net ++ [dataTo .dataE q.die line (memLine s line q.key, s.poison.contains line) q.key]) ∧
        (q.kind = .getS → q.die = homeOf line → q.prefetch = true → (dirEntry t line).sharers = dieBit q.die ∧ (dirEntry t line).st = .s ∧
          t.hub.dir.net = s.hub.dir.net ++ [dataTo .dataS q.die line (memLine s line q.key, s.poison.contains line) q.key]) ∧
        (q.kind = .getS → q.die ≠ homeOf line → dirRepen s = false →
          dataTo .dataNF q.die line (memLine s line q.key, s.poison.contains line) q.key ∈ t.hub.dir.net) ∧
        (q.kind = .getM → (dirEntry t line).owner = some q.die ∧ (dirEntry t line).st = .m ∧
          t.hub.dir.net = s.hub.dir.net ++ [dataTo .dataM q.die line (deviceLine s line q.key) q.key])) ∧
    (e.st = .xWB → e.owner = none → calm → (line, false) ∈ s.hub.dir.mem →
      ∃ t, exec (.memoryWriteDone line) s = .next t ∧ SameData s t ∧ t.hub.dir.net = s.hub.dir.net ∧
        (dirEntry t line).st = (if e.sharers = 0 then .i else .s)) ∧
    (∀ r l, redirect? s d line = some r → head .getS → sliceHits s r.helper line m.key = some l →
      ∃ t, exec (.redirectedRead d line) s = .next t ∧ SameData s t ∧ NetAfter s t m [dataTo .dataNF d line (deviceCopy s r.helper l, l.poison) m.key] ∧
        t.hub.dir.entries = s.hub.dir.entries)

/-- R291, R292, R311 to R313, R402, R411 to R415: a die's circuits move one cycle on and land what the sheet gives way to; a
link's training ends in an active link or in the loss of its die, and its snoop timer counts, wakes it again, and after the last
re-wake asks for the firmware's check; the host port and the Estal ports go up, down, retrain and count. R23, R405, R414, R416 to
R423: a module reset gives the machine as reset leaves it, MRESET only for its code; a failure sets FAIL and CODE and stops every
cluster; attestation, the power throttle, APCTL and XCTL, and writes of the hub management window.
The model's choices that clauses of it rest on: log entries 14, 62 and 71. -/
def Obligations.LinkAndModuleEvents : Prop :=
  ((∀ (s : State) (d : DieNo), ((s.die d).circuits = [] → ∃ t, exec (.circuitSend d) s = .next t ∧ SameData s t ∧
        t = s.modDie d fun x => { x with revolution := x.revolution + 1 }) ∧
      (∀ (m : CircuitMsg) (u : UnitSt) (h : Handle), (s.die d).circuits = [m] → m.src < 16 → m.slab = [] →
        sheetDest (s.die d) (s.die d).revolution.toNat m.src = some m.dst → s.unit? m.uid = some u → u.handle? m.h = some h →
        ∃ t, exec (.circuitSend d) s = .next t ∧ t.mem = s.mem ∧ (t.die d).circuits = [] ∧
          (t.die d).revolution = (s.die d).revolution + 1 ∧
          t.unit? m.uid = some (u.setHandle (if m.head then { h with hp := m.pos } else { h with tp := m.pos, tc := m.pos })))) ∧
    (∀ (s : State) (d : DieNo), (s.die d).lost = false → (s.die d).link = .training →
      exec (.linkTrainingComplete d) s = .next (s.modDie d fun x => { x with link := .active, rewakes := 0 }) ∧
      (∃ t, exec (.linkTrainFail d) s = .next t ∧ (t.die d).lost = true ∧ (t.die d).link = .lost ∧ (t.die d).lines = [] ∧
        (t.die d).sync = Die.reset.sync) ∧
      (∃ t, exec (.snoopTimerExpiry d) s = .next t ∧
        ((s.die d).rewakes < dirRewake s → SameData s t ∧ (t.die d).link = .training ∧ (t.die d).rewakes = (s.die d).rewakes + 1 ∧
          (t.die d).counters.waketo = (s.die d).counters.waketo + 1 ∧ t.mod.errEvents = s.mod.errEvents ++ [(0x01, d.val)]) ∧
        (dirRewake s ≤ (s.die d).rewakes → (t.die d).lost = true ∧ (t.die d).link = .lost ∨
          (t.die d).lost = false ∧ (t.die d).link = .training ∧ (t.die d).rewakes = 0 ∧ SameData s t))) ∧
    (∀ s : State,
      (∃ t, exec .hostLinkDown s = .next t ∧ t.mem = s.mem ∧ t.mod.hostUp = false ∧
        t.hub.outWrites = s.hub.outWrites.filter (fun w => w.dest != 0)) ∧
      exec .hostPortTrained s = .next (s.setMod { s.mod with hostUp := true }) ∧
      (∃ t, exec .ideFailure s = .next t ∧ t.mem = s.mem ∧ t.mod = s.mod ∧ t.hub.outWrites = s.hub.outWrites.filter (fun w => w.dest != 0)) ∧
      exec .correctableError s = .next (s.setMod { s.mod with aerCorrectable := s.mod.aerCorrectable + 1 })) ∧
    (∀ (s : State) (p : Fin 16),
      let q := s.hub.ports.get p
      (∀ (g x : Bool) (peer : BitVec 10), ∃ t r, exec (.estalPortTrained p g x peer) s = .next t ∧ SameData s t ∧
        t.hub.ports.get p = r ∧ r.gen = (if g = true ∧ q.maxg1 = false then 2 else 1) ∧ r.x4 = x ∧ r.peer = peer ∧ r.training = false ∧
        r.maxg1 = q.maxg1 ∧ r.retry = q.retry ∧ ∀ k, k ≠ p → t.hub.ports.get k = s.hub.ports.get k) ∧
      (∀ v : Word, ∃ t, exec (.estalPortStatusWrite p v) s = .next t ∧ SameData s t ∧
        t.hub.ports.get p = { q with maxg1 := v.getLsbD 13, training := true }) ∧
      (q.gen ≠ 0 → ∃ t, exec (.estalLinkDown p true) s = .next t ∧ SameData s t ∧ t.hub.ports.get p = { q with x4 := true }) ∧
      (∃ t r, exec (.estalLinkDown p false) s = .next t ∧ t.mem = s.mem ∧ t.hub.ports.get p = r ∧ r.gen = 0 ∧ r.training = false ∧
        r.maxg1 = q.maxg1 ∧ t.hub.outWrites = s.hub.outWrites.filter (fun w => w.port != some p)) ∧
      (∃ t, exec (.flitRetry p) s = .next t ∧ SameData s t ∧ t.hub.ports.get p = { q with retry := q.retry + 1 }))) ∧
  ((∀ s : State,
      (∃ t, exec .moduleReset s = .next t ∧ t.units = [] ∧ t.hub = State.reset.hub ∧ t.clusters = State.reset.clusters ∧
        t.dies = State.reset.dies ∧ t.mem = State.reset.mem ∧ t.mod = { State.reset.mod with img := s.mod.img } ∧ t.inputs = s.inputs) ∧
      (∀ v : Word, (v = 0xA5A5 → exec (.mreset v) s = exec .moduleReset s) ∧ (v ≠ 0xA5A5 → exec (.mreset v) s = .next s)) ∧
      (∀ x ∈ [(Instr.hubDieFault, (0x02 : BitVec 8)), (.thermalTrip, 0x03), (.powerStageFault, 0x04)],
        ∃ t, exec x.1 s = .next t ∧ SameData s t ∧ t.mod.fail = true ∧ t.mod.code = x.2 ∧ t.mod.stopped = true ∧
          t.mod.msix.getLsbD 0 = true ∧ t.mod.aerFatal = s.mod.aerFatal + 1) ∧
      (∀ v : Word, v.getLsbD 0 = true → s.mod.attBusy = false → ∃ t, exec (.attestationGo v) s = .next t ∧ SameData s t ∧
        t.mod.attBusy = true ∧ t.mod.attDone = false ∧ t.mod.nonce = s.mod.nonce) ∧
      (s.mod.attBusy = true → ∃ t, exec .attestationDone s = .next t ∧ SameData s t ∧ t.mod.attBusy = false ∧ t.mod.attDone = true ∧
        t.mod.report.length = 8192 ∧ t.mod.report.take 32 = leBytes s.mod.nonce.toNat 32) ∧
      (∃ t c, exec (.powerThrottle true) s = .next t ∧ SameData s t ∧ t.mod.throt = true ∧ ∀ k, (t.cluster k).throttled = decide (k = c)) ∧
      (∃ t, exec (.powerThrottle false) s = .next t ∧ SameData s t ∧ t.mod.throt = false ∧ ∀ k, (t.cluster k).throttled = false) ∧
      (∀ v : Word, (∃ t, exec (.apctlWrite v) s = .next t ∧ SameData s t ∧ t.hub.ap =
          ⟨s.hub.ap.base, v.extractLsb' 0 16, v.extractLsb' 16 16, v.getLsbD 32 && (s.ctx? (v.extractLsb' 16 16)).isSome⟩) ∧
        (∃ t, exec (.xctlWrite v) s = .next t ∧ SameData s t ∧ t.hub.xap =
          ⟨s.hub.xap.base, v.extractLsb' 0 16, v.extractLsb' 16 16, v.getLsbD 32 && (s.ctx? (v.extractLsb' 16 16)).isSome⟩)) ∧
      (∀ v : Word,
        (∃ t, exec (.registerWrite none v) s = .next t ∧ SameData s t ∧ t.hub.dir.cfg = v.extractLsb' 0 42) ∧
        (∃ t, exec (.registerWrite (some 0x0010) v) s = .next t ∧ SameData s t ∧
          t.mod.pwrcap.toNat = max 800 (min 2200 (v.toNat % 4096))) ∧
        (∃ t, exec (.registerWrite (some 0x2000) v) s = .next t ∧ SameData s t ∧ t.hub.ap.base.toNat = v.toNat / 2 ^ 14 * 2 ^ 14) ∧
        (∀ i : Nat, i < 4 → s.mod.attBusy = false → ∃ t, exec (.registerWrite (some (BitVec.ofNat 20 (0x3040 + 8 * i))) v) s = .next t ∧
          SameData s t ∧ t.mod.nonce.extractLsb' (64 * i) 64 = v ∧
          ∀ j : Nat, j < 4 → j ≠ i → t.mod.nonce.extractLsb' (64 * j) 64 = s.mod.nonce.extractLsb' (64 * j) 64) ∧
        (∀ off : BitVec 20, off.toNat % 8 ≠ 0 → exec (.registerWrite (some off) v) s = .next s))))

/-- R340, R360, R367, R369, R371, R372, R374, R375, R380, R381: a write of GADDR claims or frees a slot; a cue to a free slot is
dropped, one to a running pass waits, and one to an idle graph starts a pass, which here fires its one launch; a phase boundary
that every earlier pass has reached completes once no store waits for its device step; a launch whose counter is 0 performs TGT0
when its release is done, and then TGT1; a budget period carries the excess where nothing waits; PCTL takes the fields it may.
R17, R375: each cancel kills the units of its level, or cuts the passes of it; a live unit that is killed, here one without
copies, array work or barriers, completes with KILLED and an empty record, its registers as they were.
The model's choices that clauses of it rest on: log entries 45 and 60. -/
def Obligations.FrontEndEvents : Prop :=
  (∀ (s : State) (a : BitVec 16) (g : Fin 64) (k : Context), s.ctx? a = some k →
      let x := s.graph g
      (∀ v : Word, x.state = 0 ∨ x.asid = a → x.state ≠ 2 → ∃ t, exec (.gaddrWrite a g v) s = .next t ∧ SameData s t ∧
        (∀ j, j ≠ g → t.graph j = s.graph j) ∧ (v = 0 → (t.graph g).state = 0) ∧
        (v ≠ 0 → (t.graph g).state = 1 ∧ (t.graph g).asid = a ∧ (t.graph g).gaddr = v ∧ (t.graph g).drop = false ∧
          (t.graph g).resident = false ∧ (t.graph g).pends = [])) ∧
      (x.state = 0 ∨ x.state = 3 ∧ x.asid = a → ∃ t, exec (.cue a g) s = .next t ∧ SameData s t ∧
        t = s.modGraph g fun x => { x with drop := true }) ∧
      (x.asid = a → k.cancelled = false →
        (x.state = 2 → x.pends.length < 65535 → ∃ t, exec (.cue a g) s = .next t ∧ SameData s t ∧ (t.graph g).state = 2 ∧
          (t.graph g).nodes = x.nodes ∧ (t.graph g).pends = x.pends ++ [s.hub.cueSeq]) ∧
        (∀ y r w, x.state = 1 → x.resident = true → x.nodes = [y] → y.kind = 1 → y.depc = 0 → y.record = some r → y.wings = some w →
          r.nodl = true → ∃ t l, exec (.cue a g) s = .next t ∧ SameData s t ∧ (t.graph g).state = 2 ∧ (t.graph g).gcnt = 1 ∧
            t.hub.launches = s.hub.launches ++ [l] ∧ l.serial = k.serial ∧ l.asid = a ∧ l.record = r ∧ l.wings = w ∧
            l.remain = r.units ∧ l.placed = 0 ∧ l.done = false ∧
            l.pendingWings = r.clusters.filter (fun c => (List.range r.units).any fun i => r.clusterOf i == c)) ∧
        (∀ y, x.state = 2 → x.nodes = [y] → y.kind = 6 → y.fired = true → y.done = false → y.succ = [] → x.cut = false → x.gcnt = 1 →
          x.pends = [] → x.todo = [] → earlierPassesDone s a x.cueNo g = true → allWritten s = true →
          ∃ t k', exec (.phaseBoundaryRelease g) s = .next t ∧ SameData s t ∧ (t.graph g).state = 1 ∧
            (t.graph g).passes = x.passes + 1 ∧ t.ctx? a = some k' ∧ k'.phase = k.phase + 1)) ∧
      (∀ (li : Nat) (l : Launch), s.launch? li = some l → l.finish = 1 → l.remain = 0 →
        let s1 := launchRelease s li
        (launchReleased s1 li = false → exec (.launchReleaseDone li) s = .next s1) ∧
        (launchReleased s1 li = true → targetTurn s1 li l l.record.tgt0 ≠ .go →
          exec (.launchReleaseDone li) s = .next (targetHeld s1 li l l.record.tgt0)) ∧
        (launchReleased s1 li = true → targetTurn s1 li l l.record.tgt0 = .go →
          exec (.launchReleaseDone li) s = .next ((performTarget s1 li l l.record.tgt0).modLaunch li fun l => { l with finish := 2 }))) ∧
      (∀ (li : Nat) (l : Launch), s.launch? li = some l → l.finish = 2 → (∀ w ∈ s.hub.outWrites, w.uid ≠ launchUid s li) →
        (targetTurn s li l l.record.tgt1 ≠ .go → exec (.completionTarget li) s = .next (targetHeld s li l l.record.tgt1)) ∧
        (targetTurn s li l l.record.tgt1 = .go → l.graph = none → exec (.completionTarget li) s =
          .next ((performTarget s li l l.record.tgt1).modLaunch li fun l => { l with finish := 3, done := true }))) ∧
      (∀ (li : Nat) (l : Launch) (z : Target) (s1 : State) (pa : Nat) (e : TlbEntry) (b : Bool), z.kind = 1 → z.va.toNat % 8 = 0 →
        feTranslate s l.asid z.va .write = some (s1, pa, e, b) → routeOf pa e = .cached → pa % 8 = 0 → Canonical s1 →
        ∀ i < 8, deviceByte (performTarget s li l z) (pa + i) e.key = (leBytes z.value.toNat 8).getD i 0) ∧
      (∀ r : Fin 19, ∃ t, exec (.budgetPeriodStart r) s = .next t ∧ SameData s t ∧
        ∀ k' ∈ t.hub.contexts, ∃ k ∈ s.hub.contexts, k'.asid = k.asid ∧ (∀ j, j ≠ r → k'.budgets.get j = k.budgets.get j) ∧
          (k'.budgets.get r).limit = (k.budgets.get r).limit ∧
          ((k.budgets.get r).waiting = [] → (k'.budgets.get r).waiting = [] ∧
            (k'.budgets.get r).used = if (k.budgets.get r).limit = 0 then 0 else (k.budgets.get r).used - (k.budgets.get r).limit.toNat)) ∧
      (∀ v : Word, ∃ t k', exec (.pctlWrite a v) s = .next t ∧ t.mem = s.mem ∧ t.ctx? a = some k' ∧
        k'.pctl.extractLsb' 0 16 = v.extractLsb' 0 16 ∧ k'.pctl.extractLsb' 24 2 = v.extractLsb' 24 2 ∧
        k'.pctl.extractLsb' 16 6 = (if k.slots.isEmpty then v.extractLsb' 16 6 else k.pctl.extractLsb' 16 6) ∧
        k'.pctl.extractLsb' 22 2 = (if v.extractLsb' 22 2 = 3 then k.pctl.extractLsb' 22 2 else v.extractLsb' 22 2))) ∧
  (∀ (s : State) (a : BitVec 16),
      let quiet (g : Fin 64) : Prop := ∀ n ∈ (s.graph g).nodes, n.launch = none
      let idle : Prop := ∀ k, s.ctx? a = some k → k.cancels = []
      let ended (t : State) (g : Fin 64) : Prop := (t.graph g).pends = [] ∧ ((t.graph g).cut = true ∨ (t.graph g).state = 1)
      (∀ (k : Context) (x : Cancel) (rest : List Cancel), s.ctx? a = some k → k.cancels = x :: rest →
        let ops : List (Instr × Cancel) := [(.cancelJob a, .job)] ++ (List.finRange 64).map fun g => (.cancelGraph a g, .graph g)
        ∀ o ∈ ops, o.2 ≠ x → exec o.1 s = .next (s.modCtx a fun k => { k with cancels := k.cancels ++ [o.2] })) ∧
      (idle → ∀ (serial : BitVec 32) (n : BitVec 16) (li : Nat) (l : Launch), s.launch? li = some l →
        s.hub.launches.findIdx? (fun l => l.asid == a && l.serial == serial && !l.done) = some li →
        (unitExists s li n.toNat = true →
          exec (.cancelUnit a serial n) s = .next (killUnits s fun u => u.ident.launch == some li && u.ident.index == n)) ∧
        exec (.cancelLaunch a serial) s = .next (cutLaunch s li) ∧
        (l.done = false → l.finish = 0 → l.placed = 0 → l.pendingWings = [] → (∀ c, (s.cluster c).shadowWings ≠ some li) →
          cutLaunch s li = s.modLaunch li fun l => { l with killed := true })) ∧
      (∀ g : Fin 64, idle → (s.graph g).asid = a → (s.graph g).state = 2 → quiet g → ∃ t, exec (.cancelGraph a g) s = .next t ∧ SameData s t ∧ ended t g) ∧
      (∀ (phase : BitVec 16) (k : Context), s.ctx? a = some k → k.cancels = [] →
        (2 ^ 15 ≤ (phase - k.phase).toNat → exec (.cancelPhase a phase) s = .next s) ∧
        ((phase - k.phase).toNat < 2 ^ 15 → (boundaryCues s a)[(phase - k.phase).toNat]? = none → (∀ g, quiet g) →
          ∃ t, exec (.cancelPhase a phase) s = .next t ∧ SameData s t ∧
            ∀ g : Fin 64, (s.graph g).asid = a → (s.graph g).state = 2 → ended t g)) ∧
      (∀ k : Context, s.ctx? a = some k → k.cancels = [] →
        let cut := (List.finRange 64).foldl (fun s g => cancelGraph s a g) s
        exec (.cancelJob a) s = .next ((killUnits (killUnits cut fun u => u.ident.asid == a && !u.isPrompter) fun u => u.ident.asid == a).modCtx a
          fun k => { k with cancelled := true })) ∧
      (∀ (uid : Uid) (u : UnitSt), s.unit? uid = some u → u.live = true → u.isPrompter = false → u.sync.members = [] →
        (∀ e : BitVec 1, ∀ q ∈ (s.engine u.ident.cluster e).queue, q.uid ≠ some uid) →
        (arrayWork (arrayOf s u.ident.cluster)).contains uid = false → (currentStream (arrayOf s u.ident.cluster) uid).isSome = false →
        ∃ v, (killUnit s uid).unit? uid = some v ∧ v.run.status = .complete .killed ∧ v.pend = [] ∧ v.regs = u.regs ∧ v.csr = u.csr))

/-- R404 to R408, R410, R411, R413, R414: an inbound write is refused or stands at the ordering point with its routes, waits for an earlier write on another route, is
released, performed at its home and acknowledged; a read waits for the writes before it and returns its data, or UR; a
load that fails outside freezes its unit with POISON; posted writes are acknowledged.
The model's choices that clauses of it rest on: log entries 66, 72 and 73. -/
def Obligations.HostPortEvents : Prop :=
  (∀ (s : State) (addr : Nat) (data : List Byte) (ro ido : Bool) (rq : Nat), s.mod.hostUp = true →
    ((barAligned 0 addr data.length && serving s) = false → ∃ t, exec (.inboundWrite 0 addr data ro ido false rq) s = .next t ∧ SameData s t ∧
      t.hub = s.hub ∧ t.mod.aerNonFatal = s.mod.aerNonFatal + 1 ∧ t.mod.errLog = s.mod.errLog ++ [(addr, 0)]) ∧
    (barAligned 0 addr data.length = true → serving s = true → s.hub.inWrites = [] →
      ∃ t w r p, exec (.inboundWrite 0 addr data ro ido false rq) s = .next t ∧ SameData s t ∧ t.hub.inWrites = [w] ∧ w.bar = 0 ∧
        w.addr = addr ∧ w.data = data ∧ w.routes = [r] ∧ r.released.isSome ∧ r.performed = false ∧ r.pieces = [p] ∧
        p.pa = 2 ^ 51 + addr ∧ p.bytes = data) ∧
    (∀ s1 ps, apertureAccess s s.hub.ap addr data .write = some (s1, ps) → ps ≠ [] → s.hub.inWrites = [] →
      ∃ t w, exec (.inboundWrite 4 addr data ro ido false rq) s = .next t ∧ t.units = s1.units ∧ t.mem = s1.mem ∧ t.hub.inWrites = [w] ∧
        w.bar = 4 ∧ w.asid = s.hub.ap.asid ∧ w.ro = ro ∧ w.requester = rq ∧
        ∀ p ∈ ps.map Prod.fst, ∃ r ∈ w.routes, p ∈ r.pieces ∧ r.die = frameDie p.pa ∧ r.performed = false)) ∧
  (∀ (s : State) (w : InWrite) (r : Route), s.hub.inWrites = [w] → w.routes = [r] → r.acked = false →
    (r.released = none → w.admitted = true → inboundUp s w.bar = true → ∃ t, exec (.routeRelease w.id 0) s = .next t ∧ SameData s t ∧
      t.hub.inWrites = [{ w with routes := [{ r with released := some s.nextReq }] }]) ∧
    (∀ (n : Nat) (d : DieNo) (p : InPiece), r.released = some n → r.performed = false → r.die = some d → r.pieces = [p] → w.bar = 4 →
      frameDie p.pa = some d → (s.die d).lost = false → p.sync = false → w.poisoned = false → Canonical s →
      ∃ t, exec (.routeAck w.id 0) s = .next t ∧ t.units = s.units ∧ t.hub.inWrites = [{ w with routes := [{ r with performed := true }] }] ∧
        (∀ i < p.bytes.length, deviceByte t (p.pa + i) p.key = p.bytes.getD i 0) ∧
        (∀ a, a < p.pa ∨ p.pa + p.bytes.length ≤ a → deviceByte t a p.key = deviceByte s a p.key)) ∧
    (∀ n, r.released = some n → r.performed = true → ∃ t, exec (.routeAck w.id 0) s = .next t ∧ SameData s t ∧ t.hub.inWrites = [])) ∧
  (∀ (s : State) (e w : InWrite) (x r : Route), s.hub.inWrites = [e, w] → e.id ≠ w.id → w.routes = [r] → r.released = none → e.routes = [x] →
    x.acked = false → w.admitted = true → w.ro = false → countsFor w e = true → x.die ≠ r.die → exec (.routeRelease w.id 0) s = .next s) ∧
  (∀ (s : State) (bar : BitVec 3) (addr len : Nat) (rq : Nat), bar ∈ [(0 : BitVec 3), 2, 4] → s.mod.hostUp = true →
    ∃ t r, exec (.inboundRead bar addr len false rq) s = .next t ∧ SameData s t ∧ t.hub.inReads = s.hub.inReads ++ [r] ∧ r.bar = bar ∧
      r.addr = addr ∧ r.len = len ∧ r.ap = s.hub.ap ∧ r.after = (s.hub.inWrites.filter fun w => !w.ro).map fun w => w.id) ∧
  (∀ (s : State) (r : InRead), s.hub.inReads = [r] → r.bar = 0 → s.mod.hostUp = true →
    ((∃ w ∈ s.hub.inWrites, w.id ∈ r.after) → exec (.inboundReadRelease r.id) s = .next s) ∧
    ((∀ w ∈ s.hub.inWrites, w.id ∉ r.after) →
      (barAligned 0 r.addr r.len = true → serving s = true → ∃ t, exec (.inboundReadRelease r.id) s = .next t ∧ SameData s t ∧
        t.hub.inReads = [] ∧ t.hub.completions = s.hub.completions ++
          [{ id := r.id, ur := false, poisoned := false, data := leBytes (windowRead s (2 ^ 51 + r.addr)).toNat 8 }]) ∧
      (barAligned 0 r.addr r.len = false → ∃ t, exec (.inboundReadRelease r.id) s = .next t ∧ SameData s t ∧ t.hub.inReads = [] ∧
        t.hub.completions = s.hub.completions ++ [{ id := r.id, ur := true, poisoned := false, data := [] }]))) ∧
  (∀ (s : State) (x : OutLoad) (u : UnitSt) (e : PEntry) (l : LoadInfo), s.hub.outLoads.find? (fun y => y.req == x.req) = some x →
    s.unit? x.uid = some u → u.pend.find? (fun e => e.awaited && match e.load with | some l => l.req == x.req | none => false) = some e →
    e.load = some l → ∃ t v, exec (.outboundLoadTimeout x.req) s = .next t ∧ t.mem = s.mem ∧ t.unit? x.uid = some v ∧ v.regs = u.regs ∧
      v.run.due = u.run.due ++ [⟨cPoison, l.va, 1#4 <<< e.slot.toNat, true, .core, e.slot, e.bundle⟩] ∧
      t.hub.outLoads = s.hub.outLoads.filter fun y => y.req != x.req) ∧
  (∀ (s : State) (u : Uid) (dest : Nat), destUp s dest = true → destHolds s dest = false →
    ∃ t, exec (.outboundWriteAck u dest) s = .next t ∧ SameData s t ∧
      t.hub.outWrites = s.hub.outWrites.filter fun w => !(w.uid == u && w.dest == dest))
end

