-- ==== Sys2Proof/Laws/Exec.lean ====
section
/-! SUPPORT.
The meaning that each constructor of `Instr` runs: one lemma per arm of `exec`, so that no proof unfolds its match. -/

namespace Sys2Proof.Machine

variable (s : State)

theorem exec_add {d a b g i} : exec (.add d a b g i) s = Sys2Proof.Machine.execAdd d a b g i s := rfl
theorem exec_sub {d a b g i} : exec (.sub d a b g i) s = Sys2Proof.Machine.execSub d a b g i s := rfl
theorem exec_and {d a b g i} : exec (.and d a b g i) s = Sys2Proof.Machine.execAnd d a b g i s := rfl
theorem exec_or {d a b g i} : exec (.or d a b g i) s = Sys2Proof.Machine.execOr d a b g i s := rfl
theorem exec_xor {d a b g i} : exec (.xor d a b g i) s = Sys2Proof.Machine.execXor d a b g i s := rfl
theorem exec_andn {d a b g i} : exec (.andn d a b g i) s = Sys2Proof.Machine.execAndn d a b g i s := rfl
theorem exec_shl {d a b g i} : exec (.shl d a b g i) s = Sys2Proof.Machine.execShl d a b g i s := rfl
theorem exec_shr {d a b g i} : exec (.shr d a b g i) s = Sys2Proof.Machine.execShr d a b g i s := rfl
theorem exec_sar {d a b g i} : exec (.sar d a b g i) s = Sys2Proof.Machine.execSar d a b g i s := rfl
theorem exec_rol {d a b g i} : exec (.rol d a b g i) s = Sys2Proof.Machine.execRol d a b g i s := rfl
theorem exec_mul {d a b g i} : exec (.mul d a b g i) s = Sys2Proof.Machine.execMul d a b g i s := rfl
theorem exec_mulhs {d a b g i} : exec (.mulhs d a b g i) s = Sys2Proof.Machine.execMulhs d a b g i s := rfl
theorem exec_mulhu {d a b g i} : exec (.mulhu d a b g i) s = Sys2Proof.Machine.execMulhu d a b g i s := rfl
theorem exec_divs {d a b g i} : exec (.divs d a b g i) s = Sys2Proof.Machine.execDivs d a b g i s := rfl
theorem exec_divu {d a b g i} : exec (.divu d a b g i) s = Sys2Proof.Machine.execDivu d a b g i s := rfl
theorem exec_rems {d a b g i} : exec (.rems d a b g i) s = Sys2Proof.Machine.execRems d a b g i s := rfl
theorem exec_remu {d a b g i} : exec (.remu d a b g i) s = Sys2Proof.Machine.execRemu d a b g i s := rfl
theorem exec_mins {d a b g i} : exec (.mins d a b g i) s = Sys2Proof.Machine.execMins d a b g i s := rfl
theorem exec_minu {d a b g i} : exec (.minu d a b g i) s = Sys2Proof.Machine.execMinu d a b g i s := rfl
theorem exec_maxs {d a b g i} : exec (.maxs d a b g i) s = Sys2Proof.Machine.execMaxs d a b g i s := rfl
theorem exec_maxu {d a b g i} : exec (.maxu d a b g i) s = Sys2Proof.Machine.execMaxu d a b g i s := rfl
theorem exec_clz {d a g i} : exec (.clz d a g i) s = Sys2Proof.Machine.execClz d a g i s := rfl
theorem exec_ctz {d a g i} : exec (.ctz d a g i) s = Sys2Proof.Machine.execCtz d a g i s := rfl
theorem exec_popc {d a g i} : exec (.popc d a g i) s = Sys2Proof.Machine.execPopc d a g i s := rfl
theorem exec_brev {d a g i} : exec (.brev d a g i) s = Sys2Proof.Machine.execBrev d a g i s := rfl
theorem exec_bswap {d a g i} : exec (.bswap d a g i) s = Sys2Proof.Machine.execBswap d a g i s := rfl
theorem exec_sext {d a b g i} : exec (.sext d a b g i) s = Sys2Proof.Machine.execSext d a b g i s := rfl
theorem exec_zext {d a b g i} : exec (.zext d a b g i) s = Sys2Proof.Machine.execZext d a b g i s := rfl
theorem exec_sel {d a b p n} : exec (.sel d a b p n) s = Sys2Proof.Machine.execSel d a b p n s := rfl
theorem exec_addw {d a b g i} : exec (.addw d a b g i) s = Sys2Proof.Machine.execAddw d a b g i s := rfl
theorem exec_subw {d a b g i} : exec (.subw d a b g i) s = Sys2Proof.Machine.execSubw d a b g i s := rfl
theorem exec_mulw {d a b g i} : exec (.mulw d a b g i) s = Sys2Proof.Machine.execMulw d a b g i s := rfl
theorem exec_cmpeq {p a b g i} : exec (.cmpeq p a b g i) s = Sys2Proof.Machine.execCmpeq p a b g i s := rfl
theorem exec_cmpne {p a b g i} : exec (.cmpne p a b g i) s = Sys2Proof.Machine.execCmpne p a b g i s := rfl
theorem exec_cmplts {p a b g i} : exec (.cmplts p a b g i) s = Sys2Proof.Machine.execCmplts p a b g i s := rfl
theorem exec_cmpltu {p a b g i} : exec (.cmpltu p a b g i) s = Sys2Proof.Machine.execCmpltu p a b g i s := rfl
theorem exec_cmples {p a b g i} : exec (.cmples p a b g i) s = Sys2Proof.Machine.execCmples p a b g i s := rfl
theorem exec_cmpleu {p a b g i} : exec (.cmpleu p a b g i) s = Sys2Proof.Machine.execCmpleu p a b g i s := rfl
theorem exec_pand {p a b g i} : exec (.pand p a b g i) s = Sys2Proof.Machine.execPand p a b g i s := rfl
theorem exec_por {p a b g i} : exec (.por p a b g i) s = Sys2Proof.Machine.execPor p a b g i s := rfl
theorem exec_pxor {p a b g i} : exec (.pxor p a b g i) s = Sys2Proof.Machine.execPxor p a b g i s := rfl
theorem exec_pnot {p a g i} : exec (.pnot p a g i) s = Sys2Proof.Machine.execPnot p a g i s := rfl
theorem exec_movp {d g i} : exec (.movp d g i) s = Sys2Proof.Machine.execMovp d g i s := rfl
theorem exec_movtp {a g i} : exec (.movtp a g i) s = Sys2Proof.Machine.execMovtp a g i s := rfl
theorem exec_addi {d a i} : exec (.addi d a i) s = Sys2Proof.Machine.execAddi d a i s := rfl
theorem exec_andi {d a i} : exec (.andi d a i) s = Sys2Proof.Machine.execAndi d a i s := rfl
theorem exec_ori {d a i} : exec (.ori d a i) s = Sys2Proof.Machine.execOri d a i s := rfl
theorem exec_xori {d a i} : exec (.xori d a i) s = Sys2Proof.Machine.execXori d a i s := rfl
theorem exec_shli {d a i} : exec (.shli d a i) s = Sys2Proof.Machine.execShli d a i s := rfl
theorem exec_shri {d a i} : exec (.shri d a i) s = Sys2Proof.Machine.execShri d a i s := rfl
theorem exec_sari {d a i} : exec (.sari d a i) s = Sys2Proof.Machine.execSari d a i s := rfl
theorem exec_muli {d a i} : exec (.muli d a i) s = Sys2Proof.Machine.execMuli d a i s := rfl
theorem exec_li {d i} : exec (.li d i) s = Sys2Proof.Machine.execLi d i s := rfl
theorem exec_lix {d a i} : exec (.lix d a i) s = Sys2Proof.Machine.execLix d a i s := rfl
theorem exec_cmpeqi {p a i} : exec (.cmpeqi p a i) s = Sys2Proof.Machine.execCmpeqi p a i s := rfl
theorem exec_cmpltsi {p a i} : exec (.cmpltsi p a i) s = Sys2Proof.Machine.execCmpltsi p a i s := rfl
theorem exec_cmpltui {p a i} : exec (.cmpltui p a i) s = Sys2Proof.Machine.execCmpltui p a i s := rfl
theorem exec_ldb {d b w o} : exec (.ldb d b w o) s = Sys2Proof.Machine.execLdb d b w o s := rfl
theorem exec_ldbu {d b w o} : exec (.ldbu d b w o) s = Sys2Proof.Machine.execLdbu d b w o s := rfl
theorem exec_ldh {d b w o} : exec (.ldh d b w o) s = Sys2Proof.Machine.execLdh d b w o s := rfl
theorem exec_ldhu {d b w o} : exec (.ldhu d b w o) s = Sys2Proof.Machine.execLdhu d b w o s := rfl
theorem exec_ldw {d b w o} : exec (.ldw d b w o) s = Sys2Proof.Machine.execLdw d b w o s := rfl
theorem exec_ldwu {d b w o} : exec (.ldwu d b w o) s = Sys2Proof.Machine.execLdwu d b w o s := rfl
theorem exec_ldd {d b w o} : exec (.ldd d b w o) s = Sys2Proof.Machine.execLdd d b w o s := rfl
theorem exec_stb {sel b w o} : exec (.stb sel b w o) s = Sys2Proof.Machine.execStb sel b w o s := rfl
theorem exec_sth {sel b w o} : exec (.sth sel b w o) s = Sys2Proof.Machine.execSth sel b w o s := rfl
theorem exec_stw {sel b w o} : exec (.stw sel b w o) s = Sys2Proof.Machine.execStw sel b w o s := rfl
theorem exec_std {sel b w o} : exec (.std sel b w o) s = Sys2Proof.Machine.execStd sel b w o s := rfl
theorem exec_ldro {d b w o} : exec (.ldro d b w o) s = Sys2Proof.Machine.execLdro d b w o s := rfl
theorem exec_ldacq {d b w c o} : exec (.ldacq d b w c o) s = Sys2Proof.Machine.execLdacq d b w c o s := rfl
theorem exec_strel {sel b w c o} : exec (.strel sel b w c o) s = Sys2Proof.Machine.execStrel sel b w c o s := rfl
theorem exec_pfl2 {b w o} : exec (.pfl2 b w o) s = Sys2Proof.Machine.execPfl2 b w o s := rfl
theorem exec_br {p i d} : exec (.br p i d) s = Sys2Proof.Machine.execBr p i d s := rfl
theorem exec_brn {p i d} : exec (.brn p i d) s = Sys2Proof.Machine.execBrn p i d s := rfl
theorem exec_call {p i d} : exec (.call p i d) s = Sys2Proof.Machine.execCall p i d s := rfl
theorem exec_jr {p i t} : exec (.jr p i t) s = Sys2Proof.Machine.execJr p i t s := rfl
theorem exec_callr {p i t} : exec (.callr p i t) s = Sys2Proof.Machine.execCallr p i t s := rfl
theorem exec_loop {l c n} : exec (.loop l c n) s = Sys2Proof.Machine.execLoop l c n s := rfl
theorem exec_loopi {l c n} : exec (.loopi l c n) s = Sys2Proof.Machine.execLoopi l c n s := rfl
theorem exec_endseg : exec (.endseg) s = Sys2Proof.Machine.execEndseg s := rfl
theorem exec_halt : exec (.halt) s = Sys2Proof.Machine.execHalt s := rfl
theorem exec_stgp {p} : exec (.stgp p) s = Sys2Proof.Machine.execStgp p s := rfl
theorem exec_trap {p i c} : exec (.trap p i c) s = Sys2Proof.Machine.execTrap p i c s := rfl
theorem exec_brk {t} : exec (.brk t) s = Sys2Proof.Machine.execBrk t s := rfl
theorem exec_nops {n} : exec (.nops n) s = Sys2Proof.Machine.execNops n s := rfl
theorem exec_nop : exec (.nop) s = Sys2Proof.Machine.execNop s := rfl
theorem exec_vadd {d a b} : exec (.vadd d a b) s = Sys2Proof.Machine.execVadd d a b s := rfl
theorem exec_vsub {d a b} : exec (.vsub d a b) s = Sys2Proof.Machine.execVsub d a b s := rfl
theorem exec_vmul {d a b} : exec (.vmul d a b) s = Sys2Proof.Machine.execVmul d a b s := rfl
theorem exec_vfma {d a b} : exec (.vfma d a b) s = Sys2Proof.Machine.execVfma d a b s := rfl
theorem exec_vfms {d a b} : exec (.vfms d a b) s = Sys2Proof.Machine.execVfms d a b s := rfl
theorem exec_vdiv {d a b} : exec (.vdiv d a b) s = Sys2Proof.Machine.execVdiv d a b s := rfl
theorem exec_vsqrt {d a} : exec (.vsqrt d a) s = Sys2Proof.Machine.execVsqrt d a s := rfl
theorem exec_vmin {d a b} : exec (.vmin d a b) s = Sys2Proof.Machine.execVmin d a b s := rfl
theorem exec_vmax {d a b} : exec (.vmax d a b) s = Sys2Proof.Machine.execVmax d a b s := rfl
theorem exec_vcmpeq {d a b} : exec (.vcmpeq d a b) s = Sys2Proof.Machine.execVcmpeq d a b s := rfl
theorem exec_vcmplt {d a b} : exec (.vcmplt d a b) s = Sys2Proof.Machine.execVcmplt d a b s := rfl
theorem exec_vcmple {d a b} : exec (.vcmple d a b) s = Sys2Proof.Machine.execVcmple d a b s := rfl
theorem exec_vabs {d a} : exec (.vabs d a) s = Sys2Proof.Machine.execVabs d a s := rfl
theorem exec_vneg {d a} : exec (.vneg d a) s = Sys2Proof.Machine.execVneg d a s := rfl
theorem exec_vsel {d a b} : exec (.vsel d a b) s = Sys2Proof.Machine.execVsel d a b s := rfl
theorem exec_vclass {d a} : exec (.vclass d a) s = Sys2Proof.Machine.execVclass d a s := rfl
theorem exec_vaddF64 {d a b} : exec (.vaddF64 d a b) s = Sys2Proof.Machine.execVaddF64 d a b s := rfl
theorem exec_vsubF64 {d a b} : exec (.vsubF64 d a b) s = Sys2Proof.Machine.execVsubF64 d a b s := rfl
theorem exec_vmulF64 {d a b} : exec (.vmulF64 d a b) s = Sys2Proof.Machine.execVmulF64 d a b s := rfl
theorem exec_vfmaF64 {d a b} : exec (.vfmaF64 d a b) s = Sys2Proof.Machine.execVfmaF64 d a b s := rfl
theorem exec_vfmsF64 {d a b} : exec (.vfmsF64 d a b) s = Sys2Proof.Machine.execVfmsF64 d a b s := rfl
theorem exec_vdivF64 {d a b} : exec (.vdivF64 d a b) s = Sys2Proof.Machine.execVdivF64 d a b s := rfl
theorem exec_vsqrtF64 {d a} : exec (.vsqrtF64 d a) s = Sys2Proof.Machine.execVsqrtF64 d a s := rfl
theorem exec_vminF64 {d a b} : exec (.vminF64 d a b) s = Sys2Proof.Machine.execVminF64 d a b s := rfl
theorem exec_vmaxF64 {d a b} : exec (.vmaxF64 d a b) s = Sys2Proof.Machine.execVmaxF64 d a b s := rfl
theorem exec_vcmpeqF64 {d a b} : exec (.vcmpeqF64 d a b) s = Sys2Proof.Machine.execVcmpeqF64 d a b s := rfl
theorem exec_vcmpltF64 {d a b} : exec (.vcmpltF64 d a b) s = Sys2Proof.Machine.execVcmpltF64 d a b s := rfl
theorem exec_vcmpleF64 {d a b} : exec (.vcmpleF64 d a b) s = Sys2Proof.Machine.execVcmpleF64 d a b s := rfl
theorem exec_vabsF64 {d a} : exec (.vabsF64 d a) s = Sys2Proof.Machine.execVabsF64 d a s := rfl
theorem exec_vnegF64 {d a} : exec (.vnegF64 d a) s = Sys2Proof.Machine.execVnegF64 d a s := rfl
theorem exec_vselF64 {d a b} : exec (.vselF64 d a b) s = Sys2Proof.Machine.execVselF64 d a b s := rfl
theorem exec_vclassF64 {d a} : exec (.vclassF64 d a) s = Sys2Proof.Machine.execVclassF64 d a s := rfl
theorem exec_viadd {d a b} : exec (.viadd d a b) s = Sys2Proof.Machine.execViadd d a b s := rfl
theorem exec_visub {d a b} : exec (.visub d a b) s = Sys2Proof.Machine.execVisub d a b s := rfl
theorem exec_vimul {d a b} : exec (.vimul d a b) s = Sys2Proof.Machine.execVimul d a b s := rfl
theorem exec_vimad {d a b} : exec (.vimad d a b) s = Sys2Proof.Machine.execVimad d a b s := rfl
theorem exec_vand {d a b} : exec (.vand d a b) s = Sys2Proof.Machine.execVand d a b s := rfl
theorem exec_vor {d a b} : exec (.vor d a b) s = Sys2Proof.Machine.execVor d a b s := rfl
theorem exec_vxor {d a b} : exec (.vxor d a b) s = Sys2Proof.Machine.execVxor d a b s := rfl
theorem exec_vshl {d a b} : exec (.vshl d a b) s = Sys2Proof.Machine.execVshl d a b s := rfl
theorem exec_vshr {d a b} : exec (.vshr d a b) s = Sys2Proof.Machine.execVshr d a b s := rfl
theorem exec_vsar {d a b} : exec (.vsar d a b) s = Sys2Proof.Machine.execVsar d a b s := rfl
theorem exec_vimin {d a b} : exec (.vimin d a b) s = Sys2Proof.Machine.execVimin d a b s := rfl
theorem exec_vimax {d a b} : exec (.vimax d a b) s = Sys2Proof.Machine.execVimax d a b s := rfl
theorem exec_vicmpeq {d a b} : exec (.vicmpeq d a b) s = Sys2Proof.Machine.execVicmpeq d a b s := rfl
theorem exec_vicmplt {d a b} : exec (.vicmplt d a b) s = Sys2Proof.Machine.execVicmplt d a b s := rfl
theorem exec_viadds {d a b} : exec (.viadds d a b) s = Sys2Proof.Machine.execViadds d a b s := rfl
theorem exec_vperm {d a b} : exec (.vperm d a b) s = Sys2Proof.Machine.execVperm d a b s := rfl
theorem exec_vmov {d a} : exec (.vmov d a) s = Sys2Proof.Machine.execVmov d a s := rfl
theorem exec_vbcst {d w} : exec (.vbcst d w) s = Sys2Proof.Machine.execVbcst d w s := rfl
theorem exec_vcvt {d a c} : exec (.vcvt d a c) s = Sys2Proof.Machine.execVcvt d a c s := rfl
theorem exec_vtrans {d a p f} : exec (.vtrans d a p f) s = Sys2Proof.Machine.execVtrans d a p f s := rfl
theorem exec_vred {d a c} : exec (.vred d a c) s = Sys2Proof.Machine.execVred d a c s := rfl
theorem exec_vldt {d a k} : exec (.vldt d a k) s = Sys2Proof.Machine.execVldt d a k s := rfl
theorem exec_vstt {sel a k} : exec (.vstt sel a k) s = Sys2Proof.Machine.execVstt sel a k s := rfl
theorem exec_vldg {d a w o} : exec (.vldg d a w o) s = Sys2Proof.Machine.execVldg d a w o s := rfl
theorem exec_vstg {sel a w o} : exec (.vstg sel a w o) s = Sys2Proof.Machine.execVstg sel a w o s := rfl
theorem exec_vqrd {d n} : exec (.vqrd d n) s = Sys2Proof.Machine.execVqrd d n s := rfl
theorem exec_vpop {d h} : exec (.vpop d h) s = Sys2Proof.Machine.execVpop d h s := rfl
theorem exec_vpush {sel h} : exec (.vpush sel h) s = Sys2Proof.Machine.execVpush sel h s := rfl
theorem exec_vext {a m k} : exec (.vext a m k) s = Sys2Proof.Machine.execVext a m k s := rfl
theorem exec_viota {d i} : exec (.viota d i) s = Sys2Proof.Machine.execViota d i s := rfl
theorem exec_vsplat {d a p k} : exec (.vsplat d a p k) s = Sys2Proof.Machine.execVsplat d a p k s := rfl
theorem exec_awld {sel} : exec (.awld sel) s = Sys2Proof.Machine.execAwld sel s := rfl
theorem exec_astrm {o i e} : exec (.astrm o i e) s = Sys2Proof.Machine.execAstrm o i e s := rfl
theorem exec_aext {n} : exec (.aext n) s = Sys2Proof.Machine.execAext n s := rfl
theorem exec_achk {sel p} : exec (.achk sel p) s = Sys2Proof.Machine.execAchk sel p s := rfl
theorem exec_aout {w} : exec (.aout w) s = Sys2Proof.Machine.execAout w s := rfl
theorem exec_aclr {k l g a} : exec (.aclr k l g a) s = Sys2Proof.Machine.execAclr k l g a s := rfl
theorem exec_asnap {sel d} : exec (.asnap sel d) s = Sys2Proof.Machine.execAsnap sel d s := rfl
theorem exec_await {k c} : exec (.await k c) s = Sys2Proof.Machine.execAwait k c s := rfl
theorem exec_asetl {k} : exec (.asetl k) s = Sys2Proof.Machine.execAsetl k s := rfl
theorem exec_aseed {c r sel} : exec (.aseed c r sel) s = Sys2Proof.Machine.execAseed c r sel s := rfl
theorem exec_amode {n sel m} : exec (.amode n sel m) s = Sys2Proof.Machine.execAmode n sel m s := rfl
theorem exec_agen {p} : exec (.agen p) s = Sys2Proof.Machine.execAgen p s := rfl
theorem exec_azone {e a z} : exec (.azone e a z) s = Sys2Proof.Machine.execAzone e a z s := rfl
theorem exec_cpy {e t b f k} : exec (.cpy e t b f k) s = Sys2Proof.Machine.execCpy e t b f k s := rfl
theorem exec_cpyo {e t b f sel} : exec (.cpyo e t b f sel) s = Sys2Proof.Machine.execCpyo e t b f sel s := rfl
theorem exec_cpyt {e t b f} : exec (.cpyt e t b f) s = Sys2Proof.Machine.execCpyt e t b f s := rfl
theorem exec_gath {e t b f i} : exec (.gath e t b f i) s = Sys2Proof.Machine.execGath e t b f i s := rfl
theorem exec_scat {e t b f i} : exec (.scat e t b f i) s = Sys2Proof.Machine.execScat e t b f i s := rfl
theorem exec_bpf {e t} : exec (.bpf e t) s = Sys2Proof.Machine.execBpf e t s := rfl
theorem exec_qcvt {e t b f sel k} : exec (.qcvt e t b f sel k) s = Sys2Proof.Machine.execQcvt e t b f sel k s := rfl
theorem exec_dqcvt {e t b f sel k} : exec (.dqcvt e t b f sel k) s = Sys2Proof.Machine.execDqcvt e t b f sel k s := rfl
theorem exec_nmpk {e t b f sel k} : exec (.nmpk e t b f sel k) s = Sys2Proof.Machine.execNmpk e t b f sel k s := rfl
theorem exec_nmup {e t b f sel k} : exec (.nmup e t b f sel k) s = Sys2Proof.Machine.execNmup e t b f sel k s := rfl
theorem exec_publ {e t b f x} : exec (.publ e t b f x) s = Sys2Proof.Machine.execPubl e t b f x s := rfl
theorem exec_qbnd {e u d n} : exec (.qbnd e u d n) s = Sys2Proof.Machine.execQbnd e u d n s := rfl
theorem exec_twait {e m} : exec (.twait e m) s = Sys2Proof.Machine.execTwait e m s := rfl
theorem exec_cfol {e t} : exec (.cfol e t) s = Sys2Proof.Machine.execCfol e t s := rfl
theorem exec_cabt {e m} : exec (.cabt e m) s = Sys2Proof.Machine.execCabt e m s := rfl
theorem exec_xpose {e t b f sel k eb} : exec (.xpose e t b f sel k eb) s = Sys2Proof.Machine.execXpose e t b f sel k eb s := rfl
theorem exec_aadd {d a b c o w} : exec (.aadd d a b c o w) s = Sys2Proof.Machine.execAadd d a b c o w s := rfl
theorem exec_aand {d a b c o w} : exec (.aand d a b c o w) s = Sys2Proof.Machine.execAand d a b c o w s := rfl
theorem exec_aor {d a b c o w} : exec (.aor d a b c o w) s = Sys2Proof.Machine.execAor d a b c o w s := rfl
theorem exec_axor {d a b c o w} : exec (.axor d a b c o w) s = Sys2Proof.Machine.execAxor d a b c o w s := rfl
theorem exec_amins {d a b c o w} : exec (.amins d a b c o w) s = Sys2Proof.Machine.execAmins d a b c o w s := rfl
theorem exec_aminu {d a b c o w} : exec (.aminu d a b c o w) s = Sys2Proof.Machine.execAminu d a b c o w s := rfl
theorem exec_amaxs {d a b c o w} : exec (.amaxs d a b c o w) s = Sys2Proof.Machine.execAmaxs d a b c o w s := rfl
theorem exec_amaxu {d a b c o w} : exec (.amaxu d a b c o w) s = Sys2Proof.Machine.execAmaxu d a b c o w s := rfl
theorem exec_axchg {d a b c o w} : exec (.axchg d a b c o w) s = Sys2Proof.Machine.execAxchg d a b c o w s := rfl
theorem exec_acas {d a b c o w} : exec (.acas d a b c o w) s = Sys2Proof.Machine.execAcas d a b c o w s := rfl
theorem exec_afadd32 {d a b c o} : exec (.afadd32 d a b c o) s = Sys2Proof.Machine.execAfadd32 d a b c o s := rfl
theorem exec_afadd64 {d a b c o} : exec (.afadd64 d a b c o) s = Sys2Proof.Machine.execAfadd64 d a b c o s := rfl
theorem exec_barinit {a b c o} : exec (.barinit a b c o) s = Sys2Proof.Machine.execBarinit a b c o s := rfl
theorem exec_barrive {d a c o} : exec (.barrive d a c o) s = Sys2Proof.Machine.execBarrive d a c o s := rfl
theorem exec_barriveJoin {d a c o} : exec (.barriveJoin d a c o) s = Sys2Proof.Machine.execBarriveJoin d a c o s := rfl
theorem exec_barwait {d a b c o} : exec (.barwait d a b c o) s = Sys2Proof.Machine.execBarwait d a b c o s := rfl
theorem exec_baraw {d a c o} : exec (.baraw d a c o) s = Sys2Proof.Machine.execBaraw d a c o s := rfl
theorem exec_fence {c o} : exec (.fence c o) s = Sys2Proof.Machine.execFence c o s := rfl
theorem exec_ared {n a b c o w} : exec (.ared n a b c o w) s = Sys2Proof.Machine.execAred n a b c o w s := rfl
theorem exec_syncq {d a c o} : exec (.syncq d a c o) s = Sys2Proof.Machine.execSyncq d a c o s := rfl
theorem exec_csrr {d c} : exec (.csrr d c) s = Sys2Proof.Machine.execCsrr d c s := rfl
theorem exec_csrw {d a c} : exec (.csrw d a c) s = Sys2Proof.Machine.execCsrw d a c s := rfl
theorem exec_csrs {d a c} : exec (.csrs d a c) s = Sys2Proof.Machine.execCsrs d a c s := rfl
theorem exec_csrc {d a c} : exec (.csrc d a c) s = Sys2Proof.Machine.execCsrc d a c s := rfl
theorem exec_talloc {a h} : exec (.talloc a h) s = Sys2Proof.Machine.execTalloc a h s := rfl
theorem exec_tfree {h} : exec (.tfree h) s = Sys2Proof.Machine.execTfree h s := rfl
theorem exec_bankacq {a p} : exec (.bankacq a p) s = Sys2Proof.Machine.execBankacq a p s := rfl
theorem exec_bankrel {a p} : exec (.bankrel a p) s = Sys2Proof.Machine.execBankrel a p s := rfl
theorem exec_ringadv {a t n} : exec (.ringadv a t n) s = Sys2Proof.Machine.execRingadv a t n s := rfl
theorem exec_ringcnt {d a} : exec (.ringcnt d a) s = Sys2Proof.Machine.execRingcnt d a s := rfl
theorem exec_stgw {a p r} : exec (.stgw a p r) s = Sys2Proof.Machine.execStgw a p r s := rfl
theorem exec_stgr {d p r} : exec (.stgr d p r) s = Sys2Proof.Machine.execStgr d p r s := rfl
theorem exec_valsetArr {b w} : exec (.valsetArr b w) s = Sys2Proof.Machine.execValsetArr b w s := rfl
theorem exec_valset {v b k n e w} : exec (.valset v b k n e w) s = Sys2Proof.Machine.execValset v b k n e w s := rfl
theorem exec_frd {d sel k} : exec (.frd d sel k) s = Sys2Proof.Machine.execFrd d sel k s := rfl
theorem exec_fwr {v sel k} : exec (.fwr v sel k) s = Sys2Proof.Machine.execFwr v sel k s := rfl
theorem exec_fwrAdvance {u} : exec (.fwrAdvance u) s = Sys2Proof.Machine.execFwrAdvance u s := rfl
theorem exec_fwrAbandonCommand {u e t} : exec (.fwrAbandonCommand u e t) s = Sys2Proof.Machine.execFwrAbandonCommand u e t s := rfl
theorem exec_fwrCancelPending {u n} : exec (.fwrCancelPending u n) s = Sys2Proof.Machine.execFwrCancelPending u n s := rfl
theorem exec_fresume {d k} : exec (.fresume d k) s = Sys2Proof.Machine.execFresume d k s := rfl
theorem exec_fkill {k} : exec (.fkill k) s = Sys2Proof.Machine.execFkill k s := rfl
theorem exec_farrive {d a c w k} : exec (.farrive d a c w k) s = Sys2Proof.Machine.execFarrive d a c w k s := rfl
theorem exec_fnext {d k} : exec (.fnext d k) s = Sys2Proof.Machine.execFnext d k s := rfl
theorem exec_fstep {d k} : exec (.fstep d k) s = Sys2Proof.Machine.execFstep d k s := rfl
theorem exec_curtdone : exec (.curtdone) s = Sys2Proof.Machine.execCurtdone s := rfl
theorem exec_rbseed {h l} : exec (.rbseed h l) s = Sys2Proof.Machine.execRbseed h l s := rfl
theorem exec_repmark {a t} : exec (.repmark a t) s = Sys2Proof.Machine.execRepmark a t s := rfl
theorem exec_l1flush {c} : exec (.l1flush c) s = Sys2Proof.Machine.execL1flush c s := rfl
theorem exec_l1inv {c} : exec (.l1inv c) s = Sys2Proof.Machine.execL1inv c s := rfl
theorem exec_tlbiAll {d} : exec (.tlbiAll d) s = Sys2Proof.Machine.execTlbiAll d s := rfl
theorem exec_tlbiRange {d a} : exec (.tlbiRange d a) s = Sys2Proof.Machine.execTlbiRange d a s := rfl
theorem exec_capdrop {k} : exec (.capdrop k) s = Sys2Proof.Machine.execCapdrop k s := rfl
theorem exec_annulledBundleIssue {u} : exec (.annulledBundleIssue u) s = Sys2Proof.Machine.execAnnulledBundleIssue u s := rfl
theorem exec_pendingWriteVisible {u n} : exec (.pendingWriteVisible u n) s = Sys2Proof.Machine.execPendingWriteVisible u n s := rfl
theorem exec_loadDataArrival {u req} : exec (.loadDataArrival u req) s = Sys2Proof.Machine.execLoadDataArrival u req s := rfl
theorem exec_holdLineRaise {u} : exec (.holdLineRaise u) s = Sys2Proof.Machine.execHoldLineRaise u s := rfl
theorem exec_afterIssueFreeze {u} : exec (.afterIssueFreeze u) s = Sys2Proof.Machine.execAfterIssueFreeze u s := rfl
theorem exec_dieLostFreeze {u d} : exec (.dieLostFreeze u d) s = Sys2Proof.Machine.execDieLostFreeze u d s := rfl
theorem exec_prompterFaultPolicy {u} : exec (.prompterFaultPolicy u) s = Sys2Proof.Machine.execPrompterFaultPolicy u s := rfl
theorem exec_restartableReexecution {u c} : exec (.restartableReexecution u c) s = Sys2Proof.Machine.execRestartableReexecution u c s := rfl
theorem exec_preemptionRequest {c} : exec (.preemptionRequest c) s = Sys2Proof.Machine.execPreemptionRequest c s := rfl
theorem exec_preemptPark {u} : exec (.preemptPark u) s = Sys2Proof.Machine.execPreemptPark u s := rfl
theorem exec_segmentSwitch {c} : exec (.segmentSwitch c) s = Sys2Proof.Machine.execSegmentSwitch c s := rfl
theorem exec_unitStart {u} : exec (.unitStart u) s = Sys2Proof.Machine.execUnitStart u s := rfl
theorem exec_wingsLoad {l c} : exec (.wingsLoad l c) s = Sys2Proof.Machine.execWingsLoad l c s := rfl
theorem exec_wingsSwap {c} : exec (.wingsSwap c) s = Sys2Proof.Machine.execWingsSwap c s := rfl
theorem exec_weightClearDone {c} : exec (.weightClearDone c) s = Sys2Proof.Machine.execWeightClearDone c s := rfl
theorem exec_rbStep {u} : exec (.rbStep u) s = Sys2Proof.Machine.execRbStep u s := rfl
theorem exec_l1OpComplete {c} : exec (.l1OpComplete c) s = Sys2Proof.Machine.execL1OpComplete c s := rfl
theorem exec_copyCommandStart {c e} : exec (.copyCommandStart c e) s = Sys2Proof.Machine.execCopyCommandStart c e s := rfl
theorem exec_copyCommandComplete {c e} : exec (.copyCommandComplete c e) s = Sys2Proof.Machine.execCopyCommandComplete c e s := rfl
theorem exec_streamSlabTransfer {c e} : exec (.streamSlabTransfer c e) s = Sys2Proof.Machine.execStreamSlabTransfer c e s := rfl
theorem exec_copyEngineFault {c e code addr} : exec (.copyEngineFault c e code addr) s = Sys2Proof.Machine.execCopyEngineFault c e code addr s := rfl
theorem exec_publCount {c e} : exec (.publCount c e) s = Sys2Proof.Machine.execPublCount c e s := rfl
theorem exec_flipNotice {b d} : exec (.flipNotice b d) s = Sys2Proof.Machine.execFlipNotice b d s := rfl
theorem exec_flipNoticeAck {b d} : exec (.flipNoticeAck b d) s = Sys2Proof.Machine.execFlipNoticeAck b d s := rfl
theorem exec_valsetPerform {n} : exec (.valsetPerform n) s = Sys2Proof.Machine.execValsetPerform n s := rfl
theorem exec_arrayCommandStart {c} : exec (.arrayCommandStart c) s = Sys2Proof.Machine.execArrayCommandStart c s := rfl
theorem exec_awldComplete {c} : exec (.awldComplete c) s = Sys2Proof.Machine.execAwldComplete c s := rfl
theorem exec_vectorLatch {c} : exec (.vectorLatch c) s = Sys2Proof.Machine.execVectorLatch c s := rfl
theorem exec_checkpointCopy {c} : exec (.checkpointCopy c) s = Sys2Proof.Machine.execCheckpointCopy c s := rfl
theorem exec_emitPublish {c} : exec (.emitPublish c) s = Sys2Proof.Machine.execEmitPublish c s := rfl
theorem exec_aoutPublish {c} : exec (.aoutPublish c) s = Sys2Proof.Machine.execAoutPublish c s := rfl
theorem exec_aclrComplete {c} : exec (.aclrComplete c) s = Sys2Proof.Machine.execAclrComplete c s := rfl
theorem exec_chainPartialSums {c} : exec (.chainPartialSums c) s = Sys2Proof.Machine.execChainPartialSums c s := rfl
theorem exec_chainEnd {c} : exec (.chainEnd c) s = Sys2Proof.Machine.execChainEnd c s := rfl
theorem exec_streamPoison {c row col inSet} : exec (.streamPoison c row col inSet) s = Sys2Proof.Machine.execStreamPoison c row col inSet s := rfl
theorem exec_syncEngineOperation {d} : exec (.syncEngineOperation d) s = Sys2Proof.Machine.execSyncEngineOperation d s := rfl
theorem exec_syncReply {d} : exec (.syncReply d) s = Sys2Proof.Machine.execSyncReply d s := rfl
theorem exec_retryReceived {d} : exec (.retryReceived d) s = Sys2Proof.Machine.execRetryReceived d s := rfl
theorem exec_pageMigration {asid va frame} : exec (.pageMigration asid va frame) s = Sys2Proof.Machine.execPageMigration asid va frame s := rfl
theorem exec_bufferRegistration {asid hbase pages phys0 phys1} : exec (.bufferRegistration asid hbase pages phys0 phys1) s = Sys2Proof.Machine.execBufferRegistration asid hbase pages phys0 phys1 s := rfl
theorem exec_gets {d line} : exec (.gets d line) s = Sys2Proof.Machine.execGets d line s := rfl
theorem exec_getm {d line} : exec (.getm d line) s = Sys2Proof.Machine.execGetm d line s := rfl
theorem exec_upg {d line} : exec (.upg d line) s = Sys2Proof.Machine.execUpg d line s := rfl
theorem exec_putm {d line} : exec (.putm d line) s = Sys2Proof.Machine.execPutm d line s := rfl
theorem exec_puto {d line} : exec (.puto d line) s = Sys2Proof.Machine.execPuto d line s := rfl
theorem exec_pute {d line} : exec (.pute d line) s = Sys2Proof.Machine.execPute d line s := rfl
theorem exec_puts {d line} : exec (.puts d line) s = Sys2Proof.Machine.execPuts d line s := rfl
theorem exec_dataS {d line} : exec (.dataS d line) s = Sys2Proof.Machine.execDataS d line s := rfl
theorem exec_dataE {d line} : exec (.dataE d line) s = Sys2Proof.Machine.execDataE d line s := rfl
theorem exec_dataM {d line} : exec (.dataM d line) s = Sys2Proof.Machine.execDataM d line s := rfl
theorem exec_datanf {d line} : exec (.datanf d line) s = Sys2Proof.Machine.execDatanf d line s := rfl
theorem exec_upgack {d line} : exec (.upgack d line) s = Sys2Proof.Machine.execUpgack d line s := rfl
theorem exec_inv {d line} : exec (.inv d line) s = Sys2Proof.Machine.execInv d line s := rfl
theorem exec_fwdgets {d line} : exec (.fwdgets d line) s = Sys2Proof.Machine.execFwdgets d line s := rfl
theorem exec_fwdgetsnf {d line} : exec (.fwdgetsnf d line) s = Sys2Proof.Machine.execFwdgetsnf d line s := rfl
theorem exec_fwdgetm {d line} : exec (.fwdgetm d line) s = Sys2Proof.Machine.execFwdgetm d line s := rfl
theorem exec_fwddata {d line} : exec (.fwddata d line) s = Sys2Proof.Machine.execFwddata d line s := rfl
theorem exec_invack {d line} : exec (.invack d line) s = Sys2Proof.Machine.execInvack d line s := rfl
theorem exec_fwdack {d line} : exec (.fwdack d line) s = Sys2Proof.Machine.execFwdack d line s := rfl
theorem exec_putack {d line} : exec (.putack d line) s = Sys2Proof.Machine.execPutack d line s := rfl
theorem exec_putackstale {d line} : exec (.putackstale d line) s = Sys2Proof.Machine.execPutackstale d line s := rfl
theorem exec_push {d line} : exec (.push d line) s = Sys2Proof.Machine.execPush d line s := rfl
theorem exec_rdset {d line} : exec (.rdset d line) s = Sys2Proof.Machine.execRdset d line s := rfl
theorem exec_rdinv {d line} : exec (.rdinv d line) s = Sys2Proof.Machine.execRdinv d line s := rfl
theorem exec_rdack {d line} : exec (.rdack d line) s = Sys2Proof.Machine.execRdack d line s := rfl
theorem exec_memoryFill {line} : exec (.memoryFill line) s = Sys2Proof.Machine.execMemoryFill line s := rfl
theorem exec_redirectedRead {d line} : exec (.redirectedRead d line) s = Sys2Proof.Machine.execRedirectedRead d line s := rfl
theorem exec_circuitSend {d} : exec (.circuitSend d) s = Sys2Proof.Machine.execCircuitSend d s := rfl
theorem exec_snoopTimerExpiry {d} : exec (.snoopTimerExpiry d) s = Sys2Proof.Machine.execSnoopTimerExpiry d s := rfl
theorem exec_linkTrainingComplete {d} : exec (.linkTrainingComplete d) s = Sys2Proof.Machine.execLinkTrainingComplete d s := rfl
theorem exec_linkTrainFail {d} : exec (.linkTrainFail d) s = Sys2Proof.Machine.execLinkTrainFail d s := rfl
theorem exec_translationWalk {asid va write c} : exec (.translationWalk asid va write c) s = Sys2Proof.Machine.execTranslationWalk asid va write c s := rfl
theorem exec_walkComplete {id} : exec (.walkComplete id) s = Sys2Proof.Machine.execWalkComplete id s := rfl
theorem exec_replayEventDelivery {u kind} : exec (.replayEventDelivery u kind) s = Sys2Proof.Machine.execReplayEventDelivery u kind s := rfl
theorem exec_gaddrWrite {asid g v} : exec (.gaddrWrite asid g v) s = Sys2Proof.Machine.execGaddrWrite asid g v s := rfl
theorem exec_cue {asid g} : exec (.cue asid g) s = Sys2Proof.Machine.execCue asid g s := rfl
theorem exec_transformDispatch {c} : exec (.transformDispatch c) s = Sys2Proof.Machine.execTransformDispatch c s := rfl
theorem exec_phaseBoundaryRelease {g} : exec (.phaseBoundaryRelease g) s = Sys2Proof.Machine.execPhaseBoundaryRelease g s := rfl
theorem exec_launchReleaseDone {l} : exec (.launchReleaseDone l) s = Sys2Proof.Machine.execLaunchReleaseDone l s := rfl
theorem exec_completionTarget {l} : exec (.completionTarget l) s = Sys2Proof.Machine.execCompletionTarget l s := rfl
theorem exec_cancelUnit {asid serial n} : exec (.cancelUnit asid serial n) s = Sys2Proof.Machine.execCancelUnit asid serial n s := rfl
theorem exec_cancelLaunch {asid serial} : exec (.cancelLaunch asid serial) s = Sys2Proof.Machine.execCancelLaunch asid serial s := rfl
theorem exec_cancelGraph {asid g} : exec (.cancelGraph asid g) s = Sys2Proof.Machine.execCancelGraph asid g s := rfl
theorem exec_cancelPhase {asid phase} : exec (.cancelPhase asid phase) s = Sys2Proof.Machine.execCancelPhase asid phase s := rfl
theorem exec_cancelJob {asid} : exec (.cancelJob asid) s = Sys2Proof.Machine.execCancelJob asid s := rfl
theorem exec_budgetPeriodStart {r} : exec (.budgetPeriodStart r) s = Sys2Proof.Machine.execBudgetPeriodStart r s := rfl
theorem exec_deadlineStrike {l} : exec (.deadlineStrike l) s = Sys2Proof.Machine.execDeadlineStrike l s := rfl
theorem exec_curtainMessage {l c} : exec (.curtainMessage l c) s = Sys2Proof.Machine.execCurtainMessage l c s := rfl
theorem exec_diversion {u} : exec (.diversion u) s = Sys2Proof.Machine.execDiversion u s := rfl
theorem exec_curtainNoentComplete {u} : exec (.curtainNoentComplete u) s = Sys2Proof.Machine.execCurtainNoentComplete u s := rfl
theorem exec_curtainOverrun {u} : exec (.curtainOverrun u) s = Sys2Proof.Machine.execCurtainOverrun u s := rfl
theorem exec_ptpMessage {offset arb} : exec (.ptpMessage offset arb) s = Sys2Proof.Machine.execPtpMessage offset arb s := rfl
theorem exec_ppsInput : exec (.ppsInput) s = Sys2Proof.Machine.execPpsInput s := rfl
theorem exec_ptmResponse {time} : exec (.ptmResponse time) s = Sys2Proof.Machine.execPtmResponse time s := rfl
theorem exec_holdoverEntry : exec (.holdoverEntry) s = Sys2Proof.Machine.execHoldoverEntry s := rfl
theorem exec_tkset {v} : exec (.tkset v) s = Sys2Proof.Machine.execTkset v s := rfl
theorem exec_tktaisRead : exec (.tktaisRead) s = Sys2Proof.Machine.execTktaisRead s := rfl
theorem exec_inboundWrite {bar addr data ro ido ep requester} : exec (.inboundWrite bar addr data ro ido ep requester) s = Sys2Proof.Machine.execInboundWrite bar addr data ro ido ep requester s := rfl
theorem exec_routeRelease {id n} : exec (.routeRelease id n) s = Sys2Proof.Machine.execRouteRelease id n s := rfl
theorem exec_routeAck {id n} : exec (.routeAck id n) s = Sys2Proof.Machine.execRouteAck id n s := rfl
theorem exec_inboundRead {bar addr len ro requester} : exec (.inboundRead bar addr len ro requester) s = Sys2Proof.Machine.execInboundRead bar addr len ro requester s := rfl
theorem exec_inboundReadRelease {id} : exec (.inboundReadRelease id) s = Sys2Proof.Machine.execInboundReadRelease id s := rfl
theorem exec_apctlWrite {v} : exec (.apctlWrite v) s = Sys2Proof.Machine.execApctlWrite v s := rfl
theorem exec_xctlWrite {v} : exec (.xctlWrite v) s = Sys2Proof.Machine.execXctlWrite v s := rfl
theorem exec_outboundLoadTimeout {req} : exec (.outboundLoadTimeout req) s = Sys2Proof.Machine.execOutboundLoadTimeout req s := rfl
theorem exec_hostLinkDown : exec (.hostLinkDown) s = Sys2Proof.Machine.execHostLinkDown s := rfl
theorem exec_estalPortTrained {p gen2 x4 peer} : exec (.estalPortTrained p gen2 x4 peer) s = Sys2Proof.Machine.execEstalPortTrained p gen2 x4 peer s := rfl
theorem exec_estalPortStatusWrite {p v} : exec (.estalPortStatusWrite p v) s = Sys2Proof.Machine.execEstalPortStatusWrite p v s := rfl
theorem exec_moduleReset : exec (.moduleReset) s = Sys2Proof.Machine.execModuleReset s := rfl
theorem exec_mreset {v} : exec (.mreset v) s = Sys2Proof.Machine.execMreset v s := rfl
theorem exec_attestationGo {v} : exec (.attestationGo v) s = Sys2Proof.Machine.execAttestationGo v s := rfl
theorem exec_attestationDone : exec (.attestationDone) s = Sys2Proof.Machine.execAttestationDone s := rfl
theorem exec_powerThrottle {on} : exec (.powerThrottle on) s = Sys2Proof.Machine.execPowerThrottle on s := rfl
theorem exec_thermalTrip : exec (.thermalTrip) s = Sys2Proof.Machine.execThermalTrip s := rfl
theorem exec_powerStageFault : exec (.powerStageFault) s = Sys2Proof.Machine.execPowerStageFault s := rfl
theorem exec_registerWrite {off v} : exec (.registerWrite off v) s = Sys2Proof.Machine.execRegisterWrite off v s := rfl
theorem exec_hubDieFault : exec (.hubDieFault) s = Sys2Proof.Machine.execHubDieFault s := rfl
theorem exec_estalLinkDown {p lanes} : exec (.estalLinkDown p lanes) s = Sys2Proof.Machine.execEstalLinkDown p lanes s := rfl
theorem exec_hostPortTrained : exec (.hostPortTrained) s = Sys2Proof.Machine.execHostPortTrained s := rfl
theorem exec_pushAcknowledgement {d line} : exec (.pushAcknowledgement d line) s = Sys2Proof.Machine.execPushAcknowledgement d line s := rfl
theorem exec_memoryWriteDone {line} : exec (.memoryWriteDone line) s = Sys2Proof.Machine.execMemoryWriteDone line s := rfl
theorem exec_shootDown {id d} : exec (.shootDown id d) s = Sys2Proof.Machine.execShootDown id d s := rfl
theorem exec_shootDownAck {id d} : exec (.shootDownAck id d) s = Sys2Proof.Machine.execShootDownAck id d s := rfl
theorem exec_outboundWriteAck {u dest} : exec (.outboundWriteAck u dest) s = Sys2Proof.Machine.execOutboundWriteAck u dest s := rfl
theorem exec_ideFailure : exec (.ideFailure) s = Sys2Proof.Machine.execIdeFailure s := rfl
theorem exec_correctableError : exec (.correctableError) s = Sys2Proof.Machine.execCorrectableError s := rfl
theorem exec_flitRetry {p} : exec (.flitRetry p) s = Sys2Proof.Machine.execFlitRetry p s := rfl
theorem exec_pctlWrite {asid v} : exec (.pctlWrite asid v) s = Sys2Proof.Machine.execPctlWrite asid v s := rfl

end Sys2Proof.Machine
end

