-- ==== Sys2Proof/Laws/State.lean ====
section
/-! SUPPORT.
What each update of the state changes and what it leaves: one lemma per field per update, true by unfolding, and what is
read at an index after a write there or elsewhere. -/

namespace Sys2Proof.Machine

/-! ### Updates of the state -/

@[simp] theorem State.setUnit_units (s : State) (u : Uid) (x : UnitSt) : (s.setUnit u x).units = s.units.set u x := rfl
@[simp] theorem State.setUnit_issue (s : State) (u : Uid) (x : UnitSt) : (s.setUnit u x).issue = s.issue := rfl
@[simp] theorem State.setUnit_clusters (s : State) (u : Uid) (x : UnitSt) : (s.setUnit u x).clusters = s.clusters := rfl
@[simp] theorem State.setUnit_dies (s : State) (u : Uid) (x : UnitSt) : (s.setUnit u x).dies = s.dies := rfl
@[simp] theorem State.setUnit_hub (s : State) (u : Uid) (x : UnitSt) : (s.setUnit u x).hub = s.hub := rfl
@[simp] theorem State.setUnit_mod (s : State) (u : Uid) (x : UnitSt) : (s.setUnit u x).mod = s.mod := rfl
@[simp] theorem State.setUnit_mem (s : State) (u : Uid) (x : UnitSt) : (s.setUnit u x).mem = s.mem := rfl
@[simp] theorem State.setUnit_poison (s : State) (u : Uid) (x : UnitSt) : (s.setUnit u x).poison = s.poison := rfl
@[simp] theorem State.setUnit_lineKeys (s : State) (u : Uid) (x : UnitSt) : (s.setUnit u x).lineKeys = s.lineKeys := rfl
@[simp] theorem State.setUnit_inputs (s : State) (u : Uid) (x : UnitSt) : (s.setUnit u x).inputs = s.inputs := rfl
@[simp] theorem State.setUnit_active (s : State) (u : Uid) (x : UnitSt) : (s.setUnit u x).active = s.active := rfl
@[simp] theorem State.setUnit_turn (s : State) (u : Uid) (x : UnitSt) : (s.setUnit u x).turn = s.turn := rfl
@[simp] theorem State.setUnit_nextReq (s : State) (u : Uid) (x : UnitSt) : (s.setUnit u x).nextReq = s.nextReq := rfl
@[simp] theorem State.setUnit_fresh (s : State) (u : Uid) (x : UnitSt) : (s.setUnit u x).fresh = s.fresh := rfl

@[simp] theorem State.modUnit_units (s : State) (u : Uid) (f : UnitSt → UnitSt) : (s.modUnit u f).units = s.units.modify u f := rfl
@[simp] theorem State.modUnit_issue (s : State) (u : Uid) (f : UnitSt → UnitSt) : (s.modUnit u f).issue = s.issue := rfl
@[simp] theorem State.modUnit_clusters (s : State) (u : Uid) (f : UnitSt → UnitSt) : (s.modUnit u f).clusters = s.clusters := rfl
@[simp] theorem State.modUnit_dies (s : State) (u : Uid) (f : UnitSt → UnitSt) : (s.modUnit u f).dies = s.dies := rfl
@[simp] theorem State.modUnit_hub (s : State) (u : Uid) (f : UnitSt → UnitSt) : (s.modUnit u f).hub = s.hub := rfl
@[simp] theorem State.modUnit_mod (s : State) (u : Uid) (f : UnitSt → UnitSt) : (s.modUnit u f).mod = s.mod := rfl
@[simp] theorem State.modUnit_mem (s : State) (u : Uid) (f : UnitSt → UnitSt) : (s.modUnit u f).mem = s.mem := rfl
@[simp] theorem State.modUnit_poison (s : State) (u : Uid) (f : UnitSt → UnitSt) : (s.modUnit u f).poison = s.poison := rfl
@[simp] theorem State.modUnit_lineKeys (s : State) (u : Uid) (f : UnitSt → UnitSt) : (s.modUnit u f).lineKeys = s.lineKeys := rfl
@[simp] theorem State.modUnit_inputs (s : State) (u : Uid) (f : UnitSt → UnitSt) : (s.modUnit u f).inputs = s.inputs := rfl
@[simp] theorem State.modUnit_active (s : State) (u : Uid) (f : UnitSt → UnitSt) : (s.modUnit u f).active = s.active := rfl
@[simp] theorem State.modUnit_turn (s : State) (u : Uid) (f : UnitSt → UnitSt) : (s.modUnit u f).turn = s.turn := rfl
@[simp] theorem State.modUnit_nextReq (s : State) (u : Uid) (f : UnitSt → UnitSt) : (s.modUnit u f).nextReq = s.nextReq := rfl
@[simp] theorem State.modUnit_fresh (s : State) (u : Uid) (f : UnitSt → UnitSt) : (s.modUnit u f).fresh = s.fresh := rfl

@[simp] theorem State.setCluster_units (s : State) (c : ClusterNo) (x : Cluster) : (s.setCluster c x).units = s.units := rfl
@[simp] theorem State.setCluster_issue (s : State) (c : ClusterNo) (x : Cluster) : (s.setCluster c x).issue = s.issue := rfl
@[simp] theorem State.setCluster_clusters (s : State) (c : ClusterNo) (x : Cluster) : (s.setCluster c x).clusters = s.clusters.set c x := rfl
@[simp] theorem State.setCluster_dies (s : State) (c : ClusterNo) (x : Cluster) : (s.setCluster c x).dies = s.dies := rfl
@[simp] theorem State.setCluster_hub (s : State) (c : ClusterNo) (x : Cluster) : (s.setCluster c x).hub = s.hub := rfl
@[simp] theorem State.setCluster_mod (s : State) (c : ClusterNo) (x : Cluster) : (s.setCluster c x).mod = s.mod := rfl
@[simp] theorem State.setCluster_mem (s : State) (c : ClusterNo) (x : Cluster) : (s.setCluster c x).mem = s.mem := rfl
@[simp] theorem State.setCluster_poison (s : State) (c : ClusterNo) (x : Cluster) : (s.setCluster c x).poison = s.poison := rfl
@[simp] theorem State.setCluster_lineKeys (s : State) (c : ClusterNo) (x : Cluster) : (s.setCluster c x).lineKeys = s.lineKeys := rfl
@[simp] theorem State.setCluster_inputs (s : State) (c : ClusterNo) (x : Cluster) : (s.setCluster c x).inputs = s.inputs := rfl
@[simp] theorem State.setCluster_active (s : State) (c : ClusterNo) (x : Cluster) : (s.setCluster c x).active = s.active := rfl
@[simp] theorem State.setCluster_turn (s : State) (c : ClusterNo) (x : Cluster) : (s.setCluster c x).turn = s.turn := rfl
@[simp] theorem State.setCluster_nextReq (s : State) (c : ClusterNo) (x : Cluster) : (s.setCluster c x).nextReq = s.nextReq := rfl
@[simp] theorem State.setCluster_fresh (s : State) (c : ClusterNo) (x : Cluster) : (s.setCluster c x).fresh = s.fresh := rfl

@[simp] theorem State.modCluster_units (s : State) (c : ClusterNo) (f : Cluster → Cluster) : (s.modCluster c f).units = s.units := rfl
@[simp] theorem State.modCluster_issue (s : State) (c : ClusterNo) (f : Cluster → Cluster) : (s.modCluster c f).issue = s.issue := rfl
@[simp] theorem State.modCluster_clusters (s : State) (c : ClusterNo) (f : Cluster → Cluster) : (s.modCluster c f).clusters = s.clusters.set c (f (s.cluster c)) := rfl
@[simp] theorem State.modCluster_dies (s : State) (c : ClusterNo) (f : Cluster → Cluster) : (s.modCluster c f).dies = s.dies := rfl
@[simp] theorem State.modCluster_hub (s : State) (c : ClusterNo) (f : Cluster → Cluster) : (s.modCluster c f).hub = s.hub := rfl
@[simp] theorem State.modCluster_mod (s : State) (c : ClusterNo) (f : Cluster → Cluster) : (s.modCluster c f).mod = s.mod := rfl
@[simp] theorem State.modCluster_mem (s : State) (c : ClusterNo) (f : Cluster → Cluster) : (s.modCluster c f).mem = s.mem := rfl
@[simp] theorem State.modCluster_poison (s : State) (c : ClusterNo) (f : Cluster → Cluster) : (s.modCluster c f).poison = s.poison := rfl
@[simp] theorem State.modCluster_lineKeys (s : State) (c : ClusterNo) (f : Cluster → Cluster) : (s.modCluster c f).lineKeys = s.lineKeys := rfl
@[simp] theorem State.modCluster_inputs (s : State) (c : ClusterNo) (f : Cluster → Cluster) : (s.modCluster c f).inputs = s.inputs := rfl
@[simp] theorem State.modCluster_active (s : State) (c : ClusterNo) (f : Cluster → Cluster) : (s.modCluster c f).active = s.active := rfl
@[simp] theorem State.modCluster_turn (s : State) (c : ClusterNo) (f : Cluster → Cluster) : (s.modCluster c f).turn = s.turn := rfl
@[simp] theorem State.modCluster_nextReq (s : State) (c : ClusterNo) (f : Cluster → Cluster) : (s.modCluster c f).nextReq = s.nextReq := rfl
@[simp] theorem State.modCluster_fresh (s : State) (c : ClusterNo) (f : Cluster → Cluster) : (s.modCluster c f).fresh = s.fresh := rfl

@[simp] theorem State.setDie_units (s : State) (d : DieNo) (x : Die) : (s.setDie d x).units = s.units := rfl
@[simp] theorem State.setDie_issue (s : State) (d : DieNo) (x : Die) : (s.setDie d x).issue = s.issue := rfl
@[simp] theorem State.setDie_clusters (s : State) (d : DieNo) (x : Die) : (s.setDie d x).clusters = s.clusters := rfl
@[simp] theorem State.setDie_dies (s : State) (d : DieNo) (x : Die) : (s.setDie d x).dies = s.dies.set d x := rfl
@[simp] theorem State.setDie_hub (s : State) (d : DieNo) (x : Die) : (s.setDie d x).hub = s.hub := rfl
@[simp] theorem State.setDie_mod (s : State) (d : DieNo) (x : Die) : (s.setDie d x).mod = s.mod := rfl
@[simp] theorem State.setDie_mem (s : State) (d : DieNo) (x : Die) : (s.setDie d x).mem = s.mem := rfl
@[simp] theorem State.setDie_poison (s : State) (d : DieNo) (x : Die) : (s.setDie d x).poison = s.poison := rfl
@[simp] theorem State.setDie_lineKeys (s : State) (d : DieNo) (x : Die) : (s.setDie d x).lineKeys = s.lineKeys := rfl
@[simp] theorem State.setDie_inputs (s : State) (d : DieNo) (x : Die) : (s.setDie d x).inputs = s.inputs := rfl
@[simp] theorem State.setDie_active (s : State) (d : DieNo) (x : Die) : (s.setDie d x).active = s.active := rfl
@[simp] theorem State.setDie_turn (s : State) (d : DieNo) (x : Die) : (s.setDie d x).turn = s.turn := rfl
@[simp] theorem State.setDie_nextReq (s : State) (d : DieNo) (x : Die) : (s.setDie d x).nextReq = s.nextReq := rfl
@[simp] theorem State.setDie_fresh (s : State) (d : DieNo) (x : Die) : (s.setDie d x).fresh = s.fresh := rfl

@[simp] theorem State.modDie_units (s : State) (d : DieNo) (f : Die → Die) : (s.modDie d f).units = s.units := rfl
@[simp] theorem State.modDie_issue (s : State) (d : DieNo) (f : Die → Die) : (s.modDie d f).issue = s.issue := rfl
@[simp] theorem State.modDie_clusters (s : State) (d : DieNo) (f : Die → Die) : (s.modDie d f).clusters = s.clusters := rfl
@[simp] theorem State.modDie_dies (s : State) (d : DieNo) (f : Die → Die) : (s.modDie d f).dies = s.dies.set d (f (s.die d)) := rfl
@[simp] theorem State.modDie_hub (s : State) (d : DieNo) (f : Die → Die) : (s.modDie d f).hub = s.hub := rfl
@[simp] theorem State.modDie_mod (s : State) (d : DieNo) (f : Die → Die) : (s.modDie d f).mod = s.mod := rfl
@[simp] theorem State.modDie_mem (s : State) (d : DieNo) (f : Die → Die) : (s.modDie d f).mem = s.mem := rfl
@[simp] theorem State.modDie_poison (s : State) (d : DieNo) (f : Die → Die) : (s.modDie d f).poison = s.poison := rfl
@[simp] theorem State.modDie_lineKeys (s : State) (d : DieNo) (f : Die → Die) : (s.modDie d f).lineKeys = s.lineKeys := rfl
@[simp] theorem State.modDie_inputs (s : State) (d : DieNo) (f : Die → Die) : (s.modDie d f).inputs = s.inputs := rfl
@[simp] theorem State.modDie_active (s : State) (d : DieNo) (f : Die → Die) : (s.modDie d f).active = s.active := rfl
@[simp] theorem State.modDie_turn (s : State) (d : DieNo) (f : Die → Die) : (s.modDie d f).turn = s.turn := rfl
@[simp] theorem State.modDie_nextReq (s : State) (d : DieNo) (f : Die → Die) : (s.modDie d f).nextReq = s.nextReq := rfl
@[simp] theorem State.modDie_fresh (s : State) (d : DieNo) (f : Die → Die) : (s.modDie d f).fresh = s.fresh := rfl

@[simp] theorem State.setHub_units (s : State) (h : Hub) : (s.setHub h).units = s.units := rfl
@[simp] theorem State.setHub_issue (s : State) (h : Hub) : (s.setHub h).issue = s.issue := rfl
@[simp] theorem State.setHub_clusters (s : State) (h : Hub) : (s.setHub h).clusters = s.clusters := rfl
@[simp] theorem State.setHub_dies (s : State) (h : Hub) : (s.setHub h).dies = s.dies := rfl
@[simp] theorem State.setHub_hub (s : State) (h : Hub) : (s.setHub h).hub = h := rfl
@[simp] theorem State.setHub_mod (s : State) (h : Hub) : (s.setHub h).mod = s.mod := rfl
@[simp] theorem State.setHub_mem (s : State) (h : Hub) : (s.setHub h).mem = s.mem := rfl
@[simp] theorem State.setHub_poison (s : State) (h : Hub) : (s.setHub h).poison = s.poison := rfl
@[simp] theorem State.setHub_lineKeys (s : State) (h : Hub) : (s.setHub h).lineKeys = s.lineKeys := rfl
@[simp] theorem State.setHub_inputs (s : State) (h : Hub) : (s.setHub h).inputs = s.inputs := rfl
@[simp] theorem State.setHub_active (s : State) (h : Hub) : (s.setHub h).active = s.active := rfl
@[simp] theorem State.setHub_turn (s : State) (h : Hub) : (s.setHub h).turn = s.turn := rfl
@[simp] theorem State.setHub_nextReq (s : State) (h : Hub) : (s.setHub h).nextReq = s.nextReq := rfl
@[simp] theorem State.setHub_fresh (s : State) (h : Hub) : (s.setHub h).fresh = s.fresh := rfl

@[simp] theorem State.modHub_units (s : State) (f : Hub → Hub) : (s.modHub f).units = s.units := rfl
@[simp] theorem State.modHub_issue (s : State) (f : Hub → Hub) : (s.modHub f).issue = s.issue := rfl
@[simp] theorem State.modHub_clusters (s : State) (f : Hub → Hub) : (s.modHub f).clusters = s.clusters := rfl
@[simp] theorem State.modHub_dies (s : State) (f : Hub → Hub) : (s.modHub f).dies = s.dies := rfl
@[simp] theorem State.modHub_hub (s : State) (f : Hub → Hub) : (s.modHub f).hub = f s.hub := rfl
@[simp] theorem State.modHub_mod (s : State) (f : Hub → Hub) : (s.modHub f).mod = s.mod := rfl
@[simp] theorem State.modHub_mem (s : State) (f : Hub → Hub) : (s.modHub f).mem = s.mem := rfl
@[simp] theorem State.modHub_poison (s : State) (f : Hub → Hub) : (s.modHub f).poison = s.poison := rfl
@[simp] theorem State.modHub_lineKeys (s : State) (f : Hub → Hub) : (s.modHub f).lineKeys = s.lineKeys := rfl
@[simp] theorem State.modHub_inputs (s : State) (f : Hub → Hub) : (s.modHub f).inputs = s.inputs := rfl
@[simp] theorem State.modHub_active (s : State) (f : Hub → Hub) : (s.modHub f).active = s.active := rfl
@[simp] theorem State.modHub_turn (s : State) (f : Hub → Hub) : (s.modHub f).turn = s.turn := rfl
@[simp] theorem State.modHub_nextReq (s : State) (f : Hub → Hub) : (s.modHub f).nextReq = s.nextReq := rfl
@[simp] theorem State.modHub_fresh (s : State) (f : Hub → Hub) : (s.modHub f).fresh = s.fresh := rfl

@[simp] theorem State.modWalk_units (s : State) (f : Walker → Walker) : (s.modWalk f).units = s.units := rfl
@[simp] theorem State.modWalk_issue (s : State) (f : Walker → Walker) : (s.modWalk f).issue = s.issue := rfl
@[simp] theorem State.modWalk_clusters (s : State) (f : Walker → Walker) : (s.modWalk f).clusters = s.clusters := rfl
@[simp] theorem State.modWalk_dies (s : State) (f : Walker → Walker) : (s.modWalk f).dies = s.dies := rfl
@[simp] theorem State.modWalk_hub (s : State) (f : Walker → Walker) : (s.modWalk f).hub = { s.hub with walk := f s.hub.walk } := rfl
@[simp] theorem State.modWalk_mod (s : State) (f : Walker → Walker) : (s.modWalk f).mod = s.mod := rfl
@[simp] theorem State.modWalk_mem (s : State) (f : Walker → Walker) : (s.modWalk f).mem = s.mem := rfl
@[simp] theorem State.modWalk_poison (s : State) (f : Walker → Walker) : (s.modWalk f).poison = s.poison := rfl
@[simp] theorem State.modWalk_lineKeys (s : State) (f : Walker → Walker) : (s.modWalk f).lineKeys = s.lineKeys := rfl
@[simp] theorem State.modWalk_inputs (s : State) (f : Walker → Walker) : (s.modWalk f).inputs = s.inputs := rfl
@[simp] theorem State.modWalk_active (s : State) (f : Walker → Walker) : (s.modWalk f).active = s.active := rfl
@[simp] theorem State.modWalk_turn (s : State) (f : Walker → Walker) : (s.modWalk f).turn = s.turn := rfl
@[simp] theorem State.modWalk_nextReq (s : State) (f : Walker → Walker) : (s.modWalk f).nextReq = s.nextReq := rfl
@[simp] theorem State.modWalk_fresh (s : State) (f : Walker → Walker) : (s.modWalk f).fresh = s.fresh := rfl

@[simp] theorem State.modDir_units (s : State) (f : Directory → Directory) : (s.modDir f).units = s.units := rfl
@[simp] theorem State.modDir_issue (s : State) (f : Directory → Directory) : (s.modDir f).issue = s.issue := rfl
@[simp] theorem State.modDir_clusters (s : State) (f : Directory → Directory) : (s.modDir f).clusters = s.clusters := rfl
@[simp] theorem State.modDir_dies (s : State) (f : Directory → Directory) : (s.modDir f).dies = s.dies := rfl
@[simp] theorem State.modDir_hub (s : State) (f : Directory → Directory) : (s.modDir f).hub = { s.hub with dir := f s.hub.dir } := rfl
@[simp] theorem State.modDir_mod (s : State) (f : Directory → Directory) : (s.modDir f).mod = s.mod := rfl
@[simp] theorem State.modDir_mem (s : State) (f : Directory → Directory) : (s.modDir f).mem = s.mem := rfl
@[simp] theorem State.modDir_poison (s : State) (f : Directory → Directory) : (s.modDir f).poison = s.poison := rfl
@[simp] theorem State.modDir_lineKeys (s : State) (f : Directory → Directory) : (s.modDir f).lineKeys = s.lineKeys := rfl
@[simp] theorem State.modDir_inputs (s : State) (f : Directory → Directory) : (s.modDir f).inputs = s.inputs := rfl
@[simp] theorem State.modDir_active (s : State) (f : Directory → Directory) : (s.modDir f).active = s.active := rfl
@[simp] theorem State.modDir_turn (s : State) (f : Directory → Directory) : (s.modDir f).turn = s.turn := rfl
@[simp] theorem State.modDir_nextReq (s : State) (f : Directory → Directory) : (s.modDir f).nextReq = s.nextReq := rfl
@[simp] theorem State.modDir_fresh (s : State) (f : Directory → Directory) : (s.modDir f).fresh = s.fresh := rfl

@[simp] theorem State.setIssue_units (s : State) (i : Issue) : (s.setIssue i).units = s.units := rfl
@[simp] theorem State.setIssue_issue (s : State) (i : Issue) : (s.setIssue i).issue = i := rfl
@[simp] theorem State.setIssue_clusters (s : State) (i : Issue) : (s.setIssue i).clusters = s.clusters := rfl
@[simp] theorem State.setIssue_dies (s : State) (i : Issue) : (s.setIssue i).dies = s.dies := rfl
@[simp] theorem State.setIssue_hub (s : State) (i : Issue) : (s.setIssue i).hub = s.hub := rfl
@[simp] theorem State.setIssue_mod (s : State) (i : Issue) : (s.setIssue i).mod = s.mod := rfl
@[simp] theorem State.setIssue_mem (s : State) (i : Issue) : (s.setIssue i).mem = s.mem := rfl
@[simp] theorem State.setIssue_poison (s : State) (i : Issue) : (s.setIssue i).poison = s.poison := rfl
@[simp] theorem State.setIssue_lineKeys (s : State) (i : Issue) : (s.setIssue i).lineKeys = s.lineKeys := rfl
@[simp] theorem State.setIssue_inputs (s : State) (i : Issue) : (s.setIssue i).inputs = s.inputs := rfl
@[simp] theorem State.setIssue_active (s : State) (i : Issue) : (s.setIssue i).active = s.active := rfl
@[simp] theorem State.setIssue_turn (s : State) (i : Issue) : (s.setIssue i).turn = s.turn := rfl
@[simp] theorem State.setIssue_nextReq (s : State) (i : Issue) : (s.setIssue i).nextReq = s.nextReq := rfl
@[simp] theorem State.setIssue_fresh (s : State) (i : Issue) : (s.setIssue i).fresh = s.fresh := rfl

@[simp] theorem State.setMod_units (s : State) (m : ModuleSt) : (s.setMod m).units = s.units := rfl
@[simp] theorem State.setMod_issue (s : State) (m : ModuleSt) : (s.setMod m).issue = s.issue := rfl
@[simp] theorem State.setMod_clusters (s : State) (m : ModuleSt) : (s.setMod m).clusters = s.clusters := rfl
@[simp] theorem State.setMod_dies (s : State) (m : ModuleSt) : (s.setMod m).dies = s.dies := rfl
@[simp] theorem State.setMod_hub (s : State) (m : ModuleSt) : (s.setMod m).hub = s.hub := rfl
@[simp] theorem State.setMod_mod (s : State) (m : ModuleSt) : (s.setMod m).mod = m := rfl
@[simp] theorem State.setMod_mem (s : State) (m : ModuleSt) : (s.setMod m).mem = s.mem := rfl
@[simp] theorem State.setMod_poison (s : State) (m : ModuleSt) : (s.setMod m).poison = s.poison := rfl
@[simp] theorem State.setMod_lineKeys (s : State) (m : ModuleSt) : (s.setMod m).lineKeys = s.lineKeys := rfl
@[simp] theorem State.setMod_inputs (s : State) (m : ModuleSt) : (s.setMod m).inputs = s.inputs := rfl
@[simp] theorem State.setMod_active (s : State) (m : ModuleSt) : (s.setMod m).active = s.active := rfl
@[simp] theorem State.setMod_turn (s : State) (m : ModuleSt) : (s.setMod m).turn = s.turn := rfl
@[simp] theorem State.setMod_nextReq (s : State) (m : ModuleSt) : (s.setMod m).nextReq = s.nextReq := rfl
@[simp] theorem State.setMod_fresh (s : State) (m : ModuleSt) : (s.setMod m).fresh = s.fresh := rfl

@[simp] theorem State.setMem_units (s : State) (m : List Host.Cell) : (s.setMem m).units = s.units := rfl
@[simp] theorem State.setMem_issue (s : State) (m : List Host.Cell) : (s.setMem m).issue = s.issue := rfl
@[simp] theorem State.setMem_clusters (s : State) (m : List Host.Cell) : (s.setMem m).clusters = s.clusters := rfl
@[simp] theorem State.setMem_dies (s : State) (m : List Host.Cell) : (s.setMem m).dies = s.dies := rfl
@[simp] theorem State.setMem_hub (s : State) (m : List Host.Cell) : (s.setMem m).hub = s.hub := rfl
@[simp] theorem State.setMem_mod (s : State) (m : List Host.Cell) : (s.setMem m).mod = s.mod := rfl
@[simp] theorem State.setMem_mem (s : State) (m : List Host.Cell) : (s.setMem m).mem = m := rfl
@[simp] theorem State.setMem_poison (s : State) (m : List Host.Cell) : (s.setMem m).poison = s.poison := rfl
@[simp] theorem State.setMem_lineKeys (s : State) (m : List Host.Cell) : (s.setMem m).lineKeys = s.lineKeys := rfl
@[simp] theorem State.setMem_inputs (s : State) (m : List Host.Cell) : (s.setMem m).inputs = s.inputs := rfl
@[simp] theorem State.setMem_active (s : State) (m : List Host.Cell) : (s.setMem m).active = s.active := rfl
@[simp] theorem State.setMem_turn (s : State) (m : List Host.Cell) : (s.setMem m).turn = s.turn := rfl
@[simp] theorem State.setMem_nextReq (s : State) (m : List Host.Cell) : (s.setMem m).nextReq = s.nextReq := rfl
@[simp] theorem State.setMem_fresh (s : State) (m : List Host.Cell) : (s.setMem m).fresh = s.fresh := rfl

@[simp] theorem State.modCtx_units (s : State) (a : BitVec 16) (f : Context → Context) : (s.modCtx a f).units = s.units := rfl
@[simp] theorem State.modCtx_issue (s : State) (a : BitVec 16) (f : Context → Context) : (s.modCtx a f).issue = s.issue := rfl
@[simp] theorem State.modCtx_clusters (s : State) (a : BitVec 16) (f : Context → Context) : (s.modCtx a f).clusters = s.clusters := rfl
@[simp] theorem State.modCtx_dies (s : State) (a : BitVec 16) (f : Context → Context) : (s.modCtx a f).dies = s.dies := rfl
@[simp] theorem State.modCtx_hub (s : State) (a : BitVec 16) (f : Context → Context) : (s.modCtx a f).hub = { s.hub with contexts := updateFirst (fun k => k.asid == a) f s.hub.contexts } := rfl
@[simp] theorem State.modCtx_mod (s : State) (a : BitVec 16) (f : Context → Context) : (s.modCtx a f).mod = s.mod := rfl
@[simp] theorem State.modCtx_mem (s : State) (a : BitVec 16) (f : Context → Context) : (s.modCtx a f).mem = s.mem := rfl
@[simp] theorem State.modCtx_poison (s : State) (a : BitVec 16) (f : Context → Context) : (s.modCtx a f).poison = s.poison := rfl
@[simp] theorem State.modCtx_lineKeys (s : State) (a : BitVec 16) (f : Context → Context) : (s.modCtx a f).lineKeys = s.lineKeys := rfl
@[simp] theorem State.modCtx_inputs (s : State) (a : BitVec 16) (f : Context → Context) : (s.modCtx a f).inputs = s.inputs := rfl
@[simp] theorem State.modCtx_active (s : State) (a : BitVec 16) (f : Context → Context) : (s.modCtx a f).active = s.active := rfl
@[simp] theorem State.modCtx_turn (s : State) (a : BitVec 16) (f : Context → Context) : (s.modCtx a f).turn = s.turn := rfl
@[simp] theorem State.modCtx_nextReq (s : State) (a : BitVec 16) (f : Context → Context) : (s.modCtx a f).nextReq = s.nextReq := rfl
@[simp] theorem State.modCtx_fresh (s : State) (a : BitVec 16) (f : Context → Context) : (s.modCtx a f).fresh = s.fresh := rfl

@[simp] theorem State.modLaunch_units (s : State) (l : Nat) (f : Launch → Launch) : (s.modLaunch l f).units = s.units := rfl
@[simp] theorem State.modLaunch_issue (s : State) (l : Nat) (f : Launch → Launch) : (s.modLaunch l f).issue = s.issue := rfl
@[simp] theorem State.modLaunch_clusters (s : State) (l : Nat) (f : Launch → Launch) : (s.modLaunch l f).clusters = s.clusters := rfl
@[simp] theorem State.modLaunch_dies (s : State) (l : Nat) (f : Launch → Launch) : (s.modLaunch l f).dies = s.dies := rfl
@[simp] theorem State.modLaunch_hub (s : State) (l : Nat) (f : Launch → Launch) : (s.modLaunch l f).hub = { s.hub with launches := s.hub.launches.modify l f } := rfl
@[simp] theorem State.modLaunch_mod (s : State) (l : Nat) (f : Launch → Launch) : (s.modLaunch l f).mod = s.mod := rfl
@[simp] theorem State.modLaunch_mem (s : State) (l : Nat) (f : Launch → Launch) : (s.modLaunch l f).mem = s.mem := rfl
@[simp] theorem State.modLaunch_poison (s : State) (l : Nat) (f : Launch → Launch) : (s.modLaunch l f).poison = s.poison := rfl
@[simp] theorem State.modLaunch_lineKeys (s : State) (l : Nat) (f : Launch → Launch) : (s.modLaunch l f).lineKeys = s.lineKeys := rfl
@[simp] theorem State.modLaunch_inputs (s : State) (l : Nat) (f : Launch → Launch) : (s.modLaunch l f).inputs = s.inputs := rfl
@[simp] theorem State.modLaunch_active (s : State) (l : Nat) (f : Launch → Launch) : (s.modLaunch l f).active = s.active := rfl
@[simp] theorem State.modLaunch_turn (s : State) (l : Nat) (f : Launch → Launch) : (s.modLaunch l f).turn = s.turn := rfl
@[simp] theorem State.modLaunch_nextReq (s : State) (l : Nat) (f : Launch → Launch) : (s.modLaunch l f).nextReq = s.nextReq := rfl
@[simp] theorem State.modLaunch_fresh (s : State) (l : Nat) (f : Launch → Launch) : (s.modLaunch l f).fresh = s.fresh := rfl

@[simp] theorem State.modBuf_units (s : State) (b : Nat) (f : TvBuf → TvBuf) : (s.modBuf b f).units = s.units := rfl
@[simp] theorem State.modBuf_issue (s : State) (b : Nat) (f : TvBuf → TvBuf) : (s.modBuf b f).issue = s.issue := rfl
@[simp] theorem State.modBuf_clusters (s : State) (b : Nat) (f : TvBuf → TvBuf) : (s.modBuf b f).clusters = s.clusters := rfl
@[simp] theorem State.modBuf_dies (s : State) (b : Nat) (f : TvBuf → TvBuf) : (s.modBuf b f).dies = s.dies := rfl
@[simp] theorem State.modBuf_mod (s : State) (b : Nat) (f : TvBuf → TvBuf) : (s.modBuf b f).mod = s.mod := rfl
@[simp] theorem State.modBuf_mem (s : State) (b : Nat) (f : TvBuf → TvBuf) : (s.modBuf b f).mem = s.mem := rfl
@[simp] theorem State.modBuf_poison (s : State) (b : Nat) (f : TvBuf → TvBuf) : (s.modBuf b f).poison = s.poison := rfl
@[simp] theorem State.modBuf_lineKeys (s : State) (b : Nat) (f : TvBuf → TvBuf) : (s.modBuf b f).lineKeys = s.lineKeys := rfl
@[simp] theorem State.modBuf_inputs (s : State) (b : Nat) (f : TvBuf → TvBuf) : (s.modBuf b f).inputs = s.inputs := rfl
@[simp] theorem State.modBuf_active (s : State) (b : Nat) (f : TvBuf → TvBuf) : (s.modBuf b f).active = s.active := rfl
@[simp] theorem State.modBuf_turn (s : State) (b : Nat) (f : TvBuf → TvBuf) : (s.modBuf b f).turn = s.turn := rfl
@[simp] theorem State.modBuf_nextReq (s : State) (b : Nat) (f : TvBuf → TvBuf) : (s.modBuf b f).nextReq = s.nextReq := rfl
@[simp] theorem State.modBuf_fresh (s : State) (b : Nat) (f : TvBuf → TvBuf) : (s.modBuf b f).fresh = s.fresh := rfl

@[simp] theorem State.modArray_units (s : State) (c : ClusterNo) (f : ArraySt → ArraySt) : (s.modArray c f).units = s.units := rfl
@[simp] theorem State.modArray_issue (s : State) (c : ClusterNo) (f : ArraySt → ArraySt) : (s.modArray c f).issue = s.issue := rfl
@[simp] theorem State.modArray_dies (s : State) (c : ClusterNo) (f : ArraySt → ArraySt) : (s.modArray c f).dies = s.dies := rfl
@[simp] theorem State.modArray_hub (s : State) (c : ClusterNo) (f : ArraySt → ArraySt) : (s.modArray c f).hub = s.hub := rfl
@[simp] theorem State.modArray_mod (s : State) (c : ClusterNo) (f : ArraySt → ArraySt) : (s.modArray c f).mod = s.mod := rfl
@[simp] theorem State.modArray_mem (s : State) (c : ClusterNo) (f : ArraySt → ArraySt) : (s.modArray c f).mem = s.mem := rfl
@[simp] theorem State.modArray_poison (s : State) (c : ClusterNo) (f : ArraySt → ArraySt) : (s.modArray c f).poison = s.poison := rfl
@[simp] theorem State.modArray_lineKeys (s : State) (c : ClusterNo) (f : ArraySt → ArraySt) : (s.modArray c f).lineKeys = s.lineKeys := rfl
@[simp] theorem State.modArray_inputs (s : State) (c : ClusterNo) (f : ArraySt → ArraySt) : (s.modArray c f).inputs = s.inputs := rfl
@[simp] theorem State.modArray_active (s : State) (c : ClusterNo) (f : ArraySt → ArraySt) : (s.modArray c f).active = s.active := rfl
@[simp] theorem State.modArray_turn (s : State) (c : ClusterNo) (f : ArraySt → ArraySt) : (s.modArray c f).turn = s.turn := rfl
@[simp] theorem State.modArray_nextReq (s : State) (c : ClusterNo) (f : ArraySt → ArraySt) : (s.modArray c f).nextReq = s.nextReq := rfl
@[simp] theorem State.modArray_fresh (s : State) (c : ClusterNo) (f : ArraySt → ArraySt) : (s.modArray c f).fresh = s.fresh := rfl

@[simp] theorem State.modSync_units (s : State) (d : DieNo) (f : SyncEngine → SyncEngine) : (s.modSync d f).units = s.units := rfl
@[simp] theorem State.modSync_issue (s : State) (d : DieNo) (f : SyncEngine → SyncEngine) : (s.modSync d f).issue = s.issue := rfl
@[simp] theorem State.modSync_clusters (s : State) (d : DieNo) (f : SyncEngine → SyncEngine) : (s.modSync d f).clusters = s.clusters := rfl
@[simp] theorem State.modSync_hub (s : State) (d : DieNo) (f : SyncEngine → SyncEngine) : (s.modSync d f).hub = s.hub := rfl
@[simp] theorem State.modSync_mod (s : State) (d : DieNo) (f : SyncEngine → SyncEngine) : (s.modSync d f).mod = s.mod := rfl
@[simp] theorem State.modSync_mem (s : State) (d : DieNo) (f : SyncEngine → SyncEngine) : (s.modSync d f).mem = s.mem := rfl
@[simp] theorem State.modSync_poison (s : State) (d : DieNo) (f : SyncEngine → SyncEngine) : (s.modSync d f).poison = s.poison := rfl
@[simp] theorem State.modSync_lineKeys (s : State) (d : DieNo) (f : SyncEngine → SyncEngine) : (s.modSync d f).lineKeys = s.lineKeys := rfl
@[simp] theorem State.modSync_inputs (s : State) (d : DieNo) (f : SyncEngine → SyncEngine) : (s.modSync d f).inputs = s.inputs := rfl
@[simp] theorem State.modSync_active (s : State) (d : DieNo) (f : SyncEngine → SyncEngine) : (s.modSync d f).active = s.active := rfl
@[simp] theorem State.modSync_turn (s : State) (d : DieNo) (f : SyncEngine → SyncEngine) : (s.modSync d f).turn = s.turn := rfl
@[simp] theorem State.modSync_nextReq (s : State) (d : DieNo) (f : SyncEngine → SyncEngine) : (s.modSync d f).nextReq = s.nextReq := rfl
@[simp] theorem State.modSync_fresh (s : State) (d : DieNo) (f : SyncEngine → SyncEngine) : (s.modSync d f).fresh = s.fresh := rfl

@[simp] theorem State.modEngine_units (s : State) (c : ClusterNo) (e : BitVec 1) (f : CopyEngine → CopyEngine) : (s.modEngine c e f).units = s.units := rfl
@[simp] theorem State.modEngine_issue (s : State) (c : ClusterNo) (e : BitVec 1) (f : CopyEngine → CopyEngine) : (s.modEngine c e f).issue = s.issue := rfl
@[simp] theorem State.modEngine_dies (s : State) (c : ClusterNo) (e : BitVec 1) (f : CopyEngine → CopyEngine) : (s.modEngine c e f).dies = s.dies := rfl
@[simp] theorem State.modEngine_hub (s : State) (c : ClusterNo) (e : BitVec 1) (f : CopyEngine → CopyEngine) : (s.modEngine c e f).hub = s.hub := rfl
@[simp] theorem State.modEngine_mod (s : State) (c : ClusterNo) (e : BitVec 1) (f : CopyEngine → CopyEngine) : (s.modEngine c e f).mod = s.mod := rfl
@[simp] theorem State.modEngine_mem (s : State) (c : ClusterNo) (e : BitVec 1) (f : CopyEngine → CopyEngine) : (s.modEngine c e f).mem = s.mem := rfl
@[simp] theorem State.modEngine_poison (s : State) (c : ClusterNo) (e : BitVec 1) (f : CopyEngine → CopyEngine) : (s.modEngine c e f).poison = s.poison := rfl
@[simp] theorem State.modEngine_lineKeys (s : State) (c : ClusterNo) (e : BitVec 1) (f : CopyEngine → CopyEngine) : (s.modEngine c e f).lineKeys = s.lineKeys := rfl
@[simp] theorem State.modEngine_inputs (s : State) (c : ClusterNo) (e : BitVec 1) (f : CopyEngine → CopyEngine) : (s.modEngine c e f).inputs = s.inputs := rfl
@[simp] theorem State.modEngine_active (s : State) (c : ClusterNo) (e : BitVec 1) (f : CopyEngine → CopyEngine) : (s.modEngine c e f).active = s.active := rfl
@[simp] theorem State.modEngine_turn (s : State) (c : ClusterNo) (e : BitVec 1) (f : CopyEngine → CopyEngine) : (s.modEngine c e f).turn = s.turn := rfl
@[simp] theorem State.modEngine_nextReq (s : State) (c : ClusterNo) (e : BitVec 1) (f : CopyEngine → CopyEngine) : (s.modEngine c e f).nextReq = s.nextReq := rfl
@[simp] theorem State.modEngine_fresh (s : State) (c : ClusterNo) (e : BitVec 1) (f : CopyEngine → CopyEngine) : (s.modEngine c e f).fresh = s.fresh := rfl

/-! ### Updates of a unit -/

@[simp] theorem UnitSt.modRun_ident (u : UnitSt) (f : RunSt → RunSt) : (u.modRun f).ident = u.ident := rfl
@[simp] theorem UnitSt.modRun_regs (u : UnitSt) (f : RunSt → RunSt) : (u.modRun f).regs = u.regs := rfl
@[simp] theorem UnitSt.modRun_csr (u : UnitSt) (f : RunSt → RunSt) : (u.modRun f).csr = u.csr := rfl
@[simp] theorem UnitSt.modRun_curt (u : UnitSt) (f : RunSt → RunSt) : (u.modRun f).curt = u.curt := rfl
@[simp] theorem UnitSt.modRun_flow (u : UnitSt) (f : RunSt → RunSt) : (u.modRun f).flow = u.flow := rfl
@[simp] theorem UnitSt.modRun_pend (u : UnitSt) (f : RunSt → RunSt) : (u.modRun f).pend = u.pend := rfl
@[simp] theorem UnitSt.modRun_drops (u : UnitSt) (f : RunSt → RunSt) : (u.modRun f).drops = u.drops := rfl
@[simp] theorem UnitSt.modRun_umem (u : UnitSt) (f : RunSt → RunSt) : (u.modRun f).umem = u.umem := rfl
@[simp] theorem UnitSt.modRun_eng (u : UnitSt) (f : RunSt → RunSt) : (u.modRun f).eng = u.eng := rfl
@[simp] theorem UnitSt.modRun_sync (u : UnitSt) (f : RunSt → RunSt) : (u.modRun f).sync = u.sync := rfl
@[simp] theorem UnitSt.modRun_run (u : UnitSt) (f : RunSt → RunSt) : (u.modRun f).run = f u.run := rfl

@[simp] theorem UnitSt.modCsr_ident (u : UnitSt) (f : Csrs → Csrs) : (u.modCsr f).ident = u.ident := rfl
@[simp] theorem UnitSt.modCsr_regs (u : UnitSt) (f : Csrs → Csrs) : (u.modCsr f).regs = u.regs := rfl
@[simp] theorem UnitSt.modCsr_csr (u : UnitSt) (f : Csrs → Csrs) : (u.modCsr f).csr = f u.csr := rfl
@[simp] theorem UnitSt.modCsr_curt (u : UnitSt) (f : Csrs → Csrs) : (u.modCsr f).curt = u.curt := rfl
@[simp] theorem UnitSt.modCsr_flow (u : UnitSt) (f : Csrs → Csrs) : (u.modCsr f).flow = u.flow := rfl
@[simp] theorem UnitSt.modCsr_pend (u : UnitSt) (f : Csrs → Csrs) : (u.modCsr f).pend = u.pend := rfl
@[simp] theorem UnitSt.modCsr_drops (u : UnitSt) (f : Csrs → Csrs) : (u.modCsr f).drops = u.drops := rfl
@[simp] theorem UnitSt.modCsr_umem (u : UnitSt) (f : Csrs → Csrs) : (u.modCsr f).umem = u.umem := rfl
@[simp] theorem UnitSt.modCsr_eng (u : UnitSt) (f : Csrs → Csrs) : (u.modCsr f).eng = u.eng := rfl
@[simp] theorem UnitSt.modCsr_sync (u : UnitSt) (f : Csrs → Csrs) : (u.modCsr f).sync = u.sync := rfl
@[simp] theorem UnitSt.modCsr_run (u : UnitSt) (f : Csrs → Csrs) : (u.modCsr f).run = u.run := rfl

@[simp] theorem UnitSt.modRegs_ident (u : UnitSt) (f : Regs → Regs) : (u.modRegs f).ident = u.ident := rfl
@[simp] theorem UnitSt.modRegs_regs (u : UnitSt) (f : Regs → Regs) : (u.modRegs f).regs = f u.regs := rfl
@[simp] theorem UnitSt.modRegs_csr (u : UnitSt) (f : Regs → Regs) : (u.modRegs f).csr = u.csr := rfl
@[simp] theorem UnitSt.modRegs_curt (u : UnitSt) (f : Regs → Regs) : (u.modRegs f).curt = u.curt := rfl
@[simp] theorem UnitSt.modRegs_flow (u : UnitSt) (f : Regs → Regs) : (u.modRegs f).flow = u.flow := rfl
@[simp] theorem UnitSt.modRegs_pend (u : UnitSt) (f : Regs → Regs) : (u.modRegs f).pend = u.pend := rfl
@[simp] theorem UnitSt.modRegs_drops (u : UnitSt) (f : Regs → Regs) : (u.modRegs f).drops = u.drops := rfl
@[simp] theorem UnitSt.modRegs_umem (u : UnitSt) (f : Regs → Regs) : (u.modRegs f).umem = u.umem := rfl
@[simp] theorem UnitSt.modRegs_eng (u : UnitSt) (f : Regs → Regs) : (u.modRegs f).eng = u.eng := rfl
@[simp] theorem UnitSt.modRegs_sync (u : UnitSt) (f : Regs → Regs) : (u.modRegs f).sync = u.sync := rfl
@[simp] theorem UnitSt.modRegs_run (u : UnitSt) (f : Regs → Regs) : (u.modRegs f).run = u.run := rfl

@[simp] theorem UnitSt.modFlow_ident (u : UnitSt) (f : Flow → Flow) : (u.modFlow f).ident = u.ident := rfl
@[simp] theorem UnitSt.modFlow_regs (u : UnitSt) (f : Flow → Flow) : (u.modFlow f).regs = u.regs := rfl
@[simp] theorem UnitSt.modFlow_csr (u : UnitSt) (f : Flow → Flow) : (u.modFlow f).csr = u.csr := rfl
@[simp] theorem UnitSt.modFlow_curt (u : UnitSt) (f : Flow → Flow) : (u.modFlow f).curt = u.curt := rfl
@[simp] theorem UnitSt.modFlow_flow (u : UnitSt) (f : Flow → Flow) : (u.modFlow f).flow = f u.flow := rfl
@[simp] theorem UnitSt.modFlow_pend (u : UnitSt) (f : Flow → Flow) : (u.modFlow f).pend = u.pend := rfl
@[simp] theorem UnitSt.modFlow_drops (u : UnitSt) (f : Flow → Flow) : (u.modFlow f).drops = u.drops := rfl
@[simp] theorem UnitSt.modFlow_umem (u : UnitSt) (f : Flow → Flow) : (u.modFlow f).umem = u.umem := rfl
@[simp] theorem UnitSt.modFlow_eng (u : UnitSt) (f : Flow → Flow) : (u.modFlow f).eng = u.eng := rfl
@[simp] theorem UnitSt.modFlow_sync (u : UnitSt) (f : Flow → Flow) : (u.modFlow f).sync = u.sync := rfl
@[simp] theorem UnitSt.modFlow_run (u : UnitSt) (f : Flow → Flow) : (u.modFlow f).run = u.run := rfl

@[simp] theorem UnitSt.modMem_ident (u : UnitSt) (f : UnitMem → UnitMem) : (u.modMem f).ident = u.ident := rfl
@[simp] theorem UnitSt.modMem_regs (u : UnitSt) (f : UnitMem → UnitMem) : (u.modMem f).regs = u.regs := rfl
@[simp] theorem UnitSt.modMem_csr (u : UnitSt) (f : UnitMem → UnitMem) : (u.modMem f).csr = u.csr := rfl
@[simp] theorem UnitSt.modMem_curt (u : UnitSt) (f : UnitMem → UnitMem) : (u.modMem f).curt = u.curt := rfl
@[simp] theorem UnitSt.modMem_flow (u : UnitSt) (f : UnitMem → UnitMem) : (u.modMem f).flow = u.flow := rfl
@[simp] theorem UnitSt.modMem_pend (u : UnitSt) (f : UnitMem → UnitMem) : (u.modMem f).pend = u.pend := rfl
@[simp] theorem UnitSt.modMem_drops (u : UnitSt) (f : UnitMem → UnitMem) : (u.modMem f).drops = u.drops := rfl
@[simp] theorem UnitSt.modMem_umem (u : UnitSt) (f : UnitMem → UnitMem) : (u.modMem f).umem = f u.umem := rfl
@[simp] theorem UnitSt.modMem_eng (u : UnitSt) (f : UnitMem → UnitMem) : (u.modMem f).eng = u.eng := rfl
@[simp] theorem UnitSt.modMem_sync (u : UnitSt) (f : UnitMem → UnitMem) : (u.modMem f).sync = u.sync := rfl
@[simp] theorem UnitSt.modMem_run (u : UnitSt) (f : UnitMem → UnitMem) : (u.modMem f).run = u.run := rfl

@[simp] theorem UnitSt.modEng_ident (u : UnitSt) (f : UnitEng → UnitEng) : (u.modEng f).ident = u.ident := rfl
@[simp] theorem UnitSt.modEng_regs (u : UnitSt) (f : UnitEng → UnitEng) : (u.modEng f).regs = u.regs := rfl
@[simp] theorem UnitSt.modEng_csr (u : UnitSt) (f : UnitEng → UnitEng) : (u.modEng f).csr = u.csr := rfl
@[simp] theorem UnitSt.modEng_curt (u : UnitSt) (f : UnitEng → UnitEng) : (u.modEng f).curt = u.curt := rfl
@[simp] theorem UnitSt.modEng_flow (u : UnitSt) (f : UnitEng → UnitEng) : (u.modEng f).flow = u.flow := rfl
@[simp] theorem UnitSt.modEng_pend (u : UnitSt) (f : UnitEng → UnitEng) : (u.modEng f).pend = u.pend := rfl
@[simp] theorem UnitSt.modEng_drops (u : UnitSt) (f : UnitEng → UnitEng) : (u.modEng f).drops = u.drops := rfl
@[simp] theorem UnitSt.modEng_umem (u : UnitSt) (f : UnitEng → UnitEng) : (u.modEng f).umem = u.umem := rfl
@[simp] theorem UnitSt.modEng_eng (u : UnitSt) (f : UnitEng → UnitEng) : (u.modEng f).eng = f u.eng := rfl
@[simp] theorem UnitSt.modEng_sync (u : UnitSt) (f : UnitEng → UnitEng) : (u.modEng f).sync = u.sync := rfl
@[simp] theorem UnitSt.modEng_run (u : UnitSt) (f : UnitEng → UnitEng) : (u.modEng f).run = u.run := rfl

@[simp] theorem UnitSt.modSyncSt_ident (u : UnitSt) (f : UnitSync → UnitSync) : (u.modSyncSt f).ident = u.ident := rfl
@[simp] theorem UnitSt.modSyncSt_regs (u : UnitSt) (f : UnitSync → UnitSync) : (u.modSyncSt f).regs = u.regs := rfl
@[simp] theorem UnitSt.modSyncSt_csr (u : UnitSt) (f : UnitSync → UnitSync) : (u.modSyncSt f).csr = u.csr := rfl
@[simp] theorem UnitSt.modSyncSt_curt (u : UnitSt) (f : UnitSync → UnitSync) : (u.modSyncSt f).curt = u.curt := rfl
@[simp] theorem UnitSt.modSyncSt_flow (u : UnitSt) (f : UnitSync → UnitSync) : (u.modSyncSt f).flow = u.flow := rfl
@[simp] theorem UnitSt.modSyncSt_pend (u : UnitSt) (f : UnitSync → UnitSync) : (u.modSyncSt f).pend = u.pend := rfl
@[simp] theorem UnitSt.modSyncSt_drops (u : UnitSt) (f : UnitSync → UnitSync) : (u.modSyncSt f).drops = u.drops := rfl
@[simp] theorem UnitSt.modSyncSt_umem (u : UnitSt) (f : UnitSync → UnitSync) : (u.modSyncSt f).umem = u.umem := rfl
@[simp] theorem UnitSt.modSyncSt_eng (u : UnitSt) (f : UnitSync → UnitSync) : (u.modSyncSt f).eng = u.eng := rfl
@[simp] theorem UnitSt.modSyncSt_sync (u : UnitSt) (f : UnitSync → UnitSync) : (u.modSyncSt f).sync = f u.sync := rfl
@[simp] theorem UnitSt.modSyncSt_run (u : UnitSt) (f : UnitSync → UnitSync) : (u.modSyncSt f).run = u.run := rfl

@[simp] theorem UnitSt.modCurt_ident (u : UnitSt) (f : Curt → Curt) : (u.modCurt f).ident = u.ident := rfl
@[simp] theorem UnitSt.modCurt_regs (u : UnitSt) (f : Curt → Curt) : (u.modCurt f).regs = u.regs := rfl
@[simp] theorem UnitSt.modCurt_csr (u : UnitSt) (f : Curt → Curt) : (u.modCurt f).csr = u.csr := rfl
@[simp] theorem UnitSt.modCurt_curt (u : UnitSt) (f : Curt → Curt) : (u.modCurt f).curt = f u.curt := rfl
@[simp] theorem UnitSt.modCurt_flow (u : UnitSt) (f : Curt → Curt) : (u.modCurt f).flow = u.flow := rfl
@[simp] theorem UnitSt.modCurt_pend (u : UnitSt) (f : Curt → Curt) : (u.modCurt f).pend = u.pend := rfl
@[simp] theorem UnitSt.modCurt_drops (u : UnitSt) (f : Curt → Curt) : (u.modCurt f).drops = u.drops := rfl
@[simp] theorem UnitSt.modCurt_umem (u : UnitSt) (f : Curt → Curt) : (u.modCurt f).umem = u.umem := rfl
@[simp] theorem UnitSt.modCurt_eng (u : UnitSt) (f : Curt → Curt) : (u.modCurt f).eng = u.eng := rfl
@[simp] theorem UnitSt.modCurt_sync (u : UnitSt) (f : Curt → Curt) : (u.modCurt f).sync = u.sync := rfl
@[simp] theorem UnitSt.modCurt_run (u : UnitSt) (f : Curt → Curt) : (u.modCurt f).run = u.run := rfl

/-! ### Reading at an index -/

@[simp] theorem State.unit?_setUnit_self {s : State} {i : Uid} {u x : UnitSt} (h : s.unit? i = some u) : (s.setUnit i x).unit? i = some x := by
  have : i < s.units.length := by
    simp only [State.unit?] at h
    exact (List.getElem?_eq_some_iff.mp h).1
  simp [State.unit?, State.setUnit, this]

@[simp] theorem State.unit?_setUnit_ne {s : State} {i j : Uid} {x : UnitSt} (h : i ≠ j) : (s.setUnit i x).unit? j = s.unit? j := by
  simp [State.unit?, State.setUnit, h]

@[simp] theorem State.unit?_modUnit_self {s : State} {i : Uid} {u : UnitSt} {f : UnitSt → UnitSt} (h : s.unit? i = some u) :
    (s.modUnit i f).unit? i = some (f u) := by
  simp only [State.unit?] at h
  simp [State.unit?, State.modUnit, h]

@[simp] theorem State.unit?_modUnit_ne {s : State} {i j : Uid} {f : UnitSt → UnitSt} (h : i ≠ j) : (s.modUnit i f).unit? j = s.unit? j := by
  simp [State.unit?, State.modUnit, h]

@[simp] theorem State.units_length_setUnit (s : State) (i : Uid) (x : UnitSt) : (s.setUnit i x).units.length = s.units.length := by simp

@[simp] theorem State.units_length_modUnit (s : State) (i : Uid) (f : UnitSt → UnitSt) : (s.modUnit i f).units.length = s.units.length := by simp

@[simp] theorem State.cluster_setCluster_self (s : State) (c : ClusterNo) (x : Cluster) : (s.setCluster c x).cluster c = x := by
  show (s.clusters.set c x)[c.val] = x
  simp

@[simp] theorem State.cluster_setCluster_ne {s : State} {c d : ClusterNo} {x : Cluster} (h : c ≠ d) : (s.setCluster c x).cluster d = s.cluster d := by
  have : (c : Nat) ≠ d := fun e => h (Fin.ext e)
  show (s.clusters.set c x)[d.val] = s.clusters[d.val]
  simp [this]

@[simp] theorem State.cluster_modCluster_self (s : State) (c : ClusterNo) (f : Cluster → Cluster) : (s.modCluster c f).cluster c = f (s.cluster c) := by
  simp [State.modCluster]

@[simp] theorem State.cluster_modCluster_ne {s : State} {c d : ClusterNo} {f : Cluster → Cluster} (h : c ≠ d) :
    (s.modCluster c f).cluster d = s.cluster d := by simp [State.modCluster, h]

@[simp] theorem State.die_setDie_self (s : State) (d : DieNo) (x : Die) : (s.setDie d x).die d = x := by
  show (s.dies.set d x)[d.val] = x
  simp

@[simp] theorem State.die_setDie_ne {s : State} {d e : DieNo} {x : Die} (h : d ≠ e) : (s.setDie d x).die e = s.die e := by
  have : (d : Nat) ≠ e := fun q => h (Fin.ext q)
  show (s.dies.set d x)[e.val] = s.dies[e.val]
  simp [this]

@[simp] theorem State.die_modDie_self (s : State) (d : DieNo) (f : Die → Die) : (s.modDie d f).die d = f (s.die d) := by simp [State.modDie]

@[simp] theorem State.die_modDie_ne {s : State} {d e : DieNo} {f : Die → Die} (h : d ≠ e) : (s.modDie d f).die e = s.die e := by
  simp [State.modDie, h]

/-- What stays of the parts that are read by an index, where another part changes. -/
@[simp] theorem State.unit?_setCluster (s : State) (c : ClusterNo) (x : Cluster) (i : Uid) : (s.setCluster c x).unit? i = s.unit? i := rfl
@[simp] theorem State.unit?_modCluster (s : State) (c : ClusterNo) (f : Cluster → Cluster) (i : Uid) : (s.modCluster c f).unit? i = s.unit? i := rfl
@[simp] theorem State.unit?_modDie (s : State) (d : DieNo) (f : Die → Die) (i : Uid) : (s.modDie d f).unit? i = s.unit? i := rfl
@[simp] theorem State.unit?_modHub (s : State) (f : Hub → Hub) (i : Uid) : (s.modHub f).unit? i = s.unit? i := rfl
@[simp] theorem State.unit?_modCtx (s : State) (a : BitVec 16) (f : Context → Context) (i : Uid) : (s.modCtx a f).unit? i = s.unit? i := rfl
@[simp] theorem State.unit?_modLaunch (s : State) (l : Nat) (f : Launch → Launch) (i : Uid) : (s.modLaunch l f).unit? i = s.unit? i := rfl
@[simp] theorem State.unit?_setIssue (s : State) (x : Issue) (i : Uid) : (s.setIssue x).unit? i = s.unit? i := rfl
@[simp] theorem State.unit?_setMod (s : State) (m : ModuleSt) (i : Uid) : (s.setMod m).unit? i = s.unit? i := rfl
@[simp] theorem State.cluster_setUnit (s : State) (i : Uid) (x : UnitSt) (c : ClusterNo) : (s.setUnit i x).cluster c = s.cluster c := rfl
@[simp] theorem State.cluster_modUnit (s : State) (i : Uid) (f : UnitSt → UnitSt) (c : ClusterNo) : (s.modUnit i f).cluster c = s.cluster c := rfl
@[simp] theorem State.cluster_modDie (s : State) (d : DieNo) (f : Die → Die) (c : ClusterNo) : (s.modDie d f).cluster c = s.cluster c := rfl
@[simp] theorem State.cluster_modHub (s : State) (f : Hub → Hub) (c : ClusterNo) : (s.modHub f).cluster c = s.cluster c := rfl
@[simp] theorem State.cluster_setIssue (s : State) (x : Issue) (c : ClusterNo) : (s.setIssue x).cluster c = s.cluster c := rfl
@[simp] theorem State.die_setUnit (s : State) (i : Uid) (x : UnitSt) (d : DieNo) : (s.setUnit i x).die d = s.die d := rfl
@[simp] theorem State.die_modUnit (s : State) (i : Uid) (f : UnitSt → UnitSt) (d : DieNo) : (s.modUnit i f).die d = s.die d := rfl
@[simp] theorem State.die_modCluster (s : State) (c : ClusterNo) (f : Cluster → Cluster) (d : DieNo) : (s.modCluster c f).die d = s.die d := rfl
@[simp] theorem State.die_modHub (s : State) (f : Hub → Hub) (d : DieNo) : (s.modHub f).die d = s.die d := rfl
@[simp] theorem State.die_setIssue (s : State) (x : Issue) (d : DieNo) : (s.setIssue x).die d = s.die d := rfl
@[simp] theorem State.ctx?_setUnit (s : State) (i : Uid) (x : UnitSt) (a : BitVec 16) : (s.setUnit i x).ctx? a = s.ctx? a := rfl
@[simp] theorem State.ctx?_modUnit (s : State) (i : Uid) (f : UnitSt → UnitSt) (a : BitVec 16) : (s.modUnit i f).ctx? a = s.ctx? a := rfl
@[simp] theorem State.ctx?_modCluster (s : State) (c : ClusterNo) (f : Cluster → Cluster) (a : BitVec 16) : (s.modCluster c f).ctx? a = s.ctx? a := rfl
@[simp] theorem State.ctx?_modDie (s : State) (d : DieNo) (f : Die → Die) (a : BitVec 16) : (s.modDie d f).ctx? a = s.ctx? a := rfl

end Sys2Proof.Machine
end

