-- ==== Sys2Proof/Laws/Memory.lean ====
section
/-! SUPPORT.
Byte memories: every operation keeps the canonical form, a byte written reads back, and every other byte reads as before. -/

namespace Sys2Proof.Machine

/-! ### The canonical form -/

@[simp] theorem Memory.read_nil (a : Nat) : Memory.read [] a = 0 := rfl
@[simp] theorem Memory.wf_nil : Memory.wf [] = true := rfl

/-- A lower bound may be lowered. -/
theorem Memory.wfFrom_mono {lo : Option Nat} {k : Nat} {m : List Host.Cell} (h : Memory.wfFrom (some k) m = true)
    (hk : ∀ l, lo = some l → l ≤ k) : Memory.wfFrom lo m = true := by
  cases m with
  | nil => rfl
  | cons x rest =>
    obtain ⟨y, b⟩ := x
    simp only [Memory.wfFrom, Bool.and_eq_true, decide_eq_true_eq] at h ⊢
    refine ⟨⟨?_, h.1.2⟩, h.2⟩
    cases lo with
    | none => rfl
    | some l => simpa using Nat.lt_of_le_of_lt (hk l rfl) h.1.1

/-- A write above a lower bound keeps the form above it. -/
theorem Memory.wfFrom_write {m : List Host.Cell} {a : Nat} {b : Byte} : ∀ {lo : Option Nat},
    Memory.wfFrom lo m = true → (∀ l, lo = some l → l < a) → Memory.wfFrom lo (Memory.write m a b) = true := by
  induction m with
  | nil =>
    intro lo _ hlo
    unfold Memory.write
    split
    · rfl
    · next hb =>
      have hb' : (b != Memory.blank) = true := by simpa using hb
      cases lo with
      | none => simp [Memory.wfFrom, hb']
      | some l => simpa [Memory.wfFrom, hb'] using hlo l rfl
  | cons x rest ih =>
    obtain ⟨k, v⟩ := x
    intro lo h hlo
    have h0 := h
    simp only [Memory.wfFrom, Bool.and_eq_true] at h
    obtain ⟨⟨h1, h2⟩, h3⟩ := h
    unfold Memory.write
    split
    · next hk =>
      subst hk
      split
      · apply Memory.wfFrom_mono h3
        intro l hl; exact Nat.le_of_lt (hlo l hl)
      · next hb =>
        have hb' : (b != Memory.blank) = true := by simpa using hb
        simp only [Memory.wfFrom, Bool.and_eq_true]
        exact ⟨⟨h1, hb'⟩, h3⟩
    · split
      · next hlt =>
        split
        · exact h0
        · next hb =>
          have hb' : (b != Memory.blank) = true := by simpa using hb
          simp only [Memory.wfFrom, Bool.and_eq_true, decide_eq_true_eq]
          refine ⟨⟨?_, hb'⟩, ⟨hlt, h2⟩, h3⟩
          cases lo with
          | none => rfl
          | some l => simpa using hlo l rfl
      · next hne hlt =>
        simp only [Memory.wfFrom, Bool.and_eq_true]
        refine ⟨⟨h1, h2⟩, ih h3 ?_⟩
        intro l hl
        cases hl
        omega

theorem Memory.wf_write {m : List Host.Cell} (a : Nat) (b : Byte) (h : Memory.wf m = true) :
    Memory.wf (Memory.write m a b) = true := Memory.wfFrom_write h (by simp)

theorem Memory.wf_writeBytes {m : List Host.Cell} (a : Nat) (bs : List Byte) (h : Memory.wf m = true) :
    Memory.wf (Memory.writeBytes m a bs) = true := by
  induction bs generalizing m a with
  | nil => exact h
  | cons b rest ih => exact ih (a + 1) (Memory.wf_write a b h)

theorem Memory.wf_writeLe {m : List Host.Cell} (a n v : Nat) (h : Memory.wf m = true) :
    Memory.wf (Memory.writeLe m a n v) = true := Memory.wf_writeBytes a _ h

/-- Reset memory has the form. -/
theorem Memory.wf_reset : Memory.wf State.reset.mem = true := rfl

/-! ### Read after write -/

/-- Nothing below a lower bound is listed. -/
theorem Memory.read_below {m : List Host.Cell} {k a : Nat} (h : Memory.wfFrom (some k) m = true) (ha : a ≤ k) : Memory.read m a = 0 := by
  cases m with
  | nil => rfl
  | cons x rest =>
    obtain ⟨y, b⟩ := x
    simp only [Memory.wfFrom, Bool.and_eq_true, decide_eq_true_eq] at h
    have hy : k < y := h.1.1
    unfold Memory.read
    rw [if_neg (by omega), if_pos (by omega)]
    rfl

/-- A byte written reads back, and every other address reads as before. -/
theorem Memory.read_write {m : List Host.Cell} {a : Nat} {b : Byte} (c : Nat) : ∀ {lo : Option Nat}, Memory.wfFrom lo m = true →
    Memory.read (Memory.write m a b) c = if c = a then b else Memory.read m c := by
  induction m with
  | nil =>
    intro lo _
    unfold Memory.write
    split
    · next hb => split <;> simp_all [Memory.read, Memory.blank]
    · split
      · next h => subst h; simp [Memory.read]
      · next h => simp [Memory.read, Ne.symm h]
  | cons x rest ih =>
    obtain ⟨k, v⟩ := x
    intro lo h
    simp only [Memory.wfFrom, Bool.and_eq_true] at h
    obtain ⟨⟨_, h2⟩, h3⟩ := h
    unfold Memory.write
    split
    · next hk =>
      subst hk
      by_cases hc : c = k
      · subst hc
        split
        · next hb => simp [Memory.read_below h3 (Nat.le_refl c), hb, Memory.blank]
        · simp [Memory.read]
      · rw [if_neg hc]
        have hkc : ¬ k = c := fun e => hc e.symm
        split
        · conv => rhs; rw [Memory.read, if_neg hkc]
          split
          · next hlt => exact Memory.read_below h3 (by omega)
          · rfl
        · simp [Memory.read, hkc]
    · next hne =>
      split
      · next hlt =>
        split
        · next hb =>
          by_cases hc : c = a
          · subst hc
            rw [if_pos rfl, Memory.read, if_neg hne, if_pos hlt, hb]
          · rw [if_neg hc]
        · by_cases hc : c = a
          · subst hc; simp [Memory.read]
          · rw [if_neg hc, Memory.read, if_neg (fun e => hc e.symm)]
            split
            · next hca => rw [Memory.read, if_neg (by omega), if_pos (by omega)]
            · rfl
      · next hlt =>
        rw [Memory.read, ih h3]
        by_cases hc : c = a
        · subst hc
          rw [if_neg hne, if_neg hlt, if_pos rfl, if_pos rfl]
        · rw [if_neg hc, if_neg hc]
          conv => rhs; rw [Memory.read]

theorem Memory.read_write_self {m : List Host.Cell} (a : Nat) (b : Byte) (h : Memory.wf m = true) :
    Memory.read (Memory.write m a b) a = b := by rw [Memory.read_write a h, if_pos rfl]

theorem Memory.read_write_ne {m : List Host.Cell} {a c : Nat} (b : Byte) (h : Memory.wf m = true) (hc : c ≠ a) :
    Memory.read (Memory.write m a b) c = Memory.read m c := by rw [Memory.read_write c h, if_neg hc]

/-- Bytes written read back. -/
theorem Memory.read_writeBytes {m : List Host.Cell} {a : Nat} {bs : List Byte} (c : Nat) (h : Memory.wf m = true) :
    Memory.read (Memory.writeBytes m a bs) c = if a ≤ c ∧ c < a + bs.length then bs.getD (c - a) 0 else Memory.read m c := by
  induction bs generalizing m a with
  | nil => rw [if_neg (by simp)]; rfl
  | cons b rest ih =>
    rw [Memory.writeBytes, ih (Memory.wf_write a b h), Memory.read_write c h]
    simp only [List.length_cons]
    by_cases h1 : a + 1 ≤ c ∧ c < a + 1 + rest.length
    · rw [if_pos h1, if_pos (by omega)]
      have : c - a = (c - (a + 1)) + 1 := by omega
      rw [this, List.getD_cons_succ]
    · rw [if_neg h1]
      by_cases h2 : c = a
      · subst h2
        simp
      · rw [if_neg h2, if_neg (by omega)]

@[simp] theorem Memory.length_readBytes (m : List Host.Cell) (a n : Nat) : (Memory.readBytes m a n).length = n := by
  induction n generalizing a with
  | zero => rfl
  | succ n ih => simp [Memory.readBytes, ih]

theorem Memory.getD_readBytes (m : List Host.Cell) (a n i : Nat) (h : i < n) : (Memory.readBytes m a n).getD i 0 = Memory.read m (a + i) := by
  induction n generalizing a i with
  | zero => omega
  | succ n ih =>
    cases i with
    | zero => rfl
    | succ i =>
      rw [Memory.readBytes, List.getD_cons_succ, ih (a + 1) i (by omega)]
      congr 1
      omega

@[simp] theorem length_leBytes (v n : Nat) : (leBytes v n).length = n := by
  induction n generalizing v with
  | zero => rfl
  | succ n ih => simp [leBytes, ih]

/-- The bytes of a number give it back. -/
theorem leNat_leBytes (n v : Nat) : leNat (leBytes v n) = v % 256 ^ n := by
  induction n generalizing v with
  | zero => simp [leBytes, leNat, Nat.mod_one]
  | succ n ih =>
    rw [leBytes, leNat, ih, BitVec.toNat_ofNat, Nat.pow_succ 256 n, Nat.mul_comm (256 ^ n) 256, Nat.mod_mul]

/-! ### The operations of the machine that write memory -/

@[simp] theorem writeMemLine_mem (s : State) (line : Nat) (v : BitVec 1024) (key : BitVec 8) :
    (writeMemLine s line v key).mem = Memory.writeBytes s.mem (128 * line) (bytesOfLine v) := by
  simp only [writeMemLine]

theorem writeMemLine_wf {s : State} (line : Nat) (v : BitVec 1024) (key : BitVec 8) (h : Memory.wf s.mem = true) :
    Memory.wf (writeMemLine s line v key).mem = true := by
  rw [writeMemLine_mem]
  exact Memory.wf_writeBytes (128 * line) (bytesOfLine v) h

@[simp] theorem levelWrite_mem (s : State) (c : ClusterNo) (l : BitVec 2) (a : Nat) (bs : List Byte) :
    (levelWrite s c l a bs).mem = s.mem := rfl

@[simp] theorem levelWrite_units (s : State) (c : ClusterNo) (l : BitVec 2) (a : Nat) (bs : List Byte) :
    (levelWrite s c l a bs).units = s.units := rfl

end Sys2Proof.Machine
end

