-- ==== Sys2Proof/Laws/Ops.lean ====
section
/-! SUPPORT.
What the shared operations of a slot can do: the order of its checks, the four ways a slot ends, and an entry in the
pending-write record.  A proof about an instruction cites these instead of unfolding `runSlot`. -/

namespace Sys2Proof.Machine

open Sys2Proof.Safety

/-! ### Checks -/

@[simp] theorem firstFail_nil : firstFail [] = .done := rfl
@[simp] theorem firstFail_done (l : List SlotResult) : firstFail (.done :: l) = firstFail l := rfl
@[simp] theorem firstFail_fault (c : BitVec 8) (a : Va) (l : List SlotResult) : firstFail (.fault c a :: l) = .fault c a := rfl
@[simp] theorem firstFail_wait (k : WaitKind) (l : List SlotResult) : firstFail (.wait k :: l) = .wait k := rfl
@[simp] theorem firstFail_hold (k : WaitKind) (l : List SlotResult) : firstFail (.hold k :: l) = .hold k := rfl

@[simp] theorem failIf_false (c : BitVec 8) (a : Va) : failIf false c a = .done := rfl
@[simp] theorem failIf_true (c : BitVec 8) (a : Va) : failIf true c a = .fault c a := rfl
@[simp] theorem illegalIf_false (u : UnitSt) : illegalIf u false = .done := rfl
@[simp] theorem illegalIf_true (u : UnitSt) : illegalIf u true = .fault cIllegalOp u.bundleVa := rfl

/-- The checks of a list pass together exactly when each does. -/
theorem firstFail_eq_done {l : List SlotResult} : firstFail l = .done ↔ ∀ x ∈ l, x = .done := by
  induction l with
  | nil => simp
  | cons x l ih => cases x <;> simp [firstFail, ih]

theorem noLend_of_unlent {s : State} {u : UnitSt} (h : Unlent s) : noLend s u = .done := by
  unfold Unlent at h
  simp [noLend, h]

theorem noLend_of_lent {s : State} {u : UnitSt} (h : ¬ Unlent s) : noLend s u = .fault cIllegalOp u.bundleVa := by
  have h' : (s.issue.lend != 0) = true := by simpa [Unlent] using h
  rw [noLend, h', illegalIf_true]

theorem stallCheck_of_noHazard {u : UnitSt} {reads : List Dest} {writes : List (Dest × Nat)} (h : NoHazard u reads writes) :
    stallCheck u reads writes = .done := by
  unfold NoHazard at h
  simp [stallCheck, h]

theorem stallCheck_of_hazard {u : UnitSt} {reads : List Dest} {writes : List (Dest × Nat)} (h : ¬ NoHazard u reads writes) :
    stallCheck u reads writes = .fault cUndersized u.bundleVa := by
  unfold NoHazard at h
  simp [stallCheck, h]

theorem privileged_of_prompter {u : UnitSt} (h : u.isPrompter = true) : privileged u = .done := by simp [privileged, h]

theorem privileged_of_not {u : UnitSt} (h : u.isPrompter = false) : privileged u = .fault cPrivilege u.bundleVa := by
  simp [privileged, h]

/-! ### The ends of a slot -/

section
variable {s : State} {u : UnitSt} {chk : State → UnitSt → SlotResult} {onWait eff : State → UnitSt → State}

theorem runSlot_done (h : AtIssue s u) (hc : chk s u = .done) : runSlot s chk eff = .next (done (eff s u)) := by
  unfold AtIssue at h
  simp only [runSlot, h, hc]
  rfl

theorem runSlot_fault {c : BitVec 8} {a : Va} (h : AtIssue s u) (hc : chk s u = .fault c a) :
    runSlot s chk eff = .next (faulted s c a) := by
  unfold AtIssue at h
  simp only [runSlot, h, hc]
  rfl

theorem runSlot_wait {k : WaitKind} (h : AtIssue s u) (hc : chk s u = .wait k) : runSlot s chk eff = .next (noteResult s (.wait k)) := by
  unfold AtIssue at h
  simp only [runSlot, h, hc]

theorem runSlot_hold {k : WaitKind} (h : AtIssue s u) (hc : chk s u = .hold k) : runSlot s chk eff = .next (noteResult s (.hold k)) := by
  unfold AtIssue at h
  simp only [runSlot, h, hc]

/-- A slot with a unit at issue is a next state. -/
theorem runSlot_runs (h : AtIssue s u) : Runs (runSlot s chk eff) := by
  cases hc : chk s u with
  | done => exact ⟨_, runSlot_done h hc⟩
  | fault c a => exact ⟨_, runSlot_fault h hc⟩
  | wait k => exact ⟨_, runSlot_wait h hc⟩
  | hold k => exact ⟨_, runSlot_hold h hc⟩

theorem runSlotW_done (h : AtIssue s u) (hc : chk s u = .done) : runSlotW s chk onWait eff = .next (done (eff s u)) := by
  unfold AtIssue at h
  simp only [runSlotW, h, hc]
  rfl

theorem runSlotW_fault {c : BitVec 8} {a : Va} (h : AtIssue s u) (hc : chk s u = .fault c a) :
    runSlotW s chk onWait eff = .next (faulted s c a) := by
  unfold AtIssue at h
  simp only [runSlotW, h, hc]
  rfl

theorem runSlotW_wait {k : WaitKind} (h : AtIssue s u) (hc : chk s u = .wait k) :
    runSlotW s chk onWait eff = .next (noteResult (onWait s u) (.wait k)) := by
  unfold AtIssue at h
  simp only [runSlotW, h, hc]

theorem runSlotW_hold {k : WaitKind} (h : AtIssue s u) (hc : chk s u = .hold k) :
    runSlotW s chk onWait eff = .next (noteResult (onWait s u) (.hold k)) := by
  unfold AtIssue at h
  simp only [runSlotW, h, hc]

theorem runSlotW_runs (h : AtIssue s u) : Runs (runSlotW s chk onWait eff) := by
  cases hc : chk s u with
  | done => exact ⟨_, runSlotW_done h hc⟩
  | fault c a => exact ⟨_, runSlotW_fault h hc⟩
  | wait k => exact ⟨_, runSlotW_wait h hc⟩
  | hold k => exact ⟨_, runSlotW_hold h hc⟩

/-- A slot that ends as done passed its checks, and its effect is all that happened. -/
theorem runSlot_inv {t : State} (h : AtIssue s u) (hr : runSlot s chk eff = .next t) (ht : t.issue.result = .done) :
    chk s u = .done ∧ t = done (eff s u) := by
  cases hc : chk s u with
  | done =>
    rw [runSlot_done h hc] at hr
    exact ⟨rfl, (Host.Outcome.next.inj hr).symm⟩
  | fault c a =>
    rw [runSlot_fault h hc] at hr
    cases hr
    exact absurd ht (by simp [faulted, noteResult])
  | wait k =>
    rw [runSlot_wait h hc] at hr
    cases hr
    exact absurd ht (by simp [noteResult])
  | hold k =>
    rw [runSlot_hold h hc] at hr
    cases hr
    exact absurd ht (by simp [noteResult])

end

/-! ### The result of a slot is noted -/

@[simp] theorem noteResult_units (s : State) (r : SlotResult) : (noteResult s r).units = s.units := rfl
@[simp] theorem noteResult_clusters (s : State) (r : SlotResult) : (noteResult s r).clusters = s.clusters := rfl
@[simp] theorem noteResult_dies (s : State) (r : SlotResult) : (noteResult s r).dies = s.dies := rfl
@[simp] theorem noteResult_hub (s : State) (r : SlotResult) : (noteResult s r).hub = s.hub := rfl
@[simp] theorem noteResult_mod (s : State) (r : SlotResult) : (noteResult s r).mod = s.mod := rfl
@[simp] theorem noteResult_mem (s : State) (r : SlotResult) : (noteResult s r).mem = s.mem := rfl
@[simp] theorem noteResult_unit? (s : State) (r : SlotResult) (i : Uid) : (noteResult s r).unit? i = s.unit? i := rfl
@[simp] theorem noteResult_result (s : State) (r : SlotResult) : (noteResult s r).issue.result = r := rfl

/-! ### The pending-write record -/

@[simp] theorem mkEntry_dataComes (s : State) (u : UnitSt) (d : Dest) (v : BitVec 512) (lat : Nat) (f : BitVec 5) :
    (mkEntry s u d v lat f).dataComes = false := rfl

@[simp] theorem push_discarded {u : UnitSt} {e : PEntry} (h : e.dest.discarded = true) (h' : e.dataComes = false) : u.push e = u := by
  simp [UnitSt.push, h, h']

/-- The data of a load to s0 is awaited beside the record (R113). -/
@[simp] theorem push_dropped {u : UnitSt} {e : PEntry} (h : e.dest.discarded = true) (h' : e.dataComes = true) :
    u.push e = { u with drops := u.drops ++ [e] } := by
  simp [UnitSt.push, h, h']

@[simp] theorem push_kept {u : UnitSt} {e : PEntry} (h : e.dest.discarded = false) : u.push e = { u with pend := u.pend ++ [e] } := by
  simp [UnitSt.push, h]

/-- A write to s0 makes no entry; one to another register makes one. -/
theorem schedule_eq (s : State) (i : Uid) (u : UnitSt) (d : Dest) (v : BitVec 512) (lat : Nat) (f : BitVec 5) :
    schedule s i u d v lat f = s.setUnit i (if d.discarded then u else { u with pend := u.pend ++ [mkEntry s u d v lat f] }) := by
  unfold schedule UnitSt.push
  rw [mkEntry_dataComes]
  rfl

/-- An entry in the record of the unit at issue changes nothing else. -/
theorem schedule_only {s : State} {u : UnitSt} {d : Dest} {v : BitVec 512} {lat : Nat} {f : BitVec 5} :
    SameBeyondUnits s (schedule s s.issue.me u d v lat f) ∧ OnlyRecord s (schedule s s.issue.me u d v lat f) u [d] := by
  refine ⟨⟨rfl, rfl, rfl, rfl, rfl, rfl, rfl, rfl, rfl, rfl, rfl, rfl⟩, ?_⟩
  rw [schedule_eq]
  by_cases h : d.discarded = true
  · exact ⟨[], by simp, by simp [h]⟩
  · refine ⟨[mkEntry s u d v lat f], ?_, by simp [h]⟩
    intro e he
    simp only [List.mem_singleton] at he
    subst he
    exact ⟨by simp [mkEntry], by simpa [mkEntry] using h⟩

/-- The bits settled so far bound the root from below, and with those left from above. -/
theorem rootBits_sqrt (k n r : Nat) (h : r * r ≤ n) (h' : n < (r + 2 ^ k) * (r + 2 ^ k)) :
    rootBits k n r = Nat.sqrt n := by
  induction k generalizing r with
  | zero => exact Nat.eq_sqrt.2 ⟨h, by simpa [rootBits] using h'⟩
  | succ k ih =>
    unfold rootBits
    split
    · exact ih _ ‹_› (by rwa [Nat.add_assoc, ← Nat.two_mul, ← Nat.pow_succ'])
    · exact ih _ h (by omega)

/-- `isqrt` is the integer root. -/
theorem isqrt_eq (n : Nat) : isqrt n = Nat.sqrt n := by
  refine rootBits_sqrt _ n 0 (by simp) ?_
  rw [Nat.zero_add, ← Nat.pow_add]
  exact Nat.lt_of_lt_of_le Nat.lt_log2_self (Nat.pow_le_pow_right (by omega) (by omega))

end Sys2Proof.Machine
end

