-- ==== Sys2Proof/Laws/PerInstr.lean ====
section
/-! SUPPORT.
The encoding family: a well-formed instruction's word decodes to that instruction.  One lemma per constructor, from one
lemma per layout of a word and one per class of slot. -/

namespace Sys2Proof.Laws

/-- Decoding the word of a well-formed instruction gives the instruction back. -/
def Encoding.Statement (i : Instr) : Prop := i.wellFormed = true → decodeSlot (encode i) = .instr i

/-- The low bits of a field. -/
theorem low_bits (w : SlotWord) (p k n : Nat) (v : BitVec n) (hk : k ≤ n) (h : w.extractLsb' p n = v) :
    w.extractLsb' p k = v.setWidth k := by
  subst h
  apply BitVec.eq_of_getLsbD_eq
  intro i hi
  simp [hi, Nat.lt_of_lt_of_le hi hk]

theorem layout_4_6_6_6_6_3_1 (f0 : BitVec 4) (f1 : BitVec 6) (f2 : BitVec 6) (f3 : BitVec 6) (f4 : BitVec 6) (f5 : BitVec 3) (f6 : BitVec 1)
    (h : 4+6+6+6+6+3+1 = 32) :
      (BitVec.cast h (f0 ++ f1 ++ f2 ++ f3 ++ f4 ++ f5 ++ f6)).extractLsb' 28 4 = f0 ∧
      (BitVec.cast h (f0 ++ f1 ++ f2 ++ f3 ++ f4 ++ f5 ++ f6)).extractLsb' 22 6 = f1 ∧
      (BitVec.cast h (f0 ++ f1 ++ f2 ++ f3 ++ f4 ++ f5 ++ f6)).extractLsb' 16 6 = f2 ∧
      (BitVec.cast h (f0 ++ f1 ++ f2 ++ f3 ++ f4 ++ f5 ++ f6)).extractLsb' 10 6 = f3 ∧
      (BitVec.cast h (f0 ++ f1 ++ f2 ++ f3 ++ f4 ++ f5 ++ f6)).extractLsb' 4 6 = f4 ∧
      (BitVec.cast h (f0 ++ f1 ++ f2 ++ f3 ++ f4 ++ f5 ++ f6)).extractLsb' 1 3 = f5 ∧
      (BitVec.cast h (f0 ++ f1 ++ f2 ++ f3 ++ f4 ++ f5 ++ f6)).extractLsb' 0 1 = f6 := by
  simp (disch := decide) only [BitVec.extractLsb'_cast, BitVec.extractLsb'_append_eq_of_le,
    BitVec.extractLsb'_append_eq_of_add_le]
  simp

theorem layout_4_6_3_3_6_6_3_1 (f0 : BitVec 4) (f1 : BitVec 6) (f2 : BitVec 3) (f3 : BitVec 3) (f4 : BitVec 6) (f5 : BitVec 6) (f6 : BitVec 3) (f7 : BitVec 1)
    (h : 4+6+3+3+6+6+3+1 = 32) :
      (BitVec.cast h (f0 ++ f1 ++ f2 ++ f3 ++ f4 ++ f5 ++ f6 ++ f7)).extractLsb' 28 4 = f0 ∧
      (BitVec.cast h (f0 ++ f1 ++ f2 ++ f3 ++ f4 ++ f5 ++ f6 ++ f7)).extractLsb' 22 6 = f1 ∧
      (BitVec.cast h (f0 ++ f1 ++ f2 ++ f3 ++ f4 ++ f5 ++ f6 ++ f7)).extractLsb' 19 3 = f2 ∧
      (BitVec.cast h (f0 ++ f1 ++ f2 ++ f3 ++ f4 ++ f5 ++ f6 ++ f7)).extractLsb' 16 3 = f3 ∧
      (BitVec.cast h (f0 ++ f1 ++ f2 ++ f3 ++ f4 ++ f5 ++ f6 ++ f7)).extractLsb' 10 6 = f4 ∧
      (BitVec.cast h (f0 ++ f1 ++ f2 ++ f3 ++ f4 ++ f5 ++ f6 ++ f7)).extractLsb' 4 6 = f5 ∧
      (BitVec.cast h (f0 ++ f1 ++ f2 ++ f3 ++ f4 ++ f5 ++ f6 ++ f7)).extractLsb' 1 3 = f6 ∧
      (BitVec.cast h (f0 ++ f1 ++ f2 ++ f3 ++ f4 ++ f5 ++ f6 ++ f7)).extractLsb' 0 1 = f7 := by
  simp (disch := decide) only [BitVec.extractLsb'_cast, BitVec.extractLsb'_append_eq_of_le,
    BitVec.extractLsb'_append_eq_of_add_le]
  simp

theorem layout_4_6_6_12_3_1 (f0 : BitVec 4) (f1 : BitVec 6) (f2 : BitVec 6) (f3 : BitVec 12) (f4 : BitVec 3) (f5 : BitVec 1)
    (h : 4+6+6+12+3+1 = 32) :
      (BitVec.cast h (f0 ++ f1 ++ f2 ++ f3 ++ f4 ++ f5)).extractLsb' 28 4 = f0 ∧
      (BitVec.cast h (f0 ++ f1 ++ f2 ++ f3 ++ f4 ++ f5)).extractLsb' 22 6 = f1 ∧
      (BitVec.cast h (f0 ++ f1 ++ f2 ++ f3 ++ f4 ++ f5)).extractLsb' 16 6 = f2 ∧
      (BitVec.cast h (f0 ++ f1 ++ f2 ++ f3 ++ f4 ++ f5)).extractLsb' 4 12 = f3 ∧
      (BitVec.cast h (f0 ++ f1 ++ f2 ++ f3 ++ f4 ++ f5)).extractLsb' 1 3 = f4 ∧
      (BitVec.cast h (f0 ++ f1 ++ f2 ++ f3 ++ f4 ++ f5)).extractLsb' 0 1 = f5 := by
  simp (disch := decide) only [BitVec.extractLsb'_cast, BitVec.extractLsb'_append_eq_of_le,
    BitVec.extractLsb'_append_eq_of_add_le]
  simp

theorem layout_4_6_6_6_10 (f0 : BitVec 4) (f1 : BitVec 6) (f2 : BitVec 6) (f3 : BitVec 6) (f4 : BitVec 10)
    (h : 4+6+6+6+10 = 32) :
      (BitVec.cast h (f0 ++ f1 ++ f2 ++ f3 ++ f4)).extractLsb' 28 4 = f0 ∧
      (BitVec.cast h (f0 ++ f1 ++ f2 ++ f3 ++ f4)).extractLsb' 22 6 = f1 ∧
      (BitVec.cast h (f0 ++ f1 ++ f2 ++ f3 ++ f4)).extractLsb' 16 6 = f2 ∧
      (BitVec.cast h (f0 ++ f1 ++ f2 ++ f3 ++ f4)).extractLsb' 10 6 = f3 ∧
      (BitVec.cast h (f0 ++ f1 ++ f2 ++ f3 ++ f4)).extractLsb' 0 10 = f4 := by
  simp (disch := decide) only [BitVec.extractLsb'_cast, BitVec.extractLsb'_append_eq_of_le,
    BitVec.extractLsb'_append_eq_of_add_le]
  simp

theorem layout_4_6_3_3_6_10 (f0 : BitVec 4) (f1 : BitVec 6) (f2 : BitVec 3) (f3 : BitVec 3) (f4 : BitVec 6) (f5 : BitVec 10)
    (h : 4+6+3+3+6+10 = 32) :
      (BitVec.cast h (f0 ++ f1 ++ f2 ++ f3 ++ f4 ++ f5)).extractLsb' 28 4 = f0 ∧
      (BitVec.cast h (f0 ++ f1 ++ f2 ++ f3 ++ f4 ++ f5)).extractLsb' 22 6 = f1 ∧
      (BitVec.cast h (f0 ++ f1 ++ f2 ++ f3 ++ f4 ++ f5)).extractLsb' 19 3 = f2 ∧
      (BitVec.cast h (f0 ++ f1 ++ f2 ++ f3 ++ f4 ++ f5)).extractLsb' 16 3 = f3 ∧
      (BitVec.cast h (f0 ++ f1 ++ f2 ++ f3 ++ f4 ++ f5)).extractLsb' 10 6 = f4 ∧
      (BitVec.cast h (f0 ++ f1 ++ f2 ++ f3 ++ f4 ++ f5)).extractLsb' 0 10 = f5 := by
  simp (disch := decide) only [BitVec.extractLsb'_cast, BitVec.extractLsb'_append_eq_of_le,
    BitVec.extractLsb'_append_eq_of_add_le]
  simp

theorem layout_4_4_6_6_2_10 (f0 : BitVec 4) (f1 : BitVec 4) (f2 : BitVec 6) (f3 : BitVec 6) (f4 : BitVec 2) (f5 : BitVec 10)
    (h : 4+4+6+6+2+10 = 32) :
      (BitVec.cast h (f0 ++ f1 ++ f2 ++ f3 ++ f4 ++ f5)).extractLsb' 28 4 = f0 ∧
      (BitVec.cast h (f0 ++ f1 ++ f2 ++ f3 ++ f4 ++ f5)).extractLsb' 24 4 = f1 ∧
      (BitVec.cast h (f0 ++ f1 ++ f2 ++ f3 ++ f4 ++ f5)).extractLsb' 18 6 = f2 ∧
      (BitVec.cast h (f0 ++ f1 ++ f2 ++ f3 ++ f4 ++ f5)).extractLsb' 12 6 = f3 ∧
      (BitVec.cast h (f0 ++ f1 ++ f2 ++ f3 ++ f4 ++ f5)).extractLsb' 10 2 = f4 ∧
      (BitVec.cast h (f0 ++ f1 ++ f2 ++ f3 ++ f4 ++ f5)).extractLsb' 0 10 = f5 := by
  simp (disch := decide) only [BitVec.extractLsb'_cast, BitVec.extractLsb'_append_eq_of_le,
    BitVec.extractLsb'_append_eq_of_add_le]
  simp

theorem layout_4_4_6_6_2_2_8 (f0 : BitVec 4) (f1 : BitVec 4) (f2 : BitVec 6) (f3 : BitVec 6) (f4 : BitVec 2) (f5 : BitVec 2) (f6 : BitVec 8)
    (h : 4+4+6+6+2+2+8 = 32) :
      (BitVec.cast h (f0 ++ f1 ++ f2 ++ f3 ++ f4 ++ f5 ++ f6)).extractLsb' 28 4 = f0 ∧
      (BitVec.cast h (f0 ++ f1 ++ f2 ++ f3 ++ f4 ++ f5 ++ f6)).extractLsb' 24 4 = f1 ∧
      (BitVec.cast h (f0 ++ f1 ++ f2 ++ f3 ++ f4 ++ f5 ++ f6)).extractLsb' 18 6 = f2 ∧
      (BitVec.cast h (f0 ++ f1 ++ f2 ++ f3 ++ f4 ++ f5 ++ f6)).extractLsb' 12 6 = f3 ∧
      (BitVec.cast h (f0 ++ f1 ++ f2 ++ f3 ++ f4 ++ f5 ++ f6)).extractLsb' 10 2 = f4 ∧
      (BitVec.cast h (f0 ++ f1 ++ f2 ++ f3 ++ f4 ++ f5 ++ f6)).extractLsb' 8 2 = f5 ∧
      (BitVec.cast h (f0 ++ f1 ++ f2 ++ f3 ++ f4 ++ f5 ++ f6)).extractLsb' 0 8 = f6 := by
  simp (disch := decide) only [BitVec.extractLsb'_cast, BitVec.extractLsb'_append_eq_of_le,
    BitVec.extractLsb'_append_eq_of_add_le]
  simp

theorem layout_4_4_3_1_20 (f0 : BitVec 4) (f1 : BitVec 4) (f2 : BitVec 3) (f3 : BitVec 1) (f4 : BitVec 20)
    (h : 4+4+3+1+20 = 32) :
      (BitVec.cast h (f0 ++ f1 ++ f2 ++ f3 ++ f4)).extractLsb' 28 4 = f0 ∧
      (BitVec.cast h (f0 ++ f1 ++ f2 ++ f3 ++ f4)).extractLsb' 24 4 = f1 ∧
      (BitVec.cast h (f0 ++ f1 ++ f2 ++ f3 ++ f4)).extractLsb' 21 3 = f2 ∧
      (BitVec.cast h (f0 ++ f1 ++ f2 ++ f3 ++ f4)).extractLsb' 20 1 = f3 ∧
      (BitVec.cast h (f0 ++ f1 ++ f2 ++ f3 ++ f4)).extractLsb' 0 20 = f4 := by
  simp (disch := decide) only [BitVec.extractLsb'_cast, BitVec.extractLsb'_append_eq_of_le,
    BitVec.extractLsb'_append_eq_of_add_le]
  simp

theorem layout_4_4_3_1_6_14 (f0 : BitVec 4) (f1 : BitVec 4) (f2 : BitVec 3) (f3 : BitVec 1) (f4 : BitVec 6) (f5 : BitVec 14)
    (h : 4+4+3+1+6+14 = 32) :
      (BitVec.cast h (f0 ++ f1 ++ f2 ++ f3 ++ f4 ++ f5)).extractLsb' 28 4 = f0 ∧
      (BitVec.cast h (f0 ++ f1 ++ f2 ++ f3 ++ f4 ++ f5)).extractLsb' 24 4 = f1 ∧
      (BitVec.cast h (f0 ++ f1 ++ f2 ++ f3 ++ f4 ++ f5)).extractLsb' 21 3 = f2 ∧
      (BitVec.cast h (f0 ++ f1 ++ f2 ++ f3 ++ f4 ++ f5)).extractLsb' 20 1 = f3 ∧
      (BitVec.cast h (f0 ++ f1 ++ f2 ++ f3 ++ f4 ++ f5)).extractLsb' 14 6 = f4 ∧
      (BitVec.cast h (f0 ++ f1 ++ f2 ++ f3 ++ f4 ++ f5)).extractLsb' 0 14 = f5 := by
  simp (disch := decide) only [BitVec.extractLsb'_cast, BitVec.extractLsb'_append_eq_of_le,
    BitVec.extractLsb'_append_eq_of_add_le]
  simp

theorem layout_4_4_4_1_6_13 (f0 : BitVec 4) (f1 : BitVec 4) (f2 : BitVec 4) (f3 : BitVec 1) (f4 : BitVec 6) (f5 : BitVec 13)
    (h : 4+4+4+1+6+13 = 32) :
      (BitVec.cast h (f0 ++ f1 ++ f2 ++ f3 ++ f4 ++ f5)).extractLsb' 28 4 = f0 ∧
      (BitVec.cast h (f0 ++ f1 ++ f2 ++ f3 ++ f4 ++ f5)).extractLsb' 24 4 = f1 ∧
      (BitVec.cast h (f0 ++ f1 ++ f2 ++ f3 ++ f4 ++ f5)).extractLsb' 20 4 = f2 ∧
      (BitVec.cast h (f0 ++ f1 ++ f2 ++ f3 ++ f4 ++ f5)).extractLsb' 19 1 = f3 ∧
      (BitVec.cast h (f0 ++ f1 ++ f2 ++ f3 ++ f4 ++ f5)).extractLsb' 13 6 = f4 ∧
      (BitVec.cast h (f0 ++ f1 ++ f2 ++ f3 ++ f4 ++ f5)).extractLsb' 0 13 = f5 := by
  simp (disch := decide) only [BitVec.extractLsb'_cast, BitVec.extractLsb'_append_eq_of_le,
    BitVec.extractLsb'_append_eq_of_add_le]
  simp

theorem layout_4_4_4_1_9_10 (f0 : BitVec 4) (f1 : BitVec 4) (f2 : BitVec 4) (f3 : BitVec 1) (f4 : BitVec 9) (f5 : BitVec 10)
    (h : 4+4+4+1+9+10 = 32) :
      (BitVec.cast h (f0 ++ f1 ++ f2 ++ f3 ++ f4 ++ f5)).extractLsb' 28 4 = f0 ∧
      (BitVec.cast h (f0 ++ f1 ++ f2 ++ f3 ++ f4 ++ f5)).extractLsb' 24 4 = f1 ∧
      (BitVec.cast h (f0 ++ f1 ++ f2 ++ f3 ++ f4 ++ f5)).extractLsb' 20 4 = f2 ∧
      (BitVec.cast h (f0 ++ f1 ++ f2 ++ f3 ++ f4 ++ f5)).extractLsb' 19 1 = f3 ∧
      (BitVec.cast h (f0 ++ f1 ++ f2 ++ f3 ++ f4 ++ f5)).extractLsb' 10 9 = f4 ∧
      (BitVec.cast h (f0 ++ f1 ++ f2 ++ f3 ++ f4 ++ f5)).extractLsb' 0 10 = f5 := by
  simp (disch := decide) only [BitVec.extractLsb'_cast, BitVec.extractLsb'_append_eq_of_le,
    BitVec.extractLsb'_append_eq_of_add_le]
  simp

theorem layout_4_4_24 (f0 : BitVec 4) (f1 : BitVec 4) (f2 : BitVec 24)
    (h : 4+4+24 = 32) :
      (BitVec.cast h (f0 ++ f1 ++ f2)).extractLsb' 28 4 = f0 ∧
      (BitVec.cast h (f0 ++ f1 ++ f2)).extractLsb' 24 4 = f1 ∧
      (BitVec.cast h (f0 ++ f1 ++ f2)).extractLsb' 0 24 = f2 := by
  simp (disch := decide) only [BitVec.extractLsb'_cast, BitVec.extractLsb'_append_eq_of_le,
    BitVec.extractLsb'_append_eq_of_add_le]
  simp

theorem layout_4_4_4_8_12 (f0 : BitVec 4) (f1 : BitVec 4) (f2 : BitVec 4) (f3 : BitVec 8) (f4 : BitVec 12)
    (h : 4+4+4+8+12 = 32) :
      (BitVec.cast h (f0 ++ f1 ++ f2 ++ f3 ++ f4)).extractLsb' 28 4 = f0 ∧
      (BitVec.cast h (f0 ++ f1 ++ f2 ++ f3 ++ f4)).extractLsb' 24 4 = f1 ∧
      (BitVec.cast h (f0 ++ f1 ++ f2 ++ f3 ++ f4)).extractLsb' 20 4 = f2 ∧
      (BitVec.cast h (f0 ++ f1 ++ f2 ++ f3 ++ f4)).extractLsb' 12 8 = f3 ∧
      (BitVec.cast h (f0 ++ f1 ++ f2 ++ f3 ++ f4)).extractLsb' 0 12 = f4 := by
  simp (disch := decide) only [BitVec.extractLsb'_cast, BitVec.extractLsb'_append_eq_of_le,
    BitVec.extractLsb'_append_eq_of_add_le]
  simp

theorem layout_4_4_3_1_8_12 (f0 : BitVec 4) (f1 : BitVec 4) (f2 : BitVec 3) (f3 : BitVec 1) (f4 : BitVec 8) (f5 : BitVec 12)
    (h : 4+4+3+1+8+12 = 32) :
      (BitVec.cast h (f0 ++ f1 ++ f2 ++ f3 ++ f4 ++ f5)).extractLsb' 28 4 = f0 ∧
      (BitVec.cast h (f0 ++ f1 ++ f2 ++ f3 ++ f4 ++ f5)).extractLsb' 24 4 = f1 ∧
      (BitVec.cast h (f0 ++ f1 ++ f2 ++ f3 ++ f4 ++ f5)).extractLsb' 21 3 = f2 ∧
      (BitVec.cast h (f0 ++ f1 ++ f2 ++ f3 ++ f4 ++ f5)).extractLsb' 20 1 = f3 ∧
      (BitVec.cast h (f0 ++ f1 ++ f2 ++ f3 ++ f4 ++ f5)).extractLsb' 12 8 = f4 ∧
      (BitVec.cast h (f0 ++ f1 ++ f2 ++ f3 ++ f4 ++ f5)).extractLsb' 0 12 = f5 := by
  simp (disch := decide) only [BitVec.extractLsb'_cast, BitVec.extractLsb'_append_eq_of_le,
    BitVec.extractLsb'_append_eq_of_add_le]
  simp

theorem layout_4_4_4_20 (f0 : BitVec 4) (f1 : BitVec 4) (f2 : BitVec 4) (f3 : BitVec 20)
    (h : 4+4+4+20 = 32) :
      (BitVec.cast h (f0 ++ f1 ++ f2 ++ f3)).extractLsb' 28 4 = f0 ∧
      (BitVec.cast h (f0 ++ f1 ++ f2 ++ f3)).extractLsb' 24 4 = f1 ∧
      (BitVec.cast h (f0 ++ f1 ++ f2 ++ f3)).extractLsb' 20 4 = f2 ∧
      (BitVec.cast h (f0 ++ f1 ++ f2 ++ f3)).extractLsb' 0 20 = f3 := by
  simp (disch := decide) only [BitVec.extractLsb'_cast, BitVec.extractLsb'_append_eq_of_le,
    BitVec.extractLsb'_append_eq_of_add_le]
  simp

theorem layout_4_4_8_8_8 (f0 : BitVec 4) (f1 : BitVec 4) (f2 : BitVec 8) (f3 : BitVec 8) (f4 : BitVec 8)
    (h : 4+4+8+8+8 = 32) :
      (BitVec.cast h (f0 ++ f1 ++ f2 ++ f3 ++ f4)).extractLsb' 28 4 = f0 ∧
      (BitVec.cast h (f0 ++ f1 ++ f2 ++ f3 ++ f4)).extractLsb' 24 4 = f1 ∧
      (BitVec.cast h (f0 ++ f1 ++ f2 ++ f3 ++ f4)).extractLsb' 16 8 = f2 ∧
      (BitVec.cast h (f0 ++ f1 ++ f2 ++ f3 ++ f4)).extractLsb' 8 8 = f3 ∧
      (BitVec.cast h (f0 ++ f1 ++ f2 ++ f3 ++ f4)).extractLsb' 0 8 = f4 := by
  simp (disch := decide) only [BitVec.extractLsb'_cast, BitVec.extractLsb'_append_eq_of_le,
    BitVec.extractLsb'_append_eq_of_add_le]
  simp

theorem layout_4_4_8_8_5_1_2 (f0 : BitVec 4) (f1 : BitVec 4) (f2 : BitVec 8) (f3 : BitVec 8) (f4 : BitVec 5) (f5 : BitVec 1) (f6 : BitVec 2)
    (h : 4+4+8+8+5+1+2 = 32) :
      (BitVec.cast h (f0 ++ f1 ++ f2 ++ f3 ++ f4 ++ f5 ++ f6)).extractLsb' 28 4 = f0 ∧
      (BitVec.cast h (f0 ++ f1 ++ f2 ++ f3 ++ f4 ++ f5 ++ f6)).extractLsb' 24 4 = f1 ∧
      (BitVec.cast h (f0 ++ f1 ++ f2 ++ f3 ++ f4 ++ f5 ++ f6)).extractLsb' 16 8 = f2 ∧
      (BitVec.cast h (f0 ++ f1 ++ f2 ++ f3 ++ f4 ++ f5 ++ f6)).extractLsb' 8 8 = f3 ∧
      (BitVec.cast h (f0 ++ f1 ++ f2 ++ f3 ++ f4 ++ f5 ++ f6)).extractLsb' 3 5 = f4 ∧
      (BitVec.cast h (f0 ++ f1 ++ f2 ++ f3 ++ f4 ++ f5 ++ f6)).extractLsb' 2 1 = f5 ∧
      (BitVec.cast h (f0 ++ f1 ++ f2 ++ f3 ++ f4 ++ f5 ++ f6)).extractLsb' 0 2 = f6 := by
  simp (disch := decide) only [BitVec.extractLsb'_cast, BitVec.extractLsb'_append_eq_of_le,
    BitVec.extractLsb'_append_eq_of_add_le]
  simp

theorem layout_4_4_8_8_5_3 (f0 : BitVec 4) (f1 : BitVec 4) (f2 : BitVec 8) (f3 : BitVec 8) (f4 : BitVec 5) (f5 : BitVec 3)
    (h : 4+4+8+8+5+3 = 32) :
      (BitVec.cast h (f0 ++ f1 ++ f2 ++ f3 ++ f4 ++ f5)).extractLsb' 28 4 = f0 ∧
      (BitVec.cast h (f0 ++ f1 ++ f2 ++ f3 ++ f4 ++ f5)).extractLsb' 24 4 = f1 ∧
      (BitVec.cast h (f0 ++ f1 ++ f2 ++ f3 ++ f4 ++ f5)).extractLsb' 16 8 = f2 ∧
      (BitVec.cast h (f0 ++ f1 ++ f2 ++ f3 ++ f4 ++ f5)).extractLsb' 8 8 = f3 ∧
      (BitVec.cast h (f0 ++ f1 ++ f2 ++ f3 ++ f4 ++ f5)).extractLsb' 3 5 = f4 ∧
      (BitVec.cast h (f0 ++ f1 ++ f2 ++ f3 ++ f4 ++ f5)).extractLsb' 0 3 = f5 := by
  simp (disch := decide) only [BitVec.extractLsb'_cast, BitVec.extractLsb'_append_eq_of_le,
    BitVec.extractLsb'_append_eq_of_add_le]
  simp

theorem layout_4_4_8_2_6_8 (f0 : BitVec 4) (f1 : BitVec 4) (f2 : BitVec 8) (f3 : BitVec 2) (f4 : BitVec 6) (f5 : BitVec 8)
    (h : 4+4+8+2+6+8 = 32) :
      (BitVec.cast h (f0 ++ f1 ++ f2 ++ f3 ++ f4 ++ f5)).extractLsb' 28 4 = f0 ∧
      (BitVec.cast h (f0 ++ f1 ++ f2 ++ f3 ++ f4 ++ f5)).extractLsb' 24 4 = f1 ∧
      (BitVec.cast h (f0 ++ f1 ++ f2 ++ f3 ++ f4 ++ f5)).extractLsb' 16 8 = f2 ∧
      (BitVec.cast h (f0 ++ f1 ++ f2 ++ f3 ++ f4 ++ f5)).extractLsb' 14 2 = f3 ∧
      (BitVec.cast h (f0 ++ f1 ++ f2 ++ f3 ++ f4 ++ f5)).extractLsb' 8 6 = f4 ∧
      (BitVec.cast h (f0 ++ f1 ++ f2 ++ f3 ++ f4 ++ f5)).extractLsb' 0 8 = f5 := by
  simp (disch := decide) only [BitVec.extractLsb'_cast, BitVec.extractLsb'_append_eq_of_le,
    BitVec.extractLsb'_append_eq_of_add_le]
  simp

theorem layout_4_4_8_2_6_2_6 (f0 : BitVec 4) (f1 : BitVec 4) (f2 : BitVec 8) (f3 : BitVec 2) (f4 : BitVec 6) (f5 : BitVec 2) (f6 : BitVec 6)
    (h : 4+4+8+2+6+2+6 = 32) :
      (BitVec.cast h (f0 ++ f1 ++ f2 ++ f3 ++ f4 ++ f5 ++ f6)).extractLsb' 28 4 = f0 ∧
      (BitVec.cast h (f0 ++ f1 ++ f2 ++ f3 ++ f4 ++ f5 ++ f6)).extractLsb' 24 4 = f1 ∧
      (BitVec.cast h (f0 ++ f1 ++ f2 ++ f3 ++ f4 ++ f5 ++ f6)).extractLsb' 16 8 = f2 ∧
      (BitVec.cast h (f0 ++ f1 ++ f2 ++ f3 ++ f4 ++ f5 ++ f6)).extractLsb' 14 2 = f3 ∧
      (BitVec.cast h (f0 ++ f1 ++ f2 ++ f3 ++ f4 ++ f5 ++ f6)).extractLsb' 8 6 = f4 ∧
      (BitVec.cast h (f0 ++ f1 ++ f2 ++ f3 ++ f4 ++ f5 ++ f6)).extractLsb' 6 2 = f5 ∧
      (BitVec.cast h (f0 ++ f1 ++ f2 ++ f3 ++ f4 ++ f5 ++ f6)).extractLsb' 0 6 = f6 := by
  simp (disch := decide) only [BitVec.extractLsb'_cast, BitVec.extractLsb'_append_eq_of_le,
    BitVec.extractLsb'_append_eq_of_add_le]
  simp

theorem layout_4_4_8_13_3 (f0 : BitVec 4) (f1 : BitVec 4) (f2 : BitVec 8) (f3 : BitVec 13) (f4 : BitVec 3)
    (h : 4+4+8+13+3 = 32) :
      (BitVec.cast h (f0 ++ f1 ++ f2 ++ f3 ++ f4)).extractLsb' 28 4 = f0 ∧
      (BitVec.cast h (f0 ++ f1 ++ f2 ++ f3 ++ f4)).extractLsb' 24 4 = f1 ∧
      (BitVec.cast h (f0 ++ f1 ++ f2 ++ f3 ++ f4)).extractLsb' 16 8 = f2 ∧
      (BitVec.cast h (f0 ++ f1 ++ f2 ++ f3 ++ f4)).extractLsb' 3 13 = f3 ∧
      (BitVec.cast h (f0 ++ f1 ++ f2 ++ f3 ++ f4)).extractLsb' 0 3 = f4 := by
  simp (disch := decide) only [BitVec.extractLsb'_cast, BitVec.extractLsb'_append_eq_of_le,
    BitVec.extractLsb'_append_eq_of_add_le]
  simp

theorem layout_4_4_8_8_2_2_4 (f0 : BitVec 4) (f1 : BitVec 4) (f2 : BitVec 8) (f3 : BitVec 8) (f4 : BitVec 2) (f5 : BitVec 2) (f6 : BitVec 4)
    (h : 4+4+8+8+2+2+4 = 32) :
      (BitVec.cast h (f0 ++ f1 ++ f2 ++ f3 ++ f4 ++ f5 ++ f6)).extractLsb' 28 4 = f0 ∧
      (BitVec.cast h (f0 ++ f1 ++ f2 ++ f3 ++ f4 ++ f5 ++ f6)).extractLsb' 24 4 = f1 ∧
      (BitVec.cast h (f0 ++ f1 ++ f2 ++ f3 ++ f4 ++ f5 ++ f6)).extractLsb' 16 8 = f2 ∧
      (BitVec.cast h (f0 ++ f1 ++ f2 ++ f3 ++ f4 ++ f5 ++ f6)).extractLsb' 8 8 = f3 ∧
      (BitVec.cast h (f0 ++ f1 ++ f2 ++ f3 ++ f4 ++ f5 ++ f6)).extractLsb' 6 2 = f4 ∧
      (BitVec.cast h (f0 ++ f1 ++ f2 ++ f3 ++ f4 ++ f5 ++ f6)).extractLsb' 4 2 = f5 ∧
      (BitVec.cast h (f0 ++ f1 ++ f2 ++ f3 ++ f4 ++ f5 ++ f6)).extractLsb' 0 4 = f6 := by
  simp (disch := decide) only [BitVec.extractLsb'_cast, BitVec.extractLsb'_append_eq_of_le,
    BitVec.extractLsb'_append_eq_of_add_le]
  simp

theorem layout_4_4_8_8_3_1_4 (f0 : BitVec 4) (f1 : BitVec 4) (f2 : BitVec 8) (f3 : BitVec 8) (f4 : BitVec 3) (f5 : BitVec 1) (f6 : BitVec 4)
    (h : 4+4+8+8+3+1+4 = 32) :
      (BitVec.cast h (f0 ++ f1 ++ f2 ++ f3 ++ f4 ++ f5 ++ f6)).extractLsb' 28 4 = f0 ∧
      (BitVec.cast h (f0 ++ f1 ++ f2 ++ f3 ++ f4 ++ f5 ++ f6)).extractLsb' 24 4 = f1 ∧
      (BitVec.cast h (f0 ++ f1 ++ f2 ++ f3 ++ f4 ++ f5 ++ f6)).extractLsb' 16 8 = f2 ∧
      (BitVec.cast h (f0 ++ f1 ++ f2 ++ f3 ++ f4 ++ f5 ++ f6)).extractLsb' 8 8 = f3 ∧
      (BitVec.cast h (f0 ++ f1 ++ f2 ++ f3 ++ f4 ++ f5 ++ f6)).extractLsb' 5 3 = f4 ∧
      (BitVec.cast h (f0 ++ f1 ++ f2 ++ f3 ++ f4 ++ f5 ++ f6)).extractLsb' 4 1 = f5 ∧
      (BitVec.cast h (f0 ++ f1 ++ f2 ++ f3 ++ f4 ++ f5 ++ f6)).extractLsb' 0 4 = f6 := by
  simp (disch := decide) only [BitVec.extractLsb'_cast, BitVec.extractLsb'_append_eq_of_le,
    BitVec.extractLsb'_append_eq_of_add_le]
  simp

theorem layout_4_4_23_1 (f0 : BitVec 4) (f1 : BitVec 4) (f2 : BitVec 23) (f3 : BitVec 1)
    (h : 4+4+23+1 = 32) :
      (BitVec.cast h (f0 ++ f1 ++ f2 ++ f3)).extractLsb' 28 4 = f0 ∧
      (BitVec.cast h (f0 ++ f1 ++ f2 ++ f3)).extractLsb' 24 4 = f1 ∧
      (BitVec.cast h (f0 ++ f1 ++ f2 ++ f3)).extractLsb' 1 23 = f2 ∧
      (BitVec.cast h (f0 ++ f1 ++ f2 ++ f3)).extractLsb' 0 1 = f3 := by
  simp (disch := decide) only [BitVec.extractLsb'_cast, BitVec.extractLsb'_append_eq_of_le,
    BitVec.extractLsb'_append_eq_of_add_le]
  simp

theorem layout_4_4_21_1_1_1 (f0 : BitVec 4) (f1 : BitVec 4) (f2 : BitVec 21) (f3 : BitVec 1) (f4 : BitVec 1) (f5 : BitVec 1)
    (h : 4+4+21+1+1+1 = 32) :
      (BitVec.cast h (f0 ++ f1 ++ f2 ++ f3 ++ f4 ++ f5)).extractLsb' 28 4 = f0 ∧
      (BitVec.cast h (f0 ++ f1 ++ f2 ++ f3 ++ f4 ++ f5)).extractLsb' 24 4 = f1 ∧
      (BitVec.cast h (f0 ++ f1 ++ f2 ++ f3 ++ f4 ++ f5)).extractLsb' 3 21 = f2 ∧
      (BitVec.cast h (f0 ++ f1 ++ f2 ++ f3 ++ f4 ++ f5)).extractLsb' 2 1 = f3 ∧
      (BitVec.cast h (f0 ++ f1 ++ f2 ++ f3 ++ f4 ++ f5)).extractLsb' 1 1 = f4 ∧
      (BitVec.cast h (f0 ++ f1 ++ f2 ++ f3 ++ f4 ++ f5)).extractLsb' 0 1 = f5 := by
  simp (disch := decide) only [BitVec.extractLsb'_cast, BitVec.extractLsb'_append_eq_of_le,
    BitVec.extractLsb'_append_eq_of_add_le]
  simp

theorem layout_4_4_20_4 (f0 : BitVec 4) (f1 : BitVec 4) (f2 : BitVec 20) (f3 : BitVec 4)
    (h : 4+4+20+4 = 32) :
      (BitVec.cast h (f0 ++ f1 ++ f2 ++ f3)).extractLsb' 28 4 = f0 ∧
      (BitVec.cast h (f0 ++ f1 ++ f2 ++ f3)).extractLsb' 24 4 = f1 ∧
      (BitVec.cast h (f0 ++ f1 ++ f2 ++ f3)).extractLsb' 4 20 = f2 ∧
      (BitVec.cast h (f0 ++ f1 ++ f2 ++ f3)).extractLsb' 0 4 = f3 := by
  simp (disch := decide) only [BitVec.extractLsb'_cast, BitVec.extractLsb'_append_eq_of_le,
    BitVec.extractLsb'_append_eq_of_add_le]
  simp

theorem layout_4_4_20_1_3 (f0 : BitVec 4) (f1 : BitVec 4) (f2 : BitVec 20) (f3 : BitVec 1) (f4 : BitVec 3)
    (h : 4+4+20+1+3 = 32) :
      (BitVec.cast h (f0 ++ f1 ++ f2 ++ f3 ++ f4)).extractLsb' 28 4 = f0 ∧
      (BitVec.cast h (f0 ++ f1 ++ f2 ++ f3 ++ f4)).extractLsb' 24 4 = f1 ∧
      (BitVec.cast h (f0 ++ f1 ++ f2 ++ f3 ++ f4)).extractLsb' 4 20 = f2 ∧
      (BitVec.cast h (f0 ++ f1 ++ f2 ++ f3 ++ f4)).extractLsb' 3 1 = f3 ∧
      (BitVec.cast h (f0 ++ f1 ++ f2 ++ f3 ++ f4)).extractLsb' 0 3 = f4 := by
  simp (disch := decide) only [BitVec.extractLsb'_cast, BitVec.extractLsb'_append_eq_of_le,
    BitVec.extractLsb'_append_eq_of_add_le]
  simp

theorem layout_4_4_20_1_1_1_1 (f0 : BitVec 4) (f1 : BitVec 4) (f2 : BitVec 20) (f3 : BitVec 1) (f4 : BitVec 1) (f5 : BitVec 1) (f6 : BitVec 1)
    (h : 4+4+20+1+1+1+1 = 32) :
      (BitVec.cast h (f0 ++ f1 ++ f2 ++ f3 ++ f4 ++ f5 ++ f6)).extractLsb' 28 4 = f0 ∧
      (BitVec.cast h (f0 ++ f1 ++ f2 ++ f3 ++ f4 ++ f5 ++ f6)).extractLsb' 24 4 = f1 ∧
      (BitVec.cast h (f0 ++ f1 ++ f2 ++ f3 ++ f4 ++ f5 ++ f6)).extractLsb' 4 20 = f2 ∧
      (BitVec.cast h (f0 ++ f1 ++ f2 ++ f3 ++ f4 ++ f5 ++ f6)).extractLsb' 3 1 = f3 ∧
      (BitVec.cast h (f0 ++ f1 ++ f2 ++ f3 ++ f4 ++ f5 ++ f6)).extractLsb' 2 1 = f4 ∧
      (BitVec.cast h (f0 ++ f1 ++ f2 ++ f3 ++ f4 ++ f5 ++ f6)).extractLsb' 1 1 = f5 ∧
      (BitVec.cast h (f0 ++ f1 ++ f2 ++ f3 ++ f4 ++ f5 ++ f6)).extractLsb' 0 1 = f6 := by
  simp (disch := decide) only [BitVec.extractLsb'_cast, BitVec.extractLsb'_append_eq_of_le,
    BitVec.extractLsb'_append_eq_of_add_le]
  simp

theorem layout_4_4_16_2_6 (f0 : BitVec 4) (f1 : BitVec 4) (f2 : BitVec 16) (f3 : BitVec 2) (f4 : BitVec 6)
    (h : 4+4+16+2+6 = 32) :
      (BitVec.cast h (f0 ++ f1 ++ f2 ++ f3 ++ f4)).extractLsb' 28 4 = f0 ∧
      (BitVec.cast h (f0 ++ f1 ++ f2 ++ f3 ++ f4)).extractLsb' 24 4 = f1 ∧
      (BitVec.cast h (f0 ++ f1 ++ f2 ++ f3 ++ f4)).extractLsb' 8 16 = f2 ∧
      (BitVec.cast h (f0 ++ f1 ++ f2 ++ f3 ++ f4)).extractLsb' 6 2 = f3 ∧
      (BitVec.cast h (f0 ++ f1 ++ f2 ++ f3 ++ f4)).extractLsb' 0 6 = f4 := by
  simp (disch := decide) only [BitVec.extractLsb'_cast, BitVec.extractLsb'_append_eq_of_le,
    BitVec.extractLsb'_append_eq_of_add_le]
  simp

theorem layout_4_4_15_5_2_2 (f0 : BitVec 4) (f1 : BitVec 4) (f2 : BitVec 15) (f3 : BitVec 5) (f4 : BitVec 2) (f5 : BitVec 2)
    (h : 4+4+15+5+2+2 = 32) :
      (BitVec.cast h (f0 ++ f1 ++ f2 ++ f3 ++ f4 ++ f5)).extractLsb' 28 4 = f0 ∧
      (BitVec.cast h (f0 ++ f1 ++ f2 ++ f3 ++ f4 ++ f5)).extractLsb' 24 4 = f1 ∧
      (BitVec.cast h (f0 ++ f1 ++ f2 ++ f3 ++ f4 ++ f5)).extractLsb' 9 15 = f2 ∧
      (BitVec.cast h (f0 ++ f1 ++ f2 ++ f3 ++ f4 ++ f5)).extractLsb' 4 5 = f3 ∧
      (BitVec.cast h (f0 ++ f1 ++ f2 ++ f3 ++ f4 ++ f5)).extractLsb' 2 2 = f4 ∧
      (BitVec.cast h (f0 ++ f1 ++ f2 ++ f3 ++ f4 ++ f5)).extractLsb' 0 2 = f5 := by
  simp (disch := decide) only [BitVec.extractLsb'_cast, BitVec.extractLsb'_append_eq_of_le,
    BitVec.extractLsb'_append_eq_of_add_le]
  simp

theorem layout_4_4_19_5 (f0 : BitVec 4) (f1 : BitVec 4) (f2 : BitVec 19) (f3 : BitVec 5)
    (h : 4+4+19+5 = 32) :
      (BitVec.cast h (f0 ++ f1 ++ f2 ++ f3)).extractLsb' 28 4 = f0 ∧
      (BitVec.cast h (f0 ++ f1 ++ f2 ++ f3)).extractLsb' 24 4 = f1 ∧
      (BitVec.cast h (f0 ++ f1 ++ f2 ++ f3)).extractLsb' 5 19 = f2 ∧
      (BitVec.cast h (f0 ++ f1 ++ f2 ++ f3)).extractLsb' 0 5 = f3 := by
  simp (disch := decide) only [BitVec.extractLsb'_cast, BitVec.extractLsb'_append_eq_of_le,
    BitVec.extractLsb'_append_eq_of_add_le]
  simp

theorem layout_4_4_6_1_1_16 (f0 : BitVec 4) (f1 : BitVec 4) (f2 : BitVec 6) (f3 : BitVec 1) (f4 : BitVec 1) (f5 : BitVec 16)
    (h : 4+4+6+1+1+16 = 32) :
      (BitVec.cast h (f0 ++ f1 ++ f2 ++ f3 ++ f4 ++ f5)).extractLsb' 28 4 = f0 ∧
      (BitVec.cast h (f0 ++ f1 ++ f2 ++ f3 ++ f4 ++ f5)).extractLsb' 24 4 = f1 ∧
      (BitVec.cast h (f0 ++ f1 ++ f2 ++ f3 ++ f4 ++ f5)).extractLsb' 18 6 = f2 ∧
      (BitVec.cast h (f0 ++ f1 ++ f2 ++ f3 ++ f4 ++ f5)).extractLsb' 17 1 = f3 ∧
      (BitVec.cast h (f0 ++ f1 ++ f2 ++ f3 ++ f4 ++ f5)).extractLsb' 16 1 = f4 ∧
      (BitVec.cast h (f0 ++ f1 ++ f2 ++ f3 ++ f4 ++ f5)).extractLsb' 0 16 = f5 := by
  simp (disch := decide) only [BitVec.extractLsb'_cast, BitVec.extractLsb'_append_eq_of_le,
    BitVec.extractLsb'_append_eq_of_add_le]
  simp

theorem layout_4_4_20_1_1_2 (f0 : BitVec 4) (f1 : BitVec 4) (f2 : BitVec 20) (f3 : BitVec 1) (f4 : BitVec 1) (f5 : BitVec 2)
    (h : 4+4+20+1+1+2 = 32) :
      (BitVec.cast h (f0 ++ f1 ++ f2 ++ f3 ++ f4 ++ f5)).extractLsb' 28 4 = f0 ∧
      (BitVec.cast h (f0 ++ f1 ++ f2 ++ f3 ++ f4 ++ f5)).extractLsb' 24 4 = f1 ∧
      (BitVec.cast h (f0 ++ f1 ++ f2 ++ f3 ++ f4 ++ f5)).extractLsb' 4 20 = f2 ∧
      (BitVec.cast h (f0 ++ f1 ++ f2 ++ f3 ++ f4 ++ f5)).extractLsb' 3 1 = f3 ∧
      (BitVec.cast h (f0 ++ f1 ++ f2 ++ f3 ++ f4 ++ f5)).extractLsb' 2 1 = f4 ∧
      (BitVec.cast h (f0 ++ f1 ++ f2 ++ f3 ++ f4 ++ f5)).extractLsb' 0 2 = f5 := by
  simp (disch := decide) only [BitVec.extractLsb'_cast, BitVec.extractLsb'_append_eq_of_le,
    BitVec.extractLsb'_append_eq_of_add_le]
  simp

theorem layout_4_4_22_2 (f0 : BitVec 4) (f1 : BitVec 4) (f2 : BitVec 22) (f3 : BitVec 2)
    (h : 4+4+22+2 = 32) :
      (BitVec.cast h (f0 ++ f1 ++ f2 ++ f3)).extractLsb' 28 4 = f0 ∧
      (BitVec.cast h (f0 ++ f1 ++ f2 ++ f3)).extractLsb' 24 4 = f1 ∧
      (BitVec.cast h (f0 ++ f1 ++ f2 ++ f3)).extractLsb' 2 22 = f2 ∧
      (BitVec.cast h (f0 ++ f1 ++ f2 ++ f3)).extractLsb' 0 2 = f3 := by
  simp (disch := decide) only [BitVec.extractLsb'_cast, BitVec.extractLsb'_append_eq_of_le,
    BitVec.extractLsb'_append_eq_of_add_le]
  simp

theorem layout_4_4_8_8_4_1_3 (f0 : BitVec 4) (f1 : BitVec 4) (f2 : BitVec 8) (f3 : BitVec 8) (f4 : BitVec 4) (f5 : BitVec 1) (f6 : BitVec 3)
    (h : 4+4+8+8+4+1+3 = 32) :
      (BitVec.cast h (f0 ++ f1 ++ f2 ++ f3 ++ f4 ++ f5 ++ f6)).extractLsb' 28 4 = f0 ∧
      (BitVec.cast h (f0 ++ f1 ++ f2 ++ f3 ++ f4 ++ f5 ++ f6)).extractLsb' 24 4 = f1 ∧
      (BitVec.cast h (f0 ++ f1 ++ f2 ++ f3 ++ f4 ++ f5 ++ f6)).extractLsb' 16 8 = f2 ∧
      (BitVec.cast h (f0 ++ f1 ++ f2 ++ f3 ++ f4 ++ f5 ++ f6)).extractLsb' 8 8 = f3 ∧
      (BitVec.cast h (f0 ++ f1 ++ f2 ++ f3 ++ f4 ++ f5 ++ f6)).extractLsb' 4 4 = f4 ∧
      (BitVec.cast h (f0 ++ f1 ++ f2 ++ f3 ++ f4 ++ f5 ++ f6)).extractLsb' 3 1 = f5 ∧
      (BitVec.cast h (f0 ++ f1 ++ f2 ++ f3 ++ f4 ++ f5 ++ f6)).extractLsb' 0 3 = f6 := by
  simp (disch := decide) only [BitVec.extractLsb'_cast, BitVec.extractLsb'_append_eq_of_le,
    BitVec.extractLsb'_append_eq_of_add_le]
  simp

theorem layout_4_1_5_4_1_1_2_2_12 (f0 : BitVec 4) (f1 : BitVec 1) (f2 : BitVec 5) (f3 : BitVec 4) (f4 : BitVec 1) (f5 : BitVec 1) (f6 : BitVec 2) (f7 : BitVec 2) (f8 : BitVec 12)
    (h : 4+1+5+4+1+1+2+2+12 = 32) :
      (BitVec.cast h (f0 ++ f1 ++ f2 ++ f3 ++ f4 ++ f5 ++ f6 ++ f7 ++ f8)).extractLsb' 28 4 = f0 ∧
      (BitVec.cast h (f0 ++ f1 ++ f2 ++ f3 ++ f4 ++ f5 ++ f6 ++ f7 ++ f8)).extractLsb' 27 1 = f1 ∧
      (BitVec.cast h (f0 ++ f1 ++ f2 ++ f3 ++ f4 ++ f5 ++ f6 ++ f7 ++ f8)).extractLsb' 22 5 = f2 ∧
      (BitVec.cast h (f0 ++ f1 ++ f2 ++ f3 ++ f4 ++ f5 ++ f6 ++ f7 ++ f8)).extractLsb' 18 4 = f3 ∧
      (BitVec.cast h (f0 ++ f1 ++ f2 ++ f3 ++ f4 ++ f5 ++ f6 ++ f7 ++ f8)).extractLsb' 17 1 = f4 ∧
      (BitVec.cast h (f0 ++ f1 ++ f2 ++ f3 ++ f4 ++ f5 ++ f6 ++ f7 ++ f8)).extractLsb' 16 1 = f5 ∧
      (BitVec.cast h (f0 ++ f1 ++ f2 ++ f3 ++ f4 ++ f5 ++ f6 ++ f7 ++ f8)).extractLsb' 14 2 = f6 ∧
      (BitVec.cast h (f0 ++ f1 ++ f2 ++ f3 ++ f4 ++ f5 ++ f6 ++ f7 ++ f8)).extractLsb' 12 2 = f7 ∧
      (BitVec.cast h (f0 ++ f1 ++ f2 ++ f3 ++ f4 ++ f5 ++ f6 ++ f7 ++ f8)).extractLsb' 0 12 = f8 := by
  simp (disch := decide) only [BitVec.extractLsb'_cast, BitVec.extractLsb'_append_eq_of_le,
    BitVec.extractLsb'_append_eq_of_add_le]
  simp

theorem layout_4_1_5_4_1_1_2_14 (f0 : BitVec 4) (f1 : BitVec 1) (f2 : BitVec 5) (f3 : BitVec 4) (f4 : BitVec 1) (f5 : BitVec 1) (f6 : BitVec 2) (f7 : BitVec 14)
    (h : 4+1+5+4+1+1+2+14 = 32) :
      (BitVec.cast h (f0 ++ f1 ++ f2 ++ f3 ++ f4 ++ f5 ++ f6 ++ f7)).extractLsb' 28 4 = f0 ∧
      (BitVec.cast h (f0 ++ f1 ++ f2 ++ f3 ++ f4 ++ f5 ++ f6 ++ f7)).extractLsb' 27 1 = f1 ∧
      (BitVec.cast h (f0 ++ f1 ++ f2 ++ f3 ++ f4 ++ f5 ++ f6 ++ f7)).extractLsb' 22 5 = f2 ∧
      (BitVec.cast h (f0 ++ f1 ++ f2 ++ f3 ++ f4 ++ f5 ++ f6 ++ f7)).extractLsb' 18 4 = f3 ∧
      (BitVec.cast h (f0 ++ f1 ++ f2 ++ f3 ++ f4 ++ f5 ++ f6 ++ f7)).extractLsb' 17 1 = f4 ∧
      (BitVec.cast h (f0 ++ f1 ++ f2 ++ f3 ++ f4 ++ f5 ++ f6 ++ f7)).extractLsb' 16 1 = f5 ∧
      (BitVec.cast h (f0 ++ f1 ++ f2 ++ f3 ++ f4 ++ f5 ++ f6 ++ f7)).extractLsb' 14 2 = f6 ∧
      (BitVec.cast h (f0 ++ f1 ++ f2 ++ f3 ++ f4 ++ f5 ++ f6 ++ f7)).extractLsb' 0 14 = f7 := by
  simp (disch := decide) only [BitVec.extractLsb'_cast, BitVec.extractLsb'_append_eq_of_le,
    BitVec.extractLsb'_append_eq_of_add_le]
  simp

theorem layout_4_1_5_4_1_1_16 (f0 : BitVec 4) (f1 : BitVec 1) (f2 : BitVec 5) (f3 : BitVec 4) (f4 : BitVec 1) (f5 : BitVec 1) (f6 : BitVec 16)
    (h : 4+1+5+4+1+1+16 = 32) :
      (BitVec.cast h (f0 ++ f1 ++ f2 ++ f3 ++ f4 ++ f5 ++ f6)).extractLsb' 28 4 = f0 ∧
      (BitVec.cast h (f0 ++ f1 ++ f2 ++ f3 ++ f4 ++ f5 ++ f6)).extractLsb' 27 1 = f1 ∧
      (BitVec.cast h (f0 ++ f1 ++ f2 ++ f3 ++ f4 ++ f5 ++ f6)).extractLsb' 22 5 = f2 ∧
      (BitVec.cast h (f0 ++ f1 ++ f2 ++ f3 ++ f4 ++ f5 ++ f6)).extractLsb' 18 4 = f3 ∧
      (BitVec.cast h (f0 ++ f1 ++ f2 ++ f3 ++ f4 ++ f5 ++ f6)).extractLsb' 17 1 = f4 ∧
      (BitVec.cast h (f0 ++ f1 ++ f2 ++ f3 ++ f4 ++ f5 ++ f6)).extractLsb' 16 1 = f5 ∧
      (BitVec.cast h (f0 ++ f1 ++ f2 ++ f3 ++ f4 ++ f5 ++ f6)).extractLsb' 0 16 = f6 := by
  simp (disch := decide) only [BitVec.extractLsb'_cast, BitVec.extractLsb'_append_eq_of_le,
    BitVec.extractLsb'_append_eq_of_add_le]
  simp

theorem layout_4_1_5_4_1_1_8_8 (f0 : BitVec 4) (f1 : BitVec 1) (f2 : BitVec 5) (f3 : BitVec 4) (f4 : BitVec 1) (f5 : BitVec 1) (f6 : BitVec 8) (f7 : BitVec 8)
    (h : 4+1+5+4+1+1+8+8 = 32) :
      (BitVec.cast h (f0 ++ f1 ++ f2 ++ f3 ++ f4 ++ f5 ++ f6 ++ f7)).extractLsb' 28 4 = f0 ∧
      (BitVec.cast h (f0 ++ f1 ++ f2 ++ f3 ++ f4 ++ f5 ++ f6 ++ f7)).extractLsb' 27 1 = f1 ∧
      (BitVec.cast h (f0 ++ f1 ++ f2 ++ f3 ++ f4 ++ f5 ++ f6 ++ f7)).extractLsb' 22 5 = f2 ∧
      (BitVec.cast h (f0 ++ f1 ++ f2 ++ f3 ++ f4 ++ f5 ++ f6 ++ f7)).extractLsb' 18 4 = f3 ∧
      (BitVec.cast h (f0 ++ f1 ++ f2 ++ f3 ++ f4 ++ f5 ++ f6 ++ f7)).extractLsb' 17 1 = f4 ∧
      (BitVec.cast h (f0 ++ f1 ++ f2 ++ f3 ++ f4 ++ f5 ++ f6 ++ f7)).extractLsb' 16 1 = f5 ∧
      (BitVec.cast h (f0 ++ f1 ++ f2 ++ f3 ++ f4 ++ f5 ++ f6 ++ f7)).extractLsb' 8 8 = f6 ∧
      (BitVec.cast h (f0 ++ f1 ++ f2 ++ f3 ++ f4 ++ f5 ++ f6 ++ f7)).extractLsb' 0 8 = f7 := by
  simp (disch := decide) only [BitVec.extractLsb'_cast, BitVec.extractLsb'_append_eq_of_le,
    BitVec.extractLsb'_append_eq_of_add_le]
  simp

theorem layout_4_1_5_4_18 (f0 : BitVec 4) (f1 : BitVec 1) (f2 : BitVec 5) (f3 : BitVec 4) (f4 : BitVec 18)
    (h : 4+1+5+4+18 = 32) :
      (BitVec.cast h (f0 ++ f1 ++ f2 ++ f3 ++ f4)).extractLsb' 28 4 = f0 ∧
      (BitVec.cast h (f0 ++ f1 ++ f2 ++ f3 ++ f4)).extractLsb' 27 1 = f1 ∧
      (BitVec.cast h (f0 ++ f1 ++ f2 ++ f3 ++ f4)).extractLsb' 22 5 = f2 ∧
      (BitVec.cast h (f0 ++ f1 ++ f2 ++ f3 ++ f4)).extractLsb' 18 4 = f3 ∧
      (BitVec.cast h (f0 ++ f1 ++ f2 ++ f3 ++ f4)).extractLsb' 0 18 = f4 := by
  simp (disch := decide) only [BitVec.extractLsb'_cast, BitVec.extractLsb'_append_eq_of_le,
    BitVec.extractLsb'_append_eq_of_add_le]
  simp

theorem layout_4_1_5_4_1_1_15_1 (f0 : BitVec 4) (f1 : BitVec 1) (f2 : BitVec 5) (f3 : BitVec 4) (f4 : BitVec 1) (f5 : BitVec 1) (f6 : BitVec 15) (f7 : BitVec 1)
    (h : 4+1+5+4+1+1+15+1 = 32) :
      (BitVec.cast h (f0 ++ f1 ++ f2 ++ f3 ++ f4 ++ f5 ++ f6 ++ f7)).extractLsb' 28 4 = f0 ∧
      (BitVec.cast h (f0 ++ f1 ++ f2 ++ f3 ++ f4 ++ f5 ++ f6 ++ f7)).extractLsb' 27 1 = f1 ∧
      (BitVec.cast h (f0 ++ f1 ++ f2 ++ f3 ++ f4 ++ f5 ++ f6 ++ f7)).extractLsb' 22 5 = f2 ∧
      (BitVec.cast h (f0 ++ f1 ++ f2 ++ f3 ++ f4 ++ f5 ++ f6 ++ f7)).extractLsb' 18 4 = f3 ∧
      (BitVec.cast h (f0 ++ f1 ++ f2 ++ f3 ++ f4 ++ f5 ++ f6 ++ f7)).extractLsb' 17 1 = f4 ∧
      (BitVec.cast h (f0 ++ f1 ++ f2 ++ f3 ++ f4 ++ f5 ++ f6 ++ f7)).extractLsb' 16 1 = f5 ∧
      (BitVec.cast h (f0 ++ f1 ++ f2 ++ f3 ++ f4 ++ f5 ++ f6 ++ f7)).extractLsb' 1 15 = f6 ∧
      (BitVec.cast h (f0 ++ f1 ++ f2 ++ f3 ++ f4 ++ f5 ++ f6 ++ f7)).extractLsb' 0 1 = f7 := by
  simp (disch := decide) only [BitVec.extractLsb'_cast, BitVec.extractLsb'_append_eq_of_le,
    BitVec.extractLsb'_append_eq_of_add_le]
  simp

theorem layout_4_1_5_17_1_1_3 (f0 : BitVec 4) (f1 : BitVec 1) (f2 : BitVec 5) (f3 : BitVec 17) (f4 : BitVec 1) (f5 : BitVec 1) (f6 : BitVec 3)
    (h : 4+1+5+17+1+1+3 = 32) :
      (BitVec.cast h (f0 ++ f1 ++ f2 ++ f3 ++ f4 ++ f5 ++ f6)).extractLsb' 28 4 = f0 ∧
      (BitVec.cast h (f0 ++ f1 ++ f2 ++ f3 ++ f4 ++ f5 ++ f6)).extractLsb' 27 1 = f1 ∧
      (BitVec.cast h (f0 ++ f1 ++ f2 ++ f3 ++ f4 ++ f5 ++ f6)).extractLsb' 22 5 = f2 ∧
      (BitVec.cast h (f0 ++ f1 ++ f2 ++ f3 ++ f4 ++ f5 ++ f6)).extractLsb' 5 17 = f3 ∧
      (BitVec.cast h (f0 ++ f1 ++ f2 ++ f3 ++ f4 ++ f5 ++ f6)).extractLsb' 4 1 = f4 ∧
      (BitVec.cast h (f0 ++ f1 ++ f2 ++ f3 ++ f4 ++ f5 ++ f6)).extractLsb' 3 1 = f5 ∧
      (BitVec.cast h (f0 ++ f1 ++ f2 ++ f3 ++ f4 ++ f5 ++ f6)).extractLsb' 0 3 = f6 := by
  simp (disch := decide) only [BitVec.extractLsb'_cast, BitVec.extractLsb'_append_eq_of_le,
    BitVec.extractLsb'_append_eq_of_add_le]
  simp

theorem layout_4_1_5_6_16 (f0 : BitVec 4) (f1 : BitVec 1) (f2 : BitVec 5) (f3 : BitVec 6) (f4 : BitVec 16)
    (h : 4+1+5+6+16 = 32) :
      (BitVec.cast h (f0 ++ f1 ++ f2 ++ f3 ++ f4)).extractLsb' 28 4 = f0 ∧
      (BitVec.cast h (f0 ++ f1 ++ f2 ++ f3 ++ f4)).extractLsb' 27 1 = f1 ∧
      (BitVec.cast h (f0 ++ f1 ++ f2 ++ f3 ++ f4)).extractLsb' 22 5 = f2 ∧
      (BitVec.cast h (f0 ++ f1 ++ f2 ++ f3 ++ f4)).extractLsb' 16 6 = f3 ∧
      (BitVec.cast h (f0 ++ f1 ++ f2 ++ f3 ++ f4)).extractLsb' 0 16 = f4 := by
  simp (disch := decide) only [BitVec.extractLsb'_cast, BitVec.extractLsb'_append_eq_of_le,
    BitVec.extractLsb'_append_eq_of_add_le]
  simp

theorem layout_4_1_5_4_1_1_2_2_10_2 (f0 : BitVec 4) (f1 : BitVec 1) (f2 : BitVec 5) (f3 : BitVec 4) (f4 : BitVec 1) (f5 : BitVec 1) (f6 : BitVec 2) (f7 : BitVec 2) (f8 : BitVec 10) (f9 : BitVec 2)
    (h : 4+1+5+4+1+1+2+2+10+2 = 32) :
      (BitVec.cast h (f0 ++ f1 ++ f2 ++ f3 ++ f4 ++ f5 ++ f6 ++ f7 ++ f8 ++ f9)).extractLsb' 28 4 = f0 ∧
      (BitVec.cast h (f0 ++ f1 ++ f2 ++ f3 ++ f4 ++ f5 ++ f6 ++ f7 ++ f8 ++ f9)).extractLsb' 27 1 = f1 ∧
      (BitVec.cast h (f0 ++ f1 ++ f2 ++ f3 ++ f4 ++ f5 ++ f6 ++ f7 ++ f8 ++ f9)).extractLsb' 22 5 = f2 ∧
      (BitVec.cast h (f0 ++ f1 ++ f2 ++ f3 ++ f4 ++ f5 ++ f6 ++ f7 ++ f8 ++ f9)).extractLsb' 18 4 = f3 ∧
      (BitVec.cast h (f0 ++ f1 ++ f2 ++ f3 ++ f4 ++ f5 ++ f6 ++ f7 ++ f8 ++ f9)).extractLsb' 17 1 = f4 ∧
      (BitVec.cast h (f0 ++ f1 ++ f2 ++ f3 ++ f4 ++ f5 ++ f6 ++ f7 ++ f8 ++ f9)).extractLsb' 16 1 = f5 ∧
      (BitVec.cast h (f0 ++ f1 ++ f2 ++ f3 ++ f4 ++ f5 ++ f6 ++ f7 ++ f8 ++ f9)).extractLsb' 14 2 = f6 ∧
      (BitVec.cast h (f0 ++ f1 ++ f2 ++ f3 ++ f4 ++ f5 ++ f6 ++ f7 ++ f8 ++ f9)).extractLsb' 12 2 = f7 ∧
      (BitVec.cast h (f0 ++ f1 ++ f2 ++ f3 ++ f4 ++ f5 ++ f6 ++ f7 ++ f8 ++ f9)).extractLsb' 2 10 = f8 ∧
      (BitVec.cast h (f0 ++ f1 ++ f2 ++ f3 ++ f4 ++ f5 ++ f6 ++ f7 ++ f8 ++ f9)).extractLsb' 0 2 = f9 := by
  simp (disch := decide) only [BitVec.extractLsb'_cast, BitVec.extractLsb'_append_eq_of_le,
    BitVec.extractLsb'_append_eq_of_add_le]
  simp

theorem layout_4_5_6_6_6_2_2_1 (f0 : BitVec 4) (f1 : BitVec 5) (f2 : BitVec 6) (f3 : BitVec 6) (f4 : BitVec 6) (f5 : BitVec 2) (f6 : BitVec 2) (f7 : BitVec 1)
    (h : 4+5+6+6+6+2+2+1 = 32) :
      (BitVec.cast h (f0 ++ f1 ++ f2 ++ f3 ++ f4 ++ f5 ++ f6 ++ f7)).extractLsb' 28 4 = f0 ∧
      (BitVec.cast h (f0 ++ f1 ++ f2 ++ f3 ++ f4 ++ f5 ++ f6 ++ f7)).extractLsb' 23 5 = f1 ∧
      (BitVec.cast h (f0 ++ f1 ++ f2 ++ f3 ++ f4 ++ f5 ++ f6 ++ f7)).extractLsb' 17 6 = f2 ∧
      (BitVec.cast h (f0 ++ f1 ++ f2 ++ f3 ++ f4 ++ f5 ++ f6 ++ f7)).extractLsb' 11 6 = f3 ∧
      (BitVec.cast h (f0 ++ f1 ++ f2 ++ f3 ++ f4 ++ f5 ++ f6 ++ f7)).extractLsb' 5 6 = f4 ∧
      (BitVec.cast h (f0 ++ f1 ++ f2 ++ f3 ++ f4 ++ f5 ++ f6 ++ f7)).extractLsb' 3 2 = f5 ∧
      (BitVec.cast h (f0 ++ f1 ++ f2 ++ f3 ++ f4 ++ f5 ++ f6 ++ f7)).extractLsb' 1 2 = f6 ∧
      (BitVec.cast h (f0 ++ f1 ++ f2 ++ f3 ++ f4 ++ f5 ++ f6 ++ f7)).extractLsb' 0 1 = f7 := by
  simp (disch := decide) only [BitVec.extractLsb'_cast, BitVec.extractLsb'_append_eq_of_le,
    BitVec.extractLsb'_append_eq_of_add_le]
  simp

theorem layout_4_5_18_2_2_1 (f0 : BitVec 4) (f1 : BitVec 5) (f2 : BitVec 18) (f3 : BitVec 2) (f4 : BitVec 2) (f5 : BitVec 1)
    (h : 4+5+18+2+2+1 = 32) :
      (BitVec.cast h (f0 ++ f1 ++ f2 ++ f3 ++ f4 ++ f5)).extractLsb' 28 4 = f0 ∧
      (BitVec.cast h (f0 ++ f1 ++ f2 ++ f3 ++ f4 ++ f5)).extractLsb' 23 5 = f1 ∧
      (BitVec.cast h (f0 ++ f1 ++ f2 ++ f3 ++ f4 ++ f5)).extractLsb' 5 18 = f2 ∧
      (BitVec.cast h (f0 ++ f1 ++ f2 ++ f3 ++ f4 ++ f5)).extractLsb' 3 2 = f3 ∧
      (BitVec.cast h (f0 ++ f1 ++ f2 ++ f3 ++ f4 ++ f5)).extractLsb' 1 2 = f4 ∧
      (BitVec.cast h (f0 ++ f1 ++ f2 ++ f3 ++ f4 ++ f5)).extractLsb' 0 1 = f5 := by
  simp (disch := decide) only [BitVec.extractLsb'_cast, BitVec.extractLsb'_append_eq_of_le,
    BitVec.extractLsb'_append_eq_of_add_le]
  simp

theorem layout_4_6_6_6_2_8 (f0 : BitVec 4) (f1 : BitVec 6) (f2 : BitVec 6) (f3 : BitVec 6) (f4 : BitVec 2) (f5 : BitVec 8)
    (h : 4+6+6+6+2+8 = 32) :
      (BitVec.cast h (f0 ++ f1 ++ f2 ++ f3 ++ f4 ++ f5)).extractLsb' 28 4 = f0 ∧
      (BitVec.cast h (f0 ++ f1 ++ f2 ++ f3 ++ f4 ++ f5)).extractLsb' 22 6 = f1 ∧
      (BitVec.cast h (f0 ++ f1 ++ f2 ++ f3 ++ f4 ++ f5)).extractLsb' 16 6 = f2 ∧
      (BitVec.cast h (f0 ++ f1 ++ f2 ++ f3 ++ f4 ++ f5)).extractLsb' 10 6 = f3 ∧
      (BitVec.cast h (f0 ++ f1 ++ f2 ++ f3 ++ f4 ++ f5)).extractLsb' 8 2 = f4 ∧
      (BitVec.cast h (f0 ++ f1 ++ f2 ++ f3 ++ f4 ++ f5)).extractLsb' 0 8 = f5 := by
  simp (disch := decide) only [BitVec.extractLsb'_cast, BitVec.extractLsb'_append_eq_of_le,
    BitVec.extractLsb'_append_eq_of_add_le]
  simp

theorem layout_4_6_14_8 (f0 : BitVec 4) (f1 : BitVec 6) (f2 : BitVec 14) (f3 : BitVec 8)
    (h : 4+6+14+8 = 32) :
      (BitVec.cast h (f0 ++ f1 ++ f2 ++ f3)).extractLsb' 28 4 = f0 ∧
      (BitVec.cast h (f0 ++ f1 ++ f2 ++ f3)).extractLsb' 22 6 = f1 ∧
      (BitVec.cast h (f0 ++ f1 ++ f2 ++ f3)).extractLsb' 8 14 = f2 ∧
      (BitVec.cast h (f0 ++ f1 ++ f2 ++ f3)).extractLsb' 0 8 = f3 := by
  simp (disch := decide) only [BitVec.extractLsb'_cast, BitVec.extractLsb'_append_eq_of_le,
    BitVec.extractLsb'_append_eq_of_add_le]
  simp

theorem layout_4_6_6_6_8_2 (f0 : BitVec 4) (f1 : BitVec 6) (f2 : BitVec 6) (f3 : BitVec 6) (f4 : BitVec 8) (f5 : BitVec 2)
    (h : 4+6+6+6+8+2 = 32) :
      (BitVec.cast h (f0 ++ f1 ++ f2 ++ f3 ++ f4 ++ f5)).extractLsb' 28 4 = f0 ∧
      (BitVec.cast h (f0 ++ f1 ++ f2 ++ f3 ++ f4 ++ f5)).extractLsb' 22 6 = f1 ∧
      (BitVec.cast h (f0 ++ f1 ++ f2 ++ f3 ++ f4 ++ f5)).extractLsb' 16 6 = f2 ∧
      (BitVec.cast h (f0 ++ f1 ++ f2 ++ f3 ++ f4 ++ f5)).extractLsb' 10 6 = f3 ∧
      (BitVec.cast h (f0 ++ f1 ++ f2 ++ f3 ++ f4 ++ f5)).extractLsb' 2 8 = f4 ∧
      (BitVec.cast h (f0 ++ f1 ++ f2 ++ f3 ++ f4 ++ f5)).extractLsb' 0 2 = f5 := by
  simp (disch := decide) only [BitVec.extractLsb'_cast, BitVec.extractLsb'_append_eq_of_le,
    BitVec.extractLsb'_append_eq_of_add_le]
  simp

theorem layout_4_6_6_6_1_9 (f0 : BitVec 4) (f1 : BitVec 6) (f2 : BitVec 6) (f3 : BitVec 6) (f4 : BitVec 1) (f5 : BitVec 9)
    (h : 4+6+6+6+1+9 = 32) :
      (BitVec.cast h (f0 ++ f1 ++ f2 ++ f3 ++ f4 ++ f5)).extractLsb' 28 4 = f0 ∧
      (BitVec.cast h (f0 ++ f1 ++ f2 ++ f3 ++ f4 ++ f5)).extractLsb' 22 6 = f1 ∧
      (BitVec.cast h (f0 ++ f1 ++ f2 ++ f3 ++ f4 ++ f5)).extractLsb' 16 6 = f2 ∧
      (BitVec.cast h (f0 ++ f1 ++ f2 ++ f3 ++ f4 ++ f5)).extractLsb' 10 6 = f3 ∧
      (BitVec.cast h (f0 ++ f1 ++ f2 ++ f3 ++ f4 ++ f5)).extractLsb' 9 1 = f4 ∧
      (BitVec.cast h (f0 ++ f1 ++ f2 ++ f3 ++ f4 ++ f5)).extractLsb' 0 9 = f5 := by
  simp (disch := decide) only [BitVec.extractLsb'_cast, BitVec.extractLsb'_append_eq_of_le,
    BitVec.extractLsb'_append_eq_of_add_le]
  simp

theorem layout_4_6_6_6_4_2_4 (f0 : BitVec 4) (f1 : BitVec 6) (f2 : BitVec 6) (f3 : BitVec 6) (f4 : BitVec 4) (f5 : BitVec 2) (f6 : BitVec 4)
    (h : 4+6+6+6+4+2+4 = 32) :
      (BitVec.cast h (f0 ++ f1 ++ f2 ++ f3 ++ f4 ++ f5 ++ f6)).extractLsb' 28 4 = f0 ∧
      (BitVec.cast h (f0 ++ f1 ++ f2 ++ f3 ++ f4 ++ f5 ++ f6)).extractLsb' 22 6 = f1 ∧
      (BitVec.cast h (f0 ++ f1 ++ f2 ++ f3 ++ f4 ++ f5 ++ f6)).extractLsb' 16 6 = f2 ∧
      (BitVec.cast h (f0 ++ f1 ++ f2 ++ f3 ++ f4 ++ f5 ++ f6)).extractLsb' 10 6 = f3 ∧
      (BitVec.cast h (f0 ++ f1 ++ f2 ++ f3 ++ f4 ++ f5 ++ f6)).extractLsb' 6 4 = f4 ∧
      (BitVec.cast h (f0 ++ f1 ++ f2 ++ f3 ++ f4 ++ f5 ++ f6)).extractLsb' 4 2 = f5 ∧
      (BitVec.cast h (f0 ++ f1 ++ f2 ++ f3 ++ f4 ++ f5 ++ f6)).extractLsb' 0 4 = f6 := by
  simp (disch := decide) only [BitVec.extractLsb'_cast, BitVec.extractLsb'_append_eq_of_le,
    BitVec.extractLsb'_append_eq_of_add_le]
  simp

theorem layout_4_6_6_10_2_4 (f0 : BitVec 4) (f1 : BitVec 6) (f2 : BitVec 6) (f3 : BitVec 10) (f4 : BitVec 2) (f5 : BitVec 4)
    (h : 4+6+6+10+2+4 = 32) :
      (BitVec.cast h (f0 ++ f1 ++ f2 ++ f3 ++ f4 ++ f5)).extractLsb' 28 4 = f0 ∧
      (BitVec.cast h (f0 ++ f1 ++ f2 ++ f3 ++ f4 ++ f5)).extractLsb' 22 6 = f1 ∧
      (BitVec.cast h (f0 ++ f1 ++ f2 ++ f3 ++ f4 ++ f5)).extractLsb' 16 6 = f2 ∧
      (BitVec.cast h (f0 ++ f1 ++ f2 ++ f3 ++ f4 ++ f5)).extractLsb' 6 10 = f3 ∧
      (BitVec.cast h (f0 ++ f1 ++ f2 ++ f3 ++ f4 ++ f5)).extractLsb' 4 2 = f4 ∧
      (BitVec.cast h (f0 ++ f1 ++ f2 ++ f3 ++ f4 ++ f5)).extractLsb' 0 4 = f5 := by
  simp (disch := decide) only [BitVec.extractLsb'_cast, BitVec.extractLsb'_append_eq_of_le,
    BitVec.extractLsb'_append_eq_of_add_le]
  simp

theorem layout_4_6_6_6_5_1_1_1_2 (f0 : BitVec 4) (f1 : BitVec 6) (f2 : BitVec 6) (f3 : BitVec 6) (f4 : BitVec 5) (f5 : BitVec 1) (f6 : BitVec 1) (f7 : BitVec 1) (f8 : BitVec 2)
    (h : 4+6+6+6+5+1+1+1+2 = 32) :
      (BitVec.cast h (f0 ++ f1 ++ f2 ++ f3 ++ f4 ++ f5 ++ f6 ++ f7 ++ f8)).extractLsb' 28 4 = f0 ∧
      (BitVec.cast h (f0 ++ f1 ++ f2 ++ f3 ++ f4 ++ f5 ++ f6 ++ f7 ++ f8)).extractLsb' 22 6 = f1 ∧
      (BitVec.cast h (f0 ++ f1 ++ f2 ++ f3 ++ f4 ++ f5 ++ f6 ++ f7 ++ f8)).extractLsb' 16 6 = f2 ∧
      (BitVec.cast h (f0 ++ f1 ++ f2 ++ f3 ++ f4 ++ f5 ++ f6 ++ f7 ++ f8)).extractLsb' 10 6 = f3 ∧
      (BitVec.cast h (f0 ++ f1 ++ f2 ++ f3 ++ f4 ++ f5 ++ f6 ++ f7 ++ f8)).extractLsb' 5 5 = f4 ∧
      (BitVec.cast h (f0 ++ f1 ++ f2 ++ f3 ++ f4 ++ f5 ++ f6 ++ f7 ++ f8)).extractLsb' 4 1 = f5 ∧
      (BitVec.cast h (f0 ++ f1 ++ f2 ++ f3 ++ f4 ++ f5 ++ f6 ++ f7 ++ f8)).extractLsb' 3 1 = f6 ∧
      (BitVec.cast h (f0 ++ f1 ++ f2 ++ f3 ++ f4 ++ f5 ++ f6 ++ f7 ++ f8)).extractLsb' 2 1 = f7 ∧
      (BitVec.cast h (f0 ++ f1 ++ f2 ++ f3 ++ f4 ++ f5 ++ f6 ++ f7 ++ f8)).extractLsb' 0 2 = f8 := by
  simp (disch := decide) only [BitVec.extractLsb'_cast, BitVec.extractLsb'_append_eq_of_le,
    BitVec.extractLsb'_append_eq_of_add_le]
  simp

theorem layout_4_6_6_14_2 (f0 : BitVec 4) (f1 : BitVec 6) (f2 : BitVec 6) (f3 : BitVec 14) (f4 : BitVec 2)
    (h : 4+6+6+14+2 = 32) :
      (BitVec.cast h (f0 ++ f1 ++ f2 ++ f3 ++ f4)).extractLsb' 28 4 = f0 ∧
      (BitVec.cast h (f0 ++ f1 ++ f2 ++ f3 ++ f4)).extractLsb' 22 6 = f1 ∧
      (BitVec.cast h (f0 ++ f1 ++ f2 ++ f3 ++ f4)).extractLsb' 16 6 = f2 ∧
      (BitVec.cast h (f0 ++ f1 ++ f2 ++ f3 ++ f4)).extractLsb' 2 14 = f3 ∧
      (BitVec.cast h (f0 ++ f1 ++ f2 ++ f3 ++ f4)).extractLsb' 0 2 = f4 := by
  simp (disch := decide) only [BitVec.extractLsb'_cast, BitVec.extractLsb'_append_eq_of_le,
    BitVec.extractLsb'_append_eq_of_add_le]
  simp

theorem layout_4_6_20_2 (f0 : BitVec 4) (f1 : BitVec 6) (f2 : BitVec 20) (f3 : BitVec 2)
    (h : 4+6+20+2 = 32) :
      (BitVec.cast h (f0 ++ f1 ++ f2 ++ f3)).extractLsb' 28 4 = f0 ∧
      (BitVec.cast h (f0 ++ f1 ++ f2 ++ f3)).extractLsb' 22 6 = f1 ∧
      (BitVec.cast h (f0 ++ f1 ++ f2 ++ f3)).extractLsb' 2 20 = f2 ∧
      (BitVec.cast h (f0 ++ f1 ++ f2 ++ f3)).extractLsb' 0 2 = f3 := by
  simp (disch := decide) only [BitVec.extractLsb'_cast, BitVec.extractLsb'_append_eq_of_le,
    BitVec.extractLsb'_append_eq_of_add_le]
  simp

theorem layout_4_6_6_6_4_2_2_2 (f0 : BitVec 4) (f1 : BitVec 6) (f2 : BitVec 6) (f3 : BitVec 6) (f4 : BitVec 4) (f5 : BitVec 2) (f6 : BitVec 2) (f7 : BitVec 2)
    (h : 4+6+6+6+4+2+2+2 = 32) :
      (BitVec.cast h (f0 ++ f1 ++ f2 ++ f3 ++ f4 ++ f5 ++ f6 ++ f7)).extractLsb' 28 4 = f0 ∧
      (BitVec.cast h (f0 ++ f1 ++ f2 ++ f3 ++ f4 ++ f5 ++ f6 ++ f7)).extractLsb' 22 6 = f1 ∧
      (BitVec.cast h (f0 ++ f1 ++ f2 ++ f3 ++ f4 ++ f5 ++ f6 ++ f7)).extractLsb' 16 6 = f2 ∧
      (BitVec.cast h (f0 ++ f1 ++ f2 ++ f3 ++ f4 ++ f5 ++ f6 ++ f7)).extractLsb' 10 6 = f3 ∧
      (BitVec.cast h (f0 ++ f1 ++ f2 ++ f3 ++ f4 ++ f5 ++ f6 ++ f7)).extractLsb' 6 4 = f4 ∧
      (BitVec.cast h (f0 ++ f1 ++ f2 ++ f3 ++ f4 ++ f5 ++ f6 ++ f7)).extractLsb' 4 2 = f5 ∧
      (BitVec.cast h (f0 ++ f1 ++ f2 ++ f3 ++ f4 ++ f5 ++ f6 ++ f7)).extractLsb' 2 2 = f6 ∧
      (BitVec.cast h (f0 ++ f1 ++ f2 ++ f3 ++ f4 ++ f5 ++ f6 ++ f7)).extractLsb' 0 2 = f7 := by
  simp (disch := decide) only [BitVec.extractLsb'_cast, BitVec.extractLsb'_append_eq_of_le,
    BitVec.extractLsb'_append_eq_of_add_le]
  simp

theorem layout_4_6_22 (f0 : BitVec 4) (f1 : BitVec 6) (f2 : BitVec 22)
    (h : 4+6+22 = 32) :
      (BitVec.cast h (f0 ++ f1 ++ f2)).extractLsb' 28 4 = f0 ∧
      (BitVec.cast h (f0 ++ f1 ++ f2)).extractLsb' 22 6 = f1 ∧
      (BitVec.cast h (f0 ++ f1 ++ f2)).extractLsb' 0 22 = f2 := by
  simp (disch := decide) only [BitVec.extractLsb'_cast, BitVec.extractLsb'_append_eq_of_le,
    BitVec.extractLsb'_append_eq_of_add_le]
  simp

theorem layout_4_6_6_16 (f0 : BitVec 4) (f1 : BitVec 6) (f2 : BitVec 6) (f3 : BitVec 16)
    (h : 4+6+6+16 = 32) :
      (BitVec.cast h (f0 ++ f1 ++ f2 ++ f3)).extractLsb' 28 4 = f0 ∧
      (BitVec.cast h (f0 ++ f1 ++ f2 ++ f3)).extractLsb' 22 6 = f1 ∧
      (BitVec.cast h (f0 ++ f1 ++ f2 ++ f3)).extractLsb' 16 6 = f2 ∧
      (BitVec.cast h (f0 ++ f1 ++ f2 ++ f3)).extractLsb' 0 16 = f3 := by
  simp (disch := decide) only [BitVec.extractLsb'_cast, BitVec.extractLsb'_append_eq_of_le,
    BitVec.extractLsb'_append_eq_of_add_le]
  simp

theorem slot_decodeSRR (w : SlotWord) (h : w.extractLsb' 28 4 = 0x0#4) : decodeSlot w = decodeSRR w := by
  unfold decodeSlot; rw [h]; rfl

theorem slot_decodeSRI (w : SlotWord) (h : w.extractLsb' 28 4 = 0x1#4) : decodeSlot w = decodeSRI w := by
  unfold decodeSlot; rw [h]; rfl

theorem slot_decodeSMem (w : SlotWord) (h : w.extractLsb' 28 4 = 0x2#4) : decodeSlot w = decodeSMem w := by
  unfold decodeSlot; rw [h]; rfl

theorem slot_decodeSCtl (w : SlotWord) (h : w.extractLsb' 28 4 = 0x3#4) : decodeSlot w = decodeSCtl w := by
  unfold decodeSlot; rw [h]; rfl

theorem slot_decodeVFp (w : SlotWord) (h : w.extractLsb' 28 4 = 0x4#4) : decodeSlot w = decodeVFp w := by
  unfold decodeSlot; rw [h]; rfl

theorem slot_decodeVFp64 (w : SlotWord) (h : w.extractLsb' 28 4 = 0x5#4) : decodeSlot w = decodeVFp64 w := by
  unfold decodeSlot; rw [h]; rfl

theorem slot_decodeVInt (w : SlotWord) (h : w.extractLsb' 28 4 = 0x6#4) : decodeSlot w = decodeVInt w := by
  unfold decodeSlot; rw [h]; rfl

theorem slot_decodeVXfer (w : SlotWord) (h : w.extractLsb' 28 4 = 0x7#4) : decodeSlot w = decodeVXfer w := by
  unfold decodeSlot; rw [h]; rfl

theorem slot_decodeACmd (w : SlotWord) (h : w.extractLsb' 28 4 = 0x8#4) : decodeSlot w = decodeACmd w := by
  unfold decodeSlot; rw [h]; rfl

theorem slot_decodeACfg (w : SlotWord) (h : w.extractLsb' 28 4 = 0x9#4) : decodeSlot w = decodeACfg w := by
  unfold decodeSlot; rw [h]; rfl

theorem slot_decodeCCmd (w : SlotWord) (h : w.extractLsb' 28 4 = 0xA#4) : decodeSlot w = decodeCCmd w := by
  unfold decodeSlot; rw [h]; rfl

theorem slot_decodeYSync (w : SlotWord) (h : w.extractLsb' 28 4 = 0xB#4) : decodeSlot w = decodeYSync w := by
  unfold decodeSlot; rw [h]; rfl

theorem slot_decodeKSys (w : SlotWord) (h : w.extractLsb' 28 4 = 0xC#4) : decodeSlot w = decodeKSys w := by
  unfold decodeSlot; rw [h]; rfl

theorem Encoding.add (d : BitVec 6) (a : BitVec 6) (b : BitVec 6) (g : BitVec 3) (i : BitVec 1) : Encoding.Statement (.add d a b g i) := by
  intro _
  obtain ⟨h0, h1, h2, h3, h4, h5, h6⟩ := layout_4_6_6_6_6_3_1 0x0#4 0x0#6 d a b g i rfl
  refine (slot_decodeSRR _ h0).trans ?_
  unfold decodeSRR
  rw [h1]
  change Decoded.instr _ = _
  rw [h2, h3, h4, h5, h6]

theorem Encoding.sub (d : BitVec 6) (a : BitVec 6) (b : BitVec 6) (g : BitVec 3) (i : BitVec 1) : Encoding.Statement (.sub d a b g i) := by
  intro _
  obtain ⟨h0, h1, h2, h3, h4, h5, h6⟩ := layout_4_6_6_6_6_3_1 0x0#4 0x1#6 d a b g i rfl
  refine (slot_decodeSRR _ h0).trans ?_
  unfold decodeSRR
  rw [h1]
  change Decoded.instr _ = _
  rw [h2, h3, h4, h5, h6]

theorem Encoding.and (d : BitVec 6) (a : BitVec 6) (b : BitVec 6) (g : BitVec 3) (i : BitVec 1) : Encoding.Statement (.and d a b g i) := by
  intro _
  obtain ⟨h0, h1, h2, h3, h4, h5, h6⟩ := layout_4_6_6_6_6_3_1 0x0#4 0x2#6 d a b g i rfl
  refine (slot_decodeSRR _ h0).trans ?_
  unfold decodeSRR
  rw [h1]
  change Decoded.instr _ = _
  rw [h2, h3, h4, h5, h6]

theorem Encoding.or (d : BitVec 6) (a : BitVec 6) (b : BitVec 6) (g : BitVec 3) (i : BitVec 1) : Encoding.Statement (.or d a b g i) := by
  intro _
  obtain ⟨h0, h1, h2, h3, h4, h5, h6⟩ := layout_4_6_6_6_6_3_1 0x0#4 0x3#6 d a b g i rfl
  refine (slot_decodeSRR _ h0).trans ?_
  unfold decodeSRR
  rw [h1]
  change Decoded.instr _ = _
  rw [h2, h3, h4, h5, h6]

theorem Encoding.xor (d : BitVec 6) (a : BitVec 6) (b : BitVec 6) (g : BitVec 3) (i : BitVec 1) : Encoding.Statement (.xor d a b g i) := by
  intro _
  obtain ⟨h0, h1, h2, h3, h4, h5, h6⟩ := layout_4_6_6_6_6_3_1 0x0#4 0x4#6 d a b g i rfl
  refine (slot_decodeSRR _ h0).trans ?_
  unfold decodeSRR
  rw [h1]
  change Decoded.instr _ = _
  rw [h2, h3, h4, h5, h6]

theorem Encoding.andn (d : BitVec 6) (a : BitVec 6) (b : BitVec 6) (g : BitVec 3) (i : BitVec 1) : Encoding.Statement (.andn d a b g i) := by
  intro _
  obtain ⟨h0, h1, h2, h3, h4, h5, h6⟩ := layout_4_6_6_6_6_3_1 0x0#4 0x5#6 d a b g i rfl
  refine (slot_decodeSRR _ h0).trans ?_
  unfold decodeSRR
  rw [h1]
  change Decoded.instr _ = _
  rw [h2, h3, h4, h5, h6]

theorem Encoding.shl (d : BitVec 6) (a : BitVec 6) (b : BitVec 6) (g : BitVec 3) (i : BitVec 1) : Encoding.Statement (.shl d a b g i) := by
  intro _
  obtain ⟨h0, h1, h2, h3, h4, h5, h6⟩ := layout_4_6_6_6_6_3_1 0x0#4 0x6#6 d a b g i rfl
  refine (slot_decodeSRR _ h0).trans ?_
  unfold decodeSRR
  rw [h1]
  change Decoded.instr _ = _
  rw [h2, h3, h4, h5, h6]

theorem Encoding.shr (d : BitVec 6) (a : BitVec 6) (b : BitVec 6) (g : BitVec 3) (i : BitVec 1) : Encoding.Statement (.shr d a b g i) := by
  intro _
  obtain ⟨h0, h1, h2, h3, h4, h5, h6⟩ := layout_4_6_6_6_6_3_1 0x0#4 0x7#6 d a b g i rfl
  refine (slot_decodeSRR _ h0).trans ?_
  unfold decodeSRR
  rw [h1]
  change Decoded.instr _ = _
  rw [h2, h3, h4, h5, h6]

theorem Encoding.sar (d : BitVec 6) (a : BitVec 6) (b : BitVec 6) (g : BitVec 3) (i : BitVec 1) : Encoding.Statement (.sar d a b g i) := by
  intro _
  obtain ⟨h0, h1, h2, h3, h4, h5, h6⟩ := layout_4_6_6_6_6_3_1 0x0#4 0x8#6 d a b g i rfl
  refine (slot_decodeSRR _ h0).trans ?_
  unfold decodeSRR
  rw [h1]
  change Decoded.instr _ = _
  rw [h2, h3, h4, h5, h6]

theorem Encoding.rol (d : BitVec 6) (a : BitVec 6) (b : BitVec 6) (g : BitVec 3) (i : BitVec 1) : Encoding.Statement (.rol d a b g i) := by
  intro _
  obtain ⟨h0, h1, h2, h3, h4, h5, h6⟩ := layout_4_6_6_6_6_3_1 0x0#4 0x9#6 d a b g i rfl
  refine (slot_decodeSRR _ h0).trans ?_
  unfold decodeSRR
  rw [h1]
  change Decoded.instr _ = _
  rw [h2, h3, h4, h5, h6]

theorem Encoding.mul (d : BitVec 6) (a : BitVec 6) (b : BitVec 6) (g : BitVec 3) (i : BitVec 1) : Encoding.Statement (.mul d a b g i) := by
  intro _
  obtain ⟨h0, h1, h2, h3, h4, h5, h6⟩ := layout_4_6_6_6_6_3_1 0x0#4 0xa#6 d a b g i rfl
  refine (slot_decodeSRR _ h0).trans ?_
  unfold decodeSRR
  rw [h1]
  change Decoded.instr _ = _
  rw [h2, h3, h4, h5, h6]

theorem Encoding.mulhs (d : BitVec 6) (a : BitVec 6) (b : BitVec 6) (g : BitVec 3) (i : BitVec 1) : Encoding.Statement (.mulhs d a b g i) := by
  intro _
  obtain ⟨h0, h1, h2, h3, h4, h5, h6⟩ := layout_4_6_6_6_6_3_1 0x0#4 0xb#6 d a b g i rfl
  refine (slot_decodeSRR _ h0).trans ?_
  unfold decodeSRR
  rw [h1]
  change Decoded.instr _ = _
  rw [h2, h3, h4, h5, h6]

theorem Encoding.mulhu (d : BitVec 6) (a : BitVec 6) (b : BitVec 6) (g : BitVec 3) (i : BitVec 1) : Encoding.Statement (.mulhu d a b g i) := by
  intro _
  obtain ⟨h0, h1, h2, h3, h4, h5, h6⟩ := layout_4_6_6_6_6_3_1 0x0#4 0xc#6 d a b g i rfl
  refine (slot_decodeSRR _ h0).trans ?_
  unfold decodeSRR
  rw [h1]
  change Decoded.instr _ = _
  rw [h2, h3, h4, h5, h6]

theorem Encoding.divs (d : BitVec 6) (a : BitVec 6) (b : BitVec 6) (g : BitVec 3) (i : BitVec 1) : Encoding.Statement (.divs d a b g i) := by
  intro _
  obtain ⟨h0, h1, h2, h3, h4, h5, h6⟩ := layout_4_6_6_6_6_3_1 0x0#4 0xd#6 d a b g i rfl
  refine (slot_decodeSRR _ h0).trans ?_
  unfold decodeSRR
  rw [h1]
  change Decoded.instr _ = _
  rw [h2, h3, h4, h5, h6]

theorem Encoding.divu (d : BitVec 6) (a : BitVec 6) (b : BitVec 6) (g : BitVec 3) (i : BitVec 1) : Encoding.Statement (.divu d a b g i) := by
  intro _
  obtain ⟨h0, h1, h2, h3, h4, h5, h6⟩ := layout_4_6_6_6_6_3_1 0x0#4 0xe#6 d a b g i rfl
  refine (slot_decodeSRR _ h0).trans ?_
  unfold decodeSRR
  rw [h1]
  change Decoded.instr _ = _
  rw [h2, h3, h4, h5, h6]

theorem Encoding.rems (d : BitVec 6) (a : BitVec 6) (b : BitVec 6) (g : BitVec 3) (i : BitVec 1) : Encoding.Statement (.rems d a b g i) := by
  intro _
  obtain ⟨h0, h1, h2, h3, h4, h5, h6⟩ := layout_4_6_6_6_6_3_1 0x0#4 0xf#6 d a b g i rfl
  refine (slot_decodeSRR _ h0).trans ?_
  unfold decodeSRR
  rw [h1]
  change Decoded.instr _ = _
  rw [h2, h3, h4, h5, h6]

theorem Encoding.remu (d : BitVec 6) (a : BitVec 6) (b : BitVec 6) (g : BitVec 3) (i : BitVec 1) : Encoding.Statement (.remu d a b g i) := by
  intro _
  obtain ⟨h0, h1, h2, h3, h4, h5, h6⟩ := layout_4_6_6_6_6_3_1 0x0#4 0x10#6 d a b g i rfl
  refine (slot_decodeSRR _ h0).trans ?_
  unfold decodeSRR
  rw [h1]
  change Decoded.instr _ = _
  rw [h2, h3, h4, h5, h6]

theorem Encoding.mins (d : BitVec 6) (a : BitVec 6) (b : BitVec 6) (g : BitVec 3) (i : BitVec 1) : Encoding.Statement (.mins d a b g i) := by
  intro _
  obtain ⟨h0, h1, h2, h3, h4, h5, h6⟩ := layout_4_6_6_6_6_3_1 0x0#4 0x11#6 d a b g i rfl
  refine (slot_decodeSRR _ h0).trans ?_
  unfold decodeSRR
  rw [h1]
  change Decoded.instr _ = _
  rw [h2, h3, h4, h5, h6]

theorem Encoding.minu (d : BitVec 6) (a : BitVec 6) (b : BitVec 6) (g : BitVec 3) (i : BitVec 1) : Encoding.Statement (.minu d a b g i) := by
  intro _
  obtain ⟨h0, h1, h2, h3, h4, h5, h6⟩ := layout_4_6_6_6_6_3_1 0x0#4 0x12#6 d a b g i rfl
  refine (slot_decodeSRR _ h0).trans ?_
  unfold decodeSRR
  rw [h1]
  change Decoded.instr _ = _
  rw [h2, h3, h4, h5, h6]

theorem Encoding.maxs (d : BitVec 6) (a : BitVec 6) (b : BitVec 6) (g : BitVec 3) (i : BitVec 1) : Encoding.Statement (.maxs d a b g i) := by
  intro _
  obtain ⟨h0, h1, h2, h3, h4, h5, h6⟩ := layout_4_6_6_6_6_3_1 0x0#4 0x13#6 d a b g i rfl
  refine (slot_decodeSRR _ h0).trans ?_
  unfold decodeSRR
  rw [h1]
  change Decoded.instr _ = _
  rw [h2, h3, h4, h5, h6]

theorem Encoding.maxu (d : BitVec 6) (a : BitVec 6) (b : BitVec 6) (g : BitVec 3) (i : BitVec 1) : Encoding.Statement (.maxu d a b g i) := by
  intro _
  obtain ⟨h0, h1, h2, h3, h4, h5, h6⟩ := layout_4_6_6_6_6_3_1 0x0#4 0x14#6 d a b g i rfl
  refine (slot_decodeSRR _ h0).trans ?_
  unfold decodeSRR
  rw [h1]
  change Decoded.instr _ = _
  rw [h2, h3, h4, h5, h6]

theorem Encoding.clz (d : BitVec 6) (a : BitVec 6) (g : BitVec 3) (i : BitVec 1) : Encoding.Statement (.clz d a g i) := by
  intro _
  obtain ⟨h0, h1, h2, h3, h4, h5, h6⟩ := layout_4_6_6_6_6_3_1 0x0#4 0x15#6 d a 0x0#6 g i rfl
  refine (slot_decodeSRR _ h0).trans ?_
  unfold decodeSRR
  rw [h1]
  refine (if_pos h4).trans ?_
  rw [h2, h3, h5, h6]

theorem Encoding.ctz (d : BitVec 6) (a : BitVec 6) (g : BitVec 3) (i : BitVec 1) : Encoding.Statement (.ctz d a g i) := by
  intro _
  obtain ⟨h0, h1, h2, h3, h4, h5, h6⟩ := layout_4_6_6_6_6_3_1 0x0#4 0x16#6 d a 0x0#6 g i rfl
  refine (slot_decodeSRR _ h0).trans ?_
  unfold decodeSRR
  rw [h1]
  refine (if_pos h4).trans ?_
  rw [h2, h3, h5, h6]

theorem Encoding.popc (d : BitVec 6) (a : BitVec 6) (g : BitVec 3) (i : BitVec 1) : Encoding.Statement (.popc d a g i) := by
  intro _
  obtain ⟨h0, h1, h2, h3, h4, h5, h6⟩ := layout_4_6_6_6_6_3_1 0x0#4 0x17#6 d a 0x0#6 g i rfl
  refine (slot_decodeSRR _ h0).trans ?_
  unfold decodeSRR
  rw [h1]
  refine (if_pos h4).trans ?_
  rw [h2, h3, h5, h6]

theorem Encoding.brev (d : BitVec 6) (a : BitVec 6) (g : BitVec 3) (i : BitVec 1) : Encoding.Statement (.brev d a g i) := by
  intro _
  obtain ⟨h0, h1, h2, h3, h4, h5, h6⟩ := layout_4_6_6_6_6_3_1 0x0#4 0x18#6 d a 0x0#6 g i rfl
  refine (slot_decodeSRR _ h0).trans ?_
  unfold decodeSRR
  rw [h1]
  refine (if_pos h4).trans ?_
  rw [h2, h3, h5, h6]

theorem Encoding.bswap (d : BitVec 6) (a : BitVec 6) (g : BitVec 3) (i : BitVec 1) : Encoding.Statement (.bswap d a g i) := by
  intro _
  obtain ⟨h0, h1, h2, h3, h4, h5, h6⟩ := layout_4_6_6_6_6_3_1 0x0#4 0x19#6 d a 0x0#6 g i rfl
  refine (slot_decodeSRR _ h0).trans ?_
  unfold decodeSRR
  rw [h1]
  refine (if_pos h4).trans ?_
  rw [h2, h3, h5, h6]

theorem Encoding.sext (d : BitVec 6) (a : BitVec 6) (b : BitVec 6) (g : BitVec 3) (i : BitVec 1) : Encoding.Statement (.sext d a b g i) := by
  intro _
  obtain ⟨h0, h1, h2, h3, h4, h5, h6⟩ := layout_4_6_6_6_6_3_1 0x0#4 0x1a#6 d a b g i rfl
  refine (slot_decodeSRR _ h0).trans ?_
  unfold decodeSRR
  rw [h1]
  change Decoded.instr _ = _
  rw [h2, h3, h4, h5, h6]

theorem Encoding.zext (d : BitVec 6) (a : BitVec 6) (b : BitVec 6) (g : BitVec 3) (i : BitVec 1) : Encoding.Statement (.zext d a b g i) := by
  intro _
  obtain ⟨h0, h1, h2, h3, h4, h5, h6⟩ := layout_4_6_6_6_6_3_1 0x0#4 0x1b#6 d a b g i rfl
  refine (slot_decodeSRR _ h0).trans ?_
  unfold decodeSRR
  rw [h1]
  change Decoded.instr _ = _
  rw [h2, h3, h4, h5, h6]

theorem Encoding.sel (d : BitVec 6) (a : BitVec 6) (b : BitVec 6) (p : BitVec 3) (n : BitVec 1) : Encoding.Statement (.sel d a b p n) := by
  intro _
  obtain ⟨h0, h1, h2, h3, h4, h5, h6⟩ := layout_4_6_6_6_6_3_1 0x0#4 0x1c#6 d a b p n rfl
  refine (slot_decodeSRR _ h0).trans ?_
  unfold decodeSRR
  rw [h1]
  change Decoded.instr _ = _
  rw [h2, h3, h4, h5, h6]

theorem Encoding.addw (d : BitVec 6) (a : BitVec 6) (b : BitVec 6) (g : BitVec 3) (i : BitVec 1) : Encoding.Statement (.addw d a b g i) := by
  intro _
  obtain ⟨h0, h1, h2, h3, h4, h5, h6⟩ := layout_4_6_6_6_6_3_1 0x0#4 0x1d#6 d a b g i rfl
  refine (slot_decodeSRR _ h0).trans ?_
  unfold decodeSRR
  rw [h1]
  change Decoded.instr _ = _
  rw [h2, h3, h4, h5, h6]

theorem Encoding.subw (d : BitVec 6) (a : BitVec 6) (b : BitVec 6) (g : BitVec 3) (i : BitVec 1) : Encoding.Statement (.subw d a b g i) := by
  intro _
  obtain ⟨h0, h1, h2, h3, h4, h5, h6⟩ := layout_4_6_6_6_6_3_1 0x0#4 0x1e#6 d a b g i rfl
  refine (slot_decodeSRR _ h0).trans ?_
  unfold decodeSRR
  rw [h1]
  change Decoded.instr _ = _
  rw [h2, h3, h4, h5, h6]

theorem Encoding.mulw (d : BitVec 6) (a : BitVec 6) (b : BitVec 6) (g : BitVec 3) (i : BitVec 1) : Encoding.Statement (.mulw d a b g i) := by
  intro _
  obtain ⟨h0, h1, h2, h3, h4, h5, h6⟩ := layout_4_6_6_6_6_3_1 0x0#4 0x1f#6 d a b g i rfl
  refine (slot_decodeSRR _ h0).trans ?_
  unfold decodeSRR
  rw [h1]
  change Decoded.instr _ = _
  rw [h2, h3, h4, h5, h6]

theorem Encoding.cmpeq (p : BitVec 3) (a : BitVec 6) (b : BitVec 6) (g : BitVec 3) (i : BitVec 1) : Encoding.Statement (.cmpeq p a b g i) := by
  intro _
  obtain ⟨h0, h1, h2, h3, h4, h5, h6, h7⟩ := layout_4_6_3_3_6_6_3_1 0x0#4 0x20#6 0x0#3 p a b g i rfl
  refine (slot_decodeSRR _ h0).trans ?_
  unfold decodeSRR
  rw [h1]
  refine (if_pos h2).trans ?_
  rw [h3, h4, h5, h6, h7]

theorem Encoding.cmpne (p : BitVec 3) (a : BitVec 6) (b : BitVec 6) (g : BitVec 3) (i : BitVec 1) : Encoding.Statement (.cmpne p a b g i) := by
  intro _
  obtain ⟨h0, h1, h2, h3, h4, h5, h6, h7⟩ := layout_4_6_3_3_6_6_3_1 0x0#4 0x21#6 0x0#3 p a b g i rfl
  refine (slot_decodeSRR _ h0).trans ?_
  unfold decodeSRR
  rw [h1]
  refine (if_pos h2).trans ?_
  rw [h3, h4, h5, h6, h7]

theorem Encoding.cmplts (p : BitVec 3) (a : BitVec 6) (b : BitVec 6) (g : BitVec 3) (i : BitVec 1) : Encoding.Statement (.cmplts p a b g i) := by
  intro _
  obtain ⟨h0, h1, h2, h3, h4, h5, h6, h7⟩ := layout_4_6_3_3_6_6_3_1 0x0#4 0x22#6 0x0#3 p a b g i rfl
  refine (slot_decodeSRR _ h0).trans ?_
  unfold decodeSRR
  rw [h1]
  refine (if_pos h2).trans ?_
  rw [h3, h4, h5, h6, h7]

theorem Encoding.cmpltu (p : BitVec 3) (a : BitVec 6) (b : BitVec 6) (g : BitVec 3) (i : BitVec 1) : Encoding.Statement (.cmpltu p a b g i) := by
  intro _
  obtain ⟨h0, h1, h2, h3, h4, h5, h6, h7⟩ := layout_4_6_3_3_6_6_3_1 0x0#4 0x23#6 0x0#3 p a b g i rfl
  refine (slot_decodeSRR _ h0).trans ?_
  unfold decodeSRR
  rw [h1]
  refine (if_pos h2).trans ?_
  rw [h3, h4, h5, h6, h7]

theorem Encoding.cmples (p : BitVec 3) (a : BitVec 6) (b : BitVec 6) (g : BitVec 3) (i : BitVec 1) : Encoding.Statement (.cmples p a b g i) := by
  intro _
  obtain ⟨h0, h1, h2, h3, h4, h5, h6, h7⟩ := layout_4_6_3_3_6_6_3_1 0x0#4 0x24#6 0x0#3 p a b g i rfl
  refine (slot_decodeSRR _ h0).trans ?_
  unfold decodeSRR
  rw [h1]
  refine (if_pos h2).trans ?_
  rw [h3, h4, h5, h6, h7]

theorem Encoding.cmpleu (p : BitVec 3) (a : BitVec 6) (b : BitVec 6) (g : BitVec 3) (i : BitVec 1) : Encoding.Statement (.cmpleu p a b g i) := by
  intro _
  obtain ⟨h0, h1, h2, h3, h4, h5, h6, h7⟩ := layout_4_6_3_3_6_6_3_1 0x0#4 0x25#6 0x0#3 p a b g i rfl
  refine (slot_decodeSRR _ h0).trans ?_
  unfold decodeSRR
  rw [h1]
  refine (if_pos h2).trans ?_
  rw [h3, h4, h5, h6, h7]

theorem Encoding.pand (p : BitVec 3) (a : BitVec 6) (b : BitVec 6) (g : BitVec 3) (i : BitVec 1) : Encoding.Statement (.pand p a b g i) := by
  intro _
  obtain ⟨h0, h1, h2, h3, h4, h5, h6, h7⟩ := layout_4_6_3_3_6_6_3_1 0x0#4 0x26#6 0x0#3 p a b g i rfl
  refine (slot_decodeSRR _ h0).trans ?_
  unfold decodeSRR
  rw [h1]
  refine (if_pos h2).trans ?_
  rw [h3, h4, h5, h6, h7]

theorem Encoding.por (p : BitVec 3) (a : BitVec 6) (b : BitVec 6) (g : BitVec 3) (i : BitVec 1) : Encoding.Statement (.por p a b g i) := by
  intro _
  obtain ⟨h0, h1, h2, h3, h4, h5, h6, h7⟩ := layout_4_6_3_3_6_6_3_1 0x0#4 0x27#6 0x0#3 p a b g i rfl
  refine (slot_decodeSRR _ h0).trans ?_
  unfold decodeSRR
  rw [h1]
  refine (if_pos h2).trans ?_
  rw [h3, h4, h5, h6, h7]

theorem Encoding.pxor (p : BitVec 3) (a : BitVec 6) (b : BitVec 6) (g : BitVec 3) (i : BitVec 1) : Encoding.Statement (.pxor p a b g i) := by
  intro _
  obtain ⟨h0, h1, h2, h3, h4, h5, h6, h7⟩ := layout_4_6_3_3_6_6_3_1 0x0#4 0x28#6 0x0#3 p a b g i rfl
  refine (slot_decodeSRR _ h0).trans ?_
  unfold decodeSRR
  rw [h1]
  refine (if_pos h2).trans ?_
  rw [h3, h4, h5, h6, h7]

theorem Encoding.pnot (p : BitVec 3) (a : BitVec 6) (g : BitVec 3) (i : BitVec 1) : Encoding.Statement (.pnot p a g i) := by
  intro _
  obtain ⟨h0, h1, h2, h3, h4, h5, h6, h7⟩ := layout_4_6_3_3_6_6_3_1 0x0#4 0x29#6 0x0#3 p a 0x0#6 g i rfl
  refine (slot_decodeSRR _ h0).trans ?_
  unfold decodeSRR
  rw [h1]
  refine (if_pos ⟨h2, h5⟩).trans ?_
  rw [h3, h4, h6, h7]

theorem Encoding.movp (d : BitVec 6) (g : BitVec 3) (i : BitVec 1) : Encoding.Statement (.movp d g i) := by
  intro _
  obtain ⟨h0, h1, h2, h3, h4, h5⟩ := layout_4_6_6_12_3_1 0x0#4 0x2a#6 d 0x0#12 g i rfl
  refine (slot_decodeSRR _ h0).trans ?_
  unfold decodeSRR
  rw [h1]
  refine (if_pos h3).trans ?_
  rw [h2, h4, h5]

theorem Encoding.movtp (a : BitVec 6) (g : BitVec 3) (i : BitVec 1) : Encoding.Statement (.movtp a g i) := by
  intro _
  obtain ⟨h0, h1, h2, h3, h4, h5, h6⟩ := layout_4_6_6_6_6_3_1 0x0#4 0x2b#6 0x0#6 a 0x0#6 g i rfl
  refine (slot_decodeSRR _ h0).trans ?_
  unfold decodeSRR
  rw [h1]
  refine (if_pos ⟨h2, h4⟩).trans ?_
  rw [h3, h5, h6]

theorem Encoding.addi (d : BitVec 6) (a : BitVec 6) (i : BitVec 10) : Encoding.Statement (.addi d a i) := by
  intro _
  obtain ⟨h0, h1, h2, h3, h4⟩ := layout_4_6_6_6_10 0x1#4 0x0#6 d a i rfl
  refine (slot_decodeSRI _ h0).trans ?_
  unfold decodeSRI
  rw [h1]
  change Decoded.instr _ = _
  rw [h2, h3, h4]

theorem Encoding.andi (d : BitVec 6) (a : BitVec 6) (i : BitVec 10) : Encoding.Statement (.andi d a i) := by
  intro _
  obtain ⟨h0, h1, h2, h3, h4⟩ := layout_4_6_6_6_10 0x1#4 0x1#6 d a i rfl
  refine (slot_decodeSRI _ h0).trans ?_
  unfold decodeSRI
  rw [h1]
  change Decoded.instr _ = _
  rw [h2, h3, h4]

theorem Encoding.ori (d : BitVec 6) (a : BitVec 6) (i : BitVec 10) : Encoding.Statement (.ori d a i) := by
  intro _
  obtain ⟨h0, h1, h2, h3, h4⟩ := layout_4_6_6_6_10 0x1#4 0x2#6 d a i rfl
  refine (slot_decodeSRI _ h0).trans ?_
  unfold decodeSRI
  rw [h1]
  change Decoded.instr _ = _
  rw [h2, h3, h4]

theorem Encoding.xori (d : BitVec 6) (a : BitVec 6) (i : BitVec 10) : Encoding.Statement (.xori d a i) := by
  intro _
  obtain ⟨h0, h1, h2, h3, h4⟩ := layout_4_6_6_6_10 0x1#4 0x3#6 d a i rfl
  refine (slot_decodeSRI _ h0).trans ?_
  unfold decodeSRI
  rw [h1]
  change Decoded.instr _ = _
  rw [h2, h3, h4]

theorem Encoding.shli (d : BitVec 6) (a : BitVec 6) (i : BitVec 10) : Encoding.Statement (.shli d a i) := by
  intro _
  obtain ⟨h0, h1, h2, h3, h4⟩ := layout_4_6_6_6_10 0x1#4 0x4#6 d a i rfl
  refine (slot_decodeSRI _ h0).trans ?_
  unfold decodeSRI
  rw [h1]
  change Decoded.instr _ = _
  rw [h2, h3, h4]

theorem Encoding.shri (d : BitVec 6) (a : BitVec 6) (i : BitVec 10) : Encoding.Statement (.shri d a i) := by
  intro _
  obtain ⟨h0, h1, h2, h3, h4⟩ := layout_4_6_6_6_10 0x1#4 0x5#6 d a i rfl
  refine (slot_decodeSRI _ h0).trans ?_
  unfold decodeSRI
  rw [h1]
  change Decoded.instr _ = _
  rw [h2, h3, h4]

theorem Encoding.sari (d : BitVec 6) (a : BitVec 6) (i : BitVec 10) : Encoding.Statement (.sari d a i) := by
  intro _
  obtain ⟨h0, h1, h2, h3, h4⟩ := layout_4_6_6_6_10 0x1#4 0x6#6 d a i rfl
  refine (slot_decodeSRI _ h0).trans ?_
  unfold decodeSRI
  rw [h1]
  change Decoded.instr _ = _
  rw [h2, h3, h4]

theorem Encoding.muli (d : BitVec 6) (a : BitVec 6) (i : BitVec 10) : Encoding.Statement (.muli d a i) := by
  intro _
  obtain ⟨h0, h1, h2, h3, h4⟩ := layout_4_6_6_6_10 0x1#4 0x7#6 d a i rfl
  refine (slot_decodeSRI _ h0).trans ?_
  unfold decodeSRI
  rw [h1]
  change Decoded.instr _ = _
  rw [h2, h3, h4]

theorem Encoding.li (d : BitVec 6) (i : BitVec 10) : Encoding.Statement (.li d i) := by
  intro _
  obtain ⟨h0, h1, h2, h3, h4⟩ := layout_4_6_6_6_10 0x1#4 0x8#6 d 0x0#6 i rfl
  refine (slot_decodeSRI _ h0).trans ?_
  unfold decodeSRI
  rw [h1]
  refine (if_pos h3).trans ?_
  rw [h2, h4]

theorem Encoding.lix (d : BitVec 6) (a : BitVec 6) (i : BitVec 10) : Encoding.Statement (.lix d a i) := by
  intro _
  obtain ⟨h0, h1, h2, h3, h4⟩ := layout_4_6_6_6_10 0x1#4 0x9#6 d a i rfl
  refine (slot_decodeSRI _ h0).trans ?_
  unfold decodeSRI
  rw [h1]
  change Decoded.instr _ = _
  rw [h2, h3, h4]

theorem Encoding.cmpeqi (p : BitVec 3) (a : BitVec 6) (i : BitVec 10) : Encoding.Statement (.cmpeqi p a i) := by
  intro _
  obtain ⟨h0, h1, h2, h3, h4, h5⟩ := layout_4_6_3_3_6_10 0x1#4 0xa#6 0x0#3 p a i rfl
  refine (slot_decodeSRI _ h0).trans ?_
  unfold decodeSRI
  rw [h1]
  refine (if_pos h2).trans ?_
  rw [h3, h4, h5]

theorem Encoding.cmpltsi (p : BitVec 3) (a : BitVec 6) (i : BitVec 10) : Encoding.Statement (.cmpltsi p a i) := by
  intro _
  obtain ⟨h0, h1, h2, h3, h4, h5⟩ := layout_4_6_3_3_6_10 0x1#4 0xb#6 0x0#3 p a i rfl
  refine (slot_decodeSRI _ h0).trans ?_
  unfold decodeSRI
  rw [h1]
  refine (if_pos h2).trans ?_
  rw [h3, h4, h5]

theorem Encoding.cmpltui (p : BitVec 3) (a : BitVec 6) (i : BitVec 10) : Encoding.Statement (.cmpltui p a i) := by
  intro _
  obtain ⟨h0, h1, h2, h3, h4, h5⟩ := layout_4_6_3_3_6_10 0x1#4 0xc#6 0x0#3 p a i rfl
  refine (slot_decodeSRI _ h0).trans ?_
  unfold decodeSRI
  rw [h1]
  refine (if_pos h2).trans ?_
  rw [h3, h4, h5]

theorem Encoding.ldb (d : BitVec 6) (b : BitVec 6) (w : BitVec 2) (o : BitVec 10) : Encoding.Statement (.ldb d b w o) := by
  intro _
  obtain ⟨h0, h1, h2, h3, h4, h5⟩ := layout_4_4_6_6_2_10 0x2#4 0x0#4 d b w o rfl
  refine (slot_decodeSMem _ h0).trans ?_
  unfold decodeSMem
  rw [h1]
  change Decoded.instr _ = _
  rw [h2, h3, h4, h5]

theorem Encoding.ldbu (d : BitVec 6) (b : BitVec 6) (w : BitVec 2) (o : BitVec 10) : Encoding.Statement (.ldbu d b w o) := by
  intro _
  obtain ⟨h0, h1, h2, h3, h4, h5⟩ := layout_4_4_6_6_2_10 0x2#4 0x1#4 d b w o rfl
  refine (slot_decodeSMem _ h0).trans ?_
  unfold decodeSMem
  rw [h1]
  change Decoded.instr _ = _
  rw [h2, h3, h4, h5]

theorem Encoding.ldh (d : BitVec 6) (b : BitVec 6) (w : BitVec 2) (o : BitVec 10) : Encoding.Statement (.ldh d b w o) := by
  intro _
  obtain ⟨h0, h1, h2, h3, h4, h5⟩ := layout_4_4_6_6_2_10 0x2#4 0x2#4 d b w o rfl
  refine (slot_decodeSMem _ h0).trans ?_
  unfold decodeSMem
  rw [h1]
  change Decoded.instr _ = _
  rw [h2, h3, h4, h5]

theorem Encoding.ldhu (d : BitVec 6) (b : BitVec 6) (w : BitVec 2) (o : BitVec 10) : Encoding.Statement (.ldhu d b w o) := by
  intro _
  obtain ⟨h0, h1, h2, h3, h4, h5⟩ := layout_4_4_6_6_2_10 0x2#4 0x3#4 d b w o rfl
  refine (slot_decodeSMem _ h0).trans ?_
  unfold decodeSMem
  rw [h1]
  change Decoded.instr _ = _
  rw [h2, h3, h4, h5]

theorem Encoding.ldw (d : BitVec 6) (b : BitVec 6) (w : BitVec 2) (o : BitVec 10) : Encoding.Statement (.ldw d b w o) := by
  intro _
  obtain ⟨h0, h1, h2, h3, h4, h5⟩ := layout_4_4_6_6_2_10 0x2#4 0x4#4 d b w o rfl
  refine (slot_decodeSMem _ h0).trans ?_
  unfold decodeSMem
  rw [h1]
  change Decoded.instr _ = _
  rw [h2, h3, h4, h5]

theorem Encoding.ldwu (d : BitVec 6) (b : BitVec 6) (w : BitVec 2) (o : BitVec 10) : Encoding.Statement (.ldwu d b w o) := by
  intro _
  obtain ⟨h0, h1, h2, h3, h4, h5⟩ := layout_4_4_6_6_2_10 0x2#4 0x5#4 d b w o rfl
  refine (slot_decodeSMem _ h0).trans ?_
  unfold decodeSMem
  rw [h1]
  change Decoded.instr _ = _
  rw [h2, h3, h4, h5]

theorem Encoding.ldd (d : BitVec 6) (b : BitVec 6) (w : BitVec 2) (o : BitVec 10) : Encoding.Statement (.ldd d b w o) := by
  intro _
  obtain ⟨h0, h1, h2, h3, h4, h5⟩ := layout_4_4_6_6_2_10 0x2#4 0x6#4 d b w o rfl
  refine (slot_decodeSMem _ h0).trans ?_
  unfold decodeSMem
  rw [h1]
  change Decoded.instr _ = _
  rw [h2, h3, h4, h5]

theorem Encoding.stb (s : BitVec 6) (b : BitVec 6) (w : BitVec 2) (o : BitVec 10) : Encoding.Statement (.stb s b w o) := by
  intro _
  obtain ⟨h0, h1, h2, h3, h4, h5⟩ := layout_4_4_6_6_2_10 0x2#4 0x7#4 s b w o rfl
  refine (slot_decodeSMem _ h0).trans ?_
  unfold decodeSMem
  rw [h1]
  change Decoded.instr _ = _
  rw [h2, h3, h4, h5]

theorem Encoding.sth (s : BitVec 6) (b : BitVec 6) (w : BitVec 2) (o : BitVec 10) : Encoding.Statement (.sth s b w o) := by
  intro _
  obtain ⟨h0, h1, h2, h3, h4, h5⟩ := layout_4_4_6_6_2_10 0x2#4 0x8#4 s b w o rfl
  refine (slot_decodeSMem _ h0).trans ?_
  unfold decodeSMem
  rw [h1]
  change Decoded.instr _ = _
  rw [h2, h3, h4, h5]

theorem Encoding.stw (s : BitVec 6) (b : BitVec 6) (w : BitVec 2) (o : BitVec 10) : Encoding.Statement (.stw s b w o) := by
  intro _
  obtain ⟨h0, h1, h2, h3, h4, h5⟩ := layout_4_4_6_6_2_10 0x2#4 0x9#4 s b w o rfl
  refine (slot_decodeSMem _ h0).trans ?_
  unfold decodeSMem
  rw [h1]
  change Decoded.instr _ = _
  rw [h2, h3, h4, h5]

theorem Encoding.std (s : BitVec 6) (b : BitVec 6) (w : BitVec 2) (o : BitVec 10) : Encoding.Statement (.std s b w o) := by
  intro _
  obtain ⟨h0, h1, h2, h3, h4, h5⟩ := layout_4_4_6_6_2_10 0x2#4 0xa#4 s b w o rfl
  refine (slot_decodeSMem _ h0).trans ?_
  unfold decodeSMem
  rw [h1]
  change Decoded.instr _ = _
  rw [h2, h3, h4, h5]

theorem Encoding.ldro (d : BitVec 6) (b : BitVec 6) (w : BitVec 2) (o : BitVec 10) : Encoding.Statement (.ldro d b w o) := by
  intro _
  obtain ⟨h0, h1, h2, h3, h4, h5⟩ := layout_4_4_6_6_2_10 0x2#4 0xb#4 d b w o rfl
  refine (slot_decodeSMem _ h0).trans ?_
  unfold decodeSMem
  rw [h1]
  change Decoded.instr _ = _
  rw [h2, h3, h4, h5]

theorem Encoding.ldacq (d : BitVec 6) (b : BitVec 6) (w : BitVec 2) (c : BitVec 2) (o : BitVec 8) : Encoding.Statement (.ldacq d b w c o) := by
  intro _
  obtain ⟨h0, h1, h2, h3, h4, h5, h6⟩ := layout_4_4_6_6_2_2_8 0x2#4 0xc#4 d b w c o rfl
  refine (slot_decodeSMem _ h0).trans ?_
  unfold decodeSMem
  rw [h1]
  change Decoded.instr _ = _
  rw [h2, h3, h4, h5, h6]

theorem Encoding.strel (s : BitVec 6) (b : BitVec 6) (w : BitVec 2) (c : BitVec 2) (o : BitVec 8) : Encoding.Statement (.strel s b w c o) := by
  intro _
  obtain ⟨h0, h1, h2, h3, h4, h5, h6⟩ := layout_4_4_6_6_2_2_8 0x2#4 0xd#4 s b w c o rfl
  refine (slot_decodeSMem _ h0).trans ?_
  unfold decodeSMem
  rw [h1]
  change Decoded.instr _ = _
  rw [h2, h3, h4, h5, h6]

theorem Encoding.pfl2 (b : BitVec 6) (w : BitVec 2) (o : BitVec 10) : Encoding.Statement (.pfl2 b w o) := by
  intro _
  obtain ⟨h0, h1, h2, h3, h4, h5⟩ := layout_4_4_6_6_2_10 0x2#4 0xe#4 0x0#6 b w o rfl
  refine (slot_decodeSMem _ h0).trans ?_
  unfold decodeSMem
  rw [h1]
  refine (if_pos h2).trans ?_
  rw [h3, h4, h5]

theorem Encoding.br (p : BitVec 3) (i : BitVec 1) (d : BitVec 20) : Encoding.Statement (.br p i d) := by
  intro _
  obtain ⟨h0, h1, h2, h3, h4⟩ := layout_4_4_3_1_20 0x3#4 0x0#4 p i d rfl
  refine (slot_decodeSCtl _ h0).trans ?_
  unfold decodeSCtl
  rw [h1]
  change Decoded.instr _ = _
  rw [h2, h3, h4]

theorem Encoding.brn (p : BitVec 3) (i : BitVec 1) (d : BitVec 20) : Encoding.Statement (.brn p i d) := by
  intro _
  obtain ⟨h0, h1, h2, h3, h4⟩ := layout_4_4_3_1_20 0x3#4 0x1#4 p i d rfl
  refine (slot_decodeSCtl _ h0).trans ?_
  unfold decodeSCtl
  rw [h1]
  change Decoded.instr _ = _
  rw [h2, h3, h4]

theorem Encoding.call (p : BitVec 3) (i : BitVec 1) (d : BitVec 20) : Encoding.Statement (.call p i d) := by
  intro _
  obtain ⟨h0, h1, h2, h3, h4⟩ := layout_4_4_3_1_20 0x3#4 0x2#4 p i d rfl
  refine (slot_decodeSCtl _ h0).trans ?_
  unfold decodeSCtl
  rw [h1]
  change Decoded.instr _ = _
  rw [h2, h3, h4]

theorem Encoding.jr (p : BitVec 3) (i : BitVec 1) (t : BitVec 6) : Encoding.Statement (.jr p i t) := by
  intro _
  obtain ⟨h0, h1, h2, h3, h4, h5⟩ := layout_4_4_3_1_6_14 0x3#4 0x3#4 p i t 0x0#14 rfl
  refine (slot_decodeSCtl _ h0).trans ?_
  unfold decodeSCtl
  rw [h1]
  refine (if_pos h5).trans ?_
  rw [h2, h3, h4]

theorem Encoding.callr (p : BitVec 3) (i : BitVec 1) (t : BitVec 6) : Encoding.Statement (.callr p i t) := by
  intro _
  obtain ⟨h0, h1, h2, h3, h4, h5⟩ := layout_4_4_3_1_6_14 0x3#4 0x4#4 p i t 0x0#14 rfl
  refine (slot_decodeSCtl _ h0).trans ?_
  unfold decodeSCtl
  rw [h1]
  refine (if_pos h5).trans ?_
  rw [h2, h3, h4]

theorem Encoding.loop (l : BitVec 1) (c : BitVec 6) (n : BitVec 13) : Encoding.Statement (.loop l c n) := by
  intro _
  obtain ⟨h0, h1, h2, h3, h4, h5⟩ := layout_4_4_4_1_6_13 0x3#4 0x5#4 0x0#4 l c n rfl
  refine (slot_decodeSCtl _ h0).trans ?_
  unfold decodeSCtl
  rw [h1]
  refine (if_pos h2).trans ?_
  rw [h3, h4, h5]

theorem Encoding.loopi (l : BitVec 1) (c : BitVec 9) (n : BitVec 10) : Encoding.Statement (.loopi l c n) := by
  intro _
  obtain ⟨h0, h1, h2, h3, h4, h5⟩ := layout_4_4_4_1_9_10 0x3#4 0x6#4 0x0#4 l c n rfl
  refine (slot_decodeSCtl _ h0).trans ?_
  unfold decodeSCtl
  rw [h1]
  refine (if_pos h2).trans ?_
  rw [h3, h4, h5]

theorem Encoding.endseg : Encoding.Statement .endseg := by
  intro _
  obtain ⟨h0, h1, h2⟩ := layout_4_4_24 0x3#4 0x7#4 0x0#24 rfl
  refine (slot_decodeSCtl _ h0).trans ?_
  unfold decodeSCtl
  rw [h1]
  refine (if_pos h2).trans ?_
  rfl

theorem Encoding.halt : Encoding.Statement .halt := by
  intro _
  obtain ⟨h0, h1, h2⟩ := layout_4_4_24 0x3#4 0x8#4 0x0#24 rfl
  refine (slot_decodeSCtl _ h0).trans ?_
  unfold decodeSCtl
  rw [h1]
  refine (if_pos h2).trans ?_
  rfl

theorem Encoding.stgp (p : BitVec 8) : Encoding.Statement (.stgp p) := by
  intro _
  obtain ⟨h0, h1, h2, h3, h4⟩ := layout_4_4_4_8_12 0x3#4 0x9#4 0x0#4 p 0x0#12 rfl
  refine (slot_decodeSCtl _ h0).trans ?_
  unfold decodeSCtl
  rw [h1]
  refine (if_pos ⟨h2, h4⟩).trans ?_
  rw [h3]

theorem Encoding.trap (p : BitVec 3) (i : BitVec 1) (c : BitVec 8) : Encoding.Statement (.trap p i c) := by
  intro _
  obtain ⟨h0, h1, h2, h3, h4, h5⟩ := layout_4_4_3_1_8_12 0x3#4 0xa#4 p i c 0x0#12 rfl
  refine (slot_decodeSCtl _ h0).trans ?_
  unfold decodeSCtl
  rw [h1]
  refine (if_pos h5).trans ?_
  rw [h2, h3, h4]

theorem Encoding.brk (t : BitVec 20) : Encoding.Statement (.brk t) := by
  intro _
  obtain ⟨h0, h1, h2, h3⟩ := layout_4_4_4_20 0x3#4 0xb#4 0x0#4 t rfl
  refine (slot_decodeSCtl _ h0).trans ?_
  unfold decodeSCtl
  rw [h1]
  refine (if_pos h2).trans ?_
  rw [h3]

theorem Encoding.nops (n : BitVec 20) : Encoding.Statement (.nops n) := by
  intro _
  obtain ⟨h0, h1, h2, h3⟩ := layout_4_4_4_20 0x3#4 0xc#4 0x0#4 n rfl
  refine (slot_decodeSCtl _ h0).trans ?_
  unfold decodeSCtl
  rw [h1]
  refine (if_pos h2).trans ?_
  rw [h3]

theorem Encoding.nop : Encoding.Statement .nop := by
  intro _; decide

theorem Encoding.vadd (d : BitVec 8) (a : BitVec 8) (b : BitVec 8) : Encoding.Statement (.vadd d a b) := by
  intro _
  obtain ⟨h0, h1, h2, h3, h4⟩ := layout_4_4_8_8_8 0x4#4 0x0#4 d a b rfl
  refine (slot_decodeVFp _ h0).trans ?_
  unfold decodeVFp
  rw [h1]
  change Decoded.instr _ = _
  rw [h2, h3, h4]

theorem Encoding.vsub (d : BitVec 8) (a : BitVec 8) (b : BitVec 8) : Encoding.Statement (.vsub d a b) := by
  intro _
  obtain ⟨h0, h1, h2, h3, h4⟩ := layout_4_4_8_8_8 0x4#4 0x1#4 d a b rfl
  refine (slot_decodeVFp _ h0).trans ?_
  unfold decodeVFp
  rw [h1]
  change Decoded.instr _ = _
  rw [h2, h3, h4]

theorem Encoding.vmul (d : BitVec 8) (a : BitVec 8) (b : BitVec 8) : Encoding.Statement (.vmul d a b) := by
  intro _
  obtain ⟨h0, h1, h2, h3, h4⟩ := layout_4_4_8_8_8 0x4#4 0x2#4 d a b rfl
  refine (slot_decodeVFp _ h0).trans ?_
  unfold decodeVFp
  rw [h1]
  change Decoded.instr _ = _
  rw [h2, h3, h4]

theorem Encoding.vfma (d : BitVec 8) (a : BitVec 8) (b : BitVec 8) : Encoding.Statement (.vfma d a b) := by
  intro _
  obtain ⟨h0, h1, h2, h3, h4⟩ := layout_4_4_8_8_8 0x4#4 0x3#4 d a b rfl
  refine (slot_decodeVFp _ h0).trans ?_
  unfold decodeVFp
  rw [h1]
  change Decoded.instr _ = _
  rw [h2, h3, h4]

theorem Encoding.vfms (d : BitVec 8) (a : BitVec 8) (b : BitVec 8) : Encoding.Statement (.vfms d a b) := by
  intro _
  obtain ⟨h0, h1, h2, h3, h4⟩ := layout_4_4_8_8_8 0x4#4 0x4#4 d a b rfl
  refine (slot_decodeVFp _ h0).trans ?_
  unfold decodeVFp
  rw [h1]
  change Decoded.instr _ = _
  rw [h2, h3, h4]

theorem Encoding.vdiv (d : BitVec 8) (a : BitVec 8) (b : BitVec 8) : Encoding.Statement (.vdiv d a b) := by
  intro _
  obtain ⟨h0, h1, h2, h3, h4⟩ := layout_4_4_8_8_8 0x4#4 0x5#4 d a b rfl
  refine (slot_decodeVFp _ h0).trans ?_
  unfold decodeVFp
  rw [h1]
  change Decoded.instr _ = _
  rw [h2, h3, h4]

theorem Encoding.vsqrt (d : BitVec 8) (a : BitVec 8) : Encoding.Statement (.vsqrt d a) := by
  intro _
  obtain ⟨h0, h1, h2, h3, h4⟩ := layout_4_4_8_8_8 0x4#4 0x6#4 d a 0x0#8 rfl
  refine (slot_decodeVFp _ h0).trans ?_
  unfold decodeVFp
  rw [h1]
  refine (if_pos h4).trans ?_
  rw [h2, h3]

theorem Encoding.vmin (d : BitVec 8) (a : BitVec 8) (b : BitVec 8) : Encoding.Statement (.vmin d a b) := by
  intro _
  obtain ⟨h0, h1, h2, h3, h4⟩ := layout_4_4_8_8_8 0x4#4 0x7#4 d a b rfl
  refine (slot_decodeVFp _ h0).trans ?_
  unfold decodeVFp
  rw [h1]
  change Decoded.instr _ = _
  rw [h2, h3, h4]

theorem Encoding.vmax (d : BitVec 8) (a : BitVec 8) (b : BitVec 8) : Encoding.Statement (.vmax d a b) := by
  intro _
  obtain ⟨h0, h1, h2, h3, h4⟩ := layout_4_4_8_8_8 0x4#4 0x8#4 d a b rfl
  refine (slot_decodeVFp _ h0).trans ?_
  unfold decodeVFp
  rw [h1]
  change Decoded.instr _ = _
  rw [h2, h3, h4]

theorem Encoding.vcmpeq (d : BitVec 8) (a : BitVec 8) (b : BitVec 8) : Encoding.Statement (.vcmpeq d a b) := by
  intro _
  obtain ⟨h0, h1, h2, h3, h4⟩ := layout_4_4_8_8_8 0x4#4 0x9#4 d a b rfl
  refine (slot_decodeVFp _ h0).trans ?_
  unfold decodeVFp
  rw [h1]
  change Decoded.instr _ = _
  rw [h2, h3, h4]

theorem Encoding.vcmplt (d : BitVec 8) (a : BitVec 8) (b : BitVec 8) : Encoding.Statement (.vcmplt d a b) := by
  intro _
  obtain ⟨h0, h1, h2, h3, h4⟩ := layout_4_4_8_8_8 0x4#4 0xa#4 d a b rfl
  refine (slot_decodeVFp _ h0).trans ?_
  unfold decodeVFp
  rw [h1]
  change Decoded.instr _ = _
  rw [h2, h3, h4]

theorem Encoding.vcmple (d : BitVec 8) (a : BitVec 8) (b : BitVec 8) : Encoding.Statement (.vcmple d a b) := by
  intro _
  obtain ⟨h0, h1, h2, h3, h4⟩ := layout_4_4_8_8_8 0x4#4 0xb#4 d a b rfl
  refine (slot_decodeVFp _ h0).trans ?_
  unfold decodeVFp
  rw [h1]
  change Decoded.instr _ = _
  rw [h2, h3, h4]

theorem Encoding.vabs (d : BitVec 8) (a : BitVec 8) : Encoding.Statement (.vabs d a) := by
  intro _
  obtain ⟨h0, h1, h2, h3, h4⟩ := layout_4_4_8_8_8 0x4#4 0xc#4 d a 0x0#8 rfl
  refine (slot_decodeVFp _ h0).trans ?_
  unfold decodeVFp
  rw [h1]
  refine (if_pos h4).trans ?_
  rw [h2, h3]

theorem Encoding.vneg (d : BitVec 8) (a : BitVec 8) : Encoding.Statement (.vneg d a) := by
  intro _
  obtain ⟨h0, h1, h2, h3, h4⟩ := layout_4_4_8_8_8 0x4#4 0xd#4 d a 0x0#8 rfl
  refine (slot_decodeVFp _ h0).trans ?_
  unfold decodeVFp
  rw [h1]
  refine (if_pos h4).trans ?_
  rw [h2, h3]

theorem Encoding.vsel (d : BitVec 8) (a : BitVec 8) (b : BitVec 8) : Encoding.Statement (.vsel d a b) := by
  intro _
  obtain ⟨h0, h1, h2, h3, h4⟩ := layout_4_4_8_8_8 0x4#4 0xe#4 d a b rfl
  refine (slot_decodeVFp _ h0).trans ?_
  unfold decodeVFp
  rw [h1]
  change Decoded.instr _ = _
  rw [h2, h3, h4]

theorem Encoding.vclass (d : BitVec 8) (a : BitVec 8) : Encoding.Statement (.vclass d a) := by
  intro _
  obtain ⟨h0, h1, h2, h3, h4⟩ := layout_4_4_8_8_8 0x4#4 0xf#4 d a 0x0#8 rfl
  refine (slot_decodeVFp _ h0).trans ?_
  unfold decodeVFp
  rw [h1]
  refine (if_pos h4).trans ?_
  rw [h2, h3]

theorem Encoding.vaddF64 (d : BitVec 8) (a : BitVec 8) (b : BitVec 8) : Encoding.Statement (.vaddF64 d a b) := by
  intro _
  obtain ⟨h0, h1, h2, h3, h4⟩ := layout_4_4_8_8_8 0x5#4 0x0#4 d a b rfl
  refine (slot_decodeVFp64 _ h0).trans ?_
  unfold decodeVFp64
  rw [h1]
  change Decoded.instr _ = _
  rw [h2, h3, h4]

theorem Encoding.vsubF64 (d : BitVec 8) (a : BitVec 8) (b : BitVec 8) : Encoding.Statement (.vsubF64 d a b) := by
  intro _
  obtain ⟨h0, h1, h2, h3, h4⟩ := layout_4_4_8_8_8 0x5#4 0x1#4 d a b rfl
  refine (slot_decodeVFp64 _ h0).trans ?_
  unfold decodeVFp64
  rw [h1]
  change Decoded.instr _ = _
  rw [h2, h3, h4]

theorem Encoding.vmulF64 (d : BitVec 8) (a : BitVec 8) (b : BitVec 8) : Encoding.Statement (.vmulF64 d a b) := by
  intro _
  obtain ⟨h0, h1, h2, h3, h4⟩ := layout_4_4_8_8_8 0x5#4 0x2#4 d a b rfl
  refine (slot_decodeVFp64 _ h0).trans ?_
  unfold decodeVFp64
  rw [h1]
  change Decoded.instr _ = _
  rw [h2, h3, h4]

theorem Encoding.vfmaF64 (d : BitVec 8) (a : BitVec 8) (b : BitVec 8) : Encoding.Statement (.vfmaF64 d a b) := by
  intro _
  obtain ⟨h0, h1, h2, h3, h4⟩ := layout_4_4_8_8_8 0x5#4 0x3#4 d a b rfl
  refine (slot_decodeVFp64 _ h0).trans ?_
  unfold decodeVFp64
  rw [h1]
  change Decoded.instr _ = _
  rw [h2, h3, h4]

theorem Encoding.vfmsF64 (d : BitVec 8) (a : BitVec 8) (b : BitVec 8) : Encoding.Statement (.vfmsF64 d a b) := by
  intro _
  obtain ⟨h0, h1, h2, h3, h4⟩ := layout_4_4_8_8_8 0x5#4 0x4#4 d a b rfl
  refine (slot_decodeVFp64 _ h0).trans ?_
  unfold decodeVFp64
  rw [h1]
  change Decoded.instr _ = _
  rw [h2, h3, h4]

theorem Encoding.vdivF64 (d : BitVec 8) (a : BitVec 8) (b : BitVec 8) : Encoding.Statement (.vdivF64 d a b) := by
  intro _
  obtain ⟨h0, h1, h2, h3, h4⟩ := layout_4_4_8_8_8 0x5#4 0x5#4 d a b rfl
  refine (slot_decodeVFp64 _ h0).trans ?_
  unfold decodeVFp64
  rw [h1]
  change Decoded.instr _ = _
  rw [h2, h3, h4]

theorem Encoding.vsqrtF64 (d : BitVec 8) (a : BitVec 8) : Encoding.Statement (.vsqrtF64 d a) := by
  intro _
  obtain ⟨h0, h1, h2, h3, h4⟩ := layout_4_4_8_8_8 0x5#4 0x6#4 d a 0x0#8 rfl
  refine (slot_decodeVFp64 _ h0).trans ?_
  unfold decodeVFp64
  rw [h1]
  refine (if_pos h4).trans ?_
  rw [h2, h3]

theorem Encoding.vminF64 (d : BitVec 8) (a : BitVec 8) (b : BitVec 8) : Encoding.Statement (.vminF64 d a b) := by
  intro _
  obtain ⟨h0, h1, h2, h3, h4⟩ := layout_4_4_8_8_8 0x5#4 0x7#4 d a b rfl
  refine (slot_decodeVFp64 _ h0).trans ?_
  unfold decodeVFp64
  rw [h1]
  change Decoded.instr _ = _
  rw [h2, h3, h4]

theorem Encoding.vmaxF64 (d : BitVec 8) (a : BitVec 8) (b : BitVec 8) : Encoding.Statement (.vmaxF64 d a b) := by
  intro _
  obtain ⟨h0, h1, h2, h3, h4⟩ := layout_4_4_8_8_8 0x5#4 0x8#4 d a b rfl
  refine (slot_decodeVFp64 _ h0).trans ?_
  unfold decodeVFp64
  rw [h1]
  change Decoded.instr _ = _
  rw [h2, h3, h4]

theorem Encoding.vcmpeqF64 (d : BitVec 8) (a : BitVec 8) (b : BitVec 8) : Encoding.Statement (.vcmpeqF64 d a b) := by
  intro _
  obtain ⟨h0, h1, h2, h3, h4⟩ := layout_4_4_8_8_8 0x5#4 0x9#4 d a b rfl
  refine (slot_decodeVFp64 _ h0).trans ?_
  unfold decodeVFp64
  rw [h1]
  change Decoded.instr _ = _
  rw [h2, h3, h4]

theorem Encoding.vcmpltF64 (d : BitVec 8) (a : BitVec 8) (b : BitVec 8) : Encoding.Statement (.vcmpltF64 d a b) := by
  intro _
  obtain ⟨h0, h1, h2, h3, h4⟩ := layout_4_4_8_8_8 0x5#4 0xa#4 d a b rfl
  refine (slot_decodeVFp64 _ h0).trans ?_
  unfold decodeVFp64
  rw [h1]
  change Decoded.instr _ = _
  rw [h2, h3, h4]

theorem Encoding.vcmpleF64 (d : BitVec 8) (a : BitVec 8) (b : BitVec 8) : Encoding.Statement (.vcmpleF64 d a b) := by
  intro _
  obtain ⟨h0, h1, h2, h3, h4⟩ := layout_4_4_8_8_8 0x5#4 0xb#4 d a b rfl
  refine (slot_decodeVFp64 _ h0).trans ?_
  unfold decodeVFp64
  rw [h1]
  change Decoded.instr _ = _
  rw [h2, h3, h4]

theorem Encoding.vabsF64 (d : BitVec 8) (a : BitVec 8) : Encoding.Statement (.vabsF64 d a) := by
  intro _
  obtain ⟨h0, h1, h2, h3, h4⟩ := layout_4_4_8_8_8 0x5#4 0xc#4 d a 0x0#8 rfl
  refine (slot_decodeVFp64 _ h0).trans ?_
  unfold decodeVFp64
  rw [h1]
  refine (if_pos h4).trans ?_
  rw [h2, h3]

theorem Encoding.vnegF64 (d : BitVec 8) (a : BitVec 8) : Encoding.Statement (.vnegF64 d a) := by
  intro _
  obtain ⟨h0, h1, h2, h3, h4⟩ := layout_4_4_8_8_8 0x5#4 0xd#4 d a 0x0#8 rfl
  refine (slot_decodeVFp64 _ h0).trans ?_
  unfold decodeVFp64
  rw [h1]
  refine (if_pos h4).trans ?_
  rw [h2, h3]

theorem Encoding.vselF64 (d : BitVec 8) (a : BitVec 8) (b : BitVec 8) : Encoding.Statement (.vselF64 d a b) := by
  intro _
  obtain ⟨h0, h1, h2, h3, h4⟩ := layout_4_4_8_8_8 0x5#4 0xe#4 d a b rfl
  refine (slot_decodeVFp64 _ h0).trans ?_
  unfold decodeVFp64
  rw [h1]
  change Decoded.instr _ = _
  rw [h2, h3, h4]

theorem Encoding.vclassF64 (d : BitVec 8) (a : BitVec 8) : Encoding.Statement (.vclassF64 d a) := by
  intro _
  obtain ⟨h0, h1, h2, h3, h4⟩ := layout_4_4_8_8_8 0x5#4 0xf#4 d a 0x0#8 rfl
  refine (slot_decodeVFp64 _ h0).trans ?_
  unfold decodeVFp64
  rw [h1]
  refine (if_pos h4).trans ?_
  rw [h2, h3]

theorem Encoding.viadd (d : BitVec 8) (a : BitVec 8) (b : BitVec 8) : Encoding.Statement (.viadd d a b) := by
  intro _
  obtain ⟨h0, h1, h2, h3, h4⟩ := layout_4_4_8_8_8 0x6#4 0x0#4 d a b rfl
  refine (slot_decodeVInt _ h0).trans ?_
  unfold decodeVInt
  rw [h1]
  change Decoded.instr _ = _
  rw [h2, h3, h4]

theorem Encoding.visub (d : BitVec 8) (a : BitVec 8) (b : BitVec 8) : Encoding.Statement (.visub d a b) := by
  intro _
  obtain ⟨h0, h1, h2, h3, h4⟩ := layout_4_4_8_8_8 0x6#4 0x1#4 d a b rfl
  refine (slot_decodeVInt _ h0).trans ?_
  unfold decodeVInt
  rw [h1]
  change Decoded.instr _ = _
  rw [h2, h3, h4]

theorem Encoding.vimul (d : BitVec 8) (a : BitVec 8) (b : BitVec 8) : Encoding.Statement (.vimul d a b) := by
  intro _
  obtain ⟨h0, h1, h2, h3, h4⟩ := layout_4_4_8_8_8 0x6#4 0x2#4 d a b rfl
  refine (slot_decodeVInt _ h0).trans ?_
  unfold decodeVInt
  rw [h1]
  change Decoded.instr _ = _
  rw [h2, h3, h4]

theorem Encoding.vimad (d : BitVec 8) (a : BitVec 8) (b : BitVec 8) : Encoding.Statement (.vimad d a b) := by
  intro _
  obtain ⟨h0, h1, h2, h3, h4⟩ := layout_4_4_8_8_8 0x6#4 0x3#4 d a b rfl
  refine (slot_decodeVInt _ h0).trans ?_
  unfold decodeVInt
  rw [h1]
  change Decoded.instr _ = _
  rw [h2, h3, h4]

theorem Encoding.vand (d : BitVec 8) (a : BitVec 8) (b : BitVec 8) : Encoding.Statement (.vand d a b) := by
  intro _
  obtain ⟨h0, h1, h2, h3, h4⟩ := layout_4_4_8_8_8 0x6#4 0x4#4 d a b rfl
  refine (slot_decodeVInt _ h0).trans ?_
  unfold decodeVInt
  rw [h1]
  change Decoded.instr _ = _
  rw [h2, h3, h4]

theorem Encoding.vor (d : BitVec 8) (a : BitVec 8) (b : BitVec 8) : Encoding.Statement (.vor d a b) := by
  intro _
  obtain ⟨h0, h1, h2, h3, h4⟩ := layout_4_4_8_8_8 0x6#4 0x5#4 d a b rfl
  refine (slot_decodeVInt _ h0).trans ?_
  unfold decodeVInt
  rw [h1]
  change Decoded.instr _ = _
  rw [h2, h3, h4]

theorem Encoding.vxor (d : BitVec 8) (a : BitVec 8) (b : BitVec 8) : Encoding.Statement (.vxor d a b) := by
  intro _
  obtain ⟨h0, h1, h2, h3, h4⟩ := layout_4_4_8_8_8 0x6#4 0x6#4 d a b rfl
  refine (slot_decodeVInt _ h0).trans ?_
  unfold decodeVInt
  rw [h1]
  change Decoded.instr _ = _
  rw [h2, h3, h4]

theorem Encoding.vshl (d : BitVec 8) (a : BitVec 8) (b : BitVec 8) : Encoding.Statement (.vshl d a b) := by
  intro _
  obtain ⟨h0, h1, h2, h3, h4⟩ := layout_4_4_8_8_8 0x6#4 0x7#4 d a b rfl
  refine (slot_decodeVInt _ h0).trans ?_
  unfold decodeVInt
  rw [h1]
  change Decoded.instr _ = _
  rw [h2, h3, h4]

theorem Encoding.vshr (d : BitVec 8) (a : BitVec 8) (b : BitVec 8) : Encoding.Statement (.vshr d a b) := by
  intro _
  obtain ⟨h0, h1, h2, h3, h4⟩ := layout_4_4_8_8_8 0x6#4 0x8#4 d a b rfl
  refine (slot_decodeVInt _ h0).trans ?_
  unfold decodeVInt
  rw [h1]
  change Decoded.instr _ = _
  rw [h2, h3, h4]

theorem Encoding.vsar (d : BitVec 8) (a : BitVec 8) (b : BitVec 8) : Encoding.Statement (.vsar d a b) := by
  intro _
  obtain ⟨h0, h1, h2, h3, h4⟩ := layout_4_4_8_8_8 0x6#4 0x9#4 d a b rfl
  refine (slot_decodeVInt _ h0).trans ?_
  unfold decodeVInt
  rw [h1]
  change Decoded.instr _ = _
  rw [h2, h3, h4]

theorem Encoding.vimin (d : BitVec 8) (a : BitVec 8) (b : BitVec 8) : Encoding.Statement (.vimin d a b) := by
  intro _
  obtain ⟨h0, h1, h2, h3, h4⟩ := layout_4_4_8_8_8 0x6#4 0xa#4 d a b rfl
  refine (slot_decodeVInt _ h0).trans ?_
  unfold decodeVInt
  rw [h1]
  change Decoded.instr _ = _
  rw [h2, h3, h4]

theorem Encoding.vimax (d : BitVec 8) (a : BitVec 8) (b : BitVec 8) : Encoding.Statement (.vimax d a b) := by
  intro _
  obtain ⟨h0, h1, h2, h3, h4⟩ := layout_4_4_8_8_8 0x6#4 0xb#4 d a b rfl
  refine (slot_decodeVInt _ h0).trans ?_
  unfold decodeVInt
  rw [h1]
  change Decoded.instr _ = _
  rw [h2, h3, h4]

theorem Encoding.vicmpeq (d : BitVec 8) (a : BitVec 8) (b : BitVec 8) : Encoding.Statement (.vicmpeq d a b) := by
  intro _
  obtain ⟨h0, h1, h2, h3, h4⟩ := layout_4_4_8_8_8 0x6#4 0xc#4 d a b rfl
  refine (slot_decodeVInt _ h0).trans ?_
  unfold decodeVInt
  rw [h1]
  change Decoded.instr _ = _
  rw [h2, h3, h4]

theorem Encoding.vicmplt (d : BitVec 8) (a : BitVec 8) (b : BitVec 8) : Encoding.Statement (.vicmplt d a b) := by
  intro _
  obtain ⟨h0, h1, h2, h3, h4⟩ := layout_4_4_8_8_8 0x6#4 0xd#4 d a b rfl
  refine (slot_decodeVInt _ h0).trans ?_
  unfold decodeVInt
  rw [h1]
  change Decoded.instr _ = _
  rw [h2, h3, h4]

theorem Encoding.viadds (d : BitVec 8) (a : BitVec 8) (b : BitVec 8) : Encoding.Statement (.viadds d a b) := by
  intro _
  obtain ⟨h0, h1, h2, h3, h4⟩ := layout_4_4_8_8_8 0x6#4 0xe#4 d a b rfl
  refine (slot_decodeVInt _ h0).trans ?_
  unfold decodeVInt
  rw [h1]
  change Decoded.instr _ = _
  rw [h2, h3, h4]

theorem Encoding.vperm (d : BitVec 8) (a : BitVec 8) (b : BitVec 8) : Encoding.Statement (.vperm d a b) := by
  intro _
  obtain ⟨h0, h1, h2, h3, h4⟩ := layout_4_4_8_8_8 0x6#4 0xf#4 d a b rfl
  refine (slot_decodeVInt _ h0).trans ?_
  unfold decodeVInt
  rw [h1]
  change Decoded.instr _ = _
  rw [h2, h3, h4]

theorem Encoding.vmov (d : BitVec 8) (a : BitVec 8) : Encoding.Statement (.vmov d a) := by
  intro _
  obtain ⟨h0, h1, h2, h3, h4⟩ := layout_4_4_8_8_8 0x7#4 0x0#4 d a 0x0#8 rfl
  refine (slot_decodeVXfer _ h0).trans ?_
  unfold decodeVXfer
  rw [h1]
  refine (if_pos h4).trans ?_
  rw [h2, h3]

theorem Encoding.vbcst (d : BitVec 8) (w : BitVec 8) : Encoding.Statement (.vbcst d w) := by
  intro _
  obtain ⟨h0, h1, h2, h3, h4⟩ := layout_4_4_8_8_8 0x7#4 0x1#4 d 0x0#8 w rfl
  refine (slot_decodeVXfer _ h0).trans ?_
  unfold decodeVXfer
  rw [h1]
  refine (if_pos h3).trans ?_
  rw [h2, h4]

theorem Encoding.vcvt (d : BitVec 8) (a : BitVec 8) (c : BitVec 8) : Encoding.Statement (.vcvt d a c) := by
  intro _
  obtain ⟨h0, h1, h2, h3, h4⟩ := layout_4_4_8_8_8 0x7#4 0x2#4 d a c rfl
  refine (slot_decodeVXfer _ h0).trans ?_
  unfold decodeVXfer
  rw [h1]
  change Decoded.instr _ = _
  rw [h2, h3, h4]

theorem Encoding.vtrans (d : BitVec 8) (a : BitVec 8) (p : BitVec 1) (f : BitVec 2) : Encoding.Statement (.vtrans d a p f) := by
  intro _
  obtain ⟨h0, h1, h2, h3, h4, h5, h6⟩ := layout_4_4_8_8_5_1_2 0x7#4 0x3#4 d a 0x0#5 p f rfl
  refine (slot_decodeVXfer _ h0).trans ?_
  unfold decodeVXfer
  rw [h1]
  refine (if_pos h4).trans ?_
  rw [h2, h3, h5, h6]

theorem Encoding.vred (d : BitVec 8) (a : BitVec 8) (c : BitVec 3) : Encoding.Statement (.vred d a c) := by
  intro _
  obtain ⟨h0, h1, h2, h3, h4, h5⟩ := layout_4_4_8_8_5_3 0x7#4 0x4#4 d a 0x0#5 c rfl
  refine (slot_decodeVXfer _ h0).trans ?_
  unfold decodeVXfer
  rw [h1]
  refine (if_pos h4).trans ?_
  rw [h2, h3, h5]

theorem Encoding.vldt (d : BitVec 8) (a : BitVec 6) (k : BitVec 8) : Encoding.Statement (.vldt d a k) := by
  intro _
  obtain ⟨h0, h1, h2, h3, h4, h5⟩ := layout_4_4_8_2_6_8 0x7#4 0x5#4 d 0x0#2 a k rfl
  refine (slot_decodeVXfer _ h0).trans ?_
  unfold decodeVXfer
  rw [h1]
  refine (if_pos h3).trans ?_
  rw [h2, h4, h5]

theorem Encoding.vstt (s : BitVec 8) (a : BitVec 6) (k : BitVec 8) : Encoding.Statement (.vstt s a k) := by
  intro _
  obtain ⟨h0, h1, h2, h3, h4, h5⟩ := layout_4_4_8_2_6_8 0x7#4 0x6#4 s 0x0#2 a k rfl
  refine (slot_decodeVXfer _ h0).trans ?_
  unfold decodeVXfer
  rw [h1]
  refine (if_pos h3).trans ?_
  rw [h2, h4, h5]

theorem Encoding.vldg (d : BitVec 8) (a : BitVec 6) (w : BitVec 2) (o : BitVec 6) : Encoding.Statement (.vldg d a w o) := by
  intro _
  obtain ⟨h0, h1, h2, h3, h4, h5, h6⟩ := layout_4_4_8_2_6_2_6 0x7#4 0x7#4 d 0x0#2 a w o rfl
  refine (slot_decodeVXfer _ h0).trans ?_
  unfold decodeVXfer
  rw [h1]
  refine (if_pos h3).trans ?_
  rw [h2, h4, h5, h6]

theorem Encoding.vstg (s : BitVec 8) (a : BitVec 6) (w : BitVec 2) (o : BitVec 6) : Encoding.Statement (.vstg s a w o) := by
  intro _
  obtain ⟨h0, h1, h2, h3, h4, h5, h6⟩ := layout_4_4_8_2_6_2_6 0x7#4 0x8#4 s 0x0#2 a w o rfl
  refine (slot_decodeVXfer _ h0).trans ?_
  unfold decodeVXfer
  rw [h1]
  refine (if_pos h3).trans ?_
  rw [h2, h4, h5, h6]

theorem Encoding.vqrd (d : BitVec 8) (n : BitVec 3) : Encoding.Statement (.vqrd d n) := by
  intro _
  obtain ⟨h0, h1, h2, h3, h4⟩ := layout_4_4_8_13_3 0x7#4 0x9#4 d 0x0#13 n rfl
  refine (slot_decodeVXfer _ h0).trans ?_
  unfold decodeVXfer
  rw [h1]
  refine (if_pos h3).trans ?_
  rw [h2, h4]

theorem Encoding.vpop (d : BitVec 8) (h : BitVec 6) : Encoding.Statement (.vpop d h) := by
  intro _
  obtain ⟨h0, h1, h2, h3, h4, h5⟩ := layout_4_4_8_2_6_8 0x7#4 0xa#4 d 0x0#2 h 0x0#8 rfl
  refine (slot_decodeVXfer _ h0).trans ?_
  unfold decodeVXfer
  rw [h1]
  refine (if_pos ⟨h3, h5⟩).trans ?_
  rw [h2, h4]

theorem Encoding.vpush (s : BitVec 8) (h : BitVec 6) : Encoding.Statement (.vpush s h) := by
  intro _
  obtain ⟨h0, h1, h2, h3, h4, h5⟩ := layout_4_4_8_2_6_8 0x7#4 0xb#4 s 0x0#2 h 0x0#8 rfl
  refine (slot_decodeVXfer _ h0).trans ?_
  unfold decodeVXfer
  rw [h1]
  refine (if_pos ⟨h3, h5⟩).trans ?_
  rw [h2, h4]

theorem Encoding.vext (a : BitVec 8) (m : BitVec 2) (k : BitVec 4) : Encoding.Statement (.vext a m k) := by
  intro _
  obtain ⟨h0, h1, h2, h3, h4, h5, h6⟩ := layout_4_4_8_8_2_2_4 0x7#4 0xc#4 0x0#8 a 0x0#2 m k rfl
  refine (slot_decodeVXfer _ h0).trans ?_
  unfold decodeVXfer
  rw [h1]
  refine (if_pos ⟨h2, h4⟩).trans ?_
  rw [h3, h5, h6]

theorem Encoding.viota (d : BitVec 8) (i : BitVec 8) : Encoding.Statement (.viota d i) := by
  intro _
  obtain ⟨h0, h1, h2, h3, h4⟩ := layout_4_4_8_8_8 0x7#4 0xd#4 d 0x0#8 i rfl
  refine (slot_decodeVXfer _ h0).trans ?_
  unfold decodeVXfer
  rw [h1]
  refine (if_pos h3).trans ?_
  rw [h2, h4]

theorem Encoding.vsplat (d : BitVec 8) (a : BitVec 8) (p : BitVec 1) (k : BitVec 4) : Encoding.Statement (.vsplat d a p k) := by
  intro _
  obtain ⟨h0, h1, h2, h3, h4, h5, h6⟩ := layout_4_4_8_8_3_1_4 0x7#4 0xe#4 d a 0x0#3 p k rfl
  refine (slot_decodeVXfer _ h0).trans ?_
  unfold decodeVXfer
  rw [h1]
  refine (if_pos h4).trans ?_
  rw [h2, h3, h5, h6]

theorem Encoding.awld (s : BitVec 1) : Encoding.Statement (.awld s) := by
  intro _
  obtain ⟨h0, h1, h2, h3⟩ := layout_4_4_23_1 0x8#4 0x0#4 0x0#23 s rfl
  refine (slot_decodeACmd _ h0).trans ?_
  unfold decodeACmd
  rw [h1]
  refine (if_pos h2).trans ?_
  rw [h3]

theorem Encoding.astrm (o : BitVec 1) (i : BitVec 1) (e : BitVec 1) : Encoding.Statement (.astrm o i e) := by
  intro _
  obtain ⟨h0, h1, h2, h3, h4, h5⟩ := layout_4_4_21_1_1_1 0x8#4 0x1#4 0x0#21 o i e rfl
  refine (slot_decodeACmd _ h0).trans ?_
  unfold decodeACmd
  rw [h1]
  refine (if_pos h2).trans ?_
  rw [h3, h4, h5]

theorem Encoding.aext (n : BitVec 4) : Encoding.Statement (.aext n) := by
  intro _
  obtain ⟨h0, h1, h2, h3⟩ := layout_4_4_20_4 0x8#4 0x2#4 0x0#20 n rfl
  refine (slot_decodeACmd _ h0).trans ?_
  unfold decodeACmd
  rw [h1]
  refine (if_pos h2).trans ?_
  rw [h3]

theorem Encoding.achk (s : BitVec 1) (p : BitVec 3) : Encoding.Statement (.achk s p) := by
  intro _
  obtain ⟨h0, h1, h2, h3, h4⟩ := layout_4_4_20_1_3 0x8#4 0x3#4 0x0#20 s p rfl
  refine (slot_decodeACmd _ h0).trans ?_
  unfold decodeACmd
  rw [h1]
  refine (if_pos h2).trans ?_
  rw [h3, h4]

theorem Encoding.aout (w : BitVec 1) : Encoding.Statement (.aout w) := by
  intro _
  obtain ⟨h0, h1, h2, h3⟩ := layout_4_4_23_1 0x8#4 0x4#4 0x0#23 w rfl
  refine (slot_decodeACmd _ h0).trans ?_
  unfold decodeACmd
  rw [h1]
  refine (if_pos h2).trans ?_
  rw [h3]

theorem Encoding.aclr (k : BitVec 1) (l : BitVec 1) (g : BitVec 1) (a : BitVec 1) : Encoding.Statement (.aclr k l g a) := by
  intro _
  obtain ⟨h0, h1, h2, h3, h4, h5, h6⟩ := layout_4_4_20_1_1_1_1 0x8#4 0x5#4 0x0#20 k l g a rfl
  refine (slot_decodeACmd _ h0).trans ?_
  unfold decodeACmd
  rw [h1]
  refine (if_pos h2).trans ?_
  rw [h3, h4, h5, h6]

theorem Encoding.asnap (s : BitVec 2) (d : BitVec 6) : Encoding.Statement (.asnap s d) := by
  intro _
  obtain ⟨h0, h1, h2, h3, h4⟩ := layout_4_4_16_2_6 0x8#4 0x6#4 0x0#16 s d rfl
  refine (slot_decodeACmd _ h0).trans ?_
  unfold decodeACmd
  rw [h1]
  refine (if_pos h2).trans ?_
  rw [h3, h4]

theorem Encoding.await (k : BitVec 5) (c : BitVec 2) : Encoding.Statement (.await k c) := by
  intro _
  obtain ⟨h0, h1, h2, h3, h4, h5⟩ := layout_4_4_15_5_2_2 0x8#4 0x7#4 0x0#15 k 0x0#2 c rfl
  refine (slot_decodeACmd _ h0).trans ?_
  unfold decodeACmd
  rw [h1]
  refine (if_pos ⟨h2, h4⟩).trans ?_
  rw [h3, h5]

theorem Encoding.asetl (k : BitVec 5) : Encoding.Statement (.asetl k) := by
  intro _
  obtain ⟨h0, h1, h2, h3⟩ := layout_4_4_19_5 0x9#4 0x0#4 0x0#19 k rfl
  refine (slot_decodeACfg _ h0).trans ?_
  unfold decodeACfg
  rw [h1]
  refine (if_pos h2).trans ?_
  rw [h3]

theorem Encoding.aseed (c : BitVec 1) (r : BitVec 1) (s : BitVec 16) : Encoding.Statement (.aseed c r s) := by
  intro _
  obtain ⟨h0, h1, h2, h3, h4, h5⟩ := layout_4_4_6_1_1_16 0x9#4 0x1#4 0x0#6 c r s rfl
  refine (slot_decodeACfg _ h0).trans ?_
  unfold decodeACfg
  rw [h1]
  refine (if_pos h2).trans ?_
  rw [h3, h4, h5]

theorem Encoding.amode (n : BitVec 1) (s : BitVec 1) (m : BitVec 2) : Encoding.Statement (.amode n s m) := by
  intro _
  obtain ⟨h0, h1, h2, h3, h4, h5⟩ := layout_4_4_20_1_1_2 0x9#4 0x2#4 0x0#20 n s m rfl
  refine (slot_decodeACfg _ h0).trans ?_
  unfold decodeACfg
  rw [h1]
  refine (if_pos h2).trans ?_
  rw [h3, h4, h5]

theorem Encoding.agen (p : BitVec 2) : Encoding.Statement (.agen p) := by
  intro _
  obtain ⟨h0, h1, h2, h3⟩ := layout_4_4_22_2 0x9#4 0x3#4 0x0#22 p rfl
  refine (slot_decodeACfg _ h0).trans ?_
  unfold decodeACfg
  rw [h1]
  refine (if_pos h2).trans ?_
  rw [h3]

theorem Encoding.azone (e : BitVec 8) (a : BitVec 1) (z : BitVec 3) : Encoding.Statement (.azone e a z) := by
  intro _
  obtain ⟨h0, h1, h2, h3, h4, h5, h6⟩ := layout_4_4_8_8_4_1_3 0x9#4 0x4#4 0x0#8 e 0x0#4 a z rfl
  refine (slot_decodeACfg _ h0).trans ?_
  unfold decodeACfg
  rw [h1]
  refine (if_pos ⟨h2, h4⟩).trans ?_
  rw [h3, h5, h6]

theorem Encoding.cpy (e : BitVec 1) (t : BitVec 4) (b : BitVec 1) (f : BitVec 1) (k : BitVec 2) : Encoding.Statement (.cpy e t b f k) := by
  intro _
  obtain ⟨h0, h1, h2, h3, h4, h5, h6, h7, h8⟩ := layout_4_1_5_4_1_1_2_2_12 0xa#4 e 0x0#5 t b f 0x0#2 k 0x0#12 rfl
  refine (slot_decodeCCmd _ h0).trans ?_
  unfold decodeCCmd
  rw [h2]
  refine (if_pos ⟨h6, h8⟩).trans ?_
  rw [h1, h3, h4, h5, h7]

theorem Encoding.cpyo (e : BitVec 1) (t : BitVec 4) (b : BitVec 1) (f : BitVec 1) (s : BitVec 2) : Encoding.Statement (.cpyo e t b f s) := by
  intro _
  obtain ⟨h0, h1, h2, h3, h4, h5, h6, h7⟩ := layout_4_1_5_4_1_1_2_14 0xa#4 e 0x1#5 t b f s 0x0#14 rfl
  refine (slot_decodeCCmd _ h0).trans ?_
  unfold decodeCCmd
  rw [h2]
  refine (if_pos h7).trans ?_
  rw [h1, h3, h4, h5, h6]

theorem Encoding.cpyt (e : BitVec 1) (t : BitVec 4) (b : BitVec 1) (f : BitVec 1) : Encoding.Statement (.cpyt e t b f) := by
  intro _
  obtain ⟨h0, h1, h2, h3, h4, h5, h6⟩ := layout_4_1_5_4_1_1_16 0xa#4 e 0x2#5 t b f 0x5000#16 rfl
  refine (slot_decodeCCmd _ h0).trans ?_
  unfold decodeCCmd
  rw [h2]
  refine (if_pos h6).trans ?_
  rw [h1, h3, h4, h5]

theorem Encoding.gath (e : BitVec 1) (t : BitVec 4) (b : BitVec 1) (f : BitVec 1) (i : BitVec 8) : Encoding.Statement (.gath e t b f i) := by
  intro _
  obtain ⟨h0, h1, h2, h3, h4, h5, h6, h7⟩ := layout_4_1_5_4_1_1_8_8 0xa#4 e 0x3#5 t b f 0x10#8 i rfl
  refine (slot_decodeCCmd _ h0).trans ?_
  unfold decodeCCmd
  rw [h2]
  refine (if_pos h6).trans ?_
  rw [h1, h3, h4, h5, h7]

theorem Encoding.scat (e : BitVec 1) (t : BitVec 4) (b : BitVec 1) (f : BitVec 1) (i : BitVec 8) : Encoding.Statement (.scat e t b f i) := by
  intro _
  obtain ⟨h0, h1, h2, h3, h4, h5, h6, h7⟩ := layout_4_1_5_4_1_1_8_8 0xa#4 e 0x4#5 t b f 0x40#8 i rfl
  refine (slot_decodeCCmd _ h0).trans ?_
  unfold decodeCCmd
  rw [h2]
  refine (if_pos h6).trans ?_
  rw [h1, h3, h4, h5, h7]

theorem Encoding.bpf (e : BitVec 1) (t : BitVec 4) : Encoding.Statement (.bpf e t) := by
  intro _
  obtain ⟨h0, h1, h2, h3, h4⟩ := layout_4_1_5_4_18 0xa#4 e 0x5#5 t 0x0#18 rfl
  refine (slot_decodeCCmd _ h0).trans ?_
  unfold decodeCCmd
  rw [h2]
  refine (if_pos h4).trans ?_
  rw [h1, h3]

theorem Encoding.qcvt (e : BitVec 1) (t : BitVec 4) (b : BitVec 1) (f : BitVec 1) (s : BitVec 2) (k : BitVec 2) : Encoding.Statement (.qcvt e t b f s k) := by
  intro _
  obtain ⟨h0, h1, h2, h3, h4, h5, h6, h7, h8⟩ := layout_4_1_5_4_1_1_2_2_12 0xa#4 e 0x6#5 t b f s k 0x0#12 rfl
  refine (slot_decodeCCmd _ h0).trans ?_
  unfold decodeCCmd
  rw [h2]
  refine (if_pos h8).trans ?_
  rw [h1, h3, h4, h5, h6, h7]

theorem Encoding.dqcvt (e : BitVec 1) (t : BitVec 4) (b : BitVec 1) (f : BitVec 1) (s : BitVec 2) (k : BitVec 2) : Encoding.Statement (.dqcvt e t b f s k) := by
  intro _
  obtain ⟨h0, h1, h2, h3, h4, h5, h6, h7, h8⟩ := layout_4_1_5_4_1_1_2_2_12 0xa#4 e 0x7#5 t b f s k 0x0#12 rfl
  refine (slot_decodeCCmd _ h0).trans ?_
  unfold decodeCCmd
  rw [h2]
  refine (if_pos h8).trans ?_
  rw [h1, h3, h4, h5, h6, h7]

theorem Encoding.nmpk (e : BitVec 1) (t : BitVec 4) (b : BitVec 1) (f : BitVec 1) (s : BitVec 2) (k : BitVec 2) : Encoding.Statement (.nmpk e t b f s k) := by
  intro _
  obtain ⟨h0, h1, h2, h3, h4, h5, h6, h7, h8⟩ := layout_4_1_5_4_1_1_2_2_12 0xa#4 e 0x8#5 t b f s k 0x0#12 rfl
  refine (slot_decodeCCmd _ h0).trans ?_
  unfold decodeCCmd
  rw [h2]
  refine (if_pos h8).trans ?_
  rw [h1, h3, h4, h5, h6, h7]

theorem Encoding.nmup (e : BitVec 1) (t : BitVec 4) (b : BitVec 1) (f : BitVec 1) (s : BitVec 2) (k : BitVec 2) : Encoding.Statement (.nmup e t b f s k) := by
  intro _
  obtain ⟨h0, h1, h2, h3, h4, h5, h6, h7, h8⟩ := layout_4_1_5_4_1_1_2_2_12 0xa#4 e 0x9#5 t b f s k 0x0#12 rfl
  refine (slot_decodeCCmd _ h0).trans ?_
  unfold decodeCCmd
  rw [h2]
  refine (if_pos h8).trans ?_
  rw [h1, h3, h4, h5, h6, h7]

theorem Encoding.publ (e : BitVec 1) (t : BitVec 4) (b : BitVec 1) (f : BitVec 1) (x : BitVec 1) : Encoding.Statement (.publ e t b f x) := by
  intro _
  obtain ⟨h0, h1, h2, h3, h4, h5, h6, h7⟩ := layout_4_1_5_4_1_1_15_1 0xa#4 e 0xa#5 t b f 0x0#15 x rfl
  refine (slot_decodeCCmd _ h0).trans ?_
  unfold decodeCCmd
  rw [h2]
  refine (if_pos h6).trans ?_
  rw [h1, h3, h4, h5, h7]

theorem Encoding.qbnd (e : BitVec 1) (u : BitVec 1) (d : BitVec 1) (n : BitVec 3) : Encoding.Statement (.qbnd e u d n) := by
  intro _
  obtain ⟨h0, h1, h2, h3, h4, h5, h6⟩ := layout_4_1_5_17_1_1_3 0xa#4 e 0xb#5 0x0#17 u d n rfl
  refine (slot_decodeCCmd _ h0).trans ?_
  unfold decodeCCmd
  rw [h2]
  refine (if_pos h3).trans ?_
  rw [h1, h4, h5, h6]

theorem Encoding.twait (e : BitVec 1) (m : BitVec 16) : Encoding.Statement (.twait e m) := by
  intro _
  obtain ⟨h0, h1, h2, h3, h4⟩ := layout_4_1_5_6_16 0xa#4 e 0xc#5 0x0#6 m rfl
  refine (slot_decodeCCmd _ h0).trans ?_
  unfold decodeCCmd
  rw [h2]
  refine (if_pos h3).trans ?_
  rw [h1, h4]

theorem Encoding.cfol (e : BitVec 1) (t : BitVec 4) : Encoding.Statement (.cfol e t) := by
  intro _
  obtain ⟨h0, h1, h2, h3, h4⟩ := layout_4_1_5_4_18 0xa#4 e 0xd#5 t 0x0#18 rfl
  refine (slot_decodeCCmd _ h0).trans ?_
  unfold decodeCCmd
  rw [h2]
  refine (if_pos h4).trans ?_
  rw [h1, h3]

theorem Encoding.cabt (e : BitVec 1) (m : BitVec 16) : Encoding.Statement (.cabt e m) := by
  intro _
  obtain ⟨h0, h1, h2, h3, h4⟩ := layout_4_1_5_6_16 0xa#4 e 0xe#5 0x0#6 m rfl
  refine (slot_decodeCCmd _ h0).trans ?_
  unfold decodeCCmd
  rw [h2]
  refine (if_pos h3).trans ?_
  rw [h1, h4]

theorem Encoding.xpose (e : BitVec 1) (t : BitVec 4) (b : BitVec 1) (f : BitVec 1) (s : BitVec 2) (k : BitVec 2) (eb : BitVec 2) : Encoding.Statement (.xpose e t b f s k eb) := by
  intro _
  obtain ⟨h0, h1, h2, h3, h4, h5, h6, h7, h8, h9⟩ := layout_4_1_5_4_1_1_2_2_10_2 0xa#4 e 0xf#5 t b f s k 0x0#10 eb rfl
  refine (slot_decodeCCmd _ h0).trans ?_
  unfold decodeCCmd
  rw [h2]
  refine (if_pos h8).trans ?_
  rw [h1, h3, h4, h5, h6, h7, h9]

theorem Encoding.aadd (d : BitVec 6) (a : BitVec 6) (b : BitVec 6) (c : BitVec 2) (o : BitVec 2) (w : BitVec 1) : Encoding.Statement (.aadd d a b c o w) := by
  intro _
  obtain ⟨h0, h1, h2, h3, h4, h5, h6, h7⟩ := layout_4_5_6_6_6_2_2_1 0xb#4 0x0#5 d a b c o w rfl
  refine (slot_decodeYSync _ h0).trans ?_
  unfold decodeYSync
  rw [h1]
  change Decoded.instr _ = _
  rw [h2, h3, h4, h5, h6, h7]

theorem Encoding.aand (d : BitVec 6) (a : BitVec 6) (b : BitVec 6) (c : BitVec 2) (o : BitVec 2) (w : BitVec 1) : Encoding.Statement (.aand d a b c o w) := by
  intro _
  obtain ⟨h0, h1, h2, h3, h4, h5, h6, h7⟩ := layout_4_5_6_6_6_2_2_1 0xb#4 0x1#5 d a b c o w rfl
  refine (slot_decodeYSync _ h0).trans ?_
  unfold decodeYSync
  rw [h1]
  change Decoded.instr _ = _
  rw [h2, h3, h4, h5, h6, h7]

theorem Encoding.aor (d : BitVec 6) (a : BitVec 6) (b : BitVec 6) (c : BitVec 2) (o : BitVec 2) (w : BitVec 1) : Encoding.Statement (.aor d a b c o w) := by
  intro _
  obtain ⟨h0, h1, h2, h3, h4, h5, h6, h7⟩ := layout_4_5_6_6_6_2_2_1 0xb#4 0x2#5 d a b c o w rfl
  refine (slot_decodeYSync _ h0).trans ?_
  unfold decodeYSync
  rw [h1]
  change Decoded.instr _ = _
  rw [h2, h3, h4, h5, h6, h7]

theorem Encoding.axor (d : BitVec 6) (a : BitVec 6) (b : BitVec 6) (c : BitVec 2) (o : BitVec 2) (w : BitVec 1) : Encoding.Statement (.axor d a b c o w) := by
  intro _
  obtain ⟨h0, h1, h2, h3, h4, h5, h6, h7⟩ := layout_4_5_6_6_6_2_2_1 0xb#4 0x3#5 d a b c o w rfl
  refine (slot_decodeYSync _ h0).trans ?_
  unfold decodeYSync
  rw [h1]
  change Decoded.instr _ = _
  rw [h2, h3, h4, h5, h6, h7]

theorem Encoding.amins (d : BitVec 6) (a : BitVec 6) (b : BitVec 6) (c : BitVec 2) (o : BitVec 2) (w : BitVec 1) : Encoding.Statement (.amins d a b c o w) := by
  intro _
  obtain ⟨h0, h1, h2, h3, h4, h5, h6, h7⟩ := layout_4_5_6_6_6_2_2_1 0xb#4 0x4#5 d a b c o w rfl
  refine (slot_decodeYSync _ h0).trans ?_
  unfold decodeYSync
  rw [h1]
  change Decoded.instr _ = _
  rw [h2, h3, h4, h5, h6, h7]

theorem Encoding.aminu (d : BitVec 6) (a : BitVec 6) (b : BitVec 6) (c : BitVec 2) (o : BitVec 2) (w : BitVec 1) : Encoding.Statement (.aminu d a b c o w) := by
  intro _
  obtain ⟨h0, h1, h2, h3, h4, h5, h6, h7⟩ := layout_4_5_6_6_6_2_2_1 0xb#4 0x5#5 d a b c o w rfl
  refine (slot_decodeYSync _ h0).trans ?_
  unfold decodeYSync
  rw [h1]
  change Decoded.instr _ = _
  rw [h2, h3, h4, h5, h6, h7]

theorem Encoding.amaxs (d : BitVec 6) (a : BitVec 6) (b : BitVec 6) (c : BitVec 2) (o : BitVec 2) (w : BitVec 1) : Encoding.Statement (.amaxs d a b c o w) := by
  intro _
  obtain ⟨h0, h1, h2, h3, h4, h5, h6, h7⟩ := layout_4_5_6_6_6_2_2_1 0xb#4 0x6#5 d a b c o w rfl
  refine (slot_decodeYSync _ h0).trans ?_
  unfold decodeYSync
  rw [h1]
  change Decoded.instr _ = _
  rw [h2, h3, h4, h5, h6, h7]

theorem Encoding.amaxu (d : BitVec 6) (a : BitVec 6) (b : BitVec 6) (c : BitVec 2) (o : BitVec 2) (w : BitVec 1) : Encoding.Statement (.amaxu d a b c o w) := by
  intro _
  obtain ⟨h0, h1, h2, h3, h4, h5, h6, h7⟩ := layout_4_5_6_6_6_2_2_1 0xb#4 0x7#5 d a b c o w rfl
  refine (slot_decodeYSync _ h0).trans ?_
  unfold decodeYSync
  rw [h1]
  change Decoded.instr _ = _
  rw [h2, h3, h4, h5, h6, h7]

theorem Encoding.axchg (d : BitVec 6) (a : BitVec 6) (b : BitVec 6) (c : BitVec 2) (o : BitVec 2) (w : BitVec 1) : Encoding.Statement (.axchg d a b c o w) := by
  intro _
  obtain ⟨h0, h1, h2, h3, h4, h5, h6, h7⟩ := layout_4_5_6_6_6_2_2_1 0xb#4 0x8#5 d a b c o w rfl
  refine (slot_decodeYSync _ h0).trans ?_
  unfold decodeYSync
  rw [h1]
  change Decoded.instr _ = _
  rw [h2, h3, h4, h5, h6, h7]

theorem Encoding.acas (d : BitVec 6) (a : BitVec 6) (b : BitVec 6) (c : BitVec 2) (o : BitVec 2) (w : BitVec 1) : Encoding.Statement (.acas d a b c o w) := by
  intro _
  obtain ⟨h0, h1, h2, h3, h4, h5, h6, h7⟩ := layout_4_5_6_6_6_2_2_1 0xb#4 0x9#5 d a b c o w rfl
  refine (slot_decodeYSync _ h0).trans ?_
  unfold decodeYSync
  rw [h1]
  change Decoded.instr _ = _
  rw [h2, h3, h4, h5, h6, h7]

theorem Encoding.afadd32 (d : BitVec 6) (a : BitVec 6) (b : BitVec 6) (c : BitVec 2) (o : BitVec 2) : Encoding.Statement (.afadd32 d a b c o) := by
  intro _
  obtain ⟨h0, h1, h2, h3, h4, h5, h6, h7⟩ := layout_4_5_6_6_6_2_2_1 0xb#4 0xa#5 d a b c o 0x1#1 rfl
  refine (slot_decodeYSync _ h0).trans ?_
  unfold decodeYSync
  rw [h1]
  refine (if_pos h7).trans ?_
  rw [h2, h3, h4, h5, h6]

theorem Encoding.afadd64 (d : BitVec 6) (a : BitVec 6) (b : BitVec 6) (c : BitVec 2) (o : BitVec 2) : Encoding.Statement (.afadd64 d a b c o) := by
  intro _
  obtain ⟨h0, h1, h2, h3, h4, h5, h6, h7⟩ := layout_4_5_6_6_6_2_2_1 0xb#4 0xb#5 d a b c o 0x0#1 rfl
  refine (slot_decodeYSync _ h0).trans ?_
  unfold decodeYSync
  rw [h1]
  refine (if_pos h7).trans ?_
  rw [h2, h3, h4, h5, h6]

theorem Encoding.barinit (a : BitVec 6) (b : BitVec 6) (c : BitVec 2) (o : BitVec 2) : Encoding.Statement (.barinit a b c o) := by
  intro _
  obtain ⟨h0, h1, h2, h3, h4, h5, h6, h7⟩ := layout_4_5_6_6_6_2_2_1 0xb#4 0xc#5 0x0#6 a b c o 0x0#1 rfl
  refine (slot_decodeYSync _ h0).trans ?_
  unfold decodeYSync
  rw [h1]
  refine (if_pos ⟨h2, h7⟩).trans ?_
  rw [h3, h4, h5, h6]

theorem Encoding.barrive (d : BitVec 6) (a : BitVec 6) (c : BitVec 2) (o : BitVec 2) : Encoding.Statement (.barrive d a c o) := by
  intro _
  obtain ⟨h0, h1, h2, h3, h4, h5, h6, h7⟩ := layout_4_5_6_6_6_2_2_1 0xb#4 0xd#5 d a 0x0#6 c o 0x0#1 rfl
  refine (slot_decodeYSync _ h0).trans ?_
  unfold decodeYSync
  rw [h1]
  refine (if_pos ⟨h4, h7⟩).trans ?_
  rw [h2, h3, h5, h6]

theorem Encoding.barriveJoin (d : BitVec 6) (a : BitVec 6) (c : BitVec 2) (o : BitVec 2) : Encoding.Statement (.barriveJoin d a c o) := by
  intro _
  obtain ⟨h0, h1, h2, h3, h4, h5, h6, h7⟩ := layout_4_5_6_6_6_2_2_1 0xb#4 0xd#5 d a 0x0#6 c o 0x1#1 rfl
  refine (slot_decodeYSync _ h0).trans ?_
  unfold decodeYSync
  rw [h1]
  refine (if_neg (fun h => absurd (h7.symm.trans h.2) (by decide))).trans ((if_pos ⟨h4, h7⟩).trans ?_)
  rw [h2, h3, h5, h6]

theorem Encoding.barwait (d : BitVec 6) (a : BitVec 6) (b : BitVec 6) (c : BitVec 2) (o : BitVec 2) : Encoding.Statement (.barwait d a b c o) := by
  intro _
  obtain ⟨h0, h1, h2, h3, h4, h5, h6, h7⟩ := layout_4_5_6_6_6_2_2_1 0xb#4 0xe#5 d a b c o 0x0#1 rfl
  refine (slot_decodeYSync _ h0).trans ?_
  unfold decodeYSync
  rw [h1]
  refine (if_pos h7).trans ?_
  rw [h2, h3, h4, h5, h6]

theorem Encoding.baraw (d : BitVec 6) (a : BitVec 6) (c : BitVec 2) (o : BitVec 2) : Encoding.Statement (.baraw d a c o) := by
  intro _
  obtain ⟨h0, h1, h2, h3, h4, h5, h6, h7⟩ := layout_4_5_6_6_6_2_2_1 0xb#4 0xf#5 d a 0x0#6 c o 0x0#1 rfl
  refine (slot_decodeYSync _ h0).trans ?_
  unfold decodeYSync
  rw [h1]
  refine (if_pos ⟨h4, h7⟩).trans ?_
  rw [h2, h3, h5, h6]

theorem Encoding.fence (c : BitVec 2) (o : BitVec 2) : Encoding.Statement (.fence c o) := by
  intro _
  obtain ⟨h0, h1, h2, h3, h4, h5⟩ := layout_4_5_18_2_2_1 0xb#4 0x10#5 0x0#18 c o 0x0#1 rfl
  refine (slot_decodeYSync _ h0).trans ?_
  unfold decodeYSync
  rw [h1]
  refine (if_pos ⟨h2, h5⟩).trans ?_
  rw [h3, h4]

theorem Encoding.ared (n : BitVec 6) (a : BitVec 6) (b : BitVec 6) (c : BitVec 2) (o : BitVec 2) (w : BitVec 1) : Encoding.Statement (.ared n a b c o w) := by
  intro _
  obtain ⟨h0, h1, h2, h3, h4, h5, h6, h7⟩ := layout_4_5_6_6_6_2_2_1 0xb#4 0x11#5 n a b c o w rfl
  refine (slot_decodeYSync _ h0).trans ?_
  unfold decodeYSync
  rw [h1]
  change Decoded.instr _ = _
  rw [h2, h3, h4, h5, h6, h7]

theorem Encoding.syncq (d : BitVec 6) (a : BitVec 6) (c : BitVec 2) (o : BitVec 2) : Encoding.Statement (.syncq d a c o) := by
  intro _
  obtain ⟨h0, h1, h2, h3, h4, h5, h6, h7⟩ := layout_4_5_6_6_6_2_2_1 0xb#4 0x12#5 d a 0x0#6 c o 0x0#1 rfl
  refine (slot_decodeYSync _ h0).trans ?_
  unfold decodeYSync
  rw [h1]
  refine (if_pos ⟨h4, h7⟩).trans ?_
  rw [h2, h3, h5, h6]

theorem Encoding.csrr (d : BitVec 6) (c : BitVec 10) : Encoding.Statement (.csrr d c) := by
  intro _
  obtain ⟨h0, h1, h2, h3, h4⟩ := layout_4_6_6_6_10 0xc#4 0x0#6 d 0x0#6 c rfl
  refine (slot_decodeKSys _ h0).trans ?_
  unfold decodeKSys
  rw [h1]
  refine (if_pos h3).trans ?_
  rw [h2, h4]

theorem Encoding.csrw (d : BitVec 6) (a : BitVec 6) (c : BitVec 10) : Encoding.Statement (.csrw d a c) := by
  intro _
  obtain ⟨h0, h1, h2, h3, h4⟩ := layout_4_6_6_6_10 0xc#4 0x1#6 d a c rfl
  refine (slot_decodeKSys _ h0).trans ?_
  unfold decodeKSys
  rw [h1]
  change Decoded.instr _ = _
  rw [h2, h3, h4]

theorem Encoding.csrs (d : BitVec 6) (a : BitVec 6) (c : BitVec 10) : Encoding.Statement (.csrs d a c) := by
  intro _
  obtain ⟨h0, h1, h2, h3, h4⟩ := layout_4_6_6_6_10 0xc#4 0x2#6 d a c rfl
  refine (slot_decodeKSys _ h0).trans ?_
  unfold decodeKSys
  rw [h1]
  change Decoded.instr _ = _
  rw [h2, h3, h4]

theorem Encoding.csrc (d : BitVec 6) (a : BitVec 6) (c : BitVec 10) : Encoding.Statement (.csrc d a c) := by
  intro _
  obtain ⟨h0, h1, h2, h3, h4⟩ := layout_4_6_6_6_10 0xc#4 0x3#6 d a c rfl
  refine (slot_decodeKSys _ h0).trans ?_
  unfold decodeKSys
  rw [h1]
  change Decoded.instr _ = _
  rw [h2, h3, h4]

theorem Encoding.talloc (a : BitVec 6) (h : BitVec 8) : Encoding.Statement (.talloc a h) := by
  intro _
  obtain ⟨h0, h1, h2, h3, h4, h5⟩ := layout_4_6_6_6_2_8 0xc#4 0x4#6 0x0#6 a 0x0#2 h rfl
  refine (slot_decodeKSys _ h0).trans ?_
  unfold decodeKSys
  rw [h1]
  refine (if_pos ⟨h2, h4⟩).trans ?_
  rw [h3, h5]

theorem Encoding.tfree (h : BitVec 8) : Encoding.Statement (.tfree h) := by
  intro _
  obtain ⟨h0, h1, h2, h3⟩ := layout_4_6_14_8 0xc#4 0x5#6 0x0#14 h rfl
  refine (slot_decodeKSys _ h0).trans ?_
  unfold decodeKSys
  rw [h1]
  refine (if_pos h2).trans ?_
  rw [h3]

theorem Encoding.bankacq (a : BitVec 6) (p : BitVec 2) : Encoding.Statement (.bankacq a p) := by
  intro _
  obtain ⟨h0, h1, h2, h3, h4, h5⟩ := layout_4_6_6_6_8_2 0xc#4 0x6#6 0x0#6 a 0x0#8 p rfl
  refine (slot_decodeKSys _ h0).trans ?_
  unfold decodeKSys
  rw [h1]
  refine (if_pos ⟨h2, h4⟩).trans ?_
  rw [h3, h5]

theorem Encoding.bankrel (a : BitVec 6) (p : BitVec 2) : Encoding.Statement (.bankrel a p) := by
  intro _
  obtain ⟨h0, h1, h2, h3, h4, h5⟩ := layout_4_6_6_6_8_2 0xc#4 0x7#6 0x0#6 a 0x0#8 p rfl
  refine (slot_decodeKSys _ h0).trans ?_
  unfold decodeKSys
  rw [h1]
  refine (if_pos ⟨h2, h4⟩).trans ?_
  rw [h3, h5]

theorem Encoding.ringadv (a : BitVec 6) (t : BitVec 1) (n : BitVec 9) : Encoding.Statement (.ringadv a t n) := by
  intro _
  obtain ⟨h0, h1, h2, h3, h4, h5⟩ := layout_4_6_6_6_1_9 0xc#4 0x8#6 0x0#6 a t n rfl
  refine (slot_decodeKSys _ h0).trans ?_
  unfold decodeKSys
  rw [h1]
  refine (if_pos h2).trans ?_
  rw [h3, h4, h5]

theorem Encoding.ringcnt (d : BitVec 6) (a : BitVec 6) : Encoding.Statement (.ringcnt d a) := by
  intro _
  obtain ⟨h0, h1, h2, h3, h4⟩ := layout_4_6_6_6_10 0xc#4 0x9#6 d a 0x0#10 rfl
  refine (slot_decodeKSys _ h0).trans ?_
  unfold decodeKSys
  rw [h1]
  refine (if_pos h4).trans ?_
  rw [h2, h3]

theorem Encoding.stgw (a : BitVec 6) (p : BitVec 2) (r : BitVec 4) : Encoding.Statement (.stgw a p r) := by
  intro _
  obtain ⟨h0, h1, h2, h3, h4, h5, h6⟩ := layout_4_6_6_6_4_2_4 0xc#4 0xa#6 0x0#6 a 0x0#4 p r rfl
  refine (slot_decodeKSys _ h0).trans ?_
  unfold decodeKSys
  rw [h1]
  refine (if_pos ⟨h2, h4⟩).trans ?_
  rw [h3, h5, h6]

theorem Encoding.stgr (d : BitVec 6) (p : BitVec 2) (r : BitVec 4) : Encoding.Statement (.stgr d p r) := by
  intro _
  obtain ⟨h0, h1, h2, h3, h4, h5⟩ := layout_4_6_6_10_2_4 0xc#4 0xb#6 d 0x0#10 p r rfl
  refine (slot_decodeKSys _ h0).trans ?_
  unfold decodeKSys
  rw [h1]
  refine (if_pos h3).trans ?_
  rw [h2, h4, h5]

theorem Encoding.valsetArr (b : BitVec 6) (w : BitVec 2) : Encoding.Statement (.valsetArr b w) := by
  intro _
  obtain ⟨h0, h1, h2, h3, h4, h5⟩ := layout_4_6_6_6_8_2 0xc#4 0xc#6 0x0#6 b 0x1#8 w rfl
  refine (slot_decodeKSys _ h0).trans ?_
  unfold decodeKSys
  rw [h1]
  refine (if_pos ⟨h2, h4⟩).trans ?_
  rw [h3, h5]

theorem Encoding.valset (v : BitVec 6) (b : BitVec 6) (k : BitVec 5) (n : BitVec 1) (e : BitVec 1) (w : BitVec 2) : Encoding.Statement (.valset v b k n e w) := by
  intro _
  obtain ⟨h0, h1, h2, h3, h4, h5, h6, h7, h8⟩ := layout_4_6_6_6_5_1_1_1_2 0xc#4 0xc#6 v b k n e 0x0#1 w rfl
  refine (slot_decodeKSys _ h0).trans ?_
  unfold decodeKSys
  rw [h1]
  refine (if_neg (fun h => absurd (h7.symm.trans (low_bits _ 2 1 8 1#8 (by decide) h.2)) (by decide))).trans ((if_pos h7).trans ?_)
  rw [h2, h3, h4, h5, h6, h8]

theorem Encoding.frd (d : BitVec 6) (s : BitVec 6) (k : BitVec 2) : Encoding.Statement (.frd d s k) := by
  intro _
  obtain ⟨h0, h1, h2, h3, h4, h5⟩ := layout_4_6_6_6_8_2 0xc#4 0xd#6 d s 0x0#8 k rfl
  refine (slot_decodeKSys _ h0).trans ?_
  unfold decodeKSys
  rw [h1]
  refine (if_pos h4).trans ?_
  rw [h2, h3, h5]

theorem Encoding.fwr (v : BitVec 6) (s : BitVec 6) (k : BitVec 2) : Encoding.Statement (.fwr v s k) := by
  intro _
  obtain ⟨h0, h1, h2, h3, h4, h5⟩ := layout_4_6_6_6_8_2 0xc#4 0xe#6 v s 0x0#8 k rfl
  refine (slot_decodeKSys _ h0).trans ?_
  unfold decodeKSys
  rw [h1]
  refine (if_pos h4).trans ?_
  rw [h2, h3, h5]

theorem Encoding.fresume (d : BitVec 6) (k : BitVec 2) : Encoding.Statement (.fresume d k) := by
  intro _
  obtain ⟨h0, h1, h2, h3, h4⟩ := layout_4_6_6_14_2 0xc#4 0xf#6 d 0x0#14 k rfl
  refine (slot_decodeKSys _ h0).trans ?_
  unfold decodeKSys
  rw [h1]
  refine (if_pos h3).trans ?_
  rw [h2, h4]

theorem Encoding.fkill (k : BitVec 2) : Encoding.Statement (.fkill k) := by
  intro _
  obtain ⟨h0, h1, h2, h3⟩ := layout_4_6_20_2 0xc#4 0x10#6 0x0#20 k rfl
  refine (slot_decodeKSys _ h0).trans ?_
  unfold decodeKSys
  rw [h1]
  refine (if_pos h2).trans ?_
  rw [h3]

theorem Encoding.farrive (d : BitVec 6) (a : BitVec 6) (c : BitVec 2) (w : BitVec 2) (k : BitVec 2) : Encoding.Statement (.farrive d a c w k) := by
  intro _
  obtain ⟨h0, h1, h2, h3, h4, h5, h6, h7⟩ := layout_4_6_6_6_4_2_2_2 0xc#4 0x11#6 d a 0x0#4 c w k rfl
  refine (slot_decodeKSys _ h0).trans ?_
  unfold decodeKSys
  rw [h1]
  refine (if_pos h4).trans ?_
  rw [h2, h3, h5, h6, h7]

theorem Encoding.fnext (d : BitVec 6) (k : BitVec 2) : Encoding.Statement (.fnext d k) := by
  intro _
  obtain ⟨h0, h1, h2, h3, h4⟩ := layout_4_6_6_14_2 0xc#4 0x12#6 d 0x0#14 k rfl
  refine (slot_decodeKSys _ h0).trans ?_
  unfold decodeKSys
  rw [h1]
  refine (if_pos h3).trans ?_
  rw [h2, h4]

theorem Encoding.fstep (d : BitVec 6) (k : BitVec 2) : Encoding.Statement (.fstep d k) := by
  intro _
  obtain ⟨h0, h1, h2, h3, h4⟩ := layout_4_6_6_14_2 0xc#4 0x13#6 d 0x0#14 k rfl
  refine (slot_decodeKSys _ h0).trans ?_
  unfold decodeKSys
  rw [h1]
  refine (if_pos h3).trans ?_
  rw [h2, h4]

theorem Encoding.curtdone : Encoding.Statement .curtdone := by
  intro _
  obtain ⟨h0, h1, h2⟩ := layout_4_6_22 0xc#4 0x14#6 0x0#22 rfl
  refine (slot_decodeKSys _ h0).trans ?_
  unfold decodeKSys
  rw [h1]
  refine (if_pos h2).trans ?_
  rfl

theorem Encoding.rbseed (h : BitVec 6) (l : BitVec 6) : Encoding.Statement (.rbseed h l) := by
  intro _
  obtain ⟨h0, h1, h2, h3, h4⟩ := layout_4_6_6_6_10 0xc#4 0x15#6 h l 0x0#10 rfl
  refine (slot_decodeKSys _ h0).trans ?_
  unfold decodeKSys
  rw [h1]
  refine (if_pos h4).trans ?_
  rw [h2, h3]

theorem Encoding.repmark (a : BitVec 6) (t : BitVec 10) : Encoding.Statement (.repmark a t) := by
  intro _
  obtain ⟨h0, h1, h2, h3, h4⟩ := layout_4_6_6_6_10 0xc#4 0x16#6 0x0#6 a t rfl
  refine (slot_decodeKSys _ h0).trans ?_
  unfold decodeKSys
  rw [h1]
  refine (if_pos h2).trans ?_
  rw [h3, h4]

theorem Encoding.l1flush (c : BitVec 2) : Encoding.Statement (.l1flush c) := by
  intro _
  obtain ⟨h0, h1, h2, h3⟩ := layout_4_6_20_2 0xc#4 0x17#6 0x0#20 c rfl
  refine (slot_decodeKSys _ h0).trans ?_
  unfold decodeKSys
  rw [h1]
  refine (if_pos h2).trans ?_
  rw [h3]

theorem Encoding.l1inv (c : BitVec 2) : Encoding.Statement (.l1inv c) := by
  intro _
  obtain ⟨h0, h1, h2, h3⟩ := layout_4_6_20_2 0xc#4 0x18#6 0x0#20 c rfl
  refine (slot_decodeKSys _ h0).trans ?_
  unfold decodeKSys
  rw [h1]
  refine (if_pos h2).trans ?_
  rw [h3]

theorem Encoding.tlbiAll (d : BitVec 6) : Encoding.Statement (.tlbiAll d) := by
  intro _
  obtain ⟨h0, h1, h2, h3⟩ := layout_4_6_6_16 0xc#4 0x19#6 d 0x0#16 rfl
  refine (slot_decodeKSys _ h0).trans ?_
  unfold decodeKSys
  rw [h1]
  refine (if_pos h3).trans ?_
  rw [h2]

theorem Encoding.tlbiRange (d : BitVec 6) (a : BitVec 6) : Encoding.Statement (.tlbiRange d a) := by
  intro _
  obtain ⟨h0, h1, h2, h3, h4⟩ := layout_4_6_6_6_10 0xc#4 0x19#6 d a 0x1#10 rfl
  refine (slot_decodeKSys _ h0).trans ?_
  unfold decodeKSys
  rw [h1]
  refine (if_neg (fun h => absurd (h4.symm.trans (low_bits _ 0 10 16 0#16 (by decide) h)) (by decide))).trans ((if_pos h4).trans ?_)
  rw [h2, h3]

theorem Encoding.capdrop (k : BitVec 2) : Encoding.Statement (.capdrop k) := by
  intro _
  obtain ⟨h0, h1, h2, h3⟩ := layout_4_6_20_2 0xc#4 0x1a#6 0x0#20 k rfl
  refine (slot_decodeKSys _ h0).trans ?_
  unfold decodeKSys
  rw [h1]
  refine (if_pos h2).trans ?_
  rw [h3]

theorem Encoding.fwrAdvance (a0) : Encoding.Statement (.fwrAdvance a0) := by
  intro h; cases h

theorem Encoding.fwrAbandonCommand (a0) (a1) (a2) : Encoding.Statement (.fwrAbandonCommand a0 a1 a2) := by
  intro h; cases h

theorem Encoding.fwrCancelPending (a0) (a1) : Encoding.Statement (.fwrCancelPending a0 a1) := by
  intro h; cases h

theorem Encoding.annulledBundleIssue (a0) : Encoding.Statement (.annulledBundleIssue a0) := by
  intro h; cases h

theorem Encoding.pendingWriteVisible (a0) (a1) : Encoding.Statement (.pendingWriteVisible a0 a1) := by
  intro h; cases h

theorem Encoding.loadDataArrival (a0) (a1) : Encoding.Statement (.loadDataArrival a0 a1) := by
  intro h; cases h

theorem Encoding.holdLineRaise (a0) : Encoding.Statement (.holdLineRaise a0) := by
  intro h; cases h

theorem Encoding.afterIssueFreeze (a0) : Encoding.Statement (.afterIssueFreeze a0) := by
  intro h; cases h

theorem Encoding.dieLostFreeze (a0) (a1) : Encoding.Statement (.dieLostFreeze a0 a1) := by
  intro h; cases h

theorem Encoding.prompterFaultPolicy (a0) : Encoding.Statement (.prompterFaultPolicy a0) := by
  intro h; cases h

theorem Encoding.restartableReexecution (a0) (a1) : Encoding.Statement (.restartableReexecution a0 a1) := by
  intro h; cases h

theorem Encoding.preemptionRequest (a0) : Encoding.Statement (.preemptionRequest a0) := by
  intro h; cases h

theorem Encoding.preemptPark (a0) : Encoding.Statement (.preemptPark a0) := by
  intro h; cases h

theorem Encoding.segmentSwitch (a0) : Encoding.Statement (.segmentSwitch a0) := by
  intro h; cases h

theorem Encoding.unitStart (a0) : Encoding.Statement (.unitStart a0) := by
  intro h; cases h

theorem Encoding.wingsLoad (a0) (a1) : Encoding.Statement (.wingsLoad a0 a1) := by
  intro h; cases h

theorem Encoding.wingsSwap (a0) : Encoding.Statement (.wingsSwap a0) := by
  intro h; cases h

theorem Encoding.weightClearDone (a0) : Encoding.Statement (.weightClearDone a0) := by
  intro h; cases h

theorem Encoding.rbStep (a0) : Encoding.Statement (.rbStep a0) := by
  intro h; cases h

theorem Encoding.l1OpComplete (a0) : Encoding.Statement (.l1OpComplete a0) := by
  intro h; cases h

theorem Encoding.copyCommandStart (a0) (a1) : Encoding.Statement (.copyCommandStart a0 a1) := by
  intro h; cases h

theorem Encoding.copyCommandComplete (a0) (a1) : Encoding.Statement (.copyCommandComplete a0 a1) := by
  intro h; cases h

theorem Encoding.streamSlabTransfer (a0) (a1) : Encoding.Statement (.streamSlabTransfer a0 a1) := by
  intro h; cases h

theorem Encoding.copyEngineFault (a0) (a1) (a2) (a3) : Encoding.Statement (.copyEngineFault a0 a1 a2 a3) := by
  intro h; cases h

theorem Encoding.publCount (a0) (a1) : Encoding.Statement (.publCount a0 a1) := by
  intro h; cases h

theorem Encoding.flipNotice (a0) (a1) : Encoding.Statement (.flipNotice a0 a1) := by
  intro h; cases h

theorem Encoding.flipNoticeAck (a0) (a1) : Encoding.Statement (.flipNoticeAck a0 a1) := by
  intro h; cases h

theorem Encoding.valsetPerform (a0) : Encoding.Statement (.valsetPerform a0) := by
  intro h; cases h

theorem Encoding.arrayCommandStart (a0) : Encoding.Statement (.arrayCommandStart a0) := by
  intro h; cases h

theorem Encoding.awldComplete (a0) : Encoding.Statement (.awldComplete a0) := by
  intro h; cases h

theorem Encoding.vectorLatch (a0) : Encoding.Statement (.vectorLatch a0) := by
  intro h; cases h

theorem Encoding.checkpointCopy (a0) : Encoding.Statement (.checkpointCopy a0) := by
  intro h; cases h

theorem Encoding.emitPublish (a0) : Encoding.Statement (.emitPublish a0) := by
  intro h; cases h

theorem Encoding.aoutPublish (a0) : Encoding.Statement (.aoutPublish a0) := by
  intro h; cases h

theorem Encoding.aclrComplete (a0) : Encoding.Statement (.aclrComplete a0) := by
  intro h; cases h

theorem Encoding.chainPartialSums (a0) : Encoding.Statement (.chainPartialSums a0) := by
  intro h; cases h

theorem Encoding.chainEnd (a0) : Encoding.Statement (.chainEnd a0) := by
  intro h; cases h

theorem Encoding.streamPoison (a0) (a1) (a2) (a3) : Encoding.Statement (.streamPoison a0 a1 a2 a3) := by
  intro h; cases h

theorem Encoding.syncEngineOperation (a0) : Encoding.Statement (.syncEngineOperation a0) := by
  intro h; cases h

theorem Encoding.syncReply (a0) : Encoding.Statement (.syncReply a0) := by
  intro h; cases h

theorem Encoding.retryReceived (a0) : Encoding.Statement (.retryReceived a0) := by
  intro h; cases h

theorem Encoding.pageMigration (a0) (a1) (a2) : Encoding.Statement (.pageMigration a0 a1 a2) := by
  intro h; cases h

theorem Encoding.bufferRegistration (a0) (a1) (a2) (a3) (a4) : Encoding.Statement (.bufferRegistration a0 a1 a2 a3 a4) := by
  intro h; cases h

theorem Encoding.gets (a0) (a1) : Encoding.Statement (.gets a0 a1) := by
  intro h; cases h

theorem Encoding.getm (a0) (a1) : Encoding.Statement (.getm a0 a1) := by
  intro h; cases h

theorem Encoding.upg (a0) (a1) : Encoding.Statement (.upg a0 a1) := by
  intro h; cases h

theorem Encoding.putm (a0) (a1) : Encoding.Statement (.putm a0 a1) := by
  intro h; cases h

theorem Encoding.puto (a0) (a1) : Encoding.Statement (.puto a0 a1) := by
  intro h; cases h

theorem Encoding.pute (a0) (a1) : Encoding.Statement (.pute a0 a1) := by
  intro h; cases h

theorem Encoding.puts (a0) (a1) : Encoding.Statement (.puts a0 a1) := by
  intro h; cases h

theorem Encoding.dataS (a0) (a1) : Encoding.Statement (.dataS a0 a1) := by
  intro h; cases h

theorem Encoding.dataE (a0) (a1) : Encoding.Statement (.dataE a0 a1) := by
  intro h; cases h

theorem Encoding.dataM (a0) (a1) : Encoding.Statement (.dataM a0 a1) := by
  intro h; cases h

theorem Encoding.datanf (a0) (a1) : Encoding.Statement (.datanf a0 a1) := by
  intro h; cases h

theorem Encoding.upgack (a0) (a1) : Encoding.Statement (.upgack a0 a1) := by
  intro h; cases h

theorem Encoding.inv (a0) (a1) : Encoding.Statement (.inv a0 a1) := by
  intro h; cases h

theorem Encoding.fwdgets (a0) (a1) : Encoding.Statement (.fwdgets a0 a1) := by
  intro h; cases h

theorem Encoding.fwdgetsnf (a0) (a1) : Encoding.Statement (.fwdgetsnf a0 a1) := by
  intro h; cases h

theorem Encoding.fwdgetm (a0) (a1) : Encoding.Statement (.fwdgetm a0 a1) := by
  intro h; cases h

theorem Encoding.fwddata (a0) (a1) : Encoding.Statement (.fwddata a0 a1) := by
  intro h; cases h

theorem Encoding.invack (a0) (a1) : Encoding.Statement (.invack a0 a1) := by
  intro h; cases h

theorem Encoding.fwdack (a0) (a1) : Encoding.Statement (.fwdack a0 a1) := by
  intro h; cases h

theorem Encoding.putack (a0) (a1) : Encoding.Statement (.putack a0 a1) := by
  intro h; cases h

theorem Encoding.putackstale (a0) (a1) : Encoding.Statement (.putackstale a0 a1) := by
  intro h; cases h

theorem Encoding.push (a0) (a1) : Encoding.Statement (.push a0 a1) := by
  intro h; cases h

theorem Encoding.rdset (a0) (a1) : Encoding.Statement (.rdset a0 a1) := by
  intro h; cases h

theorem Encoding.rdinv (a0) (a1) : Encoding.Statement (.rdinv a0 a1) := by
  intro h; cases h

theorem Encoding.rdack (a0) (a1) : Encoding.Statement (.rdack a0 a1) := by
  intro h; cases h

theorem Encoding.memoryFill (a0) : Encoding.Statement (.memoryFill a0) := by
  intro h; cases h

theorem Encoding.redirectedRead (a0) (a1) : Encoding.Statement (.redirectedRead a0 a1) := by
  intro h; cases h

theorem Encoding.circuitSend (a0) : Encoding.Statement (.circuitSend a0) := by
  intro h; cases h

theorem Encoding.snoopTimerExpiry (a0) : Encoding.Statement (.snoopTimerExpiry a0) := by
  intro h; cases h

theorem Encoding.linkTrainingComplete (a0) : Encoding.Statement (.linkTrainingComplete a0) := by
  intro h; cases h

theorem Encoding.linkTrainFail (a0) : Encoding.Statement (.linkTrainFail a0) := by
  intro h; cases h

theorem Encoding.translationWalk (a0) (a1) (a2) (a3) : Encoding.Statement (.translationWalk a0 a1 a2 a3) := by
  intro h; cases h

theorem Encoding.walkComplete (a0) : Encoding.Statement (.walkComplete a0) := by
  intro h; cases h

theorem Encoding.replayEventDelivery (a0) (a1) : Encoding.Statement (.replayEventDelivery a0 a1) := by
  intro h; cases h

theorem Encoding.gaddrWrite (a0) (a1) (a2) : Encoding.Statement (.gaddrWrite a0 a1 a2) := by
  intro h; cases h

theorem Encoding.cue (a0) (a1) : Encoding.Statement (.cue a0 a1) := by
  intro h; cases h

theorem Encoding.transformDispatch (a0) : Encoding.Statement (.transformDispatch a0) := by
  intro h; cases h

theorem Encoding.phaseBoundaryRelease (a0) : Encoding.Statement (.phaseBoundaryRelease a0) := by
  intro h; cases h

theorem Encoding.launchReleaseDone (a0) : Encoding.Statement (.launchReleaseDone a0) := by
  intro h; cases h

theorem Encoding.completionTarget (a0) : Encoding.Statement (.completionTarget a0) := by
  intro h; cases h

theorem Encoding.cancelUnit (a0) (a1) (a2) : Encoding.Statement (.cancelUnit a0 a1 a2) := by
  intro h; cases h

theorem Encoding.cancelLaunch (a0) (a1) : Encoding.Statement (.cancelLaunch a0 a1) := by
  intro h; cases h

theorem Encoding.cancelGraph (a0) (a1) : Encoding.Statement (.cancelGraph a0 a1) := by
  intro h; cases h

theorem Encoding.cancelPhase (a0) (a1) : Encoding.Statement (.cancelPhase a0 a1) := by
  intro h; cases h

theorem Encoding.cancelJob (a0) : Encoding.Statement (.cancelJob a0) := by
  intro h; cases h

theorem Encoding.budgetPeriodStart (a0) : Encoding.Statement (.budgetPeriodStart a0) := by
  intro h; cases h

theorem Encoding.deadlineStrike (a0) : Encoding.Statement (.deadlineStrike a0) := by
  intro h; cases h

theorem Encoding.curtainMessage (a0) (a1) : Encoding.Statement (.curtainMessage a0 a1) := by
  intro h; cases h

theorem Encoding.diversion (a0) : Encoding.Statement (.diversion a0) := by
  intro h; cases h

theorem Encoding.curtainNoentComplete (a0) : Encoding.Statement (.curtainNoentComplete a0) := by
  intro h; cases h

theorem Encoding.curtainOverrun (a0) : Encoding.Statement (.curtainOverrun a0) := by
  intro h; cases h

theorem Encoding.ptpMessage (a0) (a1) : Encoding.Statement (.ptpMessage a0 a1) := by
  intro h; cases h

theorem Encoding.ppsInput : Encoding.Statement (.ppsInput) := by
  intro h; cases h

theorem Encoding.ptmResponse (a0) : Encoding.Statement (.ptmResponse a0) := by
  intro h; cases h

theorem Encoding.holdoverEntry : Encoding.Statement (.holdoverEntry) := by
  intro h; cases h

theorem Encoding.tkset (a0) : Encoding.Statement (.tkset a0) := by
  intro h; cases h

theorem Encoding.tktaisRead : Encoding.Statement (.tktaisRead) := by
  intro h; cases h

theorem Encoding.inboundWrite (a0) (a1) (a2) (a3) (a4) (a5) (a6) : Encoding.Statement (.inboundWrite a0 a1 a2 a3 a4 a5 a6) := by
  intro h; cases h

theorem Encoding.routeRelease (a0) (a1) : Encoding.Statement (.routeRelease a0 a1) := by
  intro h; cases h

theorem Encoding.routeAck (a0) (a1) : Encoding.Statement (.routeAck a0 a1) := by
  intro h; cases h

theorem Encoding.inboundRead (a0) (a1) (a2) (a3) (a4) : Encoding.Statement (.inboundRead a0 a1 a2 a3 a4) := by
  intro h; cases h

theorem Encoding.inboundReadRelease (a0) : Encoding.Statement (.inboundReadRelease a0) := by
  intro h; cases h

theorem Encoding.apctlWrite (a0) : Encoding.Statement (.apctlWrite a0) := by
  intro h; cases h

theorem Encoding.xctlWrite (a0) : Encoding.Statement (.xctlWrite a0) := by
  intro h; cases h

theorem Encoding.outboundLoadTimeout (a0) : Encoding.Statement (.outboundLoadTimeout a0) := by
  intro h; cases h

theorem Encoding.hostLinkDown : Encoding.Statement (.hostLinkDown) := by
  intro h; cases h

theorem Encoding.estalPortTrained (a0) (a1) (a2) (a3) : Encoding.Statement (.estalPortTrained a0 a1 a2 a3) := by
  intro h; cases h

theorem Encoding.estalPortStatusWrite (a0) (a1) : Encoding.Statement (.estalPortStatusWrite a0 a1) := by
  intro h; cases h

theorem Encoding.moduleReset : Encoding.Statement (.moduleReset) := by
  intro h; cases h

theorem Encoding.mreset (a0) : Encoding.Statement (.mreset a0) := by
  intro h; cases h

theorem Encoding.attestationGo (a0) : Encoding.Statement (.attestationGo a0) := by
  intro h; cases h

theorem Encoding.attestationDone : Encoding.Statement (.attestationDone) := by
  intro h; cases h

theorem Encoding.powerThrottle (a0) : Encoding.Statement (.powerThrottle a0) := by
  intro h; cases h

theorem Encoding.thermalTrip : Encoding.Statement (.thermalTrip) := by
  intro h; cases h

theorem Encoding.powerStageFault : Encoding.Statement (.powerStageFault) := by
  intro h; cases h

theorem Encoding.registerWrite (a0) (a1) : Encoding.Statement (.registerWrite a0 a1) := by
  intro h; cases h

theorem Encoding.hubDieFault : Encoding.Statement (.hubDieFault) := by
  intro h; cases h

theorem Encoding.estalLinkDown (a0) (a1) : Encoding.Statement (.estalLinkDown a0 a1) := by
  intro h; cases h

theorem Encoding.hostPortTrained : Encoding.Statement (.hostPortTrained) := by
  intro h; cases h

theorem Encoding.pushAcknowledgement (a0) (a1) : Encoding.Statement (.pushAcknowledgement a0 a1) := by
  intro h; cases h

theorem Encoding.memoryWriteDone (a0) : Encoding.Statement (.memoryWriteDone a0) := by
  intro h; cases h

theorem Encoding.shootDown (a0) (a1) : Encoding.Statement (.shootDown a0 a1) := by
  intro h; cases h

theorem Encoding.shootDownAck (a0) (a1) : Encoding.Statement (.shootDownAck a0 a1) := by
  intro h; cases h

theorem Encoding.outboundWriteAck (a0) (a1) : Encoding.Statement (.outboundWriteAck a0 a1) := by
  intro h; cases h

theorem Encoding.ideFailure : Encoding.Statement (.ideFailure) := by
  intro h; cases h

theorem Encoding.correctableError : Encoding.Statement (.correctableError) := by
  intro h; cases h

theorem Encoding.flitRetry (a0) : Encoding.Statement (.flitRetry a0) := by
  intro h; cases h

theorem Encoding.pctlWrite (a0) (a1) : Encoding.Statement (.pctlWrite a0 a1) := by
  intro h; cases h

end Sys2Proof.Laws
end

