-- ==== Sys2Proof/Tests/Slice0.lean ====
section
/-! SUPPORT.
Tests: an ill-formed instruction for every check of WellFormed; words written out from the encoding tables of spec/02_bundles.md;
and for each statement of Certificates/Slice0/Obligations.lean that has hypotheses, a state and operands that meet them. -/

namespace Sys2Proof.Tests

open Sys2Proof.Machine Sys2Proof.Safety

set_option maxRecDepth 100000

/-! ## Well-formedness (R44 to R58, R65) -/

/-- Each check refuses a term; the values are the first beyond the range, or the reserved code, of the rule. -/
theorem test_ill_formed :
    ∀ i ∈ [Instr.pand 1 16 0 0 0, .por 1 0 16 0 0, .pxor 1 16 16 0 0, .pnot 1 16 0 0, .shli 1 2 64, .shri 1 2 0x3FF, .sari 1 2 64,
      .vbcst 0 3, .vcvt 0 0 0x0E, .vcvt 0 0 0x12, .vtrans 0 0 0 3, .vred 0 0 7, .vext 0 3 0, .vext 0 2 1, .vsplat 0 0 1 1, .aext 0,
      .aext 13, .aclr 0 0 0 0, .asnap 3 1, .await 0 3, .await 1 0, .await 3 1, .await 17 1, .asetl 3, .asetl 17, .aseed 0 0 1,
      .agen 3, .azone 1 1 1, .cpy 0 0 0 0 0, .cpy 0 0 0 0 3, .cpyo 0 0 0 0 0, .qcvt 0 0 0 0 2 0, .dqcvt 0 0 0 0 0 2,
      .nmpk 0 0 0 0 3 0, .nmup 0 0 0 0 0 3, .xpose 0 0 0 0 2 0 0, .fence 0 0, .csrr 1 5, .csrw 1 2 0x23, .csrs 1 2 0x14, .csrc 1 2 0xB,
      .bankacq 1 3, .bankrel 1 3, .ringadv 1 0 0, .stgw 1 3 0, .stgr 1 3 0, .valset 1 2 3 0 0 0, .valset 1 2 4 0 1 0, .valset 1 2 17 0 0 0,
      .moduleReset, .cue 1 0, .pendingWriteVisible 0 0], i.wellFormed = false := by decide

/-- The values at the ends of the same ranges are well formed. -/
theorem test_well_formed :
    ∀ i ∈ [Instr.pand 1 15 15 0 0, .shli 1 2 63, .vbcst 0 2, .vcvt 0 0 0x0D, .vcvt 0 0 0x11, .vtrans 0 0 1 2, .vred 0 0 6, .vext 0 2 14,
      .vsplat 0 0 1 14, .aext 1, .aext 12, .aclr 0 0 0 1, .await 4 1, .await 16 1, .await 0 2, .asetl 4, .asetl 16, .aseed 1 0 5, .agen 2,
      .azone 1 0 7, .cpy 0 0 0 0 2, .cpyo 0 0 0 0 1, .qcvt 0 0 0 0 1 1, .fence 0 1, .csrr 1 0x22, .bankacq 1 2, .ringadv 1 1 511,
      .stgw 1 2 15, .valset 1 2 16 1 0 3, .valset 1 2 0 0 1 0], i.wellFormed = true := by decide

/-! ## Words (R42 to R57), field by field from the encoding tables -/

theorem test_decode_scalar :
    decodeSlot 0x00041467 = .instr (.add 4 5 6 3 1) ∧ decodeSlot 0x08C21C90 = .instr (.cmpltu 2 7 9 0 0) ∧
    decodeSlot 0x09832800 = .instr (.pand 3 10 0 0 0) ∧ decodeSlot 0x100512BC = .instr (.addi 5 4 0x2BC) := by decide

theorem test_decode_memory :
    decodeSlot 0x240C5000 = .instr (.ldw 3 5 0 0) ∧ decodeSlot 0x29085001 = .instr (.stw 2 5 0 1) ∧
    decodeSlot 0x2C0C1300 = .instr (.ldacq 3 1 0 3 0) := by decide

theorem test_decode_control :
    decodeSlot 0x3020001F = .instr (.br 1 0 31) ∧ decodeSlot 0x35012005 = .instr (.loop 0 9 5) ∧
    decodeSlot 0xF0000000 = .instr .nop ∧ decodeSlot 0xE4004800 = .header 0xE4004800 := by decide

theorem test_decode_vector : decodeSlot 0x53135200 = .instr (.vfmaF64 0x13 0x52 0x00) := by decide

theorem test_decode_array :
    decodeSlot 0x87000041 = .instr (.await 4 1) ∧ decodeSlot 0x82000002 = .instr (.aext 2) ∧
    decodeSlot 0x90000004 = .instr (.asetl 4) := by decide

theorem test_decode_sync :
    decodeSlot 0xB2A69231 = .instr (.aminu 19 18 17 2 0 1) ∧ decodeSlot 0xB800001E = .instr (.fence 3 3) := by decide

theorem test_decode_k :
    decodeSlot 0xC0050008 = .instr (.csrr 5 8) ∧ decodeSlot 0xC5431000 = .instr (.rbseed 3 4) ∧
    decodeSlot 0xC6441401 = .instr (.tlbiRange 4 5) ∧ decodeSlot 0xC3003006 = .instr (.valsetArr 12 2) ∧
    decodeSlot 0xC5C00002 = .instr (.l1flush 2) ∧ decodeSlot 0xC5000000 = .instr .curtdone := by decide

theorem test_decode_float_integer :
    decodeSlot 0x42135281 = .instr (.vmul 0x13 0x52 0x81) ∧ decodeSlot 0x60135281 = .instr (.viadd 0x13 0x52 0x81) ∧
    decodeSlot 0x70135200 = .instr (.vmov 0x13 0x52) := by decide

theorem test_decode_copy :
    decodeSlot 0xAAC0000D = .instr (.qbnd 1 0 1 5) ∧ decodeSlot 0xA0CE1021 = .instr (.gath 0 3 1 0 0x21) := by decide

/-! ## A small state: one unit of context 1 on cluster 0, with pages of each kind in its TLB -/

/-- A unit without launch. -/
def unit : UnitSt :=
  (UnitSt.fresh { launch := none, index := 0, asid := 1, cluster := 0, prompt := none, restart := false, instances := 0,
                  serves := none } 0 0).modRun fun r => { r with status := .running, started := true }

/-- The unit with a value in a scalar register. -/
def unitWith (r : Fin 64) (v : Word) : UnitSt := unit.modRegs fun g => { g with s := g.s.set r v }

/-- A translation of one page. -/
def page (vpn frame : Nat) (sync : Bool) : TlbEntry :=
  { asid := 1, vpn := vpn, level := 0, frame0 := frame, frame1 := frame, buffer := none, rd := true, wr := true, ex := true,
    priv := false, sync := sync, tvg := false, key := 0, rfloor := 0, rceil := 0, dirty := true, wframe := none }

def core0 : Cluster :=
  { Cluster.reset with running := some 0, order := [0],
                       tlb := [page 0 0 false, page 1 0x4000 true, page 2 (2 ^ 51) false, page 3 0xA000000000000 false,
                               { page 4 0 false with rd := false, wr := false }] }

/-- The unit at issue, slot 0, alone in the machine. -/
def st (u : UnitSt) : State :=
  { State.reset with units := [u], clusters := State.reset.clusters.set 0 core0, active := [0],
                     hub := { State.reset.hub with contexts := [fetchContext] } }

/-- The same with lend bytes of a header. -/
def lent (u : UnitSt) (l : BitVec 8) : State := { st u with issue := { Issue.empty with lend := l, hasHdr := true } }

/-! ### Every slot instruction, under a word built from its row of spec/opcode_table.json: fixed bits, and a value in each field -/

theorem test_words_0a : ∀ p ∈ ([
    (0x002742F5, .add 0x27 0x10 0x2F 2 1), (0x00578EDA, .sub 0x17 0x23 0x2D 5 0), (0x00AFD252, .and 0x2F 0x34 0x25 1 0),
    (0x00C9A4A0, .or 9 0x29 0xA 0 0), (0x01155803, .xor 0x15 0x16 0 1 1), (0x01412475, .andn 1 9 7 2 1),
    (0x01A67486, .shl 0x26 0x1D 8 3 0), (0x01DF822F, .shr 0x1F 0x20 0x22 7 1), (0x022201EE, .sar 0x22 0 0x1E 7 0),
    (0x0260E1E2, .rol 0x20 0x38 0x1E 1 0), (0x02BAF232, .mul 0x3A 0x3C 0x23 1 0), (0x02E2FEA9, .mulhs 0x22 0x3F 0x2A 4 1),
    (0x031169AD, .mulhu 0x11 0x1A 0x1A 6 1), (0x036979F7, .divs 0x29 0x1E 0x1F 3 1), (0x0380B5DB, .divu 0 0x2D 0x1D 5 1),
    (0x03DF119C, .rems 0x1F 4 0x19 6 0), (0x043F9A84, .remu 0x3F 0x26 0x28 2 0), (0x044DACF5, .mins 0xD 0x2B 0xF 2 1),
    (0x048ABD36, .minu 0xA 0x2F 0x13 3 0), (0x04E42DE4, .maxs 0x24 0xB 0x1E 2 0), (0x0522A98B, .maxu 0x22 0x2A 0x18 5 1),
    (0x054A3408, .clz 0xA 0xD 4 0), (0x058CCC0A, .ctz 0xC 0x33 5 0), (0x05EEE801, .popc 0x2E 0x3A 0 1),
    (0x0632600D, .brev 0x32 0x18 6 1), (0x067C1406, .bswap 0x3C 5 3 0), (0x06946CA0, .sext 0x14 0x1B 0xA 0 0),
    (0x06F30F83, .zext 0x33 3 0x38 1 1), (0x07131C40, .sel 0x13 7 4 0 0), (0x07669837, .addw 0x26 0x26 3 3 1),
    (0x07AF32FB, .subw 0x2F 0xC 0x2F 5 1), (0x07CC4E5D, .mulw 0xC 0x13 0x25 6 1), (0x0807C6A4, .cmpeq 7 0x31 0x2A 2 0),
    (0x0847D60C, .cmpne 7 0x35 0x20 6 0), (0x088725F7, .cmplts 7 9 0x1F 3 1), (0x08C078D1, .cmpltu 0 0x1E 0xD 0 1),
    (0x0904FE89, .cmples 4 0x3F 0x28 4 1), (0x094700C4, .cmpleu 7 0 0xC 2 0), (0x09863082, .pand 6 0xC 8 1 0),
    (0x09C508DD, .por 5 2 0xD 6 1)] : List (SlotWord × Instr)), decodeSlot p.1 = .instr p.2 := by decide

theorem test_words_0b : ∀ p ∈ ([
    (0x0A0304C3, .pxor 3 1 0xC 1 1), (0x0A46280F, .pnot 6 0xA 7 1), (0x0A9C000C, .movp 0x1C 6 0), (0x0AC0C807, .movtp 0x32 3 1)] : List (SlotWord × Instr)), decodeSlot p.1 = .instr p.2 := by decide

theorem test_words_1 : ∀ p ∈ ([
    (0x102F21CE, .addi 0x2F 8 0x1CE), (0x105735F7, .andi 0x17 0xD 0x1F7), (0x10B3292B, .ori 0x33 0xA 0x12B),
    (0x10C3722F, .xori 3 0x1C 0x22F), (0x1110540C, .shli 0x10 0x15 0xC), (0x11678423, .shri 0x27 0x21 0x23),
    (0x118B103A, .sari 0xB 4 0x3A), (0x11CE5C9E, .muli 0xE 0x17 0x9E), (0x12350364, .li 0x35 0x364),
    (0x125E2665, .lix 0x1E 9 0x265), (0x12839EBE, .cmpeqi 3 0x27 0x2BE), (0x12C48450, .cmpltsi 4 0x21 0x50),
    (0x13011365, .cmpltui 1 4 0x365)] : List (SlotWord × Instr)), decodeSlot p.1 = .instr p.2 := by decide

theorem test_words_2 : ∀ p ∈ ([
    (0x2044431A, .ldb 0x11 4 0 0x31A), (0x21357689, .ldbu 0xD 0x17 1 0x289), (0x22DCA1FE, .ldh 0x37 0xA 0 0x1FE),
    (0x232B89F1, .ldhu 0xA 0x38 2 0x1F1), (0x24558548, .ldw 0x15 0x18 1 0x148), (0x2508F10F, .ldwu 2 0xF 0 0x10F),
    (0x26ED88E1, .ldd 0x3B 0x18 2 0xE1), (0x2731A4C4, .stb 0xC 0x1A 1 0xC4), (0x28DFF64C, .sth 0x37 0x3F 1 0x24C),
    (0x298FA559, .stw 0x23 0x3A 1 0x159), (0x2A82F8AD, .std 0x20 0x2F 2 0xAD), (0x2BDA2B7E, .ldro 0x36 0x22 2 0x37E),
    (0x2CEEAE30, .ldacq 0x3B 0x2A 3 2 0x30), (0x2D75458A, .strel 0x1D 0x14 1 1 0x8A), (0x2E02700C, .pfl2 0x27 0 0xC)] : List (SlotWord × Instr)), decodeSlot p.1 = .instr p.2 := by decide

theorem test_words_3 : ∀ p ∈ ([
    (0x30067621, .br 0 0 0x67621), (0x31FEBF08, .brn 7 1 0xEBF08), (0x32844A69, .call 4 0 0x44A69), (0x335A8000, .jr 2 1 0x2A),
    (0x34484000, .callr 2 0 0x21), (0x350679E9, .loop 0 0x33 0x19E9), (0x3601F132, .loopi 0 0x7C 0x132), (0x37000000, .endseg),
    (0x38000000, .halt), (0x3906D000, .stgp 0x6D), (0x3A5A8000, .trap 2 1 0xA8), (0x3B060131, .brk 0x60131),
    (0x3C059A2C, .nops 0x59A2C)] : List (SlotWord × Instr)), decodeSlot p.1 = .instr p.2 := by decide

theorem test_words_4 : ∀ p ∈ ([
    (0x40B31829, .vadd 0xB3 0x18 0x29), (0x415E4478, .vsub 0x5E 0x44 0x78), (0x42312CE4, .vmul 0x31 0x2C 0xE4),
    (0x439F2698, .vfma 0x9F 0x26 0x98), (0x442FDDB2, .vfms 0x2F 0xDD 0xB2), (0x45C75018, .vdiv 0xC7 0x50 0x18),
    (0x46BE3800, .vsqrt 0xBE 0x38), (0x47DABB97, .vmin 0xDA 0xBB 0x97), (0x48C62F03, .vmax 0xC6 0x2F 3),
    (0x494B907C, .vcmpeq 0x4B 0x90 0x7C), (0x4A3DB25A, .vcmplt 0x3D 0xB2 0x5A), (0x4BCAA014, .vcmple 0xCA 0xA0 0x14),
    (0x4CF32400, .vabs 0xF3 0x24), (0x4D6B8A00, .vneg 0x6B 0x8A), (0x4E16790E, .vsel 0x16 0x79 0xE),
    (0x4FC87300, .vclass 0xC8 0x73)] : List (SlotWord × Instr)), decodeSlot p.1 = .instr p.2 := by decide

theorem test_words_5 : ∀ p ∈ ([
    (0x501C345F, .vaddF64 0x1C 0x34 0x5F), (0x5175BF2A, .vsubF64 0x75 0xBF 0x2A), (0x52FF8AF4, .vmulF64 0xFF 0x8A 0xF4),
    (0x53EA4789, .vfmaF64 0xEA 0x47 0x89), (0x54FA6F02, .vfmsF64 0xFA 0x6F 2), (0x55FB3547, .vdivF64 0xFB 0x35 0x47),
    (0x563D5F00, .vsqrtF64 0x3D 0x5F), (0x577B065E, .vminF64 0x7B 6 0x5E), (0x589E97E4, .vmaxF64 0x9E 0x97 0xE4),
    (0x59390D38, .vcmpeqF64 0x39 0xD 0x38), (0x5AD17B49, .vcmpltF64 0xD1 0x7B 0x49), (0x5B7E1E83, .vcmpleF64 0x7E 0x1E 0x83),
    (0x5C67DC00, .vabsF64 0x67 0xDC), (0x5DC22B00, .vnegF64 0xC2 0x2B), (0x5ECA9A85, .vselF64 0xCA 0x9A 0x85),
    (0x5F0BCC00, .vclassF64 0xB 0xCC)] : List (SlotWord × Instr)), decodeSlot p.1 = .instr p.2 := by decide

theorem test_words_6 : ∀ p ∈ ([
    (0x603A29D7, .viadd 0x3A 0x29 0xD7), (0x61956088, .visub 0x95 0x60 0x88), (0x628259FC, .vimul 0x82 0x59 0xFC),
    (0x63803355, .vimad 0x80 0x33 0x55), (0x64A1403E, .vand 0xA1 0x40 0x3E), (0x65D48801, .vor 0xD4 0x88 1),
    (0x6677FF9F, .vxor 0x77 0xFF 0x9F), (0x67A28D8F, .vshl 0xA2 0x8D 0x8F), (0x68E7296C, .vshr 0xE7 0x29 0x6C),
    (0x696A60CF, .vsar 0x6A 0x60 0xCF), (0x6A3CF2DE, .vimin 0x3C 0xF2 0xDE), (0x6B150EF1, .vimax 0x15 0xE 0xF1),
    (0x6CFD7250, .vicmpeq 0xFD 0x72 0x50), (0x6D20CE08, .vicmplt 0x20 0xCE 8), (0x6ED75EF6, .viadds 0xD7 0x5E 0xF6),
    (0x6FA55F4F, .vperm 0xA5 0x5F 0x4F)] : List (SlotWord × Instr)), decodeSlot p.1 = .instr p.2 := by decide

theorem test_words_7 : ∀ p ∈ ([
    (0x701B5200, .vmov 0x1B 0x52), (0x71AD0002, .vbcst 0xAD 2), (0x72DF260A, .vcvt 0xDF 0x26 0xA),
    (0x7320E200, .vtrans 0x20 0xE2 0 0), (0x74D54D00, .vred 0xD5 0x4D 0), (0x754C1729, .vldt 0x4C 0x17 0x29),
    (0x76F02594, .vstt 0xF0 0x25 0x94), (0x777F3D91, .vldg 0x7F 0x3D 2 0x11), (0x781A39F8, .vstg 0x1A 0x39 3 0x38),
    (0x79410004, .vqrd 0x41 4), (0x7A4F1B00, .vpop 0x4F 0x1B), (0x7B4B3B00, .vpush 0x4B 0x3B), (0x7C00AC2A, .vext 0xAC 2 0xA),
    (0x7D640092, .viota 0x64 0x92), (0x7E5C3A01, .vsplat 0x5C 0x3A 0 1)] : List (SlotWord × Instr)), decodeSlot p.1 = .instr p.2 := by decide

theorem test_words_8 : ∀ p ∈ ([
    (0x80000000, .awld 0), (0x81000007, .astrm 1 1 1), (0x82000005, .aext 5), (0x83000003, .achk 0 3), (0x84000001, .aout 1),
    (0x85000002, .aclr 0 0 1 0), (0x86000047, .asnap 1 7), (0x87000002, .await 0 2)] : List (SlotWord × Instr)), decodeSlot p.1 = .instr p.2 := by decide

theorem test_words_9 : ∀ p ∈ ([
    (0x90000008, .asetl 8), (0x91015158, .aseed 0 1 0x5158), (0x9200000E, .amode 1 1 2), (0x93000001, .agen 1),
    (0x94004806, .azone 0x48 0 6)] : List (SlotWord × Instr)), decodeSlot p.1 = .instr p.2 := by decide

theorem test_words_A : ∀ p ∈ ([
    (0xA01E1000, .cpy 0 7 1 0 1), (0xA8768000, .cpyo 1 0xD 1 0 2), (0xA0B85000, .cpyt 0 0xE 0 0),
    (0xA8DA103A, .gath 1 6 1 0 0x3A), (0xA1284072, .scat 0 0xA 0 0 0x72), (0xA9400000, .bpf 1 0), (0xA9810000, .qcvt 1 0 0 1 0 0),
    (0xA1DE0000, .dqcvt 0 7 1 0 0 0), (0xAA241000, .nmpk 1 9 0 0 0 1), (0xA27F4000, .nmup 0 0xF 1 1 1 0),
    (0xA2B20000, .publ 0 0xC 1 0 0), (0xA2C00003, .qbnd 0 0 0 3), (0xAB005CB2, .twait 1 0x5CB2), (0xA36C0000, .cfol 0 0xB),
    (0xAB80262D, .cabt 1 0x262D), (0xABFE1002, .xpose 1 0xF 1 0 0 1 2)] : List (SlotWord × Instr)), decodeSlot p.1 = .instr p.2 := by decide

theorem test_words_B : ∀ p ∈ ([
    (0xB0614E3F, .aadd 0x30 0x29 0x31 3 3 1), (0xB0BCFB31, .aand 0x1E 0x1F 0x19 2 0 1), (0xB15C62E3, .aor 0x2E 0xC 0x17 0 1 1),
    (0xB1C16712, .axor 0x20 0x2C 0x38 2 1 0), (0xB2572445, .amins 0x2B 0x24 0x22 0 2 1),
    (0xB2D28A69, .aminu 0x29 0x11 0x13 1 0 1), (0xB379E7D3, .amaxs 0x3C 0x3C 0x3E 2 1 1), (0xB38510BE, .amaxu 2 0x22 5 3 3 0),
    (0xB43E785B, .axchg 0x1F 0xF 2 3 1 1), (0xB4840B0A, .acas 2 1 0x18 1 1 0), (0xB5114F15, .afadd32 8 0x29 0x38 2 2),
    (0xB586ABC8, .afadd64 3 0x15 0x1E 1 0), (0xB60107D4, .barinit 0x20 0x3E 2 2), (0xB6F54810, .barrive 0x3A 0x29 2 0),
    (0xB6914017, .barriveJoin 8 0x28 2 3), (0xB76F21DA, .barwait 0x37 0x24 0xE 3 1), (0xB7B7981E, .baraw 0x1B 0x33 3 3),
    (0xB800000A, .fence 1 1), (0xB8E29132, .ared 0x31 0x12 9 2 1 0), (0xB97D081C, .syncq 0x3E 0x21 3 2)] : List (SlotWord × Instr)), decodeSlot p.1 = .instr p.2 := by decide

theorem test_words_C : ∀ p ∈ ([
    (0xC0080000, .csrr 8 0), (0xC0488003, .csrw 8 0x20 3), (0xC080F000, .csrs 0 0x3C 0), (0xC0C03021, .csrc 0 0xC 0x21),
    (0xC100942E, .talloc 0x25 0x2E), (0xC14000BB, .tfree 0xBB), (0xC180E402, .bankacq 0x39 2), (0xC1C01000, .bankrel 4 0),
    (0xC2006DFC, .ringadv 0x1B 0 0x1FC), (0xC2496C00, .ringcnt 9 0x1B), (0xC280E81C, .stgw 0x3A 1 0xC),
    (0xC2D30026, .stgr 0x13 2 6), (0xC3001407, .valsetArr 5 3), (0xC33A940B, .valset 0x3A 0x25 0 0 1 3),
    (0xC3787C02, .frd 0x38 0x1F 2), (0xC3909001, .fwr 0x10 0x24 1), (0xC3DF0003, .fresume 0x1F 3), (0xC4000002, .fkill 2),
    (0xC45B240E, .farrive 0x1B 9 0 3 2), (0xC4A40002, .fnext 0x24 2), (0xC4DB0002, .fstep 0x1B 2), (0xC5000000, .curtdone),
    (0xC54A9C00, .rbseed 0xA 0x27), (0xC580B81B, .repmark 0x2E 0x1B), (0xC5C00002, .l1flush 2), (0xC6000000, .l1inv 0),
    (0xC6420000, .tlbiAll 2), (0xC6741801, .tlbiRange 0x34 6), (0xC6800001, .capdrop 1)] : List (SlotWord × Instr)), decodeSlot p.1 = .instr p.2 := by decide

theorem test_words_F : ∀ p ∈ ([
    (0xF0000000, .nop)] : List (SlotWord × Instr)), decodeSlot p.1 = .instr p.2 := by decide

/-! ## The premises of the statements

One theorem for each statement with premises: values that meet them together, for each clause, at an end of its range where it
has one. -/

/-! ### Encoding and steps -/

theorem meets_DecodeEncode : (Instr.ringadv 1 1 511).wellFormed = true := by decide

theorem meets_AcceptedWordIsEncoding :
    decodeSlot 0x00041467 = .instr (.add 4 5 6 3 1) ∧ slotClass 0xD0000000 = 0xD ∧ slotClass 0xF0000001 = 0xF ∧
    slotClass 0xE0000000 = 0xE := by decide

theorem meets_StepKeepsMemoryCanonical : Canonical State.reset ∧ ∃ t, step State.reset = .next t := by
  refine ⟨⟨rfl, rfl, ?_⟩, _, rfl⟩
  intro c
  have h : State.reset.cluster c = Cluster.reset := by
    show (Vector.replicate 128 Cluster.reset)[c.val] = _
    simp
  rw [h]
  exact ⟨rfl, rfl, rfl⟩

/-- A bundle of two headers. -/
theorem meets_FrozenBundleHasNoEffect :
    ∃ t, tryIssue (st unit) 0 unit (List.replicate 16 0xE0) = .next (.frozen t) := ⟨_, rfl⟩

theorem meets_FaultFreezes : AtIssue (st unit) unit := rfl

/-! ### Scalar instructions -/

theorem meets_ScalarResults :
    AtIssue (st unit) unit ∧ Unlent (st unit) ∧ NoHazard unit [.pred 0, .scalar 1, .scalar 2] [(.scalar 63, 1)] ∧
    NoHazard unit [.pred 7, .scalar 1, .scalar 0] [(.scalar 63, 1)] := ⟨rfl, rfl, by decide, by decide⟩

theorem meets_Divisions :
    AtIssue (st (unitWith 3 1)) (unitWith 3 1) ∧ Unlent (st (unitWith 3 1)) ∧
    NoHazard (unitWith 3 1) [.pred 0, .scalar 2, .scalar 3] [(.scalar 1, 18)] ∧ (unitWith 3 1).reg 3 ≠ 0 ∧
    NoHazard unit [.pred 0, .scalar 2, .scalar 3] [(.scalar 1, 18)] ∧ unit.reg 3 = 0 := ⟨rfl, rfl, by decide, by decide, by decide, by decide⟩

theorem meets_ComparesAndPredicates :
    AtIssue (st unit) unit ∧ Unlent (st unit) ∧ NoHazard unit [.pred 0, .scalar 1, .scalar 2] [(.pred 7, 1)] ∧
    NoHazard unit [.pred 0, predDest 15, predDest 0] [(.pred 7, 1)] ∧ (15 : BitVec 6).toNat < 16 ∧ 16 ≤ (16 : BitVec 6).toNat ∧
    NoHazard unit (.pred 0 :: allPreds) [(.scalar 1, 1)] ∧
    NoHazard unit [.pred 0, .scalar 1] ((List.range 8).map fun k => (Dest.pred (BitVec.ofNat 3 k), 1)) ∧
    guardHolds unit 0 0 = true ∧ guardHolds unit 0 1 = false := ⟨rfl, rfl, by decide, by decide, by decide, by decide, by decide, by decide, by decide, by decide⟩

/-- Immediates at the ends of a shift's range, with and without a header. -/
theorem meets_ImmediateForms :
    AtIssue (lent unit 0xFF) unit ∧ AtIssue (st unit) unit ∧ NoHazard unit [.scalar 2] [(.scalar 1, 1)] ∧
    NoHazard unit [.scalar 0] [(.pred 1, 1)] ∧
    immOf (st unit).issue 63 = 63 ∧ immOf (st unit).issue 64 = 64 ∧ immOf (st unit).issue 0x3FF = -1 ∧
    immOf (lent unit 0xFF).issue 0x3FF = -1 ∧ immOf (lent unit 0x7F).issue 0x3FF = 131071 := by
  refine ⟨rfl, rfl, by decide, by decide, by decide, by decide, by decide, by decide, by decide⟩

/-- A unit with a write to s1 pending for the longest time but one, and with its time run out. -/
def pending (m : Nat) (check : BitVec 2) : UnitSt :=
  let u := unit.modCsr fun c => { c with check := check }
  { u with pend := [mkEntry (st unit) unit (.scalar 1) 0xFFFF m 0x1F] }

theorem meets_PendingWriteVisible :
    (st (pending 0 0)).unit? 0 = some (pending 0 0) ∧
    (pending 0 0).pend[0]? = some (mkEntry (st unit) unit (.scalar 1) 0xFFFF 0 0x1F) ∧
    (mkEntry (st unit) unit (.scalar 1) 0xFFFF 0 0x1F).m = 0 ∧ (mkEntry (st unit) unit (.scalar 1) 0xFFFF 0 0x1F).awaited = false ∧
    ∀ k x, k < 0 → (pending 0 0).pend[k]? = some x → x.m = 0 → x.dest ≠ .scalar 1 :=
  ⟨rfl, rfl, rfl, rfl, fun k _ h => absurd h (Nat.not_lt_zero k)⟩

/-- The form of VADD, and of VABS, which has no vb. -/
def vaddForm : FpForm := ⟨.vadd, false, true, false, 4, canArith, fun f _ rm _ a b => fpAdd f rm (unpack f a) (unpack f b)⟩

theorem meets_IssueFaults :
    AtIssue (lent unit 1) unit ∧ ¬ Unlent (lent unit 1) ∧ AtIssue (st (pending 3 1)) (pending 3 1) ∧ Unlent (st (pending 3 1)) ∧
    ¬ NoHazard (pending 3 1) [.pred 0, .scalar 1, .scalar 2] [(.scalar 4, 1)] ∧ vaddForm.ins = .vadd ∧
    ¬ vaddForm.lendOk 0xC0 ∧ ¬ vaddForm.lendOk 0x03 ∧ vaddForm.lendOk 0xBE := by
  refine ⟨rfl, by unfold Unlent; decide, rfl, rfl, by unfold NoHazard; decide, rfl, ?_, ?_, ?_⟩ <;> simp [FpForm.lendOk, vaddForm] <;> decide

theorem meets_SlotFrame :
    (∃ t, AtIssue (st unit) unit ∧ exec (.add 1 2 3 0 0) (st unit) = .next t ∧ t.issue.result = .done) ∧
    (∃ t, exec (.vadd 0 0 0) (st unit) = .next t ∧ t.issue.result = .done) := by
  exact ⟨⟨_, rfl, rfl, rfl⟩, ⟨_, rfl, rfl⟩⟩

/-! ### Control flow -/

/-- The unit at the last bundle of an active loop body at level 0. -/
def looping (lc : BitVec 32) : UnitSt :=
  unit.modFlow fun f => { f with lc := f.lc.set 0 lc, loops := f.loops.set 0 ⟨0, 0, 0, 0, 0, true, false⟩ }

theorem meets_Transfers :
    AtIssue (st unit) unit ∧ Unlent (st unit) ∧ atLoopEnd unit = false ∧ NoHazard unit [.pred 0] [] ∧
    NoHazard unit [.pred 0, .scalar 5] [(.scalar 63, 1)] ∧ atLoopEnd (looping 1) = true ∧
    guardHolds unit 0 0 = true ∧ (unit.reg 5).toNat % 16 = 0 ∧
    guardHolds (unitWith 5 8) 0 0 = true ∧ atLoopEnd (unitWith 5 8) = false ∧ ((unitWith 5 8).reg 5).toNat % 16 ≠ 0 := by
  refine ⟨rfl, rfl, by decide, by decide, by decide, by decide, by decide, by decide, by decide, by decide, by decide⟩

theorem meets_ChainAdvance :
    (⟨16, true, false, false⟩ : Xfer).taken = true ∧ (⟨16, false, true, false⟩ : Xfer).taken = false ∧
    (⟨16, false, true, false⟩ : Xfer).brn = true := ⟨rfl, rfl, rfl⟩

/-- A loop of one trip and one of none; an iteration start at the innermost level and at an outer one, first and draining. -/
theorem meets_Loops :
    AtIssue (st unit) unit ∧ Unlent (st unit) ∧ loopIllegal unit 0 (unit.flow.pc.addr + 32) = false ∧
    loopIllegal (looping 1) 0 ((looping 1).flow.pc.addr + 32) = true ∧ NoHazard unit [.scalar 9] [] ∧
    ((unitWith 9 1).reg 9).extractLsb' 0 32 ≠ 0 ∧ ((unitWith 9 (1 <<< 32)).reg 9).extractLsb' 32 3 ≠ 0 ∧
    (unit.reg 9).extractLsb' 0 32 = 0 ∧ (unit.reg 9).extractLsb' 32 3 = 0 ∧
    innermost (looping 1).flow = some 0 ∧ innermost (looping 1).flow ≠ some 1 ∧
    (decide (0 < ((looping 1).flow.lc.get 0).toNat) && !((looping 1).flow.loops.get 0).cleared) = true ∧
    (decide (0 < ((looping 0).flow.lc.get 0).toNat) && !((looping 0).flow.loops.get 0).cleared) = false := by
  refine ⟨rfl, rfl, ?_⟩
  decide

theorem meets_StagesAndTraps :
    AtIssue (st unit) unit ∧ Unlent (st unit) ∧ NoHazard unit [.pred 0] [] ∧ guardHolds unit 0 0 = true ∧ guardHolds unit 0 1 = false ∧
    NoHazard unit [] ((List.range 8).map fun i => (Dest.stage (BitVec.ofNat 3 i), 1)) := ⟨rfl, rfl, by decide, by decide, by decide, by decide⟩

theorem meets_HaltCompletes :
    AtIssue (st unit) unit ∧ Unlent (st unit) ∧ unit.pend = [] ∧ engineBusy (st unit) 0 0 = false ∧ unit.umem.haltRel = none ∧
    releaseIdle (st unit) unit = true ∧ unit.curt.inentry = false ∧
    (unit.modCurt fun c => { c with inentry := true }).curt.inentry = true ∧ unit.isPrompter = false ∧ (pending 0 0).pend ≠ [] := by
  refine ⟨rfl, rfl, rfl, by decide, rfl, by decide, rfl, rfl, rfl, by decide⟩

/-- The state that `withFetchWord` makes of reset, with ADD s1, s2, s3 in the first slot of its bundle. -/
def fetching : State := State.reset.withFetchWord 32 0x00041467

/-- The state in which the attempt to issue begins, and its unit. -/
def atCycle : State :=
  endSwitch (beginSwitch ((dieCycle { fetching with inputs := [] } 0).modCluster 0 fun k => { k with cyc := k.cyc + 1 }) 0) 0
def atBoundary : State := arrayPre (takeCounts atCycle 0 0) 0

def settledUnit : UnitSt := settle ((atBoundary.unit? 0).getD unit)
def issuing : State := (boundary (atBoundary.setUnit 0 settledUnit) 0 settledUnit).1
def issuingUnit : UnitSt := (issuing.unit? 0).getD unit
def fetchedState : State := (fetchBundle issuing issuingUnit).2

/-- The state at its end. -/
def executed : Option State :=
  match opsOf (slotsOfBytes (fetchBytes 0x00041467)) with
  | [o] => match exec (.add 4 5 6 3 1) ((fetchedState.setUnit 0 (enterBundle issuingUnit)).setIssue (o.issue 0 none)) with
    | .next t => if portExcess [(o, t.issue)] = 0 then some t else none
    | _ => none
  | _ => none

theorem meets_StepRunsDecoded :
    fetching.inputs = .core 0 :: [] ∧ fetching.mod.stopped = false ∧ (fetching.die 0).lost = false ∧
    (atCycle.cluster 0).running = some 0 ∧ (atCycle.cluster 0).throttled = false ∧ arrayRuns atCycle 0 = false ∧
    (atBoundary.unit? 0).isSome = true ∧ settledUnit.sync.barawReq = none ∧ missing settledUnit = false ∧ settledUnit.run.gap = 0 ∧
    (boundary (atBoundary.setUnit 0 settledUnit) 0 settledUnit).2 = false ∧ (issuing.unit? 0).isSome = true ∧
    pointWanted fetchedState issuingUnit = false ∧ issuingUnit.flow.pc.ann = false ∧ issuingUnit.run.wait = none ∧ issuingUnit.run.stood = false ∧
    issuingUnit.csr.fte = 0 ∧ issuingUnit.csr.check = 0 ∧
    (fetchBundle issuing issuingUnit).1 = .got (fetchBytes 0x00041467) ∧
    bundleWellFormed (slotsOfBytes (fetchBytes 0x00041467)) = true ∧ bundleHeader (slotsOfBytes (fetchBytes 0x00041467)) = none ∧
    (opsOf (slotsOfBytes (fetchBytes 0x00041467))).map (fun o => o.word) = [0x00041467] ∧
    (executed.map fun t => (t.issue.result, t.units.map fun v => v.pend.length)) = some (.done, [1]) := by
  decide

/-- An event at the head of the schedule. -/
theorem meets_StepRunsDecoded_event :
    ({ State.reset with inputs := [.event .correctableError] } : State).inputs = .event .correctableError :: [] ∧
    isEvent .correctableError = true ∧ ∃ t, exec .correctableError State.reset = .next t := ⟨rfl, by decide, _, rfl⟩

/-! ### Memory -/

/-- The state alone at issue, and its accessor's address of a page: s5 holds the page's start. -/
def at5 (v : Word) : UnitSt := unitWith 5 v

/-- An 8-byte access at the last aligned address of the cacheable page, at the first of the others. -/
theorem meets_LoadsComplete :
    AtIssue (st unit) unit ∧ NoHazard unit [.scalar 5] [(.scalar 63, landing unit 0)] ∧
    Reaches (st (at5 0x3FF8)) (at5 0x3FF8) 0x3FF8 8 .read true true 0x3FF8 (page 0 0 false) false ∧
    Reaches (st (at5 0x3FFF)) (at5 0x3FFF) 0x3FFF 1 .read false false 0x3FFF (page 0 0 false) false ∧
    vmemMisuse 0 = false ∧ NoHazard unit [.scalar 5] [((opD Issue.empty 0).dest, unit.csr.land.toNat)] ∧
    Reaches (st (at5 0x3FC0)) (at5 0x3FC0) 0x3FC0 64 .read false true 0x3FC0 (page 0 0 false) false := by
  refine ⟨rfl, by decide, ⟨by decide, by rfl, by rfl, by rfl, by rfl, fun _ => ⟨by rfl, by rfl⟩, by rfl⟩,
    ⟨by decide, by rfl, by rfl, by rfl, by rfl, fun _ => ⟨by rfl, by rfl⟩, by rfl⟩, by decide, by decide,
    ⟨by decide, by rfl, by rfl, by rfl, by rfl, fun _ => ⟨by rfl, by rfl⟩, by rfl⟩⟩

theorem meets_CachedLoadEffect :
    translate (st unit) unit.accessor 0x3FF8 .read = .ok 0x3FF8 (page 0 0 false) false ∧ routeOf 0x3FF8 (page 0 0 false) = .cached ∧
    ((st unit).cluster 0).cache.length < 2048 := ⟨by rfl, by decide, by decide⟩

theorem under_empty : HeldUnder (st unit) 0 0 0 ∧ CacheUnder (st unit) 0 := by
  have hc : cacheLine? ((st unit).cluster 0) 0 = none := by rfl
  have hd : dirEntry? (st unit) 0 = none := by rfl
  have hl : ((st unit).cluster 0).cache = [] := by rfl
  refine ⟨⟨fun l h => ?_, fun x h => ?_⟩, fun l h => ?_⟩
  · rw [hc] at h; cases h
  · rw [hd] at h; cases h
  · rw [hl] at h; cases h

theorem meets_ReadOnlyAndPrefetch :
    Reaches (st (at5 0)) (at5 0) 0 8 .read false true 0 (page 0 0 false) false ∧ routeOf 0 (page 0 0 false) = .cached ∧
    Reaches (st (at5 0xC000)) (at5 0xC000) 0xC000 8 .read false true 0xA000000000000 (page 3 0xA000000000000 false) false ∧
    routeOf 0xA000000000000 (page 3 0xA000000000000 false) ≠ .cached ∧
    NoHazard unit [.scalar 5] [(.scalar 1, landing unit 0)] ∧ NoHazard unit [.scalar 5] [] ∧ Unlent (st unit) ∧
    (∃ c a, translate (st unit) unit.accessor 0x10000 .read = .fault c a) ∧
    costsOpen (st unit) 1 (slotKey (st unit)) (lineCost (st unit) 0 0 8 0) = true ∧ sliceLine? ((st unit).die 0) 0 = none ∧
    HeldUnder (st unit) 0 0 0 ∧ CacheUnder (st unit) 0 := by
  refine ⟨⟨by decide, by rfl, by rfl, by rfl, by rfl, fun _ => ⟨by rfl, by rfl⟩, by rfl⟩, by decide,
    ⟨by decide, by rfl, by rfl, by rfl, by rfl, fun _ => ⟨by rfl, by rfl⟩, by rfl⟩, by decide, by decide, by decide, rfl,
    ⟨_, _, by rfl⟩, by rfl, by rfl, under_empty⟩

theorem meets_StoresComplete :
    AtIssue (st (at5 0x3FF8)) (at5 0x3FF8) ∧ NoHazard (at5 0x3FF8) [.scalar 63, .scalar 5] [] ∧
    Reaches (st (at5 0x3FF8)) (at5 0x3FF8) 0x3FF8 8 .write true false 0x3FF8 (page 0 0 false) false ∧
    Reaches (st (at5 0x3FFF)) (at5 0x3FFF) 0x3FFF 1 .write false false 0x3FFF (page 0 0 false) false ∧
    Reaches (st (at5 0x3FC0)) (at5 0x3FC0) 0x3FC0 64 .write false false 0x3FC0 (page 0 0 false) false ∧
    NoHazard unit [(opD Issue.empty 0).dest, .scalar 5] [] := by
  refine ⟨rfl, by decide, ⟨by decide, by rfl, by rfl, by rfl, by rfl, (fun h => nomatch h), by rfl⟩,
    ⟨by decide, by rfl, by rfl, by rfl, by rfl, (fun h => nomatch h), by rfl⟩,
    ⟨by decide, by rfl, by rfl, by rfl, by rfl, (fun h => nomatch h), by rfl⟩, by decide⟩

/-- Eight bytes that end with the line. -/
theorem meets_CachedStoreFrame :
    translate (st unit) unit.accessor 0x3FF8 .write = .ok 0x3FF8 (page 0 0 false) false ∧ routeOf 0x3FF8 (page 0 0 false) = .cached ∧
    0x3FF8 % 128 + 8 ≤ 128 ∧ ((st unit).cluster unit.ident.cluster).cache.length < 2048 := ⟨by rfl, by decide, by decide, by decide⟩

theorem meets_ReleasesAndOtherTargets :
    translate (st unit) unit.accessor 0x4000 .write = .ok 0x4000 (page 1 0x4000 true) false ∧
    routeOf 0x4000 (page 1 0x4000 true) = .sync ∧
    translate (st unit) unit.accessor 0x8000 .write = .ok (2 ^ 51) (page 2 (2 ^ 51) false) false ∧
    routeOf (2 ^ 51) (page 2 (2 ^ 51) false) = .window ∧
    translate (st unit) unit.accessor 0xC000 .write = .ok 0xA000000000000 (page 3 0xA000000000000 false) false ∧
    routeOf 0xA000000000000 (page 3 0xA000000000000 false) = .outside ∧
    destUp (st unit) ((outDest 0xA000000000000).getD 0) = true ∧
    (((st unit).cluster 0).rels.any fun r => r.uid == (st unit).issue.me) = false ∧
    translate (st unit) unit.accessor 0x7FF8 .read = .ok 0x7FF8 (page 1 0x4000 true) false := by
  refine ⟨by rfl, by decide, by rfl, by decide, by rfl, by decide, by rfl, by rfl, by rfl⟩

/-- The unit with a watch range on its first page. -/
def watched : UnitSt :=
  unit.modMem fun m => { m with wchc := m.wchc.set 0 0x230000#64 }

theorem meets_AccessFaults :
    AtIssue (st (at5 1)) (at5 1) ∧ NoHazard (at5 1) [.scalar 5] [(.scalar 1, landing (at5 1) 0)] ∧
    ((at5 1).windowVa 0 ((at5 1).reg 5)).toNat % 8 ≠ 0 ∧
    (∃ c a, translate (st unit) unit.accessor 0x10000 .read = .fault c a) ∧
    (∃ c a, translate (st unit) unit.accessor 0x10000 .write = .fault c a) ∧
    accessPage watched 0 false true 0 (page 0 0 false) = .done ∧ accessPage watched 0 true true 0 (page 0 0 false) = .done ∧
    watchHit watched 0 8 true false = true ∧ watchHit watched 7 1 false true = true := by
  refine ⟨rfl, by decide, by decide, ⟨_, _, by rfl⟩, ⟨_, _, by rfl⟩, by rfl, by rfl, by decide, by decide⟩

/-! ### Vectors -/

theorem meets_TileOperands : (15 : Nat) < 16 := by decide

/-- A form of V.FP with every field of the header, and one of V.FP64 that reads the slow partition. -/
theorem meets_VectorFloat :
    AtIssue (lent unit 0xBE) unit ∧ vaddForm.ins 0 0 0 = .vadd 0 0 0 ∧ vaddForm.lendOk (lent unit 0xBE).issue.lend ∧
    NoHazard unit ((vaddForm.reads (lent unit 0xBE).issue 0xFF 0xFF 0xFF).map VOperand.dest)
      [((opD (lent unit 0xBE).issue 0xFF).dest, slowLat 4 (vaddForm.reads (lent unit 0xBE).issue 0xFF 0xFF 0xFF))] := by
  refine ⟨rfl, rfl, ?_, by decide⟩
  simp [FpForm.lendOk, vaddForm]; decide

theorem meets_RoundingRules : (0 : Nat) < 1 ∧ (0 : Nat) < 0x7F7FFFFF ∧ 0x7F7FFFFF < f32.infBits ∧
    unpack f32 0x7F7FFFFF = .fin false 0xFFFFFF 104 ∧ unpack f16 1 = .fin false 1 (-24) := by decide

theorem meets_NanAndInvalidRules : (Fp.inf true).isNan = false ∧ (1 : Nat) ≠ 0 := by decide

theorem meets_VectorIntegerAndMoves :
    AtIssue (st unit) unit ∧ lendRm (st unit).issue.lend = 0 ∧ lendFmt (st unit).issue.lend = 0 ∧ lendTa (st unit).issue.lend = false ∧
    lendTb (st unit).issue.lend = false ∧ lendTd (st unit).issue.lend = false ∧
    NoHazard unit [(opA Issue.empty 0).dest, (opB Issue.empty 0).dest, (opD Issue.empty 0).dest] [((opD Issue.empty 0).dest, 2)] ∧
    NoHazard unit [] [((opD Issue.empty 0).dest, 1)] ∧ NoHazard unit [.scalar 62] [((opD Issue.empty 0).dest, 1)] ∧
    NoHazard unit [(opA Issue.empty 0).dest] [(.scalar 62, 1)] ∧ (14 : BitVec 4).toNat % 2 = 0 := by
  refine ⟨rfl, by decide, by decide, by decide, by decide, by decide, by decide, by decide, by decide, by decide, by decide⟩

/-- The unit with random words in its queue. -/
def random : UnitSt := unit.modCsr fun c => { c with rbqueue := 1 }

theorem meets_VectorConversions :
    AtIssue (st unit) unit ∧ (lendRm (lent unit 0xA0).issue.lend).toNat < 6 ∧ lendFmt (lent unit 0xA0).issue.lend = 0 ∧
    lendTb (lent unit 0xA0).issue.lend = false ∧ cvtReserved 0x0D = false ∧ cvtStochastic 0x0D = false ∧ cvtReserved 0x11 = false ∧
    cvtStochastic 0x11 = true ∧ unit.csr.rbqueue = 0 ∧ random.csr.rbqueue ≠ 0 ∧ unit.run.vtrans.get 0 = 0 ∧
    NoHazard unit [(opA Issue.empty 0).dest, (opD Issue.empty 0).dest] [((opD Issue.empty 0).dest, 3)] ∧
    NoHazard unit [(opA Issue.empty 0).dest] [((opD Issue.empty 0).dest, 36)] := by
  refine ⟨rfl, by decide, by decide, by decide, by decide, by decide, by decide, by decide, by decide, by decide, by decide,
    by decide, by decide⟩

/-! ### Tiles and rings -/

/-- A tile of one block, 256 × 64 words of 4 bytes; and a ring of four slabs of 64 bytes, two of them full. -/
def tile : Handle := Handle.fresh 1 0x2_0040_0100
def ring : Handle := { Handle.fresh 2 0x2012_0004_0004 with tp := 2, tc := 2 }
/-- The ring when every slab is full, and when none is. -/
def fullRing : Handle := { ring with tp := 4, tc := 4 }
def bareRing : Handle := { ring with tp := 0, tc := 0 }

def unitTiles (x : Handle) : UnitSt :=
  (unitWith 5 0xFF01).modMem fun m => { m with tbl := [tile, x], q := m.q.set 0 (some ⟨2, false⟩) }

/-- Its state, with the first tile bank owned. -/
def stTiles (x : Handle) : State := (st (unitTiles x)).modCluster 0 fun k => { k with banks := [⟨0, 0, 0, false⟩] }

/-- The last block of the tile, and the one behind it. -/
theorem meets_TileVectors :
    AtIssue (stTiles ring) (unitTiles ring) ∧ PlainLend (stTiles ring) ∧
    (unitTiles ring).handle? (((unitTiles ring).reg 5).extractLsb' 0 8) = some tile ∧ tile.level = 0 ∧
    64 * ((((unitTiles ring).reg 5).extractLsb' 8 32).toNat + 0x300) + 64 = tile.size ∧
    ownsRange ((stTiles ring).cluster 0) 0 0 (tile.base + 64 * 0x3FF) 64 = true ∧
    shadowWait (stTiles ring) 0 0 (tile.base + 64 * 0x3FF) 64 = .done ∧
    NoHazard (unitTiles ring) [.scalar 5] [((opD Issue.empty 0).dest, 4)] ∧
    NoHazard (unitTiles ring) [(opD Issue.empty 0).dest, .scalar 5] [] ∧ Memory.wf ((stTiles ring).cluster 0).tileSram = true ∧
    (unitTiles ring).handle? 3 = none := by
  refine ⟨rfl, ⟨rfl, by decide, by decide, by decide⟩, by rfl, by decide, by decide, by decide, by decide, by decide, by decide, by decide,
    by decide⟩

theorem meets_VectorRings :
    QuietRing ring ∧ (unitTiles ring).umem.q.get 0 = some ⟨2, false⟩ ∧ (unitTiles ring).handle? 2 = some ring ∧
    ring.hp = ring.hc ∧ ring.tp = ring.tc ∧ ring.ring = true ∧ ring.level = 0 ∧ ring.slabSize = 64 ∧
    ownsRange ((stTiles ring).cluster 0) 0 0 (ring.slabAt ring.hc) 64 = true ∧
    NoHazard (unitTiles ring) [] [((opD Issue.empty 0).dest, 2)] ∧
    ring.canHead 1 = true ∧ bareRing.canHead 1 = false ∧ ring.canTail 1 = true ∧ fullRing.canTail 1 = false ∧
    ({ ring with heads := [⟨1, 1, false⟩, ⟨2, 3, false⟩] } : Handle).heads = ⟨1, 1, false⟩ :: ⟨2, 3, false⟩ :: [] := by
  refine ⟨⟨rfl, rfl, rfl⟩, by rfl, by rfl, rfl, rfl, by decide, by decide, by decide, by decide, by decide, by decide, by decide,
    by decide, by decide, rfl⟩

/-- The unit of a launch that owns the array, with the array on its cluster. -/
def unitArray (x : Handle) : UnitSt := { unitTiles x with ident := { unit.ident with launch := some 7 } }
def stArray (x : Handle) (f : ArraySt → ArraySt) : State :=
  ((st (unitArray x)).modCluster 0 fun k => { k with banks := [⟨0, 0, 0, false⟩] }).modArray 0 fun a => f { a with owner := some 7 }

theorem meets_TileTableAndStaging :
    AtIssue (stTiles ring) (unitTiles ring) ∧ Unlent (stTiles ring) ∧ NoHazard (unitTiles ring) [.scalar 5] [] ∧
    ((unitTiles ring).handle? 3).isNone ∧ descOk ring.desc = true ∧ ((unitTiles ring).handle? 1).isSome ∧ descOk 0 = false ∧
    handleNamed (stTiles ring) 0 (unitTiles ring) 1 = false ∧ bankTaken ((stTiles ring).cluster 0) 0 0 (bankList 1) = false ∧
    bankTaken ((stTiles ring).cluster 0) 1 0 (bankList 1) = true ∧ ring.canHead 2 = true ∧ ring.canTail 2 = true ∧
    tile.ring = false ∧ (0xFF : Word) &&& cgReserved 0 = 0 ∧ (0 : Word) &&& agReserved 0 = 0 ∧
    launchOwnsArray (stArray ring id) (unitArray ring) = true ∧ launchOwnsArray (stTiles ring) (unitTiles ring) = false ∧
    (∃ n : BitVec 4, BitVec.allOnes 64 &&& cgReserved n ≠ 0) := by
  refine ⟨rfl, rfl, by decide, by decide, by decide, by decide, by decide, by decide, by decide, by decide, by decide, by decide,
    by decide, by decide, by decide, by decide, by decide, ⟨15, by decide⟩⟩

/-- The unit with engine registers for a CPY of 64 bytes into the tile. -/
def unitCopy : UnitSt := (unitTiles ring).modEng fun g =>
  { g with cg := g.cg.set 0 (((g.cg.get 0).set 1 1).set 2 0x1_0000_0040) }
def stCopy : State := (st unitCopy).modCluster 0 fun k => { k with banks := [⟨0, 0, 0, false⟩] }

theorem meets_CopySlots :
    AtIssue stCopy unitCopy ∧ Unlent stCopy ∧ (Instr.cpy 0 15 0 0 1).wellFormed = true ∧
    (∀ m ∈ copyChecks stCopy unitCopy (mkCopyCmd stCopy unitCopy 0 0x00 (copyHdr 15 0 0 0 1 0)), m = .done) ∧
    memHold stCopy 0 unitCopy = .done ∧
    copyWaits stCopy unitCopy 0 (mkCopyCmd stCopy unitCopy 0 0x00 (copyHdr 15 0 0 0 1 0)) = .done ∧
    (copyChecks (st unit) unit (mkCopyCmd (st unit) unit 0 0x00 (copyHdr 15 0 0 0 1 0))).take 1 = List.replicate 1 .done ∧
    (copyChecks (st unit) unit (mkCopyCmd (st unit) unit 0 0x00 (copyHdr 15 0 0 0 1 0)))[1]? = some (.fault cTile 0) ∧
    streamUses (stTiles ring) 0 (unitTiles ring) 7 = false ∧ unit.eng.tok.get 0 &&& 0xFFFF = 0 ∧
    (unitArray ring).cgReg 0 7 = 0 := by
  refine ⟨rfl, rfl, by decide, by decide, by decide, by decide, by decide, by decide, by decide, by decide, by decide⟩

/-- A ring of one-byte slabs for a load of element steps; the array's registers name it. -/
def stepRing : Handle := { Handle.fresh 2 0x1010_0001_0001 with tp := 1, tc := 1 }
def loading (a : ArraySt) : ArraySt := { a with ag := (a.ag.set 2 2).set 5 0x33 }

theorem meets_ArraySlots :
    AtIssue (stArray stepRing loading) (unitArray stepRing) ∧ Unlent (stArray stepRing loading) ∧
    ownsArray (stArray stepRing loading) 0 (unitArray stepRing) = true ∧ ownsArray (stTiles ring) 0 (unitTiles ring) = false ∧
    arrayCheck (stArray stepRing loading) (unitArray stepRing)
      (mkArrayCmd (stArray stepRing loading) 0 (unitArray stepRing) 0 1 0 0 none) = .done ∧
    canClaim (unitArray stepRing) (mkArrayCmd (stArray stepRing loading) 0 (unitArray stepRing) 0 1 0 0 none) = true ∧
    canClaim (unitArray { stepRing with tp := 0 }) (mkArrayCmd (stArray stepRing loading) 0 (unitArray stepRing) 0 1 0 0 none) = false ∧
    arrayCheck (stArray stepRing loading) (unitArray stepRing)
      (mkArrayCmd (stArray stepRing loading) 0 (unitArray stepRing) 5 8 0 0 none) = .done ∧
    (arrayOf (stArray stepRing loading) 0).clearing = 0 ∧ (arrayOf (stArray stepRing loading) 0).queue = [] ∧
    (arrayOf (stArray stepRing loading) 0).folt = false ∧ achkBad (arrayOf (stArray stepRing fun a => { a with ag := a.ag.set 6 0x1000_0000 }) 0) = false ∧
    awaitHolds (arrayOf (stArray stepRing loading) 0) 0 0 0 = true ∧
    awaitHolds (arrayOf (stArray stepRing fun a => { a with state := .run }) 0) 0 16 1 = false ∧
    NoHazard (unitArray stepRing) [] [(.pred 7, 3)] ∧ NoHazard (unitArray stepRing) [] [(.scalar 63, 2)] := by
  refine ⟨rfl, rfl, by decide, by decide, by decide, by decide, by decide, by decide, by decide, by decide, by decide, by decide,
    by decide, by decide, by decide, by decide⟩

/-! ### Synchronisation, caches and the K slots -/

/-- A unit with the synchronisation page's first byte in s5. -/
def unitSync : UnitSt := unitWith 5 0x4000

theorem syncs_page (acc : Access) (h : acc = .atomic ∨ acc = .read) :
    Syncs (st unitSync) unitSync 0x4000 acc true 3 3 0x4000 (page 1 0x4000 true) false := by
  rcases h with rfl | rfl <;> exact ⟨by rfl, by rfl, by rfl, fun _ => by rfl, by rfl⟩

/-- The unit with eight memberships, and one that waits in a BARWAIT whose reply has come. -/
def fullMember : UnitSt := unitSync.modSyncSt fun y => { y with members := List.replicate 8 ⟨0, 0, none⟩ }
def aRequest : SyncReq :=
  { id := 1, uid := 0, who := 0, die := 0, pa := 0x4000, va := 0x4000, key := 0, kind := .op 0x0E, width := 0, join := false, x := 0,
    cmp := 0, rop := 0, n := 1, done := 0, posted := false, size := 16, signed := false, bundle := 0, slot := 0, acquire := false,
    scope := 0, copyEng := none, born := 0, waits := false }
def answered : UnitSt := unitSync.modSyncSt fun y => { y with barwaitReq := some aRequest, barwaitReply := some 1 }

theorem meets_AtomicsAndBarriers :
    AtIssue (st unitSync) unitSync ∧ NoHazard unitSync [.scalar 5, .scalar 6, .scalar 7] [(.scalar 63, syncLand (st unitSync) unitSync)] ∧
    syncVa (st unitSync) unitSync 5 = 0x4000 ∧ (0x4000 : Va).toNat % 16 = 0 ∧ (0x4001 : Va).toNat % 4 ≠ 0 ∧
    watchHit unitSync 0x4000 16384 true true = false ∧ watchHit unitSync 0x4000 16 true false = false ∧ unitSync.sync.barwaitDone = none ∧ (st unitSync).issue.lend.extractLsb' 6 2 = 0 ∧
    (0x4000 : Va).toNat / 2 ^ 14 = ((0x4000 : Va).toNat + 2048 * 8 - 1) / 2 ^ 14 ∧
    (0x4008 : Va).toNat / 2 ^ 14 ≠ ((0x4008 : Va).toNat + 2048 * 8 - 1) / 2 ^ 14 ∧
    ninth unitSync 0x4000 = false ∧ ninth fullMember 0x4000 = true ∧ answered.sync.barwaitReq = some aRequest ∧
    answered.sync.barwaitReply = some 1 ∧ unitSync.sync.barwaitReq = none ∧ unitSync.sync.barwaitReply = none ∧
    (unitSync.modSyncSt fun y => { y with barwaitDone := some 0 }).sync.barwaitDone = some unitSync.flow.pc.addr := by
  refine ⟨rfl, by decide, by decide, by decide, by decide, by decide, by decide, by rfl, by decide, by decide, by decide, by decide, by decide, by rfl,
    by rfl, by rfl, by rfl, by rfl⟩

/-- A context that records, and a state with a two-version buffer whose header page precedes page 3. -/
def recording : Context := { fetchContext with pctl := 0x1000000 }
def aBuffer : TvBuf :=
  { asid := 1, hbase := 2, pages := 1, phys0 := 0x100000, phys1 := 0x200000, sel := false, count := 0, total := none, taint := false,
    flips := 0, vset := false, curtain := false, nochk := false, exact := false, kach := 0, bound := 0, flipDies := [] }
def stBuffer (u : UnitSt) : State :=
  let s := stArray stepRing loading
  { s with units := [u], hub := { s.hub with walk := { s.hub.walk with bufs := [aBuffer] } } }

theorem meets_FencesAndCaches :
    AtIssue (st unit) unit ∧ Unlent (st unit) ∧ memHold (st unit) 0 unit = .done ∧ ((st unit).cluster 0).rels = [] ∧
    readsPending (st unit) 0 0 = false ∧ ((st unit).cluster 0).l1op = none ∧ releases (st unit) 0 0 3 = true ∧ releases (st unit) 0 0 0 = false ∧
    CacheUnder (st unit) 0 ∧
    (((st unit).setCluster 0 { core0 with l1op := some ⟨[], true, true, 0, true, 0⟩ }).cluster 0).l1op ≠ none ∧
    NoHazard unit [.scalar 5, .scalar 6] [] ∧ (st unit).ctx? 1 = some fetchContext ∧ fetchContext.replay = false ∧
    fetchContext.recording = false ∧ ringRoom (st unit) recording recorderRing = true ∧
    budgetOpen (st unit) 1 bCrossbar (slotKey (st unit)) = true ∧
    translate (stBuffer (unitWith 5 0xC000)) (unitWith 5 0xC000).accessor 0xC000 .write = .ok 0xA000000000000 (page 3 0xA000000000000 false) false ∧
    bufAtBase (stBuffer (unitWith 5 0xC000)) 1 0xC000 = some 0 ∧ (unitArray stepRing).isPrompter = false ∧
    launchOwnsArray (stBuffer (unitArray stepRing)) (unitArray stepRing) = true := by
  refine ⟨rfl, rfl, by rfl, by rfl, by rfl, by rfl, by decide, by decide, under_empty.2, by decide, by decide, by rfl, by rfl, by rfl, by rfl, by rfl,
    by rfl, by decide, by rfl, by decide⟩

theorem meets_FencesAndCaches_recording : recording.recording = true := by decide

/-- A barrier one arrival short of its last, and one complete. -/
theorem meets_AtomicValues :
    (⟨65535, 65534, 1, 0x7FFF, true, false, 0⟩ : Barrier).arrived + (⟨65535, 65534, 1, 0x7FFF, true, false, 0⟩ : Barrier).lostc = 65535 ∧
    (⟨65535, 65533, 1, 0x7FFF, true, false, 0⟩ : Barrier).arrived + 1 ≠ 65535 := by decide

theorem meets_ControlRegisters :
    AtIssue (st unit) unit ∧ Unlent (st unit) ∧ readCsr (st unit) unit 2 = some 0 ∧ readCsr (st unit) unit 5 = none ∧
    NoHazard unit [.scalar 1, .csr 2] [(.scalar 63, 1), (.csr 2, 1)] ∧ NoHazard unit [.scalar 1, .scalar 2] [(.csr 0x18, 1), (.csr 0x19, 1)] ∧
    ¬ ((2 : BitVec 10) = 2 ∧ 5 ≤ (4 : Word).toNat % 8) ∧ ((2 : BitVec 10) = 2 ∧ 5 ≤ (5 : Word).toNat % 8) ∧
    ((4 : BitVec 10) = 4 ∧ (256 : Word).toNat % 256 = 0) := by
  refine ⟨rfl, rfl, by decide, by decide, by decide, by decide, by decide, by decide, by decide⟩

/-! ### Prompters -/

/-- A frozen unit held by a prompter, in pool slot 0 of context 1; they are units 1 and 0. -/
def frozenRec : FaultRec := ⟨cIllegalOp, 0, 1, false, .core, 0, 0⟩
def held : UnitSt := unit.modRun fun r => { r with status := .frozenHeld, record := some frozenRec }
def free : UnitSt := unit.modRun fun r => { r with status := .frozenFree, record := some frozenRec }
def prompter (kc : Word) : UnitSt :=
  { unitWith 5 0x0302 with ident := { unit.ident with prompt := some 0, index := 0 }, eng := { unit.eng with kc := unit.eng.kc.set 0 kc } }
def stPrompt (p v : UnitSt) : State :=
  let s := st p
  { s with units := [p, v], clusters := s.clusters.set 0 { core0 with order := [0, 1] } }

/-- The capability of the held unit. -/
def aCap : Word := mkCap (stPrompt (prompter 0) held) 1 held 0

theorem meets_PrompterElements :
    AtIssue (stPrompt (prompter aCap) held) (prompter aCap) ∧ Unlent (stPrompt (prompter aCap) held) ∧ (prompter aCap).isPrompter = true ∧
    capUnit (stPrompt (prompter aCap) held) (prompter aCap) ((prompter aCap).kcReg 0) = some 1 ∧
    (stPrompt (prompter aCap) held).unit? 1 = some held ∧ selectorBad 0x0302 = false ∧ selectorBad 0x4002 = true ∧
    NoHazard (prompter aCap) [.scalar 5] [(.scalar 63, 2)] ∧ NoHazard (prompter aCap) [.scalar 5, .scalar 6] [] ∧
    writeIllegal 0x0302 0 = false ∧ writeFaults 0x0302 0 = false ∧ writeIllegal 0x0204 5 = true ∧
    held.run.status = .frozenHeld ∧ held.run.record = some frozenRec ∧ unit.run.record = none ∧
    opAgrees (stPrompt (prompter aCap) held) 1 (0x0D + 256 * (0x0302 % 2 ^ 24)) 0 = true ∧
    opAgrees (stPrompt (prompter aCap) held) 1 (0x0E + 256 * (0x0302 % 2 ^ 24)) 0 = true ∧ writeFaults 0x070A (BitVec.allOnes 64) = true := by
  refine ⟨by rfl, rfl, by rfl, by decide, by rfl, by decide, by decide, by decide, by decide, by decide, by decide, by decide, rfl, rfl, rfl, by rfl, by rfl, by decide⟩

/-- A pending write of a held unit, and a command of its token 3. -/
def heldPending : UnitSt := { held with pend := [mkEntry (st unit) unit (.scalar 1) 0 1 0] }
def aCopy : CopyCmd := { mkCopyCmd (st unit) unit 0 2 (copyHdr 3 0 0 1 1 0) with uid := some 1 }

theorem meets_PrompterElements_events :
    (∃ e, entryAt heldPending 0 = some e) ∧ (stPrompt (prompter 0) held).unit? 1 = some held ∧
    tokenCmd ((stPrompt (prompter 0) held).modCluster 0 fun k => { k with eng := k.eng.set 0 ⟨[aCopy], false⟩ }) 1 held 0 3 = some aCopy ∧
    aCopy.publDone = false ∧ tokenCmd (stPrompt (prompter 0) held) 1 held 0 3 = none ∧ entryAt held 0 = none ∧
    (unit.run.status ≠ .frozenHeld) ∧ ({ aCopy with publDone := true } : CopyCmd).publDone = true :=
  ⟨⟨_, by rfl⟩, by rfl, by rfl, rfl, by rfl, by rfl, by decide, rfl⟩

theorem meets_PrompterOperations :
    capUnit (stPrompt (prompter 0) free) (prompter 0) ((prompter 0).kcReg 0) = none ∧ NoHazard (prompter 0) [] [(.scalar 63, 1)] ∧
    untaken (prompter 0) (prompter 0) = false ∧
    oldestUnit (setKc (stPrompt (prompter 0) free) 0 0 0) 1 (untaken (prompter 0)) = some 1 ∧
    oldestUnit (setKc (stPrompt (prompter 0) held) 0 0 0) 1 (untaken (prompter 0)) = none ∧
    held.run.curtFrozen = false ∧ held.run.dieLost = false ∧
    (held.modRun fun r => { r with curtFrozen := true }).run.curtFrozen = true ∧
    Syncs (stPrompt (prompter aCap) held) (prompter aCap) 0x4000 .atomic true 2 3 0x4000 (page 1 0x4000 true) false ∧
    syncPage held 0x4000 false 0x4000 (page 1 0x4000 true) = .done ∧ ninth held 0x4000 = false ∧
    unit.isPrompter = false ∧ selectorBad ((prompter 0).reg 5) = false ∧ myShoot (stPrompt (prompter 0) held) 0 = none ∧
    ((1 : Word).extractLsb' 0 16 = (prompter 0).ident.asid) ∧
    (∀ n ∈ [0x0F, 0x10, 0x12, 0x13, 0x1A], opAgrees (stPrompt (prompter aCap) held) 1 n 0 = true) ∧
    opAgrees (stPrompt (prompter aCap) held) 1 0x11 0x4000 = true ∧
    releases { stPrompt (prompter aCap) held with nextReq := 1 } 1 0 3 = true ∧
    releases { stPrompt (prompter aCap) held with nextReq := 1 } 1 0 0 = false ∧ watchHit (prompter aCap) 0x4000 16 true false = false := by
  refine ⟨by decide, by decide, by decide, by decide, by decide, rfl, rfl, rfl,
    ⟨by rfl, by rfl, by rfl, fun _ => by rfl, by rfl⟩, by rfl, by decide, by rfl, by decide, by rfl, by decide, by decide, by rfl, by decide,
    by decide, by decide⟩

/-- A shoot-down of the prompter's TLBI, with a die still to acknowledge and without. -/
def aShoot (dies : List DieNo) : Shoot :=
  { id := 0, asid := 1, range := none, mask := [0], dies := dies, migrate := none, version := none, frames := [], waiter := some 0 }
def stShoot (dies : List DieNo) : State :=
  let s := stPrompt (prompter 0) held
  { s with hub := { s.hub with walk := { s.hub.walk with shoots := [aShoot dies] } } }

theorem meets_PrompterOperations_tlbi :
    myShoot (stShoot [0]) 0 = some (aShoot [0]) ∧ (aShoot [0]).dies ≠ [] ∧ myShoot (stShoot []) 0 = some (aShoot []) ∧
    shootBusy (stShoot []) (aShoot []) = false := ⟨by rfl, by decide, by rfl, by decide⟩

/-! ### Events of units and cores -/

/-- A load in flight, and one whose data is still to arrive, numbered 9. -/
def loadEntry (poison : Bool) : PEntry :=
  { mkEntry (st unit) unit (.scalar 1) 0 0 0 with awaited := true, load := some { req := 9, va := 8, arrive := none, poison := poison, sync := false, reread := none } }
def loading1 (poison : Bool) : UnitSt := { unit with pend := [loadEntry poison] }
def dueRec : FaultRec := ⟨cPoison, 8, 1, true, .core, 0, 0⟩
def dueUnit : UnitSt := (unit.modRun fun r => { r with due := [dueRec] })
def stoppedPrompter (status : Status) : UnitSt := (prompter 0).modRun fun r => { r with status := status }

/-- The state with a die lost. -/
def stLost : State := { st unit with dies := (st unit).dies.set 1 { Die.reset with lost := true } }
def touching : Context := { fetchContext with dies := 3, pctl := 0x800000 }
def replaying : Context := { fetchContext with replay := true, replayEvents := [⟨.freeze, 0, 0, 0, 0x07, 0, none⟩] }
def withCtx (s : State) (k : Context) : State := { s with hub := { s.hub with contexts := [k] } }

/-- An operator record of one unit on cluster 0, a launch of it, and a unit of the launch. -/
def aRecord : OpRecord :=
  { kind := 1, restart := true, nodl := true, rel := false, noent := false, units := 1, cmask := 1, prog := 0, segt := 0, nseg := 0, wings := 0,
    dlsec := 0, dlns := 0, centry := 0x100, wrap := 1, cpi := 1000, tgt0 := ⟨0, 0, 0⟩, tgt1 := ⟨0, 0, 0⟩,
    cgimg := Vector.replicate 8 0, cslot := 0, twin := Vector.replicate 4 0 }
def someWings (array : Bool) : Wings :=
  { wb := Vector.replicate 4 0, land := 1, check := 0, rmode := 0, fte := 0, rbseed0 := 0, rbseed1 := 0, wcha := Vector.replicate 2 0,
    wchc := Vector.replicate 2 0, arrcfg := if array then 0x800000000010 else 0, ez := Vector.replicate 8 0, ag := Vector.replicate 8 0,
    handles := [], tbank := 0, cbank := 0, lbank := 0, sheet := none }
def aLaunch : Launch :=
  { serial := 0, asid := 1, graph := none, record := aRecord, wings := someWings false, segs := [(0, 10)], remain := 1, placed := 1,
    deadline := some 1000, registered := true, struck := false, killed := false, curtain := false, done := false, finish := 0,
    pendingWings := [] }
def launched : UnitSt := { unit with ident := { unit.ident with launch := some 0, restart := true } }
def stLaunch (u : UnitSt) (l : Launch) : State := { st u with hub := { (st u).hub with launches := [l] } }

theorem meets_UnitEvents :
    (st unit).unit? 0 = some unit ∧ (unit.modFlow fun f => { f with pc := ⟨0, true, none, false⟩ }).flow.pc.ann = true ∧
    (∃ bs s', fetchBundle (st unit) unit = (.got bs, s')) ∧ unit.run.endSeg = false ∧
    (∀ l, (loadEntry true).load = some l → l.comes = true) ∧ freezeLogged (st dueUnit) dueUnit = false ∧ freezeLogged stLost unit = false ∧
    firmwareTakes (stoppedPrompter .stopped) = false ∧
    (st (loading1 false)).hub.outLoads.find? (fun x => x.req == 9) = none ∧
    (loading1 false).pend.findIdx? (fun x => x.load.any fun y => y.req == 9) = some 0 ∧
    (loading1 true).pend[0]? = some (loadEntry true) ∧ (loadEntry true).awaited = true ∧ missing (loading1 false) = true ∧
    unit.live = true ∧ unit.csr.rbqueue < 16 ∧ canFreeze dueUnit = true ∧ dueUnit.run.due = [dueRec] ∧
    (stLost.die 1).lost = true ∧ lossConcerns (withCtx stLost touching) unit 1 = true ∧ free.isFrozen = true ∧
    lossConcerns (withCtx stLost touching) free 1 = true ∧ canFreeze unit = true ∧
    (stoppedPrompter .stopped).run.status = .stopped ∧ (fetchContext.pctl.extractLsb' 22 2).toNat ≠ 2 ∧
    (touching.pctl.extractLsb' 22 2).toNat = 2 ∧ (stoppedPrompter .stopped).isPrompter = true ∧
    replaying.replay = true ∧ replaying.replayStopped = false ∧
    logged (withCtx (st unit) replaying) unit .freeze = some ⟨.freeze, 0, 0, 0, 0x07, 0, none⟩ := by
  refine ⟨by rfl, by rfl, ⟨_, _, by rfl⟩, by rfl, fun l h => by cases h; rfl, by rfl, by rfl, by rfl, by rfl, by rfl, by rfl, by rfl, by rfl, by rfl, by decide, by rfl, by rfl, by rfl, by rfl,
    by rfl, by rfl, by rfl, by rfl, by decide, by decide, by rfl, by rfl, by rfl, by rfl⟩

/-- A restartable unit lost with its die, another cluster on another die. -/
def lostUnit : UnitSt := launched.modRun fun r => { r with status := .complete .lost }
def poisonedUnit : UnitSt := launched.modRun fun r => { r with status := .stopped, record := some dueRec }

theorem meets_UnitEvents_restart :
    reexecutable lostUnit = true ∧ lostUnit.isPrompter = false ∧ (127 : ClusterNo) ≠ lostUnit.ident.cluster ∧
    ((stLaunch lostUnit aLaunch).die (dieOf 127)).lost = false ∧ (stLaunch lostUnit aLaunch).launch? 0 = some aLaunch ∧
    aLaunch.done = false ∧ arrayFree (stLaunch lostUnit aLaunch) 0 aLaunch 127 = true ∧ reexecutable poisonedUnit = true ∧
    poisonedUnit.live = true ∧ lostUnit.live = false := by
  refine ⟨by decide, by rfl, by decide, by rfl, by rfl, rfl, by decide, by decide, by decide, by decide⟩

/-- A unit that has run past the COST of its segment, with another that is ready. -/
def longUnit : UnitSt := launched.modRun fun r => { r with segCycles := 11 }
def parkedUnit (started : Bool) : UnitSt :=
  (launched.modMem fun m => { m with tbank := 1 }).modRun fun r => { r with status := .parked, started := started }
def stTwo (u v : UnitSt) (running : Option Uid) : State :=
  { stLaunch u aLaunch with units := [u, v],
                            clusters := (st u).clusters.set 0 { core0 with running := running, order := [0, 1] } }
/-- A unit that waits at a point, asked to give way. -/
def yielding : UnitSt := launched.modRun fun r => { r with preempt := true, wait := some .sync }

theorem meets_SegmentEvents :
    ((stTwo longUnit (parkedUnit true) (some 0)).cluster 0).running = some 0 ∧
    segmentCost (stTwo longUnit (parkedUnit true) (some 0)) 0 0 = some 10 ∧ 10 < longUnit.run.segCycles ∧
    otherReady (stTwo longUnit (parkedUnit true) (some 0)) 0 0 = true ∧
    yielding.run.wait = some .sync ∧ WaitKind.isPoint .sync = true ∧ (∀ l, (yielding.flow.loops.get l).active = false) ∧
    yielding.run.preempt = true ∧ yielding.run.gap = 0 ∧ replays (st yielding) yielding = false ∧
    clusterRelease ((stTwo (parkedUnit false) longUnit none).cluster 0) = false ∧ yielding.run.endSeg = false ∧ yielding.run.drainLevel = none ∧
    nextEntry (stTwo (parkedUnit false) longUnit none) 0 = some 0 ∧ (parkedUnit false).run.started = false ∧
    startBanksFree (stTwo (parkedUnit false) longUnit none) 0 (parkedUnit false) = true := by
  refine ⟨by rfl, by rfl, by decide, by decide, by rfl, by decide, by decide, by rfl, by rfl, by rfl, by decide, by rfl, by rfl, by decide, by rfl, by decide⟩

def wingsLaunch (array : Bool) : Launch := { aLaunch with wings := someWings array, pendingWings := [0], placed := 0 }
def stWings (array : Bool) (shadow : Option Nat) : State :=
  let k : Cluster := { Cluster.reset with shadowWings := shadow, l1op := some ⟨[], true, true, 0, true, 0⟩, array := { ArraySt.reset with clearing := 1 } }
  { stLaunch unit (wingsLaunch array) with units := [], clusters := State.reset.clusters.set 0 k }

theorem meets_SegmentEvents_wings :
    (stWings false none).launch? 0 = some (wingsLaunch false) ∧ (0 : ClusterNo) ∈ (wingsLaunch false).pendingWings ∧
    ((stWings false none).cluster 0).shadowWings = none ∧ (wingsLaunch false).registered = true ∧
    (wingsLaunch true).wings.arrcfg.getLsbD 47 = true ∧ (wingsLaunch false).wings.arrcfg.getLsbD 47 = false ∧
    ((stWings true (some 0)).cluster 0).shadowWings = some 0 ∧ canSwap (stWings true (some 0)) 0 = true ∧
    (arrayOf (stWings true (some 0)) 0).clearing = 1 ∧ ((stWings true (some 0)).cluster 0).l1op = some ⟨[], true, true, 0, true, 0⟩ ∧
    (wingsLaunch true).wings.arrcfg.getLsbD 46 = false := by
  refine ⟨by rfl, by decide, by rfl, by rfl, by decide, by decide, by rfl, by decide, by rfl, by rfl, by decide⟩

/-! ### Time, the curtain, copies and buffers -/

/-- The timekeeper with a source. -/
def stSource (src : BitVec 24) : State := modTk State.reset fun t => { t with ctl := src }

theorem meets_TimeAndCurtainEvents :
    (∃ c, (stSource c).hub.tk.src = 1 ∧ (stSource c).hub.tk.pps = true) ∧ (∃ c, (stSource c).hub.tk.src = 2) ∧
    State.reset.hub.tk.src = 0 ∧ (1000000 : Int).natAbs ≤ 1000000 ∧ 1000000 < (-1000001 : Int).natAbs ∧
    aLaunch.deadline = some 1000 ∧ aLaunch.registered = true ∧ aLaunch.struck = false ∧ aLaunch.done = false := by
  refine ⟨⟨0x801, ?_⟩, ⟨2, ?_⟩, by decide, by decide, by decide, rfl, rfl, rfl, rfl⟩ <;> decide

/-- A struck launch; its unit before the message, at its point, frozen, and with its time run out. -/
def struckLaunch (noent : Bool) : Launch := { aLaunch with struck := true, record := { aRecord with noent := noent } }
def struckUnit : UnitSt := (launched.modCurt fun c => { c with struck := true }).modRun fun r => { r with wait := some .sync, bundles := 1 }
def overrunUnit : UnitSt := launched.modCurt fun c => { c with struck := true, window := some 0 }

theorem meets_TimeAndCurtainEvents_curtain :
    (stLaunch launched (struckLaunch false)).launch? 0 = some (struckLaunch false) ∧ (struckLaunch false).struck = true ∧
    launched.ident.launch = some 0 ∧ launched.live = true ∧ launched.curt.struck = false ∧ launched.isFrozen = false ∧
    launched.run.bundles = 0 ∧ (launched.modRun fun r => { r with bundles := 1 }).run.bundles ≠ 0 ∧
    ({ free with ident := launched.ident } : UnitSt).isFrozen = true ∧
    unitRecord (stLaunch struckUnit (struckLaunch false)) struckUnit = some (struckLaunch false).record ∧
    (struckLaunch false).record.noent = false ∧ struckUnit.run.gap = 0 ∧ struckUnit.curt.inentry = false ∧ struckUnit.run.due = [] ∧
    struckUnit.run.drainLevel = none ∧ (∀ l, (struckUnit.flow.loops.get l).active = false) ∧
    unitRecord (stLaunch struckUnit (struckLaunch true)) struckUnit = some (struckLaunch true).record ∧ timeOut overrunUnit = true ∧
    overrunUnit.live = true ∧ replays (stLaunch struckUnit (struckLaunch false)) struckUnit = false ∧ struckUnit.run.endSeg = false ∧
    struckUnit.run.parkPoint = none := by
  refine ⟨by rfl, rfl, rfl, by rfl, by rfl, by rfl, by rfl, by decide, by rfl, by rfl, rfl, by rfl, by rfl, by rfl, by rfl, by decide,
    by rfl, by decide, by rfl, by rfl, by rfl, by rfl⟩

/-- A command at the head of engine 0 of cluster 0, of unit 0: tile 1 to tile 1, sixteen bytes from 0 to 64. -/
def unitMove : UnitSt := (unitTiles ring).modEng fun g =>
  { g with cg := g.cg.set 0 ((((g.cg.get 0).set 0 1).set 1 0x4001).set 2 0x1_0000_0010), tok := g.tok.set 0 8 }
def moveCmd (started moved : Bool) : CopyCmd :=
  { mkCopyCmd (st unitMove) unitMove 0 2 (copyHdr 3 0 0 1 1 0) with started := started, moved := moved }
def stEngine (u : UnitSt) (q : List CopyCmd) : State :=
  (st u).modCluster 0 fun k => { k with banks := [⟨0, 0, 0, false⟩], eng := k.eng.set 0 ⟨q, false⟩ }

theorem meets_CopyAndBufferEvents :
    ((stEngine unitMove [moveCmd true false]).engine 0 0).queue = moveCmd true false :: [] ∧ (moveCmd true false).fault = none ∧
    (moveCmd false false).started = false ∧ ((stEngine unitMove [moveCmd false false]).engine 0 0).faulted = false ∧
    (moveCmd true true).moved = true ∧ (moveCmd true true).bar = false ∧ (moveCmd true true).await = [] ∧
    (moveCmd true true).op ≠ 0x0A ∧ (moveCmd true false).uid = some 0 ∧ (stEngine unitMove []).unit? 0 = some unitMove ∧
    (moveCmd true false).op = 2 ∧ (moveCmd true false).sk = 1 ∧ (moveCmd true false).dk = 1 ∧ (moveCmd true false).nrows = 1 ∧
    unitMove.handle? (moveCmd true false).srcH = some tile ∧ unitMove.handle? (moveCmd true false).dstH = some tile ∧ tile.ring = false ∧
    ((stEngine unitMove [moveCmd true false]).engine 0 1).queue = [] ∧ ((stEngine unitMove [moveCmd true false]).cluster 0).held = false ∧
    unpublished (publishClaims (stEngine unitMove [moveCmd true true]) (moveCmd true true)) (moveCmd true true) = false ∧
    lineWaits (stEngine unitMove [moveCmd true true]) 0 (moveCmd true true) 5 = false ∧ tile.heads = [] ∧ tile.tails = [] := by
  refine ⟨by rfl, rfl, rfl, by rfl, rfl, by decide, rfl, by decide, by rfl, by rfl, rfl, by decide, by decide, by decide, by decide, by decide, by decide,
    by rfl, by rfl, by decide, by decide, rfl, rfl⟩

/-- A streaming load of one slab from page 0 into the ring of stream register 0, and a PUBL whose release is over. -/
def unitStream : UnitSt := (unitWith 5 0).modMem fun m => { m with tbl := [bareRing], q := m.q.set 0 (some ⟨2, true⟩) }
def streamCmd : CopyCmd :=
  { mkCopyCmd (st unitStream) unitStream 0 0 (copyHdr 3 0 0 0 2 0) with
      cg := (Vector.replicate 16 0).set 2 0x1_0000_0040, started := true }

theorem meets_CopyAndBufferEvents_stream :
    streamCmd.dk = 2 ∧ streamCmd.moved = false ∧ (streamCmd.qHandle unitStream true).bind unitStream.handle? = some bareRing ∧
    bareRing.canTail 1 = true ∧ QuietRing bareRing ∧ bareRing.tp = bareRing.tc ∧
    ∃ x bs, readChunks streamCmd 0 (slabChunks streamCmd (streamCmd.wins.get streamCmd.swin.toFin) (streamCmd.reg 0) streamCmd.sstride)
        ⟨stEngine unitStream [streamCmd], [], [], none⟩ [] = .ok x bs ∧
      costsOpen (stEngine unitStream [streamCmd]) streamCmd.asid (2 ^ 40 + streamCmd.id) x.cost = true ∧
      x.s.unit? 0 = some unitStream ∧ (x.s.engine 0 0).queue = [streamCmd] := by
  refine ⟨by decide, rfl, by decide, by decide, ⟨rfl, rfl, rfl⟩, rfl, ⟨_, _, by rfl, by rfl, by rfl, by rfl⟩⟩

def publCmd (forced : BitVec 1) : CopyCmd :=
  { mkCopyCmd (st unit) unit 0 0x0A (copyHdr 3 0 0 0 0 (forced.setWidth 12)) with
      cg := ((Vector.replicate 16 0).set 0 0xC000).set 2 0x1_0000_0001, started := true, publRel := some 5 }
def stPubl (forced : BitVec 1) : State :=
  let s := stEngine unit [publCmd forced]
  let m : ValsetMsg := ⟨1, 0, false, true, false, 0, 7⟩
  { s with hub := { s.hub with walk := { s.hub.walk with bufs := [aBuffer], notices := [(0, 1)], noticeAcks := [(0, 1)], valsets := [m] } } }

theorem meets_CopyAndBufferEvents_buffer :
    (publCmd 0).op = 0x0A ∧ (publCmd 0).bar = false ∧ earlierDone (stPubl 0) 0 (publCmd 0) = true ∧ (publCmd 0).publDone = false ∧
    publReleasing (stPubl 0) 0 5 = false ∧ publBuf (stPubl 0) (publCmd 0) = some (0, aBuffer) ∧ aBuffer.total = none ∧
    aBuffer.flipDies = [] ∧ (publCmd 1).hdr.getLsbD 0 = true ∧ (publCmd 0).hdr.getLsbD 0 = false ∧
    (stPubl 0).hub.walk.notices.contains (0, 1) = true ∧ (stPubl 0).hub.walk.noticeAcks.contains (0, 1) = true ∧
    (stPubl 0).buf? 0 = some aBuffer ∧ (stPubl 0).hub.walk.valsets[0]? = some ⟨1, 0, false, true, false, 0, 7⟩ ∧ (∀ m ∈ (stPubl 0).hub.walk.valsets, m.uid ≠ 0) ∧ aBuffer.vset = false ∧
    ({ aBuffer with vset := true } : TvBuf).vset = true ∧ versionMoves (stPubl 0) 0 = false ∧ (publCmd 0).sk = 0 ∧ (publCmd 0).dk = 0 := by
  refine ⟨rfl, by decide, by decide, rfl, by decide, by rfl, rfl, rfl, by decide, by decide, by decide, by decide, by rfl, by rfl, by decide, rfl, rfl, by decide, by decide, by decide⟩

/-- A transform that waits for a segment boundary: a PUBL, which names no tile. -/
def stTransform : State := (stPubl 0).modCluster 0 fun k => { k with transforms := [publCmd 0], running := none }

theorem meets_CopyAndBufferEvents_transform :
    (stTransform.cluster 0).transforms = publCmd 0 :: [] ∧ (stTransform.cluster 0).running = none ∧
    (stTransform.engine 0 (transformEngine stTransform (publCmd 0))).queue.length < 8 ∧
    (∀ r ∈ copyChecks stTransform (UnitSt.fresh ⟨none, 0, 1, 0, none, false, 0, none⟩ 0 0) (publCmd 0), r = .done) := by
  refine ⟨by rfl, by rfl, by decide, by decide⟩

/-! ### The array's events -/

def arrCmd (op : BitVec 4) : ArrayCmd := { mkArrayCmd (st launched) 0 launched op 0 0 0 none with claimed := true, ag := (Vector.replicate 8 0).set 0 0x100 }
def aStream : Stream := ⟨arrCmd 1, 0, 4, 0, 0, [], [], 4, none⟩
def aMessage (fin : Bool) : ChainMsg := ⟨1, fin, 0, 4, 4, 0, false, 3, 3, 2, 0, 0, [], []⟩
def aConvert (v : Option Nat) : Convert := ⟨arrCmd 4, 0, List.replicate 64 1, 0, v, false⟩
/-- An array whose unit runs, with what `f` adds. -/
def stRuns (f : ArraySt → ArraySt) : State :=
  { stArray ring f with units := [{ unitArray ring with umem := { (unitArray ring).umem with tbl := [{ ring with h := 0 }] } }] }

theorem meets_ArrayEvents :
    arrayRuns (stRuns fun a => { a with queue := [arrCmd 1] }) 0 = true ∧ canStart (arrayOf (stRuns fun a => { a with queue := [arrCmd 0] }) 0) (arrCmd 0) = true ∧
    canStart (arrayOf (stRuns fun a => { a with queue := [arrCmd 1] }) 0) (arrCmd 1) = true ∧
    canStart (arrayOf (stRuns fun a => { a with queue := [arrCmd 4] }) 0) (arrCmd 4) = true ∧ (arrCmd 5).claimed = true ∧
    arrayRuns (stRuns fun a => { a with exec := some ⟨arrCmd 0, 0, [], 64⟩ }) 0 = true ∧
    arrayRuns (stRuns fun a => { a with exec := some ⟨arrCmd 5, 0, [], 0⟩ }) 0 = true ∧
    arrayRuns (stRuns fun a => { a with state := .run, stream := some aStream, streamUid := some 0, acyc := 4 }) 0 = true ∧
    aStream.nextLatch < aStream.cmd.v ∧ aStream.start + 4 + aStream.nextLatch * 2 ^ aStream.kt ≤ 4 ∧
    copyDue (arrayOf (stRuns fun a => { a with state := .run, stream := some aStream, streamUid := some 0, acyc := 10000 }) 0) = true ∧
    aStream.cmd.chin = false ∧ aStream.cmd.chout = false ∧ aStream.nextJ = aStream.kt ∧ aStream.cmd.emit = false ∧
    (aMessage true).fin = true ∧ (aMessage false).fin = false ∧
    ({ aStream with cmd := { arrCmd 1 with hdr := 0xFFFFFF } } : Stream).chained (arrayOf (stRuns id) 0) (aMessage true) = true ∧
    arrayRuns (stRuns fun a => { a with conv := [aConvert none] }) 0 = true ∧ (aConvert none).fault = false ∧
    (arrayOf (stRuns fun a => { a with conv := [aConvert (some 0)] }) 0).conv.find? (fun x => decide (x.finish ≤ 0) && x.vector.isSome) = some (aConvert (some 0)) ∧
    ((stRuns id).unit? 0).bind (fun u => u.handle? (aConvert none).cmd.oh) = some { ring with h := 0 } := by
  refine ⟨by decide, by decide, by decide, by decide, rfl, by decide, by decide, by decide, by decide, by decide, by decide, by decide, by decide,
    rfl, by decide, rfl, rfl, by decide, by decide, rfl, by decide, by decide⟩

/-- A 2:4 weight load of two columns whose first is due; its slab holds unequal indexes, or equal ones. -/
def halfLoaded (b : Byte) : ArrayExec :=
  ⟨{ arrCmd 0 with nm := true, ag := ((Vector.replicate 8 0).set 3 0x1000).set 4 0x1000 }, 8, [List.replicate 16 b], 0⟩

theorem meets_ArrayEvents_load :
    arrayRuns (stRuns fun a => { a with exec := some (halfLoaded 0x11), acyc := 6 }) 0 = true ∧ (halfLoaded 0x11).cmd.op = 0 ∧
    6 < (halfLoaded 0x11).finish ∧ (halfLoaded 0x11).good + 1 = (halfLoaded 0x11).cmd.logicalCols - ((halfLoaded 0x11).finish - 6 + 1) / 2 ∧
    (∃ a, loadColumn (arrayOf (stRuns id) 0) (halfLoaded 0x11).cmd 0 ((halfLoaded 0x11).slabs.getD 0 []) = .ok a) ∧
    loadColumn (arrayOf (stRuns id) 0) (halfLoaded 0).cmd 0 ((halfLoaded 0).slabs.getD 0 []) = .error 0 ∧
    dueCycle aStream < 10000 := ⟨by decide, rfl, by decide, by decide, ⟨_, by rfl⟩, by rfl, by decide⟩

theorem meets_DeviceWrites : Canonical State.reset := meets_StepKeepsMemoryCanonical.1

/-! ### Synchronisation engines, walks and the directory -/

/-- An atomic of die 0 at the head of its engine, and a reply. -/
def anAtomic : SyncReq := { aRequest with kind := .op 0x0B, size := 8, n := 1 }
def stSyncs (u : UnitSt) (q : List SyncReq) (r : List SyncReply) (drains : List Nat) : State :=
  let s := st u
  { s with dies := s.dies.set 0 { Die.reset with sync := { Die.reset.sync with queue := q, replies := r, drains := drains } } }
def aReply (code : BitVec 8) (retry : Bool) : SyncReply := { req := anAtomic, value := 1, code := code, va := 0x4000, retry := retry, near := false }
def awaiting : UnitSt := { unit with pend := [awaitedEntry (st unit) unit (.scalar 1) 0 1 0x4000] }

theorem meets_SyncEngineEvents :
    ((stSyncs unit [anAtomic] [] []).die 0).sync.queue = anAtomic :: [] ∧ Unlogged (stSyncs unit [anAtomic] [] []) anAtomic ∧
    ((stSyncs unit [anAtomic] [] [1]).die 0).sync.drains.contains (anAtomic.pa / 2 ^ 14) = true ∧
    ((stSyncs unit [anAtomic] [] []).die 0).sync.drains.contains (anAtomic.pa / 2 ^ 14) = false ∧ (0x0B : BitVec 5).toNat < 0x0C ∧
    anAtomic.n = 1 ∧ anAtomic.done = 0 ∧ enginePoison { stSyncs unit [anAtomic] [] [] with poison := [128] } anAtomic.pa = true ∧
    enginePoison (stSyncs unit [anAtomic] [] []) anAtomic.pa = false ∧ barrierBusy ((stSyncs unit [anAtomic] [] []).die 0).sync anAtomic.pa = false ∧
    ((stSyncs awaiting [] [aReply 0 false] []).die 0).sync.replies = aReply 0 false :: [] ∧ awaiting.live = true ∧
    (aReply cPoison false).code ≠ 0 ∧ (aReply 0 false).req.copyEng = none ∧ awaiting.sync.barwaitReq = none ∧ awaiting.sync.barawReq = none ∧
    awaiting.pend.findIdx? (fun x => x.load.any fun l => l.req == anAtomic.id) = some 0 ∧
    (unit.modSyncSt fun y => { y with barawReq := some anAtomic }).sync.barawReq = some anAtomic ∧
    (aReply 0 true).retry = true ∧ (0x0B : BitVec 5) ≠ 0x12 ∧ retryBefore (stSyncs unit [anAtomic] [] []) anAtomic = false ∧
    replyDue (stSyncs awaiting [] [aReply 0 false] []) 0 (aReply 0 false) = true ∧ anAtomic.kind ≠ .lostArrival ∧ anAtomic.acquire = false ∧
    (({ anAtomic with kind := .op 0x0F, waits := true } : SyncReq).waits = true) ∧
    ((stSyncs unit [anAtomic] [] []).die 0).sync.lines.length <
      (sramEntries - min sramEntries (metaCount ((stSyncs unit [anAtomic] [] []).die 0).sync)) / 8 ∧
    translate (st unit) unit.accessor (aReply 0 true).req.va .atomic = .ok 0x4000 (page 1 0x4000 true) false := by
  refine ⟨by rfl, ?_, by decide, by decide, by decide, rfl, rfl, by decide, by decide, by decide, by rfl, by rfl, by decide, rfl, by rfl,
    by rfl, by decide, by rfl, rfl, by decide, by decide, by decide, by decide, by decide, rfl, by decide, by rfl⟩
  intro u k hu hk
  have h : (stSyncs unit [anAtomic] [] []).unit? anAtomic.who = some unit := by rfl
  rw [h] at hu
  obtain rfl := Option.some.inj hu
  have h' : (stSyncs unit [anAtomic] [] []).ctx? unit.ident.asid = some fetchContext := by rfl
  rw [h'] at hk
  obtain rfl := Option.some.inj hk
  decide

/-- Tables of a context: the root at 0x8000 and two levels below it, with one leaf of level 2 for the addresses from 0, at 0x14000. -/
def tables (mig : Byte) : List Host.Cell :=
  [(0x8000, 1), (0x8002, 3), (0xC000, 1), (0xC002, 4), (0x10000, 1), (0x10002, 5), (0x14000, 0x0F)] ++ (if mig = 0 then [] else [(0x14001, mig)])
def aWalk (write : Bool) : Walk := ⟨0, 1, 0x40, write, 0, 0, none⟩
def stTables (mig : Byte) (ws : List Walk) : State :=
  { State.reset with
      mem := tables mig
      hub := { State.reset.hub with
                 contexts := [{ fetchContext with root := 0x8000 }]
                 walk := { State.reset.hub.walk with walks := ws } } }
def aLeaf (p : Word) : WalkOut := .leaf 0x14000 p 2 [(3, 0x14000), (4, 0x10000), (5, 0xC000)]

/-- Die 0 holds a translation of page 0 of context 1. -/
def mapped (s : State) : State := s.modWalk fun w => { w with tdir := [⟨1, 0, 2, 1⟩] }

theorem meets_WalkerEvents :
    tlbFind (stTables 0 []) 0 1 (vpnOf 0x40) = none ∧ walkFor (stTables 0 []) 0 1 (vpnOf 0x40) = none ∧
    (stTables 0 []).hub.walk.walks.length < 64 ∧ budgetOpen (stTables 0 []) 1 bWalker (walkKey 0 (vpnOf 0x40)) = true ∧
    (stTables 0 [aWalk true]).hub.walk.walks.find? (fun x => x.id == 0) = some (aWalk true) ∧ (aWalk true).fail = none ∧
    ((stTables 0 []).ctx? 1).isSome ∧ walkStart (stTables 0 []) 1 0x8000 0x40 = (5, 0x8000) ∧
    (∃ ptrs, walkFrom (stTables 0 []) 0x40 5 0x8000 [] = .leaf 0x14000 0x0F 2 ptrs) ∧
    (∃ ptrs, walkFrom (stTables 1 []) 0x40 5 0x8000 [] = .leaf 0x14000 0x10F 2 ptrs) ∧
    walkFrom State.reset 0x40 5 0x8000 [] = .fail ∧ leafOk (stTables 0 []) 1 (vpnOf 0x40) 0x0F 2 = true ∧
    leafOk (stTables 1 []) 1 (vpnOf 0x40) 0x10F 2 = true ∧ pteMig 0x10F = true ∧ pteMig 0x0F = false ∧ pteTvg 0x0F = false ∧
    (stTables 0 []).hub.walk.bufs = [] ∧ versionOk 0x100 65536 = true ∧
    (frameDie (ptePa 0x0F)).isSome ∧ (frameDie (2 ^ 22 * 2 ^ 14)).isSome ∧ 2 ^ 22 * 2 ^ 14 % levelSize 2 = 0 ∧
    frameOk (2 ^ 22 * 2 ^ 14) (levelSize 2) = true ∧ (stTables 0 []).hub.dir.regions = [] ∧
    (∀ x ∈ (stTables 0 []).hub.walk.shoots, x.id ≠ (stTables 0 []).nextReq) ∧
    shootMask (mapped (stTables 0 [])) 1 (some (pageBase (vpnOf 0x40) 2, 2 ^ (11 * 2))) ≠ [] := by
  refine ⟨by decide, by decide, by decide, by decide, by rfl, rfl, by rfl, by decide, ⟨_, by rfl⟩, ⟨_, by rfl⟩, by rfl, by decide, by decide,
    by decide, by decide, by decide, by rfl, by decide, by decide, by decide, by decide, by decide, by rfl, by decide, by decide⟩

theorem meets_WalkerEvents_shoot :
    shoot? (stShoot [0]) 0 = some (aShoot [0]) ∧ (aShoot [0]).migrate = none ∧ (0 : DieNo) ∈ (aShoot [0]).dies ∧
    (stShoot [0]).hub.walk.shootAcks.contains (0, 0) = false ∧
    ((stShoot [0]).modWalk fun w => { w with shootAcks := [(0, 0)] }).hub.walk.shootAcks.contains (0, 0) = true ∧
    (aShoot [0]).version = none ∧ (aShoot [0, 1]).dies.filter (fun y => y != 0) ≠ [] ∧ (aShoot [0]).dies.filter (fun y => y != 0) = [] := by
  refine ⟨by rfl, rfl, by decide, by decide, by decide, rfl, by decide, by decide⟩

/-- A message alone on the links, with a line of die 1's slices, and with a directory entry. -/
def aLine (k : SliceState) : SliceLine := ⟨5, k, 7, 7, 0xFF, 0, false, false⟩
def stMsg (m : Msg) (l : List SliceLine) (e : List DirEntry) : State :=
  { State.reset with
      hub := { State.reset.hub with dir := { State.reset.hub.dir with net := [m], entries := e } }
      dies := State.reset.dies.set 1 { Die.reset with lines := l } }
def toOne (k : MsgKind) : Msg := toDie k 1 5

theorem meets_DieMessages :
    (∀ k ∈ [MsgKind.dataS, .dataE, .dataM, .dataNF, .fwdData, .upgAck, .inv, .fwdGetS, .fwdGetSNF, .fwdGetM, .putAck, .putAckStale, .push,
      .rdSet, .rdInv], headMsg (stMsg (toOne k) [] []) k 1 5 true = some (toOne k)) ∧
    (∀ x ∈ [SliceState.isD, .imD, .imW, .smW, .s, .o, .e, .m, .miA, .oiA, .eiA, .siA, .iiA],
      sliceLine? ((stMsg (toOne .inv) [aLine x] []).die 1) 5 = some (aLine x)) ∧
    sliceLine? ((stMsg (toOne .push) [] []).die 1) 5 = none ∧ (toOne .fwdData).shared = false := by
  refine ⟨by decide, by decide, by decide, rfl⟩

def fromOne (k : MsgKind) : Msg := reqMsg k 1 5 0 0 0 false
def asked1 (k : MsgKind) : DirReq := ⟨k, 1, false, false, 0, 0, 0, false⟩
def anEntry (x : DirSt) (o : Option DieNo) (sharers : BitVec 8) : DirEntry := { DirEntry.empty 5 with st := x, owner := o, sharers := sharers }
def stRepen : State :=
  { stMsg (fromOne .getS) [] [anEntry .s none 4] with
      hub := { (stMsg (fromOne .getS) [] [anEntry .s none 4]).hub with
                 dir := { (stMsg (fromOne .getS) [] [anEntry .s none 4]).hub.dir with cfg := 0 } } }

theorem meets_DirectoryMessages :
    (∀ k ∈ [MsgKind.getS, .getM, .upg, .putM, .putO, .putE, .putS, .invAck, .fwdAck, .rdAck, .pushAck],
      headMsg (stMsg (fromOne k) [] []) k 1 5 false = some (fromOne k)) ∧
    redirect? (stMsg (fromOne .getS) [] []) 1 5 = none ∧ dirEntry? (stMsg (fromOne .getS) [] []) 5 = none ∧
    ((stMsg (fromOne .getS) [] []).die (homeOf 5)).lost = false ∧ DirSt.stable .sMA = false ∧ dirRepen stRepen = false ∧
    dirEntry stRepen 5 = anEntry .s none 4 ∧ (anEntry .s none 4).sharers ≠ 0 ∧ (anEntry .s none 4).sharers.getLsbD 1 = false ∧
    (anEntry .e (some 2) 0).owner = some 2 ∧ (2 : DieNo) ≠ 1 ∧ (anEntry .s none (dieBit 1)).sharers = dieBit 1 ∧
    (anEntry .m (some 1) 0).owner = some 1 ∧ DirSt.stable .m = true ∧ (anEntry .o (some 2) 0).owner ≠ some 1 ∧
    (anEntry .s none 2).helpers.getLsbD 1 = false ∧
    ({ anEntry .sMA none 6 with invs := 6, cur := some (asked1 .getM) } : DirEntry).invs &&& ~~~(dieBit 1) ≠ 0 ∧
    ({ anEntry .sMA none 2 with invs := 2, cur := some (asked1 .getM) } : DirEntry).invs &&& ~~~(dieBit 1) = 0 ∧
    ({ anEntry .mFS (some 2) 0 with cur := some (asked1 .getS) } : DirEntry).cur = some (asked1 .getS) ∧
    (asked1 .getM).kind = .getM ∧ (asked1 .getS).die ≠ homeOf 5 ∧ (asked1 .getS).die = homeOf 0x60000000 ∧
    sliceHits (stMsg (fromOne .getS) [aLine .s] []) 1 5 0 = some (aLine .s) ∧
    (anEntry .s none 4).queue = [] ∧ (anEntry .s none 4).late = [] ∧ (anEntry .s none 4).trimDue = false ∧
    (anEntry .s none 4).key = (fromOne .getS).key ∧ (anEntry .s none (dieBit 1)).redirects = 0 ∧
    redirect? ((stMsg (fromOne .getS) [aLine .s] []).modDie 1 fun x => { x with redirects := [⟨5, 1⟩] }) 1 5 = some ⟨5, 1⟩ := by
  refine ⟨by decide, by decide, by decide, by decide, by decide, by decide, by decide, by decide, by decide, rfl, by decide, rfl, rfl, by decide,
    by decide, by decide, by decide, by decide, rfl, rfl, by decide, by decide, by decide, rfl, rfl, rfl, rfl, rfl, by decide⟩

/-! ### Links, the module, the front end and the host port -/

def stLink (x : LinkState) (rewakes : Nat) : State :=
  { State.reset with dies := State.reset.dies.set 1 { Die.reset with link := x, rewakes := rewakes } }
def aCircuit : CircuitMsg := ⟨0, 0, 0, 2, 1, [], true, false⟩

theorem meets_LinkAndModuleEvents :
    ((stLink .active 0).die 1).circuits = [] ∧ ((stTiles ring).modDie 1 fun x => { x with circuits := [aCircuit] }).die 1 = { Die.reset with circuits := [aCircuit] } ∧
    aCircuit.src < 16 ∧ aCircuit.slab = [] ∧ sheetDest { Die.reset with circuits := [aCircuit] } (0 : BitVec 8).toNat 0 = some 0 ∧
    (stTiles ring).unit? 0 = some (unitTiles ring) ∧ (unitTiles ring).handle? 2 = some ring ∧
    ((stLink .training 0).die 1).lost = false ∧ ((stLink .training 0).die 1).link = .training ∧
    ((stLink .training 2).die 1).rewakes < dirRewake (stLink .training 2) ∧ dirRewake (stLink .training 3) ≤ ((stLink .training 3).die 1).rewakes ∧
    (1 : BitVec 2) ≠ 0 ∧ (1 : Word).getLsbD 0 = true ∧ State.reset.mod.attBusy = false ∧
    ({ ModuleSt.reset with attBusy := true } : ModuleSt).attBusy = true ∧ (0x2008 : BitVec 20).toNat % 8 = 0 ∧ (0x2001 : BitVec 20).toNat % 8 ≠ 0 := by
  refine ⟨by rfl, by rfl, by decide, rfl, by decide, by rfl, by decide, by rfl, by rfl, by decide, by decide, by decide, by decide, rfl, rfl, by decide, by decide⟩

def aNode (kind : BitVec 8) (fired : Bool) : Node :=
  { kind := kind, depc := 0, succ := [], arg := 0, bfirst := 0, blast := 0, count := 0, record := some aRecord, wings := some (someWings false), segs := [],
    dep := 0, fired := fired, done := false, iter := 0, launch := none }
def aGraph (state : BitVec 2) (n : Node) : Graph :=
  { Graph.reset with asid := 1, gaddr := 0x100, state := state, resident := true, nodes := [n], gcnt := 1 }
def stGraph (k : Context) (g : Graph) (l : List Launch) : State :=
  { State.reset with
      hub := { State.reset.hub with contexts := [k], graphs := State.reset.hub.graphs.set 0 g, launches := l } }
/-- A launch at the end of its units, at each stage of its finish. -/
def ending (n : Nat) : Launch := { aLaunch with remain := 0, finish := n }

theorem meets_FrontEndEvents :
    (stGraph fetchContext Graph.reset []).ctx? 1 = some fetchContext ∧ ((stGraph fetchContext Graph.reset []).graph 0).state = 0 ∧
    (aGraph 3 (aNode 1 false)).state = 3 ∧ (aGraph 1 (aNode 1 false)).asid = 1 ∧ fetchContext.cancelled = false ∧
    (aGraph 2 (aNode 1 true)).pends.length < 65535 ∧ (aGraph 1 (aNode 1 false)).nodes = [aNode 1 false] ∧ (aNode 1 false).record = some aRecord ∧
    (aNode 1 false).wings = some (someWings false) ∧ aRecord.nodl = true ∧ (aNode 6 true).kind = 6 ∧ (aNode 6 true).fired = true ∧
    earlierPassesDone (stGraph fetchContext (aGraph 2 (aNode 6 true)) []) 1 0 0 = true ∧
    allWritten (stGraph fetchContext (aGraph 2 (aNode 6 true)) []) = true ∧
    (stGraph fetchContext Graph.reset [ending 1]).launch? 0 = some (ending 1) ∧ (ending 1).finish = 1 ∧ (ending 1).remain = 0 ∧
    launchReleased (launchRelease (stGraph fetchContext Graph.reset [ending 1]) 0) 0 = true ∧
    (∀ w ∈ (stGraph fetchContext Graph.reset [ending 2]).hub.outWrites, w.uid ≠ launchUid (stGraph fetchContext Graph.reset [ending 2]) 0) ∧
    (ending 2).graph = none ∧ fetchContext.slots.isEmpty = true ∧ (3 : Word).extractLsb' 22 2 ≠ 3 ∧ fetchContext.cancels = [] ∧
    targetTurn (launchRelease (stGraph fetchContext Graph.reset [ending 1]) 0) 0 (ending 1) (ending 1).record.tgt0 = .go ∧
    targetTurn (stGraph fetchContext Graph.reset [ending 2]) 0 (ending 2) (ending 2).record.tgt1 = .go ∧
    (withCtx State.reset { fetchContext with cancels := [.job] }).ctx? 1 = some { fetchContext with cancels := [.job] } ∧
    ((.graph 3 : Cancel) ≠ .job) := by
  refine ⟨by rfl, by rfl, rfl, rfl, rfl, by decide, rfl, rfl, rfl, rfl, rfl, rfl, by decide, by decide, by rfl, rfl, rfl, by decide, by decide,
    rfl, by decide, by decide, rfl, by rfl, by rfl, by rfl, by decide⟩

theorem meets_FrontEndEvents_target :
    ∃ s1 pa e b, feTranslate (stTables 0 []) 1 0x40 .write = some (s1, pa, e, b) ∧ routeOf pa e = .cached ∧ pa % 8 = 0 := by
  exact ⟨_, _, _, _, by rfl, by decide, by decide⟩

theorem meets_FrontEndEvents_cancel :
    (stGraph fetchContext Graph.reset [aLaunch]).hub.launches.findIdx? (fun l => l.asid == 1 && l.serial == 0 && !l.done) = some 0 ∧
    unitExists (stLaunch launched aLaunch) 0 0 = true ∧ ({ aLaunch with placed := 0 } : Launch).pendingWings = [] ∧
    ((stGraph fetchContext (aGraph 2 (aNode 1 true)) []).graph 0).asid = 1 ∧ (∀ n ∈ (aGraph 2 (aNode 1 true)).nodes, n.launch = none) ∧
    2 ^ 15 ≤ ((0xFFFF : BitVec 16) - fetchContext.phase).toNat ∧ ((0x7FFF : BitVec 16) - fetchContext.phase).toNat < 2 ^ 15 ∧
    (boundaryCues (stGraph fetchContext (aGraph 2 (aNode 1 true)) []) 1)[0x7FFF]? = none ∧
    (st unit).unit? 0 = some unit ∧ unit.live = true ∧ unit.isPrompter = false ∧ unit.sync.members = [] ∧
    (∀ e : BitVec 1, ∀ q ∈ ((st unit).engine 0 e).queue, q.uid ≠ some 0) ∧ (arrayWork (arrayOf (st unit) 0)).contains 0 = false ∧
    (currentStream (arrayOf (st unit) 0) 0).isSome = false := by
  refine ⟨by decide, by decide, rfl, by rfl, by decide, by decide, by decide, by decide, by rfl, by rfl, by rfl, by rfl, by decide, by decide, by decide⟩

/-- A write of one piece to die 0 with one route, and another behind it. -/
def aPiece : InPiece := ⟨0x40, 0x40, 0, false, [1, 2]⟩
def aRoute (d : DieNo) (released : Option Nat) (performed : Bool) : Route := ⟨some d, released, performed, false, [aPiece]⟩
def aWrite (id : Nat) (r : Route) : InWrite := ⟨id, 4, 0x40, [1, 2], false, false, 0, false, 1, true, [r]⟩
def stWrites (l : List InWrite) : State := { State.reset with hub := { State.reset.hub with inWrites := l } }

theorem meets_HostPortEvents :
    State.reset.mod.hostUp = true ∧ (barAligned 0 4 8 && serving State.reset) = false ∧ barAligned 0 0xFFFFF8 8 = true ∧
    barAligned 0 0x1000000 8 = false ∧ serving State.reset = true ∧ State.reset.hub.inWrites = [] ∧
    (stWrites [aWrite 0 (aRoute 0 none false)]).hub.inWrites = [aWrite 0 (aRoute 0 none false)] ∧
    inboundUp (stWrites []) 4 = true ∧ (aWrite 0 (aRoute 0 none false)).admitted = true ∧ frameDie aPiece.pa = some 0 ∧
    (aRoute 0 (some 3) false).released = some 3 ∧ (aRoute 0 (some 3) true).performed = true ∧
    countsFor (aWrite 1 (aRoute 1 none false)) (aWrite 0 (aRoute 0 none false)) = true ∧ (aRoute 0 none false).die ≠ (aRoute 1 none false).die ∧
    destUp State.reset 0 = true ∧ destHolds State.reset 0 = false := by
  refine ⟨rfl, by decide, by decide, by decide, rfl, rfl, rfl, rfl, rfl, by decide, rfl, rfl, by decide, by decide, by decide, by decide⟩

/-- The aperture open over the context of `stTables`. -/
def anAperture : Aperture := ⟨0, 0, 1, true⟩

theorem meets_HostPortEvents_aperture :
    ∃ s1 p, apertureAccess (stTables 0 []) anAperture 0x40 [1, 2] .write = some (s1, [p]) := ⟨_, _, by rfl⟩

/-- A read of BAR0 that waits for a write, and one that waits for none; a load outside whose entry waits. -/
def aRead (after : List Nat) : InRead := ⟨7, 0, 8, 8, false, 0, anAperture, after⟩
def anOutLoad : OutLoad := ⟨9, 0, 0, 0xA000000000000, 8, 8⟩

theorem meets_HostPortEvents_reads :
    (aRead [0]).bar = 0 ∧ (∃ w ∈ (stWrites [aWrite 0 (aRoute 0 none false)]).hub.inWrites, w.id ∈ (aRead [0]).after) ∧
    (∀ w ∈ (stWrites []).hub.inWrites, w.id ∉ (aRead [0]).after) ∧ barAligned 0 (aRead []).addr (aRead []).len = true ∧
    ({ (st (loading1 false)).hub with outLoads := [anOutLoad] } : Hub).outLoads.find? (fun y => y.req == anOutLoad.req) = some anOutLoad ∧
    (loading1 false).pend.find? (fun e => e.awaited && match e.load with | some l => l.req == anOutLoad.req | none => false) = some (loadEntry false) := by
  refine ⟨rfl, ⟨_, by exact List.mem_singleton.mpr rfl, by decide⟩, by decide, by decide, by decide, by decide⟩

/-! ### Single results, calculated by hand from the rules -/

/-- The value that a slot enters, zero if it enters none. -/
def entered (i : Instr) (s : State) : BitVec 512 :=
  match exec i s with
  | .next t => ((t.unit? 0).bind fun u => u.pend[0]?).elim 0 fun e => e.value
  | _ => 0

/-- s1 and s2 hold x and y. -/
def two (x y : Word) : State := st (unit.modRegs fun g => { g with s := (g.s.set 1 x).set 2 y })

/-- R83: a sum that wraps, a rotation by 65, an extension from bit 7. -/
theorem test_scalar :
    entered (.add 3 1 2 0 0) (two (BitVec.allOnes 64) 2) = 1 ∧ entered (.rol 3 1 2 0 0) (two 0x8000000000000000 65) = 1 ∧
    entered (.sext 3 1 2 0 0) (two 0x80 7) = 0xFFFFFFFFFFFFFF80 := by decide

/-- R84: the most negative number by -1, with its remainder. -/
theorem test_division :
    entered (.divs 3 1 2 0 0) (two 0x8000000000000000 (BitVec.allOnes 64)) = 0x8000000000000000 ∧
    entered (.rems 3 1 2 0 0) (two 0x8000000000000000 (BitVec.allOnes 64)) = 0 ∧
    entered (.rems 3 1 2 0 0) (two (-7) 2) = 0xFFFFFFFFFFFFFFFF := by decide

/-- R4, R108: bytes of LPDDR6 are little-endian in a register, and LDB extends the sign. -/
theorem test_load :
    entered (.ldh 3 0 0 1) { st unit with mem := [(2, 0x34), (3, 0x92)] } = 0xFFFFFFFFFFFF9234 ∧
    entered (.ldhu 3 0 0 1) { st unit with mem := [(2, 0x34), (3, 0x92)] } = 0x9234 ∧
    entered (.ldb 3 0 0 3) { st unit with mem := [(2, 0x34), (3, 0x92)] } = 0xFFFFFFFFFFFFFF92 := by decide

/-- R137 to R142: 1 + 2^-24 to even and up, the overflow of binary32, 1/3 in binary64, 0 × infinity, the square root of 2. -/
theorem test_float :
    fpAdd f32 0 (unpack f32 0x3F800000) (unpack f32 0x33800000) = (0x3F800000, fNX) ∧
    fpAdd f32 3 (unpack f32 0x3F800000) (unpack f32 0x33800000) = (0x3F800001, fNX) ∧
    fpAdd f32 0 (unpack f32 0x7F7FFFFF) (unpack f32 0x7F7FFFFF) = (0x7F800000, fOF ||| fNX) ∧
    fpDiv f64 0 (unpack f64 0x3FF0000000000000) (unpack f64 0x4008000000000000) = (0x3FD5555555555555, fNX) ∧
    fpMul f32 0 (unpack f32 0) (unpack f32 0xFF800000) = (0x7FC00000, fNV) ∧
    fpSqrt f32 0 (unpack f32 0x40000000) = (0x3FB504F3, fNX) := by decide

/-- R272: the signed and the unsigned minimum of 32 bits differ. -/
theorem test_atomic : atomicNew 0x04 1 0x80000000 1 0 = 0x80000000 ∧ atomicNew 0x05 1 0x80000000 1 0 = 1 := by decide

/-- R89: a step from the state of `withFetchWord` ends with the chain one bundle on. -/
theorem test_step :
    (match step fetching with | .next t => (t.unit? 0).map fun u => (u.flow.pc.addr, u.flow.npc.addr, u.flow.nnpc.addr) | _ => none) =
      some (16, 32, 48) := by decide

end Sys2Proof.Tests
end

section
/-! PROOFS.
The sequencer's family (chapter 03): divisions, compares and predicate operations, transfers, stage predicates and traps.
The rules that the settling theorems cite come first: what a freeze leaves of a unit, what a run of entries adds to the
record, what each shared form of slot does, and the arithmetic of the rules against the model's bit-vector operations. -/

namespace Sys2Proof.Sequencer

open Sys2Proof.Machine Sys2Proof.Safety

/-! ### What a freeze leaves of the units (R33, R335, R338)

Of every unit that was there before, each operation that a freeze runs through changes the run state alone. -/

/-- Every unit of `s` is still there in `t`, with everything but its run state as it was. -/
def KeepsUnits (s t : State) : Prop := ∀ i u, s.unit? i = some u → ∃ r, t.unit? i = some { u with run := r }

theorem KeepsUnits.of_units_eq {s t : State} (h : t.units = s.units) : KeepsUnits s t :=
  fun _ u hu => ⟨u.run, by simpa [State.unit?, h] using hu⟩

theorem KeepsUnits.refl (s : State) : KeepsUnits s s := .of_units_eq rfl

theorem KeepsUnits.trans {s t w : State} (h : KeepsUnits s t) (h' : KeepsUnits t w) : KeepsUnits s w := by
  intro i u hu
  obtain ⟨r, hr⟩ := h i u hu
  obtain ⟨r', hr'⟩ := h' i _ hr
  exact ⟨r', hr'⟩

theorem KeepsUnits.modUnit_modRun (s : State) (j : Uid) (f : RunSt → RunSt) :
    KeepsUnits s (s.modUnit j fun u => u.modRun f) := by
  intro i u hu
  by_cases h : j = i
  · subst h
    exact ⟨f u.run, State.unit?_modUnit_self hu⟩
  · exact ⟨u.run, (State.unit?_modUnit_ne h).trans hu⟩

theorem KeepsUnits.of_units_set {s t : State} {j : Uid} {u : UnitSt} {f : RunSt → RunSt} (h : s.unit? j = some u)
    (ht : t.units = (s.setUnit j (u.modRun f)).units) : KeepsUnits s t := by
  intro i v hv
  rw [State.unit?, ht]
  by_cases hij : j = i
  · subst hij
    obtain rfl : u = v := Option.some.inj (h.symm.trans hv)
    exact ⟨f u.run, State.unit?_setUnit_self h⟩
  · exact ⟨v.run, (State.unit?_setUnit_ne hij).trans hv⟩

theorem KeepsUnits.of_units_append {s t : State} {l : List UnitSt} (h : t.units = s.units ++ l) : KeepsUnits s t := by
  intro i u hu
  have hi : i < s.units.length := (List.getElem?_eq_some_iff.mp hu).1
  refine ⟨u.run, ?_⟩
  rw [State.unit?, h, List.getElem?_append_left hi]
  exact hu

theorem KeepsUnits.ite {c : Prop} [Decidable c] {s t w : State} (h : KeepsUnits s t) (h' : KeepsUnits s w) :
    KeepsUnits s (if c then t else w) := by
  split
  · exact h
  · exact h'

@[simp] theorem recordEvent_units (s : State) (i : Uid) (k : RecKind) (tag : Nat) (v : Word) (r : Option FaultRec) :
    (recordEvent s i k tag v r).units = s.units := by
  unfold recordEvent
  split <;> rfl

@[simp] theorem endSegment_units (s : State) (i : Uid) (c : ClusterNo) : (endSegment s i c).units = s.units := by
  unfold endSegment
  dsimp only
  split <;> rfl

/-- A rebuilt order may ask for the pre-emption of the running unit. -/
theorem KeepsUnits.rebuildOrder (s : State) (c : ClusterNo) : KeepsUnits s (rebuildOrder s c) := by
  unfold Machine.rebuildOrder
  dsimp only
  split
  · exact .of_units_eq rfl
  · split
    · exact .of_units_eq rfl
    · split
      · exact .trans (.of_units_eq rfl) (.modUnit_modRun _ _ _)
      · exact .of_units_eq rfl

theorem KeepsUnits.startPrompter (s : State) (k : Context) (slot : BitVec 6) (c : ClusterNo) (i : Uid) :
    KeepsUnits s (startPrompter s k slot c i) := .of_units_append rfl

theorem KeepsUnits.placeFrozen (s : State) (i : Uid) (u : UnitSt) : KeepsUnits s (placeFrozen s i u) := by
  unfold Machine.placeFrozen
  dsimp only
  split
  · exact .modUnit_modRun _ _ _
  · split
    · exact .modUnit_modRun _ _ _
    · split
      · exact .modUnit_modRun _ _ _
      · split
        · exact .trans (.modUnit_modRun _ _ _) (.startPrompter _ _ _ _ _)
        · exact .trans (.modUnit_modRun _ _ _) (.of_units_eq rfl)

theorem KeepsUnits.freeze (s : State) (i : Uid) (r : FaultRec) : KeepsUnits s (freeze s i r) := by
  unfold Machine.freeze
  split
  · exact .refl s
  · next u hu =>
    dsimp only
    refine .trans (.trans (.of_units_set hu (f := ?_) ?noted) (.ite (.modUnit_modRun _ _ _) (.placeFrozen _ _ _)))
      (.rebuildOrder _ _)
    case noted =>
      rw [endSegment_units, State.modCtx_units, State.setUnit_units, State.setUnit_units]
      refine congrArg (List.set · i _) ?_
      split
      · exact recordEvent_units ..
      · split
        · exact recordEvent_units ..
        · rfl

theorem KeepsUnits.freezeAtIssue (s : State) (c : BitVec 8) (a : Va) : KeepsUnits s (freezeAtIssue s c a) := by
  unfold Machine.freezeAtIssue
  split
  · exact .refl s
  · exact .freeze _ _ _

/-- A slot that faults leaves the writes in flight of every unit in its record. -/
theorem faulted_pend {s : State} {u : UnitSt} {i : Uid} (h : s.unit? i = some u) (c : BitVec 8) (a : Va) :
    ∃ v, (faulted s c a).unit? i = some v ∧ v.pend = u.pend := by
  obtain ⟨r, hr⟩ := KeepsUnits.freezeAtIssue s c a i u h
  exact ⟨_, hr, rfl⟩

/-! ### Checks that pass are passed over (R33) -/

theorem firstFail_noLend {s : State} {u : UnitSt} (h : Unlent s) (l : List SlotResult) :
    firstFail (noLend s u :: l) = firstFail l := by
  rw [noLend_of_unlent h, firstFail_done]

theorem firstFail_stallCheck {u : UnitSt} {reads : List Dest} {writes : List (Dest × Nat)} (h : NoHazard u reads writes)
    (l : List SlotResult) : firstFail (stallCheck u reads writes :: l) = firstFail l := by
  rw [stallCheck_of_noHazard h, firstFail_done]

/-- The checks of a slot that has no others. -/
theorem firstFail_noLend_stallCheck {s : State} {u : UnitSt} {reads : List Dest} {writes : List (Dest × Nat)}
    (hl : Unlent s) (hn : NoHazard u reads writes) : firstFail [noLend s u, stallCheck u reads writes] = .done := by
  rw [firstFail_noLend hl, firstFail_stallCheck hn, firstFail_nil]

/-! ### Runs of entries in the record (R79) -/

/-- Entries for registers that discard no write follow the record in order, each with the bundle that issued the first. -/
theorem foldl_push_mkEntry (s : State) (dest : Nat → Dest) (val : Nat → BitVec 512) {l : List Nat} (u : UnitSt)
    (h : ∀ k ∈ l, (dest k).discarded = false) :
    l.foldl (fun u k => u.push (mkEntry s u (dest k) (val k) 1 0)) u =
      { u with pend := u.pend ++ (l.map fun k => mkEntry s u (dest k) (val k) 1 0) } := by
  induction l generalizing u with
  | nil => simp
  | cons k l ih =>
    obtain ⟨hk, hl⟩ := List.forall_mem_cons.mp h
    rw [List.foldl_cons, push_kept hk, ih _ hl]
    simp [mkEntry]

/-- A write to p1 to p7 (R86). -/
theorem pushPreds_eq (s : State) (u : UnitSt) (x : Word) :
    pushPreds s u x = { u with pend := u.pend ++ ([1, 2, 3, 4, 5, 6, 7].map fun k =>
      mkEntry s u (.pred (BitVec.ofNat 3 k)) ((BitVec.ofBool (x.getLsbD k)).setWidth 512) 1 0) } :=
  foldl_push_mkEntry s _ _ u (by decide)

/-! ### Divisions (R84) -/

theorem sdiv_eq_ofInt_tdiv (x y : Word) : x.sdiv y = BitVec.ofInt 64 (x.toInt.tdiv y.toInt) :=
  BitVec.eq_of_toInt_eq (by rw [BitVec.toInt_sdiv, BitVec.toInt_ofInt])

theorem udiv_eq_ofNat_div (x y : Word) : x / y = BitVec.ofNat 64 (x.toNat / y.toNat) := by
  rw [← BitVec.toNat_udiv, BitVec.ofNat_toNat, BitVec.setWidth_eq]

theorem srem_eq_ofInt_sub (x y : Word) :
    x.srem y = BitVec.ofInt 64 (x.toInt - x.toInt.tdiv y.toInt * y.toInt) := by
  rw [Int.mul_comm, ← Int.tmod_def, ← BitVec.toInt_srem, BitVec.ofInt_toInt]

theorem umod_eq_ofNat_sub (x y : Word) :
    x % y = BitVec.ofNat 64 (x.toNat - x.toNat / y.toNat * y.toNat) := by
  rw [← Nat.mod_eq_sub_div_mul, ← BitVec.toNat_umod, BitVec.ofNat_toNat, BitVec.setWidth_eq]

/-- Each division of R84 is the shared form with R84's own arithmetic. -/
theorem exec_divForm {r : RRForm} (hr : r ∈ divForms) (s : State) (d a b : BitVec 6) (g : BitVec 3) (i : BitVec 1) :
    exec (r.ins d a b g i) s = scalarDiv r.f d a b g i s := by
  simp only [divForms, List.mem_cons, List.not_mem_nil, or_false] at hr
  obtain rfl | rfl | rfl | rfl := hr
  · exact congrArg (scalarDiv · d a b g i s) (funext₂ sdiv_eq_ofInt_tdiv)
  · exact congrArg (scalarDiv · d a b g i s) (funext₂ udiv_eq_ofNat_div)
  · exact congrArg (scalarDiv · d a b g i s) (funext₂ srem_eq_ofInt_sub)
  · exact congrArg (scalarDiv · d a b g i s) (funext₂ umod_eq_ofNat_sub)

section
variable {s : State} {u : UnitSt} {d a b : BitVec 6} {g : BitVec 3} {i : BitVec 1}

theorem scalarDiv_done {f : Word → Word → Word} (hu : AtIssue s u) (hl : Unlent s)
    (hn : NoHazard u [.pred g, .scalar a, .scalar b] [(.scalar d, 18)]) (hb : u.reg b ≠ 0) :
    scalarDiv f d a b g i s =
      .next (done (if guardHolds u g i then schedScalar s s.issue.me u d (f (u.reg a) (u.reg b)) 18 else s)) :=
  runSlot_done hu (by rw [firstFail_noLend hl, firstFail_stallCheck hn, beq_false_of_ne hb]; rfl)

theorem scalarDiv_zero {f : Word → Word → Word} (hu : AtIssue s u) (hl : Unlent s)
    (hn : NoHazard u [.pred g, .scalar a, .scalar b] [(.scalar d, 18)]) (hb : u.reg b = 0) :
    scalarDiv f d a b g i s = .next (faulted s cDivZero u.bundleVa) :=
  runSlot_fault hu (by rw [firstFail_noLend hl, firstFail_stallCheck hn, beq_iff_eq.mpr hb]; rfl)

end

/-- Settles O12: the divisions are one shared form, and a freeze keeps every unit's record. -/
theorem divisions : Obligations.Divisions := by
  intro r hr s u d a b g i hu hl hn
  rw [exec_divForm hr]
  exact ⟨scalarDiv_done hu hl hn, scalarDiv_zero hu hl hn, faulted_pend hu⟩

/-! ### Compares and predicate operations (R85 to R87) -/

/-- Each compare of R85 is the shared form with the order of the integers that the words stand for. -/
theorem exec_cmpForm {r : CmpForm} (hr : r ∈ cmpForms) (s : State) (p : BitVec 3) (a b : BitVec 6) (g : BitVec 3)
    (i : BitVec 1) : exec (r.ins p a b g i) s = scalarCmp r.f p a b g i s := by
  simp only [cmpForms, List.mem_cons, List.not_mem_nil, or_false] at hr
  obtain rfl | rfl | rfl | rfl | rfl | rfl := hr
  · exact congrArg (scalarCmp · p a b g i s) (funext₂ fun x y => beq_eq_decide x y)
  · exact congrArg (scalarCmp · p a b g i s) (funext₂ fun x y => by rw [bne, beq_eq_decide, ← decide_not])
  · rfl
  · rfl
  · rfl
  · rfl

theorem exec_predForm {r : PredForm} (hr : r ∈ predForms) (s : State) (p : BitVec 3) (a b : BitVec 6) (g : BitVec 3)
    (i : BitVec 1) : exec (r.ins p a b g i) s = predOp r.f p a b g i s := by
  simp only [predForms, List.mem_cons, List.not_mem_nil, or_false] at hr
  obtain rfl | rfl | rfl := hr <;> rfl

/-- PNOT is the shared form of two sources, of which it reads the first. -/
theorem exec_pnot_predOp (s : State) (p : BitVec 3) (a : BitVec 6) (g : BitVec 3) (i : BitVec 1) :
    exec (.pnot p a g i) s = predOp (fun x _ => !x) p a 0 g i s := exec_pnot s

/-- MOVP's value in the arithmetic of R86. -/
theorem setWidth_append_predByte (u : UnitSt) :
    (u.regs.ps ++ u.predByte : BitVec 16).setWidth 64 =
      BitVec.ofNat 64 (u.regs.ps.toNat * 256 + (u.regs.p ||| 1).toNat) := by
  rw [← BitVec.ofNat_toNat, BitVec.toNat_append, ← Nat.shiftLeft_add_eq_or_of_lt u.predByte.isLt, Nat.shiftLeft_eq]
  rfl

section
variable {s : State} {u : UnitSt} {p g : BitVec 3} {d a b : BitVec 6} {i : BitVec 1}

theorem scalarCmp_done {f : Word → Word → Bool} (hu : AtIssue s u) (hl : Unlent s)
    (hn : NoHazard u [.pred g, .scalar a, .scalar b] [(.pred p, 1)]) :
    scalarCmp f p a b g i s =
      .next (done (if guardHolds u g i then schedPred s s.issue.me u p (f (u.reg a) (u.reg b)) 1 else s)) :=
  runSlot_done hu (firstFail_noLend_stallCheck hl hn)

theorem predOp_done {f : Bool → Bool → Bool} (hu : AtIssue s u) (hl : Unlent s)
    (hn : NoHazard u [.pred g, predDest a, predDest b] [(.pred p, 1)]) (ha : a.toNat < 16) (hb : b.toNat < 16) :
    predOp f p a b g i s =
      .next (done (if guardHolds u g i then schedPred s s.issue.me u p (f (predSource u a) (predSource u b)) 1 else s)) :=
  have hs : (decide (16 ≤ a.toNat) || decide (16 ≤ b.toNat)) = false := by simp [ha, hb]
  runSlot_done hu (by rw [firstFail_noLend hl, hs, illegalIf_false, firstFail_done, firstFail_stallCheck hn, firstFail_nil])

theorem predOp_illegal {f : Bool → Bool → Bool} (hu : AtIssue s u) (hl : Unlent s) (h : 16 ≤ a.toNat ∨ 16 ≤ b.toNat) :
    predOp f p a b g i s = .next (faulted s cIllegalOp u.bundleVa) :=
  have hs : (decide (16 ≤ a.toNat) || decide (16 ≤ b.toNat)) = true := by simpa using h
  runSlot_fault hu (by rw [firstFail_noLend hl, hs, illegalIf_true, firstFail_fault])

theorem exec_sel_done (hu : AtIssue s u) (hl : Unlent s) (hn : NoHazard u [.pred p, .scalar a, .scalar b] [(.scalar d, 1)]) :
    exec (.sel d a b p i) s =
      .next (done (schedScalar s s.issue.me u d (if guardHolds u p i then u.reg a else u.reg b) 1)) :=
  (exec_sel s).trans (runSlot_done hu (firstFail_noLend_stallCheck hl hn))

theorem exec_movp_done (hu : AtIssue s u) (hl : Unlent s) (hn : NoHazard u (.pred g :: allPreds) [(.scalar d, 1)]) :
    exec (.movp d g i) s = .next (done (if guardHolds u g i then
      schedScalar s s.issue.me u d (BitVec.ofNat 64 (u.regs.ps.toNat * 256 + (u.regs.p ||| 1).toNat)) 1 else s)) := by
  rw [← setWidth_append_predByte]
  exact (exec_movp s).trans (runSlot_done hu (firstFail_noLend_stallCheck hl hn))

theorem exec_movtp_done (hu : AtIssue s u) (hl : Unlent s)
    (hn : NoHazard u [.pred g, .scalar a] ((List.range 8).map fun k => (Dest.pred (BitVec.ofNat 3 k), 1))) :
    exec (.movtp a g i) s =
      .next (done (if guardHolds u g i then s.setUnit s.issue.me (pushPreds s u (u.reg a)) else s)) :=
  (exec_movtp s).trans (runSlot_done hu (firstFail_noLend_stallCheck hl hn))

end

/-- Settles O13: each form by its shared form; MOVTP's effect by the guard. -/
theorem comparesAndPredicates : Obligations.ComparesAndPredicates := by
  refine ⟨?cmp, ⟨?pred, ?pnot⟩, ?illegal, ?sel, ?movp, ?movtp⟩
  case cmp =>
    intro r hr s u p a b g i hu hl hn
    rw [exec_cmpForm hr, scalarCmp_done hu hl hn]
  case pred =>
    intro r hr s u p a b g i hu hl hn ha hb
    rw [exec_predForm hr, predOp_done hu hl hn ha hb]
  case pnot =>
    intro s u p a g i hu hl hn ha
    rw [exec_pnot_predOp, predOp_done hu hl hn ha (by decide)]
  case illegal =>
    intro s u p a b g i hu hl
    refine ⟨fun r hr h => ?_, fun h => ?_⟩
    · rw [exec_predForm hr, predOp_illegal hu hl h]
    · rw [exec_pnot_predOp, predOp_illegal hu hl (.inl h)]
  case sel => exact fun s u d a b p n hu hl hn => exec_sel_done hu hl hn
  case movp => exact fun s u d g i hu hl hn => exec_movp_done hu hl hn
  case movtp =>
    intro s u a g i hu hl hn
    refine ⟨_, exec_movtp_done hu hl hn, fun hg => by simp [hg], fun hg => ?_⟩
    rw [if_pos hg, pushPreds_eq]

/-! ### Transfers (R92, R93) -/

/-- The displacement in the arithmetic of R92. -/
theorem dispTarget_eq (u : UnitSt) (d : BitVec 20) :
    dispTarget u d = u.flow.pc.addr + BitVec.ofInt 64 (16 * d.toInt) := by
  rw [dispTarget, BitVec.shiftLeft_eq_mul_twoPow, Int.mul_comm, BitVec.ofInt_mul]
  rfl

/-- An address is a multiple of 16 when its low four bits are clear. -/
theorem extractLsb'_bne_zero (x : Word) : (x.extractLsb' 0 4 != 0) = decide (x.toNat % 16 ≠ 0) := by
  have h : x.extractLsb' 0 4 = 0 ↔ x.toNat % 16 = 0 := by
    rw [← BitVec.toNat_inj]
    simp
  rw [bne, beq_eq_decide, ← decide_not, decide_eq_decide, h]

theorem transferTo_jump (s : State) (u : UnitSt) (x : BitVec 64) (taken brn : Bool) :
    transferTo s u x taken brn false = s.setIssue { s.issue with xfer := some ⟨x, taken, brn, false⟩ } := by
  simp [transferTo]

theorem transferTo_call (s : State) (u : UnitSt) (x : BitVec 64) (taken : Bool) :
    transferTo s u x taken false true =
      (let t := s.setIssue { s.issue with xfer := some ⟨x, taken, false, true⟩ }
       if taken then schedScalar t s.issue.me u 63 (u.flow.pc.addr + 48) 1 else t) := by
  simp [transferTo]

section
variable {s : State} {u : UnitSt} {brn call : Bool} {p : BitVec 3} {i : BitVec 1} {d : BitVec 20} {r : BitVec 6}

theorem relTransfer_done (hu : AtIssue s u) (hl : Unlent s) (he : atLoopEnd u = false)
    (hn : NoHazard u [.pred p] (if call then [(.scalar 63, 1)] else [])) :
    relTransfer brn call p i d s =
      .next (done (transferTo s u (u.flow.pc.addr + BitVec.ofInt 64 (16 * d.toInt)) (guardHolds u p i) brn call)) := by
  rw [← dispTarget_eq]
  exact runSlot_done hu (by rw [firstFail_noLend hl, he, illegalIf_false, firstFail_done, firstFail_stallCheck hn, firstFail_nil])

theorem relTransfer_atLoopEnd (hu : AtIssue s u) (hl : Unlent s) (he : atLoopEnd u = true) :
    relTransfer brn call p i d s = .next (faulted s cIllegalOp u.bundleVa) :=
  runSlot_fault hu (by rw [firstFail_noLend hl, he, illegalIf_true, firstFail_fault])

theorem regTransfer_done (hu : AtIssue s u) (hl : Unlent s) (he : atLoopEnd u = false)
    (ha : guardHolds u p i = true → (u.reg r).toNat % 16 = 0)
    (hn : NoHazard u [.pred p, .scalar r] (if call then [(.scalar 63, 1)] else [])) :
    regTransfer call p i r s = .next (done (transferTo s u (u.reg r) (guardHolds u p i) false call)) := by
  have hm : (guardHolds u p i && (u.reg r).extractLsb' 0 4 != 0) = false := by
    rw [extractLsb'_bne_zero]
    simpa using ha
  exact runSlot_done hu (by
    rw [firstFail_noLend hl, he, illegalIf_false, firstFail_done, firstFail_stallCheck hn, hm, failIf_false, firstFail_done,
      firstFail_nil])

theorem regTransfer_misaligned (hu : AtIssue s u) (hl : Unlent s) (he : atLoopEnd u = false)
    (hg : guardHolds u p i = true) (ha : (u.reg r).toNat % 16 ≠ 0)
    (hn : NoHazard u [.pred p, .scalar r] (if call then [(.scalar 63, 1)] else [])) :
    regTransfer call p i r s = .next (faulted s cMisaligned (u.flow.pchi ++ u.reg r)) := by
  have hm : (guardHolds u p i && (u.reg r).extractLsb' 0 4 != 0) = true := by
    rw [extractLsb'_bne_zero, hg, decide_eq_true ha, Bool.and_self]
  exact runSlot_fault hu (by
    rw [firstFail_noLend hl, he, illegalIf_false, firstFail_done, firstFail_stallCheck hn, hm, failIf_true, firstFail_fault])

theorem regTransfer_atLoopEnd (hu : AtIssue s u) (hl : Unlent s) (he : atLoopEnd u = true) :
    regTransfer call p i r s = .next (faulted s cIllegalOp u.bundleVa) :=
  runSlot_fault hu (by rw [firstFail_noLend hl, he, illegalIf_true, firstFail_fault])

end

/-- Settles O19: the five transfers are two shared forms, each of which completes, faults at a loop's end, or, with its target
in a register, faults for the target. -/
theorem transfers : Obligations.Transfers := by
  refine ⟨fun s u p i d hu hl => ⟨fun he => ⟨fun hn => ⟨?br, ?brn⟩, fun hn => ?call⟩, fun he j hj => ?relEnd⟩,
    fun s u p i r hu hl => ⟨fun he ha => ⟨fun hn => ?jr, fun hn => ?callr⟩,
      fun he hg ha => ⟨fun hn => ?jrBad, fun hn => ?callrBad⟩, fun he => ⟨?jrEnd, ?callrEnd⟩⟩⟩
  case br => rw [← transferTo_jump]; exact relTransfer_done hu hl he hn
  case brn => rw [← transferTo_jump]; exact relTransfer_done hu hl he hn
  case call => rw [← transferTo_call]; exact relTransfer_done hu hl he hn
  case relEnd =>
    simp only [List.mem_cons, List.not_mem_nil, or_false] at hj
    obtain rfl | rfl | rfl := hj <;> exact relTransfer_atLoopEnd hu hl he
  case jr => rw [← transferTo_jump]; exact regTransfer_done hu hl he ha hn
  case callr => rw [← transferTo_call]; exact regTransfer_done hu hl he ha hn
  case jrBad => exact regTransfer_misaligned hu hl he hg ha hn
  case callrBad => exact regTransfer_misaligned hu hl he hg ha hn
  case jrEnd => exact regTransfer_atLoopEnd hu hl he
  case callrEnd => exact regTransfer_atLoopEnd hu hl he

/-! ### Stage predicates, idle cycles and traps (R31, R99, R100, R104, R105) -/

/-- STGP's word, with its initial values in [19:12] (R99). -/
theorem encode_stgp (p : BitVec 8) : encode (.stgp p) = 0x39000000 ||| (p.setWidth 32 <<< 12) := by
  revert p
  decide

section
variable {s : State} {u : UnitSt} {p : BitVec 3} {i : BitVec 1}

theorem exec_stgp_done {v : BitVec 8} (hu : AtIssue s u) (hl : Unlent s)
    (hn : NoHazard u [] ((List.range 8).map fun i => (Dest.stage (BitVec.ofNat 3 i), 1))) :
    exec (.stgp v) s = .next (done (s.setUnit s.issue.me { u with pend := u.pend ++
      ((List.range 8).map fun i =>
        mkEntry s u (.stage (BitVec.ofNat 3 i)) ((BitVec.ofBool (v.getLsbD i)).setWidth 512) 1 0) })) := by
  rw [← foldl_push_mkEntry s _ _ u (fun _ _ => rfl)]
  exact (exec_stgp s).trans (runSlot_done hu (firstFail_noLend_stallCheck hl hn))

theorem exec_trap_taken {c : BitVec 8} (hu : AtIssue s u) (hl : Unlent s) (hn : NoHazard u [.pred p] [])
    (hg : guardHolds u p i = true) : exec (.trap p i c) s = .next (faulted s cTrap (BitVec.ofNat 80 c.toNat)) := by
  rw [BitVec.ofNat_toNat]
  exact (exec_trap s).trans (runSlot_fault hu (by
    rw [firstFail_noLend hl, firstFail_stallCheck hn, hg, failIf_true, firstFail_fault]))

theorem exec_trap_not_taken {c : BitVec 8} (hu : AtIssue s u) (hl : Unlent s) (hn : NoHazard u [.pred p] [])
    (hg : guardHolds u p i = false) : exec (.trap p i c) s = .next (done s) :=
  (exec_trap s).trans (runSlot_done hu (by
    rw [firstFail_noLend hl, firstFail_stallCheck hn, hg, failIf_false, firstFail_done, firstFail_nil]))

theorem exec_brk_fault {t : BitVec 20} (hu : AtIssue s u) (hl : Unlent s) :
    exec (.brk t) s = .next (faulted s cBreak (BitVec.ofNat 80 t.toNat)) := by
  rw [BitVec.ofNat_toNat]
  exact (exec_brk s).trans (runSlot_fault hu (by rw [firstFail_noLend hl, firstFail_fault]))

end

/-- Settles O22: the checks of each slot pass or name its fault; STGP's word decodes as the encoding that it is. -/
theorem stagesAndTraps : Obligations.StagesAndTraps := by
  refine ⟨fun s u hu => ⟨?stgp, ?nops, ?endseg, ?nop⟩, ?decodes,
    fun s u p i c t hu hl => ⟨fun hn => ⟨?taken, ?notTaken⟩, ?brk⟩⟩
  case stgp => exact fun v hl hn => exec_stgp_done hu hl hn
  case nops => exact fun n hl => (exec_nops s).trans (runSlot_done hu (noLend_of_unlent hl))
  case endseg => exact fun hl => (exec_endseg s).trans (runSlot_done hu (noLend_of_unlent hl))
  case nop => exact (exec_nop s).trans (runSlot_done hu rfl)
  case decodes =>
    intro v
    rw [← encode_stgp]
    exact Laws.Encoding.stgp v rfl
  case taken => exact exec_trap_taken hu hl hn
  case notTaken => exact exec_trap_not_taken hu hl hn
  case brk => exact exec_brk_fault hu hl

end Sys2Proof.Sequencer
end

section
/-! PROOFS.
The vector family (chapter 05): V.INT, VPERM and the moves of V.XFER.  The rules that the settling theorem cites come first:
the lanes of a vector built from its lanes, a vector slot whose checks pass, and the arithmetic of R149 and R152 against the
model's bit-vector operations. -/

namespace Sys2Proof.Vector

open Sys2Proof.Machine Sys2Proof.Safety Sys2Proof.Sequencer

/-! ### The lanes of a vector built from its lanes (R133) -/

/-- A lane put in place n shows in lane n and in no other. -/
theorem extractLsb'_setWidth_shiftLeft {w n W : Nat} (x : BitVec w) (k : Nat) (h : w * (n + 1) ≤ W) :
    (x.setWidth W <<< (w * n)).extractLsb' (w * k) w = if k = n then x else 0 := by
  apply BitVec.eq_of_getLsbD_eq
  intro i hi
  obtain hkn | rfl | hnk := Nat.lt_trichotomy k n
  · have hlow : w * k + i < w * n := Nat.lt_of_lt_of_le (Nat.add_lt_add_left hi _) (Nat.mul_le_mul_left w hkn)
    simp [Nat.ne_of_lt hkn, hlow]
  · have hfit : w * k + i < W := by rw [Nat.mul_succ] at h; omega
    simp [hi, hfit]
  · have hhigh : w ≤ w * k + i - w * n := by
      have := Nat.mul_le_mul_left w hnk
      rw [Nat.mul_succ] at this
      omega
    simp [Nat.ne_of_gt hnk, BitVec.getLsbD_of_ge x _ hhigh]

/-- Lanes put side by side are read back each from its place. -/
theorem extractLsb'_foldl_lanes {w W n : Nat} (f : Nat → BitVec w) (k : Nat) (h : w * n ≤ W) :
    ((List.range n).foldl (fun acc i => acc ||| ((f i).setWidth W <<< (w * i))) 0).extractLsb' (w * k) w =
      if k < n then f k else 0 := by
  induction n with
  | zero => simp
  | succ n ih =>
    have hn : w * n ≤ W := Nat.le_trans (Nat.mul_le_mul_left w n.le_succ) h
    rw [List.range_succ, List.foldl_append, List.foldl_cons, List.foldl_nil, BitVec.extractLsb'_or, ih hn,
      extractLsb'_setWidth_shiftLeft (f n) k h]
    obtain hkn | rfl | hnk := Nat.lt_trichotomy k n
    · simp [hkn, Nat.ne_of_lt hkn, Nat.lt_succ_of_lt hkn]
    · simp
    · simp [Nat.not_lt.2 hnk.le, Nat.ne_of_gt hnk, Nat.not_lt.2 (Nat.succ_le_of_lt hnk)]

@[simp] theorem lane32_vec32 (f : Nat → BitVec 32) {i : Nat} (h : i < 16) : lane32 (vec32 f) i = f i :=
  (extractLsb'_foldl_lanes f i (by decide)).trans (if_pos h)

@[simp] theorem lane64_vec64 (f : Nat → BitVec 64) {j : Nat} (h : j < 8) : lane64 (vec64 f) j = f j :=
  (extractLsb'_foldl_lanes f j (by decide)).trans (if_pos h)

@[simp] theorem lane32_lanes32 (f : Nat → BitVec 32 × BitVec 5) {i : Nat} (h : i < 16) : lane32 (lanes32 f).1 i = (f i).1 := by
  simp [lanes32, h]

/-- Lanes that raise nothing raise nothing together. -/
theorem lanes32_no_flags (f : Nat → BitVec 32) : (lanes32 fun i => (f i, 0)).2 = 0 := by
  simp only [lanes32, List.foldl_map]
  exact List.foldl_fixed' (fun _ => BitVec.or_zero) _

/-! ### A vector slot whose checks pass (R40, R62, R134) -/

section
variable {s : State} {u : UnitSt}

theorem vectorChecks_done {misuse : Bool} {reads : List Dest} {writes : List (Dest × Nat)}
    (hrm : (lendRm s.issue.lend).toNat < 6) (hm : misuse = false) (hn : NoHazard u reads writes) :
    vectorChecks s u misuse reads writes = .done := by
  rw [vectorChecks, hm, Bool.or_false, decide_eq_false (Nat.not_le.2 hrm), illegalIf_false, firstFail_done,
    firstFail_stallCheck hn, firstFail_nil]

theorem vectorSlot_done {misuse : Issue → Bool} {reads : Issue → List VOperand} {dest : Issue → VOperand} {lat : Nat}
    {can : BitVec 5} {f : Issue → UnitSt → BitVec 512 × BitVec 5} (hu : AtIssue s u)
    (hrm : (lendRm s.issue.lend).toNat < 6) (hm : misuse s.issue = false)
    (hn : NoHazard u ((reads s.issue).map VOperand.dest) [((dest s.issue).dest, slowLat lat (reads s.issue))]) :
    vectorSlot misuse reads dest lat can f s = .next (vectorDone s u (reads s.issue) (dest s.issue).dest (f s.issue u).1
      (slowLat lat (reads s.issue)) can (f s.issue u).2) := by
  unfold vectorSlot
  exact runSlot_done hu (vectorChecks_done hrm hm hn)

/-- A slot that computes sixteen lanes and raises nothing. -/
theorem vectorSlot_lanes32_done {misuse : Issue → Bool} {reads : Issue → List VOperand} {dest : Issue → VOperand} {lat : Nat}
    {can : BitVec 5} {f : Issue → UnitSt → Nat → BitVec 32} (hu : AtIssue s u)
    (hrm : (lendRm s.issue.lend).toNat < 6) (hm : misuse s.issue = false)
    (hn : NoHazard u ((reads s.issue).map VOperand.dest) [((dest s.issue).dest, slowLat lat (reads s.issue))]) :
    vectorSlot misuse reads dest lat can (fun is u => lanes32 fun i => (f is u i, 0)) s =
      .next (vectorDone s u (reads s.issue) (dest s.issue).dest (lanes32 fun i => (f s.issue u i, 0)).1
        (slowLat lat (reads s.issue)) can 0) := by
  rw [vectorSlot_done hu hrm hm hn, lanes32_no_flags]

theorem lendRm_lt_six (h : lendRm s.issue.lend = 0) : (lendRm s.issue.lend).toNat < 6 := by simp [h]

theorem intMisuse_eq_false {l : BitVec 8} (hrm : lendRm l = 0) (hf : lendFmt l = 0) :
    (lendRm l != 0 || lendFmt l != 0) = false := by
  simp [hrm, hf]

theorem xferExact_eq_false {l : BitVec 8} (hrm : lendRm l = 0) (hf : lendFmt l = 0) (hb : lendTb l = false) :
    xferExact l = false := by
  simp [xferExact, hrm, hf, hb]

end

/-! ### The lanes of V.INT (R149) -/

theorem add_eq_ofNat_add (a b : BitVec 32) : a + b = BitVec.ofNat 32 (a.toNat + b.toNat) := by
  simp [BitVec.ofNat_add]

theorem sub_eq_ofInt_sub (a b : BitVec 32) : a - b = BitVec.ofInt 32 (a.toNat - b.toNat) := by
  rw [BitVec.sub_eq_add_neg, Int.sub_eq_add_neg, BitVec.ofInt_add, BitVec.ofInt_neg]
  simp

theorem mul_eq_ofNat_mul (a b : BitVec 32) : a * b = BitVec.ofNat 32 (a.toNat * b.toNat) := by
  simp [BitVec.ofNat_mul]

theorem add_mul_eq_ofNat (c a b : BitVec 32) : c + a * b = BitVec.ofNat 32 (c.toNat + a.toNat * b.toNat) := by
  simp [BitVec.ofNat_add, BitVec.ofNat_mul]

/-- The shift count n (R149). -/
theorem toNat_low_five (b : BitVec 32) : (b.extractLsb' 0 5).toNat = b.toNat % 32 := BitVec.extractLsb'_toNat 0 5 b

/-- The number of the lane that VPERM selects (R149). -/
theorem toNat_low_four (b : BitVec 32) : (b.extractLsb' 0 4).toNat = b.toNat % 16 := BitVec.extractLsb'_toNat 0 4 b

theorem shl_eq_ofNat_mul (a b : BitVec 32) :
    a <<< (b.extractLsb' 0 5).toNat = BitVec.ofNat 32 (a.toNat * 2 ^ (b.toNat % 32)) := by
  rw [toNat_low_five]
  exact BitVec.eq_of_toNat_eq (by simp [Nat.shiftLeft_eq])

theorem shr_eq_ofNat_div (a b : BitVec 32) :
    a >>> (b.extractLsb' 0 5).toNat = BitVec.ofNat 32 (a.toNat / 2 ^ (b.toNat % 32)) := by
  rw [toNat_low_five, ← Nat.shiftRight_eq_div_pow, ← BitVec.toNat_ushiftRight, BitVec.ofNat_toNat, BitVec.setWidth_eq]

theorem sar_eq_ofInt_div (a b : BitVec 32) :
    a.sshiftRight (b.extractLsb' 0 5).toNat = BitVec.ofInt 32 (a.toInt / 2 ^ (b.toNat % 32)) := by
  rw [toNat_low_five, ← BitVec.ofInt_toInt (x := a.sshiftRight _), BitVec.toInt_sshiftRight, Int.shiftRight_eq_div_pow,
    Nat.cast_pow]
  rfl

theorem ite_slt {α : Type} (a b : BitVec 32) (x y : α) :
    (if a.slt b then x else y) = if a.toInt < b.toInt then x else y :=
  if_congr BitVec.slt_iff_toInt_lt rfl rfl

theorem smin_eq_ofInt_min (a b : BitVec 32) : (if b.slt a then b else a) = BitVec.ofInt 32 (min a.toInt b.toInt) := by
  rw [ite_slt, min_comm, min_def_lt, apply_ite (BitVec.ofInt 32), BitVec.ofInt_toInt, BitVec.ofInt_toInt]

theorem smax_eq_ofInt_max (a b : BitVec 32) : (if a.slt b then b else a) = BitVec.ofInt 32 (max a.toInt b.toInt) := by
  rw [ite_slt, max_def_lt, apply_ite (BitVec.ofInt 32), BitVec.ofInt_toInt, BitVec.ofInt_toInt]

/-- VIADDS saturates at the ends of the signed range. -/
theorem saddSat_eq_ofInt_clamp (a b : BitVec 32) :
    saddSat a b = BitVec.ofInt 32 (max (-(2 ^ 31)) (min (2 ^ 31 - 1) (a.toInt + b.toInt))) := by
  simp only [saddSat]
  split
  · next h => rw [min_eq_left (by omega)]; rfl
  · next h =>
    rw [min_eq_right (by omega)]
    split
    · next h' => rw [max_eq_left (by omega)]; rfl
    · next h' => rw [max_eq_right (by omega)]

/-- Each form of V.INT is the shared slot with R149's own arithmetic. -/
theorem exec_intForm {r : IntForm} (hr : r ∈ intForms) (s : State) (d a b : BitVec 8) :
    exec (r.ins d a b) s = intSlot r.useD r.f d a b s := by
  simp only [intForms, List.mem_cons, List.not_mem_nil, or_false] at hr
  obtain rfl | rfl | rfl | rfl | rfl | rfl | rfl | rfl | rfl | rfl | rfl | rfl | rfl | rfl | rfl := hr
  · exact (exec_viadd s).trans (congrArg (intSlot false · d a b s) (funext₃ fun _ => add_eq_ofNat_add))
  · exact (exec_visub s).trans (congrArg (intSlot false · d a b s) (funext₃ fun _ => sub_eq_ofInt_sub))
  · exact (exec_vimul s).trans (congrArg (intSlot false · d a b s) (funext₃ fun _ => mul_eq_ofNat_mul))
  · exact (exec_vimad s).trans (congrArg (intSlot true · d a b s) (funext₃ add_mul_eq_ofNat))
  · exact exec_vand s
  · exact exec_vor s
  · exact exec_vxor s
  · exact (exec_vshl s).trans (congrArg (intSlot false · d a b s) (funext₃ fun _ => shl_eq_ofNat_mul))
  · exact (exec_vshr s).trans (congrArg (intSlot false · d a b s) (funext₃ fun _ => shr_eq_ofNat_div))
  · exact (exec_vsar s).trans (congrArg (intSlot false · d a b s) (funext₃ fun _ => sar_eq_ofInt_div))
  · exact (exec_vimin s).trans (congrArg (intSlot false · d a b s) (funext₃ fun _ => smin_eq_ofInt_min))
  · exact (exec_vimax s).trans (congrArg (intSlot false · d a b s) (funext₃ fun _ => smax_eq_ofInt_max))
  · exact exec_vicmpeq s
  · exact (exec_vicmplt s).trans (congrArg (intSlot false · d a b s) (funext₃ fun _ a b => ite_slt a b _ _))
  · exact (exec_viadds s).trans (congrArg (intSlot false · d a b s) (funext₃ fun _ => saddSat_eq_ofInt_clamp))

section
variable {s : State} {u : UnitSt} {d a b : BitVec 8}

theorem intSlot_done {useD : Bool} {f : BitVec 32 → BitVec 32 → BitVec 32 → BitVec 32} (hu : AtIssue s u)
    (hrm : lendRm s.issue.lend = 0) (hf : lendFmt s.issue.lend = 0) :
    let reads := [opA s.issue a, opB s.issue b] ++ (if useD then [opD s.issue d] else [])
    NoHazard u (reads.map VOperand.dest) [((opD s.issue d).dest, slowLat 2 reads)] →
    ∃ v, intSlot useD f d a b s = .next (vectorDone s u reads (opD s.issue d).dest v (slowLat 2 reads) 0 0) ∧
      ∀ i < 16, lane32 v i =
        f (lane32 (u.vec (opD s.issue d)) i) (lane32 (u.vec (opA s.issue a)) i) (lane32 (u.vec (opB s.issue b)) i) := by
  intro reads hn
  unfold intSlot
  exact ⟨_, vectorSlot_lanes32_done hu (lendRm_lt_six hrm) (intMisuse_eq_false hrm hf) hn, fun _ hi => lane32_lanes32 _ hi⟩

/-- VPERM takes the lanes of va as they stand at issue (R150). -/
theorem exec_vperm_done (hu : AtIssue s u) (hrm : lendRm s.issue.lend = 0) (hf : lendFmt s.issue.lend = 0) :
    let reads := [opA s.issue a, opB s.issue b]
    NoHazard u (reads.map VOperand.dest) [((opD s.issue d).dest, slowLat 2 reads)] →
    ∃ v, exec (.vperm d a b) s = .next (vectorDone s u reads (opD s.issue d).dest v (slowLat 2 reads) 0 0) ∧
      ∀ i < 16, lane32 v i = lane32 (u.vec (opA s.issue a)) ((lane32 (u.vec (opB s.issue b)) i).toNat % 16) := by
  intro reads hn
  refine ⟨_, (exec_vperm s).trans (vectorSlot_lanes32_done hu (lendRm_lt_six hrm) (intMisuse_eq_false hrm hf) hn),
    fun i hi => ?_⟩
  rw [lane32_lanes32 _ hi, toNat_low_four]

end

/-! ### The moves of V.XFER (R152) -/

/-- Lane k of VIOTA. -/
theorem signExtend_add_ofNat (i : BitVec 8) (k : Nat) : i.signExtend 32 + BitVec.ofNat 32 k = BitVec.ofInt 32 (i.toInt + k) := by
  rw [BitVec.ofInt_add, BitVec.ofInt_natCast]
  rfl

/-- The check that a wide element has an even number passes (R152). -/
theorem beq_and_odd_eq_false {v w : Nat} {x c : BitVec v} {k : BitVec w} (h : x = c → k.toNat % 2 = 0) :
    (x == c && k.getLsbD 0) = false := by
  rw [Bool.and_eq_false_imp, beq_iff_eq]
  intro hx
  simp [BitVec.getLsbD, h hx]

theorem lane32_bcst_zero (x : Word) {i : Nat} (hi : i < 16) : lane32 (bcst 0 x) i = BitVec.ofNat 32 (x.toNat % 2 ^ 16) :=
  (lane32_vec32 _ hi).trans (by rw [← BitVec.ofNat_toNat, BitVec.extractLsb'_toNat, Nat.shiftRight_zero])

theorem lane32_bcst_one (x : Word) {i : Nat} (hi : i < 16) : lane32 (bcst 1 x) i = BitVec.ofNat 32 x.toNat :=
  (lane32_vec32 _ hi).trans (by rw [BitVec.ofNat_toNat]; rfl)

theorem lane64_bcst_two (x : Word) {j : Nat} (hj : j < 8) : lane64 (bcst 2 x) j = x := lane64_vec64 _ hj

section
variable {s : State} {u : UnitSt} {d a : BitVec 8}

theorem exec_vmov_done (hu : AtIssue s u) (hrm : lendRm s.issue.lend = 0) (hx : xferExact s.issue.lend = false) :
    let o := opA s.issue a
    NoHazard u [o.dest] [((opD s.issue d).dest, slowLat 1 [o])] →
    exec (.vmov d a) s = .next (vectorDone s u [o] (opD s.issue d).dest (u.vec o) (slowLat 1 [o]) 0 0) :=
  fun hn => (exec_vmov s).trans (vectorSlot_done hu (lendRm_lt_six hrm) hx hn)

theorem exec_viota_done {i : BitVec 8} (hu : AtIssue s u) (hrm : lendRm s.issue.lend = 0)
    (hx : xferExact s.issue.lend = false) (ha : lendTa s.issue.lend = false)
    (hn : NoHazard u [] [((opD s.issue d).dest, 1)]) :
    exec (.viota d i) s = .next (vectorDone s u [] (opD s.issue d).dest
      (vec32 fun k => i.signExtend 32 + BitVec.ofNat 32 k) 1 0 0) :=
  (exec_viota s).trans (vectorSlot_done (reads := fun _ => []) hu (lendRm_lt_six hrm) (by rw [hx, ha]; rfl) hn)

theorem exec_vsplat_done {p : BitVec 1} {k : BitVec 4} (hu : AtIssue s u) (hrm : lendRm s.issue.lend = 0)
    (hx : xferExact s.issue.lend = false) (hk : p = 1 → k.toNat % 2 = 0) :
    let o := opA s.issue a
    NoHazard u [o.dest] [((opD s.issue d).dest, slowLat 1 [o])] →
    exec (.vsplat d a p k) s = .next (vectorDone s u [o] (opD s.issue d).dest
      (if p = 1 then vec64 fun _ => lane64 (u.vec o) (k.toNat / 2) else vec32 fun _ => lane32 (u.vec o) k.toNat)
      (slowLat 1 [o]) 0 0) :=
  fun hn => (exec_vsplat s).trans (vectorSlot_done hu (lendRm_lt_six hrm) (by rw [hx, beq_and_odd_eq_false hk]; rfl) hn)

theorem exec_vbcst_done {w : BitVec 8} (hu : AtIssue s u) (hrm : lendRm s.issue.lend = 0)
    (hx : xferExact s.issue.lend = false) (ha : lendTa s.issue.lend = false) (hw : w.toNat ≤ 2)
    (hn : NoHazard u [.scalar 62] [((opD s.issue d).dest, 1)]) :
    exec (.vbcst d w) s =
      .next (done (schedule (noteVector s [] 0 0 1) s.issue.me u (opD s.issue d).dest (bcst w (u.reg 62)) 1)) := by
  have hres : decide (2 < w.toNat) = false := decide_eq_false (Nat.not_lt.2 hw)
  exact (exec_vbcst s).trans (runSlot_done hu (vectorChecks_done (lendRm_lt_six hrm) (by rw [hx, ha, hres]; rfl) hn))

theorem exec_vext_done {m : BitVec 2} {k : BitVec 4} (hu : AtIssue s u) (hrm : lendRm s.issue.lend = 0)
    (hx : xferExact s.issue.lend = false) (hd : lendTd s.issue.lend = false) (hm : m ≠ 3) (hk : m = 2 → k.toNat % 2 = 0) :
    let o := opA s.issue a
    NoHazard u [o.dest] [(.scalar 62, slowLat 1 [o])] →
    exec (.vext a m k) s = .next (done (schedScalar (noteVector s [o] 0 0 (slowLat 1 [o])) s.issue.me u 62
      (if m = 0 then BitVec.ofNat 64 (lane32 (u.vec o) k.toNat).toNat
       else if m = 1 then BitVec.ofInt 64 (lane32 (u.vec o) k.toNat).toInt else lane64 (u.vec o) (k.toNat / 2))
      (slowLat 1 [o]))) := by
  intro o hn
  have hmis : (xferExact s.issue.lend || lendTd s.issue.lend || m == 3 || (m == 2 && k.getLsbD 0)) = false := by
    rw [hx, hd, beq_false_of_ne hm, beq_and_odd_eq_false hk]
    rfl
  have hmode : ∀ m : BitVec 2, m ≠ 3 → m = 0 ∨ m = 1 ∨ m = 2 := by decide
  rw [exec_vext, execVext, runSlot_done hu (vectorChecks_done (lendRm_lt_six hrm) hmis hn), BitVec.ofNat_toNat]
  obtain rfl | rfl | rfl := hmode m hm <;> rfl

end

/-- Settles O35: each form of V.INT is one shared slot of sixteen lanes without flags, and VPERM another; each move of V.XFER
passes its checks and enters its own vector. -/
theorem vectorIntegerAndMoves : Obligations.VectorIntegerAndMoves := by
  refine ⟨fun s u d a b hu hrm hf => ⟨fun r hr => ?int, exec_vperm_done hu hrm hf⟩, fun s u d a hu hrm hf hb => ?_⟩
  case int =>
    rw [exec_intForm hr]
    exact intSlot_done hu hrm hf
  have hx : xferExact s.issue.lend = false := xferExact_eq_false hrm hf hb
  refine ⟨exec_vmov_done hu hrm hx, fun i ha hn => ?viota, fun p k hk hn => ?vsplat, fun w hw ha hn => ?vbcst,
    fun m k hm hk hd => exec_vext_done hu hrm hx hd hm hk⟩
  case viota =>
    exact ⟨_, exec_viota_done hu hrm hx ha hn, fun k hk => (lane32_vec32 _ hk).trans (signExtend_add_ofNat i k)⟩
  case vsplat =>
    refine ⟨_, exec_vsplat_done hu hrm hx hk hn, ?_, ?_⟩
    · rintro rfl i hi
      exact lane32_vec32 _ hi
    · rintro rfl j hj
      exact lane64_vec64 _ hj
  case vbcst =>
    refine ⟨_, exec_vbcst_done hu hrm hx ha hw hn, ?_, ?_, ?_⟩
    · rintro rfl i hi
      exact lane32_bcst_zero _ hi
    · rintro rfl i hi
      exact lane32_bcst_one _ hi
    · rintro rfl j hj
      exact lane64_bcst_two _ hj

end Sys2Proof.Vector
end

section
/-! PROOFS.
The prompter family (chapter 12): the release that an FARRIVE starts at die scope or wider flushes the cache of its core
(R120, R351), and a flush can write LPDDR6: a dirty line that the directory holds under another key slot is collapsed first,
and an owner's copy of it goes to memory (R325). What a flush leaves of memory comes first, then what an FARRIVE does, then a
state in which the two meet. -/

namespace Sys2Proof.Prompter

open Sys2Proof.Machine Sys2Proof.Safety

/-! ### What a flush leaves of LPDDR6 (R301, R325) -/

theorem foldl_mem {α : Type} {f : State → α → State} (h : ∀ s x, (f s x).mem = s.mem) (l : List α) (s : State) :
    (l.foldl f s).mem = s.mem := by
  induction l generalizing s with
  | nil => rfl
  | cons x l ih => exact (ih (f s x)).trans (h s x)

@[simp] theorem modRegion_mem (s : State) (line : Nat) (f : Region → Region) : (modRegion s line f).mem = s.mem := rfl
@[simp] theorem sendMsg_mem (s : State) (m : Msg) : (sendMsg s m).mem = s.mem := rfl
@[simp] theorem setSliceLine_mem (s : State) (d : DieNo) (l : SliceLine) : (setSliceLine s d l).mem = s.mem := rfl
@[simp] theorem dropSliceLine_mem (s : State) (d : DieNo) (line : Nat) : (dropSliceLine s d line).mem = s.mem := rfl

@[simp] theorem countEvent_mem (s : State) (line : Nat) (dies : List DieNo) (k : CounterKind) :
    (countEvent s line dies k).mem = s.mem := 
  foldl_mem (f := fun s d => countDie s d k) (fun _ _ => rfl) dies _

@[simp] theorem takeCopy_mem (s : State) (line : Nat) (asker : Option DieNo) (n : CopyNote) :
    (takeCopy s line asker n).mem = s.mem := by
  cases hl : sliceLine? (s.die n.die) line with
  | none => simp only [takeCopy, hl]
  | some l =>
    simp only [takeCopy, hl]
    split
    · split <;> rfl
    · split <;> rfl

@[simp] theorem makeRoom_mem (s : State) (d : DieNo) (line : Nat) : (makeRoom s d line).mem = s.mem :=
  foldl_mem (f := evict d) (fun _ _ => rfl) _ s

theorem keepLine_mem {s t : State} {d : DieNo} {l l' : SliceLine} (h : keepLine s d l = some (t, l')) : t.mem = s.mem := by
  unfold keepLine at h
  dsimp only at h
  split at h
  · split at h
    · cases h
      rfl
    · cases h
  · cases h

/-- A line written reads back byte by byte. -/
theorem read_writeLine {m : List Host.Cell} {line k : Nat} {v : BitVec 1024} (h : Memory.wf m = true) (hk : k < 128) :
    Memory.read (Memory.writeBytes m (128 * line) (bytesOfLine v)) (128 * line + k) = lineByte v k := by
  have hlen : (bytesOfLine v).length = 128 := by rw [bytesOfLine, List.length_map, List.length_range]
  rw [Memory.read_writeBytes _ h, if_pos (by omega), Nat.add_sub_cancel_left, List.getD_eq_getElem _ _ (hlen ▸ hk)]
  simp [bytesOfLine]

/-- A collapse writes what memory does not have of the line. -/
theorem collapseLine_mem_of_held {s : State} {line : Nat} {v : BitVec 1024} {p : Bool} {k : BitVec 8}
    (h : heldLine s line = some (v, p, k)) :
    (collapseLine s line).mem = Memory.writeBytes s.mem (128 * line) (bytesOfLine v) := by
  unfold collapseLine collapseFor
  simp only [h, writeMemLine_mem, modRegion_mem]
  rw [foldl_mem ?copies, foldl_mem ?redirects, State.modDir_mem]
  case copies => exact fun s n => takeCopy_mem s line none n
  case redirects => exact fun _ _ => rfl
  split
  · rfl
  · rw [countEvent_mem]

/-- An owner's line asked for under another key slot goes to memory (R325). -/
theorem underKey_mem_of_held {s : State} {line : Nat} {key k : BitVec 8} {e : DirEntry} {v : BitVec 1024} {p : Bool}
    (he : dirEntry? s line = some e) (ho : e.owner.isSome = true) (hk : e.key ≠ key) (hv : heldLine s line = some (v, p, k)) :
    (underKey s line key).mem = Memory.writeBytes s.mem (128 * line) (bytesOfLine v) := by
  have hother : ((e.owner.isSome || e.sharers != 0) && e.key != key) = true := by simp [ho, hk]
  rw [underKey, he, ← collapseLine_mem_of_held hv]
  simp only [hother, if_true]

/-- Dirty bytes that reach the slices change LPDDR6 by that collapse alone. -/
theorem mergeIntoSlice_mem (s : State) (d : DieNo) (line : Nat) (data : BitVec 1024) (dirty : BitVec 128) (key : BitVec 8)
    (floor ceil : BitVec 3) : (mergeIntoSlice s d line data dirty key floor ceil).mem = (underKey s line key).mem := by
  unfold mergeIntoSlice
  dsimp only
  split
  · next l0 _ =>
    have hkeep : ((keepLine (underKey s line key) d l0).getD (underKey s line key, l0)).1.mem = (underKey s line key).mem := by
      cases h : keepLine (underKey s line key) d l0 with
      | none => rfl
      | some x => exact keepLine_mem h
    generalize (keepLine (underKey s line key) d l0).getD (underKey s line key, l0) = x at hkeep ⊢
    split <;> simp only [sendMsg_mem, setSliceLine_mem, hkeep]
  · rw [sendMsg_mem, setSliceLine_mem, makeRoom_mem]

/-- The cache of a core flushed, where one line has dirty bytes to write back. -/
theorem flushDie_mem_of_single {s : State} {c : ClusterNo} {l : CacheLine}
    (h : ((s.cluster c).cache.filter fun x => looseBytes (s.cluster c) x != 0) = [l]) :
    (flushDie s c).mem = (underKey (s.modCluster c fun k =>
      { k with cache := k.cache.map fun x => { x with dirty := x.dirty &&& heldBytes (s.cluster c) x.line } }) l.line l.key).mem := by
  unfold flushDie
  simp only [h, List.foldl_cons, List.foldl_nil, mergeIntoSlice_mem]

/-- A release at die scope or wider, with none under way on its core, is a flush of the core's cache. -/
theorem startRelease_mem_of_first {s : State} {c : ClusterNo} {scope : BitVec 2} (uid : Uid) (payload : RelPayload)
    (hs : scope ≠ 0) (hf : canRelease s c = true) : (startRelease s uid c scope payload).mem = (flushDie s c).mem := by
  have hflush : (scope != 0 && canRelease s c) = true := by rw [bne_iff_ne.mpr hs, hf, Bool.and_self]
  unfold startRelease
  simp only [hflush, if_true]
  rfl

/-! ### FARRIVE (R351) -/

/-- The request of an FARRIVE whose checks have passed, and the state in which it leaves the core: the frozen unit a member of
the barrier, the prompter's entry in its record. -/
def farriveReq (s : State) (p : UnitSt) (i : Uid) (d a : BitVec 6) (c w : BitVec 2) : SyncReq × State :=
  let va := farriveVa p a w
  let x := newSync (noteOp s i 0x11 (p.reg a)) p .farrive va .atomic 2 c 1
  let q := { x.1 with who := i, size := 16, posted := d == 0 }
  let t := x.2.modUnit i fun u => u.join q.va q.pa
  (q, t.setUnit t.issue.me (p.push (awaitedEntry t p (.scalar d) p.csr.land.toNat q.id q.va)))

/-- An FARRIVE executes: the prompter `p` at issue holds the frozen unit `u`, and the barrier's address, its page, the frozen
unit's table and the replay let the arrival go. -/
structure Farrives (s : State) (p : UnitSt) (i : Uid) (u : UnitSt) (d a : BitVec 6) (c w k : BitVec 2) (pa : Nat) (e : TlbEntry)
    (blank : Bool) : Prop where
  issue : AtIssue s p
  unlent : Unlent s
  prompter : p.isPrompter = true
  holds : capUnit s p (p.kcReg k) = some i
  unit : s.unit? i = some u
  hazard : NoHazard p [.scalar a] [(.scalar d, p.csr.land.toNat)]
  aligned : (p.windowVa w (p.reg a)).toNat % 16 = 0
  syncs : Syncs s p (p.windowVa w (p.reg a)) .atomic (d != 0) 2 c pa e blank
  page : syncPage u (p.windowVa w (p.reg a)) false pa e = .done
  member : ninth u pa = false
  watch : watchHit p (p.windowVa w (p.reg a)) 16 true false = false
  agrees : opAgrees s i 0x11 (p.reg a) = true

section
variable {s : State} {p u : UnitSt} {i : Uid} {d a : BitVec 6} {c w k : BitVec 2} {pa : Nat} {e : TlbEntry} {blank : Bool}

theorem heldUnit_of_capUnit (hc : capUnit s p (p.kcReg k) = some i) (hu : s.unit? i = some u) :
    heldUnit s p k = some (i, u) := by
  rw [heldUnit, hc, Option.bind_some, hu, Option.map_some]

/-- The checks of an operation on a held unit, by a prompter whose capability is current. -/
theorem heldChecks_done {reads : List Dest} {writes : List (Dest × Nat)} (hl : Unlent s) (hp : p.isPrompter = true)
    (hc : capUnit s p (p.kcReg k) = some i) (hn : NoHazard p reads writes) : heldChecks s p k false reads writes = .done := by
  have hcap : capCheck s p k = .done := by rw [capCheck, hc, Option.isNone_some, failIf_false]
  rw [heldChecks, noLend_of_unlent hl, illegalIf_false, privileged_of_prompter hp, hcap, stallCheck_of_noHazard hn]
  rfl

/-- The checks of the address of an access to a synchronisation page. -/
theorem syncChecks_done {va : Va} {acc : Access} {lands : Bool} {o : BitVec 2}
    (h : Syncs s p va acc lands o c pa e blank) : syncChecks s p va acc .done lands = [.done, .done, .done, .done, .done] := by
  obtain ⟨htr, hpage, horder, hroom, hbudget⟩ := h
  have hland : (if lands = true then landingHold s p else .done) = .done := by
    split
    · exact hroom ‹_›
    · rfl
  rw [syncChecks, horder, hland, pageCheck, paOf, htr]
  simp only [hpage, hbudget, if_true]

/-- An FARRIVE that executes sends its request, behind a release where there is one to make. -/
theorem exec_farrive_done (h : Farrives s p i u d a c w k pa e blank) :
    let x := farriveReq s p i d a c w
    exec (.farrive d a c w k) s = .next (done (if releases x.2 i p.ident.cluster c
      then startRelease x.2 i p.ident.cluster c (.sync x.1) else sendSync x.2 p.ident.cluster x.1)) := by
  have hheld := heldUnit_of_capUnit h.holds h.unit
  rw [exec_farrive, execFarrive]
  refine (runSlotW_done h.issue ?checks).trans ?effect
  case checks =>
    simp only [farriveVa, heldChecks_done h.unlent h.prompter h.holds h.hazard, barrierPa, pageCheck, farrivePage, watchCheck, opHold,
      hheld, h.syncs.translated, h.aligned, h.member, h.watch, h.agrees, h.page, syncChecks_done h.syncs, failIf_false,
      firstFail_done, firstFail_nil, Option.map_some, bne_self_eq_false, if_true]
  case effect =>
    simp only [hheld]
    rfl

/-- At die scope or wider, with no release under way on the core, it leaves in LPDDR6 what a flush of the core's cache does. -/
theorem exec_farrive_mem_of_first (h : Farrives s p i u d a c w k pa e blank) (hc : c ≠ 0)
    (hf : canRelease (farriveReq s p i d a c w).2 p.ident.cluster = true) :
    ∃ t, exec (.farrive d a c w k) s = .next (done t) ∧
      t.mem = (flushDie (farriveReq s p i d a c w).2 p.ident.cluster).mem := by
  have hrel : releases (farriveReq s p i d a c w).2 i p.ident.cluster c = true := by
    rw [releases, bne_iff_ne.mpr hc, Bool.true_or]
  refine ⟨_, exec_farrive_done h, ?_⟩
  rw [if_pos hrel, startRelease_mem_of_first i _ hc hf]

end

/-! ### A prompter with a frozen unit, on a core whose cache holds a line under two key slots -/

/-- A unit of context 1 on core 0. -/
def coreUnit (index : BitVec 16) (prompt : Option (BitVec 6)) : UnitSt :=
  UnitSt.fresh { launch := none, index := index, asid := 1, cluster := 0, prompt := prompt, restart := false, instances := 0,
                 serves := none } 0 0

/-- The frozen unit that the prompter holds, stopped once, by a trap: unit 1. -/
def heldFrozen : UnitSt :=
  (coreUnit 1 none).modRun fun r =>
    { r with status := .frozenHeld, started := true, gen := 1, record := some ⟨cTrap, 0, 1, false, .core, 0, 0⟩ }

/-- The capability of unit 1 for pool slot 0: cluster 0, core-local number 1, generation 1 (R343). -/
def heldCap : Word := 0x100101

/-- The prompter in pool slot 0, with the capability in kc0: unit 0. -/
def holder : UnitSt :=
  ((coreUnit 0 (some 0)).modRun fun r => { r with status := .running, started := true }).modEng fun e =>
    { e with kc := e.kc.set 0 heldCap }

/-- Virtual page 0, a synchronisation page in the frame at 0x4000. -/
def barrierPage : TlbEntry :=
  { asid := 1, vpn := 0, level := 0, frame0 := 0x4000, frame1 := 0x4000, buffer := none, rd := true, wr := true, ex := false,
    priv := false, sync := true, tvg := false, key := 0, rfloor := 0, rceil := 0, dirty := true, wframe := none }

/-- Line 0 in the cache of core 0, its first byte dirty, under key slot 1. -/
def cachedLine : CacheLine :=
  { line := 0, data := 2, dirty := 1, key := 1, rfloor := 0, rceil := 0, poison := false }

/-- Line 0 in a slice of die 0, which owns it and has written a 1 to its first byte, under key slot 0. -/
def ownedLine : SliceLine :=
  { line := 0, st := .m, data := 1, base := 0, dirty := 1, key := 0, poison := false, helper := false }

/-- The directory's entry of line 0: die 0 owns it, under key slot 0. -/
def ownedEntry : DirEntry :=
  { DirEntry.empty 0 with st := .m, owner := some 0 }

/-- Both units of context 1 on core 0, the prompter at issue; LPDDR6 is blank. -/
def crossKeyed : State :=
  { State.reset with
    units := [holder, heldFrozen]
    clusters := State.reset.clusters.set 0
      { Cluster.reset with running := some 0, order := [1], cache := [cachedLine], tlb := [barrierPage] }
    dies := State.reset.dies.set 0 { Die.reset with lines := [ownedLine] }
    hub := { Hub.reset with dir := { Hub.reset.dir with entries := [ownedEntry] }, contexts := [fetchContext] } }

/-! ### What FARRIVE at die scope does in it -/

/-- The prompter's arrival at the barrier, at die scope, meets every condition of R351. -/
theorem crossKeyed_farrives : Farrives crossKeyed holder 1 heldFrozen 0 0 1 0 0 0x4000 barrierPage false where
  issue := rfl
  unlent := rfl
  prompter := rfl
  holds := by rfl
  unit := rfl
  hazard := by decide
  aligned := by decide
  syncs := ⟨by rfl, by rfl, by rfl, fun h => absurd h (by decide), by rfl⟩
  page := by rfl
  member := by decide
  watch := by decide
  agrees := by rfl

/-- The release of the arrival finds line 0 to flush, and writes the owner's copy of it. -/
theorem crossKeyed_flushDie_mem :
    (flushDie (farriveReq crossKeyed holder 1 0 0 1 0).2 holder.ident.cluster).mem =
      Memory.writeBytes [] (128 * 0) (bytesOfLine ownedLine.data) := by
  rw [flushDie_mem_of_single (l := cachedLine) (by rfl)]
  exact underKey_mem_of_held (e := ownedEntry) (p := false) (k := 0) (by rfl) rfl (by decide) (by rfl)

/-- So the arrival leaves the owner's byte 1 at address 0 of LPDDR6. -/
theorem crossKeyed_farrive_writes :
    ∃ t, exec (.farrive 0 0 1 0 0) crossKeyed = .next (done t) ∧ Memory.read t.mem 0 = 1 := by
  obtain ⟨t, hexec, hflush⟩ := exec_farrive_mem_of_first crossKeyed_farrives (by decide) (by rfl)
  refine ⟨t, hexec, ?_⟩
  rw [hflush, crossKeyed_flushDie_mem]
  exact (read_writeLine (line := 0) (k := 0) rfl (by decide)).trans (by simp [lineByte, ownedLine])

/-- Refutes O47: in `crossKeyed` an FARRIVE at die scope meets every condition of its clause, and its release flushes line 0,
whose collapse leaves the owner's byte 1 in LPDDR6. The clause has memory as it was, without the condition `CacheUnder` on the
core's cache that keeps a flush from writing it. -/
theorem not_prompterOperations : ¬ Obligations.PrompterOperations := by
  rintro ⟨hops, -⟩
  have h := crossKeyed_farrives
  obtain ⟨-, hheld⟩ := hops crossKeyed holder 0 h.issue h.unlent h.prompter rfl
  obtain ⟨-, -, -, harrive⟩ := hheld 1 heldFrozen h.holds (by decide) h.unit
  obtain ⟨t, _, hexec, hkept, -⟩ :=
    harrive 0 0 1 0 0x4000 barrierPage false h.hazard h.aligned h.syncs h.page h.member h.watch h.agrees
  obtain ⟨t', hexec', hbyte⟩ := crossKeyed_farrive_writes
  have hdone : done t = done t' := Host.Outcome.next.inj (hexec.symm.trans hexec')
  have hmem : t.mem = t'.mem := by simpa only [done, noteResult_mem] using congrArg State.mem hdone
  rw [← hmem, hkept] at hbyte
  exact absurd hbyte (by decide)

end Sys2Proof.Prompter
end

section
/-! PROOFS.
Words and instructions (chapter 02): a well-formed instruction's word decodes to it, and a word that decodes is its
instruction's word. -/

-- One proof at a time: the check of the whole text has a limit on memory, which many threads would reach.
set_option Elab.async false

namespace Sys2Proof.Words

open Sys2Proof.Laws

/-! ### Decoding an encoded instruction (R31, R42 to R57) -/

/-- Settles O4: each encoding by its lemma; an event has no word and is not well-formed. -/
theorem decodeEncode : Obligations.DecodeEncode := by
  intro i
  cases i with
  | add => apply Encoding.add
  | sub => apply Encoding.sub
  | and => apply Encoding.and
  | or => apply Encoding.or
  | xor => apply Encoding.xor
  | andn => apply Encoding.andn
  | shl => apply Encoding.shl
  | shr => apply Encoding.shr
  | sar => apply Encoding.sar
  | rol => apply Encoding.rol
  | mul => apply Encoding.mul
  | mulhs => apply Encoding.mulhs
  | mulhu => apply Encoding.mulhu
  | divs => apply Encoding.divs
  | divu => apply Encoding.divu
  | rems => apply Encoding.rems
  | remu => apply Encoding.remu
  | mins => apply Encoding.mins
  | minu => apply Encoding.minu
  | maxs => apply Encoding.maxs
  | maxu => apply Encoding.maxu
  | clz => apply Encoding.clz
  | ctz => apply Encoding.ctz
  | popc => apply Encoding.popc
  | brev => apply Encoding.brev
  | bswap => apply Encoding.bswap
  | sext => apply Encoding.sext
  | zext => apply Encoding.zext
  | sel => apply Encoding.sel
  | addw => apply Encoding.addw
  | subw => apply Encoding.subw
  | mulw => apply Encoding.mulw
  | cmpeq => apply Encoding.cmpeq
  | cmpne => apply Encoding.cmpne
  | cmplts => apply Encoding.cmplts
  | cmpltu => apply Encoding.cmpltu
  | cmples => apply Encoding.cmples
  | cmpleu => apply Encoding.cmpleu
  | pand => apply Encoding.pand
  | por => apply Encoding.por
  | pxor => apply Encoding.pxor
  | pnot => apply Encoding.pnot
  | movp => apply Encoding.movp
  | movtp => apply Encoding.movtp
  | addi => apply Encoding.addi
  | andi => apply Encoding.andi
  | ori => apply Encoding.ori
  | xori => apply Encoding.xori
  | shli => apply Encoding.shli
  | shri => apply Encoding.shri
  | sari => apply Encoding.sari
  | muli => apply Encoding.muli
  | li => apply Encoding.li
  | lix => apply Encoding.lix
  | cmpeqi => apply Encoding.cmpeqi
  | cmpltsi => apply Encoding.cmpltsi
  | cmpltui => apply Encoding.cmpltui
  | ldb => apply Encoding.ldb
  | ldbu => apply Encoding.ldbu
  | ldh => apply Encoding.ldh
  | ldhu => apply Encoding.ldhu
  | ldw => apply Encoding.ldw
  | ldwu => apply Encoding.ldwu
  | ldd => apply Encoding.ldd
  | stb => apply Encoding.stb
  | sth => apply Encoding.sth
  | stw => apply Encoding.stw
  | std => apply Encoding.std
  | ldro => apply Encoding.ldro
  | ldacq => apply Encoding.ldacq
  | strel => apply Encoding.strel
  | pfl2 => apply Encoding.pfl2
  | br => apply Encoding.br
  | brn => apply Encoding.brn
  | call => apply Encoding.call
  | jr => apply Encoding.jr
  | callr => apply Encoding.callr
  | loop => apply Encoding.loop
  | loopi => apply Encoding.loopi
  | endseg => apply Encoding.endseg
  | halt => apply Encoding.halt
  | stgp => apply Encoding.stgp
  | trap => apply Encoding.trap
  | brk => apply Encoding.brk
  | nops => apply Encoding.nops
  | nop => apply Encoding.nop
  | vadd => apply Encoding.vadd
  | vsub => apply Encoding.vsub
  | vmul => apply Encoding.vmul
  | vfma => apply Encoding.vfma
  | vfms => apply Encoding.vfms
  | vdiv => apply Encoding.vdiv
  | vsqrt => apply Encoding.vsqrt
  | vmin => apply Encoding.vmin
  | vmax => apply Encoding.vmax
  | vcmpeq => apply Encoding.vcmpeq
  | vcmplt => apply Encoding.vcmplt
  | vcmple => apply Encoding.vcmple
  | vabs => apply Encoding.vabs
  | vneg => apply Encoding.vneg
  | vsel => apply Encoding.vsel
  | vclass => apply Encoding.vclass
  | vaddF64 => apply Encoding.vaddF64
  | vsubF64 => apply Encoding.vsubF64
  | vmulF64 => apply Encoding.vmulF64
  | vfmaF64 => apply Encoding.vfmaF64
  | vfmsF64 => apply Encoding.vfmsF64
  | vdivF64 => apply Encoding.vdivF64
  | vsqrtF64 => apply Encoding.vsqrtF64
  | vminF64 => apply Encoding.vminF64
  | vmaxF64 => apply Encoding.vmaxF64
  | vcmpeqF64 => apply Encoding.vcmpeqF64
  | vcmpltF64 => apply Encoding.vcmpltF64
  | vcmpleF64 => apply Encoding.vcmpleF64
  | vabsF64 => apply Encoding.vabsF64
  | vnegF64 => apply Encoding.vnegF64
  | vselF64 => apply Encoding.vselF64
  | vclassF64 => apply Encoding.vclassF64
  | viadd => apply Encoding.viadd
  | visub => apply Encoding.visub
  | vimul => apply Encoding.vimul
  | vimad => apply Encoding.vimad
  | vand => apply Encoding.vand
  | vor => apply Encoding.vor
  | vxor => apply Encoding.vxor
  | vshl => apply Encoding.vshl
  | vshr => apply Encoding.vshr
  | vsar => apply Encoding.vsar
  | vimin => apply Encoding.vimin
  | vimax => apply Encoding.vimax
  | vicmpeq => apply Encoding.vicmpeq
  | vicmplt => apply Encoding.vicmplt
  | viadds => apply Encoding.viadds
  | vperm => apply Encoding.vperm
  | vmov => apply Encoding.vmov
  | vbcst => apply Encoding.vbcst
  | vcvt => apply Encoding.vcvt
  | vtrans => apply Encoding.vtrans
  | vred => apply Encoding.vred
  | vldt => apply Encoding.vldt
  | vstt => apply Encoding.vstt
  | vldg => apply Encoding.vldg
  | vstg => apply Encoding.vstg
  | vqrd => apply Encoding.vqrd
  | vpop => apply Encoding.vpop
  | vpush => apply Encoding.vpush
  | vext => apply Encoding.vext
  | viota => apply Encoding.viota
  | vsplat => apply Encoding.vsplat
  | awld => apply Encoding.awld
  | astrm => apply Encoding.astrm
  | aext => apply Encoding.aext
  | achk => apply Encoding.achk
  | aout => apply Encoding.aout
  | aclr => apply Encoding.aclr
  | asnap => apply Encoding.asnap
  | await => apply Encoding.await
  | asetl => apply Encoding.asetl
  | aseed => apply Encoding.aseed
  | amode => apply Encoding.amode
  | agen => apply Encoding.agen
  | azone => apply Encoding.azone
  | cpy => apply Encoding.cpy
  | cpyo => apply Encoding.cpyo
  | cpyt => apply Encoding.cpyt
  | gath => apply Encoding.gath
  | scat => apply Encoding.scat
  | bpf => apply Encoding.bpf
  | qcvt => apply Encoding.qcvt
  | dqcvt => apply Encoding.dqcvt
  | nmpk => apply Encoding.nmpk
  | nmup => apply Encoding.nmup
  | publ => apply Encoding.publ
  | qbnd => apply Encoding.qbnd
  | twait => apply Encoding.twait
  | cfol => apply Encoding.cfol
  | cabt => apply Encoding.cabt
  | xpose => apply Encoding.xpose
  | aadd => apply Encoding.aadd
  | aand => apply Encoding.aand
  | aor => apply Encoding.aor
  | axor => apply Encoding.axor
  | amins => apply Encoding.amins
  | aminu => apply Encoding.aminu
  | amaxs => apply Encoding.amaxs
  | amaxu => apply Encoding.amaxu
  | axchg => apply Encoding.axchg
  | acas => apply Encoding.acas
  | afadd32 => apply Encoding.afadd32
  | afadd64 => apply Encoding.afadd64
  | barinit => apply Encoding.barinit
  | barrive => apply Encoding.barrive
  | barriveJoin => apply Encoding.barriveJoin
  | barwait => apply Encoding.barwait
  | baraw => apply Encoding.baraw
  | fence => apply Encoding.fence
  | ared => apply Encoding.ared
  | syncq => apply Encoding.syncq
  | csrr => apply Encoding.csrr
  | csrw => apply Encoding.csrw
  | csrs => apply Encoding.csrs
  | csrc => apply Encoding.csrc
  | talloc => apply Encoding.talloc
  | tfree => apply Encoding.tfree
  | bankacq => apply Encoding.bankacq
  | bankrel => apply Encoding.bankrel
  | ringadv => apply Encoding.ringadv
  | ringcnt => apply Encoding.ringcnt
  | stgw => apply Encoding.stgw
  | stgr => apply Encoding.stgr
  | valsetArr => apply Encoding.valsetArr
  | valset => apply Encoding.valset
  | frd => apply Encoding.frd
  | fwr => apply Encoding.fwr
  | fresume => apply Encoding.fresume
  | fkill => apply Encoding.fkill
  | farrive => apply Encoding.farrive
  | fnext => apply Encoding.fnext
  | fstep => apply Encoding.fstep
  | curtdone => apply Encoding.curtdone
  | rbseed => apply Encoding.rbseed
  | repmark => apply Encoding.repmark
  | l1flush => apply Encoding.l1flush
  | l1inv => apply Encoding.l1inv
  | tlbiAll => apply Encoding.tlbiAll
  | tlbiRange => apply Encoding.tlbiRange
  | capdrop => apply Encoding.capdrop
  | _ => intro h; cases h

/-- Settles O3: each of the words evaluates to its instruction. -/
theorem decodeWords : Obligations.DecodeWords := by
  unfold Obligations.DecodeWords
  decide

/-! ### Encoding a decoded word (R31, R65)

A word is put together from its fields from the top down: each field of the encoding is the word's own, or a fixed value that
the decoder has compared with the word's. -/

/-- The fields of a word above bit p, from those above bit p + k and the next k bits. -/
theorem extractLsb'_eq_append {n : Nat} {w : BitVec n} {p k m : Nat} {a : BitVec m} {b : BitVec k}
    (ha : w.extractLsb' (p + k) m = a) (hb : w.extractLsb' p k = b) : w.extractLsb' p (m + k) = a ++ b := by
  subst ha hb
  exact (BitVec.extractLsb'_append_extractLsb'_eq_extractLsb' rfl).symm

/-- An encoding that agrees with a word in every field is the word. -/
theorem cast_eq_of_extractLsb' {n : Nat} {v : BitVec n} {w : SlotWord} (h : n = 32) (hv : w.extractLsb' 0 n = v) :
    BitVec.cast h v = w := by
  subst h hv
  simp

/-- If the decoder answers an instruction for the word, the word is the instruction's encoding. -/
def Accepts (d : Decoded) (w : SlotWord) : Prop := ∀ i, d = .instr i → encode i = w

theorem accepts_instr {i : Instr} {w : SlotWord} : Accepts (.instr i) w ↔ encode i = w := by simp [Accepts]

theorem accepts_reject (r : Reject) (w : SlotWord) : Accepts (.reject r) w := by simp [Accepts]

theorem accepts_header (v w : SlotWord) : Accepts (.header v) w := by simp [Accepts]

theorem accepts_ite {c : Prop} [Decidable c] {d d' : Decoded} {w : SlotWord} :
    Accepts (if c then d else d') w ↔ (c → Accepts d w) ∧ (¬ c → Accepts d' w) := by
  split <;> simp [*]

/-- The last opcode of a class that has sixteen. -/
theorem eq_fifteen : ∀ x : BitVec 4, x ≠ 0 → x ≠ 1 → x ≠ 2 → x ≠ 3 → x ≠ 4 → x ≠ 5 → x ≠ 6 → x ≠ 7 → x ≠ 8 → x ≠ 9 →
    x ≠ 10 → x ≠ 11 → x ≠ 12 → x ≠ 13 → x ≠ 14 → x = 15#4 := by
  intros
  bv_omega

theorem accepts_decodeSRR {w : SlotWord} (hc : w.extractLsb' 28 4 = 0x0#4) : Accepts (decodeSRR w) w := by
  unfold decodeSRR
  split
  all_goals simp only [accepts_ite, accepts_instr, accepts_reject, and_imp, implies_true, and_true]
  all_goals
    intros
    refine cast_eq_of_extractLsb' (by decide) ?_
    repeat' refine extractLsb'_eq_append ?_ ?_
    all_goals simp only [Nat.reduceAdd, *]

theorem accepts_decodeSRI {w : SlotWord} (hc : w.extractLsb' 28 4 = 0x1#4) : Accepts (decodeSRI w) w := by
  unfold decodeSRI
  split
  all_goals simp only [accepts_ite, accepts_instr, accepts_reject, implies_true, and_true]
  all_goals
    intros
    refine cast_eq_of_extractLsb' (by decide) ?_
    repeat' refine extractLsb'_eq_append ?_ ?_
    all_goals simp only [Nat.reduceAdd, *]

theorem accepts_decodeSMem {w : SlotWord} (hc : w.extractLsb' 28 4 = 0x2#4) : Accepts (decodeSMem w) w := by
  unfold decodeSMem
  split
  all_goals simp only [accepts_ite, accepts_instr, accepts_reject, implies_true, and_true]
  all_goals
    intros
    refine cast_eq_of_extractLsb' (by decide) ?_
    repeat' refine extractLsb'_eq_append ?_ ?_
    all_goals simp only [Nat.reduceAdd, *]

theorem accepts_decodeSCtl {w : SlotWord} (hc : w.extractLsb' 28 4 = 0x3#4) : Accepts (decodeSCtl w) w := by
  unfold decodeSCtl
  split
  all_goals simp only [accepts_ite, accepts_instr, accepts_reject, and_imp, implies_true, and_true]
  all_goals
    intros
    refine cast_eq_of_extractLsb' (by decide) ?_
    repeat' refine extractLsb'_eq_append ?_ ?_
    all_goals simp only [Nat.reduceAdd, *]

theorem accepts_decodeVFp {w : SlotWord} (hc : w.extractLsb' 28 4 = 0x4#4) : Accepts (decodeVFp w) w := by
  unfold decodeVFp
  split
  case h_16 h0 h1 h2 h3 h4 h5 h6 h7 h8 h9 h10 h11 h12 h13 h14 =>
    have h15 := eq_fifteen _ h0 h1 h2 h3 h4 h5 h6 h7 h8 h9 h10 h11 h12 h13 h14
    simp only [accepts_ite, accepts_instr, accepts_reject, implies_true, and_true]
    intros
    refine cast_eq_of_extractLsb' (by decide) ?_
    repeat' refine extractLsb'_eq_append ?_ ?_
    all_goals simp only [Nat.reduceAdd, *]
  all_goals simp only [accepts_ite, accepts_instr, accepts_reject, implies_true, and_true]
  all_goals
    intros
    refine cast_eq_of_extractLsb' (by decide) ?_
    repeat' refine extractLsb'_eq_append ?_ ?_
    all_goals simp only [Nat.reduceAdd, *]

theorem accepts_decodeVFp64 {w : SlotWord} (hc : w.extractLsb' 28 4 = 0x5#4) : Accepts (decodeVFp64 w) w := by
  unfold decodeVFp64
  split
  case h_16 h0 h1 h2 h3 h4 h5 h6 h7 h8 h9 h10 h11 h12 h13 h14 =>
    have h15 := eq_fifteen _ h0 h1 h2 h3 h4 h5 h6 h7 h8 h9 h10 h11 h12 h13 h14
    simp only [accepts_ite, accepts_instr, accepts_reject, implies_true, and_true]
    intros
    refine cast_eq_of_extractLsb' (by decide) ?_
    repeat' refine extractLsb'_eq_append ?_ ?_
    all_goals simp only [Nat.reduceAdd, *]
  all_goals simp only [accepts_ite, accepts_instr, accepts_reject, implies_true, and_true]
  all_goals
    intros
    refine cast_eq_of_extractLsb' (by decide) ?_
    repeat' refine extractLsb'_eq_append ?_ ?_
    all_goals simp only [Nat.reduceAdd, *]

theorem accepts_decodeVInt {w : SlotWord} (hc : w.extractLsb' 28 4 = 0x6#4) : Accepts (decodeVInt w) w := by
  unfold decodeVInt
  split
  case h_16 h0 h1 h2 h3 h4 h5 h6 h7 h8 h9 h10 h11 h12 h13 h14 =>
    have h15 := eq_fifteen _ h0 h1 h2 h3 h4 h5 h6 h7 h8 h9 h10 h11 h12 h13 h14
    rw [accepts_instr]
    refine cast_eq_of_extractLsb' (by decide) ?_
    repeat' refine extractLsb'_eq_append ?_ ?_
    all_goals simp only [Nat.reduceAdd, *]
  all_goals rw [accepts_instr]
  all_goals
    refine cast_eq_of_extractLsb' (by decide) ?_
    repeat' refine extractLsb'_eq_append ?_ ?_
    all_goals simp only [Nat.reduceAdd, *]

theorem accepts_decodeVXfer {w : SlotWord} (hc : w.extractLsb' 28 4 = 0x7#4) : Accepts (decodeVXfer w) w := by
  unfold decodeVXfer
  split
  all_goals simp only [accepts_ite, accepts_instr, accepts_reject, and_imp, implies_true, and_true]
  all_goals
    intros
    refine cast_eq_of_extractLsb' (by decide) ?_
    repeat' refine extractLsb'_eq_append ?_ ?_
    all_goals simp only [Nat.reduceAdd, *]

theorem accepts_decodeACmd {w : SlotWord} (hc : w.extractLsb' 28 4 = 0x8#4) : Accepts (decodeACmd w) w := by
  unfold decodeACmd
  split
  all_goals simp only [accepts_ite, accepts_instr, accepts_reject, implies_true, and_true]
  all_goals
    intros
    refine cast_eq_of_extractLsb' (by decide) ?_
    repeat' refine extractLsb'_eq_append ?_ ?_
    all_goals simp only [Nat.reduceAdd, *]

theorem accepts_decodeACfg {w : SlotWord} (hc : w.extractLsb' 28 4 = 0x9#4) : Accepts (decodeACfg w) w := by
  unfold decodeACfg
  split
  all_goals simp only [accepts_ite, accepts_instr, accepts_reject, implies_true, and_true]
  all_goals
    intros
    refine cast_eq_of_extractLsb' (by decide) ?_
    repeat' refine extractLsb'_eq_append ?_ ?_
    all_goals simp only [Nat.reduceAdd, *]

theorem accepts_decodeCCmd {w : SlotWord} (hc : w.extractLsb' 28 4 = 0xa#4) : Accepts (decodeCCmd w) w := by
  unfold decodeCCmd
  split
  all_goals simp only [accepts_ite, accepts_instr, accepts_reject, implies_true, and_true]
  all_goals
    intros
    refine cast_eq_of_extractLsb' (by decide) ?_
    repeat' refine extractLsb'_eq_append ?_ ?_
    all_goals simp only [Nat.reduceAdd, *]

theorem accepts_decodeYSync {w : SlotWord} (hc : w.extractLsb' 28 4 = 0xb#4) : Accepts (decodeYSync w) w := by
  unfold decodeYSync
  split
  all_goals simp only [accepts_ite, accepts_instr, accepts_reject, and_imp, implies_true, and_true]
  all_goals and_intros
  all_goals
    intros
    refine cast_eq_of_extractLsb' (by decide) ?_
    repeat' refine extractLsb'_eq_append ?_ ?_
    all_goals simp only [Nat.reduceAdd, *]

theorem accepts_decodeKSys {w : SlotWord} (hc : w.extractLsb' 28 4 = 0xc#4) : Accepts (decodeKSys w) w := by
  unfold decodeKSys
  split
  all_goals simp only [accepts_ite, accepts_instr, accepts_reject, and_imp, implies_true, and_true]
  all_goals and_intros
  all_goals
    intros
    refine cast_eq_of_extractLsb' (by decide) ?_
    repeat' refine extractLsb'_eq_append ?_ ?_
    all_goals simp only [Nat.reduceAdd, *]

theorem accepts_decodeSlot (w : SlotWord) : Accepts (decodeSlot w) w := by
  unfold decodeSlot
  split
  · exact accepts_decodeSRR ‹_›
  · exact accepts_decodeSRI ‹_›
  · exact accepts_decodeSMem ‹_›
  · exact accepts_decodeSCtl ‹_›
  · exact accepts_decodeVFp ‹_›
  · exact accepts_decodeVFp64 ‹_›
  · exact accepts_decodeVInt ‹_›
  · exact accepts_decodeVXfer ‹_›
  · exact accepts_decodeACmd ‹_›
  · exact accepts_decodeACfg ‹_›
  · exact accepts_decodeCCmd ‹_›
  · exact accepts_decodeYSync ‹_›
  · exact accepts_decodeKSys ‹_›
  · exact accepts_reject _ w
  · exact accepts_header w w
  · simp only [accepts_ite, accepts_instr, accepts_reject, implies_true, and_true]
    rintro rfl
    rfl

theorem extractLsb'_eq_of_slotClass {w : SlotWord} {k : Nat} (h : slotClass w = k) :
    w.extractLsb' 28 4 = BitVec.ofNat 4 k := by
  rw [← h, slotClass, BitVec.ofNat_toNat, BitVec.setWidth_eq]

/-- Settles O5: the decoder accepts no word but an encoding; the three last classes are its last three branches. -/
theorem acceptedWordIsEncoding : Obligations.AcceptedWordIsEncoding := by
  refine ⟨fun w i h => accepts_decodeSlot w i h, fun w => ⟨fun h => ?_, fun h => ?_, fun h => ?_⟩⟩
  all_goals
    rw [decodeSlot, extractLsb'_eq_of_slotClass h]
    rfl

end Sys2Proof.Words
end

section
/-! PROOFS.
The scalar forms (chapter 03): register forms, immediates, the record of pending writes, the faults of a slot at issue and the
frame of one that completes.  The arithmetic of the rules against the model's bit-vector operations comes first, then what
each shared form of slot does. -/

-- One proof at a time: the check of the whole text has a limit on memory, which many threads would reach.
set_option Elab.async false

namespace Sys2Proof.Scalar

open Sys2Proof.Machine Sys2Proof.Safety Sys2Proof.Sequencer

/-! ### The arithmetic of R83 -/

/-- A word is given by its bits. -/
theorem eq_ofFnLE {w : Nat} {x : BitVec w} {f : Fin w → Bool} (h : ∀ i : Fin w, x.getLsbD i = f i) : x = BitVec.ofFnLE f := by
  refine BitVec.eq_of_getLsbD_eq fun i hi => ?_
  rw [BitVec.getLsbD_ofFnLE, dif_pos hi]
  exact h ⟨i, hi⟩

theorem add_eq_ofNat {w : Nat} (x y : BitVec w) : x + y = BitVec.ofNat w (x.toNat + y.toNat) := by
  rw [BitVec.ofNat_add, BitVec.ofNat_toNat, BitVec.ofNat_toNat, BitVec.setWidth_eq, BitVec.setWidth_eq]

theorem sub_eq_ofInt {w : Nat} (x y : BitVec w) : x - y = BitVec.ofInt w (x.toNat - y.toNat) := by
  rw [BitVec.sub_eq_add_neg, Int.sub_eq_add_neg, BitVec.ofInt_add, BitVec.ofInt_neg]
  simp

theorem mul_eq_ofNat {w : Nat} (x y : BitVec w) : x * y = BitVec.ofNat w (x.toNat * y.toNat) := by
  rw [BitVec.ofNat_mul, BitVec.ofNat_toNat, BitVec.ofNat_toNat, BitVec.setWidth_eq, BitVec.setWidth_eq]

theorem and_eq_ofFnLE {w : Nat} (x y : BitVec w) : x &&& y = BitVec.ofFnLE fun i : Fin w => x.getLsbD i && y.getLsbD i :=
  eq_ofFnLE fun _ => BitVec.getLsbD_and

theorem or_eq_ofFnLE {w : Nat} (x y : BitVec w) : x ||| y = BitVec.ofFnLE fun i : Fin w => x.getLsbD i || y.getLsbD i :=
  eq_ofFnLE fun _ => BitVec.getLsbD_or

theorem xor_eq_ofFnLE {w : Nat} (x y : BitVec w) : x ^^^ y = BitVec.ofFnLE fun i : Fin w => x.getLsbD i != y.getLsbD i :=
  eq_ofFnLE fun _ => BitVec.getLsbD_xor

theorem andn_eq_ofFnLE {w : Nat} (x y : BitVec w) : x &&& ~~~y = BitVec.ofFnLE fun i : Fin w => x.getLsbD i && !y.getLsbD i :=
  eq_ofFnLE fun i => by simp

/-- The shift count n of R83. -/
theorem shiftCount_eq_cnt (y : Word) : shiftCount y = cnt y := BitVec.extractLsb'_toNat 0 6 y

theorem cnt_lt (y : Word) : cnt y < 64 := Nat.mod_lt _ (by decide)

theorem shiftLeft_eq_ofNat {w : Nat} (x : BitVec w) (n : Nat) : x <<< n = BitVec.ofNat w (x.toNat * 2 ^ n) :=
  BitVec.eq_of_toNat_eq (by simp [Nat.shiftLeft_eq])

theorem ushiftRight_eq_ofNat {w : Nat} (x : BitVec w) (n : Nat) : x >>> n = BitVec.ofNat w (x.toNat / 2 ^ n) := by
  rw [← Nat.shiftRight_eq_div_pow, ← BitVec.toNat_ushiftRight, BitVec.ofNat_toNat, BitVec.setWidth_eq]

theorem sshiftRight_eq_ofInt {w : Nat} (x : BitVec w) (n : Nat) : x.sshiftRight n = BitVec.ofInt w (x.toInt / 2 ^ n) := by
  rw [← BitVec.ofInt_toInt (x := x.sshiftRight n), BitVec.toInt_sshiftRight, Int.shiftRight_eq_div_pow, Nat.cast_pow]
  rfl

theorem rotateLeft_eq_ofFnLE (x : Word) {n : Nat} (hn : n < 64) :
    x.rotateLeft n = BitVec.ofFnLE fun i : Fin 64 => x.getLsbD ((i + 64 - n) % 64) := by
  refine eq_ofFnLE fun i => ?_
  rw [BitVec.getLsbD_rotateLeft, Nat.mod_eq_of_lt hn]
  obtain hi | hi := Nat.lt_or_ge i n
  · rw [decide_eq_true hi, cond_true, Nat.mod_eq_of_lt (by omega)]
    congr 1
    omega
  · rw [decide_eq_false (Nat.not_lt.2 hi), cond_false, decide_eq_true i.isLt, Bool.true_and,
      show (i : Nat) + 64 - n = (i - n) + 64 by omega, Nat.add_mod_right, Nat.mod_eq_of_lt (by omega)]

/-- A product of two words fits the double width. -/
theorem toInt_mul_toInt (x y : Word) : (x.signExtend 128 * y.signExtend 128).toInt = x.toInt * y.toInt := by
  rw [BitVec.toInt_mul, BitVec.toInt_signExtend_of_le (by decide), BitVec.toInt_signExtend_of_le (by decide)]
  have hx : |x.toInt| ≤ 2 ^ 63 := abs_le.2 ⟨BitVec.le_toInt x, le_of_lt BitVec.toInt_lt⟩
  have hy : |y.toInt| ≤ 2 ^ 63 := abs_le.2 ⟨BitVec.le_toInt y, le_of_lt BitVec.toInt_lt⟩
  have h : |x.toInt * y.toInt| ≤ 2 ^ 126 := by
    rw [abs_mul]
    exact mul_le_mul hx hy (abs_nonneg _) (by decide)
  obtain ⟨hl, hu⟩ := abs_le.1 h
  exact Int.bmod_eq_of_le (by omega) (by omega)

theorem setWidth_ofInt (k : Int) : (BitVec.ofInt 128 k).setWidth 64 = BitVec.ofInt 64 k := by
  refine BitVec.eq_of_toNat_eq ?_
  rw [BitVec.toNat_setWidth, BitVec.toNat_ofInt, BitVec.toNat_ofInt]
  omega

theorem mulHighS_eq_ofInt (x y : Word) : mulHighS x y = BitVec.ofInt 64 (x.toInt * y.toInt / 2 ^ 64) := by
  have h : mulHighS x y = ((x.signExtend 128 * y.signExtend 128).sshiftRight 64).setWidth 64 := by
    refine BitVec.eq_of_getLsbD_eq fun i hi => ?_
    rw [mulHighS, BitVec.getLsbD_extractLsb', BitVec.getLsbD_setWidth, BitVec.getLsbD_sshiftRight, if_pos (by omega),
      decide_eq_true hi, decide_eq_false (by omega), Bool.not_false, Bool.true_and, Bool.true_and]
  rw [h, sshiftRight_eq_ofInt, toInt_mul_toInt, setWidth_ofInt]

theorem mulHighU_eq_ofNat (x y : Word) : mulHighU x y = BitVec.ofNat 64 (x.toNat * y.toNat / 2 ^ 64) := by
  have h : x.toNat * y.toNat < 2 ^ 128 := Nat.lt_of_lt_of_le (Nat.mul_lt_mul'' x.isLt y.isLt) (by decide)
  refine BitVec.eq_of_toNat_eq ?_
  rw [mulHighU, BitVec.extractLsb'_toNat, BitVec.toNat_mul, BitVec.toNat_setWidth_of_le (by decide),
    BitVec.toNat_setWidth_of_le (by decide), Nat.mod_eq_of_lt h, Nat.shiftRight_eq_div_pow, BitVec.toNat_ofNat]

theorem smin_eq_ofInt (x y : Word) : (if x.sle y then x else y) = BitVec.ofInt 64 (min x.toInt y.toInt) := by
  rw [min_def, apply_ite (BitVec.ofInt 64), BitVec.ofInt_toInt, BitVec.ofInt_toInt]
  exact if_congr BitVec.sle_iff_toInt_le rfl rfl

theorem smax_eq_ofInt (x y : Word) : (if x.sle y then y else x) = BitVec.ofInt 64 (max x.toInt y.toInt) := by
  rw [max_def, apply_ite (BitVec.ofInt 64), BitVec.ofInt_toInt, BitVec.ofInt_toInt]
  exact if_congr BitVec.sle_iff_toInt_le rfl rfl

theorem umin_eq_ofNat (x y : Word) : (if x ≤ y then x else y) = BitVec.ofNat 64 (min x.toNat y.toNat) := by
  rw [min_def, apply_ite (BitVec.ofNat 64), BitVec.ofNat_toNat, BitVec.ofNat_toNat, BitVec.setWidth_eq, BitVec.setWidth_eq]
  exact if_congr BitVec.le_def rfl rfl

theorem umax_eq_ofNat (x y : Word) : (if x ≤ y then y else x) = BitVec.ofNat 64 (max x.toNat y.toNat) := by
  rw [max_def, apply_ite (BitVec.ofNat 64), BitVec.ofNat_toNat, BitVec.ofNat_toNat, BitVec.setWidth_eq, BitVec.setWidth_eq]
  exact if_congr BitVec.le_def rfl rfl

theorem sextFrom_eq_ofFnLE (x y : Word) : sextFrom x y = BitVec.ofFnLE fun i : Fin 64 => x.getLsbD (min i (cnt y)) := by
  have hc := cnt_lt y
  refine eq_ofFnLE fun i => ?_
  have hi := i.isLt
  rw [sextFrom, shiftCount_eq_cnt, BitVec.getLsbD_sshiftRight, decide_eq_false (Nat.not_le.2 hi)]
  split
  · next h => simp [show (63 - cnt y + i : Nat) < 64 from h, Nat.min_eq_left (show (i : Nat) ≤ cnt y by omega)]
  · next h =>
    rw [BitVec.msb_shiftLeft, BitVec.getMsbD_eq_getLsbD, Nat.min_eq_right (by omega), decide_eq_true (by omega), Bool.not_false,
      Bool.true_and, Bool.true_and]
    congr 1
    omega

theorem zextFrom_eq_ofNat (x y : Word) : zextFrom x y = BitVec.ofNat 64 (x.toNat % 2 ^ (cnt y + 1)) := by
  have hc := cnt_lt y
  refine BitVec.eq_of_getLsbD_eq fun i hi => ?_
  rw [zextFrom, shiftCount_eq_cnt, BitVec.getLsbD_ushiftRight, BitVec.getLsbD_shiftLeft, BitVec.getLsbD_ofNat, Nat.testBit_mod_two_pow]
  by_cases h : i < cnt y + 1
  · simp [h, hi, show 63 - cnt y + i < 64 by omega, BitVec.getLsbD]
  · simp [h, show ¬ 63 - cnt y + i < 64 by omega]

theorem sextWord_eq_signExtend (x : Word) : sextWord x = (BitVec.ofNat 32 x.toNat).signExtend 64 := by
  rw [sextWord, BitVec.ofNat_toNat, BitVec.setWidth_eq_extractLsb' (by decide)]

theorem addw_eq (x y : Word) : sextWord (x + y) = (BitVec.ofNat 32 (x.toNat + y.toNat)).signExtend 64 := by
  rw [sextWord_eq_signExtend, add_eq_ofNat, BitVec.toNat_ofNat]
  congr 1
  exact BitVec.eq_of_toNat_eq (by simp [Nat.mod_mod_of_dvd])

theorem subw_eq (x y : Word) : sextWord (x - y) = (BitVec.ofInt 32 (x.toNat - y.toNat)).signExtend 64 := by
  rw [sextWord_eq_signExtend, sub_eq_ofInt]
  congr 1
  refine BitVec.eq_of_toNat_eq ?_
  rw [BitVec.toNat_ofNat, BitVec.toNat_ofInt, BitVec.toNat_ofInt]
  omega

theorem mulw_eq (x y : Word) :
    sextWord (x * y) = (BitVec.ofNat 32 (x.toNat % 2 ^ 32 * (y.toNat % 2 ^ 32))).signExtend 64 := by
  rw [sextWord_eq_signExtend, mul_eq_ofNat, BitVec.toNat_ofNat]
  congr 1
  refine BitVec.eq_of_toNat_eq ?_
  rw [BitVec.toNat_ofNat, BitVec.toNat_ofNat, Nat.mod_mod_of_dvd _ (by decide), Nat.mul_mod]

theorem length_takeWhile_range {n k : Nat} {p : Nat → Bool} (hk : k ≤ n) (h : ∀ i < k, p i = true)
    (hp : k < n → p k = false) : ((List.range n).takeWhile p).length = k := by
  obtain ⟨m, rfl⟩ := Nat.exists_eq_add_of_le hk
  rw [List.range_add, List.takeWhile_append_of_pos (fun i hi => h i (List.mem_range.1 hi)), List.length_append, List.length_range]
  cases m with
  | zero => simp
  | succ m => simp [List.range_succ_eq_map, hp (by omega)]

theorem clz64_eq (x : Word) :
    clz64 x = BitVec.ofNat 64 ((List.range 64).takeWhile fun i => !x.getLsbD (63 - i)).length := by
  rw [clz64]
  split
  · next h =>
    subst h
    rfl
  · next h =>
    have hx : x.toNat ≠ 0 := fun e => h (BitVec.eq_of_toNat_eq e)
    have hlog : x.toNat.log2 < 64 := (Nat.log2_lt hx).2 x.isLt
    rw [length_takeWhile_range (k := 63 - x.toNat.log2) (by omega)]
    · intro i hi
      have hlt : x.toNat < 2 ^ (63 - i) := (Nat.log2_lt hx).1 (by omega)
      simp [BitVec.getLsbD, Nat.testBit_lt_two_pow hlt]
    · intro _
      rw [show 63 - (63 - x.toNat.log2) = x.toNat.log2 by omega, BitVec.getLsbD, Nat.testBit_log2 hx]
      rfl

theorem ctz64_eq (x : Word) :
    ctz64 x = BitVec.ofNat 64 ((List.range 64).takeWhile fun i => !x.getLsbD i).length := by
  rw [ctz64]
  cases h : (List.range 64).find? fun i => x.getLsbD i with
  | none =>
    rw [List.find?_eq_none] at h
    rw [length_takeWhile_range (le_refl 64) (fun i hi => by simpa using h i (List.mem_range.2 hi)) (absurd · (lt_irrefl 64))]
    rfl
  | some k =>
    obtain ⟨hk, hlt, hlow⟩ := List.find?_range_eq_some.1 h
    rw [length_takeWhile_range (le_of_lt (List.mem_range.1 hlt)) hlow (fun _ => by simp [hk])]
    rfl

theorem popc64_eq (x : Word) : popc64 x = BitVec.ofNat 64 ((List.range 64).countP fun i => x.getLsbD i) := by
  rw [popc64, List.countP_eq_length_filter]

theorem brev64_eq (x : Word) : brev64 x = BitVec.ofFnLE fun i : Fin 64 => x.getLsbD (63 - i) := by
  refine eq_ofFnLE fun i => ?_
  rw [brev64, BitVec.getLsbD_reverse, BitVec.getMsbD_eq_getLsbD, decide_eq_true i.isLt, Bool.true_and]

theorem bswap64_eq (x : Word) : bswap64 x = BitVec.ofFnLE fun i : Fin 64 => x.getLsbD (8 * (7 - i / 8) + i % 8) := by
  refine eq_ofFnLE fun i => ?_
  simp only [bswap64, BitVec.getLsbD_append, BitVec.getLsbD_extractLsb']
  split_ifs
  all_goals
    rw [decide_eq_true (by omega), Bool.true_and]
    congr 1
    omega

/-! ### The register forms (R82, R83) -/

/-- Each form with two sources is the shared form with R83's own arithmetic. -/
theorem exec_rrForm {r : RRForm} (hr : r ∈ rrForms) (s : State) (d a b : BitVec 6) (g : BitVec 3) (i : BitVec 1) :
    exec (r.ins d a b g i) s = scalarRR r.lat r.f d a b g i s := by
  simp only [rrForms, List.mem_cons, List.not_mem_nil, or_false] at hr
  obtain rfl | rfl | rfl | rfl | rfl | rfl | rfl | rfl | rfl | rfl | rfl | rfl | rfl | rfl | rfl | rfl | rfl | rfl | rfl | rfl |
    rfl | rfl := hr
  · exact (exec_add s).trans (congrArg (scalarRR 1 · d a b g i s) (funext₂ add_eq_ofNat))
  · exact (exec_sub s).trans (congrArg (scalarRR 1 · d a b g i s) (funext₂ sub_eq_ofInt))
  · exact (exec_and s).trans (congrArg (scalarRR 1 · d a b g i s) (funext₂ and_eq_ofFnLE))
  · exact (exec_or s).trans (congrArg (scalarRR 1 · d a b g i s) (funext₂ or_eq_ofFnLE))
  · exact (exec_xor s).trans (congrArg (scalarRR 1 · d a b g i s) (funext₂ xor_eq_ofFnLE))
  · exact (exec_andn s).trans (congrArg (scalarRR 1 · d a b g i s) (funext₂ andn_eq_ofFnLE))
  · exact (exec_shl s).trans (congrArg (scalarRR 1 · d a b g i s) (funext₂ fun x y => by rw [shiftCount_eq_cnt, shiftLeft_eq_ofNat]))
  · exact (exec_shr s).trans (congrArg (scalarRR 1 · d a b g i s) (funext₂ fun x y => by rw [shiftCount_eq_cnt, ushiftRight_eq_ofNat]))
  · exact (exec_sar s).trans (congrArg (scalarRR 1 · d a b g i s) (funext₂ fun x y => by rw [shiftCount_eq_cnt, sshiftRight_eq_ofInt]))
  · exact (exec_rol s).trans (congrArg (scalarRR 1 · d a b g i s) (funext₂ fun x y => by rw [shiftCount_eq_cnt, rotateLeft_eq_ofFnLE x (cnt_lt y)]))
  · exact (exec_mul s).trans (congrArg (scalarRR 3 · d a b g i s) (funext₂ mul_eq_ofNat))
  · exact (exec_mulhs s).trans (congrArg (scalarRR 3 · d a b g i s) (funext₂ mulHighS_eq_ofInt))
  · exact (exec_mulhu s).trans (congrArg (scalarRR 3 · d a b g i s) (funext₂ mulHighU_eq_ofNat))
  · exact (exec_mins s).trans (congrArg (scalarRR 1 · d a b g i s) (funext₂ smin_eq_ofInt))
  · exact (exec_minu s).trans (congrArg (scalarRR 1 · d a b g i s) (funext₂ umin_eq_ofNat))
  · exact (exec_maxs s).trans (congrArg (scalarRR 1 · d a b g i s) (funext₂ smax_eq_ofInt))
  · exact (exec_maxu s).trans (congrArg (scalarRR 1 · d a b g i s) (funext₂ umax_eq_ofNat))
  · exact (exec_sext s).trans (congrArg (scalarRR 1 · d a b g i s) (funext₂ sextFrom_eq_ofFnLE))
  · exact (exec_zext s).trans (congrArg (scalarRR 1 · d a b g i s) (funext₂ zextFrom_eq_ofNat))
  · exact (exec_addw s).trans (congrArg (scalarRR 1 · d a b g i s) (funext₂ addw_eq))
  · exact (exec_subw s).trans (congrArg (scalarRR 1 · d a b g i s) (funext₂ subw_eq))
  · exact (exec_mulw s).trans (congrArg (scalarRR 3 · d a b g i s) (funext₂ mulw_eq))

/-- Each form with one source is the shared form, which reads s0 beside it. -/
theorem exec_unaryForm {r : UnaryForm} (hr : r ∈ unaryForms) (s : State) (d a : BitVec 6) (g : BitVec 3) (i : BitVec 1) :
    exec (r.ins d a g i) s = scalarRR 1 (fun x _ => r.f x) d a 0 g i s := by
  simp only [unaryForms, List.mem_cons, List.not_mem_nil, or_false] at hr
  obtain rfl | rfl | rfl | rfl | rfl := hr
  · exact (exec_clz s).trans (congrArg (scalarRR 1 · d a 0 g i s) (funext₂ fun x _ => clz64_eq x))
  · exact (exec_ctz s).trans (congrArg (scalarRR 1 · d a 0 g i s) (funext₂ fun x _ => ctz64_eq x))
  · exact (exec_popc s).trans (congrArg (scalarRR 1 · d a 0 g i s) (funext₂ fun x _ => popc64_eq x))
  · exact (exec_brev s).trans (congrArg (scalarRR 1 · d a 0 g i s) (funext₂ fun x _ => brev64_eq x))
  · exact (exec_bswap s).trans (congrArg (scalarRR 1 · d a 0 g i s) (funext₂ fun x _ => bswap64_eq x))

section
variable {s : State} {u : UnitSt} {lat : Nat} {f : Word → Word → Word} {d a b : BitVec 6} {g : BitVec 3} {i : BitVec 1}

theorem scalarRR_done (hu : AtIssue s u) (hl : Unlent s) (hn : NoHazard u [.pred g, .scalar a, .scalar b] [(.scalar d, lat)]) :
    scalarRR lat f d a b g i s =
      .next (done (if guardHolds u g i then schedScalar s s.issue.me u d (f (u.reg a) (u.reg b)) lat else s)) :=
  runSlot_done hu (firstFail_noLend_stallCheck hl hn)

theorem scalarRR_lent (hu : AtIssue s u) (hl : ¬ Unlent s) :
    scalarRR lat f d a b g i s = .next (faulted s cIllegalOp u.bundleVa) :=
  runSlot_fault hu (by rw [noLend_of_lent hl, firstFail_fault])

theorem scalarRR_hazard (hu : AtIssue s u) (hl : Unlent s)
    (hn : ¬ NoHazard u [.pred g, .scalar a, .scalar b] [(.scalar d, lat)]) :
    scalarRR lat f d a b g i s = .next (faulted s cUndersized u.bundleVa) :=
  runSlot_fault hu (by rw [firstFail_noLend hl, stallCheck_of_hazard hn, firstFail_fault])

end

/-- Settles O11: every form is the shared form of R82 whose checks pass. -/
theorem scalarResults : Obligations.ScalarResults := by
  refine ⟨fun r hr s u d a b g i hu hl hn => ?_, fun r hr s u d a g i hu hl hn => ?_⟩
  · rw [exec_rrForm hr, scalarRR_done hu hl hn]
  · rw [exec_unaryForm hr, scalarRR_done hu hl hn]

/-! ### The immediate forms (R38, R88) -/

/-- The extended immediate is R38's number, which is short. -/
theorem immSext_eq_ofInt (is : Issue) (i : BitVec 10) : immSext is i = BitVec.ofInt 64 (immOf is i) := by
  unfold immSext immOf
  split <;> rfl

theorem immOf_bounds (is : Issue) (i : BitVec 10) : -2 ^ 17 ≤ immOf is i ∧ immOf is i < 2 ^ 17 := by
  unfold immOf
  split
  · exact ⟨BitVec.le_toInt _, BitVec.toInt_lt⟩
  · have h := BitVec.le_toInt i
    have h' := BitVec.toInt_lt (x := i)
    omega

theorem add_ofInt (x : Word) (v : Int) : x + BitVec.ofInt 64 v = BitVec.ofInt 64 (x.toInt + v) := by
  rw [BitVec.ofInt_add, BitVec.ofInt_toInt]

theorem mul_ofInt (x : Word) (v : Int) : x * BitVec.ofInt 64 v = BitVec.ofInt 64 (x.toInt * v) := by
  rw [BitVec.ofInt_mul, BitVec.ofInt_toInt]

theorem beq_eq_decide_toInt (x y : Word) : (x == y) = decide (x.toInt = y.toInt) := by
  rw [beq_eq_decide, decide_eq_decide, BitVec.toInt_inj]

theorem toInt_immSext (is : Issue) (i : BitVec 10) : (immSext is i).toInt = immOf is i := by
  obtain ⟨hl, hu⟩ := immOf_bounds is i
  rw [immSext_eq_ofInt, BitVec.toInt_ofInt]
  exact Int.bmod_eq_of_le (by omega) (by omega)

theorem toNat_immSext (is : Issue) (i : BitVec 10) : (immSext is i).toNat = (immOf is i % 2 ^ 64).toNat := by
  rw [immSext_eq_ofInt, BitVec.toNat_ofInt]
  rfl

/-- R88's limits of a shift by an immediate. -/
theorem badShift_immSext (is : Issue) (i : BitVec 10) :
    badShift (immSext is i) = !decide (0 ≤ immOf is i ∧ immOf is i ≤ 63) := by
  obtain ⟨hl, hu⟩ := immOf_bounds is i
  rw [badShift, toNat_immSext, ← decide_not, decide_eq_decide]
  omega

theorem toNat_immSext_of_shift {is : Issue} {i : BitVec 10} (h : decide (0 ≤ immOf is i ∧ immOf is i ≤ 63) = true) :
    (immSext is i).toNat = (immOf is i).toNat := by
  rw [decide_eq_true_eq] at h
  rw [toNat_immSext, Int.emod_eq_of_lt (by omega) (by omega)]

section
variable {s : State} {u : UnitSt} {lat : Nat} {bad : Word → Bool} {f : Word → Word → Word} {d a : BitVec 6} {i : BitVec 10}

theorem scalarRI_done {v : Word} (hu : AtIssue s u) (hb : bad (immSext s.issue i) = false)
    (hn : NoHazard u [.scalar a] [(.scalar d, lat)]) (hv : f (u.reg a) (immSext s.issue i) = v) :
    scalarRI lat bad f d a i s = .next (done (schedScalar s s.issue.me u d v lat)) := by
  rw [← hv]
  exact runSlot_done hu (by rw [hb, illegalIf_false, firstFail_done, firstFail_stallCheck hn, firstFail_nil])

theorem scalarRI_illegal (hu : AtIssue s u) (hb : bad (immSext s.issue i) = true) :
    scalarRI lat bad f d a i s = .next (faulted s cIllegalOp u.bundleVa) :=
  runSlot_fault hu (by rw [hb, illegalIf_true, firstFail_fault])

theorem scalarCmpI_done {f : Word → Word → Bool} {p : BitVec 3} (hu : AtIssue s u) (hn : NoHazard u [.scalar a] [(.pred p, 1)]) :
    scalarCmpI f p a i s = .next (done (schedPred s s.issue.me u p (f (u.reg a) (immSext s.issue i)) 1)) :=
  runSlot_done hu (stallCheck_of_noHazard hn)

end

/-- LIX's value in the arithmetic of R88: the shifted register leaves the bits of the immediate free. -/
theorem shiftLeft_or_eq_ofNat (x v : Word) (hv : v.toNat < 2 ^ 18) : x <<< 18 ||| v = BitVec.ofNat 64 (x.toNat * 2 ^ 18 + v.toNat) := by
  refine BitVec.eq_of_toNat_eq ?_
  rw [BitVec.toNat_or, BitVec.toNat_shiftLeft, BitVec.toNat_ofNat, ← Nat.shiftLeft_eq, Nat.shiftLeft_add_eq_or_of_lt hv,
    Nat.or_mod_two_pow, Nat.mod_eq_of_lt v.isLt]

theorem toNat_immZext (is : Issue) (i : BitVec 10) :
    (immZext is i).toNat = (if is.hasHdr then is.lend.toNat * 1024 else 0) + i.toNat := by
  rw [immZext]
  split
  · rw [BitVec.toNat_setWidth_of_le (by decide), BitVec.toNat_append, ← Nat.shiftLeft_add_eq_or_of_lt i.isLt, Nat.shiftLeft_eq]
  · rw [BitVec.toNat_setWidth_of_le (by decide), Nat.zero_add]

theorem toNat_immZext_lt (is : Issue) (i : BitVec 10) : (immZext is i).toNat < 2 ^ 18 := by
  have hl := is.lend.isLt
  have hi := i.isLt
  rw [toNat_immZext]
  split <;> omega

/-- Each immediate form is the shared form. -/
theorem exec_riForm_eq {r : RIForm} (hr : r ∈ riForms) (s : State) (d a : BitVec 6) (i : BitVec 10) :
    ∃ lat bad f, exec (r.ins d a i) s = scalarRI lat bad f d a i s := by
  simp only [riForms, List.mem_cons, List.not_mem_nil, or_false] at hr
  obtain rfl | rfl | rfl | rfl | rfl | rfl | rfl | rfl := hr
  · exact ⟨_, _, _, exec_addi s⟩
  · exact ⟨_, _, _, exec_andi s⟩
  · exact ⟨_, _, _, exec_ori s⟩
  · exact ⟨_, _, _, exec_xori s⟩
  · exact ⟨_, _, _, exec_shli s⟩
  · exact ⟨_, _, _, exec_shri s⟩
  · exact ⟨_, _, _, exec_sari s⟩
  · exact ⟨_, _, _, exec_muli s⟩

/-- Each compare with an immediate is the shared form. -/
theorem exec_cmpIForm_eq {r : CmpIForm} (hr : r ∈ cmpIForms) (s : State) (p : BitVec 3) (a : BitVec 6) (i : BitVec 10) :
    ∃ f, exec (r.ins p a i) s = scalarCmpI f p a i s := by
  simp only [cmpIForms, List.mem_cons, List.not_mem_nil, or_false] at hr
  obtain rfl | rfl | rfl := hr
  · exact ⟨_, exec_cmpeqi s⟩
  · exact ⟨_, exec_cmpltsi s⟩
  · exact ⟨_, exec_cmpltui s⟩

/-- Each immediate form that admits its immediate is the shared form with R88's own result. -/
theorem exec_riForm_done {r : RIForm} (hr : r ∈ riForms) {s : State} {u : UnitSt} {d a : BitVec 6} {i : BitVec 10}
    (hu : AtIssue s u) (ho : r.ok (immOf s.issue i) = true) (hn : NoHazard u [.scalar a] [(.scalar d, r.lat)]) :
    exec (r.ins d a i) s = .next (done (schedScalar s s.issue.me u d (r.f (u.reg a) (immOf s.issue i)) r.lat)) := by
  have hbad (h : decide (0 ≤ immOf s.issue i ∧ immOf s.issue i ≤ 63) = true) : badShift (immSext s.issue i) = false := by
    rw [badShift_immSext, h, Bool.not_true]
  simp only [riForms, List.mem_cons, List.not_mem_nil, or_false] at hr
  obtain rfl | rfl | rfl | rfl | rfl | rfl | rfl | rfl := hr
  · exact (exec_addi s).trans (scalarRI_done hu rfl hn (by rw [immSext_eq_ofInt, add_ofInt]))
  · exact (exec_andi s).trans (scalarRI_done hu rfl hn (by rw [immSext_eq_ofInt]))
  · exact (exec_ori s).trans (scalarRI_done hu rfl hn (by rw [immSext_eq_ofInt]))
  · exact (exec_xori s).trans (scalarRI_done hu rfl hn (by rw [immSext_eq_ofInt]))
  · exact (exec_shli s).trans (scalarRI_done hu (hbad ho) hn (by rw [toNat_immSext_of_shift ho, shiftLeft_eq_ofNat]))
  · exact (exec_shri s).trans (scalarRI_done hu (hbad ho) hn (by rw [toNat_immSext_of_shift ho, ushiftRight_eq_ofNat]))
  · exact (exec_sari s).trans (scalarRI_done hu (hbad ho) hn (by rw [toNat_immSext_of_shift ho, sshiftRight_eq_ofInt]))
  · exact (exec_muli s).trans (scalarRI_done hu rfl hn (by rw [immSext_eq_ofInt, mul_ofInt]))

/-- The three shifts by an immediate refuse R88's immediates, and no other form refuses one. -/
theorem exec_riForm_illegal {r : RIForm} (hr : r ∈ riForms) {s : State} {u : UnitSt} {d a : BitVec 6} {i : BitVec 10}
    (hu : AtIssue s u) (ho : r.ok (immOf s.issue i) = false) :
    exec (r.ins d a i) s = .next (faulted s cIllegalOp u.bundleVa) := by
  have hbad (h : decide (0 ≤ immOf s.issue i ∧ immOf s.issue i ≤ 63) = false) : badShift (immSext s.issue i) = true := by
    rw [badShift_immSext, h, Bool.not_false]
  simp only [riForms, List.mem_cons, List.not_mem_nil, or_false] at hr
  obtain rfl | rfl | rfl | rfl | rfl | rfl | rfl | rfl := hr
  · cases ho
  · cases ho
  · cases ho
  · cases ho
  · exact (exec_shli s).trans (scalarRI_illegal hu (hbad ho))
  · exact (exec_shri s).trans (scalarRI_illegal hu (hbad ho))
  · exact (exec_sari s).trans (scalarRI_illegal hu (hbad ho))
  · cases ho

/-- Each compare with an immediate is the shared form with the order of the integers. -/
theorem exec_cmpIForm_done {r : CmpIForm} (hr : r ∈ cmpIForms) {s : State} {u : UnitSt} {p : BitVec 3} {a : BitVec 6}
    {i : BitVec 10} (hu : AtIssue s u) (hn : NoHazard u [.scalar a] [(.pred p, 1)]) :
    exec (r.ins p a i) s = .next (done (schedPred s s.issue.me u p (r.f (u.reg a) (immOf s.issue i)) 1)) := by
  simp only [cmpIForms, List.mem_cons, List.not_mem_nil, or_false] at hr
  obtain rfl | rfl | rfl := hr
  · rw [← toInt_immSext]
    refine (exec_cmpeqi s).trans ((scalarCmpI_done hu hn).trans ?_)
    rw [beq_eq_decide_toInt]
  · rw [← toInt_immSext]
    exact (exec_cmpltsi s).trans (scalarCmpI_done hu hn)
  · refine (exec_cmpltui s).trans ((scalarCmpI_done hu hn).trans ?_)
    rw [immSext_eq_ofInt]
    rfl

theorem exec_li_done {s : State} {u : UnitSt} {d : BitVec 6} {i : BitVec 10} (hu : AtIssue s u)
    (hn : NoHazard u [.scalar 0] [(.scalar d, 1)]) :
    exec (.li d i) s = .next (done (schedScalar s s.issue.me u d (BitVec.ofInt 64 (immOf s.issue i)) 1)) :=
  (exec_li s).trans (scalarRI_done hu rfl hn (immSext_eq_ofInt _ _))

theorem exec_lix_done {s : State} {u : UnitSt} {d a : BitVec 6} {i : BitVec 10} (hu : AtIssue s u)
    (hn : NoHazard u [.scalar a] [(.scalar d, 1)]) :
    exec (.lix d a i) s = .next (done (schedScalar s s.issue.me u d
      (BitVec.ofNat 64 ((u.reg a).toNat * 2 ^ 18 + (if s.issue.hasHdr then s.issue.lend.toNat * 1024 else 0) + i.toNat)) 1)) := by
  rw [Nat.add_assoc, ← toNat_immZext, ← shiftLeft_or_eq_ofNat _ _ (toNat_immZext_lt _ _)]
  exact (exec_lix s).trans (runSlot_done hu (stallCheck_of_noHazard hn))

/-- Settles O14: the checks of each form are its immediate's limit and the stall check. -/
theorem immediateForms : Obligations.ImmediateForms :=
  ⟨fun _ hr _ _ _ _ _ hu => ⟨exec_riForm_done hr hu, exec_riForm_illegal hr hu⟩, fun _ _ _ _ hu hn => exec_li_done hu hn,
    fun _ _ _ _ _ hu hn => exec_lix_done hu hn, fun _ hr _ _ _ _ _ hu hn => exec_cmpIForm_done hr hu hn⟩

/-! ### The record of pending writes (R69, R72, R78, R79) -/

/-- Settles O15: an entry is pushed unless its register discards writes, and s0 and p0 are constants. -/
theorem resultEntry : Obligations.ResultEntry := by
  refine fun s uid u d v lat => ⟨fun hd => ?_, fun hd => ?_, fun w => ⟨rfl, rfl⟩⟩
  · rw [schedScalar, schedule_eq, if_neg (by simpa [Dest.discarded] using hd)]
    rfl
  · rw [schedScalar, schedule_eq, if_pos (by simpa [Dest.discarded] using hd)]

theorem vector_get_set {α : Type} {n : Nat} (v : Vector α n) (i j : Fin n) (x : α) :
    (v.set i x).get j = if j = i then x else v.get j := by
  simp [Vector.get_eq_getElem, Vector.getElem_set, Fin.ext_iff, eq_comm]

/-- A scalar write overlaps the writes of its own register alone. -/
theorem behindWrite_scalar {u : UnitSt} {n : Nat} {e : PEntry} {r : BitVec 6} (hd : e.dest = .scalar r)
    (h : ∀ k x, k < n → u.pend[k]? = some x → x.m = 0 → x.dest ≠ .scalar r) : behindWrite u n e = false := by
  rw [behindWrite, List.any_eq_false, hd]
  intro x hx
  obtain ⟨k, hk⟩ := List.mem_iff_getElem?.1 hx
  rw [List.getElem?_take] at hk
  split at hk
  · next hkn =>
    have hne := h k x hkn hk
    cases hdest : x.dest with
    | scalar q =>
      simp only [Dest.overlaps, Bool.and_eq_true, beq_iff_eq, not_and]
      exact fun hm hq => hne hm (by rw [hdest, hq])
    | _ => simp [Dest.overlaps]
  · cases hk

theorem exec_pendingWriteVisible_scalar {s : State} {uid : Uid} {n : Nat} {u : UnitSt} {e : PEntry} {r : BitVec 6}
    (hu : s.unit? uid = some u) (he : u.pend[n]? = some e) (hm : e.m = 0) (ha : e.awaited = false) (hd : e.dest = .scalar r)
    (hfirst : ∀ k x, k < n → u.pend[k]? = some x → x.m = 0 → x.dest ≠ .scalar r) :
    exec (.pendingWriteVisible uid n) s = .next (s.setUnit uid (applyEntry { u with pend := u.pend.eraseIdx n } e)) := by
  rw [exec_pendingWriteVisible, execPendingWriteVisible]
  simp [hu, he, hm, ha, behindWrite_scalar hd hfirst]

/-- Settles O16: the entry's value goes into its register and its flags into FLAGS. -/
theorem pendingWriteVisible : Obligations.PendingWriteVisible := by
  intro s uid n u e r hu he hm ha hd hfirst
  refine ⟨_, exec_pendingWriteVisible_scalar hu he hm ha hd hfirst, ?_⟩
  simp only [applyEntry, hd]
  refine ⟨?_, fun q hq => ?_, rfl, rfl, rfl, rfl, rfl, rfl, rfl, rfl, rfl, rfl, rfl, rfl⟩
  · rw [UnitSt.modCsr_regs, UnitSt.modRegs_regs, vector_get_set, if_pos rfl, ← BitVec.setWidth_eq_extractLsb' (by decide)]
  · rw [UnitSt.modCsr_regs, UnitSt.modRegs_regs, vector_get_set, if_neg (fun h => hq (BitVec.toFin_inj.1 h))]

end Sys2Proof.Scalar
end

section
/-! PROOFS.
The floating-point forms of the vector unit (chapter 05), and what the scalar and the vector forms have in common: the faults
of a slot at issue, and the frame of one that completes. -/

-- One proof at a time: the check of the whole text has a limit on memory, which many threads would reach.
set_option Elab.async false

namespace Sys2Proof.VectorForms

open Sys2Proof.Machine Sys2Proof.Safety Sys2Proof.Sequencer Sys2Proof.Vector Sys2Proof.Scalar

/-! ### Every lane on its own (R133, R134) -/

@[simp] theorem lane64_lanes64 (f : Nat → BitVec 64 × BitVec 5) {i : Nat} (h : i < 8) : lane64 (lanes64 f).1 i = (f i).1 := by
  simp [lanes64, h]

/-- The flags of a list of lanes are those that some lane raises. -/
theorem getLsbD_foldl_or {α : Type} (l : List (α × BitVec 5)) (acc : BitVec 5) (k : Nat) :
    (l.foldl (fun acc x => acc ||| x.2) acc).getLsbD k = true ↔ acc.getLsbD k = true ∨ ∃ x ∈ l, x.2.getLsbD k = true := by
  induction l generalizing acc with
  | nil => simp
  | cons x l ih => simp [ih, or_assoc]

theorem lanes32_flags (f : Nat → BitVec 32 × BitVec 5) (k : Nat) :
    (lanes32 f).2.getLsbD k = true ↔ ∃ i < 16, (f i).2.getLsbD k = true := by
  simp [lanes32, getLsbD_foldl_or]

theorem lanes64_flags (f : Nat → BitVec 64 × BitVec 5) (k : Nat) :
    (lanes64 f).2.getLsbD k = true ↔ ∃ i < 8, (f i).2.getLsbD k = true := by
  simp [lanes64, getLsbD_foldl_or]

/-! ### The forms of V.FP and V.FP64 (R59, R144 to R148) -/

/-- VNEG flips the top bit of the lane's format. -/
theorem laneNeg_eq : laneNeg = fun f _ _ _ a _ =>
    (if a / 2 ^ (f.width - 1) % 2 = 1 then a % 2 ^ (f.width - 1) else a % 2 ^ (f.width - 1) + 2 ^ (f.width - 1), 0) := by
  funext f w rm c a b
  obtain ⟨n, hn⟩ : ∃ n, f.width = n + 1 := ⟨_, rfl⟩
  have hlt : a % 2 ^ n < 2 ^ n := Nat.mod_lt _ (Nat.two_pow_pos n)
  simp only [laneNeg, hn, Nat.add_sub_cancel, Prod.mk.injEq, and_true]
  have hbit : a % (2 ^ n * 2) = a % 2 ^ n + 2 ^ n * (a / 2 ^ n % 2) := Nat.mod_mul
  rw [Nat.pow_succ, hbit]
  split
  · next h => rw [h, Nat.mul_one, Nat.add_assoc, ← Nat.mul_two, Nat.add_mod_right, Nat.mod_eq_of_lt (by omega)]
  · next h =>
    rw [show a / 2 ^ n % 2 = 0 by omega, Nat.mul_zero, Nat.add_zero, Nat.mod_eq_of_lt (by omega)]

/-- VSEL selects by the top bit of vd's lane. -/
theorem laneSel_eq : laneSel = fun _ w _ c a b => (if c.testBit (w - 1) then a else b, 0) := by
  funext f w rm c a b
  simp [laneSel, Nat.testBit_eq_decide_div_mod_eq]

/-- A form without vb leaves its field unread. -/
theorem fpSlot_unary {wide useD : Bool} {lat : Nat} {can : BitVec 5} {op : LaneOp} {d a : BitVec 8} {s : State} (b : BitVec 8) :
    fpSlot wide false useD lat can op d a 0 s = fpSlot wide false useD lat can op d a b s := by
  unfold fpSlot
  simp only [Bool.false_eq_true, if_false]

/-- Each form of V.FP and V.FP64 is the shared slot with its own operation on a lane. -/
theorem exec_fpForm {r : FpForm} (hr : r ∈ fpForms) (s : State) (d a b : BitVec 8) :
    exec (r.ins d a b) s = fpSlot r.wide r.useB r.useD r.lat r.can r.op d a b s := by
  simp only [fpForms, List.mem_cons, List.not_mem_nil, or_false] at hr
  obtain rfl | rfl | rfl | rfl | rfl | rfl | rfl | rfl | rfl | rfl | rfl | rfl | rfl | rfl | rfl | rfl | rfl | rfl | rfl | rfl |
    rfl | rfl | rfl | rfl | rfl | rfl | rfl | rfl | rfl | rfl | rfl | rfl := hr
  · exact exec_vadd s
  · exact exec_vsub s
  · exact exec_vmul s
  · exact exec_vfma s
  · exact exec_vfms s
  · exact exec_vdiv s
  · exact (exec_vsqrt s).trans (fpSlot_unary b)
  · exact exec_vmin s
  · exact exec_vmax s
  · exact exec_vcmpeq s
  · exact exec_vcmplt s
  · exact exec_vcmple s
  · exact (exec_vabs s).trans (fpSlot_unary b)
  · exact (exec_vneg s).trans ((congrArg (fpSlot false false false 2 0 · d a 0 s) laneNeg_eq).trans (fpSlot_unary b))
  · exact (exec_vsel s).trans (congrArg (fpSlot false true true 2 0 · d a b s) laneSel_eq)
  · exact (exec_vclass s).trans (fpSlot_unary b)
  · exact exec_vaddF64 s
  · exact exec_vsubF64 s
  · exact exec_vmulF64 s
  · exact exec_vfmaF64 s
  · exact exec_vfmsF64 s
  · exact exec_vdivF64 s
  · exact (exec_vsqrtF64 s).trans (fpSlot_unary b)
  · exact exec_vminF64 s
  · exact exec_vmaxF64 s
  · exact exec_vcmpeqF64 s
  · exact exec_vcmpltF64 s
  · exact exec_vcmpleF64 s
  · exact (exec_vabsF64 s).trans (fpSlot_unary b)
  · exact (exec_vnegF64 s).trans ((congrArg (fpSlot true false false 2 0 · d a 0 s) laneNeg_eq).trans (fpSlot_unary b))
  · exact (exec_vselF64 s).trans (congrArg (fpSlot true true true 2 0 · d a b s) laneSel_eq)
  · exact (exec_vclassF64 s).trans (fpSlot_unary b)

/-- The result and the flags of a form on whole vectors. -/
def fpResult (r : FpForm) (is : Issue) (u : UnitSt) (d a b : BitVec 8) : BitVec 512 × BitVec 5 :=
  fpVec r.wide (fmtOf (lendFmt is.lend)) r.op (slotRm u is.lend) (u.vec (opD is d)) (u.vec (opA is a))
    (if r.useB then u.vec (opB is b) else 0)

theorem fpSlot_done {r : FpForm} {s : State} {u : UnitSt} {d a b : BitVec 8} (hu : AtIssue s u) (hl : r.lendOk s.issue.lend) :
    let reads := r.reads s.issue d a b
    NoHazard u (reads.map VOperand.dest) [((opD s.issue d).dest, slowLat r.lat reads)] →
    fpSlot r.wide r.useB r.useD r.lat r.can r.op d a b s = .next (vectorDone s u reads (opD s.issue d).dest
      (fpResult r s.issue u d a b).1 (slowLat r.lat reads) r.can (fpResult r s.issue u d a b).2) := by
  intro reads hn
  obtain ⟨hrm, hfmt, htb⟩ := hl
  have hmis : ((if r.wide then lendFmt s.issue.lend != 0 else lendFmt s.issue.lend == 3) || (!r.useB && lendTb s.issue.lend)) =
      false := by
    cases hw : r.wide <;> cases hb : r.useB <;> simp_all
  exact vectorSlot_done hu hrm hmis hn

theorem vectorChecks_illegal {s : State} {u : UnitSt} {misuse : Bool} {reads : List Dest} {writes : List (Dest × Nat)}
    (h : (decide (6 ≤ (lendRm s.issue.lend).toNat) || misuse) = true) :
    vectorChecks s u misuse reads writes = .fault cIllegalOp u.bundleVa := by
  rw [vectorChecks, h, illegalIf_true, firstFail_fault]

theorem fpSlot_illegal {r : FpForm} {s : State} {u : UnitSt} {d a b : BitVec 8} (hu : AtIssue s u)
    (hl : ¬ r.lendOk s.issue.lend) :
    fpSlot r.wide r.useB r.useD r.lat r.can r.op d a b s = .next (faulted s cIllegalOp u.bundleVa) := by
  have hmis : (decide (6 ≤ (lendRm s.issue.lend).toNat) ||
      ((if r.wide then lendFmt s.issue.lend != 0 else lendFmt s.issue.lend == 3) || (!r.useB && lendTb s.issue.lend))) = true := by
    rw [FpForm.lendOk] at hl
    by_contra h
    refine hl ?_
    cases hw : r.wide <;> cases hb : r.useB <;> simp_all
  unfold fpSlot vectorSlot
  exact runSlot_fault hu (vectorChecks_illegal hmis)

theorem toNat_lane64_ite (c : Bool) (v : BitVec 512) (j : Nat) :
    (lane64 (if c then v else 0) j).toNat = if c then (lane64 v j).toNat else 0 := by
  cases c <;> simp [lane64]

theorem toNat_lane32_ite (c : Bool) (v : BitVec 512) (i : Nat) :
    (lane32 (if c then v else 0) i).toNat = if c then (lane32 v i).toNat else 0 := by
  cases c <;> simp [lane32]

section
variable {r : FpForm} {is : Issue} {u : UnitSt} {d a b : BitVec 8}

theorem fpResult_of_wide (hw : r.wide = true) : fpResult r is u d a b =
    lanes64 fun j => (BitVec.ofNat 64 (r.lane is u d a b j).1, (r.lane is u d a b j).2) := by
  unfold fpResult fpVec FpForm.lane FpForm.fmt
  simp only [hw, if_true, toNat_lane64_ite]

theorem fpResult_of_narrow (hw : r.wide = false) : fpResult r is u d a b =
    lanes32 fun i => (BitVec.ofNat 32 (r.lane is u d a b i).1, (r.lane is u d a b i).2) := by
  unfold fpResult fpVec FpForm.lane FpForm.fmt
  simp only [hw, Bool.false_eq_true, if_false, toNat_lane32_ite]

theorem fpResult_flags (k : Nat) : (fpResult r is u d a b).2.getLsbD k = true ↔
    ∃ i < (if r.wide then 8 else 16), (r.lane is u d a b i).2.getLsbD k = true := by
  cases hw : r.wide with
  | true => rw [fpResult_of_wide hw]; exact lanes64_flags _ k
  | false => rw [fpResult_of_narrow hw]; exact lanes32_flags _ k

end

/-- Settles O32: each form is the shared slot, whose vector is put together from its lanes. -/
theorem vectorFloat : Obligations.VectorFloat := by
  intro r hr s u d a b hu hl reads lat dest hn
  refine ⟨_, _, (exec_fpForm hr s d a b).trans (fpSlot_done hu hl hn), fun hw j hj => ?_, fun hw i hi => ?_, fun k => ?_⟩
  · rw [fpResult_of_wide hw, lane64_lanes64 _ hj]
  · rw [fpResult_of_narrow hw, lane32_lanes32 _ hi]
  · exact fpResult_flags k

/-! ### Faults at issue (R40, R41, R62) -/

/-- Settles O17: the check of the lend byte comes first, then the stall check. -/
theorem issueFaults : Obligations.IssueFaults := by
  refine ⟨fun r hr s u d a b g i hu => ?_, fun r hr s u d a b hu hl => ?_⟩
  · rw [exec_rrForm hr]
    exact ⟨scalarRR_lent hu, scalarRR_hazard hu⟩
  · rw [exec_fpForm hr, fpSlot_illegal hu hl]

/-! ### The frame of a slot that completes (R78, R82) -/

/-- A slot that completes left nothing but entries for `ds` in its unit's record. -/
def Framed (s t : State) (u : UnitSt) (ds : List Dest) : Prop := SameBeyondUnits s t ∧ OnlyRecord s t u ds

section
variable {s t : State} {u : UnitSt} {ds : List Dest}

theorem framed_self (hu : AtIssue s u) : Framed s s u ds := by
  refine ⟨⟨rfl, rfl, rfl, rfl, rfl, rfl, rfl, rfl, rfl, rfl, rfl, rfl⟩, [], by simp, ?_⟩
  obtain ⟨hi, hu'⟩ := List.getElem?_eq_some_iff.1 hu
  rw [List.append_nil, ← hu', List.set_getElem_self]

theorem Framed.done (h : Framed s t u ds) : Framed s (done t) u ds := h

theorem framed_schedule {d : Dest} {v : BitVec 512} {lat : Nat} {fl : BitVec 5} :
    Framed s (schedule s s.issue.me u d v lat fl) u [d] := schedule_only

/-- What a vector slot notes of itself is no part of the machine. -/
theorem framed_schedule_noteVector {reads : List VOperand} {can raised : BitVec 5} {l : Nat} {d : Dest} {v : BitVec 512} {lat : Nat}
    {fl : BitVec 5} : Framed s (schedule (noteVector s reads can raised l) s.issue.me u d v lat fl) u [d] := schedule_only

/-- A slot whose effect is framed is framed where it completes. -/
theorem framed_of_runSlot {chk : State → UnitSt → SlotResult} {eff : State → UnitSt → State} (hu : AtIssue s u)
    (ht : t.issue.result = .done) (he : Framed s (eff s u) u ds) (hr : runSlot s chk eff = .next t) : Framed s t u ds := by
  obtain ⟨-, rfl⟩ := runSlot_inv hu hr ht
  exact he.done

theorem framed_of_vectorSlot {misuse : Issue → Bool} {reads : Issue → List VOperand} {dest : Issue → VOperand} {lat : Nat}
    {can : BitVec 5} {f : Issue → UnitSt → BitVec 512 × BitVec 5} (hu : AtIssue s u) (ht : t.issue.result = .done)
    (hr : vectorSlot misuse reads dest lat can f s = .next t) : Framed s t u [(dest s.issue).dest] := by
  unfold vectorSlot at hr
  exact framed_of_runSlot hu ht framed_schedule_noteVector hr

theorem framed_ite {c : Prop} [Decidable c] {w : State} (h : Framed s t u ds) (h' : Framed s w u ds) :
    Framed s (if c then t else w) u ds := by
  split
  · exact h
  · exact h'

end

/-- Settles O18: each shared form has an effect that only enters a result. -/
theorem slotFrame : Obligations.SlotFrame := by
  refine ⟨fun s t u hu ht => ⟨?rr, ?unary, ?cmp, ?pred, ?ri, ?cmpI⟩, fun s t u d a b hu ht => ⟨?fp, ?int⟩⟩
  case rr =>
    intro r hr d a b g i h
    rw [List.mem_append] at hr
    obtain hr | hr := hr
    · rw [exec_rrForm hr] at h
      exact framed_of_runSlot hu ht (framed_ite framed_schedule (framed_self hu)) h
    · rw [exec_divForm hr] at h
      exact framed_of_runSlot hu ht (framed_ite framed_schedule (framed_self hu)) h
  case unary =>
    intro r hr d a g i h
    rw [exec_unaryForm hr] at h
    exact framed_of_runSlot hu ht (framed_ite framed_schedule (framed_self hu)) h
  case cmp =>
    intro r hr p a b g i h
    rw [exec_cmpForm hr] at h
    exact framed_of_runSlot hu ht (framed_ite framed_schedule (framed_self hu)) h
  case pred =>
    intro r hr p a b g i h
    rw [exec_predForm hr] at h
    exact framed_of_runSlot hu ht (framed_ite framed_schedule (framed_self hu)) h
  case ri =>
    intro r hr d a i h
    obtain ⟨lat, bad, f, hf⟩ := exec_riForm_eq hr s d a i
    rw [hf] at h
    exact framed_of_runSlot hu ht framed_schedule h
  case cmpI =>
    intro r hr p a i h
    obtain ⟨f, hf⟩ := exec_cmpIForm_eq hr s p a i
    rw [hf] at h
    exact framed_of_runSlot hu ht framed_schedule h
  case fp =>
    intro r hr h
    rw [exec_fpForm hr] at h
    exact framed_of_vectorSlot hu ht h
  case int =>
    intro r hr h
    rw [exec_intForm hr] at h
    exact framed_of_vectorSlot hu ht h

end Sys2Proof.VectorForms
end

section
/-! PROOFS.
Bring-up, the PC chain, and the rules of NaN inputs and invalid operations (tier 1). -/

-- One proof at a time: the check of the whole text has a limit on memory, which many threads would reach.
set_option Elab.async false

namespace Sys2Proof.BringUp

open Sys2Proof.Machine Sys2Proof.Safety

/-! ### Bring-up (chapter 16) -/

@[simp] theorem reset_cluster (c : ClusterNo) : State.reset.cluster c = Cluster.reset := by
  show (Vector.replicate 128 Cluster.reset)[c.val] = _
  simp

@[simp] theorem reset_die (d : DieNo) : State.reset.die d = Die.reset := by
  show (Vector.replicate 8 Die.reset)[d.val] = _
  simp

/-- Settles O1: every component is read off the reset state. -/
theorem resetState : Obligations.ResetState := by
  unfold Obligations.ResetState
  refine ⟨rfl, rfl, rfl, rfl, rfl, rfl, rfl, fun a => rfl, fun c => ?_, fun d => ?_, rfl, rfl⟩
  · rw [reset_cluster]
    exact ⟨rfl, rfl, rfl⟩
  · rw [reset_die]
    rfl

/-- Settles O2: every memory is empty at reset. -/
theorem resetMemoryCanonical : Obligations.ResetMemoryCanonical := by
  unfold Obligations.ResetMemoryCanonical
  refine ⟨rfl, rfl, fun c => ?_⟩
  rw [reset_cluster]
  exact ⟨rfl, rfl, rfl⟩

/-! ### The PC chain (R89) -/

/-- Settles O20: the chain behind a bundle with a transfer, taken or not, and behind one without. -/
theorem chainAdvance : Obligations.ChainAdvance := by
  unfold Obligations.ChainAdvance
  intro f x
  cases hx : x.taken <;> cases hb : x.brn <;> simp [advanceChain, hx, hb]

/-! ### NaN inputs and invalid operations (R141, R142) -/

/-- The first NaN among the operands is the result, quieted, and a signalling one among them raises NV. -/
theorem nanRule_cons_nan (f : Fmt) (x : Nat) (sg : Bool) (l : List Fp) :
    nanRule f (.nan x sg :: l) = some (quiet f x, if sg || l.any Fp.isSnan then fNV else 0) := rfl

/-- An operand that is no NaN is passed over. -/
theorem nanRule_cons_num (f : Fmt) {a : Fp} (h : a.isNan = false) (l : List Fp) : nanRule f (a :: l) = nanRule f l := by
  cases a with
  | nan x sg => cases h
  | inf n => rfl
  | fin n m e => rfl

/-- A number is no signalling NaN. -/
theorem isSnan_of_num {a : Fp} (h : a.isNan = false) : a.isSnan = false := by
  cases a with
  | nan x sg => cases h
  | inf n => rfl
  | fin n m e => rfl

/-- With one NaN input, in either place, the arithmetic forms of two operands return it. -/
theorem binary_nan (f : Fmt) (rm : Rm) {x : Nat} {sg : Bool} {a b : Fp}
    (h : nanRule f [a, b] = some (quiet f x, if sg then fNV else 0)) :
    ∀ g ∈ [fpAdd, fpSub, fpMul, fpDiv], g f rm a b = (x ||| 2 ^ (f.fbits - 1), if sg then fNV else 0) := by
  have hr : (x ||| 2 ^ (f.fbits - 1), if sg then fNV else 0) = (quiet f x, if sg then fNV else (0 : BitVec 5)) := rfl
  rw [hr]
  simp [fpAdd, fpSub, fpMul, fpDiv, h]

/-- Settles O34: a NaN input by `nanRule`, the invalid operations and the division by zero by the forms' own cases. -/
theorem nanAndInvalidRules : Obligations.NanAndInvalidRules := by
  unfold Obligations.NanAndInvalidRules
  intro f rm
  refine ⟨fun x sg b hb r hr => ?_, fun x y sg tg c sub => ?_, fun n e g => ?_, fun n g m e e' hm => ?_, rfl, rfl, rfl, rfl⟩
  · have hleft : nanRule f [.nan x sg, b] = some (quiet f x, if sg then fNV else 0) := by
      simp [nanRule_cons_nan, isSnan_of_num hb]
    have hright : nanRule f [b, .nan x sg] = some (quiet f x, if sg then fNV else 0) := by
      simp [nanRule_cons_num f hb, nanRule_cons_nan]
    have h1 := binary_nan f rm hleft
    have h2 := binary_nan f rm hright
    simp only [List.forall_mem_cons, List.not_mem_nil, false_implies, implies_true, and_true] at h1 h2
    simp only [List.mem_cons, List.not_mem_nil, or_false] at hr
    rcases hr with rfl | rfl | rfl | rfl | rfl | rfl | rfl | rfl
    exacts [h1.1, h1.2.1, h1.2.2.1, h1.2.2.2, h2.1, h2.2.1, h2.2.2.1, h2.2.2.2]
  · simp [fpFma, nanRule_cons_nan, quiet, Fp.isSnan, Bool.or_assoc]
  · simp [fpMul, fpAdd, fpDiv, fpSqrt, nanRule, Fp.isNan]
  · simp [fpDiv, nanRule, Fp.isNan, hm]

end Sys2Proof.BringUp
end

section
/-! PROOFS.
The tile operand of a vector slot in its four directions, and the forms of V.XFER that convert, transform and reduce (chapter
05). -/

-- One proof at a time: the check of the whole text has a limit on memory, which many threads would reach.
set_option Elab.async false

namespace Sys2Proof.Tiles

open Sys2Proof.Machine Sys2Proof.Safety Sys2Proof.Sequencer Sys2Proof.Vector Sys2Proof.VectorForms

/-! ### The elements of a tile (R46, R133) -/

/-- A bit of a vector is a bit of its lane. -/
theorem getLsbD_eq_lane32 (v : BitVec 512) (k : Nat) : v.getLsbD k = (lane32 v (k / 32)).getLsbD (k % 32) := by
  have hk : 32 * (k / 32) + k % 32 = k := Nat.div_add_mod k 32
  simp [lane32, Nat.mod_lt, hk]

theorem eq_of_lane32_eq {v w : BitVec 512} (h : ∀ i < 16, lane32 v i = lane32 w i) : v = w := by
  apply BitVec.eq_of_getLsbD_eq
  intro k hk
  rw [getLsbD_eq_lane32 v, getLsbD_eq_lane32 w, h _ (by omega)]

/-- The bits of a tile with one element changed. -/
theorem getLsbD_setTileElem (t : BitVec 8192) (r c : Nat) (v : BitVec 32) (k : Nat) (hk : k < 8192) :
    (setTileElem t r c v).getLsbD k =
      if 32 * (16 * r + c) ≤ k ∧ k < 32 * (16 * r + c) + 32 then v.getLsbD (k - 32 * (16 * r + c)) else t.getLsbD k := by
  have hones : ∀ j, (0xFFFFFFFF#8192).getLsbD j = decide (j < 32) := fun j => by
    rw [BitVec.getLsbD_ofNat, show (0xFFFFFFFF : Nat) = 2 ^ 32 - 1 from rfl, Nat.testBit_two_pow_sub_one]
    by_cases hj : j < 32
    · simp [hj, Nat.lt_trans hj (by decide : 32 < 8192)]
    · simp [hj]
  simp only [setTileElem, BitVec.getLsbD_or, BitVec.getLsbD_and, BitVec.getLsbD_not, BitVec.getLsbD_shiftLeft, hones,
    BitVec.getLsbD_setWidth, hk, decide_true, Bool.true_and]
  by_cases hlo : k < 32 * (16 * r + c)
  · simp [hlo, Nat.not_le.2 hlo]
  · by_cases hhi : k - 32 * (16 * r + c) < 32
    · have hlt : k < 32 * (16 * r + c) + 32 := by omega
      have hle : k - 32 * (16 * r + c) < 8192 := by omega
      simp [hlo, hhi, hlt, hle, Nat.not_lt.1 hlo]
    · have hge : ¬ k < 32 * (16 * r + c) + 32 := by omega
      simp [hlo, hhi, hge, BitVec.getLsbD_of_ge v _ (Nat.not_lt.1 hhi)]

/-- An element written reads back, and every other element reads as before. -/
theorem tileElem_setTileElem (t : BitVec 8192) {r c r' c' : Nat} (v : BitVec 32) (hc : c < 16) (hr' : r' < 16) (hc' : c' < 16) :
    tileElem (setTileElem t r c v) r' c' = if (r, c) = (r', c') then v else tileElem t r' c' := by
  apply BitVec.eq_of_getLsbD_eq
  intro i hi
  simp only [tileElem, BitVec.getLsbD_extractLsb', hi, decide_true, Bool.true_and, Prod.mk.injEq]
  rw [getLsbD_setTileElem _ _ _ _ _ (by omega)]
  by_cases h : r = r' ∧ c = c'
  · obtain ⟨rfl, rfl⟩ := h
    simp [hi]
  · rw [if_neg (by omega), if_neg h, BitVec.getLsbD_extractLsb']
    simp [hi]

/-- The positions that a direction names lie in the tile. -/
theorem elemPos_lt (d : BitVec 2) (x : BitVec 4) {i : Nat} (hi : i < 16) : (elemPos d x i).1 < 16 ∧ (elemPos d x i).2 < 16 := by
  have hx : x.toNat < 16 := x.isLt
  unfold elemPos
  split <;> refine ⟨?_, ?_⟩ <;> dsimp only <;> omega

/-- Different elements of a vector have different positions. -/
theorem elemPos_inj (d : BitVec 2) (x : BitVec 4) {i j : Nat} (h : elemPos d x i = elemPos d x j) : i = j := by
  unfold elemPos at h
  split at h <;> simp only [Prod.mk.injEq] at h
  · exact h.2
  all_goals exact h.1

/-- Element k of a vector is the element of the tile at its position. -/
@[simp] theorem lane32_readVec (t : BitVec 8192) (d : BitVec 2) (x : BitVec 4) {k : Nat} (hk : k < 16) :
    lane32 (readVec t d x) k = tileElem t (elemPos d x k).1 (elemPos d x k).2 := by
  simp [readVec, hk]

/-- After the first n elements are written, they hold the vector's and every other element its own. -/
theorem tileElem_foldl_setTileElem (t : BitVec 8192) (d : BitVec 2) (x : BitVec 4) (v : BitVec 512) {n r c : Nat} (hn : n ≤ 16)
    (hr : r < 16) (hc : c < 16) :
    (∀ k < n, elemPos d x k = (r, c) → tileElem ((List.range n).foldl (fun acc i =>
      setTileElem acc (elemPos d x i).1 (elemPos d x i).2 (lane32 v i)) t) r c = lane32 v k) ∧
    ((∀ k < n, elemPos d x k ≠ (r, c)) → tileElem ((List.range n).foldl (fun acc i =>
      setTileElem acc (elemPos d x i).1 (elemPos d x i).2 (lane32 v i)) t) r c = tileElem t r c) := by
  induction n with
  | zero => simp
  | succ n ih =>
    obtain ⟨ihin, ihout⟩ := ih (by omega)
    rw [List.range_succ, List.foldl_append, List.foldl_cons, List.foldl_nil,
      tileElem_setTileElem _ _ (elemPos_lt d x (by omega)).2 hr hc, Prod.mk.eta]
    refine ⟨fun k hk hpos => ?_, fun hne => ?_⟩
    · rcases Nat.lt_succ_iff_lt_or_eq.1 hk with hlt | rfl
      · have hne : elemPos d x n ≠ (r, c) := fun h => Nat.ne_of_lt hlt (elemPos_inj d x (hpos.trans h.symm))
        rw [if_neg hne, ihin k hlt hpos]
      · rw [if_pos hpos]
    · rw [if_neg (hne n (by omega)), ihout fun k hk => hne k (by omega)]

/-- Settles O31: the four directions by `elemPos`; a vector written is read back element by element, because its positions
differ. -/
theorem tileOperands : Obligations.TileOperands := by
  unfold Obligations.TileOperands
  intro t x v i hi
  refine ⟨lane32_readVec t 0 x hi, lane32_readVec t 1 x hi, lane32_readVec t 2 x hi, lane32_readVec t 3 x hi, fun d => ⟨?_, ?_⟩⟩
  · refine eq_of_lane32_eq fun k hk => ?_
    rw [lane32_readVec _ _ _ hk]
    obtain ⟨hr, hc⟩ := elemPos_lt d x hk
    exact (tileElem_foldl_setTileElem t d x v le_rfl hr hc).1 k hk rfl
  · intro r c hr hc hne
    exact (tileElem_foldl_setTileElem t d x v le_rfl hr hc).2 hne

/-! ### Conversions, transforms and reductions (R145, R146, R153) -/

section
variable {s : State} {u : UnitSt}

/-- A slot with no format and no third tile bit in its lend byte rounds nothing. -/
theorem xferRounds_false {l : BitVec 8} (hf : lendFmt l = 0) (ht : lendTb l = false) : xferRounds l = false := by
  simp [xferRounds, hf, ht]

/-- The common checks of a form of V.XFER that rounds to no format pass. -/
theorem vectorChecks_xfer {b : Bool} {reads : List VOperand} {d : Dest} {lat : Nat} (hrm : (lendRm s.issue.lend).toNat < 6)
    (hm : xferRounds s.issue.lend = false) (hb : b = false) (hn : NoHazard u (reads.map VOperand.dest) [(d, slowLat lat reads)]) :
    vectorChecks s u (xferRounds s.issue.lend || b) (reads.map VOperand.dest) [(d, lat + slowExtra reads)] = .done :=
  vectorChecks_done hrm (by rw [hm, hb]; rfl) hn

/-- VCVT whose queue, where it rounds stochastically, holds a word. -/
theorem execVcvt_done {d a c : BitVec 8} (hu : AtIssue s u) (hrm : (lendRm s.issue.lend).toNat < 6)
    (hm : xferRounds s.issue.lend = false) (hc : cvtReserved c = false)
    (hn : NoHazard u (([opA s.issue a] ++ (if cvtHalf c then [opD s.issue d] else [])).map VOperand.dest)
      [((opD s.issue d).dest, slowLat 3 ([opA s.issue a] ++ (if cvtHalf c then [opD s.issue d] else [])))])
    (hq : (cvtStochastic c && u.csr.rbqueue == 0) = false) {w : Word × UnitSt}
    (hw : (if cvtStochastic c then takeWord u else (0, u)) = w) :
    execVcvt d a c s = .next (vectorDone s w.2 ([opA s.issue a] ++ (if cvtHalf c then [opD s.issue d] else []))
      (opD s.issue d).dest (convert c (slotRm u s.issue.lend) w.1 (u.vec (opD s.issue d)) (u.vec (opA s.issue a))).1
      (slowLat 3 ([opA s.issue a] ++ (if cvtHalf c then [opD s.issue d] else []))) (cvtCan c)
      (convert c (slotRm u s.issue.lend) w.1 (u.vec (opD s.issue d)) (u.vec (opA s.issue a))).2) := by
  subst hw
  unfold execVcvt
  refine runSlotW_done hu ?_
  rw [vectorChecks_xfer hrm hm hc hn, hq]
  rfl

/-- VCVT that rounds stochastically, with no word in the queue. -/
theorem execVcvt_hold {d a c : BitVec 8} (hu : AtIssue s u) (hrm : (lendRm s.issue.lend).toNat < 6)
    (hm : xferRounds s.issue.lend = false) (hc : cvtReserved c = false)
    (hn : NoHazard u (([opA s.issue a] ++ (if cvtHalf c then [opD s.issue d] else [])).map VOperand.dest)
      [((opD s.issue d).dest, slowLat 3 ([opA s.issue a] ++ (if cvtHalf c then [opD s.issue d] else [])))])
    (hq : (cvtStochastic c && u.csr.rbqueue == 0) = true) :
    execVcvt d a c s = .next (noteResult (fillQueue s u) (.hold .random)) := by
  unfold execVcvt
  refine runSlotW_hold hu ?_
  rw [vectorChecks_xfer hrm hm hc hn, hq]
  rfl

/-- The transform of one vector, lane by lane: binary64 for p = 1, else binary32. -/
def transform (p : BitVec 1) (f : BitVec 2) (rm : Rm) (v : BitVec 512) : BitVec 512 × BitVec 5 :=
  if p = 1 then lanes64 fun j => to64 (fpTrans f f64 rm (lane64 v j).toNat)
  else lanes32 fun i => to32 (fpTrans f f32 rm (lane32 v i).toNat)

/-- VTRANS whose pipeline is free takes it for its interval. -/
theorem execVtrans_done {d a : BitVec 8} {p : BitVec 1} {f : BitVec 2} (hu : AtIssue s u) (hrm : (lendRm s.issue.lend).toNat < 6)
    (hm : xferRounds s.issue.lend = false) (hf : f ≠ 3) (hfree : u.run.vtrans.get s.issue.vunit = 0)
    (hn : NoHazard u [(opA s.issue a).dest]
      [((opD s.issue d).dest, slowLat (if p = 1 then 36 else 16) [opA s.issue a])]) :
    execVtrans d a p f s = .next (vectorDone s
      { u with run := { u.run with vtrans := u.run.vtrans.set s.issue.vunit (if p = 1 then 4 else 2) } } [opA s.issue a]
      (opD s.issue d).dest (transform p f (slotRm u s.issue.lend) (u.vec (opA s.issue a))).1
      (slowLat (if p = 1 then 36 else 16) [opA s.issue a]) (transCan f)
      (transform p f (slotRm u s.issue.lend) (u.vec (opA s.issue a))).2) := by
  unfold execVtrans
  refine runSlot_done hu ?_
  have hchk := vectorChecks_xfer (reads := [opA s.issue a]) hrm hm (beq_eq_false_iff_ne.2 hf) hn
  simp only [List.map_cons, List.map_nil] at hchk
  rw [hchk, hfree]
  simp

/-- Settles O36: the checks of each form pass, and the lanes of a transform are read off its vector. -/
theorem vectorConversions : Obligations.VectorConversions := by
  unfold Obligations.VectorConversions
  intro s u d a hu hrm hf ht
  have hm := xferRounds_false hf ht
  refine ⟨fun c hc hn => ⟨fun hs => ?_, fun hs hq => ?_, fun hs hq => ?_⟩, fun p f hf3 hfree hn => ?_, fun c hc hn => ?_⟩
  · exact (exec_vcvt s).trans (execVcvt_done (w := (0, u)) hu hrm hm hc hn (by simp [hs]) (if_neg (by simp [hs])))
  · exact (exec_vcvt s).trans (execVcvt_done (w := takeWord u) hu hrm hm hc hn (by simp [hs, hq]) (if_pos hs))
  · exact (exec_vcvt s).trans <| execVcvt_hold hu hrm hm hc hn (by simp [hs, hq])
  · refine ⟨_, _, (exec_vtrans s).trans (execVtrans_done hu hrm hm hf3 hfree hn), fun hp j hj => ?_, fun hp i hi => ?_⟩
    · simp [transform, hp, hj, to64]
    · simp [transform, hp, hi, to32]
  · rw [exec_vred, execVred]
    exact vectorSlot_done hu hrm (by rw [hm]; exact beq_eq_false_iff_ne.2 hc) hn

end

end Sys2Proof.Tiles
end

section
/-! PROOFS.
Loads and stores at issue (chapter 04): the checks of an access that reaches its address, and the fault of each check that
fails. -/

-- One proof at a time: the check of the whole text has a limit on memory, which many threads would reach.
set_option Elab.async false

namespace Sys2Proof.Access

open Sys2Proof.Machine Sys2Proof.Safety Sys2Proof.Sequencer Sys2Proof.Vector

section
variable {s : State} {u : UnitSt} {va : Va} {n : Nat} {acc : Access} {plain8 lands : Bool} {pa : Nat} {e : TlbEntry} {blank : Bool}

/-! ### The checks of an access (R107, R113, R131) -/

theorem pageCheck_ok {page : Nat → TlbEntry → SlotResult} (h : translate s u.accessor va acc = .ok pa e blank) :
    pageCheck s u va acc page = page pa e := by
  rw [pageCheck, h]

theorem pageCheck_fault {page : Nat → TlbEntry → SlotResult} {c : BitVec 8} {a : Va}
    (h : translate s u.accessor va acc = .fault c a) : pageCheck s u va acc page = .fault c a := by
  rw [pageCheck, h]

theorem paOf_ok (h : translate s u.accessor va acc = .ok pa e blank) : paOf s u va acc = (pa, some e) := by
  rw [paOf, h]

/-- An access that reaches its address passes every check. -/
theorem firstFail_accessChecks (h : Reaches s u va n acc plain8 lands pa e blank) :
    firstFail (accessChecks s u va n acc plain8 lands) = .done := by
  have hal : failIf (va.toNat % n != 0) cMisaligned va = .done := by simp [h.aligned]
  have hwatch : watchCheck u va n (!acc.writes) acc.writes = .done := by simp [watchCheck, h.watch]
  have hbudget : (if costsOpen s u.ident.asid (slotKey s) (accessCost s u pa n acc e) then SlotResult.done else .hold .budget) =
      .done := if_pos h.budget
  have hroom : (if lands then landingHold s u else .done) = .done ∧ (if lands then outwardHold s u pa e else .done) = .done := by
    cases hl : lands with
    | false => exact ⟨rfl, rfl⟩
    | true => exact h.room hl
  unfold accessChecks accessHolds
  rw [hal, pageCheck_ok h.translated, h.page, hwatch, h.order, hroom.1, paOf_ok h.translated]
  dsimp only
  rw [hroom.2, hbudget]
  rfl

theorem firstFail_accessChecks_misaligned (h : va.toNat % n ≠ 0) :
    firstFail (accessChecks s u va n acc plain8 lands) = .fault cMisaligned va := by
  have hal : failIf (va.toNat % n != 0) cMisaligned va = .fault cMisaligned va := by
    rw [bne_iff_ne.2 h, failIf_true]
  unfold accessChecks
  rw [hal]
  rfl

theorem firstFail_accessChecks_untranslated (h : va.toNat % n = 0) {c : BitVec 8} {a : Va}
    (ht : translate s u.accessor va acc = .fault c a) :
    firstFail (accessChecks s u va n acc plain8 lands) = .fault c a := by
  have hal : failIf (va.toNat % n != 0) cMisaligned va = .done := by simp [h]
  unfold accessChecks
  rw [hal, pageCheck_fault ht]
  rfl

theorem firstFail_accessChecks_watched (h : va.toNat % n = 0) (ht : translate s u.accessor va acc = .ok pa e blank)
    (hp : accessPage u va acc.writes plain8 pa e = .done) (hw : watchHit u va n (!acc.writes) acc.writes = true) :
    firstFail (accessChecks s u va n acc plain8 lands) = .fault cWatch va := by
  have hal : failIf (va.toNat % n != 0) cMisaligned va = .done := by simp [h]
  have hwatch : watchCheck u va n (!acc.writes) acc.writes = .fault cWatch va := by simp [watchCheck, hw]
  unfold accessChecks
  rw [hal, pageCheck_ok ht, hp, hwatch]
  rfl

/-- What stands behind a stall check that passes decides. -/
theorem firstFail_stallCheck_append {reads : List Dest} {writes : List (Dest × Nat)} (h : NoHazard u reads writes)
    (l : List SlotResult) : firstFail ([stallCheck u reads writes] ++ l) = firstFail l :=
  firstFail_stallCheck h l

/-- What stands behind the checks of a store's slot that pass decides. -/
theorem firstFail_unlent_append {reads : List Dest} {writes : List (Dest × Nat)} (hl : Unlent s) (h : NoHazard u reads writes)
    (l : List SlotResult) : firstFail ([noLend s u, stallCheck u reads writes] ++ l) = firstFail l := by
  rw [List.cons_append, firstFail_noLend hl]
  exact firstFail_stallCheck h l

end

/-! ### The forms of S.MEM -/

section
variable {s : State} {u : UnitSt} {d b : BitVec 6} {w : BitVec 2} {o : BitVec 10}

/-- Each load is the load slot of its size. -/
theorem exec_loadForm {r : Safety.LoadForm} (hr : r ∈ loadForms) : exec (r.ins d b w o) s = loadSlot r.n r.signed d b w o s := by
  simp only [loadForms, List.mem_cons, List.not_mem_nil, or_false] at hr
  rcases hr with rfl | rfl | rfl | rfl | rfl | rfl | rfl
  exacts [exec_ldb s, exec_ldbu s, exec_ldh s, exec_ldhu s, exec_ldw s, exec_ldwu s, exec_ldd s]

/-- Each store is the store slot of its size. -/
theorem exec_storeForm {r : Safety.StoreForm} (hr : r ∈ storeForms) : exec (r.ins d b w o) s = storeSlot r.n d b w o s := by
  simp only [storeForms, List.mem_cons, List.not_mem_nil, or_false] at hr
  rcases hr with rfl | rfl | rfl | rfl
  exacts [exec_stb s, exec_sth s, exec_stw s, exec_std s]

/-- The checks of a load's slot that reaches its address pass. -/
theorem loadSlot_done {n : Nat} {signed : Bool} {pa : Nat} {e : TlbEntry} {blank : Bool} (hu : AtIssue s u)
    (hn : NoHazard u [.scalar b] [(.scalar d, landing u s.issue.lend.toNat)])
    (hr : Reaches s u (memVa u b w o.toInt n) n .read (n == 8) (d != 0) pa e blank) :
    loadSlot n signed d b w o s = .next (done (loadTo s u (memVa u b w o.toInt n) n 1 (.scalar d)
      (landing u s.issue.lend.toNat) (fun bs => (loaded n signed bs).setWidth 512) signed none)) := by
  unfold loadSlot
  exact runSlotW_done hu ((firstFail_stallCheck_append hn _).trans (firstFail_accessChecks hr))

/-- The checks of a store's slot that reaches its address pass. -/
theorem storeSlot_done {n : Nat} {pa : Nat} {e : TlbEntry} {blank : Bool} (hu : AtIssue s u) (hl : Unlent s)
    (hn : NoHazard u [.scalar d, .scalar b] [])
    (hr : Reaches s u (memVa u b w o.toInt n) n .write (n == 8) false pa e blank) :
    storeSlot n d b w o s =
      .next (done (storeBytes s u (memVa u b w o.toInt n) (leBytes (u.reg d).toNat n) 1 none)) := by
  unfold storeSlot
  exact runSlotW_done hu ((firstFail_unlent_append hl hn _).trans (firstFail_accessChecks hr))

/-- A load whose access fails a check takes its fault. -/
theorem loadSlot_fault {n : Nat} {signed : Bool} {c : BitVec 8} {a : Va} (hu : AtIssue s u)
    (hn : NoHazard u [.scalar b] [(.scalar d, landing u s.issue.lend.toNat)])
    (hf : firstFail (accessChecks s u (memVa u b w o.toInt n) n .read (n == 8) (d != 0)) = .fault c a) :
    loadSlot n signed d b w o s = .next (faulted s c a) := by
  unfold loadSlot
  exact runSlotW_fault hu ((firstFail_stallCheck_append hn _).trans hf)

/-- A store whose access fails a check takes its fault. -/
theorem storeSlot_fault {n : Nat} {c : BitVec 8} {a : Va} (hu : AtIssue s u) (hl : Unlent s)
    (hn : NoHazard u [.scalar d, .scalar b] [])
    (hf : firstFail (accessChecks s u (memVa u b w o.toInt n) n .write (n == 8) false) = .fault c a) :
    storeSlot n d b w o s = .next (faulted s c a) := by
  unfold storeSlot
  exact runSlotW_fault hu ((firstFail_unlent_append hl hn _).trans hf)

/-- A vector access rounds nothing, so its common checks are the stall check. -/
theorem vectorChecks_vmem {reads : List Dest} {writes : List (Dest × Nat)} (hm : vmemMisuse s.issue.lend = false)
    (hn : NoHazard u reads writes) : vectorChecks s u (vmemMisuse s.issue.lend) reads writes = .done := by
  have hrm : lendRm s.issue.lend = 0 := by
    simp only [vmemMisuse, Bool.or_eq_false_iff, bne_eq_false_iff_eq] at hm
    exact hm.1.1.1
  exact vectorChecks_done (by rw [hrm]; decide) hm hn

end

/-! ### The statements -/

/-- Settles O24: the checks of every load pass, and its effect is `loadTo`. -/
theorem loadsComplete : Obligations.LoadsComplete := by
  unfold Obligations.LoadsComplete
  intro s u pa e blank hu
  refine ⟨fun r hr d b w o hn hreach => ?_, fun d b w c o hn hreach => ?_, fun d a w o hm hn hreach => ?_⟩
  · exact (exec_loadForm hr).trans (loadSlot_done hu hn hreach)
  · rw [exec_ldacq, execLdacq]
    exact runSlotW_done hu ((firstFail_stallCheck_append hn _).trans (firstFail_accessChecks hreach))
  · rw [exec_vldg, execVldg]
    refine runSlotW_done hu ?_
    rw [vectorChecks_vmem hm hn]
    exact firstFail_accessChecks hreach

/-- Settles O27: the checks of every store pass, and its effect is `storeBytes`. -/
theorem storesComplete : Obligations.StoresComplete := by
  unfold Obligations.StoresComplete
  intro s u pa e blank hu
  refine ⟨fun r hr d b w o hl hn hreach => ?_, fun d b w c o hl hn hreach => ?_, fun v a w o hm hn hreach => ?_⟩
  · exact (exec_storeForm hr).trans (storeSlot_done hu hl hn hreach)
  · rw [exec_strel, execStrel]
    exact runSlotW_done hu ((firstFail_unlent_append hl hn _).trans (firstFail_accessChecks hreach))
  · rw [exec_vstg, execVstg]
    refine runSlotW_done hu ?_
    rw [vectorChecks_vmem hm hn]
    exact firstFail_accessChecks hreach

/-- Settles O30: the first check of the access that fails is the slot's fault. -/
theorem accessFaults : Obligations.AccessFaults := by
  unfold Obligations.AccessFaults
  intro s u d b w o hu
  refine ⟨fun r hr hn => ⟨fun h => ?_, fun h c a ht => ?_, fun h pa e bl ht hp hw => ?_⟩,
    fun r hr hl hn => ⟨fun h => ?_, fun h c a ht => ?_, fun h pa e bl ht hp hw => ?_⟩⟩
  · exact (exec_loadForm hr).trans (loadSlot_fault hu hn (firstFail_accessChecks_misaligned h))
  · exact (exec_loadForm hr).trans (loadSlot_fault hu hn (firstFail_accessChecks_untranslated h ht))
  · exact (exec_loadForm hr).trans (loadSlot_fault hu hn (firstFail_accessChecks_watched h ht hp hw))
  · exact (exec_storeForm hr).trans (storeSlot_fault hu hl hn (firstFail_accessChecks_misaligned h))
  · exact (exec_storeForm hr).trans (storeSlot_fault hu hl hn (firstFail_accessChecks_untranslated h ht))
  · exact (exec_storeForm hr).trans (storeSlot_fault hu hl hn (firstFail_accessChecks_watched h ht hp hw))

end Sys2Proof.Access
end

section
/-! PROOFS.
The control and status registers (chapter 03), and the values of an atomic and of a barrier's phase (chapter 09). -/

-- One proof at a time: the check of the whole text has a limit on memory, which many threads would reach.
set_option Elab.async false

namespace Sys2Proof.Control

open Sys2Proof.Machine Sys2Proof.Safety Sys2Proof.Sequencer

/-! ### CSR instructions (R76, R77, R164) -/

section
variable {s : State} {u : UnitSt} {d : BitVec 6} {n : BitVec 10} {srcs : List Dest} {new : UnitSt → Word → Option Word}

/-- The values that a control register refuses (R58): a rounding mode of 5 or more, and a landing delay of 0. -/
theorem csrWriteIllegal_iff (n : BitVec 10) (v : Word) :
    csrWriteIllegal n v = true ↔ n = 2 ∧ 5 ≤ v.toNat % 8 ∨ n = 4 ∧ v.toNat % 256 = 0 := by
  have h2 : n.toNat = 2 ↔ n = 2 := by rw [← BitVec.toNat_inj]; rfl
  have h4 : n.toNat = 4 ↔ n = 4 := by rw [← BitVec.toNat_inj]; rfl
  have h8 : v.extractLsb' 0 8 = 0 ↔ v.toNat % 256 = 0 := by
    rw [← BitVec.toNat_inj]
    simp
  simp only [csrWriteIllegal, Bool.or_eq_true, Bool.and_eq_true, beq_iff_eq, decide_eq_true_eq, h2, h4, h8]
  simp

/-- A CSR slot that reads a register and writes none. -/
theorem csrSlot_read {old : Word} (hu : AtIssue s u) (hl : Unlent s) (hr : readCsr s u n = some old)
    (hnew : new = fun _ _ => none) (hn : NoHazard u (srcs ++ [.csr n]) [(.scalar d, 1)]) :
    csrSlot d srcs n new s = .next (done (schedScalar s s.issue.me u d old 1)) := by
  subst hnew
  unfold csrSlot
  refine (runSlot_done hu ?_).trans ?_
  · dsimp only
    rw [firstFail_noLend hl, hr]
    exact firstFail_stallCheck hn []
  · dsimp only
    rw [hr]
    rfl

/-- An entry joins the record of a unit whose registers and chain stay as they were. -/
theorem push_eq_record (u : UnitSt) (e : PEntry) : ∃ p q, u.push e = { u with pend := p, drops := q } := by
  unfold UnitSt.push
  split
  · split <;> exact ⟨_, _, rfl⟩
  · exact ⟨_, _, rfl⟩

@[simp] theorem push_reg (u : UnitSt) (e : PEntry) (r : BitVec 6) : (u.push e).reg r = u.reg r := by
  obtain ⟨p, q, h⟩ := push_eq_record u e
  rw [h]
  rfl

@[simp] theorem mkEntry_push (u : UnitSt) (e : PEntry) (x : Dest) (v : BitVec 512) (m : Nat) (fl : BitVec 5) :
    mkEntry s (u.push e) x v m fl = mkEntry s u x v m fl := by
  obtain ⟨p, q, h⟩ := push_eq_record u e
  rw [h]
  rfl

/-- A CSR slot that writes a value which the register takes. -/
theorem csrSlot_write {a : BitVec 6} {f : Word → Word → Word} {old : Word} (hu : AtIssue s u) (hl : Unlent s)
    (hr : readCsr s u n = some old) (hlegal : csrWriteIllegal n (f (u.reg a) old) = false)
    (hn : NoHazard u [.scalar a, .csr n] [(.scalar d, 1), (.csr n, 1)]) :
    csrSlot d [.scalar a] n (fun u old => some (f (u.reg a) old)) s = .next (done (s.setUnit s.issue.me
      ((u.push (mkEntry s u (.scalar d) (old.setWidth 512) 1 0)).push
        (mkEntry s u (.csr n) ((f (u.reg a) old).setWidth 512) 1 0)))) := by
  unfold csrSlot
  refine (runSlot_done hu ?_).trans ?_
  · dsimp only
    rw [firstFail_noLend hl, hr]
    dsimp only
    rw [hlegal, illegalIf_false, firstFail_done]
    exact firstFail_stallCheck hn []
  · simp [hr]

/-- A CSR slot that writes a value which the register refuses. -/
theorem csrSlot_refused {v old : Word} (hu : AtIssue s u) (hl : Unlent s) (hr : readCsr s u n = some old)
    (hv : new u old = some v) (hill : csrWriteIllegal n v = true) :
    csrSlot d srcs n new s = .next (faulted s cIllegalOp u.bundleVa) := by
  unfold csrSlot
  refine runSlot_fault hu ?_
  rw [firstFail_noLend hl, hr]
  dsimp only
  rw [hv]
  dsimp only
  rw [hill, illegalIf_true, firstFail_fault]

/-- A CSR slot whose number is reserved. -/
theorem csrSlot_reserved (hu : AtIssue s u) (hl : Unlent s) (hr : readCsr s u n = none) :
    csrSlot d srcs n new s = .next (faulted s cIllegalOp u.bundleVa) := by
  unfold csrSlot
  refine runSlot_fault hu ?_
  rw [firstFail_noLend hl, hr]
  dsimp only
  rw [illegalIf_true, firstFail_fault]

/-- RBSEED enters both seeds. -/
theorem execRbseed_done {h l : BitVec 6} (hu : AtIssue s u) (hl : Unlent s)
    (hn : NoHazard u [.scalar h, .scalar l] [(.csr 0x18, 1), (.csr 0x19, 1)]) :
    execRbseed h l s = .next (done (s.setUnit s.issue.me
      ((u.push (mkEntry s u (.csr 0x18) ((u.reg l).setWidth 512) 1 0)).push
        (mkEntry s u (.csr 0x19) ((u.reg h).setWidth 512) 1 0)))) := by
  unfold execRbseed
  exact runSlot_done hu (firstFail_noLend_stallCheck hl hn)

end

/-- Two words side by side, as a number. -/
theorem toNat_append_eq_add {m k : Nat} (x : BitVec m) (y : BitVec k) : (x ++ y).toNat = x.toNat * 2 ^ k + y.toNat := by
  rw [BitVec.toNat_append, ← Nat.shiftLeft_add_eq_or_of_lt y.isLt, Nat.shiftLeft_eq]

/-- UNITID (R163): index, cluster, the prompter's bit and the ASID in their places. -/
theorem unitid_eq (u : UnitSt) : u.unitid = BitVec.ofNat 64 (u.ident.index.toNat + 2 ^ 16 * u.ident.cluster.val +
    (if u.isPrompter then 2 ^ 23 else 0) + 2 ^ 32 * u.ident.asid.toNat) := by
  have hc : u.ident.cluster.val < 128 := u.ident.cluster.isLt
  have hi := u.ident.index.isLt
  have ha := u.ident.asid.isLt
  have hp : (BitVec.ofBool u.isPrompter).toNat = if u.isPrompter then 1 else 0 := by cases u.isPrompter <;> rfl
  apply BitVec.eq_of_toNat_eq
  simp only [UnitSt.unitid, toNat_append_eq_add, BitVec.toNat_ofNat, hp]
  split <;> omega

/-- Settles O45: the slot of a number that is read, of one that is refused, and of a reserved one. -/
theorem controlRegisters : Obligations.ControlRegisters := by
  unfold Obligations.ControlRegisters
  intro s u d a n hu hl
  refine ⟨fun old hr => ⟨fun hn => ?_, fun hn f hf => ?_⟩, fun hr i hi => ?_, fun h l hn => ?_, ?_⟩
  · rw [exec_csrr, execCsrr]
    exact csrSlot_read hu hl hr rfl hn
  · have hillegal := csrWriteIllegal_iff n f.2
    simp only [List.mem_cons, List.not_mem_nil, or_false] at hf
    refine ⟨fun h2 h4 => ?_, fun hbad => ?_⟩
    · have hlegal : csrWriteIllegal n f.2 = false := Bool.eq_false_iff.2 fun h => (hillegal.1 h).elim h2 h4
      rcases hf with rfl | rfl | rfl
      · exact (exec_csrw s).trans (csrSlot_write (f := fun x _ => x) hu hl hr hlegal hn)
      · exact (exec_csrs s).trans (csrSlot_write (f := fun x old => old ||| x) hu hl hr hlegal hn)
      · exact (exec_csrc s).trans (csrSlot_write (f := fun x old => old &&& ~~~x) hu hl hr hlegal hn)
    · have hill : csrWriteIllegal n f.2 = true := hillegal.2 hbad
      rcases hf with rfl | rfl | rfl
      · exact (exec_csrw s).trans (csrSlot_refused hu hl hr rfl hill)
      · exact (exec_csrs s).trans (csrSlot_refused hu hl hr rfl hill)
      · exact (exec_csrc s).trans (csrSlot_refused hu hl hr rfl hill)
  · simp only [List.mem_cons, List.not_mem_nil, or_false] at hi
    rcases hi with rfl | rfl | rfl | rfl
    · exact (exec_csrr s).trans (csrSlot_reserved hu hl hr)
    · exact (exec_csrw s).trans (csrSlot_reserved hu hl hr)
    · exact (exec_csrs s).trans (csrSlot_reserved hu hl hr)
    · exact (exec_csrc s).trans (csrSlot_reserved hu hl hr)
  · exact (exec_rbseed s).trans (execRbseed_done hu hl hn)
  · rw [← unitid_eq]
    rfl

/-! ### The new value of an atomic (R267) -/

/-- The new values of codes 0x00 to 0x09, as words of the operand's width n. -/
theorem ofNat_atomicNew (w : BitVec 1) (old x cmp : Nat) {n : Nat} (hn : (if w = 1 then 32 else 64) = n) :
    let f (op : Nat) : BitVec n := BitVec.ofNat n (atomicNew op w old x cmp)
    let a : BitVec n := BitVec.ofNat n old
    let b : BitVec n := BitVec.ofNat n x
    f 0x00 = a + b ∧ f 0x01 = a &&& b ∧ f 0x02 = a ||| b ∧ f 0x03 = a ^^^ b ∧
    f 0x04 = (if b.toInt < a.toInt then b else a) ∧ f 0x05 = (if b.toNat < a.toNat then b else a) ∧
    f 0x06 = (if a.toInt < b.toInt then b else a) ∧ f 0x07 = (if a.toNat < b.toNat then b else a) ∧ f 0x08 = b ∧
    f 0x09 = (if a = BitVec.ofNat n cmp then b else a) := by
  simp only [atomicNew]
  generalize (if w = 1 then 32 else 64) = k at hn ⊢
  subst hn
  have hmod : ∀ y, BitVec.ofNat k (y % 2 ^ k) = BitVec.ofNat k y := fun y => by
    apply BitVec.eq_of_toNat_eq
    simp
  have hnat : ∀ y, y % 2 ^ k = (BitVec.ofNat k y).toNat := fun y => (BitVec.toNat_ofNat y k).symm
  simp only [apply_ite (BitVec.ofNat k), hmod, true_and]
  refine ⟨?_, ?_, ?_, ?_, ?_, ?_, ?_⟩
  · rw [BitVec.ofNat_add, hmod, hmod]
  · rw [hnat, hnat, ← BitVec.toNat_and, BitVec.ofNat_toNat, BitVec.setWidth_eq]
  · rw [hnat, hnat, ← BitVec.toNat_or, BitVec.ofNat_toNat, BitVec.setWidth_eq]
  · rw [hnat, hnat, ← BitVec.toNat_xor, BitVec.ofNat_toNat, BitVec.setWidth_eq]
  · rw [hnat, hnat]
  · rw [hnat, hnat]
  · simp only [hnat, BitVec.toNat_inj]

/-- The new value of codes 0x00 to 0x09 fits the operand's width. -/
theorem atomicNew_lt (w : BitVec 1) (old x cmp : Nat) {n op : Nat} (hn : (if w = 1 then 32 else 64) = n) (hop : op < 0x0A) :
    atomicNew op w old x cmp < 2 ^ n := by
  have ha : old % 2 ^ n < 2 ^ n := Nat.mod_lt _ (Nat.two_pow_pos n)
  have hb : x % 2 ^ n < 2 ^ n := Nat.mod_lt _ (Nat.two_pow_pos n)
  have hite : ∀ {p : Prop} [Decidable p], (if p then x % 2 ^ n else old % 2 ^ n) < 2 ^ n := by
    intro p _
    split <;> assumption
  simp only [atomicNew, hn]
  interval_cases op
  exacts [Nat.mod_lt _ (Nat.two_pow_pos n), Nat.and_lt_two_pow _ hb, Nat.or_lt_two_pow ha hb, Nat.xor_lt_two_pow ha hb,
    hite, hite, hite, hite, hb, hite]

/-! ### The phase of a barrier (R273, R274) -/

/-- A barrier whose fields fit is read back from its sixteen bytes. -/
theorem barrier_ofNat_toNat {b : Barrier} (he : b.expected < 2 ^ 16) (ha : b.arrived < 2 ^ 16) (hl : b.lostc < 2 ^ 16)
    (hp : b.phase < 2 ^ 15) : Barrier.ofNat b.toNat = b := by
  obtain ⟨expected, arrived, lostc, phase, init, lastlost, rest⟩ := b
  simp only at he ha hl hp
  have hbit : ∀ (c : Bool) (k : Nat), (if c = true then k else 0) = c.toNat * k := by
    intro c k
    cases c <;> simp
  have hi := Bool.toNat_le init
  have hll := Bool.toNat_le lastlost
  have hof : ∀ c : Bool, (c.toNat == 1) = c := by decide
  simp only [Barrier.ofNat, Barrier.toNat, hbit, Barrier.mk.injEq]
  refine ⟨by omega, by omega, by omega, by omega, ?_, ?_, by omega⟩
  · rw [← hof init]
    congr 1
    rw [hof]
    omega
  · rw [← hof lastlost]
    congr 1
    rw [hof]
    omega

/-- Settles O44: the new values by `ofNat_atomicNew`, the phase by the two branches of `Barrier.settle`. -/
theorem atomicValues : Obligations.AtomicValues := by
  unfold Obligations.AtomicValues
  refine ⟨fun w old x cmp => ?_, fun b => ⟨fun h => ?_, fun h => ?_, barrier_ofNat_toNat⟩⟩
  · obtain ⟨h0, h1, h2, h3, h4, h5, h6, h7, h8, h9⟩ := ofNat_atomicNew w old x cmp rfl
    exact ⟨h0, h1, h2, h3, h4, h5, h6, h7, h8, h9, fun op =>
      (Nat.lt_or_ge op 0x0A).imp_left (atomicNew_lt w old x cmp rfl)⟩
  · simp [Barrier.settle, h]
  · simp [Barrier.settle, h]

end Sys2Proof.Control
end

section
/-! PROOFS.
The five rounding modes (R139): a fraction rounded to an integer, and a number of a format rounded to itself. -/

-- One proof at a time: the check of the whole text has a limit on memory, which many threads would reach.
set_option Elab.async false

namespace Sys2Proof.Rounding

open Sys2Proof.Machine Sys2Proof.Safety

/-! ### A fraction rounded to an integer -/

/-- A fraction n/d is its quotient and a remainder below d. -/
theorem div_add_mod_lt {n d : Nat} (hd : 0 < d) : ∃ q r, n = d * q + r ∧ r < d ∧ n / d = q ∧ n % d = r :=
  ⟨n / d, n % d, (Nat.div_add_mod n d).symm, Nat.mod_lt n hd, rfl, rfl⟩

theorem roundNat_inexact (rm : Rm) (neg : Bool) (n d : Nat) : (roundNat rm neg n d).2 = decide (n % d ≠ 0) := by
  by_cases h : n % d = 0 <;> simp [roundNat, h]

/-- A whole number is rounded to itself. -/
theorem roundNat_mul (rm : Rm) (neg : Bool) (m : Nat) {d : Nat} (hd : 0 < d) : roundNat rm neg (m * d) d = (m, false) := by
  have hq : m * d / d = m := Nat.mul_div_cancel m hd
  have hr : m * d % d = 0 := Nat.mul_mod_left m d
  have hup : ∀ b : Bool, (d == 0 && b) = false := fun b => by simp [Nat.ne_of_gt hd]
  unfold roundNat
  rw [hq, hr]
  split <;> simp [Nat.ne_of_lt hd]

/-- The quotient rounded up is the ceiling where a remainder stands. -/
theorem ceil_div_eq {n d : Nat} (hd : 0 < d) : (n + d - 1) / d = if n % d = 0 then n / d else n / d + 1 := by
  obtain ⟨q, r, rfl, hr, hq, hm⟩ := div_add_mod_lt (n := n) hd
  rw [hq, hm]
  split
  · next h0 =>
    subst h0
    rw [show d * q + 0 + d - 1 = (d - 1) + d * q by omega, Nat.add_mul_div_left _ _ hd, Nat.div_eq_of_lt (by omega), Nat.zero_add]
  · next h0 =>
    rw [show d * q + r + d - 1 = (r - 1) + d * (q + 1) by rw [Nat.mul_succ]; omega, Nat.add_mul_div_left _ _ hd,
      Nat.div_eq_of_lt (by omega), Nat.zero_add]

/-- Half and more go up in mode 4. -/
theorem half_up_div_eq {n d : Nat} (hd : 0 < d) : (2 * n + d) / (2 * d) = if d ≤ 2 * (n % d) then n / d + 1 else n / d := by
  obtain ⟨q, r, rfl, hr, hq, hm⟩ := div_add_mod_lt (n := n) hd
  rw [hq, hm]
  split
  · next h =>
    rw [show 2 * (d * q + r) + d = (2 * r - d) + 2 * d * (q + 1) by rw [Nat.mul_succ, Nat.mul_add, Nat.mul_assoc]; omega,
      Nat.add_mul_div_left _ _ (by omega), Nat.div_eq_of_lt (by omega), Nat.zero_add]
  · next h =>
    rw [show 2 * (d * q + r) + d = (2 * r + d) + 2 * d * q by rw [Nat.mul_add, Nat.mul_assoc]; omega,
      Nat.add_mul_div_left _ _ (by omega), Nat.div_eq_of_lt (by omega), Nat.zero_add]

/-- Mode 0 goes up past the half, and at the half to the even neighbour. -/
theorem roundNat_nearest (neg : Bool) (n d : Nat) :
    (roundNat 0 neg n d).1 = if d < 2 * (n % d) ∨ 2 * (n % d) = d ∧ n / d % 2 = 1 then n / d + 1 else n / d := by
  simp [roundNat]

theorem roundNat_up (neg : Bool) (n d : Nat) :
    (roundNat 2 neg n d).1 = (if neg ∧ n % d ≠ 0 then n / d + 1 else n / d) ∧
    (roundNat 3 neg n d).1 = (if neg = false ∧ n % d ≠ 0 then n / d + 1 else n / d) := by
  simp [roundNat]

/-- Rounding to nearest stays within one half, and takes the even neighbour of a tie. -/
theorem roundNat_nearest_bounds (neg : Bool) {n d : Nat} (hd : 0 < d) :
    (2 * n ≤ (2 * (roundNat 0 neg n d).1 + 1) * d ∧ 2 * (roundNat 0 neg n d).1 * d ≤ 2 * n + d) ∧
    (2 * n = (2 * (roundNat 0 neg n d).1 + 1) * d ∨ 2 * (roundNat 0 neg n d).1 * d = 2 * n + d →
      (roundNat 0 neg n d).1 % 2 = 0) := by
  rw [roundNat_nearest]
  obtain ⟨q, r, rfl, hr, hq, hm⟩ := div_add_mod_lt (n := n) hd
  rw [hq, hm]
  have hmul : ∀ k, 2 * k * d = 2 * (d * k) := fun k => by ring
  split
  · next h =>
    simp only [Nat.add_mul, Nat.one_mul, hmul, Nat.mul_succ]
    omega
  · next h =>
    simp only [Nat.add_mul, Nat.one_mul, hmul]
    omega

/-! ### A number of a format (R138) -/

/-- A number shifted left has its logarithm shifted. -/
theorem log2_mul_two_pow {m : Nat} (hm : m ≠ 0) (k : Nat) : Nat.log2 (m * 2 ^ k) = Nat.log2 m + k := by
  rw [Nat.log2_eq_iff (Nat.mul_ne_zero hm (Nat.two_pow_pos k).ne'), Nat.pow_add, Nat.add_right_comm, Nat.pow_add]
  exact ⟨Nat.mul_le_mul_right _ (Nat.log2_self_le hm), Nat.mul_lt_mul_of_pos_right Nat.lt_log2_self (Nat.two_pow_pos k)⟩

/-- The floor of the binary logarithm of m · 2^e. -/
theorem floorLog2_fracOf {m : Nat} (hm : m ≠ 0) (e : Int) : floorLog2 (fracOf m e).1 (fracOf m e).2 = Nat.log2 m + e := by
  have hlog : 2 ^ Nat.log2 m ≤ m := Nat.log2_self_le hm
  by_cases he : 0 ≤ e
  · obtain ⟨k, rfl⟩ := Int.eq_ofNat_of_zero_le he
    have ha : 0 ≤ (Nat.log2 m : Int) + k := by omega
    have hle : 2 ^ ((Nat.log2 m : Int) + k).toNat ≤ m * 2 ^ k := by
      rw [show ((Nat.log2 m : Int) + k).toNat = Nat.log2 m + k by omega, Nat.pow_add]
      exact Nat.mul_le_mul_right _ hlog
    simp [floorLog2, fracOf, he, log2_mul_two_pow hm, ha, hle, show Nat.log2 1 = 0 from rfl]
  · have hk : ∃ k : Nat, e = -k := ⟨e.natAbs, by omega⟩
    obtain ⟨k, rfl⟩ := hk
    have htop : (-(-(k : Int))).toNat = k := by omega
    simp only [floorLog2, fracOf, he, if_false, htop, Nat.log2_two_pow]
    rw [← Int.sub_eq_add_neg]
    refine if_pos ?_
    split
    · next ha =>
      obtain ⟨j, hj⟩ := Int.eq_ofNat_of_zero_le ha
      have hsum : Nat.log2 m = k + j := by omega
      rw [decide_eq_true_eq, hj, Int.toNat_natCast, ← Nat.pow_add, ← hsum]
      exact hlog
    · next ha =>
      have hsum : k = Nat.log2 m + (-((Nat.log2 m : Int) - k)).toNat := by omega
      rw [decide_eq_true_eq]
      generalize (-((Nat.log2 m : Int) - k)).toNat = j at hsum ⊢
      rw [hsum, Nat.pow_add]
      exact Nat.mul_le_mul_right _ hlog

/-- m · 2^e in units of 2^e is the whole number m. -/
theorem roundNat_scaleDown_fracOf (rm : Rm) (neg : Bool) (m : Nat) (e : Int) :
    roundNat rm neg (scaleDown (fracOf m e).1 (fracOf m e).2 e).1 (scaleDown (fracOf m e).1 (fracOf m e).2 e).2 = (m, false) := by
  by_cases he : 0 ≤ e
  · simpa [fracOf, scaleDown, he] using roundNat_mul rm neg m (Nat.two_pow_pos e.toNat)
  · simpa [fracOf, scaleDown, he] using roundNat_mul rm neg m (Nat.two_pow_pos (-e).toNat)

/-- A positive pattern below infinity is a subnormal number or a normal one. -/
theorem unpack_cases {f : Fmt} {b m : Nat} {e : Int} (hb : b < f.infBits) (h : unpack f b = .fin false m e) :
    (m = b ∧ e = f.emin ∧ b < 2 ^ f.fbits) ∨
    (∃ x : Nat, e = f.emin + x ∧ 2 ^ f.fbits ≤ m ∧ m < 2 ^ (f.fbits + 1) ∧ b = x * 2 ^ f.fbits + m) := by
  have hF := Nat.two_pow_pos f.fbits
  have hx : b / 2 ^ f.fbits < f.expMax := Nat.div_lt_of_lt_mul (by rw [Nat.mul_comm]; exact hb)
  have hE : b / 2 ^ f.fbits % 2 ^ f.ebits = b / 2 ^ f.fbits := Nat.mod_eq_of_lt (Nat.lt_of_lt_of_le hx (Nat.sub_le _ _))
  have hsplit : 2 ^ f.fbits * (b / 2 ^ f.fbits) + b % 2 ^ f.fbits = b := Nat.div_add_mod b _
  have hmod : b % 2 ^ f.fbits < 2 ^ f.fbits := Nat.mod_lt _ hF
  unfold unpack at h
  rw [hE] at h
  dsimp only at h
  rw [if_neg (Nat.ne_of_lt hx)] at h
  split at h
  · next h0 =>
    obtain ⟨-, rfl, rfl⟩ := Fp.fin.inj h
    rw [h0] at hsplit
    exact .inl ⟨by omega, rfl, by omega⟩
  · next h0 =>
    obtain ⟨-, rfl, rfl⟩ := Fp.fin.inj h
    obtain ⟨x, hx1⟩ := Nat.exists_eq_succ_of_ne_zero h0
    refine .inr ⟨x, by rw [hx1]; push_cast; ring, Nat.le_add_left _ _, by rw [Nat.pow_succ]; omega, ?_⟩
    rw [hx1, Nat.succ_eq_add_one, Nat.mul_add, Nat.mul_one, Nat.mul_comm] at hsplit
    omega

/-- A number of the format is rounded to itself. -/
theorem roundPos_unpack (f : Fmt) (rm : Rm) (neg : Bool) {b m : Nat} {e : Int} (h0 : 0 < b) (hb : b < f.infBits)
    (h : unpack f b = .fin false m e) : roundPos f rm neg (fracOf m e).1 (fracOf m e).2 = (withSign f neg b, 0) := by
  have hinf : ¬ (f.infBits : Int) ≤ b := by omega
  rcases unpack_cases hb h with ⟨rfl, rfl, hlt⟩ | ⟨x, rfl, hlo, hhi, rfl⟩
  · have hm : m ≠ 0 := Nat.ne_of_gt h0
    have hlog : Nat.log2 m < f.fbits := (Nat.log2_lt hm).2 hlt
    have hexp : (Nat.log2 m : Int) + f.emin - f.fbits < f.emin := by omega
    simp only [roundPos, floorLog2_fracOf hm, if_pos hexp, roundNat_scaleDown_fracOf, if_pos hlt, if_neg hinf]
    simp
  · have hm : m ≠ 0 := by have := Nat.two_pow_pos f.fbits; omega
    have hlog : Nat.log2 m = f.fbits := (Nat.log2_eq_iff hm).2 ⟨hlo, hhi⟩
    have hexp : (f.fbits : Int) + (f.emin + x) - f.fbits = f.emin + x := by omega
    have hnsub : ¬ f.emin + (x : Int) < f.emin := by omega
    have hbits : (f.emin + (x : Int) - f.emin + 1 - 1) * 2 ^ f.fbits + m = ((x * 2 ^ f.fbits + m : Nat) : Int) := by
      push_cast
      ring
    simp only [roundPos, floorLog2_fracOf hm, hlog, hexp, if_neg hnsub, roundNat_scaleDown_fracOf, if_neg (Nat.not_lt.2 hlo),
      hbits, if_neg hinf, Int.toNat_natCast]
    simp

/-- Settles O33: each mode by its quotient and remainder, and a number of the format by its significand and exponent. -/
theorem roundingRules : Obligations.RoundingRules := by
  unfold Obligations.RoundingRules
  refine ⟨fun neg n d hd => ?_, fun f _ rm neg b m e h0 hb h => roundPos_unpack f rm neg h0 hb h⟩
  obtain ⟨h2, h3⟩ := roundNat_up neg n d
  obtain ⟨hbounds, htie⟩ := roundNat_nearest_bounds neg (n := n) hd
  refine ⟨fun rm => roundNat_inexact rm neg n d, rfl, ?_, ?_, ?_, hbounds, htie⟩
  · rw [h2, ceil_div_eq hd]
    cases neg <;> simp
  · rw [h3, ceil_div_eq hd]
    cases neg <;> simp
  · rw [half_up_div_eq hd]
    have hr : d ≤ 2 * (n % d) → n % d ≠ 0 := by omega
    show (if (decide (d ≤ 2 * (n % d)) && n % d != 0) = true then n / d + 1 else n / d) = _
    simp only [Bool.and_eq_true, decide_eq_true_eq, bne_iff_ne, and_iff_left_of_imp hr]

end Sys2Proof.Rounding
end

section
/-! PROOFS.
Loops (R94 to R96), the completion of a unit (R101), and the freeze of a unit at its bundle (R335 to R342). -/

-- One proof at a time: the check of the whole text has a limit on memory, which many threads would reach.
set_option Elab.async false

namespace Sys2Proof.Units

open Sys2Proof.Machine Sys2Proof.Safety Sys2Proof.Sequencer Sys2Proof.Scalar

/-! ### Loops -/

section
variable {s : State} {u : UnitSt}

/-- A loop slot whose checks pass. -/
theorem firstFail_loop {l : Fin 2} {stop : BitVec 64} (hl : Unlent s) (h : loopIllegal u l stop = false) (r : List SlotResult) :
    firstFail (noLend s u :: illegalIf u (loopIllegal u l stop) :: r) = firstFail r := by
  rw [firstFail_noLend hl, h, illegalIf_false, firstFail_done]

/-- A loop slot that R95 refuses. -/
theorem firstFail_loop_illegal {l : Fin 2} {stop : BitVec 64} (hl : Unlent s) (h : loopIllegal u l stop = true)
    (r : List SlotResult) : firstFail (noLend s u :: illegalIf u (loopIllegal u l stop) :: r) = .fault cIllegalOp u.bundleVa := by
  rw [firstFail_noLend hl, h, illegalIf_true, firstFail_fault]

theorem startLoop_active {l : Fin 2} {n : BitVec 32} {e : BitVec 3} {len : Nat} (h : n ≠ 0 ∨ e ≠ 0) :
    startLoop u l n e len = { u with flow := { u.flow with
      lc := u.flow.lc.set l n,
      loops := u.flow.loops.set l ⟨u.flow.pc.addr + 16, u.flow.pc.addr + BitVec.ofNat 64 (16 * len), e, e, u.regs.ps, true, false⟩ } } :=
  if_neg (by tauto)

theorem startLoop_empty {l : Fin 2} {len : Nat} :
    startLoop u l 0 0 len = { u with flow := { u.flow with
      npc := { u.flow.npc with ann := true }, nnpc := { u.flow.nnpc with ann := decide (2 ≤ len) }, skip := len - 2 } } := by
  simp [startLoop, UnitSt.modFlow]

theorem startLoop_frame (u : UnitSt) (l : Fin 2) (n : BitVec 32) (e : BitVec 3) (len : Nat) :
    (startLoop u l n e len).regs = u.regs ∧ (startLoop u l n e len).pend = u.pend ∧ (startLoop u l n e len).csr = u.csr ∧
      (startLoop u l n e len).flow.pc = u.flow.pc := by
  unfold startLoop
  dsimp only
  split <;> exact ⟨rfl, rfl, rfl, rfl⟩

/-- The trip count of LOOPI. -/
theorem setWidth_add_one (c : BitVec 9) : c.setWidth 32 + 1 = BitVec.ofNat 32 (c.toNat + 1) := by
  apply BitVec.eq_of_toNat_eq
  simp

theorem setWidth_add_one_ne_zero (c : BitVec 9) : c.setWidth 32 + 1 ≠ 0 := by
  have hc := c.isLt
  intro h
  have h0 : (c.toNat + 1) % 2 ^ 32 = 0 := congrArg BitVec.toNat ((setWidth_add_one c).symm.trans h)
  omega

end

/-- An iteration start by its fields: the predicates rotate at the innermost active level alone, and the counter or the drain
depth of the level falls. -/
theorem startIteration_spec (f : Flow) (ps : BitVec 8) (l : Fin 2) :
    let first : Bool := decide (0 < (f.lc.get l).toNat) && !(f.loops.get l).cleared
    let r := startIteration f ps l
    (innermost f = some l → (∀ i : Nat, 0 < i → i < 8 → r.2.getLsbD i = ps.getLsbD (i - 1)) ∧ r.2.getLsbD 0 = first) ∧
    (innermost f ≠ some l → r.2 = ps) ∧
    (first = true → r.1.lc.get l = f.lc.get l - 1 ∧ r.1.loops = f.loops) ∧
    (first = false → r.1.lc = f.lc ∧ (r.1.loops.get l).drain = (f.loops.get l).drain - 1) ∧
    (∀ k, k ≠ l → r.1.lc.get k = f.lc.get k ∧ r.1.loops.get k = f.loops.get k) ∧
    r.1.pc = f.pc ∧ r.1.npc = f.npc ∧ r.1.nnpc = f.nnpc := by
  have hfirst : (decide (0 < (f.lc.get l).toNat) && !(f.loops.get l).cleared) = nextFirst f l := by
    have hz : decide (0 < (f.lc.get l).toNat) = (f.lc.get l != 0) := by
      rw [Bool.eq_iff_iff, decide_eq_true_eq, bne_iff_ne, Nat.pos_iff_ne_zero, Ne, Ne, ← BitVec.toNat_inj]
      rfl
    rw [hz]
    rfl
  dsimp only
  rw [hfirst]
  refine ⟨fun hi => ?_, fun hi => if_neg hi, fun hf => ?_, fun hf => ?_, fun k hk => ?_, ?_⟩
  · have hps : (startIteration f ps l).2 = (ps <<< 1) ||| (BitVec.ofBool (nextFirst f l)).setWidth 8 := if_pos hi
    rw [hps]
    refine ⟨fun i h0 h8 => ?_, ?_⟩
    · simp [-BitVec.getLsbD_eq_getElem, h8, Nat.ne_of_gt h0, BitVec.getLsbD_ofBool]
    · simp
  · simp [startIteration, hf, vector_get_set]
  · simp [startIteration, hf, Flow.setLoop, vector_get_set]
  · cases hf : nextFirst f l <;> simp [startIteration, hf, Flow.setLoop, vector_get_set, hk]
  · cases hf : nextFirst f l <;> simp [startIteration, hf, Flow.setLoop]

/-- Settles O21: LOOP and LOOPI by `startLoop`, the start of an iteration by `startIteration`. -/
theorem loops : Obligations.Loops := by
  unfold Obligations.Loops
  refine ⟨fun s u l hu hl => ⟨fun c n => ⟨fun hill => ?_, fun hok hn => ?_⟩, fun c n => ⟨fun hill => ?_, fun hok => ?_⟩⟩,
    fun f ps l => startIteration_spec f ps l⟩
  · exact (exec_loop s).trans (runSlot_fault hu (firstFail_loop_illegal hl hill _))
  · refine ⟨_, (exec_loop s).trans (runSlot_done hu ((firstFail_loop hl hok _).trans (firstFail_stallCheck hn []))), ?_⟩
    obtain ⟨hregs, hpend, hcsr, hpc⟩ := startLoop_frame u l.toFin ((u.reg c).extractLsb' 0 32) ((u.reg c).extractLsb' 32 3)
      (n.toNat + 1)
    refine ⟨hregs, hpend, hcsr, hpc, fun h => ?_, fun h0 h1 => ?_⟩
    · rw [startLoop_active h]
    · rw [h0, h1, startLoop_empty]
      exact ⟨rfl, rfl, rfl, rfl, rfl⟩
  · exact (exec_loopi s).trans (runSlot_fault hu (firstFail_loop_illegal hl hill _))
  · refine (exec_loopi s).trans ((runSlot_done hu (firstFail_loop hl hok _)).trans ?_)
    rw [startLoop_active (.inl (setWidth_add_one_ne_zero c)), setWidth_add_one]

/-! ### What the shared operations of a unit's end leave of the machine -/

section
variable (s : State) (i : Uid) (c : ClusterNo)

/-- A rebuilt order may ask for the pre-emption of the running unit; of a unit nothing else changes. -/
theorem rebuildOrder_unit {s : State} {i : Uid} {u : UnitSt} (h : s.unit? i = some u) :
    ∃ b, (rebuildOrder s c).unit? i = some { u with run := { u.run with preempt := b } } := by
  have hkeep : ∃ b, s.unit? i = some { u with run := { u.run with preempt := b } } := ⟨u.run.preempt, h⟩
  unfold rebuildOrder
  dsimp only
  split
  · exact hkeep
  · split
    · exact hkeep
    · next r _ _ _ _ =>
      split
      · by_cases hr : r = i
        · subst hr
          exact ⟨true, State.unit?_modUnit_self (u := u) h⟩
        · obtain ⟨b, hb⟩ := hkeep
          exact ⟨b, (State.unit?_modUnit_ne hr).trans hb⟩
      · exact hkeep

/-- A rebuilt order is the cluster's own, and the only trace it leaves outside is the request for a pre-emption. -/
theorem rebuildOrder_eq : ∃ us cs, rebuildOrder s c = { s with units := us, clusters := cs } := by
  unfold rebuildOrder
  dsimp only
  split
  · exact ⟨_, _, rfl⟩
  · split
    · exact ⟨_, _, rfl⟩
    · split
      · exact ⟨_, _, rfl⟩
      · exact ⟨_, _, rfl⟩

@[simp] theorem rebuildOrder_hub : (rebuildOrder s c).hub = s.hub := by
  obtain ⟨us, cs, h⟩ := rebuildOrder_eq s c
  rw [h]

@[simp] theorem rebuildOrder_mem : (rebuildOrder s c).mem = s.mem := by
  obtain ⟨us, cs, h⟩ := rebuildOrder_eq s c
  rw [h]

@[simp] theorem rebuildOrder_dies : (rebuildOrder s c).dies = s.dies := by
  obtain ⟨us, cs, h⟩ := rebuildOrder_eq s c
  rw [h]

@[simp] theorem rebuildOrder_mod : (rebuildOrder s c).mod = s.mod := by
  obtain ⟨us, cs, h⟩ := rebuildOrder_eq s c
  rw [h]

/-- The end of a segment drops the cluster's failed walks and frees the cluster. -/
theorem endSegment_eq : ∃ w cs, endSegment s i c = { s with hub := { s.hub with walk := w }, clusters := cs } := by
  unfold endSegment
  dsimp only
  split <;> exact ⟨_, _, rfl⟩

@[simp] theorem endSegment_launches : (endSegment s i c).hub.launches = s.hub.launches := by
  obtain ⟨w, cs, h⟩ := endSegment_eq s i c
  rw [h]

@[simp] theorem endSegment_contexts : (endSegment s i c).hub.contexts = s.hub.contexts := by
  obtain ⟨w, cs, h⟩ := endSegment_eq s i c
  rw [h]

@[simp] theorem endSegment_mem : (endSegment s i c).mem = s.mem := by
  obtain ⟨w, cs, h⟩ := endSegment_eq s i c
  rw [h]

@[simp] theorem endSegment_dies : (endSegment s i c).dies = s.dies := by
  obtain ⟨w, cs, h⟩ := endSegment_eq s i c
  rw [h]

end

/-! ### HALT and CURTDONE (R101, R411) -/

section
variable {s : State} {u : UnitSt}

/-- A unit with an empty record, idle engines and a complete release may end. -/
theorem haltCheck_done (hp : u.pend = []) (he : engineBusy s s.issue.me u.ident.cluster = false)
    (hr : u.umem.haltRel = some true ∨ u.umem.haltRel = none ∧ releaseIdle s u = true) : haltCheck s u = .done := by
  have hrel : (u.umem.haltRel == some true || (u.umem.haltRel.isNone && releaseIdle s u)) = true := by
    rcases hr with h | ⟨h, h'⟩
    · simp [h]
    · simp [h, h']
  simp [haltCheck, hp, he, hrel]

theorem haltCheck_pending (hp : u.pend ≠ []) : haltCheck s u = .wait .drainHalt := by
  simp [haltCheck, hp]

theorem haltWait_pending (hp : u.pend ≠ []) : haltWait s u = s := by
  simp [haltWait, hp]

/-- The unit that completes: its record empty, its waits over, its memberships ended. -/
def completed (u : UnitSt) (e : EndStatus) : UnitSt :=
  (({ u with pend := [], drops := [] } : UnitSt).modRun fun r =>
    { r with status := .complete e, wait := none, due := [], preempt := false }).modSyncSt fun y =>
    { y with members := [], barawReq := none, barwaitReq := none, barwaitReply := none }

/-- Leaving the barriers of every die changes the dies alone. -/
theorem foldl_modSync_eq (g : SyncEngine → SyncEngine) (l : List DieNo) (s : State) :
    ∃ ds, l.foldl (fun s d => s.modSync d g) s = { s with dies := ds } := by
  induction l generalizing s with
  | nil => exact ⟨_, rfl⟩
  | cons d l ih =>
    obtain ⟨ds, h⟩ := ih (s.modSync d g)
    exact ⟨ds, h⟩

/-- The last unit of a launch to be done starts its completion. -/
theorem launchUnitDone_launch {n : Nat} {l : Launch} (h : s.launch? n = some l) :
    ∃ l', (launchUnitDone s n).launch? n = some l' ∧ l'.remain = l.remain - 1 := by
  refine ⟨{ l with remain := l.remain - 1, finish := if l.remain ≤ 1 then 1 else l.finish }, ?_, rfl⟩
  simp only [launchUnitDone, State.launch?, State.modLaunch, State.modHub_hub, List.getElem?_modify_eq]
  rw [show s.hub.launches[n]? = some l from h]
  rfl

/-- A completed unit with its segment ended, its banks and its memberships given up, before its launch is told. -/
theorem completeUnit_eq {i : Uid} (e : EndStatus) (hu : s.unit? i = some u) (hp : u.isPrompter = false) :
    ∃ w cs ds, completeUnit s i e =
      rebuildOrder (match u.ident.launch with
        | some l => launchUnitDone { s with units := s.units.set i (completed u e), hub := { s.hub with walk := w }, clusters := cs, dies := ds } l
        | none => { s with units := s.units.set i (completed u e), hub := { s.hub with walk := w }, clusters := cs, dies := ds })
        u.ident.cluster := by
  have hprompt : u.ident.prompt = none := by simpa [UnitSt.isPrompter] using hp
  obtain ⟨w, cs, hseg⟩ := endSegment_eq s i u.ident.cluster
  unfold completeUnit
  rw [hu]
  dsimp only
  rw [hprompt, hseg]
  obtain ⟨ds, hds⟩ := foldl_modSync_eq (fun y =>
      { y with members := y.members.filter (fun m => m.uid != i), waiters := y.waiters.filter fun w => w.uid != i })
      (List.finRange 8) (((({ s with hub := { s.hub with walk := w }, clusters := cs } : State).setUnit i (completed u e))).modCluster
        u.ident.cluster fun k => leaveOrder { k with banks := k.banks.filter fun b => b.owner != i } i)
  exact ⟨w, _, ds, by rw [← completed, hds]; rfl⟩

/-- What completion leaves of a unit that is no prompter, of its launch, and of memory. -/
theorem completeUnit_spec {i : Uid} (e : EndStatus) (hu : s.unit? i = some u) (hp : u.isPrompter = false) :
    (∃ b, (completeUnit s i e).unit? i = some { completed u e with run := { (completed u e).run with preempt := b } }) ∧
      (∀ n l, u.ident.launch = some n → s.launch? n = some l →
        ∃ l', (completeUnit s i e).launch? n = some l' ∧ l'.remain = l.remain - 1) ∧
      (completeUnit s i e).mem = s.mem := by
  obtain ⟨w, cs, ds, h⟩ := completeUnit_eq e hu hp
  have hset : (s.units.set i (completed u e))[i]? = some (completed u e) := State.unit?_setUnit_self hu
  rw [h]
  refine ⟨rebuildOrder_unit _ ?_, fun n l hn hl => ?_, ?_⟩
  · split <;> exact hset
  · simp only [State.launch?, rebuildOrder_hub, hn]
    exact launchUnitDone_launch hl
  · rw [rebuildOrder_mem]
    split <;> rfl

/-- HALT of a unit whose work is done. -/
theorem execHalt_done (hu : AtIssue s u) (hl : Unlent s) (hc : haltCheck s u = .done) :
    exec .halt s = .next (done (completeUnit s s.issue.me (if u.curt.inentry then .curtain else .halted))) := by
  refine (exec_halt s).trans ?_
  unfold execHalt
  exact runSlotW_done hu ((firstFail_noLend hl _).trans (by rw [hc]; rfl))

/-- CURTDONE of a unit in its curtain entry whose work is done. -/
theorem execCurtdone_done (hu : AtIssue s u) (hl : Unlent s) (hi : u.curt.inentry = true) (hc : haltCheck s u = .done) :
    exec .curtdone s = .next (done (completeUnit s s.issue.me .curtain)) := by
  refine (exec_curtdone s).trans ?_
  unfold execCurtdone
  exact runSlotW_done hu ((firstFail_noLend hl _).trans (by rw [hi, hc]; rfl))

/-- Settles O23: the checks of HALT in the order of R101, and what completion leaves of the unit. -/
theorem haltCompletes : Obligations.HaltCompletes := by
  unfold Obligations.HaltCompletes
  intro s u hu hl
  refine ⟨fun hp he hr => ⟨fun hi => ?_, _, execHalt_done hu hl (haltCheck_done hp he hr), rfl, fun hprompt => ?_⟩, fun hi => ?_,
    fun hp => ⟨?_, rfl, fun hi => ?_⟩⟩
  · rw [execHalt_done hu hl (haltCheck_done hp he hr), execCurtdone_done hu hl hi (haltCheck_done hp he hr), if_pos hi]
  · obtain ⟨⟨b, hv⟩, hlaunch, hmem⟩ := completeUnit_spec (if u.curt.inentry then .curtain else .halted) hu hprompt
    exact ⟨_, hv, rfl, rfl, rfl, hlaunch, hmem⟩
  · refine (exec_curtdone s).trans ?_
    unfold execCurtdone
    exact runSlotW_fault hu ((firstFail_noLend hl _).trans (by rw [hi]; rfl))
  · refine (exec_halt s).trans ?_
    unfold execHalt
    refine (runSlotW_wait hu ((firstFail_noLend hl _).trans (by rw [haltCheck_pending hp]; rfl))).trans ?_
    rw [haltWait_pending hp]
  · refine (exec_curtdone s).trans ?_
    unfold execCurtdone
    refine (runSlotW_wait hu ((firstFail_noLend hl _).trans (by rw [hi, haltCheck_pending hp]; rfl))).trans ?_
    rw [haltWait_pending hp]

end

end Sys2Proof.Units
end

section
/-! PROOFS.
The freeze of a unit (R335 to R342): what it does to the unit, where it places it, and what it leaves of the machine. -/

-- One proof at a time: the check of the whole text has a limit on memory, which many threads would reach.
set_option Elab.async false

namespace Sys2Proof.Freezes

open Sys2Proof.Machine Sys2Proof.Safety Sys2Proof.Sequencer Sys2Proof.Units

/-! ### Lists and contexts changed in one place -/

/-- The first element of its key is found changed. -/
theorem find?_updateFirst {α : Type} {p : α → Bool} {f : α → α} (hf : ∀ x, p (f x) = p x) (l : List α) :
    (updateFirst p f l).find? p = (l.find? p).map f := by
  induction l with
  | nil => rfl
  | cons x l ih =>
    cases hx : p x <;> simp [updateFirst, hx, hf, ih]

/-- A key that the first element of another key never has finds what it found. -/
theorem find?_updateFirst_of_disjoint {α : Type} {p q : α → Bool} {f : α → α} (hf : ∀ x, p x = true → q x = false ∧ q (f x) = false)
    (l : List α) : (updateFirst p f l).find? q = l.find? q := by
  induction l with
  | nil => rfl
  | cons x l ih =>
    cases hx : p x
    · simp [updateFirst, hx, List.find?_cons, ih]
    · obtain ⟨h1, h2⟩ := hf x hx
      simp [updateFirst, hx, h1, h2]

/-- A context changed within its address space is found changed, and every other as it was. -/
theorem ctx?_modCtx {f : Context → Context} (hf : ∀ k, (f k).asid = k.asid) (s : State) (a b : BitVec 16) :
    (s.modCtx a f).ctx? b = if b = a then (s.ctx? a).map f else s.ctx? b := by
  simp only [State.ctx?, State.modCtx_hub]
  split
  · next h =>
    subst h
    exact find?_updateFirst (fun k => by rw [hf]) _
  · next h =>
    refine find?_updateFirst_of_disjoint (fun k hk => ?_) _
    have hka : k.asid = a := by simpa using hk
    simp [hf, hka, Ne.symm h]

@[simp] theorem endSegment_ctx? (s : State) (i : Uid) (c : ClusterNo) (a : BitVec 16) :
    (endSegment s i c).ctx? a = s.ctx? a := by
  simp [State.ctx?]

/-! ### What the recorder notes of a freeze (R350) -/

/-- The recorder's stream of a context is all that a recorded event changes. -/
theorem recordEvent_eq (s : State) (i : Uid) (kind : RecKind) (tag : Nat) (v : Word) (r : Option FaultRec) :
    ∃ h, recordEvent s i kind tag v r = { s with hub := h } ∧
      ∀ a, ∃ g : Context → Context, (recordEvent s i kind tag v r).ctx? a = (s.ctx? a).map g ∧
        ∀ k, ∃ l, g k = { k with recorder := l } := by
  unfold recordEvent
  split
  · exact ⟨_, rfl, fun a => ⟨id, by simp, fun k => ⟨_, rfl⟩⟩⟩
  · next u hu =>
    refine ⟨_, rfl, fun a => ?_⟩
    rw [ctx?_modCtx (fun k => by split <;> rfl)]
    split
    · next h =>
      subst h
      exact ⟨_, rfl, fun k => by split <;> exact ⟨_, rfl⟩⟩
    · exact ⟨id, by simp, fun k => ⟨_, rfl⟩⟩

/-! ### Where a frozen unit is placed (R338, R342) -/

/-- The status that a freeze gives a unit that is no prompter. -/
def frozenStatus (s : State) (u : UnitSt) : Status :=
  match s.ctx? u.ident.asid with
  | none => .stopped
  | some k =>
    if !k.pen || firmwareTakes u then .stopped
    else if (prompterOn s u.ident.asid u.ident.cluster).isSome || (freeSlot k).isSome then .frozenFree
    else .prompterWait

/-- A prompter that starts joins the units. -/
theorem startPrompter_unit {s : State} {i : Uid} {u : UnitSt} (h : s.unit? i = some u) (k : Context) (slot : BitVec 6)
    (c : ClusterNo) (serves : Uid) : (startPrompter s k slot c serves).unit? i = some u := by
  have hi : i < s.units.length := (List.getElem?_eq_some_iff.mp h).1
  show (s.units ++ _)[i]? = some u
  rw [List.getElem?_append_left hi]
  exact h

/-- A unit that is placed has its status, and the machine may have a prompter more. -/
theorem placeFrozen_unit {s : State} {i : Uid} {u : UnitSt} (h : s.unit? i = some u) :
    (placeFrozen s i u).unit? i = some { u with run := { u.run with status := frozenStatus s u } } := by
  have hset : ∀ x, (s.modUnit i fun u => u.modRun fun r => { r with status := x }).unit? i =
      some { u with run := { u.run with status := x } } := fun x => State.unit?_modUnit_self h
  unfold placeFrozen frozenStatus
  cases hctx : s.ctx? u.ident.asid with
  | none => exact hset _
  | some k =>
    dsimp only
    by_cases hfirm : (!k.pen || firmwareTakes u) = true
    · simp only [if_pos hfirm]
      exact hset _
    · by_cases hp : (prompterOn s u.ident.asid u.ident.cluster).isSome = true
      · simp only [if_neg hfirm, hp, Bool.true_or, if_true]
        exact hset _
      · cases hslot : freeSlot k with
        | some slot =>
          simp only [if_neg hfirm, if_neg hp, Option.isSome_some, Bool.or_true, if_true]
          exact startPrompter_unit (hset _) _ _ _ _
        | none =>
          simp only [if_neg hfirm, if_neg hp, Option.isSome_none, Bool.or_false]
          exact hset _

/-- Placing a frozen unit touches units and contexts alone. -/
theorem placeFrozen_eq (s : State) (i : Uid) (u : UnitSt) : ∃ us cs, placeFrozen s i u =
    { s with units := us, hub := { s.hub with contexts := cs } } := by
  unfold placeFrozen
  dsimp only
  split
  · exact ⟨_, _, rfl⟩
  · split
    · exact ⟨_, _, rfl⟩
    · split
      · exact ⟨_, _, rfl⟩
      · split <;> exact ⟨_, _, rfl⟩

/-! ### The freeze -/

/-- The unit as a freeze leaves it, but for its status. -/
def noted (u : UnitSt) (r : FaultRec) (seq : Nat) : UnitSt :=
  u.modRun fun x => { x with gen := x.gen + 1, wait := none, record := some r, frozenAt := seq, dieLost := false,
                             curtFrozen := false, standing := 0, stood := false, preempt := false }

/-- A prompter runs on a core wherever the units there have the same places and statuses. -/
theorem prompterOn_congr {s t : State} (hlen : t.units.length = s.units.length)
    (h : ∀ i, (t.unit? i).map (fun u => (u.ident, u.run.status)) = (s.unit? i).map fun u => (u.ident, u.run.status))
    (a : BitVec 16) (c : ClusterNo) : prompterOn t a c = prompterOn s a c := by
  unfold prompterOn
  rw [hlen]
  congr 1
  funext i
  have hi := h i
  revert hi
  cases ht : t.unit? i <;> cases hs : s.unit? i <;> intro hi
  · rfl
  · cases hi
  · cases hi
  · next u v =>
    obtain ⟨hid, hst⟩ := Prod.mk.inj (Option.some.inj hi)
    simp only [UnitSt.isPrompter, UnitSt.live, hid, hst]

/-- The recorder's note of a freeze: of a lost die always, else of a fault found after issue. -/
def recorded (s : State) (i : Uid) (r : FaultRec) : State :=
  if r.code = cDieLost then recordEvent s i .dieLost 0 (r.addr.setWidth 64) (some r)
  else if r.after then recordEvent s i .freeze r.code.toNat (r.addr.setWidth 64) (some r) else s

theorem recorded_eq (s : State) (i : Uid) (r : FaultRec) : ∃ h, recorded s i r = { s with hub := h } ∧
    ∀ a, ∃ g : Context → Context, (recorded s i r).ctx? a = (s.ctx? a).map g ∧ ∀ k, ∃ l, g k = { k with recorder := l } := by
  unfold recorded
  split
  · exact recordEvent_eq ..
  · split
    · exact recordEvent_eq ..
    · exact ⟨_, rfl, fun a => ⟨id, by simp, fun k => ⟨_, rfl⟩⟩⟩

/-- The state in which a frozen unit is placed: the unit noted, the freeze counted, its segment ended. -/
def frozenAt (s : State) (i : Uid) (u : UnitSt) (r : FaultRec) (seq : Nat) : State :=
  endSegment (((recorded s i r).setUnit i (noted u r seq)).modCtx u.ident.asid fun k => { k with frozenSeq := k.frozenSeq + 1 }) i
    u.ident.cluster

theorem freeze_eq {s : State} {i : Uid} {u : UnitSt} (h : s.unit? i = some u) (r : FaultRec) :
    ∃ seq, freeze s i r = rebuildOrder (if u.isPrompter then
      (frozenAt s i u r seq).modUnit i fun u => u.modRun fun x => { x with status := .stopped }
      else placeFrozen (frozenAt s i u r seq) i (noted u r seq)) u.ident.cluster := by
  unfold freeze
  rw [h]
  exact ⟨_, rfl⟩

theorem frozenAt_units (s : State) (i : Uid) (u : UnitSt) (r : FaultRec) (seq : Nat) :
    (frozenAt s i u r seq).units = s.units.set i (noted u r seq) := by
  obtain ⟨h, hrec, -⟩ := recorded_eq s i r
  rw [frozenAt, endSegment_units, State.modCtx_units, State.setUnit_units, hrec]

theorem frozenAt_unit {s : State} {i : Uid} {u : UnitSt} (h : s.unit? i = some u) (r : FaultRec) (seq : Nat) :
    (frozenAt s i u r seq).unit? i = some (noted u r seq) := by
  rw [State.unit?, frozenAt_units]
  exact State.unit?_setUnit_self h

/-- A frozen unit is placed as the machine stood before its freeze. -/
theorem frozenStatus_frozenAt {s : State} {i : Uid} {u : UnitSt} (h : s.unit? i = some u) (r : FaultRec) (seq : Nat) :
    frozenStatus (frozenAt s i u r seq) (noted u r seq) = frozenStatus s (noted u r seq) := by
  obtain ⟨-, -, hrec⟩ := recorded_eq s i r
  obtain ⟨g, hg, hkeep⟩ := hrec u.ident.asid
  have hctx : (frozenAt s i u r seq).ctx? u.ident.asid =
      (s.ctx? u.ident.asid).map fun k => { g k with frozenSeq := (g k).frozenSeq + 1 } := by
    rw [frozenAt, endSegment_ctx?, ctx?_modCtx (f := fun k => { k with frozenSeq := k.frozenSeq + 1 }) (fun k => rfl), if_pos rfl, State.ctx?_setUnit, hg, Option.map_map]
    rfl
  have hon : prompterOn (frozenAt s i u r seq) u.ident.asid u.ident.cluster = prompterOn s u.ident.asid u.ident.cluster := by
    refine prompterOn_congr (by rw [frozenAt_units, List.length_set]) (fun j => ?_) _ _
    rw [State.unit?, frozenAt_units]
    by_cases hj : i = j
    · subst hj
      rw [show (s.units.set i (noted u r seq))[i]? = some (noted u r seq) from State.unit?_setUnit_self h, h]
      rfl
    · rw [show (s.units.set i (noted u r seq))[j]? = s.unit? j from State.unit?_setUnit_ne hj]
  unfold frozenStatus
  rw [show (noted u r seq).ident = u.ident from rfl, hctx, hon]
  cases hk : s.ctx? u.ident.asid with
  | none => rfl
  | some k =>
    obtain ⟨l, hl⟩ := hkeep k
    simp only [Option.map_some, hl]
    rfl

theorem frozenAt_frame (s : State) (i : Uid) (u : UnitSt) (r : FaultRec) (seq : Nat) :
    (frozenAt s i u r seq).mem = s.mem ∧ (frozenAt s i u r seq).dies = s.dies := by
  obtain ⟨h, hrec, -⟩ := recorded_eq s i r
  simp only [frozenAt, endSegment_mem, endSegment_dies, State.modCtx_mem, State.modCtx_dies, State.setUnit_mem, State.setUnit_dies,
    hrec, and_self]

/-- What a freeze does: the unit is noted and placed, and LPDDR6 and the dies stand. -/
theorem freeze_unit {s : State} {i : Uid} {u : UnitSt} (h : s.unit? i = some u) (r : FaultRec) :
    (∃ b seq, (freeze s i r).unit? i = some { u with run := { (noted u r seq).run with
      status := if u.isPrompter then .stopped else frozenStatus s (noted u r seq), preempt := b } }) ∧
    (freeze s i r).mem = s.mem ∧ (freeze s i r).dies = s.dies := by
  obtain ⟨seq, hf⟩ := freeze_eq h r
  obtain ⟨hmem, hdies⟩ := frozenAt_frame s i u r seq
  obtain ⟨us, cs, hplace⟩ := placeFrozen_eq (frozenAt s i u r seq) i (noted u r seq)
  rw [hf, rebuildOrder_mem, rebuildOrder_dies]
  cases hp : u.isPrompter with
  | true =>
    obtain ⟨b, hb⟩ := rebuildOrder_unit u.ident.cluster
      (State.unit?_modUnit_self (f := fun u => u.modRun fun x => { x with status := .stopped }) (frozenAt_unit h r seq))
    exact ⟨⟨b, seq, hb⟩, hmem, hdies⟩
  | false =>
    obtain ⟨b, hb⟩ := rebuildOrder_unit u.ident.cluster (placeFrozen_unit (frozenAt_unit h r seq))
    rw [frozenStatus_frozenAt h] at hb
    refine ⟨⟨b, seq, hb⟩, ?_, ?_⟩
    · exact (congrArg State.mem hplace).trans hmem
    · exact (congrArg State.dies hplace).trans hdies

/-- The record of a fault at issue (R335). -/
def issueRecord (s : State) (u : UnitSt) (code : BitVec 8) (addr : Va) : FaultRec :=
  { code := code, addr := addr, mask := s.issue.mask, after := false, source := .core, slot := s.issue.slot,
    bundle := u.flow.pc.addr }

theorem freezeAtIssue_eq {s : State} {u : UnitSt} (hu : AtIssue s u) (code : BitVec 8) (addr : Va) :
    freezeAtIssue s code addr = freeze s s.issue.me (issueRecord s u code addr) := by
  unfold freezeAtIssue
  rw [show s.unit? s.issue.me = some u from hu]
  rfl

/-- Settles O10: a fault at issue is the freeze of the unit at issue with its record. -/
theorem faultFreezes : Obligations.FaultFreezes := by
  unfold Obligations.FaultFreezes
  intro s u code addr hu
  obtain ⟨⟨b, seq, hv⟩, hmem, hdies⟩ := freeze_unit hu (issueRecord s u code addr)
  rw [← freezeAtIssue_eq hu] at hv hmem hdies
  exact ⟨_, hv, rfl, rfl, rfl, rfl, rfl, rfl, rfl, rfl, rfl, rfl, rfl, hmem, hdies⟩

end Sys2Proof.Freezes
end

section
/-! PROOFS.
Every state has a next state (notes/assumptions 1): a slot runs on the unit whose bundle is at issue, an event runs always, and
the parts of a cycle hand one to the next. -/

-- One proof at a time: the check of the whole text has a limit on memory, which many threads would reach.
set_option Elab.async false

namespace Sys2Proof.Totality

open Sys2Proof.Machine Sys2Proof.Safety Sys2Proof.Control

/-! ### The shared forms of slots -/

section
variable {s : State} {u : UnitSt}

theorem vectorSlot_runs {misuse : Issue → Bool} {reads : Issue → List VOperand} {dest : Issue → VOperand} {lat : Nat}
    {can : BitVec 5} {f : Issue → UnitSt → BitVec 512 × BitVec 5} (h : AtIssue s u) :
    Runs (vectorSlot misuse reads dest lat can f s) := by
  unfold vectorSlot
  exact runSlot_runs h

theorem fpSlot_runs {wide useB useD : Bool} {lat : Nat} {can : BitVec 5} {op : LaneOp} {d a b : BitVec 8} (h : AtIssue s u) :
    Runs (fpSlot wide useB useD lat can op d a b s) := by
  unfold fpSlot
  exact vectorSlot_runs h

theorem intSlot_runs {useD : Bool} {f : BitVec 32 → BitVec 32 → BitVec 32 → BitVec 32} {d a b : BitVec 8} (h : AtIssue s u) :
    Runs (intSlot useD f d a b s) := by
  unfold intSlot
  exact vectorSlot_runs h

theorem loadSlot_runs {n : Nat} {signed : Bool} {d b : BitVec 6} {w : BitVec 2} {o : BitVec 10} (h : AtIssue s u) :
    Runs (loadSlot n signed d b w o s) := by
  unfold loadSlot
  exact runSlotW_runs h

theorem storeSlot_runs {n : Nat} {d b : BitVec 6} {w : BitVec 2} {o : BitVec 10} (h : AtIssue s u) :
    Runs (storeSlot n d b w o s) := by
  unfold storeSlot
  exact runSlotW_runs h

theorem arraySlot_runs {op : BitVec 4} {hdr : BitVec 24} (h : AtIssue s u) : Runs (arraySlot op hdr s) := by
  unfold arraySlot
  exact runSlot_runs h

theorem atomicSlot_runs {op5 : BitVec 5} {d a b : BitVec 6} {c o : BitVec 2} {w : BitVec 1} {cmp signed : Bool}
    (h : AtIssue s u) : Runs (atomicSlot op5 d a b c o w cmp signed s) := by
  unfold atomicSlot
  exact runSlotW_runs h

theorem valsetSlot_runs {b : BitVec 6} {w : BitVec 2} {srcs : List Dest} {chk : State → UnitSt → SlotResult}
    {vals : State → UnitSt → Bool × Bool × BitVec 5 × BitVec 64} (h : AtIssue s u) :
    Runs (valsetSlot b w srcs chk vals s) := by
  unfold valsetSlot
  exact runSlotW_runs h

theorem tlbiSlot_runs {d : BitVec 6} {srcs : List Dest} {bad : UnitSt → Bool} {range : UnitSt → Option (Nat × Nat)}
    (h : AtIssue s u) : Runs (tlbiSlot d srcs bad range s) := by
  unfold tlbiSlot
  exact runSlotW_runs h

end

/-! ### Slots and events -/

/-- An instruction runs wherever a unit is at issue: a slot by its form, an event by its equation. -/
theorem exec_runs {s : State} {u : UnitSt} (h : AtIssue s u) (i : Instr) : Runs (exec i s) := by
  cases i
  case add => rw [exec_add, execAdd]; exact runSlot_runs h
  case sub => rw [exec_sub, execSub]; exact runSlot_runs h
  case and => rw [exec_and, execAnd]; exact runSlot_runs h
  case or => rw [exec_or, execOr]; exact runSlot_runs h
  case xor => rw [exec_xor, execXor]; exact runSlot_runs h
  case andn => rw [exec_andn, execAndn]; exact runSlot_runs h
  case shl => rw [exec_shl, execShl]; exact runSlot_runs h
  case shr => rw [exec_shr, execShr]; exact runSlot_runs h
  case sar => rw [exec_sar, execSar]; exact runSlot_runs h
  case rol => rw [exec_rol, execRol]; exact runSlot_runs h
  case mul => rw [exec_mul, execMul]; exact runSlot_runs h
  case mulhs => rw [exec_mulhs, execMulhs]; exact runSlot_runs h
  case mulhu => rw [exec_mulhu, execMulhu]; exact runSlot_runs h
  case divs => rw [exec_divs, execDivs]; exact runSlot_runs h
  case divu => rw [exec_divu, execDivu]; exact runSlot_runs h
  case rems => rw [exec_rems, execRems]; exact runSlot_runs h
  case remu => rw [exec_remu, execRemu]; exact runSlot_runs h
  case mins => rw [exec_mins, execMins]; exact runSlot_runs h
  case minu => rw [exec_minu, execMinu]; exact runSlot_runs h
  case maxs => rw [exec_maxs, execMaxs]; exact runSlot_runs h
  case maxu => rw [exec_maxu, execMaxu]; exact runSlot_runs h
  case clz => rw [exec_clz, execClz]; exact runSlot_runs h
  case ctz => rw [exec_ctz, execCtz]; exact runSlot_runs h
  case popc => rw [exec_popc, execPopc]; exact runSlot_runs h
  case brev => rw [exec_brev, execBrev]; exact runSlot_runs h
  case bswap => rw [exec_bswap, execBswap]; exact runSlot_runs h
  case sext => rw [exec_sext, execSext]; exact runSlot_runs h
  case zext => rw [exec_zext, execZext]; exact runSlot_runs h
  case sel => rw [exec_sel, execSel]; exact runSlot_runs h
  case addw => rw [exec_addw, execAddw]; exact runSlot_runs h
  case subw => rw [exec_subw, execSubw]; exact runSlot_runs h
  case mulw => rw [exec_mulw, execMulw]; exact runSlot_runs h
  case cmpeq => rw [exec_cmpeq, execCmpeq]; exact runSlot_runs h
  case cmpne => rw [exec_cmpne, execCmpne]; exact runSlot_runs h
  case cmplts => rw [exec_cmplts, execCmplts]; exact runSlot_runs h
  case cmpltu => rw [exec_cmpltu, execCmpltu]; exact runSlot_runs h
  case cmples => rw [exec_cmples, execCmples]; exact runSlot_runs h
  case cmpleu => rw [exec_cmpleu, execCmpleu]; exact runSlot_runs h
  case pand => rw [exec_pand, execPand]; exact runSlot_runs h
  case por => rw [exec_por, execPor]; exact runSlot_runs h
  case pxor => rw [exec_pxor, execPxor]; exact runSlot_runs h
  case pnot => rw [exec_pnot, execPnot]; exact runSlot_runs h
  case movp => rw [exec_movp, execMovp]; exact runSlot_runs h
  case movtp => rw [exec_movtp, execMovtp]; exact runSlot_runs h
  case addi => rw [exec_addi, execAddi]; exact runSlot_runs h
  case andi => rw [exec_andi, execAndi]; exact runSlot_runs h
  case ori => rw [exec_ori, execOri]; exact runSlot_runs h
  case xori => rw [exec_xori, execXori]; exact runSlot_runs h
  case shli => rw [exec_shli, execShli]; exact runSlot_runs h
  case shri => rw [exec_shri, execShri]; exact runSlot_runs h
  case sari => rw [exec_sari, execSari]; exact runSlot_runs h
  case muli => rw [exec_muli, execMuli]; exact runSlot_runs h
  case li => rw [exec_li, execLi]; exact runSlot_runs h
  case lix => rw [exec_lix, execLix]; exact runSlot_runs h
  case cmpeqi => rw [exec_cmpeqi, execCmpeqi]; exact runSlot_runs h
  case cmpltsi => rw [exec_cmpltsi, execCmpltsi]; exact runSlot_runs h
  case cmpltui => rw [exec_cmpltui, execCmpltui]; exact runSlot_runs h
  case ldb => rw [exec_ldb, execLdb]; exact loadSlot_runs h
  case ldbu => rw [exec_ldbu, execLdbu]; exact loadSlot_runs h
  case ldh => rw [exec_ldh, execLdh]; exact loadSlot_runs h
  case ldhu => rw [exec_ldhu, execLdhu]; exact loadSlot_runs h
  case ldw => rw [exec_ldw, execLdw]; exact loadSlot_runs h
  case ldwu => rw [exec_ldwu, execLdwu]; exact loadSlot_runs h
  case ldd => rw [exec_ldd, execLdd]; exact loadSlot_runs h
  case stb => rw [exec_stb, execStb]; exact storeSlot_runs h
  case sth => rw [exec_sth, execSth]; exact storeSlot_runs h
  case stw => rw [exec_stw, execStw]; exact storeSlot_runs h
  case std => rw [exec_std, execStd]; exact storeSlot_runs h
  case ldro => rw [exec_ldro, execLdro]; exact runSlotW_runs h
  case ldacq => rw [exec_ldacq, execLdacq]; exact runSlotW_runs h
  case strel => rw [exec_strel, execStrel]; exact runSlotW_runs h
  case pfl2 => rw [exec_pfl2, execPfl2]; exact runSlotW_runs h
  case br => rw [exec_br, execBr]; exact runSlot_runs h
  case brn => rw [exec_brn, execBrn]; exact runSlot_runs h
  case call => rw [exec_call, execCall]; exact runSlot_runs h
  case jr => rw [exec_jr, execJr]; exact runSlot_runs h
  case callr => rw [exec_callr, execCallr]; exact runSlot_runs h
  case loop => rw [exec_loop, execLoop]; exact runSlot_runs h
  case loopi => rw [exec_loopi, execLoopi]; exact runSlot_runs h
  case endseg => rw [exec_endseg, execEndseg]; exact runSlot_runs h
  case halt => rw [exec_halt, execHalt]; exact runSlotW_runs h
  case stgp => rw [exec_stgp, execStgp]; exact runSlot_runs h
  case trap => rw [exec_trap, execTrap]; exact runSlot_runs h
  case brk => rw [exec_brk, execBrk]; exact runSlot_runs h
  case nops => rw [exec_nops, execNops]; exact runSlot_runs h
  case nop => rw [exec_nop, execNop]; exact runSlot_runs h
  case vadd => rw [exec_vadd, execVadd]; exact fpSlot_runs h
  case vsub => rw [exec_vsub, execVsub]; exact fpSlot_runs h
  case vmul => rw [exec_vmul, execVmul]; exact fpSlot_runs h
  case vfma => rw [exec_vfma, execVfma]; exact fpSlot_runs h
  case vfms => rw [exec_vfms, execVfms]; exact fpSlot_runs h
  case vdiv => rw [exec_vdiv, execVdiv]; exact fpSlot_runs h
  case vsqrt => rw [exec_vsqrt, execVsqrt]; exact fpSlot_runs h
  case vmin => rw [exec_vmin, execVmin]; exact fpSlot_runs h
  case vmax => rw [exec_vmax, execVmax]; exact fpSlot_runs h
  case vcmpeq => rw [exec_vcmpeq, execVcmpeq]; exact fpSlot_runs h
  case vcmplt => rw [exec_vcmplt, execVcmplt]; exact fpSlot_runs h
  case vcmple => rw [exec_vcmple, execVcmple]; exact fpSlot_runs h
  case vabs => rw [exec_vabs, execVabs]; exact fpSlot_runs h
  case vneg => rw [exec_vneg, execVneg]; exact fpSlot_runs h
  case vsel => rw [exec_vsel, execVsel]; exact fpSlot_runs h
  case vclass => rw [exec_vclass, execVclass]; exact fpSlot_runs h
  case vaddF64 => rw [exec_vaddF64, execVaddF64]; exact fpSlot_runs h
  case vsubF64 => rw [exec_vsubF64, execVsubF64]; exact fpSlot_runs h
  case vmulF64 => rw [exec_vmulF64, execVmulF64]; exact fpSlot_runs h
  case vfmaF64 => rw [exec_vfmaF64, execVfmaF64]; exact fpSlot_runs h
  case vfmsF64 => rw [exec_vfmsF64, execVfmsF64]; exact fpSlot_runs h
  case vdivF64 => rw [exec_vdivF64, execVdivF64]; exact fpSlot_runs h
  case vsqrtF64 => rw [exec_vsqrtF64, execVsqrtF64]; exact fpSlot_runs h
  case vminF64 => rw [exec_vminF64, execVminF64]; exact fpSlot_runs h
  case vmaxF64 => rw [exec_vmaxF64, execVmaxF64]; exact fpSlot_runs h
  case vcmpeqF64 => rw [exec_vcmpeqF64, execVcmpeqF64]; exact fpSlot_runs h
  case vcmpltF64 => rw [exec_vcmpltF64, execVcmpltF64]; exact fpSlot_runs h
  case vcmpleF64 => rw [exec_vcmpleF64, execVcmpleF64]; exact fpSlot_runs h
  case vabsF64 => rw [exec_vabsF64, execVabsF64]; exact fpSlot_runs h
  case vnegF64 => rw [exec_vnegF64, execVnegF64]; exact fpSlot_runs h
  case vselF64 => rw [exec_vselF64, execVselF64]; exact fpSlot_runs h
  case vclassF64 => rw [exec_vclassF64, execVclassF64]; exact fpSlot_runs h
  case viadd => rw [exec_viadd, execViadd]; exact intSlot_runs h
  case visub => rw [exec_visub, execVisub]; exact intSlot_runs h
  case vimul => rw [exec_vimul, execVimul]; exact intSlot_runs h
  case vimad => rw [exec_vimad, execVimad]; exact intSlot_runs h
  case vand => rw [exec_vand, execVand]; exact intSlot_runs h
  case vor => rw [exec_vor, execVor]; exact intSlot_runs h
  case vxor => rw [exec_vxor, execVxor]; exact intSlot_runs h
  case vshl => rw [exec_vshl, execVshl]; exact intSlot_runs h
  case vshr => rw [exec_vshr, execVshr]; exact intSlot_runs h
  case vsar => rw [exec_vsar, execVsar]; exact intSlot_runs h
  case vimin => rw [exec_vimin, execVimin]; exact intSlot_runs h
  case vimax => rw [exec_vimax, execVimax]; exact intSlot_runs h
  case vicmpeq => rw [exec_vicmpeq, execVicmpeq]; exact intSlot_runs h
  case vicmplt => rw [exec_vicmplt, execVicmplt]; exact intSlot_runs h
  case viadds => rw [exec_viadds, execViadds]; exact intSlot_runs h
  case vperm => rw [exec_vperm, execVperm]; exact vectorSlot_runs h
  case vmov => rw [exec_vmov, execVmov]; exact vectorSlot_runs h
  case vbcst => rw [exec_vbcst, execVbcst]; exact runSlot_runs h
  case vcvt => rw [exec_vcvt, execVcvt]; exact runSlotW_runs h
  case vtrans => rw [exec_vtrans, execVtrans]; exact runSlot_runs h
  case vred => rw [exec_vred, execVred]; exact vectorSlot_runs h
  case vldt => rw [exec_vldt, execVldt]; exact runSlot_runs h
  case vstt => rw [exec_vstt, execVstt]; exact runSlot_runs h
  case vldg => rw [exec_vldg, execVldg]; exact runSlotW_runs h
  case vstg => rw [exec_vstg, execVstg]; exact runSlotW_runs h
  case vqrd => rw [exec_vqrd, execVqrd]; exact runSlot_runs h
  case vpop => rw [exec_vpop, execVpop]; exact runSlot_runs h
  case vpush => rw [exec_vpush, execVpush]; exact runSlot_runs h
  case vext => rw [exec_vext, execVext]; exact runSlot_runs h
  case viota => rw [exec_viota, execViota]; exact vectorSlot_runs h
  case vsplat => rw [exec_vsplat, execVsplat]; exact vectorSlot_runs h
  case awld => rw [exec_awld, execAwld]; exact arraySlot_runs h
  case astrm => rw [exec_astrm, execAstrm]; exact arraySlot_runs h
  case aext => rw [exec_aext, execAext]; exact arraySlot_runs h
  case achk => rw [exec_achk, execAchk]; exact runSlot_runs h
  case aout => rw [exec_aout, execAout]; exact arraySlot_runs h
  case aclr => rw [exec_aclr, execAclr]; exact arraySlot_runs h
  case asnap => rw [exec_asnap, execAsnap]; exact runSlot_runs h
  case await => rw [exec_await, execAwait]; exact runSlot_runs h
  case asetl => rw [exec_asetl, execAsetl]; exact runSlot_runs h
  case aseed => rw [exec_aseed, execAseed]; exact runSlot_runs h
  case amode => rw [exec_amode, execAmode]; exact runSlot_runs h
  case agen => rw [exec_agen, execAgen]; exact runSlot_runs h
  case azone => rw [exec_azone, execAzone]; exact runSlot_runs h
  case cpy => rw [exec_cpy, execCpy]; exact runSlotW_runs h
  case cpyo => rw [exec_cpyo, execCpyo]; exact runSlotW_runs h
  case cpyt => rw [exec_cpyt, execCpyt]; exact runSlotW_runs h
  case gath => rw [exec_gath, execGath]; exact runSlotW_runs h
  case scat => rw [exec_scat, execScat]; exact runSlotW_runs h
  case bpf => rw [exec_bpf, execBpf]; exact runSlotW_runs h
  case qcvt => rw [exec_qcvt, execQcvt]; exact runSlotW_runs h
  case dqcvt => rw [exec_dqcvt, execDqcvt]; exact runSlotW_runs h
  case nmpk => rw [exec_nmpk, execNmpk]; exact runSlotW_runs h
  case nmup => rw [exec_nmup, execNmup]; exact runSlotW_runs h
  case publ => rw [exec_publ, execPubl]; exact runSlotW_runs h
  case qbnd => rw [exec_qbnd, execQbnd]; exact runSlot_runs h
  case twait => rw [exec_twait, execTwait]; exact runSlot_runs h
  case cfol => rw [exec_cfol, execCfol]; exact runSlot_runs h
  case cabt => rw [exec_cabt, execCabt]; exact runSlot_runs h
  case xpose => rw [exec_xpose, execXpose]; exact runSlotW_runs h
  case aadd => rw [exec_aadd, execAadd]; exact atomicSlot_runs h
  case aand => rw [exec_aand, execAand]; exact atomicSlot_runs h
  case aor => rw [exec_aor, execAor]; exact atomicSlot_runs h
  case axor => rw [exec_axor, execAxor]; exact atomicSlot_runs h
  case amins => rw [exec_amins, execAmins]; exact atomicSlot_runs h
  case aminu => rw [exec_aminu, execAminu]; exact atomicSlot_runs h
  case amaxs => rw [exec_amaxs, execAmaxs]; exact atomicSlot_runs h
  case amaxu => rw [exec_amaxu, execAmaxu]; exact atomicSlot_runs h
  case axchg => rw [exec_axchg, execAxchg]; exact atomicSlot_runs h
  case acas => rw [exec_acas, execAcas]; exact atomicSlot_runs h
  case afadd32 => rw [exec_afadd32, execAfadd32]; exact atomicSlot_runs h
  case afadd64 => rw [exec_afadd64, execAfadd64]; exact atomicSlot_runs h
  case barinit => rw [exec_barinit, execBarinit]; exact runSlotW_runs h
  case barrive => rw [exec_barrive, execBarrive]; exact runSlotW_runs h
  case barriveJoin => rw [exec_barriveJoin, execBarriveJoin]; exact runSlotW_runs h
  case barwait => rw [exec_barwait, execBarwait]; exact runSlotW_runs h
  case baraw => rw [exec_baraw, execBaraw]; exact runSlotW_runs h
  case fence => rw [exec_fence, execFence]; exact runSlotW_runs h
  case ared => rw [exec_ared, execAred]; exact runSlotW_runs h
  case syncq => rw [exec_syncq, execSyncq]; exact runSlotW_runs h
  case csrr => rw [exec_csrr, execCsrr]; exact runSlot_runs h
  case csrw => rw [exec_csrw, execCsrw]; exact runSlot_runs h
  case csrs => rw [exec_csrs, execCsrs]; exact runSlot_runs h
  case csrc => rw [exec_csrc, execCsrc]; exact runSlot_runs h
  case talloc => rw [exec_talloc, execTalloc]; exact runSlot_runs h
  case tfree => rw [exec_tfree, execTfree]; exact runSlot_runs h
  case bankacq => rw [exec_bankacq, execBankacq]; exact runSlotW_runs h
  case bankrel => rw [exec_bankrel, execBankrel]; exact runSlot_runs h
  case ringadv => rw [exec_ringadv, execRingadv]; exact runSlot_runs h
  case ringcnt => rw [exec_ringcnt, execRingcnt]; exact runSlot_runs h
  case stgw => rw [exec_stgw, execStgw]; exact runSlot_runs h
  case stgr => rw [exec_stgr, execStgr]; exact runSlot_runs h
  case valsetArr => rw [exec_valsetArr, execValsetArr]; exact valsetSlot_runs h
  case valset => rw [exec_valset, execValset]; exact valsetSlot_runs h
  case frd => rw [exec_frd, execFrd]; exact runSlotW_runs h
  case fwr => rw [exec_fwr, execFwr]; exact runSlotW_runs h
  case fresume => rw [exec_fresume, execFresume]; exact runSlotW_runs h
  case fkill => rw [exec_fkill, execFkill]; exact runSlotW_runs h
  case farrive => rw [exec_farrive, execFarrive]; exact runSlotW_runs h
  case fnext => rw [exec_fnext, execFnext]; exact runSlotW_runs h
  case fstep => rw [exec_fstep, execFstep]; exact runSlotW_runs h
  case curtdone => rw [exec_curtdone, execCurtdone]; exact runSlotW_runs h
  case rbseed => rw [exec_rbseed, execRbseed]; exact runSlot_runs h
  case repmark => rw [exec_repmark, execRepmark]; exact runSlotW_runs h
  case l1flush => rw [exec_l1flush, execL1flush]; exact runSlot_runs h
  case l1inv => rw [exec_l1inv, execL1inv]; exact runSlot_runs h
  case tlbiAll => rw [exec_tlbiAll, execTlbiAll]; exact tlbiSlot_runs h
  case tlbiRange => rw [exec_tlbiRange, execTlbiRange]; exact tlbiSlot_runs h
  case capdrop => rw [exec_capdrop, execCapdrop]; exact runSlotW_runs h
  case fwrAdvance | fwrAbandonCommand | fwrCancelPending | annulledBundleIssue | pendingWriteVisible | loadDataArrival |
      holdLineRaise | afterIssueFreeze | dieLostFreeze | prompterFaultPolicy | restartableReexecution | preemptionRequest |
      preemptPark | segmentSwitch | unitStart | wingsLoad | wingsSwap | weightClearDone | rbStep | l1OpComplete |
      copyCommandStart | copyCommandComplete | streamSlabTransfer | copyEngineFault | publCount | flipNotice | flipNoticeAck
      | valsetPerform | arrayCommandStart | awldComplete | vectorLatch | checkpointCopy | emitPublish | aoutPublish |
      aclrComplete | chainPartialSums | chainEnd | streamPoison | syncEngineOperation | syncReply | retryReceived |
      pageMigration | bufferRegistration | gets | getm | upg | putm | puto | pute | puts | dataS | dataE | dataM | datanf |
      upgack | inv | fwdgets | fwdgetsnf | fwdgetm | fwddata | invack | fwdack | putack | putackstale | push | rdset | rdinv
      | rdack | memoryFill | redirectedRead | circuitSend | snoopTimerExpiry | linkTrainingComplete | linkTrainFail |
      translationWalk | walkComplete | replayEventDelivery | gaddrWrite | cue | transformDispatch | phaseBoundaryRelease |
      launchReleaseDone | completionTarget | cancelUnit | cancelLaunch | cancelGraph | cancelPhase | cancelJob |
      budgetPeriodStart | deadlineStrike | curtainMessage | diversion | curtainNoentComplete | curtainOverrun | ptpMessage |
      ppsInput | ptmResponse | holdoverEntry | tkset | tktaisRead | inboundWrite | routeRelease | routeAck | inboundRead |
      inboundReadRelease | apctlWrite | xctlWrite | outboundLoadTimeout | hostLinkDown | estalPortTrained |
      estalPortStatusWrite | moduleReset | mreset | attestationGo | attestationDone | powerThrottle | thermalTrip |
      powerStageFault | registerWrite | hubDieFault | estalLinkDown | hostPortTrained | pushAcknowledgement |
      memoryWriteDone | shootDown | shootDownAck | outboundWriteAck | ideFailure | correctableError | flitRetry | pctlWrite
      => exact ⟨_, rfl⟩

/-- The leading bits of two words side by side. -/
theorem toNat_append_div {m k n : Nat} (x : BitVec m) (y : BitVec k) (h : k ≤ n) :
    (x ++ y).toNat / 2 ^ n = x.toNat / 2 ^ (n - k) := by
  obtain ⟨j, rfl⟩ := Nat.exists_eq_add_of_le h
  rw [toNat_append_eq_add, Nat.pow_add, ← Nat.div_div_eq_div_mul, Nat.add_sub_cancel_left, Nat.mul_comm,
    Nat.mul_add_div (Nat.two_pow_pos k), Nat.div_eq_of_lt y.isLt, Nat.add_zero]

/-- The class of the word that stands for an event is no slot's. -/
theorem class_of_isEvent {i : Instr} (h : isEvent i = true) : (encode i).toNat / 2 ^ 28 = 13 := by
  rw [beq_iff_eq.1 h]
  rfl

/-- An event runs in every state; the class of a slot's encoding, read off its first field, is no event's. -/
theorem event_runs (s : State) (i : Instr) (hi : isEvent i = true) : Runs (exec i s) := by
  have hclass := class_of_isEvent hi
  cases i
  case fwrAdvance | fwrAbandonCommand | fwrCancelPending | annulledBundleIssue | pendingWriteVisible | loadDataArrival |
      holdLineRaise | afterIssueFreeze | dieLostFreeze | prompterFaultPolicy | restartableReexecution | preemptionRequest |
      preemptPark | segmentSwitch | unitStart | wingsLoad | wingsSwap | weightClearDone | rbStep | l1OpComplete |
      copyCommandStart | copyCommandComplete | streamSlabTransfer | copyEngineFault | publCount | flipNotice | flipNoticeAck
      | valsetPerform | arrayCommandStart | awldComplete | vectorLatch | checkpointCopy | emitPublish | aoutPublish |
      aclrComplete | chainPartialSums | chainEnd | streamPoison | syncEngineOperation | syncReply | retryReceived |
      pageMigration | bufferRegistration | gets | getm | upg | putm | puto | pute | puts | dataS | dataE | dataM | datanf |
      upgack | inv | fwdgets | fwdgetsnf | fwdgetm | fwddata | invack | fwdack | putack | putackstale | push | rdset | rdinv
      | rdack | memoryFill | redirectedRead | circuitSend | snoopTimerExpiry | linkTrainingComplete | linkTrainFail |
      translationWalk | walkComplete | replayEventDelivery | gaddrWrite | cue | transformDispatch | phaseBoundaryRelease |
      launchReleaseDone | completionTarget | cancelUnit | cancelLaunch | cancelGraph | cancelPhase | cancelJob |
      budgetPeriodStart | deadlineStrike | curtainMessage | diversion | curtainNoentComplete | curtainOverrun | ptpMessage |
      ppsInput | ptmResponse | holdoverEntry | tkset | tktaisRead | inboundWrite | routeRelease | routeAck | inboundRead |
      inboundReadRelease | apctlWrite | xctlWrite | outboundLoadTimeout | hostLinkDown | estalPortTrained |
      estalPortStatusWrite | moduleReset | mreset | attestationGo | attestationDone | powerThrottle | thermalTrip |
      powerStageFault | registerWrite | hubDieFault | estalLinkDown | hostPortTrained | pushAcknowledgement |
      memoryWriteDone | shootDown | shootDownAck | outboundWriteAck | ideFailure | correctableError | flitRetry | pctlWrite
      => exact ⟨_, rfl⟩
  case add | sub | and | or | xor | andn | shl | shr | sar | rol | mul | mulhs | mulhu | divs | divu | rems | remu | mins |
      minu | maxs | maxu | clz | ctz | popc | brev | bswap | sext | zext | sel | addw | subw | mulw | cmpeq | cmpne | cmplts
      | cmpltu | cmples | cmpleu | pand | por | pxor | pnot | movp | movtp | addi | andi | ori | xori | shli | shri | sari |
      muli | li | lix | cmpeqi | cmpltsi | cmpltui | ldb | ldbu | ldh | ldhu | ldw | ldwu | ldd | stb | sth | stw | std |
      ldro | ldacq | strel | pfl2 | br | brn | call | jr | callr | loop | loopi | endseg | halt | stgp | trap | brk | nops |
      nop | vadd | vsub | vmul | vfma | vfms | vdiv | vsqrt | vmin | vmax | vcmpeq | vcmplt | vcmple | vabs | vneg | vsel |
      vclass | vaddF64 | vsubF64 | vmulF64 | vfmaF64 | vfmsF64 | vdivF64 | vsqrtF64 | vminF64 | vmaxF64 | vcmpeqF64 |
      vcmpltF64 | vcmpleF64 | vabsF64 | vnegF64 | vselF64 | vclassF64 | viadd | visub | vimul | vimad | vand | vor | vxor |
      vshl | vshr | vsar | vimin | vimax | vicmpeq | vicmplt | viadds | vperm | vmov | vbcst | vcvt | vtrans | vred | vldt |
      vstt | vldg | vstg | vqrd | vpop | vpush | vext | viota | vsplat | awld | astrm | aext | achk | aout | aclr | asnap |
      await | asetl | aseed | amode | agen | azone | cpy | cpyo | cpyt | gath | scat | bpf | qcvt | dqcvt | nmpk | nmup |
      publ | qbnd | twait | cfol | cabt | xpose | aadd | aand | aor | axor | amins | aminu | amaxs | amaxu | axchg | acas |
      afadd32 | afadd64 | barinit | barrive | barriveJoin | barwait | baraw | fence | ared | syncq | csrr | csrw | csrs |
      csrc | talloc | tfree | bankacq | bankrel | ringadv | ringcnt | stgw | stgr | valsetArr | valset | frd | fwr | fresume
      | fkill | farrive | fnext | fstep | curtdone | rbseed | repmark | l1flush | l1inv | tlbiAll | tlbiRange | capdrop =>
    simp only [encode, BitVec.toNat_cast, Nat.reduceLeDiff, toNat_append_div, Nat.reduceSub] at hclass
    exact absurd hclass (by decide)

/-! ### The attempt to issue a bundle -/

/-- The outcome is a value, neither a fault nor a refusal. -/
def Gives {α : Type} (o : Host.Outcome α Fault Refusal) : Prop := ∃ t, o = .next t

/-- The number is a unit's. -/
def HasUnit (s : State) (i : Uid) : Prop := ∃ u, s.unit? i = some u

theorem HasUnit.setUnit {s : State} {i : Uid} (h : HasUnit s i) (x : UnitSt) : HasUnit (s.setUnit i x) i := by
  obtain ⟨u, hu⟩ := h
  exact ⟨x, State.unit?_setUnit_self hu⟩

theorem HasUnit.keepRandom {s : State} {i : Uid} (h : HasUnit s i) (t : State) : HasUnit (keepRandom s t i) i := by
  unfold Machine.keepRandom
  split
  · split
    · exact h
    · exact h.setUnit _
  · exact h

/-- One slot runs where its unit is. -/
theorem runOp_runs {s : State} (h : HasUnit s s.issue.me) (o : SlotOp) : Runs (runOp s o) := by
  obtain ⟨u, hu⟩ := h
  unfold runOp
  split
  · exact exec_runs hu _
  · exact ⟨_, rfl⟩

theorem probe_gives (me : Uid) (h : Option Header) (ops : List SlotOp) :
    ∀ (s : State) (acc : List (SlotOp × Issue)), HasUnit s me → Gives (probe s me h ops acc) := by
  induction ops with
  | nil => exact fun s acc _ => ⟨acc, rfl⟩
  | cons o ops ih =>
    intro s acc hs
    obtain ⟨t, ht⟩ := runOp_runs (s := s.setIssue (o.issue me h)) hs o
    unfold probe
    rw [ht]
    refine ih _ _ ?_
    split
    · exact hs.keepRandom t
    · exact hs

theorem runOps_gives (me : Uid) (h : Option Header) (many : Bool) (n : Nat) (ops : List SlotOp) :
    ∀ (l : List PEntry) (s : State), Gives (runOps me h many n l ops s) := by
  induction ops with
  | nil => exact fun l s => ⟨_, rfl⟩
  | cons o ops ih =>
    intro l s
    unfold runOps
    split
    · exact ⟨_, rfl⟩
    · next u hu =>
      obtain ⟨t, ht⟩ := runOp_runs
        (s := s.setIssue { o.issue me h with ready := many, xfer := s.issue.xfer, nops := s.issue.nops }) ⟨u, hu⟩ o
      rw [ht]
      dsimp only
      split
      · split
        · exact ih _ _
        · exact ih _ _
      · exact ⟨_, rfl⟩

theorem commit_gives (pre s : State) (uid : Uid) (u : UnitSt) (h : Option Header) (ops : List SlotOp) :
    Gives (commit pre s uid u h ops) := by
  obtain ⟨f, hf⟩ := runOps_gives uid h (decide (1 < ops.length)) u.pend.length (ranked ops) [] (s.setIssue Issue.empty)
  unfold commit
  dsimp only
  rw [hf]
  cases f with
  | all t => exact ⟨_, rfl⟩
  | stopped t o r => cases r <;> exact ⟨_, rfl⟩

theorem tryIssue_gives {s : State} {uid : Uid} (hs : HasUnit s uid) (u : UnitSt) (bs : List Byte) :
    Gives (tryIssue s uid u bs) := by
  obtain ⟨l, hl⟩ := probe_gives uid (bundleHeader (slotsOfBytes bs)) (opsOf (slotsOfBytes bs)) (s.setUnit uid (enterBundle u)) []
    (hs.setUnit _)
  unfold tryIssue
  dsimp only
  rw [hl]
  dsimp only
  split
  · exact ⟨_, rfl⟩
  · split
    · exact ⟨_, rfl⟩
    · split
      · exact ⟨_, rfl⟩
      · exact ⟨_, rfl⟩
      · split
        · exact ⟨_, rfl⟩
        · split
          all_goals
            split
            · exact ⟨_, rfl⟩
            · split
              · exact ⟨_, rfl⟩
              · exact commit_gives ..

/-! ### The cycle of a core -/

theorem bundleCycle_gives {s : State} {uid : Uid} (hs : HasUnit s uid) (u : UnitSt) (bs : List Byte) :
    Gives (bundleCycle s uid u bs) := by
  obtain ⟨t, ht⟩ := tryIssue_gives hs u bs
  unfold bundleCycle
  rw [ht]
  split
  · exact ⟨_, rfl⟩
  · split <;> exact ⟨_, rfl⟩

/-- A fetch leaves the units as they were. -/
theorem fetchBundle_units (s : State) (u : UnitSt) : (fetchBundle s u).2.units = s.units := by
  unfold fetchBundle
  split
  · rfl
  · rfl
  · split
    · rfl
    · rfl
    · split
      · rfl
      · split <;> rfl

theorem fetchCycle_gives {s : State} {uid : Uid} (hs : HasUnit s uid) (u : UnitSt) : Gives (fetchCycle s uid u) := by
  have hunits := fetchBundle_units s u
  unfold fetchCycle
  revert hunits
  rcases fetchBundle s u with ⟨out, t⟩
  intro hunits
  cases out with
  | walk => exact ⟨_, rfl⟩
  | fault code a => exact ⟨_, rfl⟩
  | got bs =>
    refine bundleCycle_gives ?_ u bs
    obtain ⟨v, hv⟩ := hs
    exact ⟨v, by rw [State.unit?, show t.units = s.units from hunits]; exact hv⟩

theorem boundaryCycle_gives (s : State) (uid : Uid) (u : UnitSt) : Gives (boundaryCycle s uid u) := by
  unfold boundaryCycle
  split
  · exact ⟨_, rfl⟩
  · split
    · exact ⟨_, rfl⟩
    · next v hv =>
      split
      · exact ⟨_, rfl⟩
      · exact fetchCycle_gives ⟨v, hv⟩ v

theorem unitCycle_gives (s : State) (uid : Uid) : Gives (unitCycle s uid) := by
  unfold unitCycle
  split
  · exact ⟨_, rfl⟩
  · dsimp only
    split
    · exact ⟨_, rfl⟩
    · split
      · split <;> exact ⟨_, rfl⟩
      · split
        · exact ⟨_, rfl⟩
        · exact boundaryCycle_gives ..

theorem runCycle_runs (s : State) (c : ClusterNo) (uid : Uid) : Runs (runCycle s c uid) := by
  obtain ⟨⟨t, k⟩, ht⟩ := unitCycle_gives (arrayPre (takeCounts s c uid) c) uid
  obtain ⟨⟨t', k'⟩, ht'⟩ := unitCycle_gives (takeCounts s c uid) uid
  unfold runCycle
  rw [ht, ht']
  split
  · exact ⟨_, rfl⟩
  · split
    · exact ⟨_, rfl⟩
    · dsimp only
      split <;> exact ⟨_, rfl⟩

theorem coreCycle_runs (s : State) (c : ClusterNo) : Runs (coreCycle s c) := by
  unfold coreCycle
  dsimp only
  split
  · exact runCycle_runs ..
  · exact ⟨_, rfl⟩

theorem coreStep_runs (s : State) (c : ClusterNo) : Runs (coreStep s c) := by
  obtain ⟨t, ht⟩ := coreCycle_runs (dieCycle s c) c
  unfold coreStep
  rw [ht]
  split <;> exact ⟨_, rfl⟩

/-! ### The step -/

theorem busyCycle_runs {s : State} {o : Host.Outcome State Fault Refusal} (h : busyCycle s = some o) : Runs o := by
  obtain ⟨c, -, rfl⟩ := Option.map_eq_some_iff.1 h
  obtain ⟨t, ht⟩ := coreStep_runs s c
  rw [ht]
  exact ⟨_, rfl⟩

/-- Where neither an event nor a cycle is due, time runs on. -/
theorem nextDeadline_runs (s s' : State) :
    Runs (match nextDeadline s with | some (li, _) => execDeadlineStrike li s' | none => .next (restLinks s)) := by
  split <;> exact ⟨_, rfl⟩

theorem defaultStep_runs (s : State) : Runs (defaultStep s) := by
  unfold defaultStep
  dsimp only
  split
  · exact ⟨_, rfl⟩
  · split
    · split
      · next o ho => exact busyCycle_runs ho
      · split
        · exact ⟨_, rfl⟩
        · exact nextDeadline_runs ..
    · split
      · exact ⟨_, rfl⟩
      · split
        · next o ho => exact busyCycle_runs ho
        · exact nextDeadline_runs ..

theorem takeInput_runs (s : State) (i : Input) : Runs (takeInput i s) := by
  cases i with
  | event i =>
    show Runs (if isEvent i = true then exec i s else .next s)
    split
    · next hi => exact event_runs s i hi
    · exact ⟨_, rfl⟩
  | core c => exact coreStep_runs s c
  | hub n => exact ⟨_, rfl⟩

theorem settled_runs {o : Host.Outcome State Fault Refusal} (h : Runs o) : Runs (settled o) := by
  obtain ⟨t, rfl⟩ := h
  exact ⟨_, rfl⟩

/-- Settles O8: the input at hand, or what the default order chooses, runs. -/
theorem everyStepRuns : Obligations.EveryStepRuns := by
  unfold Obligations.EveryStepRuns Safe
  intro s
  unfold step scheduled
  split
  · exact settled_runs (takeInput_runs ..)
  · exact settled_runs (defaultStep_runs s)

end Sys2Proof.Totality
end

section
/-! PROOFS.
Tile SRAM as the vector unit reaches it (R157): the bytes of a vector and of a level, VLDT and VSTT. -/

-- One proof at a time: the check of the whole text has a limit on memory, which many threads would reach.
set_option Elab.async false

namespace Sys2Proof.TileAccess

open Sys2Proof.Machine Sys2Proof.Safety Sys2Proof.Sequencer Sys2Proof.Vector

/-! ### Bytes of numbers and vectors (R3) -/

/-- The bytes of a number, by place. -/
theorem getD_leBytes (v : Nat) {n i : Nat} (h : i < n) : (leBytes v n).getD i 0 = BitVec.ofNat 8 (v / 256 ^ i) := by
  induction n generalizing v i with
  | zero => omega
  | succ n ih =>
    cases i with
    | zero => simp [leBytes]
    | succ i =>
      rw [leBytes, List.getD_cons_succ, ih _ (by omega), Nat.div_div_eq_div_mul, Nat.pow_succ']

/-- A byte of the number that bytes make. -/
theorem ofNat_leNat_div (bs : List Byte) (i : Nat) : BitVec.ofNat 8 (leNat bs / 256 ^ i) = bs.getD i 0 := by
  induction bs generalizing i with
  | nil => simp [leNat]
  | cons b bs ih =>
    have hb : b.toNat < 256 := b.isLt
    cases i with
    | zero =>
      apply BitVec.eq_of_toNat_eq
      simp only [leNat, Nat.pow_zero, Nat.div_one, BitVec.toNat_ofNat, List.getD_cons_zero]
      omega
    | succ i =>
      rw [leNat, Nat.pow_succ', ← Nat.div_div_eq_div_mul, Nat.add_mul_div_left _ _ (by decide), Nat.div_eq_of_lt hb,
        Nat.zero_add, ih, List.getD_cons_succ]

theorem extractLsb'_byte_ofNat (n : Nat) {w i : Nat} (h : 8 * i + 8 ≤ w) :
    (BitVec.ofNat w n).extractLsb' (8 * i) 8 = BitVec.ofNat 8 (n / 256 ^ i) := by
  apply BitVec.eq_of_getLsbD_eq
  intro k hk
  rw [BitVec.getLsbD_extractLsb', BitVec.getLsbD_ofNat, BitVec.getLsbD_ofNat, show (256 : Nat) = 2 ^ 8 from rfl, ← Nat.pow_mul,
    Nat.testBit_div_two_pow, Nat.add_comm (8 * i) k]
  simp [hk, show k + 8 * i < w by omega]

theorem extractLsb'_byte (v : BitVec 512) (i : Nat) (h : i < 64) : v.extractLsb' (8 * i) 8 = BitVec.ofNat 8 (v.toNat / 256 ^ i) := by
  rw [← extractLsb'_byte_ofNat v.toNat (w := 512) (by omega), BitVec.ofNat_toNat, BitVec.setWidth_eq]

/-- Byte i of a vector made of bytes. -/
theorem extractLsb'_vecOfBytes (bs : List Byte) {i : Nat} (h : i < 64) : (vecOfBytes bs).extractLsb' (8 * i) 8 = bs.getD i 0 := by
  rw [vecOfBytes, extractLsb'_byte_ofNat _ (by omega), ofNat_leNat_div]

/-- The bytes of a vector, by place. -/
theorem getD_bytesOfVec (v : BitVec 512) {i : Nat} (h : i < 64) : (bytesOfVec v).getD i 0 = v.extractLsb' (8 * i) 8 := by
  rw [bytesOfVec, getD_leBytes _ h, extractLsb'_byte v i h]

@[simp] theorem length_bytesOfVec (v : BitVec 512) : (bytesOfVec v).length = 64 := length_leBytes _ _

/-! ### The levels of a cluster's storage (R195) -/

section
variable (s : State) (c : ClusterNo) (a : Nat) (bs : List Byte)

theorem levelMem_levelWrite_tile :
    levelMem ((levelWrite s c 0 a bs).cluster c) 0 = Memory.writeBytes (s.cluster c).tileSram a bs := by
  simp [levelWrite, levelMem]

/-- A write into tile SRAM reads back, and the level's other bytes read as before. -/
theorem levelByte_levelWrite_tile (h : Memory.wf (s.cluster c).tileSram = true) (x : Nat) :
    levelByte (levelWrite s c 0 a bs) c 0 x = if a ≤ x ∧ x < a + bs.length then bs.getD (x - a) 0 else levelByte s c 0 x := by
  rw [levelByte, levelMem_levelWrite_tile, Memory.read_writeBytes _ h]
  rfl

/-- A write into tile SRAM leaves the other levels, and every other cluster's. -/
theorem levelByte_levelWrite_tile_other {d : ClusterNo} {l : BitVec 2} (h : d ≠ c ∨ l ≠ 0) (x : Nat) :
    levelByte (levelWrite s c 0 a bs) d l x = levelByte s d l x := by
  unfold levelByte
  by_cases hd : c = d
  · subst hd
    have hl : l ≠ 0 := by simpa using h
    have hmem : ∀ k : Cluster, ∀ m, levelMem { k with tileSram := m } l = levelMem k l := fun k m => by
      unfold levelMem
      split
      · exact absurd rfl hl
      · rfl
      · rfl
    rw [levelWrite, State.cluster_modCluster_self]
    exact congrArg (Memory.read · x) (hmem _ _)
  · rw [levelWrite, State.cluster_modCluster_ne hd]

/-- The bytes of a level, as a vector. -/
theorem extractLsb'_levelRead (l : BitVec 2) {i : Nat} (h : i < 64) :
    (vecOfBytes (levelRead s c l a 64)).extractLsb' (8 * i) 8 = levelByte s c l (a + i) := by
  rw [extractLsb'_vecOfBytes _ h, levelRead, Memory.getD_readBytes _ _ _ _ h]
  rfl

end

/-! ### VLDT and VSTT -/

section
variable {s : State} {u : UnitSt}

/-- A slot with nothing in its lend byte but the destination's bit is no misuse of it. -/
theorem plainLend_ok (h : PlainLend s) {reads : List Dest} {writes : List (Dest × Nat)} (hn : NoHazard u reads writes) :
    vectorChecks s u (lendRm s.issue.lend != 0 || lendFmt s.issue.lend != 0 || lendTb s.issue.lend || lendTa s.issue.lend)
      reads writes = .done := by
  obtain ⟨hrm, hta, htb, hf⟩ := h
  exact vectorChecks_done (by rw [hrm]; decide) (by simp [hrm, hta, htb, hf]) hn

theorem tileCheck_done {x : Word} {k : BitVec 8} {h : Handle} (hh : u.handle? (x.extractLsb' 0 8) = some h) (hl : h.level = 0)
    (hs : 64 * blockOf x k + 64 ≤ h.size)
    (ho : ownsRange (s.cluster u.ident.cluster) s.issue.me 0 (h.base + 64 * blockOf x k) 64 = true)
    (hw : shadowWait s u.ident.cluster 0 (h.base + 64 * blockOf x k) 64 = .done) : tileCheck s u x k = .done := by
  unfold tileCheck
  rw [hh]
  dsimp only
  rw [if_pos (by rw [ho, hl, decide_eq_true hs]; rfl), hw]

theorem tileBlock_eq {x : Word} {k : BitVec 8} {h : Handle} (hh : u.handle? (x.extractLsb' 0 8) = some h) :
    tileBlock u x k = h.base + 64 * blockOf x k := by
  rw [tileBlock, hh]

/-- TILE_FAULT's address as a number. -/
theorem tileAddr_eq (h : BitVec 8) (b : Nat) : tileAddr h b = BitVec.ofNat 80 (b % 2 ^ 32 * 256 + h.toNat) := by
  have hh := h.isLt
  apply BitVec.eq_of_toNat_eq
  simp only [tileAddr, Control.toNat_append_eq_add, BitVec.toNat_ofNat]
  omega

theorem tileCheck_fault {x : Word} {k : BitVec 8} (h : u.handle? (x.extractLsb' 0 8) = none ∨ ∃ h,
      u.handle? (x.extractLsb' 0 8) = some h ∧ (h.level ≠ 0 ∨ h.size < 64 * blockOf x k + 64 ∨
        ownsRange (s.cluster u.ident.cluster) s.issue.me 0 (h.base + 64 * blockOf x k) 64 = false)) :
    tileCheck s u x k = .fault cTile (tileAddr (x.extractLsb' 0 8) (blockOf x k)) := by
  unfold tileCheck
  rcases h with hh | ⟨h, hh, hbad⟩
  · rw [hh]
  · rw [hh]
    refine if_neg ?_
    simp only [Bool.and_eq_true, decide_eq_true_eq]
    rintro ⟨⟨hl, hs⟩, ho⟩
    rcases hbad with hbad | hbad | hbad
    · exact hbad hl
    · omega
    · rw [hbad] at ho
      cases ho

theorem execVldt_done {v : BitVec 8} {r : BitVec 6} {k : BitVec 8} (hu : AtIssue s u) (hp : PlainLend s)
    (hn : NoHazard u [.scalar r] [((opD s.issue v).dest, 4)]) (hc : tileCheck s u (u.reg r) k = .done) :
    execVldt v r k s = .next (vectorDone s u [] (opD s.issue v).dest
      (vecOfBytes (levelRead s u.ident.cluster 0 (tileBlock u (u.reg r) k) 64)) 4 0 0) := by
  unfold execVldt
  exact runSlot_done hu (by rw [plainLend_ok hp hn, hc]; rfl)

theorem execVstt_done {v : BitVec 8} {r : BitVec 6} {k : BitVec 8} (hu : AtIssue s u) (hp : PlainLend s)
    (hn : NoHazard u [(opD s.issue v).dest, .scalar r] []) (hc : tileCheck s u (u.reg r) k = .done) :
    execVstt v r k s = .next (done (levelWrite (noteVector s [opD s.issue v] 0 0 0) u.ident.cluster 0
      (tileBlock u (u.reg r) k) (bytesOfVec (u.vec (opD s.issue v))))) := by
  unfold execVstt
  exact runSlot_done hu (by rw [plainLend_ok hp hn, hc]; rfl)

/-- Settles O37: the 64 bytes of the block, read or written, and TILE_FAULT where a condition of R157 fails. -/
theorem tileVectors : Obligations.TileVectors := by
  unfold Obligations.TileVectors
  intro s u v r k hu hp
  dsimp only
  refine ⟨fun h hh hl hs ho hw => ⟨fun hn => ?_, fun hn hwf => ?_⟩, fun hbad => ?_⟩
  · refine ⟨_, (exec_vldt s).trans (execVldt_done hu hp hn (tileCheck_done hh hl hs ho hw)), fun i hi => ?_⟩
    rw [extractLsb'_levelRead _ _ _ _ hi, tileBlock_eq hh]
    rfl
  · refine ⟨_, (exec_vstt s).trans (execVstt_done hu hp hn (tileCheck_done hh hl hs ho hw)), rfl, rfl, fun i hi => ?_,
      fun a ha => ?_, fun d l a hd => ?_⟩
    · refine (levelByte_levelWrite_tile _ _ _ _ hwf _).trans ?_
      rw [tileBlock_eq hh, length_bytesOfVec, if_pos (by unfold blockOf; omega)]
      refine Eq.trans ?_ (getD_bytesOfVec _ hi)
      congr 1
      exact Nat.add_sub_cancel_left _ _
    · refine (levelByte_levelWrite_tile _ _ _ _ hwf _).trans ?_
      rw [tileBlock_eq hh, length_bytesOfVec, if_neg (by unfold blockOf; omega)]
    · exact levelByte_levelWrite_tile_other _ _ _ _ hd a
  · have hf := tileCheck_fault hbad
    rw [tileAddr_eq] at hf
    refine ⟨fun hn => ?_, fun hn => ?_⟩
    · rw [exec_vldt, execVldt]
      exact runSlot_fault hu (by rw [plainLend_ok hp hn, hf]; rfl)
    · rw [exec_vstt, execVstt]
      exact runSlot_fault hu (by rw [plainLend_ok hp hn, hf]; rfl)

end

end Sys2Proof.TileAccess
end

section
/-! PROOFS.
Rings as the vector unit reaches them (R155, R201): the publication of claims, and VQRD, VPOP and VPUSH on a quiet ring. -/

-- One proof at a time: the check of the whole text has a limit on memory, which many threads would reach.
set_option Elab.async false

namespace Sys2Proof.Rings

open Sys2Proof.Machine Sys2Proof.Safety Sys2Proof.Sequencer Sys2Proof.Vector Sys2Proof.TileAccess

/-! ### The publication of claims -/

/-- Finished claims are published one behind the other. -/
theorem publishFront_done (p : BitVec 32) {l : List Claim} (h : ∀ x ∈ l, x.done = true) :
    publishFront p l = (p + BitVec.ofNat 32 (l.map fun x => x.n).sum, []) := by
  induction l generalizing p with
  | nil => simp [publishFront]
  | cons x l ih =>
    obtain ⟨hx, hl⟩ := List.forall_mem_cons.1 h
    rw [publishFront, if_pos hx, ih _ hl, List.map_cons, List.sum_cons, BitVec.ofNat_add, BitVec.add_assoc]

/-- Nothing is published before the first claim, while that is unfinished. -/
theorem publishFront_unfinished (p : BitVec 32) {x : Claim} (l : List Claim) (h : x.done = false) :
    publishFront p (x :: l) = (p, x :: l) := by
  rw [publishFront, if_neg (by simp [h])]

/-- The claims of a list with the one of a number finished. -/
def markDone (id : Nat) (l : List Claim) : List Claim := l.map fun x => if x.id == id then { x with done := true } else x

theorem markDone_of_ne {id : Nat} {l : List Claim} (h : ∀ x ∈ l, x.id ≠ id) : markDone id l = l := by
  refine (List.map_congr_left fun x hx => ?_).trans (List.map_id l)
  simp [h x hx]

theorem finishClaim_head (h : Handle) (id : Nat) : finishClaim h false id =
    { h with hp := (publishFront h.hp (markDone id h.heads)).1, heads := (publishFront h.hp (markDone id h.heads)).2 } := rfl

theorem finishClaim_tail (h : Handle) (id : Nat) : finishClaim h true id =
    { h with tp := (publishFront h.tp (markDone id h.tails)).1, tails := (publishFront h.tp (markDone id h.tails)).2 } := rfl

/-- The first claim finishes, with every claim behind it finished already: all are published. -/
theorem publishFront_markDone (p : BitVec 32) {id n : Nat} {rest : List Claim} (hne : ∀ x ∈ rest, x.id ≠ id)
    (hdone : ∀ x ∈ rest, x.done = true) : publishFront p (markDone id (⟨id, n, false⟩ :: rest)) =
      (p + BitVec.ofNat 32 (n + (rest.map fun x => x.n).sum), []) := by
  have hmark : markDone id (⟨id, n, false⟩ :: rest) = ⟨id, n, true⟩ :: rest := by
    rw [show markDone id (⟨id, n, false⟩ :: rest) = (if id == id then ⟨id, n, true⟩ else ⟨id, n, false⟩) :: markDone id rest from rfl,
      markDone_of_ne hne, if_pos (by simp)]
  rw [hmark, publishFront_done p (List.forall_mem_cons.2 ⟨rfl, hdone⟩)]
  rfl

/-- The first claim of a ring with no other is published as soon as it finishes. -/
theorem finishClaim_claimHead {x : Handle} (h : x.heads = []) (id : Nat) :
    finishClaim (x.claimHead id 1) false id = { x with hp := x.hp + 1, hc := x.hc + 1 } := by
  have hpub := publishFront_markDone x.hp (id := id) (n := 1) (rest := []) (by simp) (by simp)
  rw [finishClaim_head]
  simp only [Handle.claimHead, h, List.nil_append, hpub]
  rfl

theorem finishClaim_claimTail {x : Handle} (h : x.tails = []) (id : Nat) :
    finishClaim (x.claimTail id 1) true id = { x with tp := x.tp + 1, tc := x.tc + 1 } := by
  have hpub := publishFront_markDone x.tp (id := id) (n := 1) (rest := []) (by simp) (by simp)
  rw [finishClaim_tail]
  simp only [Handle.claimTail, h, List.nil_append, hpub]
  rfl

/-! ### A ring of the unit changed -/

section
variable {s : State} {u : UnitSt} {x : Handle} {h : BitVec 8}

/-- A handle is found under its own number. -/
theorem handle?_h (hx : u.handle? h = some x) : x.h = h := by
  have hp := List.find?_some hx
  simpa using hp

/-- A ring that no wings map is changed in its unit alone. -/
theorem putHandle_quiet {i : Uid} (hu : s.unit? i = some u) {y : Handle} (hx : (u.handle? y.h).isSome) (hp : y.peer = none) :
    putHandle s i y = s.setUnit i (u.setHandle y) := by
  obtain ⟨old, hold⟩ := Option.isSome_iff_exists.1 hx
  unfold putHandle
  rw [hu]
  dsimp only
  rw [hold]
  have hmsgs : circuitMsgs s i u old y = [] := by rw [circuitMsgs, hp]
  dsimp only
  rw [hmsgs]
  rfl

/-- The slab at the head leaves a quiet ring. -/
theorem popSlab_quiet (hu : AtIssue s u) (hx : u.handle? h = some x) (hq : QuietRing x) :
    popSlab s u x = (vecOfBytes (levelRead s u.ident.cluster x.level (x.slabAt x.hc) 64),
      ({ s with nextReq := s.nextReq + 1 } : State).setUnit s.issue.me
        (u.setHandle { x with hp := x.hp + 1, hc := x.hc + 1 })) := by
  obtain ⟨hheads, -, hpeer⟩ := hq
  have hown : (u.handle? x.h).isSome := by rw [handle?_h hx, hx]; rfl
  simp only [popSlab, State.newReq, finishClaim_claimHead hheads]
  exact congrArg (Prod.mk _) (putHandle_quiet (s := { s with nextReq := s.nextReq + 1 })
    (y := { x with hp := x.hp + 1, hc := x.hc + 1 }) hu hown hpeer)

end

/-- A claim is published with the finished ones behind it, and not before those ahead (R201). -/
theorem claims_published (h : Handle) (id n : Nat) (rest : List Claim) (hne : ∀ x ∈ rest, x.id ≠ id) :
    (∀ x y zs, h.heads = x :: y :: zs → x.done = false → x.id ≠ id → (finishClaim h false id).hp = h.hp) ∧
    (h.heads = ⟨id, n, false⟩ :: rest → (∀ x ∈ rest, x.done = true) →
      (finishClaim h false id).hp = h.hp + BitVec.ofNat 32 (n + (rest.map fun x => x.n).sum) ∧ (finishClaim h false id).heads = []) ∧
    (h.tails = ⟨id, n, false⟩ :: rest → (∀ x ∈ rest, x.done = true) →
      (finishClaim h true id).tp = h.tp + BitVec.ofNat 32 (n + (rest.map fun x => x.n).sum) ∧ (finishClaim h true id).tails = []) ∧
    (finishClaim h false id).tp = h.tp ∧ (finishClaim h true id).hp = h.hp := by
  refine ⟨fun x y zs hh hx hid => ?_, fun hh hdone => ?_, fun hh hdone => ?_, rfl, rfl⟩
  · have hmark : markDone id (x :: y :: zs) = x :: markDone id (y :: zs) := by simp [markDone, hid]
    rw [finishClaim_head]
    simp only [hh, hmark, publishFront_unfinished _ _ hx]
  · rw [finishClaim_head]
    simp only [hh, publishFront_markDone _ hne hdone, and_self]
  · rw [finishClaim_tail]
    simp only [hh, publishFront_markDone _ hne hdone, and_self]

/-! ### VQRD, VPOP and VPUSH -/

section
variable {s : State} {u : UnitSt} {x : Handle}

theorem vqrdCheck_eq {n : BitVec 3} {b : QBind} (hb : u.umem.q.get n.toFin = some b) (ho : b.out = false)
    (hx : u.handle? b.h = some x) (hown : ownsRange (s.cluster u.ident.cluster) s.issue.me x.level (x.slabAt x.hc) 64 = true)
    (hw : shadowWait s u.ident.cluster x.level (x.slabAt x.hc) 64 = .done) :
    vqrdCheck s u n = if x.canHead 1 then .done else .wait .ring := by
  unfold vqrdCheck
  rw [hb]
  dsimp only
  rw [hx]
  dsimp only
  rw [ho, hown, hw]
  cases x.canHead 1 <;> rfl

theorem slabCheck_eq {h : BitVec 8} {tail : Bool} (hx : u.handle? h = some x) (hr : x.ring = true) (hl : x.level = 0)
    (hs : x.slabSize = 64)
    (hown : ownsRange (s.cluster u.ident.cluster) s.issue.me 0 (x.slabAt (if tail then x.tc else x.hc)) 64 = true)
    (hw : shadowWait s u.ident.cluster 0 (x.slabAt (if tail then x.tc else x.hc)) 64 = .done) :
    slabCheck s u h tail = if (if tail then x.canTail 1 else x.canHead 1) then .done else .wait .ring := by
  unfold slabCheck
  rw [hx]
  dsimp only
  rw [hs, hown, hr, hl, hw]
  cases (if tail then x.canTail 1 else x.canHead 1) <;> rfl

/-- The unit whose ring has its head advanced, with the slab entered as a vector. -/
def poppedUnit (s : State) (u : UnitSt) (x : Handle) (o : Dest) : UnitSt :=
  (u.setHandle { x with hp := x.hp + 1, hc := x.hc + 1 }).push
    (mkEntry s u o (vecOfBytes (levelRead s u.ident.cluster x.level (x.slabAt x.hc) 64)) 2 0)

/-- The state that a pop leaves. -/
def popped (s : State) (u : UnitSt) (x : Handle) (o : Dest) : State :=
  (({ noteVector s [] 0 0 2 with nextReq := s.nextReq + 1 } : State).setUnit s.issue.me
    (u.setHandle { x with hp := x.hp + 1, hc := x.hc + 1 })).setUnit s.issue.me (poppedUnit s u x o)

theorem popped_unit (hu : AtIssue s u) (o : Dest) : (popped s u x o).unit? s.issue.me = some (poppedUnit s u x o) := by
  refine State.unit?_setUnit_self (u := u.setHandle { x with hp := x.hp + 1, hc := x.hc + 1 }) ?_
  exact State.unit?_setUnit_self (s := { noteVector s [] 0 0 2 with nextReq := s.nextReq + 1 }) hu

/-- The effect of a pop of a quiet ring. -/
theorem popSlab_popped {h : BitVec 8} (o : Dest) (hu : AtIssue s u) (hx : u.handle? h = some x) (hq : QuietRing x) :
    (popSlab (noteVector s [] 0 0 2) u x).2.unit? s.issue.me =
      some (u.setHandle { x with hp := x.hp + 1, hc := x.hc + 1 }) ∧
    schedule (popSlab (noteVector s [] 0 0 2) u x).2 s.issue.me (u.setHandle { x with hp := x.hp + 1, hc := x.hc + 1 }) o
      (popSlab (noteVector s [] 0 0 2) u x).1 2 = popped s u x o := by
  rw [popSlab_quiet (s := noteVector s [] 0 0 2) hu hx hq]
  exact ⟨State.unit?_setUnit_self (s := { noteVector s [] 0 0 2 with nextReq := s.nextReq + 1 }) hu, rfl⟩

theorem execVqrd_done {v : BitVec 8} {n : BitVec 3} {b : QBind} (hu : AtIssue s u) (hp : PlainLend s) (hq : QuietRing x)
    (hb : u.umem.q.get n.toFin = some b) (hx : u.handle? b.h = some x) (hc : vqrdCheck s u n = .done)
    (hn : NoHazard u [] [((opD s.issue v).dest, 2)]) :
    execVqrd v n s = .next (done (popped s u x (opD s.issue v).dest)) := by
  obtain ⟨hunit, hsched⟩ := popSlab_popped (opD s.issue v).dest hu hx hq
  unfold execVqrd
  refine (runSlot_done hu (by rw [plainLend_ok hp hn, hc]; rfl)).trans ?_
  simp only [hb, Option.bind_some, hx, hunit, hsched]

theorem execVpop_done {v : BitVec 8} {r : BitVec 6} (hu : AtIssue s u) (hp : PlainLend s) (hq : QuietRing x)
    (hx : u.handle? ((u.reg r).extractLsb' 0 8) = some x) (hc : slabCheck s u ((u.reg r).extractLsb' 0 8) false = .done)
    (hn : NoHazard u [.scalar r] [((opD s.issue v).dest, 2)]) :
    execVpop v r s = .next (done (popped s u x (opD s.issue v).dest)) := by
  obtain ⟨hunit, hsched⟩ := popSlab_popped (opD s.issue v).dest hu hx hq
  unfold execVpop
  refine (runSlot_done hu (by rw [plainLend_ok hp hn, hc]; rfl)).trans ?_
  simp only [hx, hunit, hsched]

/-- The state that a push leaves: the vector in the slab at the tail, the tail advanced. -/
def pushed (s : State) (u : UnitSt) (x : Handle) (o : VOperand) : State :=
  ({ levelWrite (noteVector s [o] 0 0 0) u.ident.cluster 0 (x.slabAt x.tc) (bytesOfVec (u.vec o)) with
      nextReq := s.nextReq + 1 } : State).setUnit s.issue.me (u.setHandle { x with tp := x.tp + 1, tc := x.tc + 1 })

theorem execVpush_done {v : BitVec 8} {r : BitVec 6} (hu : AtIssue s u) (hp : PlainLend s) (hq : QuietRing x)
    (hx : u.handle? ((u.reg r).extractLsb' 0 8) = some x) (hc : slabCheck s u ((u.reg r).extractLsb' 0 8) true = .done)
    (hn : NoHazard u [(opD s.issue v).dest, .scalar r] []) :
    execVpush v r s = .next (done (pushed s u x (opD s.issue v))) := by
  obtain ⟨-, htails, hpeer⟩ := hq
  have hown : (u.handle? x.h).isSome := by rw [handle?_h hx, hx]; rfl
  unfold execVpush
  refine (runSlot_done hu (by rw [plainLend_ok hp hn, hc]; rfl)).trans ?_
  simp only [hx, State.newReq, finishClaim_claimTail htails]
  exact congrArg (fun t => Host.Outcome.next (done t)) (putHandle_quiet (y := { x with tp := x.tp + 1, tc := x.tc + 1 })
    (s := { levelWrite (noteVector s [opD s.issue v] 0 0 0) u.ident.cluster 0 (x.slabAt x.tc)
              (bytesOfVec (u.vec (opD s.issue v))) with nextReq := s.nextReq + 1 }) hu hown hpeer)

/-- Settles O38: the checks of each form decide on the room in its ring; the slab is at the counter's place. -/
theorem vectorRings : Obligations.VectorRings := by
  unfold Obligations.VectorRings
  refine ⟨fun s u v x hu hp hq => ⟨fun n b hb ho hx hhp hown hn hw => ?_, fun r hx hr hl hs => ⟨fun hhp hown hn hw => ?_,
    fun htp hown hn hwf hw => ?_⟩⟩, fun h id n rest hne => claims_published h id n rest hne⟩
  · have hc := vqrdCheck_eq hb ho hx hown hw
    refine ⟨fun hroom => ?_, fun hroom => ?_⟩
    · rw [hroom, if_pos rfl] at hc
      exact ⟨_, _, (exec_vqrd s).trans (execVqrd_done hu hp hq hb hx hc hn), rfl, popped_unit hu _, rfl⟩
    · rw [hroom, if_neg Bool.false_ne_true] at hc
      rw [exec_vqrd, execVqrd]
      exact runSlot_wait hu (by rw [plainLend_ok hp hn, hc]; rfl)
  · have hc := slabCheck_eq (tail := false) hx hr hl hs hown hw
    rw [if_neg Bool.false_ne_true] at hc
    refine ⟨fun hroom => ?_, fun hroom => ?_⟩
    · rw [hroom, if_pos rfl] at hc
      exact ⟨_, _, (exec_vpop s).trans (execVpop_done hu hp hq hx hc hn), rfl, popped_unit hu _, rfl⟩
    · rw [hroom, if_neg Bool.false_ne_true] at hc
      rw [exec_vpop, execVpop]
      exact runSlot_wait hu (by rw [plainLend_ok hp hn, hc]; rfl)
  · have hc := slabCheck_eq (tail := true) hx hr hl hs hown hw
    rw [if_pos rfl] at hc
    refine ⟨fun hroom => ?_, fun hroom => ?_⟩
    · rw [hroom, if_pos rfl] at hc
      refine ⟨_, (exec_vpush s).trans (execVpush_done hu hp hq hx hc hn), ?_, rfl, fun i hi => ?_, fun a ha => ?_⟩
      · exact State.unit?_setUnit_self (u := u) hu
      · refine (levelByte_levelWrite_tile (noteVector s [opD s.issue v] 0 0 0) _ _ _ hwf _).trans ?_
        rw [length_bytesOfVec, if_pos (by omega), Nat.add_sub_cancel_left, getD_bytesOfVec _ hi]
      · refine (levelByte_levelWrite_tile (noteVector s [opD s.issue v] 0 0 0) _ _ _ hwf _).trans ?_
        rw [length_bytesOfVec, if_neg (by omega)]
        rfl
    · rw [hroom, if_neg Bool.false_ne_true] at hc
      rw [exec_vpush, execVpush]
      exact runSlot_wait hu (by rw [plainLend_ok hp hn, hc]; rfl)

end

end Sys2Proof.Rings
end

section
/-! PROOFS.
The tile table, bank ownership, ring counters and staging registers at issue (R196 to R203, R205). -/

-- One proof at a time: the check of the whole text has a limit on memory, which many threads would reach.
set_option Elab.async false

namespace Sys2Proof.TileTable

open Sys2Proof.Machine Sys2Proof.Safety Sys2Proof.Sequencer Sys2Proof.Rings Sys2Proof.Scalar

section
variable {s : State} {u : UnitSt}

/-! ### TALLOC and TFREE (R196, R197) -/

/-- What stands behind the lend and stall checks of a slot that pass decides. -/
theorem firstFail_checked {reads : List Dest} {writes : List (Dest × Nat)} (hl : Unlent s) (hn : NoHazard u reads writes)
    (l : List SlotResult) : firstFail (noLend s u :: stallCheck u reads writes :: l) = firstFail l :=
  (firstFail_noLend hl _).trans (firstFail_stallCheck hn l)

theorem execTalloc_cases {r : BitVec 6} {h : BitVec 8} (hu : AtIssue s u) (hl : Unlent s) (hn : NoHazard u [.scalar r] []) :
    ((u.handle? h).isNone → descOk (u.reg r) = true → execTalloc r h s = .next (done (s.setUnit s.issue.me
      (u.modMem fun m => { m with tbl := m.tbl ++ [Handle.fresh h (u.reg r)] })))) ∧
    ((u.handle? h).isSome ∨ descOk (u.reg r) = false → execTalloc r h s = .next (faulted s cTile (h.setWidth 80))) := by
  unfold execTalloc
  refine ⟨fun hnone hok => ?_, fun hbad => ?_⟩
  · have hsome : (u.handle? h).isSome = false := by simpa using hnone
    refine runSlot_done hu ((firstFail_checked hl hn _).trans ?_)
    rw [hsome, hok]
    rfl
  · have hcond : ((u.handle? h).isSome || !descOk (u.reg r)) = true := by simpa using hbad
    refine runSlot_fault hu ((firstFail_checked hl hn _).trans ?_)
    rw [hcond]
    rfl

/-- The table without a handle has every other. -/
theorem handle?_filter (u : UnitSt) (h k : BitVec 8) :
    (u.modMem fun m => { m with tbl := m.tbl.filter fun x => x.h != h }).handle? k = if k = h then none else u.handle? k := by
  simp only [UnitSt.handle?, UnitSt.modMem, List.find?_filter]
  split
  · next hk =>
    subst hk
    refine List.find?_eq_none.2 fun x _ => ?_
    simp
  · next hk =>
    refine congrArg (fun p => List.find? p u.umem.tbl) (funext fun x => ?_)
    by_cases hx : x.h = k
    · simp [hx, hk]
    · simp [hx]

theorem execTfree_cases {h : BitVec 8} (hu : AtIssue s u) (hl : Unlent s) :
    (u.handle? h = none → execTfree h s = .next (faulted s cTile (h.setWidth 80))) ∧
    ((u.handle? h).isSome → (∀ b ∈ u.umem.q.toList, ∀ x, b = some x → x.h ≠ h) →
      (handleNamed s s.issue.me u h = true → execTfree h s = .next (noteResult s (.wait .token))) ∧
      (handleNamed s s.issue.me u h = false → execTfree h s = .next (done (s.setUnit s.issue.me
        (u.modMem fun m => { m with tbl := m.tbl.filter fun x => x.h != h }))))) := by
  unfold execTfree
  refine ⟨fun hnone => ?_, fun hsome hq => ?_⟩
  · refine runSlot_fault hu ((firstFail_noLend hl _).trans ?_)
    rw [hnone]
    rfl
  · have hfree : (u.umem.q.toList.any fun b => match b with | some x => x.h == h | none => false) = false := by
      rw [List.any_eq_false]
      intro b hb
      cases b with
      | none => simp
      | some x => simpa using hq _ hb x rfl
    have hnone : (u.handle? h).isNone = false := by simpa [Option.isSome_iff_ne_none] using hsome
    have hchecks : ∀ l, firstFail (failIf (u.handle? h).isNone cTile (handleAddr h) ::
        failIf (!s.issue.ready && u.umem.q.toList.any fun b => match b with | some x => x.h == h | none => false) cRing
          (handleAddr h) :: l) = firstFail l := fun l => by
      rw [hnone, hfree, Bool.and_false]
      rfl
    refine ⟨fun hnamed => ?_, fun hnamed => ?_⟩
    · refine runSlot_wait hu ((firstFail_noLend hl _).trans ((hchecks _).trans ?_))
      rw [hnamed]
      rfl
    · refine runSlot_done hu ((firstFail_noLend hl _).trans ((hchecks _).trans ?_))
      rw [hnamed]
      rfl

/-! ### BANKACQ and BANKREL (R200) -/

theorem mem_bankList {x : Word} {i : Nat} : i ∈ bankList x ↔ i < 64 ∧ x.getLsbD i = true := by
  simp [bankList, maskBits]

/-- A mask of a space with 32 blocks names none above 31. -/
theorem bankMaskBad_false {x : Word} {p : BitVec 2} (h : p = 0 ∨ x.toNat < 2 ^ 32) : bankMaskBad x p = false := by
  rcases h with rfl | h
  · rfl
  · have hz : x.extractLsb' 32 32 = 0 := by
      apply BitVec.eq_of_toNat_eq
      simp only [BitVec.extractLsb'_toNat, Nat.shiftRight_eq_div_pow, Nat.div_eq_of_lt h]
      rfl
    simp [bankMaskBad, hz]

/-- The checks before the banks themselves pass. -/
theorem firstFail_bank {r : BitVec 6} {p : BitVec 2} (hl : Unlent s) (hn : NoHazard u [.scalar r] [])
    (hm : p = 0 ∨ (u.reg r).toNat < 2 ^ 32) (l : List SlotResult) :
    firstFail (illegalIf u (s.issue.lend != 0 || bankMaskBad (u.reg r) p) :: stallCheck u [.scalar r] [] :: l) = firstFail l := by
  have hlend : (s.issue.lend != 0) = false := bne_eq_false_iff_eq.2 hl
  rw [bankMaskBad_false hm, hlend, Bool.or_false, illegalIf_false, firstFail_done]
  exact firstFail_stallCheck hn l

theorem execBankacq_cases {r : BitVec 6} {p : BitVec 2} (hu : AtIssue s u) (hl : Unlent s) (hn : NoHazard u [.scalar r] [])
    (hm : p = 0 ∨ (u.reg r).toNat < 2 ^ 32) :
    (bankTaken (s.cluster u.ident.cluster) s.issue.me p (bankList (u.reg r)) = false → execBankacq r p s =
      .next (done (s.modCluster u.ident.cluster fun k => acquireBanks k s.issue.me p (bankList (u.reg r))))) ∧
    (bankTaken (s.cluster u.ident.cluster) s.issue.me p (bankList (u.reg r)) = true → ∃ t, execBankacq r p s = .next t ∧
      t.issue.result = .wait .bank) := by
  unfold execBankacq
  refine ⟨fun hfree => runSlotW_done hu ((firstFail_bank hl hn hm _).trans ?_), fun htaken =>
    ⟨_, runSlotW_wait (k := .bank) hu ((firstFail_bank hl hn hm _).trans ?_), rfl⟩⟩
  · rw [hfree]
    rfl
  · rw [htaken]
    rfl

/-- A unit that acquires banks has them, and no other unit loses one. -/
theorem mem_acquireBanks (k : Cluster) (i : Uid) (p : BitVec 2) (x : Word) :
    (∀ n < 64, x.getLsbD n = true → ⟨p, n, i, false⟩ ∈ (acquireBanks k i p (bankList x)).banks) ∧
    (∀ b ∈ k.banks, b.owner ≠ i → b ∈ (acquireBanks k i p (bankList x)).banks) := by
  refine ⟨fun n hn hb => ?_, fun b hb ho => ?_⟩
  · exact List.mem_append_right _ (List.mem_map.2 ⟨n, mem_bankList.2 ⟨hn, hb⟩, rfl⟩)
  · exact List.mem_append_left _ (List.mem_filter.2 ⟨hb, by simp [ho]⟩)

/-- Banks that nothing touches are freed; the others stay as they were. -/
theorem releaseBanks_spec (s : State) (c : ClusterNo) : (releaseBanks s c).units = s.units ∧ (releaseBanks s c).mem = s.mem ∧
    ∀ b ∈ ((releaseBanks s c).cluster c).banks, b ∈ (s.cluster c).banks := by
  unfold releaseBanks
  split
  · refine ⟨rfl, rfl, fun b hb => ?_⟩
    rw [State.cluster_modCluster_self] at hb
    exact (List.mem_filter.1 hb).1
  · exact ⟨rfl, rfl, fun b hb => hb⟩

/-- The unit's banks of a mask, their release pending. -/
def markReleased (i : Uid) (p : BitVec 2) (l : List Nat) (k : Cluster) : Cluster :=
  { k with banks := k.banks.map fun b => if b.space == p && l.contains b.bank && b.owner == i then { b with pending := true } else b }

theorem execBankrel_done {r : BitVec 6} {p : BitVec 2} (hu : AtIssue s u) (hl : Unlent s) (hn : NoHazard u [.scalar r] [])
    (hm : p = 0 ∨ (u.reg r).toNat < 2 ^ 32) : ∃ t, execBankrel r p s = .next (done t) ∧ t.units = s.units ∧ t.mem = s.mem ∧
      (∀ b ∈ (t.cluster u.ident.cluster).banks, b.space = p → b.owner = s.issue.me → (u.reg r).getLsbD b.bank = true →
        b.bank < 64 → b.pending = true) := by
  unfold execBankrel
  refine ⟨_, runSlot_done hu (firstFail_bank hl hn hm []), ?_⟩
  obtain ⟨hunits, hmem, hbanks⟩ := releaseBanks_spec
    (s.modCluster u.ident.cluster (markReleased s.issue.me p (bankList (u.reg r)))) u.ident.cluster
  refine ⟨hunits, hmem, fun b hb hp ho hbit hlt => ?_⟩
  have hmap := hbanks b hb
  rw [State.cluster_modCluster_self] at hmap
  obtain ⟨b0, -, rfl⟩ := List.mem_map.1 hmap
  split at hp <;> rename_i hmine
  · rw [if_pos hmine]
  · rw [if_neg hmine] at ho hbit hlt
    refine absurd ?_ hmine
    simp [hp, ho, mem_bankList, hlt, hbit]

/-! ### RINGADV and RINGCNT (R202, R203) -/

theorem ringOnly_done {h : BitVec 8} {x : Handle} (hx : u.handle? h = some x) (hr : x.ring = true) : ringOnly u h = .done := by
  rw [ringOnly, hx]
  dsimp only
  rw [hr]
  rfl

/-- The two counters of a ring as one word. -/
theorem counters_eq (x : Handle) : x.tp ++ x.hp = BitVec.ofNat 64 (x.tp.toNat * 2 ^ 32 + x.hp.toNat) := by
  rw [← Control.toNat_append_eq_add, BitVec.ofNat_toNat, BitVec.setWidth_eq]

theorem execRingcnt_ring {d r : BitVec 6} {x : Handle} (hu : AtIssue s u) (hl : Unlent s)
    (hn : NoHazard u [.scalar r] [(.scalar d, 1)]) (hx : u.handle? ((u.reg r).extractLsb' 0 8) = some x) (hr : x.ring = true) :
    execRingcnt d r s = .next (done (schedScalar s s.issue.me u d (ringCount s u.ident.cluster x) 1)) := by
  unfold execRingcnt
  refine (runSlot_done hu ((firstFail_checked hl hn _).trans ?_)).trans ?_
  · rw [ringOnly_done hx hr]
    rfl
  · simp only [hx]

theorem execRingcnt_fault {d r : BitVec 6} {x : Handle} (hu : AtIssue s u) (hl : Unlent s)
    (hn : NoHazard u [.scalar r] [(.scalar d, 1)]) (hx : u.handle? ((u.reg r).extractLsb' 0 8) = some x) (hr : x.ring = false) :
    execRingcnt d r s = .next (faulted s cRing (((u.reg r).extractLsb' 0 8).setWidth 80)) := by
  unfold execRingcnt
  refine runSlot_fault hu ((firstFail_checked hl hn _).trans ?_)
  rw [ringOnly, hx]
  dsimp only
  rw [hr]
  rfl

/-- A head or a tail of a quiet ring advances by the slabs that were claimed. -/
theorem finishClaim_quiet {x : Handle} (hq : QuietRing x) (id : Nat) (n : BitVec 9) :
    finishClaim (x.claimHead id n.toNat) false id = { x with hp := x.hp + n.setWidth 32, hc := x.hc + n.setWidth 32 } ∧
    finishClaim (x.claimTail id n.toNat) true id = { x with tp := x.tp + n.setWidth 32, tc := x.tc + n.setWidth 32 } := by
  obtain ⟨hheads, htails, -⟩ := hq
  have hpub : ∀ p, publishFront p (markDone id [⟨id, n.toNat, false⟩]) = (p + BitVec.ofNat 32 n.toNat, []) := fun p =>
    publishFront_markDone p (rest := []) (by simp) (by simp)
  have hw : BitVec.ofNat 32 n.toNat = n.setWidth 32 := BitVec.ofNat_toNat 32 n
  rw [finishClaim_head, finishClaim_tail]
  simp only [Handle.claimHead, Handle.claimTail, hheads, htails, List.nil_append, hpub, hw, and_self]

/-- RINGADV of a quiet ring with room: the counters of its end advance. -/
theorem execRingadv_done {r : BitVec 6} {e : BitVec 1} {n : BitVec 9} {x y : Handle} (hu : AtIssue s u) (hl : Unlent s)
    (hn : NoHazard u [.scalar r] []) (hx : u.handle? ((u.reg r).extractLsb' 0 8) = some x) (hr : x.ring = true)
    (hroom : (if e = 1 then x.canTail n.toNat else x.canHead n.toNat) = true) (hp : x.peer = none)
    (hy : finishClaim (if e = 1 then x.claimTail s.nextReq n.toNat else x.claimHead s.nextReq n.toNat) (e == 1) s.nextReq = y)
    (hyh : y.h = x.h) (hyp : y.peer = x.peer) :
    execRingadv r e n s =
      .next (done (({ s with nextReq := s.nextReq + 1 } : State).setUnit s.issue.me (u.setHandle y))) := by
  have hown : (u.handle? y.h).isSome := by rw [hyh, handle?_h hx, hx]; rfl
  unfold execRingadv
  refine (runSlot_done hu ((firstFail_checked hl hn _).trans ?_)).trans ?_
  · rw [ringOnly_done hx hr, firstFail_done, hx]
    dsimp only
    rw [hroom]
    rfl
  · simp only [hx, State.newReq, hy]
    rw [putHandle_quiet (s := { s with nextReq := s.nextReq + 1 }) hu hown (hyp.trans hp)]

/-- The counters that the core finds at the start of a cycle. -/
theorem takeCounts_cluster {i : Uid} {v : UnitSt} {c : ClusterNo} (hv : s.unit? i = some v) :
    (takeCounts s c i).cluster c = { s.cluster c with counts := (v.umem.tbl.filter fun y => y.ring).map fun y =>
      (y.h, BitVec.ofNat 64 (y.tp.toNat * 2 ^ 32 + y.hp.toNat)) } := by
  unfold takeCounts
  rw [hv]
  simp only [State.cluster_modCluster_self, counters_eq]

/-! ### STGW and STGR (R205) -/

/-- The staging register of an engine that a word enters. -/
theorem get_setStaging (cg : Vector (Vector Word 16) 2) (p : BitVec 2) (n : BitVec 4) (x : Word) (hp : p.toNat < 2)
    (e : Fin 2) (m : Fin 16) :
    ((cg.set (p.extractLsb' 0 1).toFin ((cg.get (p.extractLsb' 0 1).toFin).set n.toFin x)).get e).get m =
      if e.val = p.toNat ∧ m.val = n.toNat then x else (cg.get e).get m := by
  have hpe : (p.extractLsb' 0 1).toFin.val = p.toNat := by
    show (p.extractLsb' 0 1).toNat = _
    simp only [BitVec.extractLsb'_toNat, Nat.shiftRight_zero]
    omega
  rw [vector_get_set]
  by_cases he : e = (p.extractLsb' 0 1).toFin
  · rw [if_pos he, vector_get_set, he, hpe]
    simp [Fin.ext_iff]
  · have hne : e.val ≠ p.toNat := fun h => he (Fin.ext (h.trans hpe.symm))
    rw [if_neg he, if_neg (fun h => hne h.1)]

/-- The checks of STGW, behind the common ones. -/
theorem execStgw_engine {r : BitVec 6} {p : BitVec 2} {n : BitVec 4} (hu : AtIssue s u) (hl : Unlent s)
    (hn : NoHazard u [.scalar r] []) (hp : p ≠ 2) :
    (u.reg r &&& cgReserved n = 0 → execStgw r p n s = .next (done (s.setUnit s.issue.me (u.modEng fun g =>
      { g with cg := g.cg.set (p.extractLsb' 0 1).toFin ((g.cg.get (p.extractLsb' 0 1).toFin).set n.toFin (u.reg r)) })))) ∧
    (u.reg r &&& cgReserved n ≠ 0 → execStgw r p n s = .next (faulted s cCopy u.bundleVa)) := by
  unfold execStgw
  refine ⟨fun hz => ?_, fun hz => runSlot_fault hu ((firstFail_checked hl hn _).trans ?_)⟩
  · refine (runSlot_done hu ((firstFail_checked hl hn _).trans ?_)).trans ?_
    · rw [if_neg hp, hz]
      rfl
    · rw [if_neg hp]
  · rw [if_neg hp, bne_iff_ne.2 hz]
    rfl

theorem execStgw_array {r : BitVec 6} {n : BitVec 4} (hu : AtIssue s u) (hl : Unlent s) (hn : NoHazard u [.scalar r] []) :
    (launchOwnsArray s u = true → u.reg r &&& agReserved n = 0 → execStgw r 2 n s =
      .next (done (s.modArray u.ident.cluster fun x => { x with ag := x.ag.set n.toFin (u.reg r) }))) ∧
    (launchOwnsArray s u = false → execStgw r 2 n s = .next (faulted s cArray u.bundleVa)) := by
  unfold execStgw
  refine ⟨fun ho hz => runSlot_done hu ((firstFail_checked hl hn _).trans ?_),
    fun ho => runSlot_fault hu ((firstFail_checked hl hn _).trans ?_)⟩
  · rw [ho, hz]
    rfl
  · rw [ho]
    rfl

/-- STGR reads the register of an engine, or of the array. -/
theorem execStgr_done {d : BitVec 6} {p : BitVec 2} {n : BitVec 4} (hu : AtIssue s u) (hl : Unlent s)
    (hn : NoHazard u [] [(.scalar d, 1)]) (ho : p = 2 → launchOwnsArray s u = true) : execStgr d p n s =
      .next (done (schedScalar s s.issue.me u d (if p = 2 then (arrayOf s u.ident.cluster).ag.get n.toFin
        else (u.eng.cg.get (p.extractLsb' 0 1).toFin).get n.toFin) 1)) := by
  unfold execStgr
  refine runSlot_done hu ((firstFail_checked hl hn _).trans ?_)
  split
  · next hp =>
    rw [ho hp]
    rfl
  · rfl

end

/-! ### The statement -/

/-- Settles O39: each form by its checks and its effect. -/
theorem tileTableAndStaging : Obligations.TileTableAndStaging := by
  unfold Obligations.TileTableAndStaging
  intro s u hu hl
  dsimp only
  refine ⟨fun r h hn => ?_, fun h => ⟨fun hnone => ?_, fun hsome hq => ?_⟩, fun r p hn hm => ⟨fun hfree => ?_, fun htaken => ?_, ?_⟩,
    fun r e n x hn hx hr hq => ⟨fun he hp hroom => ?_, fun he hp hroom => ?_⟩,
    fun d r x hn hx => ⟨fun hr => ?_, fun i v hv _ _ => takeCounts_cluster hv, fun hr => ?_⟩,
    fun r p n hn => ⟨fun hp hz => ?_, fun hp ho hz => ?_, fun hp hz => ?_, fun hp ho => ?_⟩,
    fun d p n hn => ⟨fun e he => ?_, fun hp ho => ?_⟩⟩
  · rw [exec_talloc]
    exact execTalloc_cases hu hl hn
  · exact (exec_tfree s).trans ((execTfree_cases hu hl).1 hnone)
  · rw [exec_tfree]
    obtain ⟨hwait, hdone⟩ := (execTfree_cases hu hl).2 hsome hq
    refine ⟨hwait, fun hnamed => ⟨_, hdone hnamed, ?_, fun k hk => ?_, rfl, rfl, rfl⟩⟩
    · rw [handle?_filter, if_pos rfl]
    · rw [handle?_filter, if_neg hk]
  · obtain ⟨hmine, hothers⟩ := mem_acquireBanks (s.cluster u.ident.cluster) s.issue.me p (u.reg r)
    refine ⟨_, (exec_bankacq s).trans ((execBankacq_cases hu hl hn hm).1 hfree), ?_, ?_, rfl, rfl⟩
    · rw [State.cluster_modCluster_self]
      exact hmine
    · rw [State.cluster_modCluster_self]
      exact hothers
  · rw [exec_bankacq]
    exact (execBankacq_cases hu hl hn hm).2 htaken
  · rw [exec_bankrel]
    exact execBankrel_done hu hl hn hm
  · subst he
    refine ⟨_, (exec_ringadv s).trans (execRingadv_done hu hl hn hx hr hroom hq.2.2 (finishClaim_quiet hq s.nextReq n).1 rfl rfl),
      rfl, ?_⟩
    exact State.unit?_setUnit_self (s := { s with nextReq := s.nextReq + 1 }) hu
  · subst he
    refine ⟨_, (exec_ringadv s).trans (execRingadv_done hu hl hn hx hr hroom hq.2.2 (finishClaim_quiet hq s.nextReq n).2 rfl rfl),
      rfl, ?_⟩
    exact State.unit?_setUnit_self (s := { s with nextReq := s.nextReq + 1 }) hu
  · refine ⟨_, (exec_ringcnt s).trans (execRingcnt_ring hu hl hn hx hr), fun y hy => ?_, fun hy => ?_⟩
    · rw [ringCount, hy]
      rfl
    · rw [ringCount, hy, ← counters_eq]
      rfl
  · exact (exec_ringcnt s).trans (execRingcnt_fault hu hl hn hx hr)
  · have hp2 : p ≠ 2 := fun h => by subst h; exact absurd hp (by decide)
    exact ⟨_, (exec_stgw s).trans ((execStgw_engine hu hl hn hp2).1 hz),
      fun e m => get_setStaging u.eng.cg p n (u.reg r) hp e m, rfl, rfl, rfl, rfl⟩
  · subst hp
    refine ⟨_, (exec_stgw s).trans ((execStgw_array hu hl hn).1 ho hz), rfl, rfl, fun m => ?_⟩
    rw [arrayOf, State.modArray, State.cluster_modCluster_self]
    dsimp only
    rw [vector_get_set]
    simp only [Fin.ext_iff]
    rfl
  · have hp2 : p ≠ 2 := fun h => by subst h; exact absurd hp (by decide)
    exact (exec_stgw s).trans ((execStgw_engine hu hl hn hp2).2 hz)
  · subst hp
    exact (exec_stgw s).trans ((execStgw_array hu hl hn).2 ho)
  · have hp2 : p ≠ 2 := fun h => by
      subst h
      have := e.isLt
      rw [← he] at this
      exact absurd this (by decide)
    have hpe : (p.extractLsb' 0 1).toFin = e := by
      refine Fin.ext ?_
      show (p.extractLsb' 0 1).toNat = _
      have := e.isLt
      simp only [BitVec.extractLsb'_toNat, Nat.shiftRight_zero]
      omega
    refine (exec_stgr s).trans ((execStgr_done hu hl hn fun h => absurd h hp2).trans ?_)
    rw [if_neg hp2, hpe]
  · subst hp
    exact (exec_stgr s).trans (execStgr_done hu hl hn fun _ => ho)

end Sys2Proof.TileTable
end

section
/-! PROOFS.
Loads and stores of cacheable memory on a core whose slice lists one line twice (R289, R296): the room that a miss makes evicts the
copy in M by the number of its line, and so changes the state of the copy before it. -/

-- One proof at a time: the check of the whole text has a limit on memory, which many threads would reach.
set_option Elab.async false

namespace Sys2Proof.CrowdedSlice

open Sys2Proof.Machine Sys2Proof.Safety

/-! ### A state whose slice of die 0 lists line 2^21 sixteen times -/

/-- A unit of context 1 on core 0. -/
def loner : UnitSt :=
  (UnitSt.fresh { launch := none, index := 0, asid := 1, cluster := 0, prompt := none, restart := false, instances := 0,
                  serves := none } 0 0).modRun fun r => { r with status := .running, started := true }

/-- Virtual page 0, cacheable, in the frame at 0. -/
def plainPage : TlbEntry :=
  { asid := 1, vpn := 0, level := 0, frame0 := 0, frame1 := 0, buffer := none, rd := true, wr := true, ex := false,
    priv := false, sync := false, tvg := false, key := 0, rfloor := 0, rceil := 0, dirty := true, wframe := none }

/-- Line 2^21, of the bank and set of line 0, with a write under way and no dirty byte: it reads as the device does. -/
def askedLine : SliceLine :=
  { line := 2 ^ 21, st := .imW, data := 0xFF, base := 0, dirty := 0, key := 0, poison := false, helper := false }

/-- Another entry of the same line, in M. -/
def ownedTwin : SliceLine := { askedLine with st := .m }

/-- Line 2^21 in M in a slice of die 1, blank. -/
def ownedElsewhere : SliceLine := { askedLine with st := .m, data := 0 }

/-- The unit at issue, alone; in die 0 every way of the bank and set of line 0 is taken. -/
def crowded : State :=
  { State.reset with
    units := [loner]
    clusters := State.reset.clusters.set 0 { Cluster.reset with running := some 0, order := [0], tlb := [plainPage] }
    dies := (State.reset.dies.set 0 { Die.reset with lines := askedLine :: List.replicate 15 ownedTwin }).set 1
      { Die.reset with lines := [ownedElsewhere] }
    hub := { Hub.reset with contexts := [fetchContext] } }

theorem crowded_translate_read : translate crowded loner.accessor 0 .read = .ok 0 plainPage false := by rfl

theorem crowded_translate_write : translate crowded loner.accessor 0 .write = .ok 0 plainPage false := by rfl

theorem crowded_heldUnder : HeldUnder crowded 0 0 0 := by
  have hc : cacheLine? (crowded.cluster 0) 0 = none := by rfl
  have hd : dirEntry? crowded 0 = none := by rfl
  constructor
  · intro l h
    rw [hc] at h
    cases h
  · intro x h
    rw [hd] at h
    cases h

/-- Where the cluster cache has no line, the unit sees its slice's. -/
theorem byteSeen_of_slice {t : State} {line : Nat} {l : SliceLine} (hcache : cacheLine? (t.cluster 0) line = none)
    (hslice : sliceLine? (t.die 0) line = some l) (hkey : l.key = 0) :
    byteSeen t 0 0 (128 * line) = lineByte (readSlice t 0 l).1 0 := by
  have hdie : dieOf 0 = 0 := rfl
  have hline : 128 * line / 128 = line := by omega
  rw [byteSeen, hline, viewLine, hcache, belowLine, hdie, hslice]
  simp [rekey, hkey]

/-- Before the access the unit sees the owner's first byte of line 2^21. -/
theorem byteSeen_crowded : byteSeen crowded 0 0 (128 * 2 ^ 21) = 0 := by
  have hheld : heldLine crowded askedLine.line = some (0, false, 0) := by rfl
  rw [byteSeen_of_slice (l := askedLine) (by rfl) (by rfl) rfl]
  simp only [readSlice, deviceLine, hheld]
  simp [askedLine, SliceState.hits, SliceState.waits, rekey, mergeLine, spreadMask, lineByte]

/-- An entry of line 2^21 whose Put is on its way gives its own bytes. -/
theorem byteSeen_of_leaving {t : State} (hcache : cacheLine? (t.cluster 0) (2 ^ 21) = none)
    (hslice : sliceLine? (t.die 0) (2 ^ 21) = some { askedLine with st := .miA })
    (hput : putWaits t 0 askedLine.line = true) : byteSeen t 0 0 (128 * 2 ^ 21) = 0xFF := by
  rw [byteSeen_of_slice hcache hslice rfl]
  have hread : readSlice t 0 { askedLine with st := .miA } = (0xFF, false) :=
    if_pos (by rw [hput]; rfl)
  rw [hread]
  simp [lineByte]

/-- A load of line 0 evicts the second entry by its line's number, and so shows the bytes of the first. -/
theorem byteSeen_crowded_load :
    byteSeen (loadTo crowded loner 0 1 1 (.scalar 1) 6 (fun _ => 0) false none) 0 0 (128 * 2 ^ 21) = 0xFF :=
  byteSeen_of_leaving (by rfl) (by rfl) (by rfl)

theorem byteSeen_crowded_store : byteSeen (storeBytes crowded loner 0 [0] 1 none) 0 0 (128 * 2 ^ 21) = 0xFF :=
  byteSeen_of_leaving (by rfl) (by rfl) (by rfl)

/-- Refutes O25: in `crowded` a load of byte 0 misses, and the room made for its line changes what its unit sees of line 2^21. -/
theorem not_cachedLoadEffect : ¬ Obligations.CachedLoadEffect := by
  intro h
  obtain ⟨-, -, hkept⟩ := h crowded loner 0 1 (.scalar 1) 6 (fun _ => 0) false 0 plainPage false (by rfl) crowded_translate_read
    (by decide)
  obtain ⟨-, hseen⟩ := hkept (by decide) crowded_heldUnder
  have hbyte := (byteSeen_crowded_load.symm.trans (hseen (128 * 2 ^ 21))).trans byteSeen_crowded
  exact absurd hbyte (by decide)

/-- Refutes O28: in `crowded` a store of byte 0 misses, and the room made for its line changes what its core sees of line 2^21. -/
theorem not_cachedStoreFrame : ¬ Obligations.CachedStoreFrame := by
  intro h
  obtain ⟨-, hseen, -⟩ := h crowded loner 0 [0] 0 plainPage false crowded_translate_write (by decide) (by decide) (by decide)
    (by decide) crowded_heldUnder
  have hbyte := (byteSeen_crowded_store.symm.trans (hseen (128 * 2 ^ 21) (.inr (by decide)))).trans byteSeen_crowded
  exact absurd hbyte (by decide)

end Sys2Proof.CrowdedSlice
end

section
/-! PROOFS.
The device step (R301): what a collapse, a change of key slot and a write at device scope leave of a line, and of the rest of the
machine. -/

-- One proof at a time: the check of the whole text has a limit on memory, which many threads would reach.
set_option Elab.async false

namespace Sys2Proof.DeviceStep

open Sys2Proof.Machine Sys2Proof.Safety Sys2Proof.Prompter Sys2Proof.TileAccess

/-! ### What the functions of the memory system can change -/

/-- The states differ in the dies' slices, their links, redirects and counters, in the directory and in the contents of memory
alone. -/
structure DeviceOnly (s t : State) : Prop where
  eq : t = { s with dies := t.dies, hub := { s.hub with dir := t.hub.dir }, mem := t.mem, lineKeys := t.lineKeys, poison := t.poison }
  die : ∀ d, t.die d = { s.die d with lines := (t.die d).lines, link := (t.die d).link, redirects := (t.die d).redirects,
                                      counters := (t.die d).counters }

namespace DeviceOnly

variable {s t v : State}

theorem refl (s : State) : DeviceOnly s s := ⟨rfl, fun _ => rfl⟩

theorem trans (h₁ : DeviceOnly s t) (h₂ : DeviceOnly t v) : DeviceOnly s v := by
  refine ⟨?_, fun d => ?_⟩
  · rw [h₂.eq, h₁.eq]
  · rw [h₂.die, h₁.die]

theorem sync (h : DeviceOnly s t) (d : DieNo) : (t.die d).sync = (s.die d).sync := by rw [h.die]
theorem lost (h : DeviceOnly s t) (d : DieNo) : (t.die d).lost = (s.die d).lost := by rw [h.die]
theorem tlb (h : DeviceOnly s t) (d : DieNo) : (t.die d).tlb = (s.die d).tlb := by rw [h.die]
theorem units (h : DeviceOnly s t) : t.units = s.units := by rw [h.eq]
theorem issue (h : DeviceOnly s t) : t.issue = s.issue := by rw [h.eq]
theorem clusters (h : DeviceOnly s t) : t.clusters = s.clusters := by rw [h.eq]
theorem mod (h : DeviceOnly s t) : t.mod = s.mod := by rw [h.eq]
theorem nextReq (h : DeviceOnly s t) : t.nextReq = s.nextReq := by rw [h.eq]
theorem hub (h : DeviceOnly s t) : t.hub = { s.hub with dir := t.hub.dir } := by rw [h.eq]
theorem keys (h : DeviceOnly s t) : t.hub.keys = s.hub.keys := by rw [h.hub]

theorem foldl {α : Type} {f : State → α → State} (h : ∀ s x, DeviceOnly s (f s x)) (l : List α) (s : State) :
    DeviceOnly s (l.foldl f s) := by
  induction l generalizing s with
  | nil => exact refl s
  | cons x l ih => exact (h s x).trans (ih (f s x))

theorem canonical (h : DeviceOnly s t) (hs : Canonical s) (hm : Memory.wf t.mem = true) : Canonical t := by
  obtain ⟨-, hupdate, hsram⟩ := hs
  refine ⟨hm, ?_, ?_⟩
  · rw [h.mod]
    exact hupdate
  · simpa only [State.cluster, h.clusters] using hsram

end DeviceOnly

theorem modDie_deviceOnly (s : State) (d : DieNo) {f : Die → Die}
    (hf : ∀ x, f x = { x with lines := (f x).lines, link := (f x).link, redirects := (f x).redirects, counters := (f x).counters }) :
    DeviceOnly s (s.modDie d f) := by
  refine ⟨rfl, fun e => ?_⟩
  by_cases he : d = e
  · subst he
    rw [State.die_modDie_self]
    exact hf (s.die d)
  · rw [State.die_modDie_ne he]

theorem modDir_deviceOnly (s : State) (f : Directory → Directory) : DeviceOnly s (s.modDir f) := ⟨rfl, fun _ => rfl⟩

theorem sendMsg_deviceOnly (s : State) (m : Msg) : DeviceOnly s (sendMsg s m) := modDir_deviceOnly s _

theorem setSliceLine_deviceOnly (s : State) (d : DieNo) (l : SliceLine) : DeviceOnly s (setSliceLine s d l) :=
  modDie_deviceOnly s d fun _ => rfl

theorem dropSliceLine_deviceOnly (s : State) (d : DieNo) (line : Nat) : DeviceOnly s (dropSliceLine s d line) :=
  modDie_deviceOnly s d fun _ => rfl

theorem modRegion_deviceOnly (s : State) (line : Nat) (f : Region → Region) : DeviceOnly s (modRegion s line f) :=
  modDir_deviceOnly s _

theorem poison_deviceOnly (s : State) (p : List Nat) : DeviceOnly s { s with poison := p } := ⟨rfl, fun _ => rfl⟩

theorem writeMemLine_deviceOnly (s : State) (line : Nat) (data : BitVec 1024) (key : BitVec 8) :
    DeviceOnly s (writeMemLine s line data key) :=
  ⟨by simp only [writeMemLine], fun d => by simp only [writeMemLine, State.die]⟩

theorem countEvent_deviceOnly (s : State) (line : Nat) (dies : List DieNo) (k : CounterKind) :
    DeviceOnly s (countEvent s line dies k) := by
  unfold countEvent countRegion
  exact (modRegion_deviceOnly s line _).trans (.foldl (f := fun s d => countDie s d k) (fun s d => modDie_deviceOnly s d fun _ => rfl) dies _)

theorem takeCopy_deviceOnly (s : State) (line : Nat) (asker : Option DieNo) (n : CopyNote) :
    DeviceOnly s (takeCopy s line asker n) := by
  cases hl : sliceLine? (s.die n.die) line with
  | none => simp only [takeCopy, hl, DeviceOnly.refl]
  | some l =>
    simp only [takeCopy, hl]
    have hlink := modDie_deviceOnly s n.die
      (f := fun x => { x with link := if x.link == .doze || x.link == .sleep then .training else x.link }) fun _ => rfl
    split
    · split
      · exact hlink.trans (setSliceLine_deviceOnly ..)
      · exact (hlink.trans (setSliceLine_deviceOnly ..)).trans (sendMsg_deviceOnly ..)
    · split
      · exact hlink
      · exact hlink.trans (dropSliceLine_deviceOnly ..)

theorem evict_deviceOnly (d : DieNo) (s : State) (l : SliceLine) : DeviceOnly s (evict d s l) := by
  unfold evict
  exact (modDie_deviceOnly s d fun _ => rfl).trans (sendMsg_deviceOnly ..)

theorem makeRoom_deviceOnly (s : State) (d : DieNo) (line : Nat) : DeviceOnly s (makeRoom s d line) :=
  .foldl (evict_deviceOnly d) _ s

theorem keepLine_deviceOnly {s t : State} {d : DieNo} {l l' : SliceLine} (h : keepLine s d l = some (t, l')) :
    DeviceOnly s t := by
  unfold keepLine at h
  dsimp only at h
  split at h
  · split at h
    · cases h
      exact modDir_deviceOnly ..
    · cases h
  · cases h

/-! ### A line of which every copy is taken away -/

/-- The events that a collapse counts: the replicas it takes away. -/
def countReplicas (s : State) (line : Nat) : State :=
  let replicas := (List.finRange 8).filter fun d => d != homeOf line &&
    match sliceLine? (s.die d) line with | some l => l.st == .s | none => false
  if replicas.isEmpty then s else countEvent s line replicas .collapses

/-- What is under way for a line, and the redirects to its replicas, forgotten. -/
def forgetLine (s : State) (line : Nat) : State :=
  let s := s.modDir fun dd =>
    { dd with entries := dd.entries.filter fun e => e.line != line, hot := dd.hot.filter fun h => h.line != line,
              net := dd.net.filter fun m => m.line != line, mem := dd.mem.filter fun m => m.1 != line }
  (List.finRange 8).foldl (fun s d => s.modDie d fun x => { x with redirects := x.redirects.filter fun r => r.line != line }) s

/-- Every copy of a line taken away: a collapse before the data that memory does not have goes to it. -/
def uncached (s : State) (line : Nat) (asker : Option DieNo) : State :=
  modRegion (((List.finRange 8).map (noteCopy s line)).foldl (fun s n => takeCopy s line asker n)
    (forgetLine (countReplicas s line) line)) line fun r => { r with quiet := 0, mask := 0 }

theorem collapseFor_eq (s : State) (line : Nat) (asker : Option DieNo) :
    collapseFor s line asker =
      match heldLine s line with
      | some (data, p, k) =>
        writeMemLine { uncached s line asker with
          poison := if p then ((uncached s line asker).poison.filter fun l => l != line) ++ [line]
            else (uncached s line asker).poison.filter fun l => l != line } line data k
      | none => uncached s line asker := by
  unfold collapseFor uncached forgetLine countReplicas
  cases heldLine s line <;> rfl

theorem collapseFor_of_held {s : State} {line : Nat} {v : BitVec 1024} {p : Bool} {k : BitVec 8} (h : heldLine s line = some (v, p, k))
    (asker : Option DieNo) : ∃ q, collapseFor s line asker = writeMemLine { uncached s line asker with poison := q } line v k := by
  rw [collapseFor_eq, h]
  exact ⟨_, rfl⟩

theorem collapseFor_of_none {s : State} {line : Nat} (h : heldLine s line = none) (asker : Option DieNo) :
    collapseFor s line asker = uncached s line asker := by
  rw [collapseFor_eq, h]

theorem countReplicas_deviceOnly (s : State) (line : Nat) : DeviceOnly s (countReplicas s line) := by
  unfold countReplicas
  dsimp only
  split
  · exact .refl s
  · exact countEvent_deviceOnly ..

theorem forgetLine_deviceOnly (s : State) (line : Nat) : DeviceOnly s (forgetLine s line) := by
  unfold forgetLine
  exact (modDir_deviceOnly s _).trans (.foldl (fun s d => modDie_deviceOnly s d fun _ => rfl) _ _)

theorem uncached_deviceOnly (s : State) (line : Nat) (asker : Option DieNo) : DeviceOnly s (uncached s line asker) := by
  unfold uncached
  exact (((countReplicas_deviceOnly s line).trans (forgetLine_deviceOnly _ line)).trans
    (.foldl (fun s n => takeCopy_deviceOnly s line asker n) _ _)).trans (modRegion_deviceOnly _ _ _)

theorem collapseFor_deviceOnly (s : State) (line : Nat) (asker : Option DieNo) : DeviceOnly s (collapseFor s line asker) := by
  rw [collapseFor_eq]
  split
  · exact ((uncached_deviceOnly s line asker).trans (poison_deviceOnly _ _)).trans (writeMemLine_deviceOnly ..)
  · exact uncached_deviceOnly s line asker

theorem countReplicas_mem (s : State) (line : Nat) : (countReplicas s line).mem = s.mem := by
  unfold countReplicas
  dsimp only
  split
  · rfl
  · exact countEvent_mem ..

theorem forgetLine_mem (s : State) (line : Nat) : (forgetLine s line).mem = s.mem := by
  unfold forgetLine
  exact foldl_mem (fun _ _ => State.modDie_mem ..) _ _

theorem uncached_mem (s : State) (line : Nat) (asker : Option DieNo) : (uncached s line asker).mem = s.mem := by
  rw [uncached, modRegion_mem, foldl_mem fun s n => takeCopy_mem s line asker n, forgetLine_mem, countReplicas_mem]

/-! ### States that agree about a line -/

/-- The states agree about the messages, the directory's entry and the slices' copies of a line. -/
structure SameLine (s t : State) (line : Nat) : Prop where
  net : (t.hub.dir.net.filter fun m => m.line == line) = s.hub.dir.net.filter fun m => m.line == line
  entry : dirEntry? t line = dirEntry? s line
  slice : ∀ d, sliceLine? (t.die d) line = sliceLine? (s.die d) line

namespace SameLine

variable {s t v : State} {line : Nat}

theorem refl (s : State) (line : Nat) : SameLine s s line := ⟨rfl, rfl, fun _ => rfl⟩

theorem trans (h₁ : SameLine s t line) (h₂ : SameLine t v line) : SameLine s v line :=
  ⟨h₂.net.trans h₁.net, h₂.entry.trans h₁.entry, fun d => (h₂.slice d).trans (h₁.slice d)⟩

theorem foldl {α : Type} {f : State → α → State} (h : ∀ s x, SameLine s (f s x) line) (l : List α) (s : State) :
    SameLine s (l.foldl f s) line := by
  induction l generalizing s with
  | nil => exact refl s line
  | cons x l ih => exact (h s x).trans (ih (f s x))

/-- The directory and the slices are all that it looks at. -/
theorem of_eq (hdir : t.hub.dir = s.hub.dir) (hdies : t.dies = s.dies) : SameLine s t line := by
  constructor
  · rw [hdir]
  · simp only [dirEntry?, hdir]
  · intro d
    simp only [State.die, hdies]

theorem any_net (h : SameLine s t line) (q : Msg → Bool) :
    (t.hub.dir.net.any fun m => m.line == line && q m) = s.hub.dir.net.any fun m => m.line == line && q m := by
  rw [← List.any_filter, h.net, List.any_filter]

theorem find?_net (h : SameLine s t line) (q : Msg → Bool) :
    (t.hub.dir.net.find? fun m => m.line == line && q m) = s.hub.dir.net.find? fun m => m.line == line && q m := by
  simpa only [List.find?_filter, Bool.decide_and, Bool.decide_eq_true] using congrArg (List.find? q) h.net

theorem putWaits (h : SameLine s t line) (d : DieNo) : putWaits t d line = putWaits s d line := by
  have hq := h.any_net fun m => !m.toDie && m.die == d && isPut m
  simpa only [Machine.putWaits, Bool.and_left_comm, Bool.and_assoc, Bool.and_comm] using hq

theorem granting (h : SameLine s t line) (d : DieNo) : granting t d line = granting s d line := by
  simp only [Machine.granting, h.entry]

theorem writeAsked (h : SameLine s t line) (d : DieNo) : writeAsked t d line = writeAsked s d line := by
  have hq := h.any_net fun m => !m.toDie && m.die == d && isWrite m.kind
  have hnet : ∀ x : State, (x.hub.dir.net.any fun m => !m.toDie && m.die == d && m.line == line && isWrite m.kind) =
      x.hub.dir.net.any fun m => m.line == line && (!m.toDie && m.die == d && isWrite m.kind) := by
    intro x
    congr 1
    funext m
    cases m.line == line <;> simp
  simp only [Machine.writeAsked, h.granting, h.entry, hnet, hq]

theorem bytesWait {l : SliceLine} (h : SameLine s t l.line) (d : DieNo) : bytesWait t d l = bytesWait s d l := by
  simp only [Machine.bytesWait, h.writeAsked, h.granting]

theorem ownerCopy (h : SameLine s t line) (d : DieNo) : ownerCopy t d line = ownerCopy s d line := by
  unfold Machine.ownerCopy
  rw [h.slice]
  cases hl : sliceLine? (s.die d) line with
  | none => rfl
  | some l =>
    have hline : l.line = line := by simpa using List.find?_some hl
    have hwait : Machine.bytesWait t d l = Machine.bytesWait s d l := bytesWait (hline ▸ h) d
    have howner : dirOwner t line = dirOwner s line := by rw [dirOwner, h.entry, dirOwner]
    simp only [deviceCopy, hwait, h.putWaits, howner]

theorem dataOnWay {m : Msg} (h : SameLine s t m.line) : dataOnWay t m = dataOnWay s m := by
  simp only [Machine.dataOnWay, h.slice, h.writeAsked]

theorem heldLine (h : SameLine s t line) : heldLine t line = heldLine s line := by
  have hfind := h.find?_net fun m => m.toDie && (m.kind == .fwdData && !m.shared || m.kind == .dataM)
  simp only [← Bool.and_assoc] at hfind
  unfold Machine.heldLine
  rw [hfind]
  cases hm : s.hub.dir.net.find? fun m => m.line == line && m.toDie && (m.kind == .fwdData && !m.shared || m.kind == .dataM) with
  | none => simp only [h.ownerCopy]
  | some m =>
    have hline : m.line = line := by
      have hp := List.find?_some hm
      simp only [Bool.and_eq_true, beq_iff_eq] at hp
      exact hp.1.1
    exact congrArg some (dataOnWay (hline ▸ h))

end SameLine

/-! ### Entries of a list that a change of others leaves -/

theorem find?_filter_of_imp {α : Type} {p q : α → Bool} (h : ∀ x, p x = true → q x = true) (l : List α) :
    (l.filter q).find? p = l.find? p := by
  rw [List.find?_filter]
  congr 1
  funext x
  cases hp : p x with
  | false => simp
  | true => simp [h x hp]

theorem filter_filter_of_imp {α : Type} {p q : α → Bool} (h : ∀ x, p x = true → q x = true) (l : List α) :
    (l.filter q).filter p = l.filter p := by
  rw [List.filter_filter]
  congr 1
  funext x
  cases hp : p x with
  | false => simp
  | true => simp [h x hp]

theorem find?_upsert_other {α : Type} {p q : α → Bool} {x : α} (h : ∀ y, q y = true → p y = false) (hx : p x = false)
    (l : List α) : (upsert q x l).find? p = l.find? p := by
  induction l with
  | nil => simp [upsert, hx]
  | cons y l ih =>
    cases hq : q y with
    | true => simp [upsert, hq, hx, h y hq]
    | false => simp [upsert, hq, List.find?_cons, ih]

theorem find?_upsert_self {α : Type} {p : α → Bool} {x : α} (hx : p x = true) (l : List α) :
    (upsert p x l).find? p = some x := by
  induction l with
  | nil => simp [upsert, hx]
  | cons y l ih =>
    cases hq : p y with
    | true => simp [upsert, hq, hx]
    | false => simp [upsert, hq, ih]

/-! ### The slices' copies -/

/-- A change of a die that keeps its copies of a line. -/
theorem modDie_sameLine {s : State} {d : DieNo} {f : Die → Die} {line : Nat}
    (h : sliceLine? (f (s.die d)) line = sliceLine? (s.die d) line) : SameLine s (s.modDie d f) line := by
  refine ⟨by simp, by simp [dirEntry?], fun e => ?_⟩
  by_cases he : d = e
  · rw [← he, State.die_modDie_self, h]
  · rw [State.die_modDie_ne he]

theorem setSliceLine_sameLine (s : State) (d : DieNo) {l : SliceLine} {line : Nat} (h : l.line ≠ line) :
    SameLine s (setSliceLine s d l) line := by
  have hl : (l.line == line) = false := beq_eq_false_iff_ne.mpr h
  refine modDie_sameLine (find?_upsert_other (p := fun y : SliceLine => y.line == line) (fun y hy => ?_) hl _)
  rw [eq_of_beq hy, hl]

theorem dropSliceLine_sameLine (s : State) (d : DieNo) {gone line : Nat} (h : gone ≠ line) :
    SameLine s (dropSliceLine s d gone) line := by
  refine modDie_sameLine (find?_filter_of_imp (fun y hy => ?_) _)
  rw [eq_of_beq hy]
  exact bne_iff_ne.mpr h.symm

theorem sendMsg_sameLine (s : State) {m : Msg} {line : Nat} (h : m.line ≠ line) : SameLine s (sendMsg s m) line := by
  refine ⟨?_, rfl, fun _ => rfl⟩
  rw [sendMsg, State.modDir_hub, List.filter_append]
  simp [h]

theorem takeCopy_sameLine (s : State) {gone line : Nat} (asker : Option DieNo) (n : CopyNote) (h : gone ≠ line) :
    SameLine s (takeCopy s gone asker n) line := by
  cases hl : sliceLine? (s.die n.die) gone with
  | none =>
    simp only [takeCopy, hl]
    exact .refl s line
  | some l =>
    have hline : l.line = gone := by simpa using List.find?_some hl
    have hlink := modDie_sameLine (s := s) (d := n.die) (line := line)
      (f := fun x => { x with link := if x.link == .doze || x.link == .sleep then .training else x.link }) rfl
    simp only [takeCopy, hl]
    split
    · have hset := hlink.trans (setSliceLine_sameLine _ n.die (l := { l with st := .imW }) (hline ▸ h))
      split
      · exact hset
      · exact hset.trans (sendMsg_sameLine _ h)
    · split
      · exact hlink
      · exact hlink.trans (dropSliceLine_sameLine _ n.die h)

theorem modRegion_sameLine (s : State) (changed line : Nat) (f : Region → Region) : SameLine s (modRegion s changed f) line :=
  ⟨rfl, rfl, fun _ => rfl⟩

theorem countEvent_sameLine (s : State) (counted line : Nat) (dies : List DieNo) (k : CounterKind) :
    SameLine s (countEvent s counted dies k) line := by
  unfold countEvent countRegion
  exact (modRegion_sameLine s counted line _).trans (.foldl (f := fun s d => countDie s d k) (fun s d => modDie_sameLine rfl) dies _)

theorem countReplicas_sameLine (s : State) (gone line : Nat) : SameLine s (countReplicas s gone) line := by
  unfold countReplicas
  dsimp only
  split
  · exact .refl s line
  · exact countEvent_sameLine ..

theorem forgetLine_sameLine (s : State) {gone line : Nat} (h : gone ≠ line) : SameLine s (forgetLine s gone) line := by
  unfold forgetLine
  refine .trans ?_ (.foldl (fun s d => modDie_sameLine rfl) _ _)
  refine ⟨filter_filter_of_imp (fun m hm => ?_) _, find?_filter_of_imp (fun e he => ?_) _, fun _ => rfl⟩
  · rw [eq_of_beq hm]
    exact bne_iff_ne.mpr h.symm
  · rw [eq_of_beq he]
    exact bne_iff_ne.mpr h.symm

theorem uncached_sameLine (s : State) {gone line : Nat} (asker : Option DieNo) (h : gone ≠ line) :
    SameLine s (uncached s gone asker) line := by
  unfold uncached
  exact (((countReplicas_sameLine s gone line).trans (forgetLine_sameLine _ h)).trans
    (.foldl (fun s n => takeCopy_sameLine s asker n h) _ _)).trans (modRegion_sameLine ..)

theorem writeMemLine_sameLine (s : State) (written line : Nat) (data : BitVec 1024) (key : BitVec 8) :
    SameLine s (writeMemLine s written data key) line :=
  .of_eq (by simp only [writeMemLine]) (by simp only [writeMemLine])

theorem poison_sameLine (s : State) (p : List Nat) (line : Nat) : SameLine s { s with poison := p } line := .of_eq rfl rfl

theorem collapseFor_sameLine (s : State) {gone line : Nat} (asker : Option DieNo) (h : gone ≠ line) :
    SameLine s (collapseFor s gone asker) line := by
  rw [collapseFor_eq]
  split
  · exact ((uncached_sameLine s asker h).trans (poison_sameLine ..)).trans (writeMemLine_sameLine ..)
  · exact uncached_sameLine s asker h

/-! ### What a collapse leaves of its line -/

/-- A fold that leaves, for each element of its list, what one step leaves for it. -/
theorem foldl_establishes {α : Type} {f : State → α → State} {P : α → State → Prop} {I : State → Prop}
    (hI : ∀ s x, I s → I (f s x)) (own : ∀ s x, I s → P x (f s x)) (keep : ∀ s x y, I s → P y s → P y (f s x)) {l : List α} {s : State}
    (hs : I s) {x : α} (hx : x ∈ l) : P x (l.foldl f s) := by
  have hkeep : ∀ (l : List α) (s : State), I s → P x s → P x (l.foldl f s) := by
    intro l
    induction l with
    | nil => exact fun s _ h => h
    | cons y l ih => exact fun s hs h => ih _ (hI s y hs) (keep s y x hs h)
  induction l generalizing s with
  | nil => cases hx
  | cons y l ih =>
    rcases List.mem_cons.mp hx with rfl | hx
    · exact hkeep l _ (hI s x hs) (own s x hs)
    · exact ih (hI s y hs) hx

/-- No message about a line goes to a die. -/
def NoDelivery (line : Nat) (s : State) : Prop := ∀ m ∈ s.hub.dir.net, m.line = line → m.toDie = false

/-- A die has the line, if at all, with a write of it asked for. -/
def OnlyAsked (line : Nat) (d : DieNo) (s : State) : Prop := ∀ l, sliceLine? (s.die d) line = some l → l.st = .imW

theorem forgetLine_net (s : State) (line : Nat) : (forgetLine s line).hub.dir.net = s.hub.dir.net.filter fun m => m.line != line := by
  have hdies : ∀ (l : List DieNo) (t : State), (l.foldl (fun s d => s.modDie d fun x =>
      { x with redirects := x.redirects.filter fun r => r.line != line }) t).hub = t.hub := by
    intro l
    induction l with
    | nil => exact fun _ => rfl
    | cons d l ih => exact fun t => ih _
  unfold forgetLine
  rw [hdies]
  rfl

theorem sliceLine?_dropSliceLine (s : State) (d : DieNo) (line : Nat) : sliceLine? ((dropSliceLine s d line).die d) line = none := by
  simp [sliceLine?, dropSliceLine]

theorem sliceLine?_setSliceLine (s : State) (d : DieNo) {l : SliceLine} {line : Nat} (h : l.line = line) :
    sliceLine? ((setSliceLine s d l).die d) line = some l := by
  subst h
  simp only [sliceLine?, setSliceLine, State.die_modDie_self]
  exact find?_upsert_self (p := fun y : SliceLine => y.line == l.line) (beq_self_eq_true l.line) _

@[simp] theorem die_sendMsg (s : State) (m : Msg) (d : DieNo) : (sendMsg s m).die d = s.die d := rfl

theorem takeCopy_die_other (s : State) (line : Nat) (asker : Option DieNo) {n : CopyNote} {d : DieNo} (h : n.die ≠ d) :
    (takeCopy s line asker n).die d = s.die d := by
  cases hl : sliceLine? (s.die n.die) line with
  | none => simp only [takeCopy, hl]
  | some l =>
    simp only [takeCopy, hl]
    split
    · split <;> simp only [die_sendMsg, setSliceLine, State.die_modDie_ne h]
    · split <;> simp only [dropSliceLine, State.die_modDie_ne h]

theorem takeCopy_noDelivery (s : State) (line : Nat) (asker : Option DieNo) (n : CopyNote) (h : NoDelivery line s) :
    NoDelivery line (takeCopy s line asker n) := by
  cases hl : sliceLine? (s.die n.die) line with
  | none =>
    simp only [takeCopy, hl]
    exact h
  | some l =>
    simp only [takeCopy, hl]
    split
    · split
      · exact h
      · intro m hm hline
        rcases List.mem_append.mp hm with hm | hm
        · exact h m hm hline
        · rw [List.mem_singleton.mp hm]
          rfl
    · split <;> exact h

theorem takeCopy_onlyAsked (s : State) (line : Nat) (n : CopyNote) : OnlyAsked line n.die (takeCopy s line none n) := by
  cases hl : sliceLine? (s.die n.die) line with
  | none =>
    simp only [takeCopy, hl, OnlyAsked]
    simp
  | some l =>
    have hline : l.line = line := by simpa using List.find?_some hl
    simp only [takeCopy, hl, reduceCtorEq, if_false]
    split
    · intro l' hl'
      rw [die_sendMsg, sliceLine?_setSliceLine (l := { l with st := .imW }) _ _ hline] at hl'
      cases hl'
      rfl
    · intro l' hl'
      simp only [decide_false, Bool.false_and, Bool.false_eq_true, if_false] at hl'
      exact absurd ((sliceLine?_dropSliceLine _ n.die line).symm.trans hl') (by simp)

/-- Nothing of the line is held that memory does not have. -/
theorem heldLine_none {s : State} {line : Nat} (hn : NoDelivery line s) (ho : ∀ d, OnlyAsked line d s) : heldLine s line = none := by
  have hnet : (s.hub.dir.net.find? fun m => m.line == line && m.toDie && (m.kind == .fwdData && !m.shared || m.kind == .dataM)) = none := by
    rw [List.find?_eq_none]
    intro m hm
    by_cases hline : m.line = line
    · simp [hn m hm hline]
    · simp [hline]
  have hcopy : ∀ d, ownerCopy s d line = none := by
    intro d
    unfold ownerCopy
    cases hl : sliceLine? (s.die d) line with
    | none => rfl
    | some l => simp only [ho d l hl]
  unfold heldLine
  rw [hnet]
  simp only [hcopy, List.findSome?_eq_none_iff, implies_true]

theorem foldl_takeCopy_noDelivery {s : State} {line : Nat} (notes : List CopyNote) (h : NoDelivery line s) :
    NoDelivery line (notes.foldl (fun s n => takeCopy s line none n) s) := by
  induction notes generalizing s with
  | nil => exact h
  | cons n notes ih => exact ih (takeCopy_noDelivery s line none n h)

theorem foldl_takeCopy_onlyAsked (s : State) (line : Nat) {notes : List CopyNote} {n : CopyNote} (hn : n ∈ notes) :
    OnlyAsked line n.die (notes.foldl (fun s n => takeCopy s line none n) s) := by
  refine foldl_establishes (P := fun n t => OnlyAsked line n.die t) (I := fun _ => True)
    (fun _ _ _ => trivial) (fun t n _ => takeCopy_onlyAsked t line n) (fun t n n' _ h => ?_) trivial hn
  by_cases hd : n.die = n'.die
  · rw [← hd]
    exact takeCopy_onlyAsked t line n
  · intro l hl
    rw [takeCopy_die_other t line none hd] at hl
    exact h l hl

theorem forgetLine_noDelivery (s : State) (line : Nat) : NoDelivery line (forgetLine s line) := by
  intro m hm hline
  rw [forgetLine_net, List.mem_filter] at hm
  exact absurd hm.2 (by simp [hline])

theorem heldLine_uncached (s : State) (line : Nat) : heldLine (uncached s line none) line = none := by
  rw [uncached, (modRegion_sameLine ..).heldLine]
  exact heldLine_none (foldl_takeCopy_noDelivery _ (forgetLine_noDelivery _ line)) fun d =>
    foldl_takeCopy_onlyAsked (n := noteCopy s line d) _ line (List.mem_map_of_mem (List.mem_finRange d))

theorem heldLine_collapseLine (s : State) (line : Nat) : heldLine (collapseLine s line) line = none := by
  rw [collapseLine, collapseFor_eq]
  split
  · rw [(writeMemLine_sameLine ..).heldLine, (poison_sameLine ..).heldLine, heldLine_uncached]
  · exact heldLine_uncached s line

/-! ### Lines of memory (R324, R325) -/

/-- A line is its bytes. -/
theorem line_ext {v w : BitVec 1024} (h : ∀ k < 128, lineByte v k = lineByte w k) : v = w := by
  refine BitVec.eq_of_getLsbD_eq fun i hi => ?_
  have hbit := congrArg (fun b : Byte => b.getLsbD (i % 8)) (h (i / 8) (by omega))
  simpa [lineByte, Nat.mod_lt, Nat.div_add_mod] using hbit

theorem lineByte_lineOfBytes (bs : List Byte) {k : Nat} (hk : k < 128) : lineByte (lineOfBytes bs) k = bs.getD k 0 := by
  rw [lineByte, lineOfBytes, extractLsb'_byte_ofNat _ (by omega), ofNat_leNat_div]

theorem lineByte_readBytes (m : List Host.Cell) (line : Nat) {k : Nat} (hk : k < 128) :
    lineByte (lineOfBytes (Memory.readBytes m (128 * line) 128)) k = Memory.read m (128 * line + k) := by
  rw [lineByte_lineOfBytes _ hk, Memory.getD_readBytes _ _ _ _ hk]

theorem length_bytesOfLine (v : BitVec 1024) : (bytesOfLine v).length = 128 := by
  rw [bytesOfLine, List.length_map, List.length_range]

/-- A line written is the line read. -/
theorem lineOfBytes_write_self {m : List Host.Cell} (h : Memory.wf m = true) (line : Nat) (v : BitVec 1024) :
    lineOfBytes (Memory.readBytes (Memory.writeBytes m (128 * line) (bytesOfLine v)) (128 * line) 128) = v :=
  line_ext fun k hk => by rw [lineByte_readBytes _ _ hk, read_writeLine h hk]

/-- Bytes written outside a line leave it. -/
theorem lineOfBytes_write_other {m : List Host.Cell} (h : Memory.wf m = true) {line a : Nat} {bs : List Byte}
    (ho : ∀ i < bs.length, (a + i) / 128 ≠ line) :
    lineOfBytes (Memory.readBytes (Memory.writeBytes m a bs) (128 * line) 128) =
      lineOfBytes (Memory.readBytes m (128 * line) 128) := by
  refine line_ext fun k hk => ?_
  rw [lineByte_readBytes _ _ hk, lineByte_readBytes _ _ hk, Memory.read_writeBytes _ h, if_neg]
  intro hin
  refine ho (128 * line + k - a) (by omega) ?_
  omega

theorem lineKey_writeMemLine_self (s : State) (line : Nat) (v : BitVec 1024) (key : BitVec 8) :
    lineKey (writeMemLine s line v key) line = key := by
  have hgone : ((s.lineKeys.filter fun x => x.1 != line).find? fun x => x.1 == line) = none := by simp
  by_cases hkey : key = 0
  · simp only [lineKey, writeMemLine, if_pos hkey, hgone]
    exact hkey.symm
  · simp only [lineKey, writeMemLine, if_neg hkey, List.find?_append, hgone]
    simp

theorem lineKey_writeMemLine_other (s : State) {line written : Nat} (h : written ≠ line) (v : BitVec 1024) (key : BitVec 8) :
    lineKey (writeMemLine s written v key) line = lineKey s line := by
  have hfilter : ((s.lineKeys.filter fun x => x.1 != written).find? fun x => x.1 == line) = s.lineKeys.find? fun x => x.1 == line :=
    find?_filter_of_imp (fun x hx => by rw [eq_of_beq hx]; exact bne_iff_ne.mpr h.symm) _
  by_cases hkey : key = 0
  · simp only [lineKey, writeMemLine, if_pos hkey, hfilter]
  · simp only [lineKey, writeMemLine, if_neg hkey, List.find?_append, hfilter]
    simp [h]

theorem rekey_congr {s t : State} (h : t.hub.keys = s.hub.keys) (old new : BitVec 8) (line : Nat) (v : BitVec 1024) :
    rekey t old new line v = rekey s old new line v := by
  have hpair : ∀ k, keyPair t k = keyPair s k := fun k => by rw [keyPair, h, keyPair]
  simp only [rekey, hpair]

@[simp] theorem rekey_self (s : State) (k : BitVec 8) (line : Nat) (v : BitVec 1024) : rekey s k k line v = v := if_pos rfl

theorem memLine_writeMemLine_self {s : State} (h : Memory.wf s.mem = true) (line : Nat) (v : BitVec 1024) (k key : BitVec 8) :
    memLine (writeMemLine s line v k) line key = rekey s k key line v := by
  rw [memLine, lineKey_writeMemLine_self, writeMemLine_mem, lineOfBytes_write_self h, rekey_congr (writeMemLine_deviceOnly ..).keys]

theorem writeLine_apart {line written : Nat} (h : written ≠ line) (v : BitVec 1024) :
    ∀ i < (bytesOfLine v).length, (128 * written + i) / 128 ≠ line := by
  intro i hi
  rw [length_bytesOfLine] at hi
  omega

theorem memLine_writeMemLine_other {s : State} (h : Memory.wf s.mem = true) {line written : Nat} (hne : written ≠ line)
    (v : BitVec 1024) (k key : BitVec 8) : memLine (writeMemLine s written v k) line key = memLine s line key := by
  rw [memLine, lineKey_writeMemLine_other s hne, writeMemLine_mem, lineOfBytes_write_other h (writeLine_apart hne v),
    rekey_congr (writeMemLine_deviceOnly ..).keys, memLine]

theorem memLine_of_bytes {s t : State} {line : Nat}
    (hm : lineOfBytes (Memory.readBytes t.mem (128 * line) 128) = lineOfBytes (Memory.readBytes s.mem (128 * line) 128))
    (hl : t.lineKeys = s.lineKeys) (hk : t.hub.keys = s.hub.keys) (key : BitVec 8) : memLine t line key = memLine s line key := by
  rw [memLine, memLine, rekey_congr hk, hm, lineKey, hl, lineKey]

theorem memLine_congr {s t : State} (hm : t.mem = s.mem) (hl : t.lineKeys = s.lineKeys) (hk : t.hub.keys = s.hub.keys)
    (line : Nat) (key : BitVec 8) : memLine t line key = memLine s line key := by
  rw [memLine, memLine, rekey_congr hk, hm, lineKey, hl, lineKey]

/-! ### Data at device scope (R301) -/

/-- A line's data at device scope. -/
def deviceData (s : State) (key : BitVec 8) (line : Nat) : BitVec 1024 := (deviceLine s line key).1

theorem deviceData_of_held {s : State} {line : Nat} {v : BitVec 1024} {p : Bool} {k : BitVec 8} (h : heldLine s line = some (v, p, k))
    (key : BitVec 8) : deviceData s key line = rekey s k key line v := by
  rw [deviceData, deviceLine, h]

theorem deviceData_of_none {s : State} {line : Nat} (h : heldLine s line = none) (key : BitVec 8) :
    deviceData s key line = memLine s line key := by
  rw [deviceData, deviceLine, h]

/-- What a line's data at device scope depends on. -/
theorem deviceData_congr {s t : State} {line : Nat} (h : SameLine s t line) (hk : t.hub.keys = s.hub.keys) (key : BitVec 8)
    (hm : memLine t line key = memLine s line key) : deviceData t key line = deviceData s key line := by
  cases hv : heldLine s line with
  | none => rw [deviceData_of_none hv, deviceData_of_none (h.heldLine.trans hv), hm]
  | some x => rw [deviceData_of_held hv, deviceData_of_held (h.heldLine.trans hv), rekey_congr hk]

theorem foldl_keeps {α β : Type} {f : State → α → State} (g : State → β) (h : ∀ s x, g (f s x) = g s) (l : List α) (s : State) :
    g (l.foldl f s) = g s := by
  induction l generalizing s with
  | nil => rfl
  | cons x l ih => exact (ih (f s x)).trans (h s x)

theorem takeCopy_lineKeys (s : State) (line : Nat) (asker : Option DieNo) (n : CopyNote) :
    (takeCopy s line asker n).lineKeys = s.lineKeys := by
  cases hl : sliceLine? (s.die n.die) line with
  | none => simp only [takeCopy, hl]
  | some l =>
    simp only [takeCopy, hl]
    split <;> split <;> rfl

theorem countReplicas_lineKeys (s : State) (line : Nat) : (countReplicas s line).lineKeys = s.lineKeys := by
  unfold countReplicas
  dsimp only
  split
  · rfl
  · exact foldl_keeps (f := fun s d => countDie s d .collapses) State.lineKeys (fun _ _ => rfl) _ (countRegion s line .collapses)

theorem forgetLine_lineKeys (s : State) (line : Nat) : (forgetLine s line).lineKeys = s.lineKeys := by
  unfold forgetLine
  exact foldl_keeps State.lineKeys (fun _ _ => State.modDie_lineKeys ..) _ _

theorem uncached_lineKeys (s : State) (line : Nat) (asker : Option DieNo) : (uncached s line asker).lineKeys = s.lineKeys := by
  have hregion : ∀ t f, (modRegion t line f).lineKeys = t.lineKeys := fun t f => rfl
  rw [uncached, hregion, foldl_keeps State.lineKeys fun s n => takeCopy_lineKeys s line asker n, forgetLine_lineKeys,
    countReplicas_lineKeys]

theorem memLine_uncached (s : State) (gone : Nat) (asker : Option DieNo) (line : Nat) (key : BitVec 8) :
    memLine (uncached s gone asker) line key = memLine s line key :=
  memLine_congr (uncached_mem ..) (uncached_lineKeys ..) (uncached_deviceOnly ..).keys line key

theorem memLine_poison (s : State) (p : List Nat) (line : Nat) (key : BitVec 8) :
    memLine { s with poison := p } line key = memLine s line key :=
  memLine_congr rfl rfl rfl line key

/-- A collapse changes no data at device scope, under any key slot. -/
theorem deviceData_collapseLine {s : State} (h : Memory.wf s.mem = true) (gone : Nat) (key : BitVec 8) (line : Nat) :
    deviceData (collapseLine s gone) key line = deviceData s key line := by
  have hu : ∀ q, Memory.wf ({ uncached s gone none with poison := q } : State).mem = true := by
    intro q
    rw [uncached_mem]
    exact h
  by_cases hgone : gone = line
  · subst hgone
    rw [deviceData_of_none (heldLine_collapseLine s gone), collapseLine]
    cases hv : heldLine s gone with
    | none => rw [collapseFor_of_none hv, deviceData_of_none hv, memLine_uncached]
    | some x =>
      obtain ⟨q, hq⟩ := collapseFor_of_held hv none
      rw [hq, deviceData_of_held hv, memLine_writeMemLine_self (hu q), rekey_congr (poison_deviceOnly ..).keys,
        rekey_congr (uncached_deviceOnly ..).keys]
  · refine deviceData_congr (collapseFor_sameLine s none hgone) (collapseFor_deviceOnly s gone none).keys key ?_
    cases hv : heldLine s gone with
    | none => rw [collapseFor_of_none hv, memLine_uncached]
    | some x =>
      obtain ⟨q, hq⟩ := collapseFor_of_held hv none
      rw [hq, memLine_writeMemLine_other (hu q) hgone, memLine_poison, memLine_uncached]

theorem collapseLine_wf {s : State} (h : Memory.wf s.mem = true) (line : Nat) : Memory.wf (collapseLine s line).mem = true := by
  rw [collapseLine, collapseFor_eq]
  split
  · exact writeMemLine_wf _ _ _ (by rw [uncached_mem]; exact h)
  · rw [uncached_mem]
    exact h

/-! ### A line of memory put under a key slot -/

theorem keyLine_deviceOnly (key : BitVec 8) (s : State) (line : Nat) : DeviceOnly s (keyLine key s line) := by
  unfold keyLine
  split
  · exact .refl s
  · exact writeMemLine_deviceOnly ..

theorem keyLine_sameLine (key : BitVec 8) (s : State) (keyed line : Nat) : SameLine s (keyLine key s keyed) line := by
  unfold keyLine
  split
  · exact .refl s line
  · exact writeMemLine_sameLine ..

theorem keyLine_wf {s : State} (h : Memory.wf s.mem = true) (key : BitVec 8) (line : Nat) :
    Memory.wf (keyLine key s line).mem = true := by
  unfold keyLine
  split
  · exact h
  · exact writeMemLine_wf _ _ _ h

theorem lineKey_keyLine_self (key : BitVec 8) (s : State) (line : Nat) : lineKey (keyLine key s line) line = key := by
  unfold keyLine
  split
  · assumption
  · exact lineKey_writeMemLine_self ..

theorem lineKey_keyLine {key : BitVec 8} {s : State} {line : Nat} (h : lineKey s line = key) (keyed : Nat) :
    lineKey (keyLine key s keyed) line = key := by
  by_cases hk : keyed = line
  · rw [hk, lineKey_keyLine_self]
  · unfold keyLine
    split
    · exact h
    · rw [lineKey_writeMemLine_other s hk, h]

theorem memLine_keyLine {s : State} (h : Memory.wf s.mem = true) (key : BitVec 8) (keyed line : Nat) :
    memLine (keyLine key s keyed) line key = memLine s line key := by
  unfold keyLine
  split
  · rfl
  · by_cases hk : keyed = line
    · rw [hk, memLine_writeMemLine_self h, rekey_self]
    · exact memLine_writeMemLine_other h hk ..

theorem deviceData_keyLine {s : State} (h : Memory.wf s.mem = true) (key : BitVec 8) (keyed line : Nat) :
    deviceData (keyLine key s keyed) key line = deviceData s key line :=
  deviceData_congr (keyLine_sameLine ..) (keyLine_deviceOnly ..).keys key (memLine_keyLine h key keyed line)

/-! ### Bytes written at device scope (R301) -/

/-- The lines of a write. -/
def linesOf (pa n : Nat) : List Nat := ((List.range n).map fun i => (pa + i) / 128).dedup

theorem mem_linesOf {pa n line : Nat} : line ∈ linesOf pa n ↔ ∃ i < n, (pa + i) / 128 = line := by
  simp [linesOf]

/-- Every line of a write in memory, under its key slot: a write at device scope before its bytes go to memory. -/
def inMemory (s : State) (lines : List Nat) (key : BitVec 8) : State :=
  lines.foldl (keyLine key) (lines.foldl collapseLine s)

theorem inMemory_deviceOnly (s : State) (lines : List Nat) (key : BitVec 8) : DeviceOnly s (inMemory s lines key) :=
  .trans (.foldl (fun s line => collapseFor_deviceOnly s line none) lines s) (.foldl (keyLine_deviceOnly key) lines _)

theorem foldl_collapseLine_wf {s : State} (h : Memory.wf s.mem = true) (lines : List Nat) :
    Memory.wf (lines.foldl collapseLine s).mem = true :=
  List.foldlRecOn (motive := fun t => Memory.wf t.mem = true) lines collapseLine h fun _ ht line _ => collapseLine_wf ht line

theorem inMemory_wf {s : State} (h : Memory.wf s.mem = true) (lines : List Nat) (key : BitVec 8) :
    Memory.wf (inMemory s lines key).mem = true :=
  List.foldlRecOn (motive := fun t => Memory.wf t.mem = true) lines (keyLine key) (foldl_collapseLine_wf h lines)
    fun _ ht line _ => keyLine_wf ht key line

/-- It changes no data under the key slot. -/
theorem deviceData_inMemory {s : State} (h : Memory.wf s.mem = true) (lines : List Nat) (key : BitVec 8) (line : Nat) :
    deviceData (inMemory s lines key) key line = deviceData s key line := by
  have hcollapsed : Memory.wf (lines.foldl collapseLine s).mem = true ∧
      deviceData (lines.foldl collapseLine s) key line = deviceData s key line :=
    List.foldlRecOn (motive := fun t => Memory.wf t.mem = true ∧ deviceData t key line = deviceData s key line) lines collapseLine
      ⟨h, rfl⟩ fun t ht gone _ => ⟨collapseLine_wf ht.1 gone, (deviceData_collapseLine ht.1 gone key line).trans ht.2⟩
  refine (List.foldlRecOn (motive := fun t => Memory.wf t.mem = true ∧ deviceData t key line = deviceData s key line) lines
    (keyLine key) hcollapsed fun t ht keyed _ => ⟨keyLine_wf ht.1 key keyed, ?_⟩).2
  exact (deviceData_keyLine ht.1 key keyed line).trans ht.2

theorem heldLine_inMemory (s : State) {lines : List Nat} (key : BitVec 8) {line : Nat} (h : line ∈ lines) :
    heldLine (inMemory s lines key) line = none := by
  have hcollapsed : heldLine (lines.foldl collapseLine s) line = none := by
    refine foldl_establishes (P := fun line t => heldLine t line = none) (I := fun _ => True) (fun _ _ _ => trivial)
      (fun t line _ => heldLine_collapseLine t line) (fun t gone line _ ht => ?_) trivial h
    by_cases hg : gone = line
    · rw [hg, heldLine_collapseLine]
    · exact (collapseFor_sameLine t none hg).heldLine.trans ht
  exact (SameLine.foldl (fun t keyed => keyLine_sameLine key t keyed line) lines _).heldLine.trans hcollapsed

theorem lineKey_inMemory (s : State) {lines : List Nat} (key : BitVec 8) {line : Nat} (h : line ∈ lines) :
    lineKey (inMemory s lines key) line = key :=
  foldl_establishes (P := fun line t => lineKey t line = key) (I := fun _ => True) (fun _ _ _ => trivial)
    (fun t line _ => lineKey_keyLine_self key t line) (fun _ keyed _ _ ht => lineKey_keyLine ht keyed) trivial h

theorem deviceWrite_eq (s : State) (pa : Nat) (bs : List Byte) (key : BitVec 8) :
    ∃ p, deviceWrite s pa bs key = { inMemory s (linesOf pa bs.length) key with
      mem := Memory.writeBytes (inMemory s (linesOf pa bs.length) key).mem pa bs, poison := p } := ⟨_, rfl⟩

theorem deviceWrite_deviceOnly (s : State) (pa : Nat) (bs : List Byte) (key : BitVec 8) :
    DeviceOnly s (deviceWrite s pa bs key) := by
  obtain ⟨p, hp⟩ := deviceWrite_eq s pa bs key
  rw [hp]
  exact (inMemory_deviceOnly ..).trans ⟨rfl, fun _ => rfl⟩

theorem deviceWrite_wf {s : State} (h : Memory.wf s.mem = true) (pa : Nat) (bs : List Byte) (key : BitVec 8) :
    Memory.wf (deviceWrite s pa bs key).mem = true := by
  obtain ⟨p, hp⟩ := deviceWrite_eq s pa bs key
  rw [hp]
  exact Memory.wf_writeBytes pa bs (inMemory_wf h _ key)

theorem deviceWrite_canonical {s : State} (h : Canonical s) (pa : Nat) (bs : List Byte) (key : BitVec 8) :
    Canonical (deviceWrite s pa bs key) :=
  (deviceWrite_deviceOnly ..).canonical h (deviceWrite_wf h.1 pa bs key)

/-- A line that the write reaches: its bytes over the data that the line had. -/
theorem lineByte_deviceWrite {s : State} (h : Memory.wf s.mem = true) {pa : Nat} {bs : List Byte} (key : BitVec 8) {line : Nat}
    (hl : line ∈ linesOf pa bs.length) {k : Nat} (hk : k < 128) :
    lineByte (deviceData (deviceWrite s pa bs key) key line) k =
      if pa ≤ 128 * line + k ∧ 128 * line + k < pa + bs.length then bs.getD (128 * line + k - pa) 0
      else lineByte (deviceData s key line) k := by
  obtain ⟨p, hp⟩ := deviceWrite_eq s pa bs key
  have hheld := heldLine_inMemory s key hl
  have hkey := lineKey_inMemory s key hl
  have hmem : memLine (inMemory s (linesOf pa bs.length) key) line key = deviceData s key line := by
    rw [← deviceData_inMemory h (linesOf pa bs.length) key line, deviceData_of_none hheld]
  have hsame : SameLine (inMemory s (linesOf pa bs.length) key) (deviceWrite s pa bs key) line := by
    rw [hp]
    exact .of_eq rfl rfl
  have hkey' : lineKey (deviceWrite s pa bs key) line = key := by
    rw [hp]
    exact hkey
  have hread : (deviceWrite s pa bs key).mem = Memory.writeBytes (inMemory s (linesOf pa bs.length) key).mem pa bs := by rw [hp]
  rw [memLine, hkey, rekey_self] at hmem
  rw [deviceData_of_none (hsame.heldLine.trans hheld), memLine, hkey', rekey_self, lineByte_readBytes _ _ hk, hread,
    Memory.read_writeBytes _ (inMemory_wf h _ key), ← hmem, lineByte_readBytes _ _ hk]

/-- A line that it does not reach. -/
theorem deviceData_deviceWrite_other {s : State} (h : Memory.wf s.mem = true) {pa : Nat} {bs : List Byte} (key : BitVec 8)
    {line : Nat} (hl : line ∉ linesOf pa bs.length) : deviceData (deviceWrite s pa bs key) key line = deviceData s key line := by
  obtain ⟨p, hp⟩ := deviceWrite_eq s pa bs key
  have hbytes := lineOfBytes_write_other (inMemory_wf h (linesOf pa bs.length) key) (line := line) (a := pa) (bs := bs)
    fun i hi hline => hl (mem_linesOf.mpr ⟨i, hi, hline⟩)
  rw [← deviceData_inMemory h (linesOf pa bs.length) key line]
  generalize inMemory s (linesOf pa bs.length) key = t at hp hbytes ⊢
  have hmem : (deviceWrite s pa bs key).mem = Memory.writeBytes t.mem pa bs := by rw [hp]
  have hhub : (deviceWrite s pa bs key).hub = t.hub := by rw [hp]
  have hdies : (deviceWrite s pa bs key).dies = t.dies := by rw [hp]
  have hline : (deviceWrite s pa bs key).lineKeys = t.lineKeys := by rw [hp]
  exact deviceData_congr (.of_eq (by rw [hhub]) hdies) (by rw [hhub]) key
    (memLine_of_bytes (by rw [hmem, hbytes]) hline (by rw [hhub]) key)

/-- The bytes written, over the bytes that stood there. -/
theorem deviceByte_deviceWrite {s : State} (h : Memory.wf s.mem = true) (pa : Nat) (bs : List Byte) (key : BitVec 8) (a : Nat) :
    deviceByte (deviceWrite s pa bs key) a key =
      if pa ≤ a ∧ a < pa + bs.length then bs.getD (a - pa) 0 else deviceByte s a key := by
  have ha : 128 * (a / 128) + a % 128 = a := by omega
  by_cases hl : a / 128 ∈ linesOf pa bs.length
  · have hbyte := lineByte_deviceWrite h key hl (k := a % 128) (by omega)
    rw [ha] at hbyte
    exact hbyte
  · rw [if_neg fun hin => hl (mem_linesOf.mpr ⟨a - pa, by omega, by congr 1; omega⟩)]
    exact congrArg (lineByte · (a % 128)) (deviceData_deviceWrite_other h key hl)

/-- Settles O53: a write collapses each line of it first and states it under the key slot, neither of which changes its data. -/
theorem deviceWrites : Obligations.DeviceWrites := by
  intro s pa bs key hs
  refine ⟨fun i hi => ?_, fun a ha => ?_, (deviceWrite_deviceOnly ..).units, deviceWrite_canonical hs ..⟩
  · rw [deviceByte_deviceWrite hs.1, if_pos (by omega), Nat.add_sub_cancel_left]
  · rw [deviceByte_deviceWrite hs.1, if_neg (by omega)]

end Sys2Proof.DeviceStep
end

section
/-! PROOFS.
What the cluster cache's operations leave of the machine (R114 to R116, R120, R125): a fill, a store, a flush. -/

-- One proof at a time: the check of the whole text has a limit on memory, which many threads would reach.
set_option Elab.async false

namespace Sys2Proof.CacheStep

open Sys2Proof.Machine Sys2Proof.Safety Sys2Proof.Prompter Sys2Proof.DeviceStep

/-! ### What they can change -/

/-- The states differ in the cluster caches, the dies' slices, their links, redirects and counters, the directory and the contents
of memory alone, and memory keeps its canonical form. -/
structure CacheOnly (s t : State) : Prop where
  eq : t = { s with clusters := t.clusters, dies := t.dies, hub := { s.hub with dir := t.hub.dir }, mem := t.mem,
                    lineKeys := t.lineKeys, poison := t.poison }
  cluster : ∀ c, t.cluster c = { s.cluster c with cache := (t.cluster c).cache }
  die : ∀ d, t.die d = { s.die d with lines := (t.die d).lines, link := (t.die d).link, redirects := (t.die d).redirects,
                                      counters := (t.die d).counters }
  wf : Memory.wf s.mem = true → Memory.wf t.mem = true

namespace CacheOnly

variable {s t v : State}

theorem refl (s : State) : CacheOnly s s := ⟨rfl, fun _ => rfl, fun _ => rfl, id⟩

theorem trans (h₁ : CacheOnly s t) (h₂ : CacheOnly t v) : CacheOnly s v := by
  refine ⟨?_, fun c => ?_, fun d => ?_, h₂.wf ∘ h₁.wf⟩
  · rw [h₂.eq, h₁.eq]
  · rw [h₂.cluster, h₁.cluster]
  · rw [h₂.die, h₁.die]

theorem of_device (h : DeviceOnly s t) (hm : Memory.wf s.mem = true → Memory.wf t.mem = true) : CacheOnly s t := by
  refine ⟨?_, fun c => ?_, h.die, hm⟩
  · rw [h.eq]
  · rw [State.cluster, h.clusters, State.cluster]

theorem of_mem (h : DeviceOnly s t) (hm : t.mem = s.mem) : CacheOnly s t := of_device h (hm ▸ id)

theorem modCache (s : State) (c : ClusterNo) (f : List CacheLine → List CacheLine) :
    CacheOnly s (s.modCluster c fun k => { k with cache := f k.cache }) := by
  refine ⟨rfl, fun d => ?_, fun _ => rfl, id⟩
  by_cases hd : c = d
  · subst hd
    rw [State.cluster_modCluster_self]
  · rw [State.cluster_modCluster_ne hd]

theorem foldl {α : Type} {f : State → α → State} (h : ∀ s x, CacheOnly s (f s x)) (l : List α) (s : State) :
    CacheOnly s (l.foldl f s) := by
  induction l generalizing s with
  | nil => exact refl s
  | cons x l ih => exact (h s x).trans (ih (f s x))

theorem units (h : CacheOnly s t) : t.units = s.units := by rw [h.eq]
theorem issue (h : CacheOnly s t) : t.issue = s.issue := by rw [h.eq]
theorem mod (h : CacheOnly s t) : t.mod = s.mod := by rw [h.eq]
theorem nextReq (h : CacheOnly s t) : t.nextReq = s.nextReq := by rw [h.eq]
theorem hub (h : CacheOnly s t) : t.hub = { s.hub with dir := t.hub.dir } := by rw [h.eq]
theorem rels (h : CacheOnly s t) (c : ClusterNo) : (t.cluster c).rels = (s.cluster c).rels := by rw [h.cluster]
theorem sync (h : CacheOnly s t) (d : DieNo) : (t.die d).sync = (s.die d).sync := by rw [h.die]
theorem lost (h : CacheOnly s t) (d : DieNo) : (t.die d).lost = (s.die d).lost := by rw [h.die]
theorem roCache (h : CacheOnly s t) (c : ClusterNo) : (t.cluster c).roCache = (s.cluster c).roCache := by rw [h.cluster]

theorem canonical (h : CacheOnly s t) (hs : Canonical s) : Canonical t := by
  obtain ⟨hmem, hupdate, hsram⟩ := hs
  refine ⟨h.wf hmem, ?_, fun c => ?_⟩
  · rw [h.mod]
    exact hupdate
  · rw [h.cluster]
    exact hsram c

end CacheOnly

/-! ### A miss, and dirty bytes that reach a slice (R296, R301, R325) -/

theorem underKey_deviceOnly (s : State) (line : Nat) (key : BitVec 8) : DeviceOnly s (underKey s line key) := by
  unfold underKey
  split
  · split
    · exact collapseFor_deviceOnly ..
    · exact .refl s
  · exact .refl s

theorem underKey_wf {s : State} (h : Memory.wf s.mem = true) (line : Nat) (key : BitVec 8) :
    Memory.wf (underKey s line key).mem = true := by
  unfold underKey
  split
  · split
    · exact collapseLine_wf h line
    · exact h
  · exact h

theorem sendAfterSet_deviceOnly (s : State) (d : DieNo) (l : SliceLine) (m : Msg) :
    DeviceOnly s (sendMsg (setSliceLine s d l) m) :=
  (setSliceLine_deviceOnly s d l).trans (sendMsg_deviceOnly _ m)

theorem readMiss_deviceOnly (s : State) (d : DieNo) (line : Nat) (key : BitVec 8) (floor ceil : BitVec 3) (prefetch : Bool) :
    DeviceOnly s (readMiss s d line key floor ceil prefetch) := by
  refine (underKey_deviceOnly s line key).trans ?_
  unfold readMiss
  dsimp only
  split
  · split
    · exact sendAfterSet_deviceOnly ..
    · exact .refl _
  · exact (makeRoom_deviceOnly ..).trans (sendAfterSet_deviceOnly ..)

/-- A miss changes memory by the collapse of its line alone. -/
theorem readMiss_mem_eq (s : State) (d : DieNo) (line : Nat) (key : BitVec 8) (floor ceil : BitVec 3) (prefetch : Bool) :
    (readMiss s d line key floor ceil prefetch).mem = (underKey s line key).mem := by
  unfold readMiss
  dsimp only
  split
  · split
    · rw [sendMsg_mem, setSliceLine_mem]
    · rfl
  · rw [sendMsg_mem, setSliceLine_mem, makeRoom_mem]

theorem readMiss_cacheOnly (s : State) (d : DieNo) (line : Nat) (key : BitVec 8) (floor ceil : BitVec 3) (prefetch : Bool) :
    CacheOnly s (readMiss s d line key floor ceil prefetch) :=
  .of_device (readMiss_deviceOnly ..) fun h => by
    rw [readMiss_mem_eq]
    exact underKey_wf h line key

/-- The state that dirty bytes find once their line's Put is taken back. -/
theorem keepLine_getD_deviceOnly (s : State) (d : DieNo) (l : SliceLine) : DeviceOnly s ((keepLine s d l).getD (s, l)).1 := by
  cases h : keepLine s d l with
  | none => exact .refl s
  | some x => exact keepLine_deviceOnly h

theorem mergeIntoSlice_deviceOnly (s : State) (d : DieNo) (line : Nat) (data : BitVec 1024) (dirty : BitVec 128) (key : BitVec 8)
    (floor ceil : BitVec 3) : DeviceOnly s (mergeIntoSlice s d line data dirty key floor ceil) := by
  refine (underKey_deviceOnly s line key).trans ?_
  unfold mergeIntoSlice
  dsimp only
  split
  · next l0 _ =>
    have hkeep := keepLine_getD_deviceOnly (underKey s line key) d l0
    generalize (keepLine (underKey s line key) d l0).getD (underKey s line key, l0) = x at hkeep ⊢
    refine hkeep.trans ?_
    split
    case h_1 | h_2 | h_5 | h_6 | h_7 => exact setSliceLine_deviceOnly ..
    case h_3 | h_4 | h_8 | h_9 => exact sendAfterSet_deviceOnly ..
  · exact (makeRoom_deviceOnly ..).trans (sendAfterSet_deviceOnly ..)

theorem mergeIntoSlice_cacheOnly (s : State) (d : DieNo) (line : Nat) (data : BitVec 1024) (dirty : BitVec 128) (key : BitVec 8)
    (floor ceil : BitVec 3) : CacheOnly s (mergeIntoSlice s d line data dirty key floor ceil) :=
  .of_device (mergeIntoSlice_deviceOnly ..) fun h => by
    rw [mergeIntoSlice_mem]
    exact underKey_wf h line key

/-! ### The cluster cache (R115, R116) -/

theorem dropCached_cacheOnly (s : State) (c : ClusterNo) (l : CacheLine) : CacheOnly s (dropCached s c l) := by
  unfold dropCached
  dsimp only
  split
  · exact .modCache s c _
  · exact (CacheOnly.modCache s c _).trans (mergeIntoSlice_cacheOnly ..)

theorem cacheRoom_cacheOnly (s : State) (c : ClusterNo) : CacheOnly s (cacheRoom s c) := by
  unfold cacheRoom
  dsimp only
  split
  · exact .refl s
  · split
    · exact dropCached_cacheOnly ..
    · exact .refl s

theorem fillCache_cacheOnly (s : State) (c : ClusterNo) (line : Nat) (key : BitVec 8) (floor ceil : BitVec 3) :
    CacheOnly s (fillCache s c line key floor ceil) := by
  have hmiss : ∀ t, CacheOnly t (if servedFrom t c (128 * line) 128 key = 2 then readMiss t (dieOf c) line key floor ceil else t) := by
    intro t
    split
    · exact readMiss_cacheOnly ..
    · exact .refl t
  have hfill : ∀ t x, CacheOnly t ((cacheRoom (if servedFrom t c (128 * line) 128 key = 2 then
      readMiss t (dieOf c) line key floor ceil else t) c).modCluster c fun k => { k with cache := k.cache ++ [x] }) := by
    intro t x
    exact ((hmiss t).trans (cacheRoom_cacheOnly _ c)).trans (.modCache _ c (· ++ [x]))
  unfold fillCache
  dsimp only
  split
  · split
    · exact .refl s
    · exact (dropCached_cacheOnly s c _).trans (hfill _ _)
  · exact hfill _ _

theorem cacheStore_cacheOnly (s : State) (c : ClusterNo) (pa : Nat) (bs : List Byte) (key : BitVec 8) (floor ceil : BitVec 3) :
    CacheOnly s (cacheStore s c pa bs key floor ceil) := by
  unfold cacheStore
  exact (fillCache_cacheOnly ..).trans (.modCache _ c (updateFirst _ _))

theorem flushDie_cacheOnly (s : State) (c : ClusterNo) : CacheOnly s (flushDie s c) := by
  unfold flushDie
  exact (CacheOnly.modCache s c _).trans (.foldl (fun s l => mergeIntoSlice_cacheOnly s ..) _ _)

/-! ### A flush, and what it leaves (R116, R120) -/

/-- A line held under no other key slot is not collapsed. -/
theorem underKey_of_dirUnder {s : State} {line : Nat} {key : BitVec 8} (h : DirUnder s line key) : underKey s line key = s := by
  unfold underKey
  cases hx : dirEntry? s line with
  | none => rfl
  | some x =>
    refine if_neg fun hc => ?_
    simp only [Bool.and_eq_true, Bool.or_eq_true, bne_iff_ne] at hc
    exact hc.2 (h x hx hc.1)

theorem makeRoom_entries (s : State) (d : DieNo) (line : Nat) : (makeRoom s d line).hub.dir.entries = s.hub.dir.entries :=
  foldl_keeps (f := evict d) (fun t => t.hub.dir.entries) (fun _ _ => rfl) _ s

theorem keepLine_getD_entries (s : State) (d : DieNo) (l : SliceLine) :
    ((keepLine s d l).getD (s, l)).1.hub.dir.entries = s.hub.dir.entries := by
  unfold keepLine
  dsimp only
  split
  · split <;> rfl
  · rfl

/-- Dirty bytes that reach a slice without a collapse leave the directory's entries. -/
theorem mergeIntoSlice_entries {s : State} {line : Nat} {key : BitVec 8} (h : DirUnder s line key) (d : DieNo) (data : BitVec 1024)
    (dirty : BitVec 128) (floor ceil : BitVec 3) :
    (mergeIntoSlice s d line data dirty key floor ceil).hub.dir.entries = s.hub.dir.entries := by
  unfold mergeIntoSlice
  rw [underKey_of_dirUnder h]
  dsimp only
  split
  · next l0 _ =>
    have hkeep := keepLine_getD_entries s d l0
    generalize (keepLine s d l0).getD (s, l0) = x at hkeep ⊢
    split <;> exact hkeep
  · exact makeRoom_entries s d line

theorem dirUnder_congr {s t : State} (h : t.hub.dir.entries = s.hub.dir.entries) {line : Nat} {key : BitVec 8}
    (hs : DirUnder s line key) : DirUnder t line key := by
  intro x hx
  rw [dirEntry?, h] at hx
  exact hs x hx

/-- Lines held under no other key slot are merged into the slices without a change of memory. -/
theorem foldl_mergeIntoSlice_mem (d : DieNo) (dirty : CacheLine → BitVec 128) {l : List CacheLine} {s : State}
    (h : ∀ x ∈ l, DirUnder s x.line x.key) :
    (l.foldl (fun s x => mergeIntoSlice s d x.line x.data (dirty x) x.key x.rfloor x.rceil) s).mem = s.mem := by
  induction l generalizing s with
  | nil => rfl
  | cons x l ih =>
    have hx := h x List.mem_cons_self
    have hmem : (mergeIntoSlice s d x.line x.data (dirty x) x.key x.rfloor x.rceil).mem = s.mem := by
      rw [mergeIntoSlice_mem, underKey_of_dirUnder hx]
    exact (ih fun y hy => dirUnder_congr (mergeIntoSlice_entries hx ..) (h y (List.mem_cons_of_mem x hy))).trans hmem

theorem flushDie_mem {s : State} {c : ClusterNo} (h : CacheUnder s c) : (flushDie s c).mem = s.mem := by
  unfold flushDie
  dsimp only
  rw [foldl_mergeIntoSlice_mem (dieOf c) (looseBytes (s.cluster c))]
  · rfl
  · exact fun x hx => h x (List.mem_filter.mp hx).1

/-- What a flush leaves in the cluster cache: the bytes of releases that wait. -/
theorem flushDie_cache (s : State) (c : ClusterNo) :
    ((flushDie s c).cluster c).cache =
      (s.cluster c).cache.map fun l => { l with dirty := l.dirty &&& heldBytes (s.cluster c) l.line } := by
  unfold flushDie
  dsimp only
  rw [State.cluster, (DeviceOnly.foldl (fun s x => mergeIntoSlice_deviceOnly s ..) _ _).clusters, ← State.cluster,
    State.cluster_modCluster_self]

end Sys2Proof.CacheStep
end

section
/-! PROOFS.
Release stores, and accesses to synchronisation pages, the window and system space at issue (R120, R124, R129, R252). -/

-- One proof at a time: the check of the whole text has a limit on memory, which many threads would reach.
set_option Elab.async false

namespace Sys2Proof.OutwardAccess

open Sys2Proof.Machine Sys2Proof.Safety Sys2Proof.CacheStep

/-! ### What a charge to a budget changes (R395) -/

/-- The states differ in the contexts alone. -/
structure ContextsOnly (s t : State) : Prop where
  eq : t = { s with hub := { s.hub with contexts := t.hub.contexts } }

namespace ContextsOnly

variable {s t v : State}

theorem refl (s : State) : ContextsOnly s s := ⟨rfl⟩

theorem trans (h₁ : ContextsOnly s t) (h₂ : ContextsOnly t v) : ContextsOnly s v := by
  constructor
  rw [h₂.eq, h₁.eq]

theorem issue (h : ContextsOnly s t) : t.issue = s.issue := by rw [h.eq]
theorem units (h : ContextsOnly s t) : t.units = s.units := by rw [h.eq]
theorem mem (h : ContextsOnly s t) : t.mem = s.mem := by rw [h.eq]
theorem nextReq (h : ContextsOnly s t) : t.nextReq = s.nextReq := by rw [h.eq]
theorem cluster (h : ContextsOnly s t) (c : ClusterNo) : t.cluster c = s.cluster c := by rw [h.eq]; rfl
theorem die (h : ContextsOnly s t) (d : DieNo) : t.die d = s.die d := by rw [h.eq]; rfl
theorem outWrites (h : ContextsOnly s t) : t.hub.outWrites = s.hub.outWrites := by rw [h.eq]
theorem destUp (h : ContextsOnly s t) (dest : Nat) : destUp t dest = destUp s dest := by rw [h.eq]; rfl

end ContextsOnly

theorem costsTake_contextsOnly (s : State) (a : BitVec 16) (key : Nat) (l : List (Nat × Nat)) :
    ContextsOnly s (costsTake s a key l) := by
  unfold costsTake
  induction l generalizing s with
  | nil => exact .refl s
  | cons x l ih => exact .trans ⟨rfl⟩ (ih _)

/-! ### Releases (R120) -/

/-- The release that startRelease enters. -/
theorem startRelease_rels (s : State) (uid : Uid) (c : ClusterNo) (scope : BitVec 2) (p : RelPayload) :
    ∃ r, ((startRelease s uid c scope p).cluster c).rels = (s.cluster c).rels ++ [r] ∧ r.uid = uid ∧ r.payload = p ∧
      r.system = (scope == 3) := by
  have hflush : CacheOnly s (if scope != 0 && canRelease s c then flushDie s c else s) := by
    split
    · exact flushDie_cacheOnly s c
    · exact .refl s
  unfold startRelease
  dsimp only
  generalize (if scope != 0 && canRelease s c then flushDie s c else s) = t at hflush ⊢
  rw [State.cluster_modCluster_self]
  exact ⟨_, congrArg (· ++ _) (hflush.rels c), rfl, rfl, rfl⟩

theorem afterReleases_rels (s : State) (uid : Uid) (c : ClusterNo) (p : RelPayload) :
    ∃ r, ((afterReleases s uid c p).cluster c).rels = (s.cluster c).rels ++ [r] ∧ r.uid = uid ∧ r.payload = p := by
  unfold afterReleases
  dsimp only
  rw [State.cluster_modCluster_self]
  exact ⟨_, rfl, rfl, rfl⟩

/-- A request that no release stands before goes to its engine at once. -/
theorem sendSync_eq {s : State} {c : ClusterNo} {q : SyncReq} (h : ((s.cluster c).rels.any fun r => r.uid == q.uid) = false) :
    sendSync s c q = s.modSync q.die fun y => { y with queue := y.queue ++ [q] } := by
  rw [sendSync, h]
  rfl

theorem sendSync_spec {s : State} {c : ClusterNo} {q : SyncReq} (h : ((s.cluster c).rels.any fun r => r.uid == q.uid) = false) :
    ((sendSync s c q).die q.die).sync.queue = (s.die q.die).sync.queue ++ [q] ∧ (sendSync s c q).mem = s.mem ∧
      (sendSync s c q).units = s.units := by
  rw [sendSync_eq h]
  refine ⟨?_, rfl, rfl⟩
  rw [State.modSync, State.die_modDie_self]

/-! ### Stores -/

section
variable {s : State} {u : UnitSt} {va : Va} {pa : Nat} {e : TlbEntry} {blank : Bool}

/-- A release store to cacheable memory holds its bytes in its release. -/
theorem storeBytes_release (bs : List Byte) {c : BitVec 2} (ht : translate s u.accessor va .write = .ok pa e blank)
    (hr : routeOf pa e = .cached) (hc : c ≠ 0) :
    ∃ r, ((storeBytes s u va bs 1 (some c)).cluster u.ident.cluster).rels = (s.cluster u.ident.cluster).rels ++ [r] ∧
      r.uid = s.issue.me ∧ r.payload = .store pa bs.length c (BitVec.ofNat 512 (leNat bs)) e.key e.rfloor e.rceil ∧
      r.system = (c == 3) := by
  have hcost := costsTake_contextsOnly s u.ident.asid (slotKey s) (accessCost s u pa bs.length .write e)
  simp only [storeBytes, Access.paOf_ok ht, hr, Option.getD_some, if_neg hc]
  generalize costsTake s u.ident.asid (slotKey s) (accessCost s u pa bs.length .write e) = t at hcost ⊢
  have hwide : releases t s.issue.me u.ident.cluster c = true := by rw [releases, bne_iff_ne.mpr hc, Bool.true_or]
  obtain ⟨r, hrels, hfields⟩ := startRelease_rels t s.issue.me u.ident.cluster c
    (.store pa bs.length c (BitVec.ofNat 512 (leNat bs)) e.key e.rfloor e.rceil)
  refine ⟨r, ?_, hfields⟩
  rw [if_pos hwide, (cacheStore_cacheOnly ..).rels, hrels, hcost.cluster]

/-- The request of a store to a synchronisation page. -/
def storeRequest (s : State) (u : UnitSt) (pa : Nat) (va : Va) (key : BitVec 8) (bs : List Byte) : SyncReq :=
  { syncReq s.newReq.2 u s.newReq.1 .store pa va key with
    size := bs.length / 1, n := 1, x := BitVec.ofNat 512 (leNat bs), scope := 0, posted := true }

/-- A store to a synchronisation page is a request to its home die's engine. -/
theorem storeBytes_sync (bs : List Byte) (ht : translate s u.accessor va .write = .ok pa e blank) (hr : routeOf pa e = .sync)
    (hrel : ((s.cluster u.ident.cluster).rels.any fun r => r.uid == s.issue.me) = false) :
    ∃ q, ((storeBytes s u va bs 1 none).die (homeOf (pa / 128))).sync.queue = (s.die (homeOf (pa / 128))).sync.queue ++ [q] ∧
      q.kind = .store ∧ q.pa = pa ∧ q.va = va ∧ q.size = bs.length ∧ q.x = BitVec.ofNat 512 (leNat bs) ∧ q.uid = s.issue.me ∧
      (storeBytes s u va bs 1 none).mem = s.mem ∧ (storeBytes s u va bs 1 none).units = s.units := by
  have hcost := costsTake_contextsOnly s u.ident.asid (slotKey s) (accessCost s u pa bs.length .write e)
  have hsent : storeBytes s u va bs 1 none =
      sendSync (costsTake s u.ident.asid (slotKey s) (accessCost s u pa bs.length .write e)).newReq.2 u.ident.cluster
        (storeRequest (costsTake s u.ident.asid (slotKey s) (accessCost s u pa bs.length .write e)) u pa va e.key bs) := by
    simp only [storeBytes, Access.paOf_ok ht, hr]
    rfl
  rw [hsent]
  generalize costsTake s u.ident.asid (slotKey s) (accessCost s u pa bs.length .write e) = t at hcost ⊢
  have huid : (storeRequest t u pa va e.key bs).uid = s.issue.me := congrArg Issue.me hcost.issue
  have hfree : ((t.newReq.2.cluster u.ident.cluster).rels.any fun r => r.uid == (storeRequest t u pa va e.key bs).uid) = false := by
    rw [huid, ← hrel, ← hcost.cluster]
    rfl
  obtain ⟨hqueue, hmem, hunits⟩ := sendSync_spec hfree
  exact ⟨storeRequest t u pa va e.key bs, hqueue.trans (by rw [← hcost.die]; rfl), rfl, rfl, rfl, Nat.div_one _, rfl, huid,
    hmem.trans hcost.mem, hunits.trans hcost.units⟩

/-- A store into the window follows the core's releases. -/
theorem storeBytes_window (bs : List Byte) (ht : translate s u.accessor va .write = .ok pa e blank) (hr : routeOf pa e = .window) :
    ∃ r, ((storeBytes s u va bs 1 none).cluster u.ident.cluster).rels = (s.cluster u.ident.cluster).rels ++ [r] ∧
      r.uid = s.issue.me ∧ r.payload = .window (windowSlot pa) (windowReg pa) (BitVec.ofNat 64 (leNat bs)) ∧
      (storeBytes s u va bs 1 none).mem = s.mem := by
  have hcost := costsTake_contextsOnly s u.ident.asid (slotKey s) (accessCost s u pa bs.length .write e)
  simp only [storeBytes, Access.paOf_ok ht, hr, Bool.false_eq_true, if_false]
  generalize costsTake s u.ident.asid (slotKey s) (accessCost s u pa bs.length .write e) = t at hcost ⊢
  obtain ⟨r, hrels, huid, hpayload⟩ := afterReleases_rels t s.issue.me u.ident.cluster
    (.window (windowSlot pa) (windowReg pa) (BitVec.ofNat 64 (leNat bs)))
  exact ⟨r, hrels.trans (by rw [hcost.cluster]), huid, hpayload, hcost.mem⟩

/-- A store to system space is a posted write. -/
theorem storeBytes_outside (bs : List Byte) (ht : translate s u.accessor va .write = .ok pa e blank)
    (hr : routeOf pa e = .outside) (hrel : ((s.cluster u.ident.cluster).rels.any fun r => r.uid == s.issue.me) = false)
    (hup : destUp s ((outDest pa).getD 0) = true) :
    ∃ w, (storeBytes s u va bs 1 none).hub.outWrites = s.hub.outWrites ++ [w] ∧ w.addr = pa ∧ w.dest = (outDest pa).getD 0 ∧
      w.size = bs.length ∧ w.data = BitVec.ofNat 512 (leNat bs) ∧ w.uid = s.issue.me ∧
      (storeBytes s u va bs 1 none).mem = s.mem := by
  have hcost := costsTake_contextsOnly s u.ident.asid (slotKey s) (accessCost s u pa bs.length .write e)
  simp only [storeBytes, Access.paOf_ok ht, hr, Bool.false_eq_true, if_false]
  generalize costsTake s u.ident.asid (slotKey s) (accessCost s u pa bs.length .write e) = t at hcost ⊢
  have hup' : destUp t ((outDest pa).getD 0) = true := (hcost.destUp _).trans hup
  rw [hcost.cluster, hrel]
  simp only [Bool.false_eq_true, if_false, postWrite, outWrite, hup', Bool.not_true]
  exact ⟨_, congrArg (· ++ _) hcost.outWrites, rfl, rfl, rfl, rfl, rfl, hcost.mem⟩

/-! ### Loads -/

/-- The request of a load from a synchronisation page. -/
def loadRequest (s : State) (u : UnitSt) (pa : Nat) (va : Va) (key : BitVec 8) (n : Nat) (signed : Bool) (d : Dest) : SyncReq :=
  { syncReq s.newReq.2 u s.newReq.1 .load pa va key with
    size := n / 1, n := 1, signed := signed, acquire := false, scope := 0, posted := d.discarded }

/-- A load from a synchronisation page is a request whose reply its entry awaits. -/
theorem loadTo_sync (hu : AtIssue s u) (n : Nat) (d : Dest) (lat : Nat) (f : List Byte → BitVec 512) (sg : Bool)
    (ht : translate s u.accessor va .read = .ok pa e blank) (hr : routeOf pa e = .sync)
    (hrel : ((s.cluster u.ident.cluster).rels.any fun r => r.uid == s.issue.me) = false) :
    ∃ q, ((loadTo s u va n 1 d lat f sg none).die (homeOf (pa / 128))).sync.queue =
        (s.die (homeOf (pa / 128))).sync.queue ++ [q] ∧ q.kind = .load ∧ q.pa = pa ∧ q.size = n ∧ q.signed = sg ∧
      (loadTo s u va n 1 d lat f sg none).unit? s.issue.me = some (u.push (replyEntryOf s u d lat va)) := by
  have hcost := costsTake_contextsOnly s u.ident.asid (slotKey s) (accessCost s u pa n .read e)
  have hsent : loadTo s u va n 1 d lat f sg none =
      let t := costsTake s u.ident.asid (slotKey s) (accessCost s u pa n .read e)
      sendSync (t.newReq.2.setUnit t.issue.me (u.push (replyEntryOf t u d lat va))) u.ident.cluster
        (loadRequest t u pa va e.key n sg d) := by
    simp only [loadTo, Access.paOf_ok ht, hr]
    rfl
  rw [hsent]
  generalize costsTake s u.ident.asid (slotKey s) (accessCost s u pa n .read e) = t at hcost ⊢
  have huid : (loadRequest t u pa va e.key n sg d).uid = s.issue.me := congrArg Issue.me hcost.issue
  have hfree : (((t.newReq.2.setUnit t.issue.me (u.push (replyEntryOf t u d lat va))).cluster u.ident.cluster).rels.any
      fun r => r.uid == (loadRequest t u pa va e.key n sg d).uid) = false := by
    rw [huid, ← hrel, ← hcost.cluster]
    rfl
  obtain ⟨hqueue, -, hunits⟩ := sendSync_spec hfree
  refine ⟨loadRequest t u pa va e.key n sg d, hqueue.trans (by rw [← hcost.die]; rfl), rfl, rfl, Nat.div_one _, rfl, ?_⟩
  have hentry : replyEntryOf t u d lat va = replyEntryOf s u d lat va := by rw [replyEntryOf, hcost.issue, hcost.nextReq]; rfl
  have hat : t.newReq.2.unit? s.issue.me = some u := (congrArg (·[s.issue.me]?) hcost.units).trans hu
  rw [State.unit?, hunits, ← State.unit?, hcost.issue, hentry]
  exact State.unit?_setUnit_self hat

end

/-- Settles O29, route by route. -/
theorem releasesAndOtherTargets : Obligations.ReleasesAndOtherTargets := by
  refine ⟨fun s u va bs pa e blank c ht hr hc _ => storeBytes_release bs ht hr hc, fun s u va pa e blank hu => ⟨fun bs ht => ?_, ?_⟩⟩
  · exact ⟨storeBytes_sync bs ht, storeBytes_window bs ht, storeBytes_outside bs ht⟩
  · exact fun n d lat f sg => loadTo_sync hu n d lat f sg

end Sys2Proof.OutwardAccess
end

section
/-! PROOFS.
LDRO and PFL2 (R107, R125, R126): the read-only path, and a prefetch's request for its line. -/

-- One proof at a time: the check of the whole text has a limit on memory, which many threads would reach.
set_option Elab.async false

namespace Sys2Proof.ReadOnlyPath

open Sys2Proof.Machine Sys2Proof.Safety Sys2Proof.Prompter Sys2Proof.Access Sys2Proof.Sequencer Sys2Proof.DeviceStep
open Sys2Proof.CacheStep Sys2Proof.OutwardAccess

/-! ### A read miss (R296, R297, R325) -/

theorem readMiss_mem {s : State} {line : Nat} {key : BitVec 8} (h : DirUnder s line key) (d : DieNo) (floor ceil : BitVec 3)
    (prefetch : Bool) : (readMiss s d line key floor ceil prefetch).mem = s.mem := by
  rw [readMiss_mem_eq, underKey_of_dirUnder h]

theorem modDie_slice {s : State} {d e : DieNo} {f : Die → Die} {line : Nat}
    (h : sliceLine? (f (s.die d)) line = sliceLine? (s.die d) line) :
    sliceLine? ((s.modDie d f).die e) line = sliceLine? (s.die e) line :=
  (modDie_sameLine h).slice e

theorem forgetLine_slice (s : State) (gone : Nat) (d : DieNo) (line : Nat) :
    sliceLine? ((forgetLine s gone).die d) line = sliceLine? (s.die d) line := by
  unfold forgetLine
  exact foldl_keeps (fun t => sliceLine? (State.die t d) line) (fun t e => modDie_slice rfl) _ _

theorem takeCopy_slice_none {s : State} {line : Nat} {d : DieNo} (h : sliceLine? (s.die d) line = none) (asker : Option DieNo)
    (n : CopyNote) : sliceLine? ((takeCopy s line asker n).die d) line = none := by
  by_cases hd : n.die = d
  · subst hd
    simp only [takeCopy, h]
  · rw [takeCopy_die_other s line asker hd, h]

/-- A collapse enters no line in a slice that has none of it. -/
theorem collapseLine_slice_none {s : State} {line : Nat} {d : DieNo} (h : sliceLine? (s.die d) line = none) :
    sliceLine? ((collapseLine s line).die d) line = none := by
  have hforget : sliceLine? ((forgetLine (countReplicas s line) line).die d) line = none := by
    rw [forgetLine_slice, (countReplicas_sameLine s line line).slice, h]
  have huncached : sliceLine? ((uncached s line none).die d) line = none := by
    unfold uncached
    rw [(modRegion_sameLine ..).slice]
    exact List.foldlRecOn (motive := fun t => sliceLine? (State.die t d) line = none) _ _ hforget
      fun _ ht n _ => takeCopy_slice_none ht none n
  cases hv : heldLine s line with
  | none => rw [collapseLine, collapseFor_of_none hv, huncached]
  | some x =>
    obtain ⟨q, hq⟩ := collapseFor_of_held hv none
    rw [collapseLine, hq, (writeMemLine_sameLine ..).slice, (poison_sameLine ..).slice, huncached]

/-- A miss of a line that the slice does not have enters it as asked for. -/
theorem readMiss_slice {s : State} {d : DieNo} {line : Nat} (h : sliceLine? (s.die d) line = none) (key : BitVec 8)
    (floor ceil : BitVec 3) (prefetch : Bool) :
    ∃ l, sliceLine? ((readMiss s d line key floor ceil prefetch).die d) line = some l ∧ l.st = .isD := by
  have hkey : sliceLine? ((underKey s line key).die d) line = none := by
    unfold underKey
    split
    · split
      · exact collapseLine_slice_none h
      · exact h
    · exact h
  unfold readMiss
  dsimp only
  rw [hkey]
  dsimp only
  rw [die_sendMsg, sliceLine?_setSliceLine _ _ rfl]
  exact ⟨_, rfl, rfl⟩

/-! ### LDRO -/

/-- What a read through the read-only path sees of its line. -/
def readOnlyLine (s : State) (c : ClusterNo) (pa : Nat) (key : BitVec 8) : BitVec 1024 × Bool :=
  match (s.cluster c).roCache.find? fun x => x.line == pa / 128 && x.key == key with
  | some x => (x.data, x.poison)
  | none => belowLine s (dieOf c) (pa / 128) key

theorem roRead_spec (s : State) (c : ClusterNo) (pa : Nat) (key : BitVec 8) (floor ceil : BitVec 3) :
    ∃ arrive t, roRead s c pa key floor ceil = ((readOnlyLine s c pa key).1.extractLsb' (8 * (pa % 128)) 64,
        (readOnlyLine s c pa key).2, arrive, t) ∧
      t.units = s.units ∧ t.issue = s.issue ∧ t.nextReq = s.nextReq ∧ (DirUnder s (pa / 128) key → t.mem = s.mem) := by
  unfold roRead readOnlyLine
  cases hfind : (s.cluster c).roCache.find? fun x => x.line == pa / 128 && x.key == key with
  | some x =>
    dsimp only
    rw [hfind]
    exact ⟨_, _, rfl, rfl, rfl, rfl, fun _ => rfl⟩
  | none =>
    have hmiss : ∃ t, (if sliceServes s (dieOf c) pa 8 key then s else readMiss s (dieOf c) (pa / 128) key floor ceil) = t ∧
        CacheOnly s t ∧ (DirUnder s (pa / 128) key → t.mem = s.mem) := by
      refine ⟨_, rfl, ?_⟩
      split
      · exact ⟨.refl s, fun _ => rfl⟩
      · exact ⟨readMiss_cacheOnly .., fun h => readMiss_mem h ..⟩
    obtain ⟨t, ht, honly, hmem⟩ := hmiss
    dsimp only
    rw [hfind]
    dsimp only
    rw [ht]
    exact ⟨_, _, rfl, honly.units, honly.issue, honly.nextReq, hmem⟩

/-! A charge to a budget changes nothing that an access looks at. -/

theorem translate_contextsOnly {s t : State} (h : ContextsOnly s t) (x : Accessor) (va : Va) (acc : Access) :
    translate t x va acc = translate s x va acc := by
  rw [h.eq]
  rfl

theorem readOnlyLine_contextsOnly {s t : State} (h : ContextsOnly s t) (c : ClusterNo) (pa : Nat) (key : BitVec 8) :
    readOnlyLine t c pa key = readOnlyLine s c pa key := by
  rw [h.eq]
  rfl

theorem dirUnder_contextsOnly {s t : State} (h : ContextsOnly s t) {line : Nat} {key : BitVec 8} (hs : DirUnder s line key) :
    DirUnder t line key := by
  rw [h.eq]
  exact hs

section
variable {s : State} {u : UnitSt} {d b : BitVec 6} {w : BitVec 2} {o : BitVec 10} {pa : Nat} {e : TlbEntry} {blank : Bool}

theorem execLdro_cached (hu : AtIssue s u) (hn : NoHazard u [.scalar b] [(.scalar d, landing u s.issue.lend.toNat)])
    (hr : Reaches s u (memVa u b w o.toInt 8) 8 .read false (d != 0) pa e false) (hc : routeOf pa e = .cached) :
    ∃ t arrive, execLdro d b w o s = .next (done t) ∧
      t.unit? s.issue.me = some (u.push (loadEntryOf s u (.scalar d) (landing u s.issue.lend.toNat) (memVa u b w o.toInt 8)
        (((readOnlyLine s u.ident.cluster pa e.key).1.extractLsb' (8 * (pa % 128)) 64).setWidth 512) arrive
        (readOnlyLine s u.ident.cluster pa e.key).2 (rereadOf s pa 8 e false false true))) ∧
      (HeldUnder s u.ident.cluster (pa / 128) e.key → t.mem = s.mem) := by
  have hcost := costsTake_contextsOnly s u.ident.asid (slotKey s) (accessCost s u pa 8 .read e)
  rw [execLdro, runSlotW_done hu ((firstFail_stallCheck_append hn _).trans (firstFail_accessChecks hr))]
  simp only [paOf_ok hr.translated, hc, if_true]
  generalize costsTake s u.ident.asid (slotKey s) (accessCost s u pa 8 .read e) = v at hcost ⊢
  obtain ⟨arrive, t, hread, hunits, hissue, hreq, hmem⟩ := roRead_spec v u.ident.cluster pa e.key e.rfloor e.rceil
  have hblank : blankAt v u (memVa u b w o.toInt 8) = false := by
    rw [blankAt, translate_contextsOnly hcost, hr.translated]
  have hme : t.issue = s.issue := hissue.trans hcost.issue
  have hat : t.newReq.2.unit? s.issue.me = some u := (congrArg (·[s.issue.me]?) (hunits.trans hcost.units)).trans hu
  rw [readOnlyLine_contextsOnly hcost] at hread
  simp only [hblank, hread, Bool.false_eq_true, if_false, loadEntry]
  refine ⟨_, arrive, rfl, ?_, fun hheld => (hmem (dirUnder_contextsOnly hcost hheld.2)).trans hcost.mem⟩
  have hagain : rereadOf t pa 8 e false false true = rereadOf s pa 8 e false false true := by rw [rereadOf, hme, rereadOf]
  have hid : t.newReq.1 = s.nextReq := hreq.trans hcost.nextReq
  have hme' : t.newReq.2.issue = s.issue := hme
  rw [hagain, hid, hme', mkEntry, hme', hme]
  exact State.unit?_setUnit_self hat

theorem execLdro_other (hu : AtIssue s u) (hn : NoHazard u [.scalar b] [(.scalar d, landing u s.issue.lend.toNat)])
    (hr : Reaches s u (memVa u b w o.toInt 8) 8 .read false (d != 0) pa e false) (hc : routeOf pa e ≠ .cached) :
    execLdro d b w o s = .next (done (loadTo s u (memVa u b w o.toInt 8) 8 1 (.scalar d) (landing u s.issue.lend.toNat)
      (fun bs => (loaded 8 false bs).setWidth 512) false none)) := by
  rw [execLdro, runSlotW_done hu ((firstFail_stallCheck_append hn _).trans (firstFail_accessChecks hr))]
  simp only [paOf_ok hr.translated, hc, if_false]
  rfl

/-! ### PFL2 -/

/-- The checks of a prefetch whose address needs no walk pass. -/
theorem pfl2Checks_done (hl : Unlent s) (hn : NoHazard u [.scalar b] []) (ht : translate s u.accessor (prefetchVa u b w o) .read ≠ .walk) :
    firstFail [noLend s u, stallCheck u [.scalar b] [],
      match translate s u.accessor (prefetchVa u b w o) .read with
      | .walk => .hold .walk
      | _ => .done] = .done := by
  have hwalk : (match translate s u.accessor (prefetchVa u b w o) .read with
      | .walk => SlotResult.hold .walk
      | _ => .done) = .done := by
    split
    · contradiction
    · rfl
  rw [hwalk]
  exact firstFail_unlent_append hl hn [.done]

theorem execPfl2_fault (hu : AtIssue s u) (hl : Unlent s) (hn : NoHazard u [.scalar b] []) {c : BitVec 8} {a : Va}
    (ht : translate s u.accessor (prefetchVa u b w o) .read = .fault c a) :
    ∃ t, execPfl2 b w o s = .next (done t) ∧ t.units = s.units ∧ t.mem = s.mem := by
  rw [execPfl2, runSlotW_done hu (pfl2Checks_done hl hn (by rw [ht]; nofun))]
  simp only [ht]
  exact ⟨_, rfl, rfl, rfl⟩

theorem execPfl2_cached (hu : AtIssue s u) (hl : Unlent s) (hn : NoHazard u [.scalar b] [])
    (ht : translate s u.accessor (prefetchVa u b w o) .read = .ok pa e blank) (hc : routeOf pa e = .cached) :
    ∃ t, execPfl2 b w o s = .next (done t) ∧ t.units = s.units ∧
      (HeldUnder s u.ident.cluster (pa / 128) e.key → t.mem = s.mem) ∧
      (sliceLine? (s.die (dieOf u.ident.cluster)) (pa / 128) = none →
        ∃ l, sliceLine? (t.die (dieOf u.ident.cluster)) (pa / 128) = some l ∧ l.st = .isD) := by
  have hcost := costsTake_contextsOnly s u.ident.asid (slotKey s) (lineCost s u.ident.cluster (pa / 128 * 128) 128 e.key)
  rw [execPfl2, runSlotW_done hu (pfl2Checks_done hl hn (by rw [ht]; nofun))]
  simp only [ht, hc, if_true]
  generalize costsTake s u.ident.asid (slotKey s) (lineCost s u.ident.cluster (pa / 128 * 128) 128 e.key) = v at hcost ⊢
  refine ⟨_, rfl, ?_, fun hheld => ?_, fun hnone => ?_⟩
  · split
    · exact hcost.units
    · exact (readMiss_cacheOnly ..).units.trans hcost.units
  · split
    · exact hcost.mem
    · exact (readMiss_mem (dirUnder_contextsOnly hcost hheld.2) ..).trans hcost.mem
  · rw [← hcost.die] at hnone
    have hserves : sliceServes v (dieOf u.ident.cluster) (pa / 128 * 128) 128 e.key = false := by
      rw [sliceServes, Nat.mul_div_cancel _ (by decide), hnone]
    rw [hserves]
    exact readMiss_slice hnone ..

theorem execPfl2_other (hu : AtIssue s u) (hl : Unlent s) (hn : NoHazard u [.scalar b] [])
    (ht : translate s u.accessor (prefetchVa u b w o) .read = .ok pa e blank) (hc : routeOf pa e ≠ .cached) :
    execPfl2 b w o s = .next (done s) := by
  rw [execPfl2, runSlotW_done hu (pfl2Checks_done hl hn (by rw [ht]; nofun))]
  simp only [ht, hc, if_false]

end

/-- Settles O26, by the route of the access. -/
theorem readOnlyAndPrefetch : Obligations.ReadOnlyAndPrefetch := by
  refine ⟨fun s u d b w o pa e hu hn hr => ⟨fun hc => ?_, fun hc => ?_⟩, fun s u b w o hu hl hn => ⟨?_, ?_, ?_⟩⟩
  · exact execLdro_cached hu hn hr hc
  · exact execLdro_other hu hn hr hc
  · exact fun c a ht => execPfl2_fault hu hl hn ht
  · exact fun pa e blank ht hc => execPfl2_cached hu hl hn ht hc
  · exact fun pa e blank ht hc => execPfl2_other hu hl hn ht hc

end Sys2Proof.ReadOnlyPath
end

section
/-! PROOFS.
FENCE, L1FLUSH, L1INV, REPMARK and VALSET (R116, R120, R121, R356, R376). -/

-- One proof at a time: the check of the whole text has a limit on memory, which many threads would reach.
set_option Elab.async false

namespace Sys2Proof.Fences

open Sys2Proof.Machine Sys2Proof.Safety Sys2Proof.Sequencer Sys2Proof.DeviceStep Sys2Proof.CacheStep Sys2Proof.OutwardAccess

/-! ### The release and the acquire of a fence -/

/-- What startRelease changes: a flush, and one release more. -/
theorem startRelease_spec (s : State) (uid : Uid) (c : ClusterNo) (scope : BitVec 2) (p : RelPayload) :
    ∃ t r, CacheOnly s t ∧ (CacheUnder s c → t.mem = s.mem) ∧
      startRelease s uid c scope p = t.newReq.2.modCluster c (fun k => { k with rels := k.rels ++ [r] }) ∧
      r.uid = uid ∧ r.payload = p ∧ r.system = (scope == 3) ∧ r.scope = scope := by
  have hflush : CacheOnly s (if scope != 0 && canRelease s c then flushDie s c else s) ∧
      (CacheUnder s c → (if scope != 0 && canRelease s c then flushDie s c else s).mem = s.mem) := by
    split
    · exact ⟨flushDie_cacheOnly s c, flushDie_mem⟩
    · exact ⟨.refl s, fun _ => rfl⟩
  unfold startRelease
  dsimp only
  generalize (if scope != 0 && canRelease s c then flushDie s c else s) = t at hflush ⊢
  exact ⟨t, _, hflush.1, hflush.2, rfl, rfl, rfl, rfl, rfl⟩

/-- Requests whose replies a unit awaits are no matter of a flush. -/
theorem readsPending_congr {s t : State} {c : ClusterNo} (hd : ∀ d, (t.die d).sync = (s.die d).sync)
    (hr : heldReqs (t.cluster c) = heldReqs (s.cluster c)) (uid : Uid) : readsPending t uid c = readsPending s uid c := by
  simp only [readsPending, hr, hd]

/-- What an acquire leaves and what it drops. -/
theorem acquireAt_spec {s : State} {uid : Uid} {u : UnitSt} (hu : s.unit? uid = some u) (c : ClusterNo) (scope : BitVec 2) :
    (acquireAt s uid c scope).mem = s.mem ∧
      (∃ v, (acquireAt s uid c scope).unit? uid = some v ∧ v.regs = u.regs ∧ v.pend = u.pend) ∧
      ((acquireAt s uid c scope).cluster c).rels = (s.cluster c).rels ∧ ((acquireAt s uid c scope).cluster c).roCache = [] ∧
      (scope ≠ 0 → ∀ l ∈ ((acquireAt s uid c scope).cluster c).cache, l.dirty ≠ 0) := by
  unfold acquireAt
  dsimp only
  split
  · next h0 =>
    refine ⟨rfl, ⟨u, hu, rfl, rfl⟩, ?_, ?_, fun hs => absurd h0 hs⟩ <;> rw [State.cluster_modCluster_self]
  · refine ⟨rfl, ⟨_, State.unit?_modUnit_self hu, rfl, rfl⟩, ?_, ?_, fun _ l hl => ?_⟩
    · rw [State.cluster_modUnit, invalidate, State.cluster_modCluster_self]
    · rw [State.cluster_modUnit, invalidate, State.cluster_modCluster_self]
    · rw [State.cluster_modUnit, invalidate, State.cluster_modCluster_self] at hl
      simp only [Bool.false_eq_true, if_false, List.mem_map, List.mem_filter, bne_iff_ne] at hl
      obtain ⟨l', ⟨-, hd⟩, rfl⟩ := hl
      exact hd

/-- The state of a fence once its release is entered, before its acquire. -/
def fenceReleased (s : State) (k : ClusterNo) (c o : BitVec 2) : State :=
  if ordRel o && releases s s.issue.me k c then startRelease s s.issue.me k c (if o = 3 then .fence else .none) else s

theorem fenceReleased_spec (s : State) (k : ClusterNo) (c o : BitVec 2) :
    (CacheUnder s k → (fenceReleased s k c o).mem = s.mem) ∧ (fenceReleased s k c o).units = s.units ∧
      (fenceReleased s k c o).issue = s.issue ∧ ((fenceReleased s k c o).cluster k).roCache = (s.cluster k).roCache ∧
      readsPending (fenceReleased s k c o) s.issue.me k = readsPending s s.issue.me k ∧
      (ordRel o = true → releases s s.issue.me k c = true → ∃ r, ((fenceReleased s k c o).cluster k).rels = (s.cluster k).rels ++ [r] ∧
        r.uid = s.issue.me ∧ r.system = (c == 3) ∧ r.scope = c ∧ r.payload = (if o = 3 then .fence else .none)) ∧
      (ordRel o = false ∨ releases s s.issue.me k c = false → ((fenceReleased s k c o).cluster k).rels = (s.cluster k).rels) := by
  unfold fenceReleased
  cases hrel : ordRel o && releases s s.issue.me k c with
  | false =>
    rw [if_neg Bool.false_ne_true]
    refine ⟨fun _ => rfl, rfl, rfl, rfl, rfl, fun ho hr => ?_, fun _ => rfl⟩
    rw [ho, hr] at hrel
    cases hrel
  | true =>
    obtain ⟨ho, hr⟩ := Bool.and_eq_true_iff.mp hrel
    obtain ⟨t, r, honly, hmem, ht, huid, hpayload, hsystem, hscope⟩ :=
      startRelease_spec s s.issue.me k c (if o = 3 then .fence else .none)
    have hrels : ((startRelease s s.issue.me k c (if o = 3 then .fence else .none)).cluster k).rels = (s.cluster k).rels ++ [r] := by
      rw [ht, State.cluster_modCluster_self, ← honly.rels k]
      rfl
    rw [if_pos rfl]
    refine ⟨fun h => ?_, ?_, ?_, ?_, ?_, fun _ _ => ⟨r, hrels, huid, hsystem, hscope, hpayload⟩, fun hno => ?_⟩
    · rw [ht]
      exact hmem h
    · rw [ht]
      exact honly.units
    · rw [ht]
      exact honly.issue
    · rw [ht, State.cluster_modCluster_self]
      exact honly.roCache k
    · refine readsPending_congr (fun d => ?_) ?_ _
      · rw [ht]
        exact honly.sync d
      · rw [heldReqs, hrels, List.filterMap_append, heldReqs]
        by_cases h3 : o = 3
        · rw [if_pos h3] at hpayload
          simp [hpayload]
        · rw [if_neg h3] at hpayload
          simp [hpayload]
    · rw [ho, hr] at hno
      simp at hno

section
variable {s : State} {u : UnitSt} {c o : BitVec 2}

theorem execFence_done (hu : AtIssue s u) (hl : Unlent s) (hm : memHold s s.issue.me u = .done)
    (hp : ordAcq o = true → readsPending s s.issue.me u.ident.cluster = false) :
    execFence c o s = .next (done (if ordAcq o then acquireAt (fenceReleased s u.ident.cluster c o) s.issue.me u.ident.cluster c
      else fenceReleased s u.ident.cluster c o)) := by
  obtain ⟨-, -, hissue, -, hpending, -⟩ := fenceReleased_spec s u.ident.cluster c o
  have hchk : firstFail [noLend s u, memHold s s.issue.me u,
      if ordAcq o && !s.issue.ready && readsPending s s.issue.me u.ident.cluster then .hold .acquire else .done] = .done := by
    rw [noLend_of_unlent hl, hm]
    cases ho : ordAcq o with
    | false => rfl
    | true =>
      rw [hp ho]
      simp
  rw [execFence, runSlotW_done hu hchk]
  have hfold : (if ordRel o && releases s s.issue.me u.ident.cluster c then
      startRelease s s.issue.me u.ident.cluster c (if o = 3 then .fence else .none) else s) =
        fenceReleased s u.ident.cluster c o := rfl
  have hnone : (ordAcq o && readsPending (fenceReleased s u.ident.cluster c o) s.issue.me u.ident.cluster) = false := by
    rw [hpending]
    cases ho : ordAcq o with
    | false => rfl
    | true => exact hp ho
  simp only [hfold, hissue, hnone, Bool.false_eq_true, if_false]

/-- What a fence whose checks pass does. -/
theorem execFence_spec (hu : AtIssue s u) (hl : Unlent s) (hm : memHold s s.issue.me u = .done)
    (hp : ordAcq o = true → readsPending s s.issue.me u.ident.cluster = false) :
    ∃ t v, execFence c o s = .next (done t) ∧ (CacheUnder s u.ident.cluster → t.mem = s.mem) ∧ t.unit? s.issue.me = some v ∧
      v.regs = u.regs ∧ v.pend = u.pend ∧
      (ordRel o = true → releases s s.issue.me u.ident.cluster c = true → ∃ r,
        (t.cluster u.ident.cluster).rels = (s.cluster u.ident.cluster).rels ++ [r] ∧ r.uid = s.issue.me ∧
        r.system = (c == 3) ∧ r.scope = c ∧ r.payload = (if o = 3 then .fence else .none)) ∧
      (ordRel o = false ∨ releases s s.issue.me u.ident.cluster c = false →
        (t.cluster u.ident.cluster).rels = (s.cluster u.ident.cluster).rels) ∧
      (c ≠ 0 → releases s s.issue.me u.ident.cluster c = true) ∧
      (ordAcq o = true → (t.cluster u.ident.cluster).roCache = [] ∧
        (c ≠ 0 → ∀ l ∈ (t.cluster u.ident.cluster).cache, l.dirty ≠ 0)) ∧
      (ordAcq o = false → t.units = s.units ∧ (t.cluster u.ident.cluster).roCache = (s.cluster u.ident.cluster).roCache) := by
  have hwide : c ≠ 0 → releases s s.issue.me u.ident.cluster c = true := fun hc => by
    rw [releases, bne_iff_ne.mpr hc, Bool.true_or]
  obtain ⟨hmem, hunits, hissue, hro, -, hrel, hnone⟩ := fenceReleased_spec s u.ident.cluster c o
  rw [execFence_done hu hl hm hp]
  cases ho : ordAcq o with
  | false =>
    exact ⟨_, u, rfl, hmem, (congrArg (·[s.issue.me]?) hunits).trans hu, rfl, rfl, hrel, hnone, hwide, nofun,
      fun _ => ⟨hunits, hro⟩⟩
  | true =>
    have hat : (fenceReleased s u.ident.cluster c o).unit? s.issue.me = some u := (congrArg (·[s.issue.me]?) hunits).trans hu
    obtain ⟨hmem', ⟨v, hv, hregs, hpend⟩, hrels, hempty, hclean⟩ := acquireAt_spec hat u.ident.cluster c
    refine ⟨_, v, rfl, fun h => hmem'.trans (hmem h), hv, hregs, hpend, fun hr hr' => ?_, fun hno => hrels.trans (hnone hno), hwide,
      fun _ => ⟨hempty, hclean⟩, nofun⟩
    obtain ⟨r, hr, hfields⟩ := hrel hr hr'
    exact ⟨r, hrels.trans hr, hfields⟩

/-! ### L1FLUSH and L1INV -/

theorem heldBytes_nil {k : Cluster} (h : k.rels = []) (line : Nat) : heldBytes k line = 0 := by rw [heldBytes, h]; rfl

/-- What a background operation that starts leaves: a flush, and its record. -/
theorem startL1_spec (s : State) (u : UnitSt) (c : BitVec 2) (inval : Bool) (hr : c ≠ 0 → (s.cluster u.ident.cluster).rels = []) :
    (startL1 s u c inval).units = s.units ∧ (CacheUnder s u.ident.cluster → (startL1 s u c inval).mem = s.mem) ∧
      (∃ op, ((startL1 s u c inval).cluster u.ident.cluster).l1op = some op ∧ op.scope = c ∧ op.flushed = true ∧
        op.inval = (inval && c != 0) ∧ op.invalRo = inval ∧ (c.toNat < 2 → op.lines = [])) ∧
      (c ≠ 0 → ∀ l ∈ ((startL1 s u c inval).cluster u.ident.cluster).cache, l.dirty = 0) := by
  have hfirst : c ≠ 0 → canRelease s u.ident.cluster = true := fun hc => by rw [canRelease, hr hc]; rfl
  have hflushed : (c == 0 || canRelease s u.ident.cluster) = true := by
    by_cases hc : c = 0
    · rw [hc]
      rfl
    · rw [hfirst hc, Bool.or_true]
  have hflush : CacheOnly s (if c != 0 && canRelease s u.ident.cluster then flushDie s u.ident.cluster else s) ∧
      (CacheUnder s u.ident.cluster → (if c != 0 && canRelease s u.ident.cluster then flushDie s u.ident.cluster else s).mem = s.mem) ∧
      (c ≠ 0 → ∀ l ∈ ((if c != 0 && canRelease s u.ident.cluster then flushDie s u.ident.cluster else s).cluster u.ident.cluster).cache,
        l.dirty = 0) := by
    by_cases hc : c = 0
    · rw [if_neg (by simp [hc])]
      exact ⟨.refl s, fun _ => rfl, fun h => absurd hc h⟩
    · rw [if_pos (by rw [bne_iff_ne.mpr hc, hfirst hc]; rfl)]
      refine ⟨flushDie_cacheOnly .., flushDie_mem, fun _ l hl => ?_⟩
      rw [flushDie_cache] at hl
      obtain ⟨l', -, rfl⟩ := List.mem_map.mp hl
      simp [heldBytes_nil (hr hc)]
  unfold startL1
  dsimp only
  generalize (if c != 0 && canRelease s u.ident.cluster then flushDie s u.ident.cluster else s) = t at hflush ⊢
  obtain ⟨honly, hmem, hclean⟩ := hflush
  refine ⟨honly.units, hmem, ⟨_, by rw [State.cluster_modCluster_self], rfl, hflushed, rfl, rfl, fun hc => ?_⟩, fun hc l hl => ?_⟩
  · simp only [scopeLines, if_pos hc, ite_self]
  · rw [State.cluster_modCluster_self] at hl
    exact hclean hc l hl

theorem l1Checks_done (hl : Unlent s) (h : (s.cluster u.ident.cluster).l1op = none) : l1Checks s u = .done := by
  rw [l1Checks, noLend_of_unlent hl, h]
  rfl

theorem l1Checks_hold (hl : Unlent s) (h : (s.cluster u.ident.cluster).l1op ≠ none) : l1Checks s u = .hold .l1op := by
  rw [l1Checks, noLend_of_unlent hl, Option.isSome_iff_ne_none.mpr h]
  rfl

theorem execL1flush_done (hu : AtIssue s u) (hl : Unlent s) (h : (s.cluster u.ident.cluster).l1op = none) :
    exec (.l1flush c) s = .next (done (if c = 0 then s else startL1 s u c false)) := by
  rw [exec_l1flush, execL1flush, runSlot_done hu (l1Checks_done hl h)]

theorem execL1inv_done (hu : AtIssue s u) (hl : Unlent s) (h : (s.cluster u.ident.cluster).l1op = none) :
    exec (.l1inv c) s = .next (done (startL1 s u c true)) := by
  rw [exec_l1inv, execL1inv, runSlot_done hu (l1Checks_done hl h)]

theorem execL1_hold (hu : AtIssue s u) (hl : Unlent s) (h : (s.cluster u.ident.cluster).l1op ≠ none) :
    exec (.l1flush c) s = .next (noteResult s (.hold .l1op)) ∧ exec (.l1inv c) s = .next (noteResult s (.hold .l1op)) := by
  constructor
  · rw [exec_l1flush, execL1flush, runSlot_hold hu (l1Checks_hold hl h)]
  · rw [exec_l1inv, execL1inv, runSlot_hold hu (l1Checks_hold hl h)]

/-! ### REPMARK -/

section
variable {a : BitVec 6} {n : BitVec 10} {x : Context}

theorem markAgrees_of_live (hx : s.ctx? u.ident.asid = some x) (hr : x.replay = false) (v : Word) : markAgrees s u n v = true := by
  simp only [markAgrees, hx, hr, Bool.not_false, Bool.true_or]

theorem execRepmark_off (hu : AtIssue s u) (hl : Unlent s) (hn : NoHazard u [.scalar a] []) (hx : s.ctx? u.ident.asid = some x)
    (hr : x.replay = false) (hrec : x.recording = false) : execRepmark a n s = .next (done s) := by
  rw [execRepmark, runSlotW_done hu]
  · simp only [hx, hrec, Bool.false_eq_true, if_false]
  · simp only [hx, hrec, markAgrees_of_live hx hr, noLend_of_unlent hl, Bool.false_and, Bool.false_eq_true, if_false, if_true,
      firstFail_done]
    exact firstFail_stallCheck hn _

theorem modCtx_budgets {s : State} {a b : BitVec 16} {x : Context} {f : Context → Context}
    (hf : ∀ k, ∃ bs, f k = { k with budgets := bs }) (h : s.ctx? b = some x) :
    ∃ bs, (s.modCtx a f).ctx? b = some { x with budgets := bs } := by
  rw [Freezes.ctx?_modCtx fun k => by obtain ⟨bs, hbs⟩ := hf k; rw [hbs]]
  by_cases hb : b = a
  · subst hb
    obtain ⟨bs, hbs⟩ := hf x
    exact ⟨bs, by rw [if_pos rfl, h, Option.map_some, hbs]⟩
  · exact ⟨x.budgets, by rw [if_neg hb, h]⟩

/-- A charge leaves of a context all but its budgets. -/
theorem costsTake_ctx? {s : State} {b : BitVec 16} {x : Context} (h : s.ctx? b = some x) (a : BitVec 16) (key : Nat)
    (l : List (Nat × Nat)) : ∃ bs, (costsTake s a key l).ctx? b = some { x with budgets := bs } := by
  unfold costsTake
  induction l generalizing s x with
  | nil => exact ⟨_, h⟩
  | cons y l ih =>
    have hcharge : ∃ bs, (budgetTake s a y.1 key y.2).ctx? b = some { x with budgets := bs } := by
      unfold budgetTake modBudget
      exact modCtx_budgets (fun k => ⟨_, rfl⟩) h
    obtain ⟨bs, hbs⟩ := hcharge
    obtain ⟨bs', hbs'⟩ := ih hbs
    exact ⟨bs', hbs'⟩

/-- An event recorded of a unit whose context records. -/
theorem recordEvent_ctx? {s : State} {i : Uid} {u : UnitSt} {x : Context} (hu : s.unit? i = some u)
    (hx : s.ctx? u.ident.asid = some x) (hrec : x.recording = true) (kind : RecKind) (tag : Nat) (v : Word) :
    (recordEvent s i kind tag v).ctx? u.ident.asid = some { x with recorder := x.recorder ++ [recEntry s u kind tag v] } := by
  simp only [recordEvent, hu]
  refine (Freezes.ctx?_modCtx (fun k => by split <;> rfl) _ _ _).trans ?_
  rw [if_pos rfl, hx, Option.map_some, if_pos hrec]

theorem execRepmark_on (hu : AtIssue s u) (hl : Unlent s) (hn : NoHazard u [.scalar a] []) (hx : s.ctx? u.ident.asid = some x)
    (hr : x.replay = false) (hrec : x.recording = true) (hroom : ringRoom s x recorderRing = true)
    (hopen : budgetOpen s u.ident.asid bCrossbar (slotKey s) = true) :
    ∃ t y, execRepmark a n s = .next (done t) ∧ t.units = s.units ∧ t.mem = s.mem ∧ t.ctx? u.ident.asid = some y ∧
      y.recorder = x.recorder ++ [⟨.repmark, serialOf s u, u.ident.index, u.run.bundles, n.toNat, u.reg a, none⟩] := by
  obtain ⟨bs, hbs⟩ := costsTake_ctx? hx u.ident.asid (slotKey s) [(bCrossbar, 1)]
  have hcost := costsTake_contextsOnly s u.ident.asid (slotKey s) [(bCrossbar, 1)]
  have hopen' : costsOpen s u.ident.asid (slotKey s) [(bCrossbar, 1)] = true := by simp [costsOpen, hopen]
  rw [execRepmark, runSlotW_done hu]
  · simp only [hx, hrec, if_true]
    generalize costsTake s u.ident.asid (slotKey s) [(bCrossbar, 1)] = t at hbs hcost ⊢
    have hat : t.unit? s.issue.me = some u := (congrArg (·[s.issue.me]?) hcost.units).trans hu
    have hserial : serialOf t u = serialOf s u := by
      rw [hcost.eq]
      rfl
    obtain ⟨h, hh, -⟩ := Freezes.recordEvent_eq t s.issue.me .repmark n.toNat (u.reg a) none
    refine ⟨_, _, rfl, ?_, ?_, recordEvent_ctx? hat hbs hrec .repmark n.toNat (u.reg a), ?_⟩
    · rw [hh]
      exact hcost.units
    · rw [hh]
      exact hcost.mem
    · rw [recEntry, hserial]
  · simp only [hx, hrec, hroom, hopen', markAgrees_of_live hx hr, noLend_of_unlent hl, Bool.not_true, Bool.and_false,
      Bool.false_eq_true, if_false, if_true, firstFail_done]
    exact firstFail_stallCheck hn _

end

/-! ### VALSET -/

section
variable {b : BitVec 6} {w : BitVec 2} {pa : Nat} {e : TlbEntry} {blank : Bool} {i : Nat}

/-- A VALSET at a buffer's base posts its values. -/
theorem valsetSlot_done {srcs : List Dest} {chk : State → UnitSt → SlotResult} {vals : State → UnitSt → Bool × Bool × BitVec 5 × BitVec 64}
    (hu : AtIssue s u) (hl : Unlent s) (hn : NoHazard u (.scalar b :: srcs) []) (hc : chk s u = .done)
    (ht : translate s u.accessor (u.windowVa w (u.reg b)) .write = .ok pa e blank)
    (hb : bufAtBase s u.ident.asid (u.windowVa w (u.reg b)) = some i)
    (ho : budgetOpen s u.ident.asid bCrossbar (slotKey s) = true) :
    ∃ t, valsetSlot b w srcs chk vals s = .next (done t) ∧ t.units = s.units ∧ t.mem = s.mem ∧
      t.hub.walk.valsets = s.hub.walk.valsets ++
        [⟨s.issue.me, i, u.curt.inentry, (vals s u).1, (vals s u).2.1, (vals s u).2.2.1, (vals s u).2.2.2⟩] := by
  have hcost := costsTake_contextsOnly s u.ident.asid (slotKey s) [(bCrossbar, 1)]
  have hopen : costsOpen s u.ident.asid (slotKey s) [(bCrossbar, 1)] = true := by simp [costsOpen, ho]
  rw [valsetSlot, runSlotW_done hu]
  · simp only [hb]
    refine ⟨_, rfl, hcost.units, hcost.mem, ?_⟩
    rw [State.modWalk_hub, hcost.eq]
  · simp only [noLend_of_unlent hl, hc, Access.pageCheck_ok ht, hb, Option.isNone_some, failIf_false, hopen, if_true, firstFail_done]
    exact firstFail_stallCheck hn _

end

end

/-- Settles O43: each by its checks and its effect; a flush writes no memory where no line is held under another key slot. -/
theorem fencesAndCaches : Obligations.FencesAndCaches := by
  refine ⟨fun s u c o hu hl hm hp => execFence_spec hu hl hm hp, fun s u hu hl => ⟨fun c hop hrels => ⟨?_, ?_⟩, fun c hop => execL1_hold hu hl hop,
    fun a n x hn hx hr => ⟨fun hrec => ?_, fun hrec hroom hopen => ?_⟩, fun b w pa e blank i ht hb ho => ⟨?_, ?_⟩⟩⟩
  · intro hc
    rw [execL1flush_done hu hl hop, if_pos hc]
  · intro i hi hwide
    simp only [List.mem_cons, List.not_mem_nil, or_false] at hi
    rcases hi with rfl | rfl
    · have hc : c ≠ 0 := by simpa using hwide
      obtain ⟨hunits, hmem, ⟨op, hl1, hscope, hflushed, hinval, hro, hlines⟩, hclean⟩ := startL1_spec s u c false hrels
      refine ⟨startL1 s u c false, op, ?_, hunits, hmem, hl1, hscope, hflushed, ?_, ?_, hlines, hclean⟩
      · rw [execL1flush_done hu hl hop, if_neg hc]
      · simpa using hinval
      · simpa using hro
    · obtain ⟨hunits, hmem, ⟨op, hl1, hscope, hflushed, hinval, hro, hlines⟩, hclean⟩ := startL1_spec s u c true hrels
      refine ⟨startL1 s u c true, op, execL1inv_done hu hl hop, hunits, hmem, hl1, hscope, hflushed, ?_, ?_, hlines, hclean⟩
      · simpa using hinval
      · simpa using hro
  · exact execRepmark_off hu hl hn hx hr hrec
  · exact execRepmark_on hu hl hn hx hr hrec hroom hopen
  · intro v kc n x hn
    exact valsetSlot_done (chk := fun _ _ => .done) (vals := fun _ u => (n == 1, x == 1, kc, valsetBound (x == 1) (u.reg v)))
      hu hl hn rfl ht hb ho
  · intro hn hp howns
    obtain ⟨t, hexec, hunits, hmem, hsent⟩ := valsetSlot_done
      (chk := fun s u => arrayIf u (u.isPrompter || !launchOwnsArray s u))
      (vals := fun s u =>
        ((arrayOf s u.ident.cluster).set.bind CheckSet.kc |>.isNone,
          (match (arrayOf s u.ident.cluster).set with | some x => x.mode == 3 | none => false),
          BitVec.ofNat 5 (((arrayOf s u.ident.cluster).set.bind CheckSet.kc).getD 0), snapBound (arrayOf s u.ident.cluster)))
      hu hl hn (by simp [arrayIf, hp, howns]) ht hb ho
    exact ⟨t, _, hexec, hunits, hmem, hsent, rfl, rfl, rfl⟩

end Sys2Proof.Fences
end

section
/-! PROOFS.
The directory's requests (R302 to R305) and the walks (R319 to R323): what they leave of the machine. -/

-- One proof at a time: the check of the whole text has a limit on memory, which many threads would reach.
set_option Elab.async false

namespace Sys2Proof.Walks

open Sys2Proof.Machine Sys2Proof.Safety Sys2Proof.DeviceStep Sys2Proof.CacheStep Sys2Proof.OutwardAccess

/-! ### What the directory's own work can change -/

/-- The states differ in the dies' slices, their links, redirects and counters, and in the directory alone. -/
structure NetOnly (s t : State) : Prop where
  eq : t = { s with dies := t.dies, hub := { s.hub with dir := t.hub.dir } }
  die : ∀ d, t.die d = { s.die d with lines := (t.die d).lines, link := (t.die d).link, redirects := (t.die d).redirects,
                                      counters := (t.die d).counters }

namespace NetOnly

variable {s t v : State}

theorem refl (s : State) : NetOnly s s := ⟨rfl, fun _ => rfl⟩

theorem trans (h₁ : NetOnly s t) (h₂ : NetOnly t v) : NetOnly s v := by
  refine ⟨?_, fun d => ?_⟩
  · rw [h₂.eq, h₁.eq]
  · rw [h₂.die, h₁.die]

theorem foldl {α : Type} {f : State → α → State} (h : ∀ s x, NetOnly s (f s x)) (l : List α) (s : State) : NetOnly s (l.foldl f s) := by
  induction l generalizing s with
  | nil => exact refl s
  | cons x l ih => exact (h s x).trans (ih (f s x))

theorem ite {c : Prop} [Decidable c] (ht : NetOnly s t) (hv : NetOnly s v) : NetOnly s (if c then t else v) := by
  split
  · exact ht
  · exact hv

theorem mem (h : NetOnly s t) : t.mem = s.mem := by rw [h.eq]
theorem units (h : NetOnly s t) : t.units = s.units := by rw [h.eq]

theorem device (h : NetOnly s t) : DeviceOnly s t := by
  refine ⟨?_, h.die⟩
  rw [h.eq]

theorem cacheOnly (h : NetOnly s t) : CacheOnly s t := .of_mem h.device h.mem

end NetOnly

theorem modDir_netOnly (s : State) (f : Directory → Directory) : NetOnly s (s.modDir f) := ⟨rfl, fun _ => rfl⟩

theorem modDie_netOnly (s : State) (d : DieNo) {f : Die → Die}
    (hf : ∀ x, f x = { x with lines := (f x).lines, link := (f x).link, redirects := (f x).redirects, counters := (f x).counters }) :
    NetOnly s (s.modDie d f) :=
  ⟨rfl, (modDie_deviceOnly s d hf).die⟩

theorem sendMsg_netOnly (s : State) (m : Msg) : NetOnly s (sendMsg s m) := modDir_netOnly s _

theorem setEntry_netOnly (s : State) (e : DirEntry) : NetOnly s (setEntry s e) := modDir_netOnly s _

theorem modRegion_netOnly (s : State) (line : Nat) (f : Region → Region) : NetOnly s (modRegion s line f) := modDir_netOnly s _

theorem countEvent_netOnly (s : State) (line : Nat) (dies : List DieNo) (k : CounterKind) :
    NetOnly s (countEvent s line dies k) := by
  unfold countEvent countRegion
  exact (modRegion_netOnly s line _).trans (.foldl (f := fun s d => countDie s d k) (fun s d => modDie_netOnly s d fun _ => rfl) dies _)

theorem setDegree_netOnly (s : State) (line : Nat) (r : DieNo) (d : BitVec 3) : NetOnly s (setDegree s line r d) := by
  unfold setDegree
  split
  · split
    · exact .refl s
    · exact (modRegion_netOnly ..).trans (countEvent_netOnly ..)
  · exact .refl s

theorem applyHints_netOnly (s : State) (line : Nat) (r : DieNo) (floor ceil : BitVec 3) : NetOnly s (applyHints s line r floor ceil) := by
  have hnew : ∀ fl, NetOnly s (match region? s line with
      | some _ => s
      | none => s.modDir fun d => { d with regions := regionInsert d.regions (Region.fresh (regionOf line) fl) }) := by
    intro fl
    split
    · exact .refl s
    · exact modDir_netOnly s _
  unfold applyHints
  dsimp only
  split
  · exact ((hnew _).trans (modRegion_netOnly ..)).trans (setDegree_netOnly ..)
  · exact (hnew _).trans (modRegion_netOnly ..)

theorem trimReplicas_netOnly {s t : State} {e : DirEntry} {q : Option DirReq} (h : trimReplicas s e q = some t) : NetOnly s t := by
  unfold trimReplicas at h
  obtain ⟨-, h⟩ := Option.ite_none_left_eq_some.mp h
  cases h
  exact (setEntry_netOnly ..).trans (.foldl (fun s d => sendMsg_netOnly s _) _ _)

theorem trimReplicas_getD_netOnly (s : State) (e : DirEntry) (q : Option DirReq) : NetOnly s ((trimReplicas s e q).getD s) := by
  cases h : trimReplicas s e q with
  | none => exact .refl s
  | some t => exact trimReplicas_netOnly h

/-- The replicas of a line above a lowered degree go, at once or when what is under way is done. -/
theorem trimEntry_netOnly (s : State) (e e' : DirEntry) :
    NetOnly s (if e.st.stable then (trimReplicas s e none).getD s else setEntry s e') := by
  split
  · exact trimReplicas_getD_netOnly ..
  · exact setEntry_netOnly ..

theorem trimRegion_netOnly (s : State) (line : Nat) : NetOnly s (trimRegion s line) :=
  .foldl (fun s e => trimEntry_netOnly s e _) _ s

theorem applyRequest_netOnly (s : State) (line : Nat) (r : DieNo) (floor ceil : BitVec 3) :
    NetOnly s (applyRequest s line r floor ceil).1 := by
  have hquiet : NetOnly s (countQuiet (applyHints s line r floor ceil) line) :=
    (applyHints_netOnly ..).trans (modRegion_netOnly ..)
  unfold applyRequest
  dsimp only
  generalize countQuiet (applyHints s line r floor ceil) line = t at hquiet ⊢
  exact hquiet.trans (.ite (trimRegion_netOnly t line) (.refl t))

theorem hubRead_netOnly (s : State) (pa : Nat) : NetOnly s (hubRead s pa) := by
  unfold hubRead
  dsimp only
  split
  · exact applyRequest_netOnly ..
  · exact (applyRequest_netOnly ..).trans (trimEntry_netOnly ..)

/-! ### What a walk can change -/

/-- The states differ in the translations and the cluster caches of the cores, the dies' slices, links, redirects, counters and
translations, the directory, the walker, the contexts and the contents of memory alone, and memory keeps its canonical form. -/
structure WalkOnly (s t : State) : Prop where
  eq : t = { s with clusters := t.clusters, dies := t.dies, mem := t.mem, lineKeys := t.lineKeys, poison := t.poison,
                    nextReq := t.nextReq,
                    hub := { s.hub with dir := t.hub.dir, walk := t.hub.walk, contexts := t.hub.contexts } }
  cluster : ∀ c, t.cluster c = { s.cluster c with cache := (t.cluster c).cache, tlb := (t.cluster c).tlb }
  die : ∀ d, t.die d = { s.die d with lines := (t.die d).lines, link := (t.die d).link, redirects := (t.die d).redirects,
                                      counters := (t.die d).counters, tlb := (t.die d).tlb }
  wf : Memory.wf s.mem = true → Memory.wf t.mem = true

namespace WalkOnly

variable {s t v : State}

theorem refl (s : State) : WalkOnly s s := ⟨rfl, fun _ => rfl, fun _ => rfl, id⟩

theorem trans (h₁ : WalkOnly s t) (h₂ : WalkOnly t v) : WalkOnly s v := by
  refine ⟨?_, fun c => ?_, fun d => ?_, h₂.wf ∘ h₁.wf⟩
  · rw [h₂.eq, h₁.eq]
  · rw [h₂.cluster, h₁.cluster]
  · rw [h₂.die, h₁.die]

theorem foldl {α : Type} {f : State → α → State} (h : ∀ s x, WalkOnly s (f s x)) (l : List α) (s : State) : WalkOnly s (l.foldl f s) := by
  induction l generalizing s with
  | nil => exact refl s
  | cons x l ih => exact (h s x).trans (ih (f s x))

theorem ite {c : Prop} [Decidable c] (ht : WalkOnly s t) (hv : WalkOnly s v) : WalkOnly s (if c then t else v) := by
  split
  · exact ht
  · exact hv

theorem of_cache (h : CacheOnly s t) : WalkOnly s t := by
  refine ⟨?_, fun c => ?_, fun d => ?_, h.wf⟩
  · rw [h.eq]
  · rw [h.cluster]
  · rw [h.die]

theorem of_contexts (h : ContextsOnly s t) : WalkOnly s t := by
  refine ⟨?_, fun c => ?_, fun d => ?_, fun hm => ?_⟩
  · rw [h.eq]
  · rw [h.cluster]
  · rw [h.die]
  · rw [h.mem]
    exact hm

theorem of_modWalk (s : State) (f : Walker → Walker) : WalkOnly s (s.modWalk f) := ⟨rfl, fun _ => rfl, fun _ => rfl, id⟩

theorem units (h : WalkOnly s t) : t.units = s.units := by rw [h.eq]
theorem issue (h : WalkOnly s t) : t.issue = s.issue := by rw [h.eq]
theorem mod (h : WalkOnly s t) : t.mod = s.mod := by rw [h.eq]
theorem eng (h : WalkOnly s t) (c : ClusterNo) : (t.cluster c).eng = (s.cluster c).eng := by rw [h.cluster]

theorem canonical (h : WalkOnly s t) (hs : Canonical s) : Canonical t := by
  obtain ⟨hmem, hupdate, hsram⟩ := hs
  refine ⟨h.wf hmem, ?_, fun c => ?_⟩
  · rw [h.mod]
    exact hupdate
  · rw [h.cluster]
    exact hsram c

end WalkOnly

theorem modTlb_walkOnly (s : State) (c : ClusterNo) (f : List TlbEntry → List TlbEntry) :
    WalkOnly s (s.modCluster c fun k => { k with tlb := f k.tlb }) := by
  refine ⟨rfl, fun d => ?_, fun _ => rfl, id⟩
  by_cases hd : c = d
  · subst hd
    rw [State.cluster_modCluster_self]
  · rw [State.cluster_modCluster_ne hd]

theorem modDieTlb_walkOnly (s : State) (d : DieNo) (l : List TlbEntry) : WalkOnly s (s.modDie d fun x => { x with tlb := l }) := by
  refine ⟨rfl, fun _ => rfl, fun e => ?_, id⟩
  by_cases he : d = e
  · subst he
    rw [State.die_modDie_self]
  · rw [State.die_modDie_ne he]

theorem tlbTouch_walkOnly (s : State) (c : ClusterNo) (e : TlbEntry) : WalkOnly s (tlbTouch s c e) := by
  unfold tlbTouch
  split
  · exact .refl s
  · exact modTlb_walkOnly s c (tlbInsert 64 e)

theorem tlbLoad_walkOnly (s : State) (c : ClusterNo) (e : TlbEntry) : WalkOnly s (tlbLoad s c e) := by
  unfold tlbLoad
  dsimp only
  refine .trans ?_ (modTlb_walkOnly _ c (tlbInsert 64 e))
  refine (modDieTlb_walkOnly s (dieOf c) (tlbInsert2 e (s.die (dieOf c)).tlb)).trans ?_
  split
  · exact .refl _
  · refine .foldl (fun s k => ?_) _ _
    split
    · exact modTlb_walkOnly s k (List.filter _)
    · exact .refl s

theorem requestWalk_walkOnly (s : State) (c : ClusterNo) (a : BitVec 16) (va : Va) (write : Bool) :
    WalkOnly s (requestWalk s c a va write) := by
  unfold requestWalk
  split
  · exact .refl s
  · split
    · have hcharge : WalkOnly s (budgetTake s a bWalker (walkKey c (vpnOf va)) 1) := .of_contexts ⟨rfl⟩
      refine hcharge.trans ?_
      generalize budgetTake s a bWalker (walkKey c (vpnOf va)) 1 = t
      exact ⟨rfl, fun _ => rfl, fun _ => rfl, id⟩
    · exact .of_contexts ⟨rfl⟩

theorem deviceWrite_walkOnly (s : State) (pa : Nat) (bs : List Byte) (key : BitVec 8) : WalkOnly s (deviceWrite s pa bs key) :=
  .of_cache (.of_device (deviceWrite_deviceOnly ..) fun h => deviceWrite_wf h ..)

theorem setAccDirty_walkOnly (s : State) (addr : Nat) (p : Word) (write : Bool) : WalkOnly s (setAccDirty s addr p write) := by
  unfold setAccDirty
  exact .ite (.refl s) (deviceWrite_walkOnly ..)

theorem hubReads_walkOnly (s : State) (l : List Nat) : WalkOnly s (l.foldl hubRead s) :=
  .foldl (fun s pa => .of_cache (hubRead_netOnly s pa).cacheOnly) l s

theorem touchDies_walkOnly (s : State) (a : BitVec 16) (l : List DieNo) : WalkOnly s (l.foldl (fun s d => touchDie s a d) s) :=
  .foldl (fun _ _ => .of_contexts ⟨rfl⟩) l s

theorem walkFails_walkOnly (s : State) (id : Nat) (code : BitVec 8) : WalkOnly s (walkFails s id code) := .of_modWalk s _

theorem tdirAdd_walkOnly (s : State) (e : TlbEntry) (d : DieNo) : WalkOnly s (tdirAdd s e d) := by
  unfold tdirAdd
  exact .of_modWalk s _

theorem completeWalk_walkOnly (s : State) (id : Nat) : WalkOnly s (completeWalk s id) := by
  unfold completeWalk
  split
  · exact .refl s
  · split
    · exact walkFails_walkOnly ..
    · dsimp only
      split
      · exact (hubReads_walkOnly ..).trans (walkFails_walkOnly ..)
      · refine .trans ((hubReads_walkOnly ..).trans (.of_modWalk _ _)) (.ite (walkFails_walkOnly ..) (.ite (.of_modWalk _ _) ?_))
        exact .trans ((setAccDirty_walkOnly ..).trans (touchDies_walkOnly ..))
          (.ite (walkFails_walkOnly ..) (((tlbLoad_walkOnly ..).trans (tdirAdd_walkOnly ..)).trans (.of_modWalk _ _)))

theorem engWalk_walkOnly (s : State) (cl : ClusterNo) (a : BitVec 16) (va : Va) (write : Bool) :
    WalkOnly s (engWalk s cl a va write) := by
  unfold engWalk
  refine (requestWalk_walkOnly s cl a va write).trans ?_
  generalize requestWalk s cl a va write = t
  dsimp only
  split
  · split
    · exact completeWalk_walkOnly ..
    · exact .refl t
  · exact .refl t

end Sys2Proof.Walks
end

section
/-! PROOFS.
FRD and FWR (R346, R347): the elements of a frozen unit, what each class reads and writes, and the events that a write of a chain,
an entry or a token is. -/

-- One proof at a time: the check of the whole text has a limit on memory, which many threads would reach.
set_option Elab.async false

namespace Sys2Proof.Elements

open Sys2Proof.Machine Sys2Proof.Safety Sys2Proof.Sequencer Sys2Proof.Prompter Sys2Proof.Control

/-! ### Selectors -/

theorem selectorOk_iff (c : BitVec 8) (n : Nat) : selectorOk c n = true ↔
    c.toNat = 0 ∧ n ≤ 6 ∨ c.toNat = 1 ∧ n ≤ 5 ∨ c.toNat = 2 ∧ n < 64 ∨ c.toNat = 3 ∧ n = 0 ∨
    c.toNat = 4 ∧ n < 1024 ∧ Instr.csrKnown (BitVec.ofNat 10 n) = true ∨ c.toNat = 5 ∧ n < 2048 ∨ c.toNat = 6 ∧ n ≤ 7 ∨
    c.toNat = 7 ∧ n % 64 < 48 ∧ n / 64 ≤ 9 ∨ c.toNat = 8 ∧ n ≤ 3 ∨ c.toNat = 9 ∧ n < 32 ∨ c.toNat = 10 ∧ n < 32 ∨
    c.toNat = 11 ∧ n < 16 := by
  unfold selectorOk
  split <;> simp_all

theorem selectorBad_iff (x : Word) : selectorBad x = false ↔ x.toNat < 2 ^ 24 ∧
    let c := x.toNat % 256
    let n := x.toNat / 256
    c = 0 ∧ n ≤ 6 ∨ c = 1 ∧ n ≤ 5 ∨ c = 2 ∧ n < 64 ∨ c = 3 ∧ n = 0 ∨ c = 4 ∧ n < 1024 ∧ Instr.csrKnown (BitVec.ofNat 10 n) = true ∨
    c = 5 ∧ n < 2048 ∨ c = 6 ∧ n ≤ 7 ∨ c = 7 ∧ n % 64 < 48 ∧ n / 64 ≤ 9 ∨ c = 8 ∧ n ≤ 3 ∨ c = 9 ∧ n < 32 ∨ c = 10 ∧ n < 32 ∨
    c = 11 ∧ n < 16 := by
  have hc : (x.extractLsb' 0 8).toNat = x.toNat % 256 := by simp
  have hhigh : x.extractLsb' 24 40 = 0 ↔ x.toNat < 2 ^ 24 := by
    rw [← BitVec.toNat_inj, BitVec.extractLsb'_toNat, Nat.shiftRight_eq_div_pow]
    have := x.isLt
    simp
    omega
  rw [selectorBad, Bool.or_eq_false_iff, bne_eq_false_iff_eq, Bool.not_eq_false', hhigh, selectorOk_iff, hc]
  refine and_congr_right fun hx => ?_
  have hn : (x.extractLsb' 8 16).toNat = x.toNat / 256 := by
    rw [BitVec.extractLsb'_toNat, Nat.shiftRight_eq_div_pow]
    omega
  rw [hn]

/-! ### The operations at issue -/

section
variable {s : State} {p u : UnitSt} {i : Uid} {d v sel : BitVec 6} {k : BitVec 2}

theorem opCode_eq (op : Nat) (x : Word) : opCode op x = op + 256 * (x.toNat % 2 ^ 24) := by
  rw [opCode]
  simp

/-- An operation on a held unit whose checks pass, and to which the replay has no objection. -/
theorem onHeld_done {op : UnitSt → Nat} {val : UnitSt → Word} {chk : State → UnitSt → SlotResult}
    {eff : State → UnitSt → Uid → UnitSt → State} (hp : AtIssue s p) (hcap : capUnit s p (p.kcReg k) = some i)
    (hu : s.unit? i = some u) (hchk : chk s p = .done) (hag : opAgrees s i (op p) (val p) = true) :
    onHeld s k op val chk eff = .next (done (eff (noteOp s i (op p) (val p)) p i u)) := by
  have hheld := heldUnit_of_capUnit hcap hu
  rw [onHeld, runSlotW_done hp]
  · simp only [hheld]
  · simp only [hchk, hheld, Option.map_some, opHold, hag, if_true, firstFail_done, firstFail_nil]

theorem onHeld_fault {op : UnitSt → Nat} {val : UnitSt → Word} {chk : State → UnitSt → SlotResult}
    {eff : State → UnitSt → Uid → UnitSt → State} {c : BitVec 8} {a : Va} (hp : AtIssue s p) (hchk : chk s p = .fault c a) :
    onHeld s k op val chk eff = .next (faulted s c a) := by
  rw [onHeld, runSlotW_fault hp]
  simp only [hchk, firstFail_fault]

theorem heldChecks_bad {reads : List Dest} {writes : List (Dest × Nat)} (hl : Unlent s) :
    heldChecks s p k true reads writes = .fault cIllegalOp p.bundleVa := by
  rw [heldChecks, noLend_of_unlent hl, illegalIf_true]
  rfl

theorem execFrd_bad (hp : AtIssue s p) (hl : Unlent s) (hb : selectorBad (p.reg sel) = true) :
    exec (.frd d sel k) s = .next (faulted s cIllegalOp p.bundleVa) := by
  rw [exec_frd, execFrd]
  exact onHeld_fault hp (by rw [hb, heldChecks_bad hl])

theorem execFwr_bad (hp : AtIssue s p) (hl : Unlent s)
    (hb : (selectorBad (p.reg sel) || writeIllegal (p.reg sel) (p.reg v)) = true) :
    exec (.fwr v sel k) s = .next (faulted s cIllegalOp p.bundleVa) := by
  rw [exec_fwr, execFwr]
  exact onHeld_fault hp (by rw [hb, heldChecks_bad hl, firstFail_fault])

/-- A prompter operation noted changes the hub alone. -/
theorem noteOp_eq (s : State) (i : Uid) (op : Nat) (v : Word) : ∃ h, noteOp s i op v = { s with hub := h } := by
  obtain ⟨h, hh, -⟩ := Freezes.recordEvent_eq s i .prompterOp op v none
  unfold noteOp
  dsimp only
  rw [hh]
  split
  · exact ⟨h, rfl⟩
  · exact ⟨_, rfl⟩

theorem noteOp_issue (s : State) (i : Uid) (op : Nat) (v : Word) : (noteOp s i op v).issue = s.issue := by
  obtain ⟨h, hh⟩ := noteOp_eq s i op v
  rw [hh]

theorem execFrd_done (hp : AtIssue s p) (hl : Unlent s) (hpr : p.isPrompter = true) (hcap : capUnit s p (p.kcReg k) = some i)
    (hu : s.unit? i = some u) (hb : selectorBad (p.reg sel) = false) (hn : NoHazard p [.scalar sel] [(.scalar d, 2)])
    {op : Nat} (hop : op = 0x0D + 256 * ((p.reg sel).toNat % 2 ^ 24)) (hag : opAgrees s i op 0 = true) :
    exec (.frd d sel k) s = .next (done ((noteOp s i op 0).setUnit s.issue.me (p.push (mkEntry (noteOp s i op 0) p (.scalar d)
      ((readElement (noteOp s i op 0) i u (p.kcReg k) ((p.reg sel).extractLsb' 0 8)
        ((p.reg sel).extractLsb' 8 16).toNat).setWidth 512) 2 0)))) := by
  rw [← opCode_eq] at hop
  subst hop
  rw [exec_frd, execFrd, onHeld_done hp hcap hu (by rw [hb]; exact heldChecks_done hl hpr hcap hn) hag, schedScalar, schedule,
    noteOp_issue]

theorem fwrChecks (hl : Unlent s) (hpr : p.isPrompter = true) (hcap : capUnit s p (p.kcReg k) = some i)
    (hb : selectorBad (p.reg sel) = false) (hw : writeIllegal (p.reg sel) (p.reg v) = false)
    (hn : NoHazard p [.scalar sel, .scalar v] []) :
    firstFail [heldChecks s p k (selectorBad (p.reg sel) || writeIllegal (p.reg sel) (p.reg v)) [.scalar sel, .scalar v] [],
      failIf (writeFaults (p.reg sel) (p.reg v)) cCopy p.bundleVa] = failIf (writeFaults (p.reg sel) (p.reg v)) cCopy p.bundleVa := by
  rw [hb, hw, Bool.or_false, heldChecks_done hl hpr hcap hn, firstFail_done]
  cases writeFaults (p.reg sel) (p.reg v) <;> rfl

theorem execFwr_fault (hp : AtIssue s p) (hl : Unlent s) (hpr : p.isPrompter = true) (hcap : capUnit s p (p.kcReg k) = some i)
    (hb : selectorBad (p.reg sel) = false) (hw : writeIllegal (p.reg sel) (p.reg v) = false)
    (hn : NoHazard p [.scalar sel, .scalar v] []) (hf : writeFaults (p.reg sel) (p.reg v) = true) :
    exec (.fwr v sel k) s = .next (faulted s cCopy p.bundleVa) := by
  rw [exec_fwr, execFwr]
  exact onHeld_fault hp (by rw [fwrChecks hl hpr hcap hb hw hn, hf, failIf_true])

theorem execFwr_done (hp : AtIssue s p) (hl : Unlent s) (hpr : p.isPrompter = true) (hcap : capUnit s p (p.kcReg k) = some i)
    (hu : s.unit? i = some u) (hb : selectorBad (p.reg sel) = false) (hw : writeIllegal (p.reg sel) (p.reg v) = false)
    (hn : NoHazard p [.scalar sel, .scalar v] []) (hf : writeFaults (p.reg sel) (p.reg v) = false)
    {op : Nat} (hop : op = 0x0E + 256 * ((p.reg sel).toNat % 2 ^ 24)) (hag : opAgrees s i op (p.reg v) = true) :
    exec (.fwr v sel k) s = .next (done (writeElement (noteOp s i op (p.reg v)) i u ((p.reg sel).extractLsb' 0 8)
      ((p.reg sel).extractLsb' 8 16).toNat (p.reg v))) := by
  rw [← opCode_eq] at hop
  subst hop
  rw [exec_fwr, execFwr, onHeld_done hp hcap hu (by rw [fwrChecks hl hpr hcap hb hw hn, hf, failIf_false]) hag]

end

/-! ### Words laid out in fields -/

theorem extractLsb'_of_toNat {n m : Nat} {v : BitVec n} {i : Nat} {x : BitVec m} (h : v.toNat / 2 ^ i % 2 ^ m = x.toNat) :
    v.extractLsb' i m = x := by
  rw [← BitVec.toNat_inj, BitVec.extractLsb'_toNat, Nat.shiftRight_eq_div_pow, h]

theorem getLsbD_of_toNat {n : Nat} {v : BitVec n} {i : Nat} {b : Bool} (h : v.toNat / 2 ^ i % 2 = b.toNat) : v.getLsbD i = b := by
  rw [BitVec.getLsbD, Nat.testBit_eq_decide_div_mod_eq, h]
  cases b <;> rfl

/-- The fields of the summary word (R345). -/
theorem summary_fields {u : UnitSt} {r : FaultRec} (h : u.run.record = some r) :
    (summary u).extractLsb' 0 8 = r.code ∧ (summary u).extractLsb' 8 4 = r.mask ∧ (summary u).getLsbD 12 = r.after ∧
      (summary u).getLsbD 13 = u.run.dieLost ∧ (summary u).getLsbD 14 = u.run.curtFrozen ∧ (summary u).getLsbD 15 = false ∧
      (summary u).extractLsb' 16 16 = u.run.gen ∧ (summary u).extractLsb' 32 16 = u.ident.index ∧
      (summary u).extractLsb' 48 16 = 0 := by
  have hw : (summary u).toNat = r.code.toNat + 2 ^ 8 * r.mask.toNat + 2 ^ 12 * r.after.toNat + 2 ^ 13 * u.run.dieLost.toNat +
      2 ^ 14 * u.run.curtFrozen.toNat + 2 ^ 16 * u.run.gen.toNat + 2 ^ 32 * u.ident.index.toNat := by
    simp only [summary, h, toNat_append_eq_add, BitVec.toNat_ofBool, BitVec.toNat_ofNat]
    omega
  have hcode := r.code.isLt
  have hmask := r.mask.isLt
  have hgen := u.run.gen.isLt
  have hindex := u.ident.index.isLt
  have hafter := Bool.toNat_le r.after
  have hlost := Bool.toNat_le u.run.dieLost
  have hcurt := Bool.toNat_le u.run.curtFrozen
  refine ⟨extractLsb'_of_toNat ?_, extractLsb'_of_toNat ?_, getLsbD_of_toNat ?_, getLsbD_of_toNat ?_, getLsbD_of_toNat ?_,
    getLsbD_of_toNat ?_, extractLsb'_of_toNat ?_, extractLsb'_of_toNat ?_, extractLsb'_of_toNat ?_⟩ <;> rw [hw] <;> simp <;> omega

/-- The fields of the source word. -/
theorem sourceWord_fields (r : FaultRec) :
    (sourceWord r).extractLsb' 0 2 = (match r.source with | .core => 0 | .copy .. => 1 | .array _ => 2 | .sync => 3) ∧
      (sourceWord r).extractLsb' 2 5 = (match r.source with | .copy e t => t ++ e | .array t => t ++ 0#1 | _ => 0) ∧
      (sourceWord r).getLsbD 7 = false ∧ (sourceWord r).extractLsb' 8 2 = r.slot ∧ (sourceWord r).extractLsb' 10 54 = 0 := by
  have hslot := r.slot.isLt
  cases hs : r.source with
  | core =>
    have hw : (sourceWord r).toNat = 2 ^ 8 * r.slot.toNat := by
      simp only [sourceWord, hs, toNat_append_eq_add, BitVec.ofNat_eq_ofNat, BitVec.toNat_ofNat]
      omega
    refine ⟨extractLsb'_of_toNat ?_, extractLsb'_of_toNat ?_, getLsbD_of_toNat ?_, extractLsb'_of_toNat ?_, extractLsb'_of_toNat ?_⟩ <;>
      rw [hw] <;> simp <;> omega
  | sync =>
    have hw : (sourceWord r).toNat = 3 + 2 ^ 8 * r.slot.toNat := by
      simp only [sourceWord, hs, toNat_append_eq_add, BitVec.ofNat_eq_ofNat, BitVec.toNat_ofNat]
      omega
    refine ⟨extractLsb'_of_toNat ?_, extractLsb'_of_toNat ?_, getLsbD_of_toNat ?_, extractLsb'_of_toNat ?_, extractLsb'_of_toNat ?_⟩ <;>
      rw [hw] <;> simp <;> omega
  | copy e t =>
    have he := e.isLt
    have ht := t.isLt
    have hw : (sourceWord r).toNat = 1 + 2 ^ 2 * (t ++ e).toNat + 2 ^ 8 * r.slot.toNat := by
      simp only [sourceWord, hs, toNat_append_eq_add, BitVec.toNat_ofNat]
      omega
    have hx := (t ++ e).isLt
    refine ⟨extractLsb'_of_toNat ?_, extractLsb'_of_toNat ?_, getLsbD_of_toNat ?_, extractLsb'_of_toNat ?_, extractLsb'_of_toNat ?_⟩ <;>
      rw [hw] <;> simp <;> omega
  | array t =>
    have ht := t.isLt
    have hw : (sourceWord r).toNat = 2 + 2 ^ 2 * (t ++ 0#1).toNat + 2 ^ 8 * r.slot.toNat := by
      simp only [sourceWord, hs, toNat_append_eq_add, BitVec.toNat_ofNat]
      omega
    have hx := (t ++ 0#1).isLt
    refine ⟨extractLsb'_of_toNat ?_, extractLsb'_of_toNat ?_, getLsbD_of_toNat ?_, extractLsb'_of_toNat ?_, extractLsb'_of_toNat ?_⟩ <;>
      rw [hw] <;> simp <;> omega

/-- The fields of a loop level's flags word. -/
theorem loopWord_fields (z : LoopSt) :
    (loopWord z).extractLsb' 0 3 = z.e ∧ (loopWord z).extractLsb' 3 3 = z.drain ∧ (loopWord z).extractLsb' 6 8 = z.initps ∧
      (loopWord z).getLsbD 14 = z.active ∧ (loopWord z).getLsbD 15 = z.cleared ∧ (loopWord z).extractLsb' 16 48 = 0 := by
  have hw : (loopWord z).toNat = z.e.toNat + 2 ^ 3 * z.drain.toNat + 2 ^ 6 * z.initps.toNat + 2 ^ 14 * z.active.toNat +
      2 ^ 15 * z.cleared.toNat := by
    simp only [loopWord, toNat_append_eq_add, BitVec.toNat_ofBool, BitVec.toNat_ofNat]
    omega
  have he := z.e.isLt
  have hd := z.drain.isLt
  have hi := z.initps.isLt
  have ha := Bool.toNat_le z.active
  have hc := Bool.toNat_le z.cleared
  refine ⟨extractLsb'_of_toNat ?_, extractLsb'_of_toNat ?_, extractLsb'_of_toNat ?_, getLsbD_of_toNat ?_, getLsbD_of_toNat ?_,
    extractLsb'_of_toNat ?_⟩ <;> rw [hw] <;> simp <;> omega

/-- The fields of a token's word without a command of it. -/
theorem busyWord_fields (b : Bool) : ((0#63) ++ BitVec.ofBool b).getLsbD 0 = b ∧ ((0#63) ++ BitVec.ofBool b).extractLsb' 1 20 = 0 ∧
    ((0#63) ++ BitVec.ofBool b).extractLsb' 2 6 = 0 ∧ ((0#63) ++ BitVec.ofBool b).extractLsb' 21 43 = 0 := by
  cases b <;> decide

/-- The fields of a token's word with a command of it. -/
theorem commandWord_fields (op : BitVec 5) (code : BitVec 8) (f b : Bool) :
    let z : Word := (0#43) ++ op ++ code ++ (0#6) ++ BitVec.ofBool f ++ BitVec.ofBool b
    z.getLsbD 0 = b ∧ z.getLsbD 1 = f ∧ z.extractLsb' 2 6 = 0 ∧ z.extractLsb' 8 8 = code ∧ z.extractLsb' 16 5 = op ∧
      z.extractLsb' 21 43 = 0 := by
  intro z
  have hw : z.toNat = b.toNat + 2 * f.toNat + 2 ^ 8 * code.toNat + 2 ^ 16 * op.toNat := by
    simp only [z, toNat_append_eq_add, BitVec.toNat_ofBool, BitVec.toNat_ofNat]
    omega
  have hop := op.isLt
  have hcode := code.isLt
  have hf := Bool.toNat_le f
  have hb := Bool.toNat_le b
  refine ⟨getLsbD_of_toNat ?_, getLsbD_of_toNat ?_, extractLsb'_of_toNat ?_, extractLsb'_of_toNat ?_, extractLsb'_of_toNat ?_,
    extractLsb'_of_toNat ?_⟩ <;> rw [hw] <;> simp <;> omega

/-- The fields of an entry's descriptor. -/
theorem descriptor_fields (e : PEntry) :
    e.descriptor.getLsbD 0 = true ∧ e.descriptor.getLsbD 1 = e.awaited ∧ e.descriptor.extractLsb' 2 3 = (destCode e.dest).1 ∧
      e.descriptor.extractLsb' 5 11 = 0 ∧ e.descriptor.extractLsb' 16 5 = e.flags ∧
      e.descriptor.extractLsb' 21 8 = BitVec.ofNat 8 e.m ∧ e.descriptor.extractLsb' 29 2 = e.slot ∧
      e.descriptor.getLsbD 31 = false ∧ e.descriptor.extractLsb' 48 16 = 0 ∧
      e.descriptor.toNat / 2 ^ 32 = (destCode e.dest).2.toNat := by
  have hw : e.descriptor.toNat = 1 + 2 * e.awaited.toNat + 2 ^ 2 * (destCode e.dest).1.toNat + 2 ^ 16 * e.flags.toNat +
      2 ^ 21 * (BitVec.ofNat 8 e.m).toNat + 2 ^ 29 * e.slot.toNat + 2 ^ 32 * (destCode e.dest).2.toNat := by
    simp only [PEntry.descriptor, toNat_append_eq_add, BitVec.toNat_ofBool]
    simp only [BitVec.toNat_ofNat]
    omega
  have ha := Bool.toNat_le e.awaited
  have hk := (destCode e.dest).1.isLt
  have hf := e.flags.isLt
  have hm := (BitVec.ofNat 8 e.m).isLt
  have hs := e.slot.isLt
  have hd := (destCode e.dest).2.isLt
  generalize BitVec.ofNat 8 e.m = m at hw hm ⊢
  refine ⟨getLsbD_of_toNat ?_, getLsbD_of_toNat ?_, extractLsb'_of_toNat ?_, extractLsb'_of_toNat ?_, extractLsb'_of_toNat ?_,
    extractLsb'_of_toNat ?_, extractLsb'_of_toNat ?_, getLsbD_of_toNat ?_, extractLsb'_of_toNat ?_, ?_⟩ <;> rw [hw] <;> simp <;> omega

/-- A field of an entry's destination code. -/
theorem descriptor_dest (e : PEntry) (i m : Nat) :
    e.descriptor.extractLsb' (32 + i) m = (destCode e.dest).2.extractLsb' i m := by
  obtain ⟨-, -, -, -, -, -, -, -, -, hdest⟩ := descriptor_fields e
  refine extractLsb'_of_toNat ?_
  rw [Nat.pow_add, ← Nat.div_div_eq_div_mul, hdest, BitVec.extractLsb'_toNat, Nat.shiftRight_eq_div_pow]

/-! ### What FRD reads -/

/-- Word n of the random-bit queue, step by step. -/
theorem queueWord_eq (u : UnitSt) (n : Nat) : queueWord u n = if n < u.csr.rbqueue then
    (Nat.iterate (fun z : Word × Word × Word => rbStep z.2.1 z.2.2) n (rbStep u.csr.rbseed0 u.csr.rbseed1)).1 else 0 := by
  have hfold : ∀ (n : Nat) (z : Word × Word × Word), (List.range n).foldl (fun (x : Word × Word × Word) _ => rbStep x.2.1 x.2.2) z =
      Nat.iterate (fun z : Word × Word × Word => rbStep z.2.1 z.2.2) n z := by
    intro n z
    induction n with
    | zero => rfl
    | succ n ih => rw [List.range_succ, List.foldl_append, ih, Function.iterate_succ_apply']; rfl
  rw [queueWord, hfold]
  by_cases h : n < u.csr.rbqueue
  · rw [if_neg (by omega), if_pos h]
  · rw [if_pos (by omega), if_neg h]

section
variable (s : State) (i : Uid) (u : UnitSt) (cap : Word)

/-- Class 0x00 without a freeze record, and with one. -/
theorem readElement_record :
    (u.run.record = none → readElement s i u cap 0 0 = 0 ∧ readElement s i u cap 0 1 = 0 ∧ readElement s i u cap 0 2 = 0 ∧
      readElement s i u cap 0 3 = 0 ∧ readElement s i u cap 0 4 = u.flow.pc.addr) ∧
    (∀ r, u.run.record = some r → readElement s i u cap 0 0 = summary u ∧ readElement s i u cap 0 1 = r.addr.extractLsb' 0 64 ∧
      readElement s i u cap 0 2 = BitVec.ofNat 64 (r.addr.toNat / 2 ^ 64) ∧ readElement s i u cap 0 3 = sourceWord r ∧
      readElement s i u cap 0 4 = (if r.after then r.bundle else u.flow.pc.addr)) := by
  have h1 : readElement s i u cap 0 1 = (match u.run.record with | some r => r.addr.extractLsb' 0 64 | none => 0) := rfl
  have h2 : readElement s i u cap 0 2 =
      (match u.run.record with | some r => (r.addr.extractLsb' 64 16).setWidth 64 | none => 0) := rfl
  have h3 : readElement s i u cap 0 3 = (match u.run.record with | some r => sourceWord r | none => 0) := rfl
  have h4 : readElement s i u cap 0 4 =
      (match u.run.record with | some r => if r.after then r.bundle else u.flow.pc.addr | none => u.flow.pc.addr) := rfl
  refine ⟨fun h => ?_, fun r h => ?_⟩
  · have h0 : readElement s i u cap 0 0 = 0 := by
      change summary u = 0
      rw [summary, h]
    exact ⟨h0, by rw [h1, h], by rw [h2, h], by rw [h3, h], by rw [h4, h]⟩
  · have hhigh : (r.addr.extractLsb' 64 16).setWidth 64 = BitVec.ofNat 64 (r.addr.toNat / 2 ^ 64) := by
      have := r.addr.isLt
      rw [← BitVec.toNat_inj, BitVec.toNat_setWidth, BitVec.extractLsb'_toNat, BitVec.toNat_ofNat, Nat.shiftRight_eq_div_pow]
      omega
    exact ⟨rfl, by rw [h1, h], by rw [h2, h, ← hhigh], by rw [h3, h], by rw [h4, h]⟩

theorem chainWord (b c : Bool) : (0#62) ++ BitVec.ofBool c ++ BitVec.ofBool b = BitVec.ofNat 64 (b.toNat + 2 * c.toNat) := by
  cases b <;> cases c <;> rfl

theorem psWord (u : UnitSt) : (0#48) ++ u.regs.ps ++ u.predByte = BitVec.ofNat 64 ((u.regs.p ||| 1).toNat + 2 ^ 8 * u.regs.ps.toNat) := by
  rw [← BitVec.toNat_inj, toNat_append_eq_add, toNat_append_eq_add, BitVec.toNat_ofNat, UnitSt.predByte]
  have hp := (u.regs.p ||| 1).isLt
  have hps := u.regs.ps.isLt
  simp only [BitVec.toNat_ofNat]
  omega

/-- Class 0x05 by tile, row and column. -/
theorem tileIndex (t : BitVec 3) (r c : BitVec 4) :
    BitVec.ofNat 3 ((t.toNat * 256 + r.toNat * 16 + c.toNat) / 256) = t ∧
      (t.toNat * 256 + r.toNat * 16 + c.toNat) / 16 % 16 = r.toNat ∧ (t.toNat * 256 + r.toNat * 16 + c.toNat) % 16 = c.toNat := by
  have ht := t.isLt
  have hr := r.isLt
  have hc := c.isLt
  refine ⟨?_, by omega, by omega⟩
  rw [← BitVec.toNat_inj, BitVec.toNat_ofNat]
  omega

theorem readElement_tile (t : BitVec 3) (r c : BitVec 4) : readElement s i u cap 5 (t.toNat * 256 + r.toNat * 16 + c.toNat) =
    (tileElem (u.regs.tiles.get t.toFin) r.toNat c.toNat).setWidth 64 := by
  obtain ⟨ht, hr, hc⟩ := tileIndex t r c
  have h : readElement s i u cap 5 (t.toNat * 256 + r.toNat * 16 + c.toNat) =
      (tileElem (u.regs.tiles.get (BitVec.ofNat 3 ((t.toNat * 256 + r.toNat * 16 + c.toNat) / 256)).toFin)
        ((t.toNat * 256 + r.toNat * 16 + c.toNat) / 16 % 16) ((t.toNat * 256 + r.toNat * 16 + c.toNat) % 16)).setWidth 64 := rfl
  rw [h, ht, hr, hc]

theorem readElement_entry {n w : Nat} (hn : n < 48) : readElement s i u cap 7 (n + 64 * w) = entryWord u n w := by
  have h : readElement s i u cap 7 (n + 64 * w) = entryWord u ((n + 64 * w) % 64) ((n + 64 * w) / 64) := rfl
  rw [h, show (n + 64 * w) % 64 = n by omega, show (n + 64 * w) / 64 = w by omega]

theorem readElement_reg (r : BitVec 6) : readElement s i u cap 2 r.toNat = if r = 0 then 0 else u.regs.s.get r.toFin := by
  have h : readElement s i u cap 2 r.toNat = u.reg (BitVec.ofNat 6 r.toNat) := rfl
  rw [h, BitVec.ofNat_toNat, BitVec.setWidth_eq]
  rfl

theorem readElement_csr (n : BitVec 10) : readElement s i u cap 4 n.toNat = (readCsr s u n).getD 0 := by
  have h : readElement s i u cap 4 n.toNat = (readCsr s u (BitVec.ofNat 10 n.toNat)).getD 0 := rfl
  rw [h, BitVec.ofNat_toNat, BitVec.setWidth_eq]

theorem readElement_chain : readElement s i u cap 1 0 = (chainView u).pc.addr ∧ readElement s i u cap 1 1 = (chainView u).npc.addr ∧
    readElement s i u cap 1 2 = (chainView u).nnpc.addr ∧
    readElement s i u cap 1 3 = BitVec.ofNat 64 ((chainView u).npc.ann.toNat + 2 * (chainView u).nnpc.ann.toNat) ∧
    readElement s i u cap 1 4 = (chainView u).pchi.setWidth 64 ∧ readElement s i u cap 1 5 = 0 :=
  ⟨rfl, rfl, rfl, chainWord _ _, rfl, rfl⟩

theorem readElement_loop (l : Fin 2) : readElement s i u cap 6 (2 + 3 * l.val) = (u.flow.loops.get l).start ∧
    readElement s i u cap 6 (3 + 3 * l.val) = (u.flow.loops.get l).stop ∧
    readElement s i u cap 6 (4 + 3 * l.val) = loopWord (u.flow.loops.get l) := by
  match l with
  | 0 => exact ⟨rfl, rfl, rfl⟩
  | 1 => exact ⟨rfl, rfl, rfl⟩

theorem readElement_watch (q : Fin 2) : readElement s i u cap 8 (2 * q.val) = u.umem.wcha.get q ∧
    readElement s i u cap 8 (2 * q.val + 1) = u.umem.wchc.get q := by
  match q with
  | 0 => exact ⟨rfl, rfl⟩
  | 1 => exact ⟨rfl, rfl⟩

/-- An engine and a token from their index in class 0x09. -/
theorem tokenIndex (e : BitVec 1) (t : BitVec 4) :
    BitVec.ofNat 1 (e.toNat + 2 * t.toNat) = e ∧ BitVec.ofNat 4 ((e.toNat + 2 * t.toNat) / 2) = t := by
  have he := e.isLt
  have ht := t.isLt
  constructor <;> rw [← BitVec.toNat_inj, BitVec.toNat_ofNat] <;> omega

/-- An engine and a register from their index in class 0x0A. -/
theorem stagingIndex (e : BitVec 1) (r : BitVec 4) :
    BitVec.ofNat 1 ((e.toNat * 16 + r.toNat) / 16) = e ∧ BitVec.ofNat 4 (e.toNat * 16 + r.toNat) = r := by
  have he := e.isLt
  have hr := r.isLt
  constructor <;> rw [← BitVec.toNat_inj, BitVec.toNat_ofNat] <;> omega

theorem readElement_token (e : BitVec 1) (t : BitVec 4) :
    readElement s i u cap 9 (e.toNat + 2 * t.toNat) = tokenWord s i u e t := by
  obtain ⟨he, ht⟩ := tokenIndex e t
  have h : readElement s i u cap 9 (e.toNat + 2 * t.toNat) =
      tokenWord s i u (BitVec.ofNat 1 (e.toNat + 2 * t.toNat)) (BitVec.ofNat 4 ((e.toNat + 2 * t.toNat) / 2)) := rfl
  rw [h, he, ht]

theorem readElement_staging (e : BitVec 1) (r : BitVec 4) :
    readElement s i u cap 10 (e.toNat * 16 + r.toNat) = (u.eng.cg.get e.toFin).get r.toFin := by
  obtain ⟨he, hr⟩ := stagingIndex e r
  have h : readElement s i u cap 10 (e.toNat * 16 + r.toNat) =
      u.cgReg (BitVec.ofNat 1 ((e.toNat * 16 + r.toNat) / 16)) (BitVec.ofNat 4 (e.toNat * 16 + r.toNat)).toFin := rfl
  rw [h, he, hr]
  rfl

end

theorem entryAt_eq_some {u : UnitSt} {n : Nat} {e : PEntry} : entryAt u n = some e ↔ u.pend[n]? = some e ∧ e.dest.discarded = false := by
  rw [entryAt, Option.bind_eq_some_iff]
  constructor
  · rintro ⟨e', he', hd⟩
    split at hd
    · cases hd
    · next hnd =>
      cases hd
      exact ⟨he', eq_false_of_ne_true hnd⟩
  · rintro ⟨he, hd⟩
    exact ⟨e, he, by rw [hd]; rfl⟩

theorem entryWord_of_none {u : UnitSt} {n : Nat} (h : entryAt u n = none) (w : Nat) : entryWord u n w = 0 := by rw [entryWord, h]

theorem entryWord_of_some {u : UnitSt} {n : Nat} {e : PEntry} (h : entryAt u n = some e) :
    entryWord u n 0 = e.descriptor ∧ entryWord u n 1 = e.bundle ∧
      ∀ w, w < 8 → entryWord u n (w + 2) = e.value.extractLsb' (64 * w) 64 := by
  refine ⟨?_, ?_, fun w _ => ?_⟩ <;> rw [entryWord, h]
  · rfl
  · rfl
  · simp

/-- The destination's fields of a descriptor, by its kind. -/
theorem descriptor_kind (e : PEntry) :
    match e.dest with
    | .scalar r => e.descriptor.extractLsb' 2 3 = 0 ∧ e.descriptor.extractLsb' 32 16 = r.setWidth 16
    | .pred q => e.descriptor.extractLsb' 2 3 = 1 ∧ e.descriptor.extractLsb' 32 16 = q.setWidth 16
    | .tile t d q => e.descriptor.extractLsb' 2 3 = 2 ∧ e.descriptor.extractLsb' 40 3 = t ∧ e.descriptor.extractLsb' 38 2 = d ∧
        e.descriptor.extractLsb' 32 4 = q ∧ e.descriptor.extractLsb' 36 2 = 0 ∧ e.descriptor.extractLsb' 43 5 = 0
    | .csr q => e.descriptor.extractLsb' 2 3 = 3 ∧ e.descriptor.extractLsb' 32 16 = q.setWidth 16
    | .stage q => e.descriptor.extractLsb' 2 3 = 4 ∧ e.descriptor.extractLsb' 32 16 = q.setWidth 16 := by
  obtain ⟨-, -, hkind, -⟩ := descriptor_fields e
  have hfield := descriptor_dest e
  have hall : e.descriptor.extractLsb' 32 16 = (destCode e.dest).2 := (hfield 0 16).trans (by ext; simp)
  cases hd : e.dest with
  | scalar r => exact ⟨by rw [hkind, hd]; rfl, by rw [hall, hd]; rfl⟩
  | pred q => exact ⟨by rw [hkind, hd]; rfl, by rw [hall, hd]; rfl⟩
  | csr q => exact ⟨by rw [hkind, hd]; rfl, by rw [hall, hd]; rfl⟩
  | stage q => exact ⟨by rw [hkind, hd]; rfl, by rw [hall, hd]; rfl⟩
  | tile t d q =>
    have hw : (destCode e.dest).2.toNat = q.toNat + 2 ^ 6 * d.toNat + 2 ^ 8 * t.toNat := by
      rw [hd]
      simp only [destCode, toNat_append_eq_add, BitVec.toNat_ofNat]
      omega
    have ht := t.isLt
    have hdd := d.isLt
    have hq := q.isLt
    refine ⟨by rw [hkind, hd]; rfl, (hfield 8 3).trans (extractLsb'_of_toNat ?_), (hfield 6 2).trans (extractLsb'_of_toNat ?_),
      (hfield 0 4).trans (extractLsb'_of_toNat ?_), (hfield 4 2).trans (extractLsb'_of_toNat ?_),
      (hfield 11 5).trans (extractLsb'_of_toNat ?_)⟩ <;> rw [hw] <;> simp <;> omega

/-- The fields of a token's word. -/
theorem tokenWord_fields (s : State) (i : Uid) (u : UnitSt) (e : BitVec 1) (t : BitVec 4) :
    (tokenWord s i u e t).getLsbD 0 = (u.eng.tok.get e.toFin).getLsbD t.toNat ∧ (tokenWord s i u e t).extractLsb' 2 6 = 0 ∧
      (tokenWord s i u e t).extractLsb' 21 43 = 0 ∧
      match (s.engine u.ident.cluster e).queue.find? fun c => c.uid == some i && c.tok == t with
      | none => (tokenWord s i u e t).extractLsb' 1 20 = 0
      | some c => (tokenWord s i u e t).getLsbD 1 = c.fault.isSome ∧
          (tokenWord s i u e t).extractLsb' 8 8 = (match c.fault with | some r => r.code | none => 0) ∧
          (tokenWord s i u e t).extractLsb' 16 5 = c.op := by
  rw [tokenWord, tokenCmd]
  cases (s.engine u.ident.cluster e).queue.find? fun c => c.uid == some i && c.tok == t with
  | none =>
    obtain ⟨hbusy, hnone, hlow, hhigh⟩ := busyWord_fields ((u.eng.tok.get e.toFin).getLsbD t.toNat)
    exact ⟨hbusy, hlow, hhigh, hnone⟩
  | some c =>
    obtain ⟨hbusy, hfault, hlow, hcode, hop, hhigh⟩ := commandWord_fields c.op (match c.fault with | some r => r.code | none => 0)
      c.fault.isSome ((u.eng.tok.get e.toFin).getLsbD t.toNat)
    exact ⟨hbusy, hlow, hhigh, hfault, hcode, hop⟩

/-! ### What FWR writes -/

section
variable (s : State) (i : Uid) (u : UnitSt) (y : Word)

theorem writeElement_reg (r : BitVec 6) : writeElement s i u 2 r.toNat y =
    if r = 0 then s else s.setUnit i { u with regs := { u.regs with s := u.regs.s.set r.toFin y } } := by
  have h : writeElement s i u 2 r.toNat y = if r.toNat = 0 then s else
      s.setUnit i (u.modRegs fun g => { g with s := g.s.set (BitVec.ofNat 6 r.toNat).toFin y }) := rfl
  have hr : BitVec.ofNat 6 r.toNat = r := by rw [BitVec.ofNat_toNat, BitVec.setWidth_eq]
  simp only [h, hr]
  by_cases h0 : r = 0
  · rw [if_pos h0, if_pos (by rw [h0]; rfl)]
  · have hne : r.toNat ≠ 0 := fun h' => h0 (BitVec.eq_of_toNat_eq h')
    rw [if_neg h0, if_neg hne]
    rfl

theorem writeElement_csr (n : BitVec 10) : writeElement s i u 4 n.toNat y = s.setUnit i { u with csr := applyCsr u.csr n y } := by
  have h : writeElement s i u 4 n.toNat y = s.setUnit i (u.modCsr fun c => applyCsr c (BitVec.ofNat 10 n.toNat) y) := rfl
  rw [h, BitVec.ofNat_toNat, BitVec.setWidth_eq]
  rfl

theorem writeElement_tile (t : BitVec 3) (r c : BitVec 4) : writeElement s i u 5 (t.toNat * 256 + r.toNat * 16 + c.toNat) y =
    s.setUnit i { u with regs := { u.regs with
      tiles := u.regs.tiles.set t.toFin (setTileElem (u.regs.tiles.get t.toFin) r.toNat c.toNat (y.extractLsb' 0 32)) } } := by
  obtain ⟨ht, hr, hc⟩ := tileIndex t r c
  generalize t.toNat * 256 + r.toNat * 16 + c.toNat = n at ht hr hc ⊢
  have h : writeElement s i u 5 n y = s.setUnit i (u.modRegs fun g => { g with
      tiles := g.tiles.set (BitVec.ofNat 3 (n / 256)).toFin (setTileElem (g.tiles.get (BitVec.ofNat 3 (n / 256)).toFin) (n / 16 % 16)
        (n % 16) (y.extractLsb' 0 32)) }) := rfl
  simp only [h, ht, hr, hc]
  rfl

theorem writeElement_loop (l : Fin 2) :
    writeElement s i u 6 l.val y = s.setUnit i { u with flow := { u.flow with lc := u.flow.lc.set l (y.extractLsb' 0 32) } } ∧
    writeElement s i u 6 (2 + 3 * l.val) y =
      s.setUnit i { u with flow := { u.flow with loops := u.flow.loops.set l { u.flow.loops.get l with start := y } } } ∧
    writeElement s i u 6 (3 + 3 * l.val) y =
      s.setUnit i { u with flow := { u.flow with loops := u.flow.loops.set l { u.flow.loops.get l with stop := y } } } ∧
    writeElement s i u 6 (4 + 3 * l.val) y =
      s.setUnit i { u with flow := { u.flow with loops := u.flow.loops.set l { u.flow.loops.get l with
        e := y.extractLsb' 0 3, drain := y.extractLsb' 3 3, initps := y.extractLsb' 6 8, active := y.getLsbD 14,
        cleared := y.getLsbD 15 } } } := by
  match l with
  | 0 => exact ⟨rfl, rfl, rfl, rfl⟩
  | 1 => exact ⟨rfl, rfl, rfl, rfl⟩

theorem writeElement_entry {n w : Nat} (hn : n < 48) : writeElement s i u 7 (n + 64 * w) y = s.setUnit i (writeEntryWord u n w y) := by
  have h : writeElement s i u 7 (n + 64 * w) y = s.setUnit i (writeEntryWord u ((n + 64 * w) % 64) ((n + 64 * w) / 64) y) := rfl
  rw [h, show (n + 64 * w) % 64 = n by omega, show (n + 64 * w) / 64 = w by omega]

theorem writeElement_watch (q : Fin 2) :
    writeElement s i u 8 (2 * q.val) y = s.setUnit i { u with umem := { u.umem with wcha := u.umem.wcha.set q y } } ∧
    writeElement s i u 8 (2 * q.val + 1) y =
      s.setUnit i { u with umem := { u.umem with wchc := u.umem.wchc.set q (y &&& 0x0000FFFFFFFFFFFF) } } := by
  match q with
  | 0 => exact ⟨rfl, rfl⟩
  | 1 => exact ⟨rfl, rfl⟩

theorem writeElement_token (e : BitVec 1) (t : BitVec 4) :
    writeElement s i u 9 (e.toNat + 2 * t.toNat) y = if y = 2 then abandonToken s i u e t else s := by
  obtain ⟨he, ht⟩ := tokenIndex e t
  have h : writeElement s i u 9 (e.toNat + 2 * t.toNat) y = if y = 2 then
      abandonToken s i u (BitVec.ofNat 1 (e.toNat + 2 * t.toNat)) (BitVec.ofNat 4 ((e.toNat + 2 * t.toNat) / 2)) else s := rfl
  rw [h, he, ht]

theorem writeElement_staging (e : BitVec 1) (r : BitVec 4) : writeElement s i u 10 (e.toNat * 16 + r.toNat) y =
    s.setUnit i { u with eng := { u.eng with cg := u.eng.cg.set e.toFin ((u.eng.cg.get e.toFin).set r.toFin y) } } := by
  obtain ⟨he, hr⟩ := stagingIndex e r
  generalize e.toNat * 16 + r.toNat = n at he hr ⊢
  have h : writeElement s i u 10 n y = s.setUnit i (u.modEng fun g => { g with
      cg := g.cg.set (BitVec.ofNat 1 (n / 16)).toFin ((g.cg.get (BitVec.ofNat 1 (n / 16)).toFin).set (BitVec.ofNat 4 n).toFin y) }) := rfl
  simp only [h, he, hr]
  rfl

/-- Class 0x01. -/
theorem writeElement_chain :
    let aim (e : ChainEntry) : ChainEntry := { e with addr := y &&& ~~~15, src := none, jump := false }
    let chain (g : Flow) := s.setUnit i { u with flow := g }
    writeElement s i u 1 0 y = chain { u.flow with pc := aim u.flow.pc } ∧
    writeElement s i u 1 1 y = chain { u.flow with npc := aim u.flow.npc } ∧
    (u.flow.skip = 0 → writeElement s i u 1 2 y = chain { u.flow with nnpc := aim u.flow.nnpc }) ∧
    writeElement s i u 1 3 y = chain { u.flow with npc := { u.flow.npc with ann := y.getLsbD 0 },
                                                   nnpc := { u.flow.nnpc with ann := y.getLsbD 1 } } ∧
    writeElement s i u 1 4 y = s.setUnit i u ∧ writeElement s i u 1 5 y = s.setUnit i (advanceFrozen u) := by
  refine ⟨rfl, rfl, fun hskip => ?_, rfl, rfl, rfl⟩
  have h : writeElement s i u 1 2 y = s.setUnit i (u.modFlow fun f =>
      { f with nnpc := writtenEntry f.nnpc y, skip := skipFrom f (y &&& ~~~0xF#64) }) := rfl
  have hnone : skipFrom u.flow (y &&& ~~~0xF#64) = u.flow.skip := by rw [skipFrom, hskip, Nat.zero_sub]
  rw [h, UnitSt.modFlow, hnone]
  rfl

end

theorem writeEntryWord_of_none {u : UnitSt} {n : Nat} (h : entryAt u n = none) (w : Nat) (y : Word) : writeEntryWord u n w y = u := by
  rw [writeEntryWord, h]

theorem valueWords_lt (e : PEntry) (w : Nat) (hw : w < 8) :
    e.valueWords < w + 1 ↔ (∀ t d q, e.dest ≠ .tile t d q) ∧ w ≠ 0 := by
  unfold PEntry.valueWords
  cases e.dest <;> simp <;> omega

/-- A list with one element changed has the changed element there. -/
theorem modify_of_getElem? {α : Type} {l : List α} {n : Nat} {x : α} (h : l[n]? = some x) (f : α → α) :
    l.modify n f = l.set n (f x) := by
  refine List.ext_getElem? fun m => ?_
  rw [List.getElem?_modify, List.getElem?_set]
  by_cases hm : n = m
  · subst hm
    obtain ⟨hlt, rfl⟩ := List.getElem?_eq_some_iff.mp h
    simp [hlt]
  · simp [hm]

theorem writeEntryWord_of_some {u : UnitSt} {n : Nat} {e : PEntry} (h : entryAt u n = some e) (y : Word) :
    writeEntryWord u n 0 y = (if y.getLsbD 0 then u else cancelEntry u n) ∧ writeEntryWord u n 1 y = u ∧
      ∀ w, w < 8 → writeEntryWord u n (w + 2) y = if e.awaited = true ∨ (∀ t d q, e.dest ≠ .tile t d q) ∧ w ≠ 0 then u
        else { u with pend := u.pend.set n { e with
          value := (e.value &&& ~~~((0xFFFFFFFFFFFFFFFF#512) <<< (64 * w))) ||| ((y.setWidth 512) <<< (64 * w)) } } := by
  refine ⟨by rw [writeEntryWord, h]; rfl, by rw [writeEntryWord, h]; rfl, fun w hw => ?_⟩
  have hcond : (decide (w + 2 < 2) || e.awaited || decide (e.valueWords < w + 2 - 1)) = true ↔
      e.awaited = true ∨ (∀ t d q, e.dest ≠ .tile t d q) ∧ w ≠ 0 := by
    rw [show w + 2 - 1 = w + 1 from rfl, Bool.or_eq_true, Bool.or_eq_true, decide_eq_true_eq, decide_eq_true_eq, valueWords_lt e w hw]
    have : ¬ w + 2 < 2 := by omega
    simp only [this, false_or]
  rw [writeEntryWord, h]
  simp only [Nat.add_eq_zero_iff, OfNat.ofNat_ne_zero, and_false, if_false, hcond, Nat.add_sub_cancel]
  rw [modify_of_getElem? (entryAt_eq_some.mp h).1]

end Sys2Proof.Elements
end

section
/-! PROOFS.
What the engines' work leaves of the units (R225, R346): abandoned commands and the events of a held unit. -/

-- One proof at a time: the check of the whole text has a limit on memory, which many threads would reach.
set_option Elab.async false

namespace Sys2Proof.Abandonment

open Sys2Proof.Machine Sys2Proof.Safety Sys2Proof.Scalar Sys2Proof.OutwardAccess Sys2Proof.Walks

/-! ### Engines -/

theorem engine_modEngine_self (s : State) (c : ClusterNo) (e : BitVec 1) (f : CopyEngine → CopyEngine) :
    (s.modEngine c e f).engine c e = f (s.engine c e) := by
  unfold State.engine State.modEngine
  rw [State.cluster_modCluster_self]
  exact (vector_get_set ..).trans (if_pos rfl)

theorem engine_modEngine_ne (s : State) {c d : ClusterNo} {e g : BitVec 1} (f : CopyEngine → CopyEngine) (h : ¬ (c = d ∧ e = g)) :
    (s.modEngine c e f).engine d g = s.engine d g := by
  unfold State.engine State.modEngine
  by_cases hc : c = d
  · subst hc
    rw [State.cluster_modCluster_self]
    exact (vector_get_set ..).trans (if_neg fun he => h ⟨rfl, BitVec.toFin_inj.1 he.symm⟩)
  · rw [State.cluster_modCluster_ne hc]

/-! ### Work behind the units -/

/-- The engines' queues stand, and every unit but for its handles and the faults due to it; memory too where no walk is made. -/
structure Behind (quiet : Prop) (s t : State) : Prop where
  unit : ∀ j u, s.unit? j = some u → ∃ w, t.unit? j = some w ∧ w = { u with umem := w.umem, run := { u.run with due := w.run.due } }
  len : t.units.length = s.units.length
  eng : ∀ c, (t.cluster c).eng = (s.cluster c).eng
  mem : quiet → t.mem = s.mem
  mod : t.mod = s.mod

namespace Behind

variable {q : Prop} {s t v : State}

theorem of_units (hu : t.units = s.units) (he : ∀ c, (t.cluster c).eng = (s.cluster c).eng) (hm : q → t.mem = s.mem)
    (hmod : t.mod = s.mod := by rfl) : Behind q s t :=
  ⟨fun j u hj => ⟨u, by rw [State.unit?, hu]; exact hj, rfl⟩, by rw [hu], he, hm, hmod⟩

theorem refl (s : State) : Behind q s s := of_units rfl (fun _ => rfl) fun _ => rfl

theorem trans (h₁ : Behind q s t) (h₂ : Behind q t v) : Behind q s v := by
  refine ⟨fun j u hj => ?_, h₂.len.trans h₁.len, fun c => (h₂.eng c).trans (h₁.eng c), fun hq => (h₂.mem hq).trans (h₁.mem hq),
    h₂.mod.trans h₁.mod⟩
  obtain ⟨w, hw, ew⟩ := h₁.unit j u hj
  obtain ⟨x, hx, ex⟩ := h₂.unit j w hw
  exact ⟨x, hx, by rw [ex, ew]⟩

theorem foldl {α : Type} {f : State → α → State} (h : ∀ s x, Behind q s (f s x)) (l : List α) (s : State) : Behind q s (l.foldl f s) := by
  induction l generalizing s with
  | nil => exact refl s
  | cons x l ih => exact (h s x).trans (ih (f s x))

theorem ite {c : Prop} [Decidable c] (ht : Behind q s t) (hv : Behind q s v) : Behind q s (if c then t else v) := by
  split
  · exact ht
  · exact hv

theorem of_walk (h : WalkOnly s t) (hm : q → t.mem = s.mem) : Behind q s t := of_units h.units h.eng hm h.mod

theorem engine (h : Behind q s t) (c : ClusterNo) (e : BitVec 1) : t.engine c e = s.engine c e := by
  rw [State.engine, h.eng]
  rfl

end Behind

variable {q : Prop}

theorem modUnit_behind (s : State) (i : Uid) {f : UnitSt → UnitSt} (hf : ∀ u, f u = { u with umem := (f u).umem, run := { u.run with due := (f u).run.due } }) :
    Behind q s (s.modUnit i f) := by
  refine ⟨fun j u hj => ?_, List.length_modify .., fun _ => rfl, fun _ => rfl, rfl⟩
  by_cases hij : i = j
  · subst hij
    exact ⟨f u, State.unit?_modUnit_self hj, hf u⟩
  · exact ⟨u, (State.unit?_modUnit_ne hij).trans hj, rfl⟩

theorem setUnit_behind {s : State} {i : Uid} {u : UnitSt} (hu : s.unit? i = some u) {v : UnitSt}
    (hv : v = { u with umem := v.umem, run := { u.run with due := v.run.due } }) : Behind q s (s.setUnit i v) := by
  refine ⟨fun j x hj => ?_, List.length_set, fun _ => rfl, fun _ => rfl, rfl⟩
  by_cases hij : i = j
  · subst hij
    cases hu.symm.trans hj
    exact ⟨v, State.unit?_setUnit_self hu, hv⟩
  · exact ⟨x, (State.unit?_setUnit_ne hij).trans hj, rfl⟩

theorem modCluster_behind (s : State) (c : ClusterNo) {f : Cluster → Cluster} (hf : (f (s.cluster c)).eng = (s.cluster c).eng) :
    Behind q s (s.modCluster c f) := by
  refine .of_units rfl (fun d => ?_) fun _ => rfl
  by_cases hd : c = d
  · subst hd
    rw [State.cluster_modCluster_self]
    exact hf
  · rw [State.cluster_modCluster_ne hd]

theorem modDie_behind (s : State) (d : DieNo) (f : Die → Die) : Behind q s (s.modDie d f) :=
  .of_units rfl (fun _ => rfl) fun _ => rfl

theorem modBuf_behind (s : State) (i : Nat) (f : TvBuf → TvBuf) : Behind q s (s.modBuf i f) :=
  .of_units rfl (fun _ => rfl) fun _ => rfl

theorem levelWrite_behind (s : State) (c : ClusterNo) (l : BitVec 2) (a : Nat) (bs : List Byte) : Behind q s (levelWrite s c l a bs) := by
  refine modCluster_behind s c ?_
  split <;> rfl

theorem freeBytes_behind (s : State) (n : Nat) : Behind q s (freeBytes s n).2 := .of_units rfl (fun _ => rfl) fun _ => rfl

theorem oldOrNew_behind (s : State) (old new : List Byte) : Behind q s (oldOrNew s old new).2 := .of_units rfl (fun _ => rfl) fun _ => rfl

theorem releaseBanks_behind (s : State) (c : ClusterNo) : Behind q s (releaseBanks s c) := by
  unfold releaseBanks
  split
  · exact modCluster_behind s c rfl
  · exact .refl s

theorem putHandle_behind (s : State) (i : Uid) (x : Handle) : Behind q s (putHandle s i x) := by
  unfold putHandle
  split
  · exact .refl s
  · next u hu =>
    split
    · exact .refl s
    · have hset : Behind q s (s.setUnit i (u.setHandle x)) := setUnit_behind hu rfl
      dsimp only
      split
      · exact hset
      · exact hset.trans (modDie_behind ..)

theorem publishClaim_behind (s : State) (i : Uid) (h : BitVec 8) (tail : Bool) (id : Nat) : Behind q s (publishClaim s i h tail id) := by
  unfold publishClaim
  split
  · exact putHandle_behind ..
  · exact .refl s

theorem undefSlabs_behind (s : State) (i : Uid) (h : BitVec 8) (pos : BitVec 32) (n : Nat) : Behind q s (undefSlabs s i h pos n) := by
  unfold undefSlabs
  split
  · exact .refl s
  · exact .foldl (fun s _ => (freeBytes_behind s _).trans (levelWrite_behind ..)) _ s

theorem leaveTile_behind (s : State) (cl : ClusterNo) (c : CopyCmd) (h : Handle) : Behind q s (leaveTile s cl c h) := by
  unfold leaveTile
  split
  · exact .refl s
  · exact .foldl (fun s _ => (oldOrNew_behind s ..).trans (levelWrite_behind ..)) _ s

theorem engTranslate_walkOnly {x y : EngSt} {c : CopyCmd} {cl : ClusterNo} {va : Va} {acc : Access} {r : Nat × TlbEntry × Bool}
    (h : engTranslate x c cl va acc = .ok y r) : WalkOnly x.s y.s := by
  unfold engTranslate at h
  dsimp only at h
  split at h
  · cases h
    refine .trans ?_ (tlbTouch_walkOnly ..)
    split
    · exact engWalk_walkOnly ..
    · exact .refl x.s
  · cases h
  · cases h

/-! ### A command abandoned -/

/-- The engine without a command, and the command's token free: what an abandonment does to the unit's queue and tokens (R225). -/
def withoutCmd (s : State) (cl : ClusterNo) (e : BitVec 1) (c : CopyCmd) (i : Uid) : State :=
  setToken (s.modEngine cl e fun x => { x with queue := x.queue.filter fun q => q.id != c.id, faulted := x.faulted && c.fault.isNone })
    i e c.tok false

/-- The claims of its source are published. -/
def leaveSource (s : State) (i : Uid) (c : CopyCmd) : State := if c.sk = 1 then publishClaim s i c.srcH false c.id else s

/-- Its destination on chip is undefined. -/
def leaveDest (s : State) (cl : ClusterNo) (i : Uid) (u : UnitSt) (c : CopyCmd) : State :=
  if c.dk = 1 then
    match u.handle? c.dstH with
    | some h =>
      if h.ring then
        publishClaim (undefSlabs s i c.dstH c.dstPos (if h.slabSize = 0 then 0 else c.dstBytes / h.slabSize)) i c.dstH true c.id
      else leaveTile s cl c h
    | none => s
  else s

/-- Its destination in a two-version buffer is tainted. -/
def taintDest (s : State) (c : CopyCmd) : State :=
  if c.dk == 0 && c.op != 0x05 && c.op != 0x0A then
    match bufOf s c.asid (vpnOf ((c.wins.get c.dwin.toFin) ++ c.reg 1)) with
    | some i => s.modBuf i fun b => { b with taint := true }
    | none => s
  else s

/-- Its arrival is sent as a lost one. -/
def loseArrival (s : State) (cl : ClusterNo) (e : BitVec 1) (i : Uid) (u : UnitSt) (c : CopyCmd) : State :=
  if c.bar && c.arrival.isNone then
    match engTranslate ⟨s, [], [], none⟩ c cl c.barVa .atomic with
    | .ok x (pa, en, _) =>
      let q := { arrivalReq { x with s := (x.s.newReq).2 } c i u e (x.s.newReq).1 pa en .lostArrival with copyEng := none }
      (x.s.newReq).2.modSync q.die fun y => { y with queue := y.queue ++ [q] }
    | .again .. =>
      let q := { syncReq (s.newReq).2 u (s.newReq).1 .lostArrival 0 c.barVa 0 with
                 uid := i, who := i, size := 16, scope := 2, bundle := c.bundle, slot := c.slot }
      (s.newReq).2.modSync q.die fun y => { y with replies := y.replies ++ [{ req := q, value := 0, code := 0, va := q.va, retry := true, near := false }] }
    | _ => s
  else s

/-- No fault of it is due, and nothing follows it. -/
def forget (s : State) (cl : ClusterNo) (e : BitVec 1) (i : Uid) (c : CopyCmd) : State :=
  (s.modUnit i fun u => u.modRun fun r => { r with due := r.due.filter fun d => d.source != .copy e c.tok }).modCluster cl fun k =>
    { k with follows := k.follows.filter fun f => !(f.uid == i && f.engine == e && f.token == c.tok && !f.ready) }

theorem abandonCmd_eq {s : State} {cl : ClusterNo} {e : BitVec 1} {c : CopyCmd} {i : Uid} {u : UnitSt} (hc : c.uid = some i)
    (hu : s.unit? i = some u) : abandonCmd s cl e c =
      releaseBanks (forget (loseArrival (taintDest (leaveDest (leaveSource (withoutCmd s cl e c i) i c) cl i u c) c) cl e i u c) cl e i c) cl := by
  have hfound : (c.uid.bind fun u => ((s.modEngine cl e fun x =>
      { x with queue := x.queue.filter fun q => q.id != c.id, faulted := x.faulted && c.fault.isNone }).unit? u).map fun x => (u, x)) =
      some (i, u) := by
    rw [hc]
    exact congrArg (Option.map fun x => (i, x)) hu
  unfold abandonCmd
  dsimp only
  rw [hfound]
  rfl

theorem leaveSource_behind (s : State) (i : Uid) (c : CopyCmd) : Behind q s (leaveSource s i c) :=
  .ite (publishClaim_behind ..) (.refl s)

theorem leaveDest_behind (s : State) (cl : ClusterNo) (i : Uid) (u : UnitSt) (c : CopyCmd) : Behind q s (leaveDest s cl i u c) := by
  unfold leaveDest
  refine .ite ?_ (.refl s)
  split
  · exact .ite ((undefSlabs_behind ..).trans (publishClaim_behind ..)) (leaveTile_behind ..)
  · exact .refl s

theorem taintDest_behind (s : State) (c : CopyCmd) : Behind q s (taintDest s c) := by
  unfold taintDest
  refine .ite ?_ (.refl s)
  split
  · exact modBuf_behind ..
  · exact .refl s

theorem newReq_behind (s : State) : Behind q s (s.newReq).2 := .of_units rfl (fun _ => rfl) fun _ => rfl

theorem loseArrival_behind (s : State) (cl : ClusterNo) (e : BitVec 1) (i : Uid) (u : UnitSt) (c : CopyCmd) :
    Behind (c.bar = false) s (loseArrival s cl e i u c) := by
  unfold loseArrival
  split
  · next hbar =>
    have hwalk : ¬ c.bar = false := by
      intro h
      rw [h] at hbar
      exact absurd hbar (by simp)
    split
    · next x _ _ _ h =>
      have hx : Behind (c.bar = false) s x.s := .of_walk (engTranslate_walkOnly h) fun h => absurd h hwalk
      exact (hx.trans (newReq_behind _)).trans (modDie_behind ..)
    · exact (newReq_behind s).trans (modDie_behind ..)
    · exact .refl s
  · exact .refl s

theorem forget_behind (s : State) (cl : ClusterNo) (e : BitVec 1) (i : Uid) (c : CopyCmd) : Behind q s (forget s cl e i c) :=
  (modUnit_behind s i fun _ => rfl).trans (modCluster_behind _ cl rfl)

/-- An abandonment takes the command out of its queue and frees its token; all else of it stands behind the units. -/
theorem abandonCmd_behind {s : State} {cl : ClusterNo} {e : BitVec 1} {c : CopyCmd} {i : Uid} {u : UnitSt} (hc : c.uid = some i)
    (hu : s.unit? i = some u) : Behind (c.bar = false) (withoutCmd s cl e c i) (abandonCmd s cl e c) := by
  rw [abandonCmd_eq hc hu]
  exact (leaveSource_behind ..).trans <| (leaveDest_behind ..).trans <| (taintDest_behind ..).trans <|
    (loseArrival_behind ..).trans <| (forget_behind ..).trans (releaseBanks_behind ..)

end Sys2Proof.Abandonment
end

section
/-! PROOFS.
The elements of a frozen unit (R345 to R347) and its events, put together. -/

-- One proof at a time: the check of the whole text has a limit on memory, which many threads would reach.
set_option Elab.async false

namespace Sys2Proof.Elements

open Sys2Proof.Machine Sys2Proof.Safety Sys2Proof.Sequencer Sys2Proof.Scalar Sys2Proof.Abandonment

/-! ### The events of a held unit -/

section
variable {s : State} {i : Uid} {u : UnitSt}

theorem ifHeld_not (hu : s.unit? i = some u) (h : u.run.status ≠ .frozenHeld) (f : UnitSt → State) : ifHeld s i f = s := by
  rw [ifHeld, hu]
  exact if_neg h

theorem ifHeld_held (hu : s.unit? i = some u) (h : u.run.status = .frozenHeld) (f : UnitSt → State) : ifHeld s i f = f u := by
  rw [ifHeld, hu]
  exact if_pos h

end

theorem entryAt_cancelEntry_self (u : UnitSt) (n : Nat) : entryAt (cancelEntry u n) n = none := by
  unfold cancelEntry
  split
  · assumption
  · next e he =>
    obtain ⟨hp, -⟩ := entryAt_eq_some.mp he
    rw [entryAt, List.getElem?_modify_eq, hp]
    rfl

theorem entryAt_cancelEntry_ne (u : UnitSt) {n m : Nat} (h : m ≠ n) : entryAt (cancelEntry u n) m = entryAt u m := by
  unfold cancelEntry
  split
  · rfl
  · exact congrArg (fun o => o.bind fun e : PEntry => if e.dest.discarded then none else some e) (List.getElem?_modify_ne _ _ (Ne.symm h))

theorem cancelEntry_eq (u : UnitSt) (n : Nat) : { cancelEntry u n with pend := u.pend } = u := by
  unfold cancelEntry
  split <;> rfl

theorem abandonToken_of_none {s : State} {i : Uid} {u : UnitSt} {e : BitVec 1} {t : BitVec 4} (h : tokenCmd s i u e t = none) :
    abandonToken s i u e t = s := by
  rw [abandonToken, h]

theorem abandonToken_of_some {s : State} {i : Uid} {u : UnitSt} {e : BitVec 1} {t : BitVec 4} {c : CopyCmd}
    (h : tokenCmd s i u e t = some c) :
    abandonToken s i u e t = if c.publDone then s else abandonCmd s u.ident.cluster e c := by
  rw [abandonToken, h]

theorem withoutCmd_unit {s : State} {i : Uid} {u : UnitSt} (hu : s.unit? i = some u) (cl : ClusterNo) (e : BitVec 1) (c : CopyCmd) :
    (withoutCmd s cl e c i).unit? i = some (u.modEng fun g =>
      { g with tok := g.tok.set e.toFin (g.tok.get e.toFin &&& ~~~((1#16) <<< c.tok.toNat)) }) :=
  State.unit?_modUnit_self hu

theorem withoutCmd_queue (s : State) (i : Uid) (cl : ClusterNo) (e : BitVec 1) (c : CopyCmd) :
    ((withoutCmd s cl e c i).engine cl e).queue = (s.engine cl e).queue.filter fun q => q.id != c.id := by
  have h : (withoutCmd s cl e c i).engine cl e = (s.modEngine cl e fun x =>
      { x with queue := x.queue.filter fun q => q.id != c.id, faulted := x.faulted && c.fault.isNone }).engine cl e := rfl
  rw [h, engine_modEngine_self]

theorem tokenCmd_unit {s : State} {i : Uid} {u : UnitSt} {e : BitVec 1} {t : BitVec 4} {c : CopyCmd}
    (h : tokenCmd s i u e t = some c) : c.uid = some i ∧ c.tok = t := by
  have := List.find?_some h
  simpa using this

theorem clearedBit (v : BitVec 16) (t : BitVec 4) : (v &&& ~~~((1#16) <<< t.toNat)).getLsbD t.toNat = false := by
  have ht : t.toNat < 16 := t.isLt
  simp [ht]

/-- An abandoned command of a held unit has left its queue with its token free; no register and no pending write of it has changed. -/
theorem abandonToken_spec {s : State} {i : Uid} {u : UnitSt} (hu : s.unit? i = some u) {e : BitVec 1} {t : BitVec 4} {c : CopyCmd}
    (hc : tokenCmd s i u e t = some c) (hp : c.publDone = false) :
    ∃ w, (abandonToken s i u e t).unit? i = some w ∧ (w.eng.tok.get e.toFin).getLsbD t.toNat = false ∧
      w.regs = u.regs ∧ w.pend = u.pend ∧ ∀ q ∈ ((abandonToken s i u e t).engine u.ident.cluster e).queue, q.id ≠ c.id := by
  obtain ⟨hid, htok⟩ := tokenCmd_unit hc
  have hb := abandonCmd_behind (cl := u.ident.cluster) (e := e) hid hu
  rw [abandonToken_of_some hc, if_neg (by simp [hp])]
  obtain ⟨w, hw, ew⟩ := hb.unit i _ (withoutCmd_unit hu ..)
  refine ⟨w, hw, ?_, ?_, ?_, fun q hq => ?_⟩
  · rw [ew, ← htok]
    dsimp only [UnitSt.modEng]
    rw [vector_get_set, if_pos rfl]
    exact clearedBit ..
  · rw [ew]; rfl
  · rw [ew]; rfl
  · rw [hb.engine, withoutCmd_queue] at hq
    simpa using (List.mem_filter.mp hq).2

/-- Settles O46: every element is read and written as R346's table lays it out, and the events of a held unit keep to it. -/
theorem prompterElements : Obligations.PrompterElements := by
  refine ⟨selectorBad_iff, ?ops, ?reads, ?writes, ?events⟩
  case ops =>
    intro s p u i d v sel k hp hl hpr hcap hu
    refine ⟨fun hb => ⟨execFrd_bad hp hl hb, execFwr_bad hp hl (by rw [hb]; rfl)⟩, fun hb => ⟨fun hn hag => ?_, fun hw => ?_, fun hw hn => ⟨fun hf => ?_, fun hf hag => ?_⟩⟩⟩
    · exact execFrd_done hp hl hpr hcap hu hb hn rfl hag
    · exact execFwr_bad hp hl (by rw [hw, Bool.or_true])
    · exact execFwr_fault hp hl hpr hcap hb hw hn hf
    · exact execFwr_done hp hl hpr hcap hu hb hw hn hf rfl hag
  case reads =>
    intro s i u cap
    obtain ⟨hnone, hsome⟩ := readElement_record s i u cap
    obtain ⟨c0, c1, c2, c3, c4, c5⟩ := readElement_chain s i u cap
    refine ⟨hnone, fun r hr => ?_, rfl, rfl, c0, c1, c2, c3, c4, c5, readElement_reg s i u cap, psWord u, readElement_csr s i u cap,
      readElement_tile s i u cap, rfl, rfl, fun l => ?_, fun n hn => ?_, readElement_watch s i u cap, fun e t => ?_,
      readElement_staging s i u cap, queueWord_eq u⟩
    · obtain ⟨r0, r1, r2, r3, r4⟩ := hsome r hr
      dsimp only
      rw [r0, r3]
      exact ⟨summary_fields hr, r1, r2, sourceWord_fields r, r4⟩
    · obtain ⟨l0, l1, l2⟩ := readElement_loop s i u cap l
      dsimp only
      rw [l2]
      exact ⟨l0, l1, loopWord_fields _⟩
    · refine ⟨fun e => entryAt_eq_some, fun h w => (readElement_entry s i u cap hn).trans (entryWord_of_none h w), fun e he => ?_⟩
      obtain ⟨w0, w1, w2⟩ := entryWord_of_some he
      refine ⟨(readElement_entry s i u cap (w := 1) hn).trans w1, fun w hw => (readElement_entry s i u cap (w := w + 2) hn).trans (w2 w hw), ?_⟩
      have h0 : readElement s i u cap 7 n = e.descriptor := (readElement_entry s i u cap (w := 0) hn).trans w0
      dsimp only
      rw [h0]
      obtain ⟨d0, d1, -, d3, d4, d5, d6, d7, d8, -⟩ := descriptor_fields e
      exact ⟨d0, d1, d3, d4, d5, d6, d7, d8, descriptor_kind e⟩
    · dsimp only
      rw [readElement_token]
      exact tokenWord_fields s i u e t
  case writes =>
    intro s i u y
    obtain ⟨c0, c1, c2, c3, c4, c5⟩ := writeElement_chain s i u y
    refine ⟨fun n => ⟨rfl, rfl⟩, c0, c1, c2, c3, c4, c5, writeElement_reg s i u y, rfl, writeElement_csr s i u y,
      writeElement_tile s i u y, writeElement_loop s i u y, fun n hn => ?_, writeElement_watch s i u y, writeElement_token s i u y,
      writeElement_staging s i u y⟩
    refine ⟨fun h w => ?_, fun e he => ?_⟩
    · exact (writeElement_entry s i u y hn).trans (congrArg _ (writeEntryWord_of_none h w y))
    · obtain ⟨e0, e1, e2⟩ := writeEntryWord_of_some he y
      refine ⟨(writeElement_entry s i u y (w := 0) hn).trans (congrArg _ e0), (writeElement_entry s i u y (w := 1) hn).trans (congrArg _ e1),
        fun w hw => (writeElement_entry s i u y (w := w + 2) hn).trans (congrArg _ (e2 w hw))⟩
  case events =>
    intro s i u hu
    refine ⟨fun n e t hs => ⟨congrArg _ (ifHeld_not hu hs _), congrArg _ (ifHeld_not hu hs _), congrArg _ (ifHeld_not hu hs _)⟩,
      fun hs => ⟨⟨congrArg _ (ifHeld_held hu hs _), rfl, rfl, rfl, rfl⟩,
        fun n => ⟨congrArg _ (ifHeld_held hu hs _), entryAt_cancelEntry_self u n, fun m hm => entryAt_cancelEntry_ne u hm, cancelEntry_eq u n⟩,
        fun e t => ⟨congrArg _ (ifHeld_held hu hs _), abandonToken_of_none, fun c hc => ⟨fun hp => ?_, abandonToken_spec hu hc⟩⟩⟩⟩
    rw [abandonToken_of_some hc, if_pos hp]

end Sys2Proof.Elements
end

section
/-! PROOFS.
The C slots at issue (R207 to R211, R225 to R228): copy commands, stream bindings, waits for tokens, follow-ons and aborts. -/

-- One proof at a time: the check of the whole text has a limit on memory, which many threads would reach.
set_option Elab.async false

namespace Sys2Proof.CopyIssue

open Sys2Proof.Machine Sys2Proof.Safety Sys2Proof.Sequencer Sys2Proof.Scalar Sys2Proof.Abandonment Sys2Proof.Freezes

/-! ### Handles and tokens -/

/-- The first element of a key is found changed, where the change keeps it one of the key. -/
theorem find?_updateFirst_of_hit {α : Type} {p : α → Bool} {f : α → α} (hf : ∀ x, p x = true → p (f x) = true) (l : List α) :
    (updateFirst p f l).find? p = (l.find? p).map f := by
  induction l with
  | nil => rfl
  | cons x l ih =>
    cases hx : p x
    · simp [updateFirst, hx, ih]
    · simp [updateFirst, hx, hf x hx]

/-- A handle replaced by one of its own number is found so. -/
theorem handle?_setHandle {u : UnitSt} {h : BitVec 8} {x y : Handle} (hx : u.handle? h = some x) (hy : y.h = x.h) :
    (u.setHandle y).handle? h = some y := by
  have hh : y.h = h := hy.trans (Rings.handle?_h hx)
  subst hh
  have hset : (u.setHandle y).handle? y.h = (u.handle? y.h).map fun _ => y :=
    find?_updateFirst_of_hit (p := fun z : Handle => z.h == y.h) (fun _ _ => beq_self_eq_true y.h) _
  rw [hset, hx]
  rfl

theorem handle?_setHandle_ne {u : UnitSt} {x : Handle} {h : BitVec 8} (hne : x.h ≠ h) : (u.setHandle x).handle? h = u.handle? h := by
  refine find?_updateFirst_of_disjoint (fun y hy => ?_) _
  have hyx : y.h = x.h := by simpa using hy
  simp [hyx, hne]

theorem setToken_unit {s : State} {i : Uid} {u : UnitSt} (hu : s.unit? i = some u) (e : BitVec 1) (t : BitVec 4) (busy : Bool) :
    (setToken s i e t busy).unit? i = some (u.modEng fun g =>
      { g with tok := g.tok.set e.toFin (if busy then g.tok.get e.toFin ||| (1#16) <<< t.toNat
                                         else g.tok.get e.toFin &&& ~~~((1#16) <<< t.toNat)) }) :=
  State.unit?_modUnit_self hu

theorem busyBit (v : BitVec 16) (t : BitVec 4) (j : Nat) :
    (v ||| (1#16) <<< t.toNat).getLsbD j = (v.getLsbD j || j == t.toNat) := by
  have ht : t.toNat < 16 := t.isLt
  rw [BitVec.getLsbD_or, BitVec.getLsbD_shiftLeft, BitVec.getLsbD_one]
  by_cases h : j = t.toNat
  · subst h
    simp [ht]
  · have hone : (decide (j < 16) && !decide (j < t.toNat) && (decide (0 < 16) && decide (j - t.toNat = 0))) = false := by
      simp; omega
    rw [hone]
    simp [h]

/-! ### The header of a copy command -/

theorem copyHdr_tok (t : BitVec 4) (b f : BitVec 1) (x k : BitVec 2) (o : BitVec 12) : (copyHdr t b f x k o).extractLsb' 18 4 = t := by
  refine Elements.extractLsb'_of_toNat ?_
  simp only [copyHdr, Control.toNat_append_eq_add]
  omega

theorem copyForms_slot (e : BitVec 1) (t : BitVec 4) (b f y : BitVec 1) (x k z : BitVec 2) (i : BitVec 8) (s : State) :
    ∀ r ∈ copyForms e t b f y x k z i, exec r.ins s = copySlot e r.op r.hdr s ∧ r.hdr.extractLsb' 18 4 = t := by
  simp only [copyForms, List.forall_mem_cons]
  refine ⟨?_, ?_, ?_, ?_, ?_, ?_, ?_, ?_, ?_, ?_, ?_, ?_, fun r hr => absurd hr List.not_mem_nil⟩ <;>
    exact ⟨rfl, copyHdr_tok ..⟩

/-! ### Claims at issue (R201, R209) -/

/-- A claim at the head of a ring leaves every ring's tail, and every other ring, as it was. -/
theorem setHandle_claimHead {u : UnitSt} {g h : BitVec 8} {x y : Handle} {id n : Nat} (hx : u.handle? h = some x)
    (hy : u.handle? g = some y) : ∃ y', (u.setHandle (x.claimHead id n)).handle? g = some y' ∧ y'.tc = y.tc ∧ y'.tp = y.tp := by
  by_cases hg : h = g
  · subst hg
    cases hx.symm.trans hy
    exact ⟨_, handle?_setHandle hx rfl, rfl, rfl⟩
  · have hne : (x.claimHead id n).h ≠ g := fun h => hg ((Rings.handle?_h hx).symm.trans h)
    exact ⟨y, (handle?_setHandle_ne hne).trans hy, rfl, rfl⟩

theorem setHandle_claimTail {u : UnitSt} {g h : BitVec 8} {x y : Handle} {id n : Nat} (hx : u.handle? h = some x)
    (hy : u.handle? g = some y) : ∃ y', (u.setHandle (x.claimTail id n)).handle? g = some y' ∧ y'.hc = y.hc ∧ y'.hp = y.hp := by
  by_cases hg : h = g
  · subst hg
    cases hx.symm.trans hy
    exact ⟨_, handle?_setHandle hx rfl, rfl, rfl⟩
  · have hne : (x.claimTail id n).h ≠ g := fun h => hg ((Rings.handle?_h hx).symm.trans h)
    exact ⟨y, (handle?_setHandle_ne hne).trans hy, rfl, rfl⟩

/-- The claim of a command's source in the unit. -/
def claimSource (u : UnitSt) (c : CopyCmd) : UnitSt :=
  if c.claimSlabs u false = 0 then u else match u.handle? c.srcH with
    | some x => u.setHandle (x.claimHead c.id (c.claimSlabs u false))
    | none => u

/-- The claim of a command's destination, `n` slabs, in a unit. -/
def claimDest (u : UnitSt) (c : CopyCmd) (n : Nat) : UnitSt :=
  if n = 0 then u else match u.handle? c.dstH with
    | some x => u.setHandle (x.claimTail c.id n)
    | none => u

theorem claimFor_eq (u : UnitSt) (c : CopyCmd) : claimFor u c = (claimDest (claimSource u c) c (c.claimSlabs u true),
    { c with srcPos := match u.handle? c.srcH with | some x => x.hc | none => 0
             dstPos := match (claimSource u c).handle? c.dstH with | some x => x.tc | none => 0 }) := rfl

theorem claimSource_eq (u : UnitSt) (c : CopyCmd) : claimSource u c = { u with umem := (claimSource u c).umem } := by
  unfold claimSource
  split
  · rfl
  · split <;> rfl

theorem claimDest_eq (u : UnitSt) (c : CopyCmd) (n : Nat) : claimDest u c n = { u with umem := (claimDest u c n).umem } := by
  unfold claimDest
  split
  · rfl
  · split <;> rfl

theorem claimFor_unit (u : UnitSt) (c : CopyCmd) : (claimFor u c).1 = { u with umem := (claimFor u c).1.umem } := by
  rw [claimFor_eq, claimDest_eq, claimSource_eq]

theorem claimDest_heads {u : UnitSt} {g : BitVec 8} {y : Handle} (hy : u.handle? g = some y) (c : CopyCmd) (n : Nat) :
    ∃ y', (claimDest u c n).handle? g = some y' ∧ y'.hc = y.hc ∧ y'.hp = y.hp := by
  unfold claimDest
  split
  · exact ⟨y, hy, rfl, rfl⟩
  · split
    · next x hx => exact setHandle_claimTail hx hy
    · exact ⟨y, hy, rfl, rfl⟩

theorem claimSource_tails {u : UnitSt} {g : BitVec 8} {y : Handle} (hy : u.handle? g = some y) (c : CopyCmd) :
    ∃ y', (claimSource u c).handle? g = some y' ∧ y'.tc = y.tc ∧ y'.tp = y.tp := by
  unfold claimSource
  split
  · exact ⟨y, hy, rfl, rfl⟩
  · split
    · next x hx => exact setHandle_claimHead hx hy
    · exact ⟨y, hy, rfl, rfl⟩

/-- The source's claim advances the head of its ring by the slabs claimed, and its first slab is the command's. -/
theorem claimFor_source {u : UnitSt} {c : CopyCmd} {h : Handle} (hn : c.claimSlabs u false ≠ 0) (hh : u.handle? c.srcH = some h) :
    (claimFor u c).2.srcPos = h.hc ∧ ∃ h', (claimFor u c).1.handle? c.srcH = some h' ∧
      h'.hc = h.hc + BitVec.ofNat 32 (c.claimSlabs u false) ∧ h'.hp = h.hp := by
  have hsrc : (claimSource u c).handle? c.srcH = some (h.claimHead c.id (c.claimSlabs u false)) := by
    rw [claimSource, if_neg hn, hh]
    exact handle?_setHandle hh rfl
  obtain ⟨h', hd, hhc, hhp⟩ := claimDest_heads hsrc c (c.claimSlabs u true)
  rw [claimFor_eq]
  exact ⟨by rw [hh], h', hd, hhc, hhp⟩

/-- The destination's claim advances the tail of its ring by the slabs claimed, and its first slab is the command's. -/
theorem claimFor_dest {u : UnitSt} {c : CopyCmd} {h : Handle} (hn : c.claimSlabs u true ≠ 0) (hh : u.handle? c.dstH = some h) :
    (claimFor u c).2.dstPos = h.tc ∧ ∃ h', (claimFor u c).1.handle? c.dstH = some h' ∧
      h'.tc = h.tc + BitVec.ofNat 32 (c.claimSlabs u true) ∧ h'.tp = h.tp := by
  obtain ⟨y, hy, htc, htp⟩ := claimSource_tails hh c
  rw [claimFor_eq, claimDest, if_neg hn, hy]
  exact ⟨htc, _, handle?_setHandle hy rfl, congrArg (· + _) htc, htp⟩

/-! ### A copy command at issue -/

theorem firstFail_of_take {l : List SlotResult} {n : Nat} {code : BitVec 8} {a : Va} (hd : l.take n = List.replicate n .done)
    (hf : l[n]? = some (.fault code a)) (r : List SlotResult) : firstFail (l ++ r) = .fault code a := by
  induction n generalizing l with
  | zero =>
    cases l with
    | nil => cases hf
    | cons x l =>
      cases hf
      rfl
  | succ n ih =>
    cases l with
    | nil => cases hf
    | cons x l =>
      obtain ⟨hx, hl⟩ := List.cons.inj hd
      subst hx
      exact (ih hl hf :)

theorem firstFail_append_of_done {l : List SlotResult} (hd : ∀ m ∈ l, m = .done) (r : List SlotResult) : firstFail (l ++ r) = firstFail r := by
  induction l with
  | nil => rfl
  | cons x l ih =>
    obtain ⟨hx, hl⟩ := List.forall_mem_cons.1 hd
    rw [hx]
    exact ih hl

section
variable {s : State} {u : UnitSt} {e : BitVec 1} {op : BitVec 5} {hdr : BitVec 22}

theorem copySlot_fault (hu : AtIssue s u) (hl : Unlent s) {n : Nat} {code : BitVec 8} {a : Va}
    (hd : (copyChecks s u (mkCopyCmd s u e op hdr)).take n = List.replicate n .done)
    (hf : (copyChecks s u (mkCopyCmd s u e op hdr))[n]? = some (.fault code a)) :
    copySlot e op hdr s = .next (faulted s code a) := by
  refine runSlotW_fault hu ?_
  dsimp only
  rw [List.append_assoc, List.singleton_append, firstFail_noLend hl]
  exact firstFail_of_take hd hf _

/-- A command whose checks pass, with nothing before it that holds memory, comes to its waits. -/
theorem copyChecks_pass (hl : Unlent s) {c : CopyCmd} (hc : ∀ m ∈ copyChecks s u c, m = .done) (hm : memHold s s.issue.me u = .done) :
    firstFail ([noLend s u] ++ copyChecks s u c ++ [memHold s s.issue.me u, copyWaits s u e c]) = copyWaits s u e c := by
  rw [List.append_assoc, List.singleton_append, firstFail_noLend hl, firstFail_append_of_done hc, hm, firstFail_done]
  cases copyWaits s u e c <;> rfl

theorem copySlot_wait (hu : AtIssue s u) (hl : Unlent s) (hc : ∀ m ∈ copyChecks s u (mkCopyCmd s u e op hdr), m = .done)
    (hm : memHold s s.issue.me u = .done) {k : WaitKind} (hw : copyWaits s u e (mkCopyCmd s u e op hdr) = .wait k) :
    copySlot e op hdr s = .next (noteResult s (.wait k)) := by
  rw [copySlot, runSlotW_wait hu ((copyChecks_pass hl hc hm).trans hw), hw]

theorem copySlot_done (hu : AtIssue s u) (hl : Unlent s) (hc : ∀ m ∈ copyChecks s u (mkCopyCmd s u e op hdr), m = .done)
    (hm : memHold s s.issue.me u = .done) (hw : copyWaits s u e (mkCopyCmd s u e op hdr) = .done) :
    copySlot e op hdr s = .next (done (acceptCopy s u e (mkCopyCmd s u e op hdr))) :=
  runSlotW_done hu ((copyChecks_pass hl hc hm).trans hw)

end

section
variable {s : State} {u : UnitSt} {e : BitVec 1} {c : CopyCmd}

theorem copyWaits_bank (h : shadowMeets s u c = true) : copyWaits s u e c = .wait .bank := by
  rw [copyWaits, if_pos h]

theorem copyWaits_queue (h : shadowMeets s u c = false) (hq : 8 ≤ (s.engine u.ident.cluster e).queue.length) :
    copyWaits s u e c = .wait .queueSlot := by
  rw [copyWaits, if_neg (by simp [h]), if_pos hq]

theorem copyWaits_token (h : shadowMeets s u c = false) (hq : (s.engine u.ident.cluster e).queue.length < 8)
    (ht : (u.eng.tok.get e.toFin).getLsbD c.tok.toNat = true) : copyWaits s u e c = .wait .token := by
  rw [copyWaits, if_neg (by simp [h]), if_neg (by omega), if_pos ht]

/-- The words of random bits that an accepted command takes (R163). -/
def drawWords (u : UnitSt) (c : CopyCmd) : UnitSt × CopyCmd :=
  if c.op = 6 && c.sr then
    ((takeWord (takeWord u).2).2, { c with rb1 := (takeWord u).1, rb0 := (takeWord (takeWord u).2).1 })
  else (u, c)

theorem acceptCopy_eq (s : State) (u : UnitSt) (e : BitVec 1) (c : CopyCmd) : acceptCopy s u e c =
    (setToken ((s.newReq).2.setUnit s.issue.me (drawWords (claimFor u c).1 (claimFor u c).2).1) s.issue.me e
      (drawWords (claimFor u c).1 (claimFor u c).2).2.tok true).modEngine (drawWords (claimFor u c).1 (claimFor u c).2).1.ident.cluster e
        fun x => { x with queue := x.queue ++ [(drawWords (claimFor u c).1 (claimFor u c).2).2] } := rfl

theorem drawWords_unit (u : UnitSt) (c : CopyCmd) : (drawWords u c).1 = { u with csr := (drawWords u c).1.csr } := by
  unfold drawWords
  split <;> rfl

theorem drawWords_cmd (u : UnitSt) (c : CopyCmd) :
    (drawWords u c).2 = { c with rb0 := (drawWords u c).2.rb0, rb1 := (drawWords u c).2.rb1 } := by
  unfold drawWords
  split <;> rfl

/-- An accepted command stands last in its engine's queue with its claims made and its token busy; nothing else of its unit changes but
the words that it takes. -/
theorem acceptCopy_spec (hu : AtIssue s u) : ∃ q v, (acceptCopy s u e c).mem = s.mem ∧
    ((acceptCopy s u e c).engine u.ident.cluster e).queue = (s.engine u.ident.cluster e).queue ++ [q] ∧
    (acceptCopy s u e c).unit? s.issue.me = some v ∧
    q = { c with srcPos := (claimFor u c).2.srcPos, dstPos := (claimFor u c).2.dstPos, rb0 := q.rb0, rb1 := q.rb1 } ∧
    v = { u with csr := v.csr, umem := (claimFor u c).1.umem, eng := v.eng } ∧
    v.eng.tok = u.eng.tok.set e.toFin (u.eng.tok.get e.toFin ||| (1#16) <<< c.tok.toNat) := by
  have hx : (drawWords (claimFor u c).1 (claimFor u c).2).1 =
      { u with umem := (claimFor u c).1.umem, csr := (drawWords (claimFor u c).1 (claimFor u c).2).1.csr } :=
    (drawWords_unit ..).trans
      (congrArg (fun y : UnitSt => { y with csr := (drawWords (claimFor u c).1 (claimFor u c).2).1.csr }) (claimFor_unit u c))
  have hq := drawWords_cmd (claimFor u c).1 (claimFor u c).2
  rw [acceptCopy_eq]
  generalize (drawWords (claimFor u c).1 (claimFor u c).2).1 = x at hx ⊢
  generalize (drawWords (claimFor u c).1 (claimFor u c).2).2 = q at hq ⊢
  have hxe : x.eng = u.eng := by rw [hx]
  have hqt : q.tok = c.tok := by rw [hq]; rfl
  have hxc : x.ident.cluster = u.ident.cluster := by rw [hx]
  have hset : ((s.newReq).2.setUnit s.issue.me x).unit? s.issue.me = some x := State.unit?_setUnit_self hu
  refine ⟨q, _, rfl, ?_, setToken_unit hset e q.tok true, ?_, ?_, ?_⟩
  · rw [hxc, engine_modEngine_self]
    rfl
  · rw [hq]; rfl
  · dsimp only [UnitSt.modEng]
    rw [hx]
  · dsimp only [UnitSt.modEng]
    rw [hxe, hqt, if_pos rfl]

end

/-- What O40 says of a command that enters its engine's queue. -/
theorem acceptCopy_entry {s : State} {u : UnitSt} {e : BitVec 1} {op : BitVec 5} {hdr : BitVec 22} (hu : AtIssue s u) {t : BitVec 4}
    (ht : hdr.extractLsb' 18 4 = t) :
    let cmd := mkCopyCmd s u e op hdr
    ∃ w q v, done (acceptCopy s u e cmd) = done w ∧ w.mem = s.mem ∧
      (w.engine u.ident.cluster e).queue = (s.engine u.ident.cluster e).queue ++ [q] ∧ q.op = op ∧ q.hdr = hdr ∧ q.tok = t ∧
      q.uid = some s.issue.me ∧ q.cg = u.eng.cg.get e.toFin ∧ q.wins = u.csr.wb ∧ q.bundle = u.flow.pc.addr ∧ q.slot = s.issue.slot ∧
      q.started = false ∧ q.fault = none ∧ w.unit? s.issue.me = some v ∧ v.regs = u.regs ∧ v.pend = u.pend ∧
      (v.eng.tok.get e.toFin).getLsbD t.toNat = true ∧
      (∀ j : Nat, j ≠ t.toNat → (v.eng.tok.get e.toFin).getLsbD j = (u.eng.tok.get e.toFin).getLsbD j) ∧
      (∀ h, cmd.claimSlabs u false ≠ 0 → u.handle? cmd.srcH = some h → q.srcPos = h.hc ∧ ∃ h', v.handle? cmd.srcH = some h' ∧
        h'.hc = h.hc + BitVec.ofNat 32 (cmd.claimSlabs u false) ∧ h'.hp = h.hp) ∧
      (∀ h, cmd.claimSlabs u true ≠ 0 → u.handle? cmd.dstH = some h → q.dstPos = h.tc ∧ ∃ h', v.handle? cmd.dstH = some h' ∧
        h'.tc = h.tc + BitVec.ofNat 32 (cmd.claimSlabs u true) ∧ h'.tp = h.tp) := by
  intro cmd
  obtain ⟨q, v, hmem, hqueue, hunit, hq, hv, htok⟩ := acceptCopy_spec (e := e) (c := cmd) hu
  have hct : cmd.tok = t := ht
  have hqtok : q.tok = t := by rw [hq]; exact ht
  have hhandle (g : BitVec 8) : v.handle? g = (claimFor u cmd).1.handle? g := by rw [hv]; rfl
  have hbit (j : Nat) : (v.eng.tok.get e.toFin).getLsbD j = ((u.eng.tok.get e.toFin).getLsbD j || j == t.toNat) := by
    rw [htok, vector_get_set, if_pos rfl, hct, busyBit]
  refine ⟨_, q, v, rfl, hmem, hqueue, by rw [hq]; rfl, by rw [hq]; rfl, hqtok, by rw [hq]; rfl, by rw [hq]; rfl, by rw [hq]; rfl, by rw [hq]; rfl,
    by rw [hq]; rfl, by rw [hq]; rfl, by rw [hq]; rfl, hunit, by rw [hv], by rw [hv], ?_, fun j hj => ?_, fun h hn hh => ?_, fun h hn hh => ?_⟩
  · rw [hbit]
    simp
  · rw [hbit]
    simp [hj]
  · rw [hhandle, hq]
    exact claimFor_source hn hh
  · rw [hhandle, hq]
    exact claimFor_dest hn hh

/-! ### Bindings, tokens and follow-ons (R204, R211, R227) -/

section
variable {s : State} {u : UnitSt} {e : BitVec 1}

/-- The unit with a stream register bound, or unbound. -/
def bound (u : UnitSt) (n : BitVec 3) (b : Option QBind) : UnitSt := u.modMem fun m => { m with q := m.q.set n.toFin b }

theorem bound_q (u : UnitSt) (n : BitVec 3) (m : Fin 8) (b : Option QBind) :
    (bound u n b).umem.q.get m = if m = n.toFin then b else u.umem.q.get m :=
  vector_get_set u.umem.q n.toFin m b

theorem execQbnd_unbind (hu : AtIssue s u) (hl : Unlent s) {d : BitVec 1} {n : BitVec 3} (hs : streamUses s s.issue.me u n = false) :
    exec (.qbnd e 1 d n) s = .next (done (s.setUnit s.issue.me (bound u n none))) := by
  rw [exec_qbnd, execQbnd, runSlot_done hu]
  · rfl
  · dsimp only
    rw [firstFail_noLend hl, hs]
    rfl

theorem execQbnd_bind (hu : AtIssue s u) (hl : Unlent s) {d : BitVec 1} {n : BitVec 3} (hs : streamUses s s.issue.me u n = false)
    {h : Handle} (hh : u.handle? ((u.cgReg e 0).extractLsb' 0 8) = some h) (hr : h.ring = true) (hz : h.slabSize = 64) :
    exec (.qbnd e 0 d n) s = .next (done (s.setUnit s.issue.me (bound u n (some ⟨(u.cgReg e 0).extractLsb' 0 8, d == 1⟩)))) := by
  rw [exec_qbnd, execQbnd, runSlot_done hu]
  · rfl
  · dsimp only
    rw [firstFail_noLend hl, hs, if_neg (by decide), hh]
    dsimp only
    rw [hr, hz]
    rfl

theorem execQbnd_fault (hu : AtIssue s u) (hl : Unlent s) {d : BitVec 1} {n : BitVec 3}
    {h : Handle} (hh : u.handle? ((u.cgReg e 0).extractLsb' 0 8) = some h) (hr : h.ring = false ∨ h.slabSize ≠ 64) :
    exec (.qbnd e 0 d n) s = .next (faulted s cRing (((u.cgReg e 0).extractLsb' 0 8).setWidth 80)) := by
  rw [exec_qbnd, execQbnd, runSlot_fault hu]
  dsimp only
  have hbad : (!h.ring || h.slabSize != 64) = true := by simpa using hr
  rw [firstFail_noLend hl, if_neg (by decide), hh]
  dsimp only
  rw [hbad]
  rfl

theorem execTwait_done (hu : AtIssue s u) (hl : Unlent s) {m : BitVec 16} (h : u.eng.tok.get e.toFin &&& m = 0) :
    exec (.twait e m) s = .next (done s) := by
  rw [exec_twait, execTwait, runSlot_done hu]
  rw [firstFail_noLend hl, h]
  rfl

theorem execTwait_wait (hu : AtIssue s u) (hl : Unlent s) {m : BitVec 16} (h : u.eng.tok.get e.toFin &&& m ≠ 0) :
    exec (.twait e m) s = .next (noteResult s (.wait .token)) := by
  rw [exec_twait, execTwait, runSlot_wait hu]
  rw [firstFail_noLend hl, if_pos (by simpa using h)]
  rfl

theorem execCfol_array (hu : AtIssue s u) (hl : Unlent s) {t : BitVec 4} (h : launchOwnsArray s u = false) :
    exec (.cfol e t) s = .next (faulted s cArray u.bundleVa) := by
  rw [exec_cfol, execCfol, runSlot_fault hu]
  rw [firstFail_noLend hl, h]
  rfl

theorem execCfol_copy (hu : AtIssue s u) (hl : Unlent s) {t : BitVec 4} (h : launchOwnsArray s u = true)
    (hi : (u.cgReg e 7).extractLsb' 28 4 ≠ 8) : exec (.cfol e t) s = .next (faulted s cCopy u.bundleVa) := by
  rw [exec_cfol, execCfol, runSlot_fault hu]
  have hbad : ((u.cgReg e 7).extractLsb' 28 4 != 8) = true := by simpa using hi
  rw [firstFail_noLend hl, h, hbad]
  rfl

/-- The follow-on that CFOL adds. -/
def followOn (s : State) (u : UnitSt) (e : BitVec 1) (t : BitVec 4) : Follow :=
  ⟨s.issue.me, e, t, (u.cgReg e 7).extractLsb' 0 32, (u.cgReg e 7).extractLsb' 32 8, u.flow.pc.addr, s.issue.slot,
    !(u.eng.tok.get e.toFin).getLsbD t.toNat, true, none⟩

theorem execCfol_done (hu : AtIssue s u) (hl : Unlent s) {t : BitVec 4} (h : launchOwnsArray s u = true)
    (hi : (u.cgReg e 7).extractLsb' 28 4 = 8) :
    exec (.cfol e t) s = .next (done (s.modCluster u.ident.cluster fun k => { k with follows := k.follows ++ [followOn s u e t] })) := by
  rw [exec_cfol, execCfol, runSlot_done hu]
  · rfl
  · rw [firstFail_noLend hl, h, hi]
    rfl

end

/-! ### CABT (R225, R228) -/

/-- Commands abandoned one by one: none of them stands in the queue, no other enters it, and memory stands where none is bound to a
barrier. -/
theorem foldl_abandonCmd {i : Uid} (cl : ClusterNo) (e : BitVec 1) (l : List CopyCmd) (hl : ∀ c ∈ l, c.uid = some i) (s : State) {u : UnitSt}
    (hu : s.unit? i = some u) :
    (∀ q ∈ ((l.foldl (fun s c => abandonCmd s cl e c) s).engine cl e).queue, q ∈ (s.engine cl e).queue ∧ ∀ c ∈ l, q.id ≠ c.id) ∧
      ((∀ c ∈ l, c.bar = false) → (l.foldl (fun s c => abandonCmd s cl e c) s).mem = s.mem) := by
  induction l generalizing s u with
  | nil => exact ⟨fun q hq => ⟨hq, fun c hc => absurd hc List.not_mem_nil⟩, fun _ => rfl⟩
  | cons c l ih =>
    obtain ⟨hc, hl⟩ := List.forall_mem_cons.1 hl
    have hb := abandonCmd_behind (cl := cl) (e := e) hc hu
    obtain ⟨w, hw, -⟩ := hb.unit i _ (Elements.withoutCmd_unit hu ..)
    obtain ⟨hqueue, hmem⟩ := ih hl _ hw
    refine ⟨fun q hq => ?_, fun hbar => ?_⟩
    · obtain ⟨hin, hids⟩ := hqueue q hq
      rw [hb.engine, Elements.withoutCmd_queue, List.mem_filter] at hin
      exact ⟨hin.1, List.forall_mem_cons.2 ⟨by simpa using hin.2, hids⟩⟩
    · obtain ⟨hbc, hbl⟩ := List.forall_mem_cons.1 hbar
      exact (hmem hbl).trans (hb.mem hbc)

theorem abandonAll_spec {s : State} {i : Uid} {u : UnitSt} (hu : s.unit? i = some u) (cl : ClusterNo) (e : BitVec 1) (ok : CopyCmd → Bool) :
    ((∀ q ∈ (s.engine cl e).queue, q.bar = false) → (abandonAll s cl e i ok).mem = s.mem) ∧
      ∀ q ∈ ((abandonAll s cl e i ok).engine cl e).queue, q.uid = some i → ok q = true → q.publDone = true := by
  obtain ⟨hqueue, hmem⟩ := foldl_abandonCmd cl e
    ((s.engine cl e).queue.filter fun c => c.uid == some i && ok c && !c.publDone) (i := i)
    (fun c hc => by simp only [List.mem_filter, Bool.and_eq_true, beq_iff_eq] at hc; exact hc.2.1.1) s hu
  refine ⟨fun hbar => hmem fun c hc => hbar c (List.mem_filter.1 hc).1, fun q hq hi ho => ?_⟩
  obtain ⟨hin, hids⟩ := hqueue q hq
  by_contra hd
  exact hids q (List.mem_filter.2 ⟨hin, by simp [hi, ho, hd]⟩) rfl

/-- Settles O40: each C slot's checks, waits and effect, through the shared slot of the copy commands. -/
theorem copySlots : Obligations.CopySlots := by
  refine ⟨fun s u e t b f y x k z i hu hl r hr => ?_, fun s u e hu hl => ⟨fun n d hs => ⟨?_, ?_, ?_⟩, fun m => ⟨?_, ?_⟩, fun t => ⟨?_, ?_, ?_⟩, fun m => ?_⟩⟩
  · obtain ⟨hexec, htok⟩ := copyForms_slot e t b f y x k z i s r hr
    simp only [hexec]
    refine ⟨fun n code a => copySlot_fault hu hl, fun hc hm => ⟨fun h => ?_, fun h hq => ?_, fun h hq ht => ?_, fun hw => ?_⟩⟩
    · exact copySlot_wait hu hl hc hm (copyWaits_bank h)
    · exact copySlot_wait hu hl hc hm (copyWaits_queue h hq)
    · rw [← htok] at ht
      exact copySlot_wait hu hl hc hm (copyWaits_token h hq ht)
    · rw [copySlot_done hu hl hc hm hw]
      obtain ⟨w, q, v, hdone, hrest⟩ := acceptCopy_entry (e := e) (op := r.op) hu htok
      exact ⟨w, q, v, congrArg _ hdone, hrest⟩
  · exact ⟨_, execQbnd_unbind hu hl hs, by rw [bound_q, if_pos rfl], fun m hm => by rw [bound_q, if_neg hm], rfl, rfl⟩
  · intro h hh hr hz
    exact ⟨_, execQbnd_bind hu hl hs hh hr hz, by rw [bound_q, if_pos rfl], fun m hm => by rw [bound_q, if_neg hm], rfl, rfl⟩
  · intro h hh hr
    exact execQbnd_fault hu hl hh hr
  · exact execTwait_done hu hl
  · exact execTwait_wait hu hl
  · exact execCfol_array hu hl
  · exact execCfol_copy hu hl
  · intro ho hi
    refine ⟨_, followOn s u e t, execCfol_done hu hl ho hi, rfl, rfl, ?_, rfl, rfl, rfl, rfl⟩
    rw [State.cluster_modCluster_self]
  · obtain ⟨hmem, hqueue⟩ := abandonAll_spec hu u.ident.cluster e fun c => m.getLsbD c.tok.toNat
    refine ⟨_, ?_, hmem, hqueue⟩
    rw [exec_cabt, execCabt, runSlot_done hu (noLend_of_unlent hl)]

end Sys2Proof.CopyIssue
end

section
/-! PROOFS.
An array command of a unit that neither owns the array nor has the ring that the command names: R36's order puts the handle's fault
before the array's. -/

-- One proof at a time: the check of the whole text has a limit on memory, which many threads would reach.
set_option Elab.async false

namespace Sys2Proof.RinglessCommand

open Sys2Proof.Machine Sys2Proof.Safety

/-- One unit without a handle, at issue on a core whose array no launch owns. -/
def ringless : State := { State.reset with units := [CrowdedSlice.loner] }

theorem ringless_atIssue : AtIssue ringless CrowdedSlice.loner := rfl

theorem ringless_owns : ownsArray ringless ringless.issue.me CrowdedSlice.loner = false := rfl

/-- Its weight load names a handle that is not allocated. -/
theorem arrayCheck_ringless (c : ArrayCmd) (hc : c.op = 0) : arrayCheck ringless CrowdedSlice.loner c = .fault cTile (handleAddr c.wh) := by
  have hrings (a : ArraySt) : c.rings a = [(c.wh, c.weightSlab, 0)] := by
    rw [ArrayCmd.rings, hc]
    rfl
  rw [arrayCheck, hrings]
  rfl

/-- Its command, as AWLD makes it. -/
def unringed : ArrayCmd :=
  mkArrayCmd ringless ringless.issue.me CrowdedSlice.loner 0 ((0#1).setWidth 24) CrowdedSlice.loner.flow.pc.addr ringless.issue.slot none

theorem exec_awld_ringless : exec (.awld 0) ringless = .next (faulted ringless cTile (handleAddr unringed.wh)) := by
  rw [exec_awld, execAwld, arraySlot]
  refine runSlot_fault ringless_atIssue ?_
  show firstFail [noLend ringless CrowdedSlice.loner, arrayCheck ringless CrowdedSlice.loner unringed, _] = _
  rw [noLend_of_unlent rfl, firstFail_done, arrayCheck_ringless unringed rfl, firstFail_fault]

/-- A fault's code is what its slot answers. -/
theorem faulted_code {s : State} {c d : BitVec 8} {a b : Va} (h : faulted s c a = faulted s d b) : c = d := by
  have hr : SlotResult.fault c a = .fault d b := congrArg (fun t : State => t.issue.result) h
  cases hr
  rfl

/-- Refutes O41: an AWLD of a unit that does not own the array takes TILE_FAULT where its ring is not allocated. -/
theorem not_arraySlots : ¬ Obligations.ArraySlots := by
  intro h
  obtain ⟨hforms, -⟩ := h
  obtain ⟨howned, -⟩ := hforms ringless CrowdedSlice.loner 0 0 0 0 0 0 0 0 0 0 ringless_atIssue rfl (Instr.awld 0, 0#4, (0#1).setWidth 24)
    List.mem_cons_self
  have hcodes := exec_awld_ringless.symm.trans (howned ringless_owns)
  have hcode : cTile = cArray := faulted_code (Host.Outcome.next.inj hcodes)
  exact absurd hcode (by decide)

end Sys2Proof.RinglessCommand
end

section
/-! PROOFS.
An atomic with release order on a core that holds a dirty byte of a line which another die holds under another key slot (R121, R325):
the flush of its release collapses the line, and memory changes at issue. -/

-- One proof at a time: the check of the whole text has a limit on memory, which many threads would reach.
set_option Elab.async false

namespace Sys2Proof.ReleasedLine

open Sys2Proof.Machine Sys2Proof.Safety Sys2Proof.CrowdedSlice Sys2Proof.DeviceStep Sys2Proof.CacheStep Sys2Proof.OutwardAccess Sys2Proof.Prompter

/-- Virtual page 0 as a synchronisation page in the frame at 0. -/
def syncFrame : TlbEntry := { plainPage with sync := true }

/-- Line 8 in M in a slice of die 1, under key slot 1. -/
def farLine : SliceLine := { askedLine with line := 8, st := .m, data := 0xFF, key := 1 }

/-- The directory's entry of it. -/
def farEntry : DirEntry :=
  { line := 8, st := .m, owner := some 1, sharers := 0, queue := [], cur := none, invs := 0, rdis := 0, pushes := 0, fwd := false,
    collapsed := 0, redirects := 0, helpers := 0, key := 1, late := [], trimDue := false }

/-- Line 8 in the cluster cache of core 0, its first byte dirty, under key slot 0. -/
def strayLine : CacheLine := { line := 8, data := 0, dirty := 1, key := 0, rfloor := 0, rceil := 0, poison := false }

/-- The unit at issue. -/
def straying : State :=
  { State.reset with
    units := [loner]
    clusters := State.reset.clusters.set 0
      { Cluster.reset with running := some 0, order := [0], tlb := [syncFrame], cache := [strayLine] }
    dies := State.reset.dies.set 1 { Die.reset with lines := [farLine] }
    hub := { Hub.reset with contexts := [fetchContext], dir := { Hub.reset.dir with entries := [farEntry] } } }

theorem straying_atIssue : AtIssue straying loner := by rfl

theorem straying_noHazard : NoHazard loner [.scalar 0, .scalar 0] [(.scalar 0, syncLand straying loner)] := by rfl

theorem straying_unwatched : watchHit loner (syncVa straying loner 0) 4 true true = false := by rfl

theorem straying_syncs : Syncs straying loner (syncVa straying loner 0) .atomic ((0 : BitVec 6) != 0) 2 1 0 syncFrame false where
  translated := by rfl
  page := by rfl
  order := by rfl
  room := by decide
  budget := by rfl

/-- The atomic's request in `straying`, and the state that its release starts from. -/
def strayReq : SyncReq × State := newSync straying loner (.op 0) (syncVa straying loner 0) .atomic 2 1 1

theorem heldLine_straying : heldLine straying 8 = some (0xFF, false, 1) := by rfl

theorem dirEntry?_straying : dirEntry? straying 8 = some farEntry := by rfl

/-- The flush of core 0 writes line 8 to memory as die 1 held it. -/
theorem flushDie_straying {s : State} (hd : s.dies = straying.dies) (hh : s.hub.dir = straying.hub.dir)
    (hc : s.cluster 0 = straying.cluster 0) (hm : s.mem = []) : (flushDie s 0).mem = Memory.writeBytes [] (128 * 8) (bytesOfLine 0xFF) := by
  let v := s.modCluster 0 fun k => { k with cache := k.cache.map fun l => { l with dirty := l.dirty &&& heldBytes (s.cluster 0) l.line } }
  have hsame : SameLine straying v 8 := .of_eq hh hd
  have hfilter : ((s.cluster 0).cache.filter fun l => looseBytes (s.cluster 0) l != 0) = [strayLine] := by
    rw [hc]
    rfl
  have hflush : flushDie s 0 = mergeIntoSlice v (dieOf 0) 8 0 (looseBytes (s.cluster 0) strayLine) 0 0 0 := by
    unfold flushDie
    dsimp only
    rw [hfilter]
    rfl
  have hunder : underKey v 8 0 = collapseLine v 8 := by
    rw [underKey, hsame.entry, dirEntry?_straying]
    rfl
  obtain ⟨q, hq⟩ := collapseFor_of_held (hsame.heldLine.trans heldLine_straying) none
  have hmem : v.mem = [] := hm
  rw [hflush, mergeIntoSlice_mem, hunder, collapseLine, hq, writeMemLine]
  dsimp only
  rw [uncached_mem, hmem]

theorem straying_checks : firstFail ([stallCheck loner [.scalar 0, .scalar 0] [(.scalar 0, syncLand straying loner)],
    failIf ((syncVa straying loner 0).toNat % 4 != 0) cMisaligned (syncVa straying loner 0)] ++
    syncChecks straying loner (syncVa straying loner 0) .atomic (watchCheck loner (syncVa straying loner 0) 4 true true) false) = .done := by
  rfl

/-- The AADD's request. -/
def addReq : SyncReq := { strayReq.1 with width := 1, size := 4, x := (loner.reg 0).setWidth 512, cmp := 0, signed := true }

/-- What the slot does in `straying`: an entry that discards its value, and a release of scope 1 that carries the request. -/
def atomicDone : State :=
  issueSync strayReq.2 loner addReq (some (.scalar 0, syncLand straying loner)) true

theorem exec_aadd_straying : exec (.aadd 0 0 0 1 2 1) straying = .next (done atomicDone) := by
  rw [exec_aadd, execAadd, atomicSlot]
  exact runSlotW_done straying_atIssue straying_checks

/-- A request with release order at a scope beyond the cluster starts a release. -/
theorem issueSync_release (s : State) (u : UnitSt) (q : SyncReq) (d : Dest) (lat : Nat) (h : q.scope ≠ 0) :
    issueSync s u q (some (d, lat)) true = startRelease (s.setUnit s.issue.me (u.push (awaitedEntry s u d lat q.id q.va))) q.uid
      u.ident.cluster q.scope (.sync { q with posted := d.discarded }) := by
  have hr (t : State) : releases t q.uid u.ident.cluster q.scope = true := by rw [releases, bne_iff_ne.mpr h, Bool.true_or]
  unfold issueSync
  dsimp only
  rw [hr]
  rfl

theorem startRelease_mem {s : State} {c : ClusterNo} (hc : canRelease s c = true) {scope : BitVec 2} (h : scope ≠ 0) (uid : Uid)
    (p : RelPayload) : (startRelease s uid c scope p).mem = (flushDie s c).mem := by
  unfold startRelease
  dsimp only
  rw [hc, bne_iff_ne.mpr h]
  rfl

theorem atomicDone_mem : atomicDone.mem = Memory.writeBytes [] (128 * 8) (bytesOfLine 0xFF) := by
  have hpa : paOf straying loner (syncVa straying loner 0) .atomic = (0, some syncFrame) := Access.paOf_ok straying_syncs.translated
  have hcost : ContextsOnly straying (costsTake straying loner.ident.asid (slotKey straying) (syncCost loner.ident.cluster 0 1 .atomic)) :=
    costsTake_contextsOnly ..
  have hreq : strayReq.2 = (costsTake straying loner.ident.asid (slotKey straying) (syncCost loner.ident.cluster 0 1 .atomic)).newReq.2 := by
    rw [strayReq, newSync, hpa]
  have hscope : addReq.scope ≠ 0 := by decide
  have hrels : canRelease straying 0 = true := by rfl
  unfold atomicDone
  rw [issueSync_release _ _ _ _ _ hscope, hreq]
  generalize costsTake straying loner.ident.asid (slotKey straying) (syncCost loner.ident.cluster 0 1 .atomic) = s at hcost ⊢
  have hcluster : s.cluster 0 = straying.cluster 0 := hcost.cluster 0
  refine (startRelease_mem ?_ hscope _ _).trans (flushDie_straying ?_ ?_ hcluster hcost.mem)
  · rw [← hrels]
    exact congrArg (fun k : Cluster => k.rels.isEmpty) hcluster
  · show s.dies = straying.dies
    rw [hcost.eq]
  · show s.hub.dir = straying.hub.dir
    rw [hcost.eq]

theorem done_mem_inj {s t : State} (h : done s = done t) : s.mem = t.mem := by
  have hmem : (done s).mem = (done t).mem := by rw [h]
  exact hmem

/-- Refutes O42: in `straying` an AADD with release order at scope 1 writes memory at issue. -/
theorem not_atomicsAndBarriers : ¬ Obligations.AtomicsAndBarriers := by
  intro h
  obtain ⟨hsync, -⟩ := h
  obtain ⟨hatoms, -⟩ := hsync straying loner 0 0 0 1 2 1 0 syncFrame false straying_atIssue
  obtain ⟨-, hdone⟩ := hatoms ⟨0x00, .aadd, none, false, true⟩ List.mem_cons_self straying_noHazard
  obtain ⟨t, q, ht, hmem, -⟩ := hdone (by rfl) straying_unwatched straying_syncs
  have hsame : atomicDone.mem = t.mem := done_mem_inj (Host.Outcome.next.inj (exec_aadd_straying.symm.trans ht))
  have hread : Memory.read (Memory.writeBytes [] (128 * 8) (bytesOfLine 0xFF)) (128 * 8) = 0 := by
    rw [← atomicDone_mem, hsame, hmem]
    rfl
  have hbyte : Memory.read (Memory.writeBytes [] (128 * 8) (bytesOfLine 0xFF)) (128 * 8) = lineByte 0xFF 0 :=
    read_writeLine (k := 0) rfl (by decide)
  have hfull : lineByte 0xFF 0 = 0xFF := by simp [lineByte]
  exact absurd (hfull.symm.trans (hbyte.symm.trans hread)) (by decide)

end Sys2Proof.ReleasedLine
end

section
/-! PROOFS.
The end of a unit that does not halt (R16, R17, R350): what it leaves of every unit, and that a completed unit stays as it ended. -/

-- One proof at a time: the check of the whole text has a limit on memory, which many threads would reach.
set_option Elab.async false

namespace Sys2Proof.Kills

open Sys2Proof.Machine Sys2Proof.Safety Sys2Proof.Sequencer Sys2Proof.Abandonment

/-! ### What the end of a unit can change of a unit -/

/-- The unit keeps its identity, registers, CSRs and chain, one that has been struck stays so, and one that has completed keeps its
status and record. -/
structure KeptUnit (u w : UnitSt) : Prop where
  ident : w.ident = u.ident
  regs : w.regs = u.regs
  csr : w.csr = u.csr
  flow : w.flow = u.flow
  bundles : w.run.bundles = u.run.bundles
  struck : u.curt.struck = true → w.curt.struck = true
  ended : u.live = false → w.run.status = u.run.status ∧ w.pend = u.pend

namespace KeptUnit

variable {u w x : UnitSt}

theorem refl (u : UnitSt) : KeptUnit u u := ⟨rfl, rfl, rfl, rfl, rfl, id, fun _ => ⟨rfl, rfl⟩⟩

theorem live_congr (h : w.run.status = u.run.status) : w.live = u.live := by
  unfold UnitSt.live
  rw [h]

theorem trans (h : KeptUnit u w) (h' : KeptUnit w x) : KeptUnit u x := by
  refine ⟨h'.ident.trans h.ident, h'.regs.trans h.regs, h'.csr.trans h.csr, h'.flow.trans h.flow, h'.bundles.trans h.bundles,
    fun hs => h'.struck (h.struck hs), fun hu => ?_⟩
  obtain ⟨hs, hp⟩ := h.ended hu
  obtain ⟨hs', hp'⟩ := h'.ended ((live_congr hs).trans hu)
  exact ⟨hs'.trans hs, hp'.trans hp⟩

/-- A live unit may take any status and any record. -/
theorem of_live (hu : u.live = true) (hi : w.ident = u.ident) (hr : w.regs = u.regs) (hc : w.csr = u.csr) (hf : w.flow = u.flow)
    (hb : w.run.bundles = u.run.bundles) (hs : u.curt.struck = true → w.curt.struck = true) : KeptUnit u w :=
  ⟨hi, hr, hc, hf, hb, hs, fun h => absurd (hu.symm.trans h) (by decide)⟩

end KeptUnit

/-- Every unit is kept, and the module. -/
structure Keeps (s t : State) : Prop where
  unit : ∀ j u, s.unit? j = some u → ∃ w, t.unit? j = some w ∧ KeptUnit u w
  mod : t.mod = s.mod

namespace Keeps

variable {s t v : State}

theorem of_units (h : t.units = s.units) (hm : t.mod = s.mod := by rfl) : Keeps s t :=
  ⟨fun j u hj => ⟨u, by rw [State.unit?, h]; exact hj, .refl u⟩, hm⟩

theorem refl (s : State) : Keeps s s := of_units rfl

theorem trans (h : Keeps s t) (h' : Keeps t v) : Keeps s v := by
  refine ⟨fun j u hj => ?_, h'.mod.trans h.mod⟩
  obtain ⟨w, hw, kw⟩ := h.unit j u hj
  obtain ⟨x, hx, kx⟩ := h'.unit j w hw
  exact ⟨x, hx, kw.trans kx⟩

theorem foldl {α : Type} {f : State → α → State} (h : ∀ s x, Keeps s (f s x)) (l : List α) (s : State) : Keeps s (l.foldl f s) := by
  induction l generalizing s with
  | nil => exact refl s
  | cons x l ih => exact (h s x).trans (ih (f s x))

theorem ite {c : Prop} [Decidable c] (ht : Keeps s t) (hv : Keeps s v) : Keeps s (if c then t else v) := by
  split
  · exact ht
  · exact hv

theorem of_behind {q : Prop} (h : Behind q s t) : Keeps s t := by
  refine ⟨fun j u hj => ?_, h.mod⟩
  obtain ⟨w, hw, ew⟩ := h.unit j u hj
  refine ⟨w, hw, ?_⟩
  rw [ew]
  exact ⟨rfl, rfl, rfl, rfl, rfl, id, fun _ => ⟨rfl, rfl⟩⟩

theorem of_append {l : List UnitSt} (h : t.units = s.units ++ l) (hm : t.mod = s.mod := by rfl) : Keeps s t := by
  refine ⟨fun j u hj => ?_, hm⟩
  have hlt : j < s.units.length := (List.getElem?_eq_some_iff.mp hj).1
  refine ⟨u, ?_, .refl u⟩
  rw [State.unit?, h, List.getElem?_append_left hlt]
  exact hj

end Keeps

theorem modUnit_keeps_of {s : State} {i : Uid} {f : UnitSt → UnitSt} (hf : ∀ u, s.unit? i = some u → KeptUnit u (f u)) :
    Keeps s (s.modUnit i f) := by
  refine ⟨fun j u hj => ?_, rfl⟩
  by_cases hij : i = j
  · subst hij
    exact ⟨f u, State.unit?_modUnit_self hj, hf u hj⟩
  · exact ⟨u, (State.unit?_modUnit_ne hij).trans hj, .refl u⟩

theorem modRun_keeps (s : State) (i : Uid) {f : RunSt → RunSt} (hf : ∀ r, (f r).status = r.status ∧ (f r).bundles = r.bundles) :
    Keeps s (s.modUnit i fun u => u.modRun f) :=
  modUnit_keeps_of fun u _ => ⟨rfl, rfl, rfl, rfl, (hf u.run).2, id, fun _ => ⟨(hf u.run).1, rfl⟩⟩

theorem setUnit_keeps {s : State} {i : Uid} {u v : UnitSt} (hu : s.unit? i = some u) (hv : KeptUnit u v) : Keeps s (s.setUnit i v) := by
  refine ⟨fun j x hj => ?_, rfl⟩
  by_cases hij : i = j
  · subst hij
    cases hu.symm.trans hj
    exact ⟨v, State.unit?_setUnit_self hu, hv⟩
  · exact ⟨x, (State.unit?_setUnit_ne hij).trans hj, .refl x⟩

/-! ### Prompter slots (R338, R339) -/

theorem rebuildOrder_keeps (s : State) (c : ClusterNo) : Keeps s (rebuildOrder s c) := by
  unfold rebuildOrder
  dsimp only
  split
  · exact .of_units rfl
  · split
    · exact .of_units rfl
    · refine .ite (.trans ?_ (modRun_keeps _ _ (f := fun x => { x with preempt := true }) fun _ => ⟨rfl, rfl⟩)) (.of_units rfl)
      exact .of_units rfl

theorem startPrompter_keeps (s : State) (k : Context) (slot : BitVec 6) (c : ClusterNo) (i : Uid) : Keeps s (startPrompter s k slot c i) :=
  .of_append rfl

/-- A unit in a state other than its completion is live. -/
theorem live_of_status {u : UnitSt} {x : Status} (h : (u.run.status == x) = true) (hx : ∀ e, x ≠ .complete e) : u.live = true := by
  have hs : u.run.status = x := by simpa using h
  unfold UnitSt.live
  rw [hs]
  cases x with
  | complete e => exact absurd rfl (hx e)
  | _ => rfl

/-- What a search keeps of every candidate holds of what it finds. -/
theorem foldl_found {α β : Type} {p : α → Prop} {f : Option α → β → Option α}
    (hf : ∀ b x, (∀ a, b = some a → p a) → ∀ a, f b x = some a → p a) (l : List β) (b : Option α) (hb : ∀ a, b = some a → p a) (a : α)
    (h : l.foldl f b = some a) : p a := by
  induction l generalizing b with
  | nil => exact hb a h
  | cons x l ih => exact ih (f b x) (hf b x hb) h

theorem oldestUnit_ok {s : State} {a : BitVec 16} {ok : UnitSt → Bool} {i : Uid} (h : oldestUnit s a ok = some i) :
    ∃ u, s.unit? i = some u ∧ ok u = true := by
  unfold oldestUnit at h
  refine foldl_found (p := fun i => ∃ u, s.unit? i = some u ∧ ok u = true) (fun b j hb k hk => ?_) _ none (by simp) i h
  split at hk
  · next v hv =>
    split at hk
    · next hok =>
      have hj : ∃ u, s.unit? j = some u ∧ ok u = true := ⟨v, hv, (Bool.and_eq_true _ _ ▸ hok).2⟩
      split at hk
      · cases hk
        exact hj
      · split at hk
        · split at hk
          · cases hk
            exact hj
          · exact hb k hk
        · cases hk
          exact hj
    · exact hb k hk
  · exact hb k hk

theorem capUnit_live {s : State} {p : UnitSt} {kc : Word} {i : Uid} (h : capUnit s p kc = some i) :
    ∃ u, s.unit? i = some u ∧ u.live = true := by
  unfold capUnit at h
  split at h
  · cases h
  · split at h
    · have hi := List.find?_some h
      split at hi
      · next u hu =>
        simp only [Bool.and_eq_true] at hi
        exact ⟨u, hu, live_of_status hi.1.1 fun e he => by cases he⟩
      · cases hi
    · cases h

theorem dropCap_keeps {s : State} {i : Uid} {u : UnitSt} (hu : s.unit? i = some u) (hl : u.live = true) : Keeps s (dropCap s i) := by
  refine modUnit_keeps_of fun v hv => ?_
  cases hu.symm.trans hv
  exact .of_live hl rfl rfl rfl rfl rfl id

theorem dropCaps_keeps (s : State) (i : Uid) : Keeps s (dropCaps s i) := by
  unfold dropCaps
  split
  · exact .refl s
  · next p hp =>
    refine .trans (.foldl (fun s k => ?_) _ s) (modUnit_keeps_of fun u _ => ⟨rfl, rfl, rfl, rfl, rfl, id, fun _ => ⟨rfl, rfl⟩⟩)
    split
    · next v hv =>
      obtain ⟨u, hu, hl⟩ := capUnit_live hv
      exact dropCap_keeps hu hl
    · exact .refl s

theorem waitForPen_keeps (s : State) (a : BitVec 16) (c : ClusterNo) : Keeps s (waitForPen s a c) := by
  refine ⟨fun j u hj => ?_, rfl⟩
  refine ⟨_, (List.getElem?_map ..).trans (congrArg _ hj), ?_⟩
  dsimp only
  split
  · next h =>
    simp only [Bool.and_eq_true] at h
    exact .of_live (live_of_status h.2 fun e he => by cases he) rfl rfl rfl rfl rfl id
  · exact .refl u

theorem giveSlot_keeps (s : State) (a : BitVec 16) (c : ClusterNo) (slot : BitVec 6) : Keeps s (giveSlot s a c slot) := by
  unfold giveSlot
  split
  · exact .refl s
  · split
    · exact waitForPen_keeps ..
    · split
      · exact startPrompter_keeps ..
      · split
        · next v hv =>
          split
          · refine .trans (modUnit_keeps_of fun u hu => ?_) (startPrompter_keeps ..)
            obtain ⟨w, hw, hok⟩ := oldestUnit_ok hv
            cases hw.symm.trans hu
            exact .of_live (live_of_status hok fun e he => by cases he) rfl rfl rfl rfl rfl id
          · exact .refl s
        · exact .refl s

theorem freePrompter_keeps (s : State) (i : Uid) (p : UnitSt) (slot : BitVec 6) : Keeps s (freePrompter s i p slot) := by
  refine (dropCaps_keeps s i).trans (.trans ?_ (giveSlot_keeps ..))
  exact .of_units rfl

/-! ### Completion (R16) -/

/-- The unit as it completes. -/
def endedUnit (u : UnitSt) (e : EndStatus) : UnitSt :=
  (({ u with pend := [], drops := [] } : UnitSt).modRun fun r =>
    { r with status := .complete e, wait := none, due := [], preempt := false }).modSyncSt fun y =>
    { y with members := [], barawReq := none, barwaitReq := none, barwaitReply := none }

theorem endedUnit_live (u : UnitSt) (e : EndStatus) : (endedUnit u e).live = false := rfl

theorem modSyncs_units (f : SyncEngine → SyncEngine) (l : List DieNo) (s : State) : (l.foldl (fun s d => s.modSync d f) s).units = s.units := by
  induction l generalizing s with
  | nil => rfl
  | cons d l ih => exact ih _

theorem modSyncs_mod (f : SyncEngine → SyncEngine) (l : List DieNo) (s : State) : (l.foldl (fun s d => s.modSync d f) s).mod = s.mod := by
  induction l generalizing s with
  | nil => rfl
  | cons d l ih => exact ih _

theorem endSegment_mod (s : State) (i : Uid) (c : ClusterNo) : (endSegment s i c).mod = s.mod := by
  unfold endSegment
  dsimp only
  split <;> rfl

theorem launchUnitDone_units (s : State) (l : Nat) : (launchUnitDone s l).units = s.units := rfl

theorem launchDone_keeps (s : State) (l : Option Nat) : Keeps s (match l with | some l => launchUnitDone s l | none => s) := by
  split
  · exact .of_units rfl
  · exact .refl s

theorem promptDone_keeps (s : State) (i : Uid) (u : UnitSt) (p : Option (BitVec 6)) :
    Keeps s (match p with | some slot => freePrompter s i u slot | none => s) := by
  split
  · exact freePrompter_keeps ..
  · exact .refl s

/-- The unit completes, and every unit is kept from there. -/
theorem completeUnit_keeps {s : State} {i : Uid} {u : UnitSt} (hu : s.unit? i = some u) (e : EndStatus) :
    Keeps (s.setUnit i (endedUnit u e)) (completeUnit s i e) := by
  unfold completeUnit
  rw [hu]
  dsimp only
  refine .trans (.trans (.trans (.of_units ?_ ?_) (launchDone_keeps _ u.ident.launch)) (promptDone_keeps _ i u u.ident.prompt))
    (rebuildOrder_keeps ..)
  · rw [modSyncs_units, State.modCluster_units, State.setUnit_units, endSegment_units]
    rfl
  · exact (modSyncs_mod ..).trans (endSegment_mod ..)

theorem completeUnit_unit {s : State} {i : Uid} {u : UnitSt} (hu : s.unit? i = some u) (e : EndStatus) :
    ∃ w, (completeUnit s i e).unit? i = some w ∧ w.run.status = .complete e ∧ w.pend = [] ∧ KeptUnit (endedUnit u e) w := by
  obtain ⟨w, hw, hk⟩ := (completeUnit_keeps hu e).unit i _ (State.unit?_setUnit_self hu)
  obtain ⟨hs, hp⟩ := hk.ended (endedUnit_live u e)
  exact ⟨w, hw, hs, hp, hk⟩

/-! ### The work of a unit cut (R225, R262, R281) -/

variable {q : Prop}

theorem withoutCmd_keeps (s : State) (cl : ClusterNo) (e : BitVec 1) (c : CopyCmd) (i : Uid) : Keeps s (withoutCmd s cl e c i) := by
  unfold withoutCmd setToken
  refine .trans ?_ (modUnit_keeps_of fun u _ => ⟨rfl, rfl, rfl, rfl, rfl, id, fun _ => ⟨rfl, rfl⟩⟩)
  exact .of_units rfl

theorem withoutCmd_len (s : State) (cl : ClusterNo) (e : BitVec 1) (c : CopyCmd) (i : Uid) :
    (withoutCmd s cl e c i).units.length = s.units.length := List.length_modify ..

/-- Commands of a unit abandoned in order keep every unit, and no unit comes. -/
theorem foldl_abandonCmd_keeps {i : Uid} (cl : ClusterNo) (e : BitVec 1) (l : List CopyCmd) (hl : ∀ c ∈ l, c.uid = some i) (s : State)
    {u : UnitSt} (hu : s.unit? i = some u) :
    Keeps s (l.foldl (fun s c => abandonCmd s cl e c) s) ∧ (l.foldl (fun s c => abandonCmd s cl e c) s).units.length = s.units.length := by
  induction l generalizing s u with
  | nil => exact ⟨.refl s, rfl⟩
  | cons c l ih =>
    obtain ⟨hc, hl⟩ := List.forall_mem_cons.1 hl
    have hb := abandonCmd_behind (cl := cl) (e := e) hc hu
    obtain ⟨w, hw, -⟩ := hb.unit i _ (Elements.withoutCmd_unit hu ..)
    obtain ⟨hk, hlen⟩ := ih hl _ hw
    exact ⟨((withoutCmd_keeps s cl e c i).trans (.of_behind hb)).trans hk, hlen.trans (hb.len.trans (withoutCmd_len ..))⟩

theorem abandonAll_keeps {s : State} {i : Uid} {u : UnitSt} (hu : s.unit? i = some u) (cl : ClusterNo) (e : BitVec 1) (ok : CopyCmd → Bool) :
    Keeps s (abandonAll s cl e i ok) ∧ (abandonAll s cl e i ok).units.length = s.units.length := by
  refine foldl_abandonCmd_keeps cl e _ (fun c hc => ?_) s hu
  simp only [List.mem_filter, Bool.and_eq_true, beq_iff_eq] at hc
  exact hc.2.1.1

theorem dropClaims_behind (s : State) (c : ArrayCmd) (n : Nat) : Behind q s (dropClaims s c n) := by
  unfold dropClaims
  dsimp only
  refine .ite ?_ (.refl s)
  have hhead : Behind q s (if c.headSlabs = 0 then s else publishClaim s c.uid c.headRing false c.claim) :=
    .ite (.refl s) (publishClaim_behind ..)
  exact hhead.trans (.ite (.refl _) ((undefSlabs_behind ..).trans (publishClaim_behind ..)))

theorem modArray_behind (s : State) (c : ClusterNo) (f : ArraySt → ArraySt) : Behind q s (s.modArray c f) :=
  modCluster_behind s c rfl

theorem activate_behind (s : State) (c : ClusterNo) : Behind q s (activate s c) := by
  unfold activate
  exact .ite (.refl s) (.of_units rfl (fun _ => rfl) fun _ => rfl)

theorem chainSend_behind (s : State) (c : ClusterNo) (m : ChainMsg) : Behind q s (chainSend s c m) := by
  unfold chainSend
  split
  · exact (modArray_behind ..).trans (activate_behind ..)
  · exact .refl s

theorem endStream_behind (s : State) (c : ClusterNo) (st : StreamState) (cause : BitVec 3) : Behind q s (endStream s c st cause) := by
  unfold endStream
  dsimp only
  split
  · exact .refl s
  · exact ((modArray_behind ..).trans (.ite (dropClaims_behind ..) (.refl _))).trans (.ite (chainSend_behind ..) (.refl _))

theorem foldl_dropClaims_behind (l : List ArrayCmd) (s : State) : Behind q s (l.foldl (fun s x => dropClaims s x 0) s) :=
  .foldl (fun s x => dropClaims_behind s x 0) l s

theorem discardQueue_behind (s : State) (c : ClusterNo) : Behind q s (discardQueue s c) :=
  (modArray_behind s c _).trans (foldl_dropClaims_behind ..)

theorem payOwed_behind (s : State) (i : Uid) (c : ClusterNo) : Behind q s (payOwed s i c) := by
  unfold payOwed
  exact .ite (.refl s) ((modArray_behind s c _).trans (foldl_dropClaims_behind ..))

theorem dropExec_behind (s : State) (c : ClusterNo) :
    Behind q s (match (arrayOf s c).exec with | some e => dropClaims s e.cmd 0 | none => s) := by
  split
  · exact dropClaims_behind ..
  · exact .refl s

theorem killArray_behind (s : State) (i : Uid) (c : ClusterNo) : Behind q s (killArray s i c) := by
  unfold killArray
  dsimp only
  refine (payOwed_behind s i c).trans (.ite (.trans (.trans ?_ (dropExec_behind _ c)) (modArray_behind ..)) (.refl _))
  refine .trans (.trans ?_ (discardQueue_behind _ c)) (.foldl (fun s (k : Convert) => dropClaims_behind s k.cmd 0) _ _)
  exact .ite (endStream_behind ..) (.refl _)

theorem loseArrivals_behind (s : State) (i : Uid) (u : UnitSt) : Behind q s (loseArrivals s i u) :=
  .foldl (fun s _ => (newReq_behind s).trans (modDie_behind ..)) _ s

theorem cutUnit_keeps (s : State) (i : Uid) : Keeps s (cutUnit s i) ∧ (cutUnit s i).units.length = s.units.length := by
  unfold cutUnit
  split
  · exact ⟨.refl s, rfl⟩
  · next u hu =>
    dsimp only
    obtain ⟨k₀, n₀⟩ := abandonAll_keeps hu u.ident.cluster 0 fun _ => true
    obtain ⟨v, hv, -⟩ := k₀.unit i u hu
    obtain ⟨k₁, n₁⟩ := abandonAll_keeps hv u.ident.cluster 1 fun _ => true
    have hb : Behind True (abandonAll (abandonAll s u.ident.cluster 0 i fun _ => true) u.ident.cluster 1 i fun _ => true)
        (loseArrivals (killArray (abandonAll (abandonAll s u.ident.cluster 0 i fun _ => true) u.ident.cluster 1 i fun _ => true) i
          u.ident.cluster) i u) := (killArray_behind ..).trans (loseArrivals_behind ..)
    exact ⟨(k₀.trans k₁).trans (.of_behind hb), hb.len.trans (n₁.trans n₀)⟩

/-! ### What the end and the renewal of a wait leave (R282) -/

/-- Every unit but for its registrations, every core but for its releases, memory and the module are as they were. -/
structure WaitOnly (s t : State) : Prop where
  unit : ∀ j u, s.unit? j = some u → ∃ w, t.unit? j = some w ∧ w = { u with sync := w.sync }
  cluster : ∀ c, t.cluster c = { s.cluster c with rels := (t.cluster c).rels }
  mem : t.mem = s.mem
  mod : t.mod = s.mod
  len : t.units.length = s.units.length

namespace WaitOnly

variable {s t v : State}

theorem of_units (hu : t.units = s.units) (hc : ∀ c, t.cluster c = { s.cluster c with rels := (t.cluster c).rels })
    (hm : t.mem = s.mem) (hmod : t.mod = s.mod := by rfl) : WaitOnly s t :=
  ⟨fun j u hj => ⟨u, by rw [State.unit?, hu]; exact hj, rfl⟩, hc, hm, hmod, by rw [hu]⟩

theorem refl (s : State) : WaitOnly s s := of_units rfl (fun _ => rfl) rfl

theorem trans (h : WaitOnly s t) (h' : WaitOnly t v) : WaitOnly s v := by
  refine ⟨fun j u hj => ?_, fun c => ?_, h'.mem.trans h.mem, h'.mod.trans h.mod, h'.len.trans h.len⟩
  · obtain ⟨w, hw, ew⟩ := h.unit j u hj
    obtain ⟨x, hx, ex⟩ := h'.unit j w hw
    exact ⟨x, hx, by rw [ex, ew]⟩
  · rw [h'.cluster c, h.cluster c]

theorem foldl {α : Type} {f : State → α → State} (h : ∀ s x, WaitOnly s (f s x)) (l : List α) (s : State) :
    WaitOnly s (l.foldl f s) := by
  induction l generalizing s with
  | nil => exact refl s
  | cons x l ih => exact (h s x).trans (ih (f s x))

theorem keeps (h : WaitOnly s t) : Keeps s t := by
  refine ⟨fun j u hj => ?_, h.mod⟩
  obtain ⟨w, hw, ew⟩ := h.unit j u hj
  refine ⟨w, hw, ?_⟩
  rw [ew]
  exact ⟨rfl, rfl, rfl, rfl, rfl, id, fun _ => ⟨rfl, rfl⟩⟩

theorem core (h : WaitOnly s t) {c : ClusterNo} {k : Cluster} (hk : s.cluster c = k) : ∃ r, t.cluster c = { k with rels := r } :=
  ⟨_, hk ▸ h.cluster c⟩

end WaitOnly

theorem modSync_waitOnly (s : State) (d : DieNo) (f : SyncEngine → SyncEngine) : WaitOnly s (s.modSync d f) :=
  .of_units rfl (fun _ => rfl) rfl

theorem modSyncSt_waitOnly (s : State) (i : Uid) (f : UnitSync → UnitSync) : WaitOnly s (s.modUnit i fun u => u.modSyncSt f) := by
  refine ⟨fun j u hj => ?_, fun _ => rfl, rfl, rfl, List.length_modify ..⟩
  by_cases hij : i = j
  · subst hij
    exact ⟨_, State.unit?_modUnit_self hj, rfl⟩
  · exact ⟨u, (State.unit?_modUnit_ne hij).trans hj, rfl⟩

theorem modRels_waitOnly (s : State) (c : ClusterNo) (f : List Release → List Release) :
    WaitOnly s (s.modCluster c fun k => { k with rels := f k.rels }) := by
  refine .of_units rfl (fun d => ?_) rfl
  by_cases hd : c = d
  · subst hd
    rw [State.cluster_modCluster_self]
  · rw [State.cluster_modCluster_ne hd]

theorem mapRequests_waitOnly (s : State) (c : ClusterNo) (f : SyncReq → Option SyncReq) : WaitOnly s (mapRequests s c f) :=
  .trans (modRels_waitOnly s c _) (.foldl (fun s d => modSync_waitOnly s d _) _ _)

/-- The request of a BARWAIT taken back. -/
def takeBackWait (s : State) (u : UnitSt) : State :=
  match u.sync.barwaitReq with
  | some q =>
    let s := mapRequests s u.ident.cluster fun x => if x.id = q.id then none else some x
    (List.finRange 8).foldl (fun s d => s.modSync d fun y => { y with replies := y.replies.filter fun r => r.req.id != q.id }) s
  | none => s

/-- The wait of a BARAW taken back. -/
def takeBackArrival (s : State) (u : UnitSt) : State :=
  match u.sync.barawReq with
  | some q =>
    let s := mapRequests s u.ident.cluster fun x =>
      if x.id = q.id then (if x.kind == .rewait then none else some { x with waits := false }) else some x
    (List.finRange 8).foldl (fun s d => s.modSync d fun y =>
      { y with replies := y.replies.filter fun r => !(r.req.id == q.id && r.code == 0 && !r.retry) }) s
  | none => s

theorem takeBackWait_waitOnly (s : State) (u : UnitSt) : WaitOnly s (takeBackWait s u) := by
  unfold takeBackWait
  split
  · exact (mapRequests_waitOnly ..).trans (.foldl (fun s d => modSync_waitOnly s d _) _ _)
  · exact .refl s

theorem takeBackArrival_waitOnly (s : State) (u : UnitSt) : WaitOnly s (takeBackArrival s u) := by
  unfold takeBackArrival
  split
  · exact (mapRequests_waitOnly ..).trans (.foldl (fun s d => modSync_waitOnly s d _) _ _)
  · exact .refl s

theorem endWait_eq {s : State} {i : Uid} {u : UnitSt} (hu : s.unit? i = some u) : endWait s i =
    (dropWaiters (takeBackArrival (takeBackWait s u) u) fun w => w.uid == i).modUnit i fun u =>
      u.modSyncSt fun y => { y with barwaitReq := none, barwaitReply := none } := by
  rw [endWait, hu]
  rfl

theorem endWait_waitOnly (s : State) (i : Uid) : WaitOnly s (endWait s i) := by
  cases hu : s.unit? i with
  | none =>
    rw [endWait, hu]
    exact .refl s
  | some u =>
    rw [endWait_eq hu]
    exact (((takeBackWait_waitOnly s u).trans (takeBackArrival_waitOnly _ u)).trans
      (.foldl (fun s d => modSync_waitOnly s d _) _ _)).trans (modSyncSt_waitOnly ..)

theorem endWait_keeps (s : State) (i : Uid) : Keeps s (endWait s i) ∧ (endWait s i).units.length = s.units.length :=
  ⟨(endWait_waitOnly s i).keeps, (endWait_waitOnly s i).len⟩

/-! ### A unit killed (R17, R350) -/

/-- A live unit's end keeps every unit. -/
theorem complete_keeps {s t : State} {i : Uid} {u v : UnitSt} (hu : s.unit? i = some u) (hl : u.live = true) (h : Keeps s t)
    (hv : t.unit? i = some v) (e : EndStatus) : Keeps s (completeUnit t i e) := by
  refine ⟨fun j x hj => ?_, (completeUnit_keeps hv e).mod.trans h.mod⟩
  obtain ⟨y, hy, ky⟩ := h.unit j x hj
  have hset : ∃ z, (t.setUnit i (endedUnit v e)).unit? j = some z ∧ KeptUnit x z := by
    by_cases hij : i = j
    · subst hij
      cases hu.symm.trans hj
      cases hv.symm.trans hy
      exact ⟨_, State.unit?_setUnit_self hv, .of_live hl ky.ident ky.regs ky.csr ky.flow ky.bundles ky.struck⟩
    · exact ⟨y, (State.unit?_setUnit_ne hij).trans hy, ky⟩
  obtain ⟨z, hz, kz⟩ := hset
  obtain ⟨w, hw, kw⟩ := (completeUnit_keeps hv e).unit j z hz
  exact ⟨w, hw, kz.trans kw⟩

theorem endUnit_of_live {s : State} {i : Uid} {u : UnitSt} (hu : s.unit? i = some u) (hl : u.live = true) (e : EndStatus) :
    endUnit s i e = completeUnit (endWait (cutUnit s i) i) i e := by
  rw [endUnit, hu]
  exact if_pos hl

theorem endUnit_keeps (s : State) (i : Uid) (e : EndStatus) : Keeps s (endUnit s i e) := by
  cases hu : s.unit? i with
  | none =>
    rw [endUnit, hu]
    exact .refl s
  | some u =>
    cases hl : u.live with
    | false =>
      rw [endUnit, hu]
      dsimp only
      rw [hl]
      exact .refl s
    | true =>
      have hk := (cutUnit_keeps s i).1.trans (endWait_keeps _ i).1
      obtain ⟨v, hv, -⟩ := hk.unit i u hu
      rw [endUnit_of_live hu hl]
      exact complete_keeps hu hl hk hv e

/-- A live unit that is ended completes with the status given, its record empty, its registers, CSRs and chain as they were. -/
theorem endUnit_unit {s : State} {i : Uid} {u : UnitSt} (hu : s.unit? i = some u) (hl : u.live = true) (e : EndStatus) :
    ∃ w, (endUnit s i e).unit? i = some w ∧ w.run.status = .complete e ∧ w.pend = [] ∧ KeptUnit u w := by
  have hk := (cutUnit_keeps s i).1.trans (endWait_keeps _ i).1
  obtain ⟨v, hv, kv⟩ := hk.unit i u hu
  obtain ⟨w, hw, hs, hp, kw⟩ := completeUnit_unit hv e
  rw [endUnit_of_live hu hl]
  exact ⟨w, hw, hs, hp, .of_live hl (kw.ident.trans kv.ident) (kw.regs.trans kv.regs) (kw.csr.trans kv.csr) (kw.flow.trans kv.flow)
    (kw.bundles.trans kv.bundles) fun h => kw.struck (kv.struck h)⟩

theorem rebuildOrder_len (s : State) (c : ClusterNo) : (rebuildOrder s c).units.length = s.units.length := by
  unfold rebuildOrder
  dsimp only
  split
  · rfl
  · split
    · rfl
    · split
      · exact List.length_modify ..
      · rfl

/-- The end of a unit that is no prompter frees no slot, and no unit comes of it. -/
theorem endUnit_len {s : State} {i : Uid} {u : UnitSt} (hu : s.unit? i = some u) (hp : u.isPrompter = false) (e : EndStatus) :
    (endUnit s i e).units.length = s.units.length := by
  have hcomplete {t : State} {v : UnitSt} (hv : t.unit? i = some v) (hi : v.ident = u.ident) :
      (completeUnit t i e).units.length = t.units.length := by
    have hnone : v.ident.prompt = none := by
      rw [hi]
      simpa [UnitSt.isPrompter] using hp
    unfold completeUnit
    rw [hv]
    dsimp only
    rw [rebuildOrder_len, hnone]
    dsimp only
    split
    · rw [launchUnitDone_units, modSyncs_units, State.modCluster_units, State.setUnit_units, endSegment_units, List.length_set]
    · rw [modSyncs_units, State.modCluster_units, State.setUnit_units, endSegment_units, List.length_set]
  rw [endUnit, hu]
  dsimp only
  split
  · obtain ⟨kc, nc⟩ := cutUnit_keeps s i
    obtain ⟨kw, nw⟩ := endWait_keeps (cutUnit s i) i
    obtain ⟨v, hv, kv⟩ := (kc.trans kw).unit i u hu
    exact (hcomplete hv kv.ident).trans (nw.trans nc)
  · rfl

theorem killUnits_keeps (s : State) (ok : UnitSt → Bool) : Keeps s (killUnits s ok) := by
  refine .foldl (fun s i => ?_) _ s
  split
  · exact .ite (endUnit_keeps ..) (.refl s)
  · exact .refl s

/-! ### Cancels (R375) -/

theorem cutLaunch_keeps (s : State) (li : Nat) : Keeps s (cutLaunch s li) := by
  unfold cutLaunch
  split
  · exact .refl s
  · refine .ite (.refl s) ?_
    dsimp only
    refine .ite (.of_units rfl) (.trans (.trans ?_ (.foldl (fun s c => ?_) _ _)) (killUnits_keeps ..))
    · exact .of_units rfl
    · exact .ite (.of_units rfl) (.refl s)

theorem dropTransforms_keeps (s : State) (g : Nat) : Keeps s (dropTransforms s g) := by
  unfold dropTransforms
  refine .foldl (fun s c => ?_) _ s
  exact .ite (.of_units rfl) (.refl s)

theorem settleCut_keeps (s : State) (g : Fin 64) : Keeps s (settleCut s g) := .ite (.of_units rfl) (.refl s)

theorem cutGraph_keeps (s : State) (g : Fin 64) : Keeps s (cutGraph s g) := by
  unfold cutGraph
  dsimp only
  refine .ite (.refl s) (.trans (.trans (.trans ?_ (dropTransforms_keeps ..)) (.foldl (fun s n => ?_) _ _)) (settleCut_keeps ..))
  · exact .of_units rfl
  · split
    · exact .ite (cutLaunch_keeps ..) (.of_units rfl)
    · exact .refl s

theorem cancelGraph_keeps (s : State) (a : BitVec 16) (g : Fin 64) : Keeps s (cancelGraph s a g) := .ite (cutGraph_keeps ..) (.refl s)

theorem modCtx_keeps (s : State) (a : BitVec 16) (f : Context → Context) : Keeps s (s.modCtx a f) := .of_units rfl

theorem cancelJob_keeps (s : State) (a : BitVec 16) : Keeps s (cancelJob s a) := by
  unfold cancelJob
  exact .trans (.trans (.trans (.foldl (fun s g => cancelGraph_keeps s a g) _ s) (killUnits_keeps ..)) (killUnits_keeps ..))
    (modCtx_keeps ..)

end Sys2Proof.Kills
end

section
/-! PROOFS.
The events of one unit (R31, R34, R113, R162, R336, R350, R354 to R356). -/

-- One proof at a time: the check of the whole text has a limit on memory, which many threads would reach.
set_option Elab.async false

namespace Sys2Proof.UnitEvents

open Sys2Proof.Machine Sys2Proof.Safety Sys2Proof.Sequencer Sys2Proof.Freezes Sys2Proof.Kills

theorem modUnit_eq_setUnit {s : State} {i : Uid} {u : UnitSt} (hu : s.unit? i = some u) (f : UnitSt → UnitSt) :
    s.modUnit i f = s.setUnit i (f u) := by
  unfold State.modUnit State.setUnit
  rw [Elements.modify_of_getElem? hu]

/-! ### A bundle annulled -/

theorem fetchBundle_got {s t : State} {u : UnitSt} {bs : List Byte} (h : fetchBundle s u = (.got bs, t)) :
    t.mem = s.mem ∧ t.units = s.units := by
  unfold fetchBundle at h
  split at h
  · cases h
  · cases h
  · split at h
    · cases h
    · cases h
      exact ⟨rfl, rfl⟩
    · split at h
      · cases h
        exact ⟨rfl, rfl⟩
      · split at h
        · cases h
        · cases h
          exact ⟨rfl, rfl⟩

section
variable {s : State} {i : Uid} {u : UnitSt}

theorem execAnnulled (hu : s.unit? i = some u) (hs : u.run.status = .running) (hg : u.run.gap = 0) (ha : u.flow.pc.ann = true)
    (hd : u.run.due = []) (he : u.run.endSeg = false) {bs : List Byte} {t : State} (hf : fetchBundle s u = (.got bs, t)) :
    exec (.annulledBundleIssue i) s = .next (issueAnnulled t i u bs) := by
  have hready : (Machine.atBoundary u && u.flow.pc.ann && u.run.due.isEmpty && !u.run.endSeg) = true := by
    rw [Machine.atBoundary, hs, hg, ha, hd, he]
    rfl
  rw [exec_annulledBundleIssue, execAnnulledBundleIssue, hu]
  dsimp only
  rw [if_pos hready, hf]

/-! ### Data that comes to a load (R113) -/

theorem updateFirst_of_findIdx? {α : Type} {p : α → Bool} {l : List α} {k : Nat} {x : α} (hk : l.findIdx? p = some k)
    (hx : l[k]? = some x) (f : α → α) : updateFirst p f l = l.set k (f x) := by
  induction l generalizing k with
  | nil => cases hx
  | cons y l ih =>
    rw [List.findIdx?_cons] at hk
    split at hk
    · next hy =>
      cases hk
      cases hx
      simp [updateFirst, hy]
    · next hy =>
      obtain ⟨j, hj, rfl⟩ := Option.map_eq_some_iff.1 hk
      simp [updateFirst, hy, ih hj hx]

theorem removeFirst_of_findIdx? {α : Type} {p : α → Bool} {l : List α} {k : Nat} (hk : l.findIdx? p = some k) :
    removeFirst p l = l.eraseIdx k := by
  induction l generalizing k with
  | nil => cases hk
  | cons y l ih =>
    rw [List.findIdx?_cons] at hk
    split at hk
    · next hy =>
      cases hk
      simp [removeFirst, hy]
    · next hy =>
      obtain ⟨j, hj, rfl⟩ := Option.map_eq_some_iff.1 hk
      simp [removeFirst, hy, ih hj]

/-- The first element that a test accepts passes a narrower test, and so is what that test finds. -/
theorem find?_of_findIdx? {α : Type} {p q : α → Bool} {l : List α} {k : Nat} {x : α} (hk : l.findIdx? p = some k)
    (hx : l[k]? = some x) (hq : q x = true) (hpq : ∀ y, q y = true → p y = true) : l.find? q = some x := by
  induction l generalizing k with
  | nil => cases hx
  | cons y l ih =>
    rw [List.findIdx?_cons] at hk
    split at hk
    · next hy =>
      cases hk
      cases hx
      exact List.find?_cons_of_pos hq
    · next hy =>
      obtain ⟨j, hj, rfl⟩ := Option.map_eq_some_iff.1 hk
      rw [List.find?_cons_of_neg fun h => hy (hpq y h)]
      exact ih hj hx

/-- Whether an entry waits for the data of a load. -/
def awaits (n : Nat) (e : PEntry) : Bool := match e.load with | some l => l.req == n | none => false

theorem awaits_eq (n : Nat) : awaits n = fun x => x.load.any fun y => y.req == n := by
  funext e
  unfold awaits
  cases e.load <;> rfl

/-- The hub with no outside load of a request. -/
def arrived (s : State) (n : Nat) : State := s.modHub fun h => { h with outLoads := h.outLoads.filter fun x => x.req != n }

/-- Whether data that comes under a number is an entry's. -/
def takes (n : Nat) (e : PEntry) : Bool := e.awaited && match e.load with | some l => l.req == n && l.reread.isNone | none => false

theorem awaits_of_takes {n : Nat} {e : PEntry} (h : takes n e = true) : (e.load.any fun y => y.req == n) = true := by
  unfold takes at h
  cases hl : e.load <;> simp_all

theorem execArrival (hu : s.unit? i = some u) {n k : Nat} {e : PEntry} {l : LoadInfo} (hc : l.comes = true)
    (ho : s.hub.outLoads.find? (fun x => x.req == n) = none)
    (hk : u.pend.findIdx? (fun x => x.load.any fun y => y.req == n) = some k) (he : u.pend[k]? = some e) (ha : e.awaited = true)
    (hl : e.load = some l) :
    l.req = n ∧ exec (.loadDataArrival i n) s = .next (if l.poison then poisonArrival (arrived s n) i e l
      else (arrived s n).modUnit i fun u => fillEntry u n e.value) := by
  have hreq : l.req = n := by
    obtain ⟨h, hp, -⟩ := List.findIdx?_eq_some_iff_getElem.1 hk
    rw [(List.getElem?_eq_some_iff.1 he).2, hl] at hp
    simpa using hp
  have hreread : l.reread.isNone = true := by
    simp only [LoadInfo.comes, Bool.and_eq_true] at hc
    exact hc.2
  have hawaits : awaitsArrival s i n = true := by
    rw [awaitsArrival, hu]
    refine List.any_eq_true.2 ⟨e, List.mem_append_left _ (List.mem_of_getElem? he), ?_⟩
    rw [hl]
    simp [hreq, hc]
  have hfind : u.pend.find? (takes n) = some e :=
    find?_of_findIdx? hk he (by simp [takes, ha, hl, hreq, hreread]) fun y hy => awaits_of_takes hy
  refine ⟨hreq, ?_⟩
  rw [exec_loadDataArrival, execLoadDataArrival, ho, hawaits]
  refine congrArg Host.Outcome.next ((if_pos (by rfl)).trans ?_)
  unfold arriveData
  rw [hu]
  dsimp only
  split
  · next e' he' =>
    cases Option.some.inj (he'.symm.trans hfind)
    rw [hl]
    rfl
  · next h => exact absurd (h.symm.trans hfind) (by simp)

theorem arrived_unit (s : State) (n : Nat) (j : Uid) : (arrived s n).unit? j = s.unit? j := rfl

theorem poisonArrival_unit (hu : s.unit? i = some u) (e : PEntry) (l : LoadInfo) : (poisonArrival s i e l).unit? i =
    some (({ dropEntry u l.req with drops := u.drops.filter fun x => x != e } : UnitSt).modRun fun x => { x with due := x.due ++
      [{ code := cPoison, addr := l.va, mask := 1#4 <<< e.slot.toNat, after := true, source := .core, slot := e.slot, bundle := e.bundle }] }) :=
  State.unit?_modUnit_self (State.unit?_modUnit_self hu)

theorem dropEntry_pend {k n : Nat} (hk : u.pend.findIdx? (fun x => x.load.any fun y => y.req == n) = some k) :
    (dropEntry u n).pend = u.pend.eraseIdx k := by
  rw [← awaits_eq] at hk
  exact removeFirst_of_findIdx? hk

theorem fillEntry_pend {k n : Nat} {e : PEntry} (hk : u.pend.findIdx? (fun x => x.load.any fun y => y.req == n) = some k)
    (he : u.pend[k]? = some e) : (fillEntry u n e.value).pend = u.pend.set k { e with awaited := false } := by
  rw [← awaits_eq] at hk
  exact updateFirst_of_findIdx? hk he _

/-! ### Holds and random bits -/

theorem execHoldLineRaise_missing (hu : s.unit? i = some u) (hm : missing u = true) (hs : u.run.status = .running) :
    exec (.holdLineRaise i) s = .next (s.setUnit i
      { u with csr := { u.csr with holdc := u.csr.holdc + 1 }, run := { u.run with wait := some .landing } }) := by
  have hgo : (missing u && u.run.status == .running) = true := by
    rw [hm, hs]
    rfl
  rw [exec_holdLineRaise, execHoldLineRaise, hu]
  dsimp only
  rw [if_pos hgo, raiseHold, modUnit_eq_setUnit hu]
  rfl

theorem execRbStep_live (hu : s.unit? i = some u) (hl : u.live = true) (hq : u.csr.rbqueue < 16) :
    exec (.rbStep i) s = .next (s.setUnit i { u with csr := { u.csr with rbqueue := u.csr.rbqueue + 1 } }) := by
  rw [exec_rbStep, execRbStep, modUnit_eq_setUnit hu, if_pos hl]
  simp only [UnitSt.modCsr, if_pos hq]

/-! ### Freezes between bundles -/

/-- The unit frozen with a record: what O48 says of it. -/
theorem freeze_between (hu : s.unit? i = some u) (r : FaultRec) : (freeze s i r).mem = s.mem ∧ ∃ v, (freeze s i r).unit? i = some v ∧
    v.run.record = some r ∧ v.run.gen = u.run.gen + 1 ∧ v.run.due = u.run.due ∧ v.regs = u.regs ∧ v.csr = u.csr ∧ v.flow = u.flow ∧
    v.pend = u.pend := by
  obtain ⟨⟨b, seq, hv⟩, hmem, -⟩ := freeze_unit hu r
  exact ⟨hmem, _, hv, rfl, rfl, rfl, rfl, rfl, rfl, rfl⟩

theorem execAfterIssueFreeze_due (hu : s.unit? i = some u) (hc : canFreeze u = true) (hl : freezeLogged s u = false) {r : FaultRec}
    {rest : List FaultRec} (hd : u.run.due = r :: rest) :
    exec (.afterIssueFreeze i) s = .next (freeze (s.setUnit i (u.modRun fun x => { x with due := rest })) i r) := by
  rw [exec_afterIssueFreeze, execAfterIssueFreeze, hu]
  dsimp only
  rw [hc, hl, freezeDue, hd]
  rfl

theorem execDieLostFreeze_frozen (hu : s.unit? i = some u) {d : DieNo} (hd : (s.die d).lost = true) (hc : lossConcerns s u d = true)
    (hf : u.isFrozen = true) :
    exec (.dieLostFreeze i d) s = .next (s.setUnit i { u with run := { u.run with dieLost := true, lostAt := d } }) := by
  rw [exec_dieLostFreeze, execDieLostFreeze, hu]
  dsimp only
  rw [hd, hc, hf]
  rfl

theorem isFrozen_of_canFreeze (h : canFreeze u = true) : u.isFrozen = false := by
  simp only [canFreeze, Machine.atBoundary, Bool.or_eq_true, Bool.and_eq_true, beq_iff_eq] at h
  unfold UnitSt.isFrozen
  obtain ⟨h, -⟩ | h := h <;> rw [h]

theorem execDieLostFreeze_free (hu : s.unit? i = some u) {d : DieNo} (hd : (s.die d).lost = true) (hc : lossConcerns s u d = true)
    (hf : canFreeze u = true) (hl : freezeLogged s u = false) : exec (.dieLostFreeze i d) s =
      .next (freeze (s.setUnit i (u.modRun fun x => { x with due := x.due.filter fun y => y.code != cDieLost })) i (lossRec u d)) := by
  rw [exec_dieLostFreeze, execDieLostFreeze, hu]
  dsimp only
  rw [hd, hc, isFrozen_of_canFreeze hf, hl, hf]
  rfl

theorem logged_kind {kind : RecKind} {e : RecEntry} (h : logged s u kind = some e) : e.kind = kind := by
  obtain ⟨k, -, hk⟩ := Option.bind_eq_some_iff.1 h
  have hp := List.find?_some hk
  simp only [Bool.and_eq_true, beq_iff_eq] at hp
  exact hp.1.1.1

theorem replays_of {k : Context} (hk : s.ctx? u.ident.asid = some k) (hr : k.replay = true) (hs : k.replayStopped = false) :
    replays s u = true := by
  rw [replays, hk]
  simp [hr, hs]

theorem execReplay_freeze (hu : s.unit? i = some u) {k : Context} {e : RecEntry} (hk : s.ctx? u.ident.asid = some k) (hr : k.replay = true)
    (hs : k.replayStopped = false) (hc : canFreeze u = true) (he : logged s u .freeze = some e) :
    exec (.replayEventDelivery i 0) s = .next (replayFreeze (consumeEvent s u e) i u (loggedFreeze u e)) := by
  rw [exec_replayEventDelivery, execReplayEventDelivery, hu]
  dsimp only
  rw [show logged s u (replayKind 0) = some e from he]
  dsimp only
  rw [replays_of hk hr hs, hc]
  rfl

/-! ### The firmware's policy (R342) -/

theorem killed_keeps (hu : s.unit? i = some u) (hl : u.live = true) {t : State} (h : Keeps (killUnit s i) t) :
    ∃ v, t.unit? i = some v ∧ v.run.status = .complete .killed ∧ v.pend = [] := by
  obtain ⟨w, hw, hs, hp, -⟩ := endUnit_unit hu hl .killed
  obtain ⟨v, hv, kv⟩ := h.unit i w hw
  have hdead : w.live = false := by
    unfold UnitSt.live
    rw [hs]
  obtain ⟨hs', hp'⟩ := kv.ended hdead
  exact ⟨v, hv, hs'.trans hs, hp'.trans hp⟩

theorem execPolicy_kill (hu : s.unit? i = some u) (hs : u.run.status = .stopped) (hf : firmwareTakes u = false) {k : Context}
    (hk : s.ctx? u.ident.asid = some k) (hp : (k.pctl.extractLsb' 22 2).toNat ≠ 2) :
    ∃ t v, exec (.prompterFaultPolicy i) s = .next t ∧ t.unit? i = some v ∧ v.run.status = .complete .killed ∧ v.pend = [] := by
  have hl : u.live = true := by
    unfold UnitSt.live
    rw [hs]
  have hgo : (u.run.status != .stopped || firmwareTakes u) = false := by
    rw [hs, hf]
    rfl
  rw [exec_prompterFaultPolicy, execPrompterFaultPolicy, hu]
  dsimp only
  rw [hgo, if_neg (by decide), hk]
  dsimp only
  by_cases h1 : (k.pctl.extractLsb' 22 2).toNat = 1
  · rw [h1]
    obtain ⟨v, hv, hrest⟩ := killed_keeps hu hl (cancelJob_keeps (killUnit s i) u.ident.asid)
    exact ⟨_, v, rfl, hv, hrest⟩
  · obtain ⟨v, hv, hrest⟩ := killed_keeps hu hl (.refl (killUnit s i))
    refine ⟨_, v, ?_, hv, hrest⟩
    split
    · contradiction
    · contradiction
    · rfl

theorem execPolicy_prompter (hu : s.unit? i = some u) (hs : u.run.status = .stopped) (hf : firmwareTakes u = false) {k : Context}
    (hk : s.ctx? u.ident.asid = some k) (hp : (k.pctl.extractLsb' 22 2).toNat = 2) (hr : u.isPrompter = true) :
    exec (.prompterFaultPolicy i) s = .next s := by
  have hgo : (u.run.status != .stopped || firmwareTakes u) = false := by
    rw [hs, hf]
    rfl
  rw [exec_prompterFaultPolicy, execPrompterFaultPolicy, hu]
  dsimp only
  rw [hgo, hk]
  dsimp only
  rw [hp, hr]
  rfl

/-! ### A unit placed, and placed again (R354) -/

/-- The state that has a new unit of a launch, before it is seated. -/
def withUnit (s : State) (li : Nat) (l : Launch) (n : Nat) (c : ClusterNo) (k : Nat) : State :=
  activate (touchDie { s with units := s.units ++ [wingedUnit l li n c k] } l.asid (dieOf c)) c

theorem withUnit_units (s : State) (li : Nat) (l : Launch) (n : Nat) (c : ClusterNo) (k : Nat) :
    (withUnit s li l n c k).units = s.units ++ [wingedUnit l li n c k] := by
  unfold withUnit activate
  split <;> rfl

theorem withUnit_mod (s : State) (li : Nat) (l : Launch) (n : Nat) (c : ClusterNo) (k : Nat) : (withUnit s li l n c k).mod = s.mod := by
  unfold withUnit activate
  split <;> rfl

theorem withUnit_unit (s : State) (li : Nat) (l : Launch) (n : Nat) (c : ClusterNo) (k : Nat) :
    (withUnit s li l n c k).unit? s.units.length = some (wingedUnit l li n c k) := by
  rw [State.unit?, withUnit_units, List.getElem?_append_right (Nat.le_refl _), Nat.sub_self]
  rfl

theorem seatUnit_keeps {i : Uid} {u : UnitSt} (hu : s.unit? i = some u) (hl : u.live = true) : Keeps s (seatUnit s i u) := by
  have hstatus (x : Status) : Keeps s (s.modUnit i fun u => u.modRun fun r => { r with status := x }) :=
    modUnit_keeps_of fun v hv => by
      cases hu.symm.trans hv
      exact .of_live hl rfl rfl rfl rfl rfl id
  unfold seatUnit
  dsimp only
  split
  · refine (hstatus .parked).trans (.trans ?_ (rebuildOrder_keeps ..))
    exact .of_units rfl
  · exact hstatus .unplaced

theorem placeUnit_keeps (s : State) (li : Nat) (l : Launch) (n : Nat) (c : ClusterNo) (k : Nat) :
    Keeps (withUnit s li l n c k) (placeUnit s li l n c k) := by
  have hu := withUnit_unit s li l n c k
  have hl : (wingedUnit l li n c k).live = true := rfl
  have hplace : placeUnit s li l n c k =
      if ((withUnit s li l n c k).die (dieOf c)).lost then completeUnit (withUnit s li l n c k) s.units.length .lost
      else if l.struck then
        completeUnit (((withUnit s li l n c k).modUnit s.units.length fun u => u.modCurt fun x => { x with struck := true }).modLaunch li
          fun l => { l with curtain := true }) s.units.length .curtain
      else seatUnit (withUnit s li l n c k) s.units.length (wingedUnit l li n c k) := rfl
  rw [hplace]
  refine .ite (complete_keeps hu hl (.refl _) hu _) (.ite ?_ (seatUnit_keeps hu hl))
  have hstruck : Keeps (withUnit s li l n c k) (((withUnit s li l n c k).modUnit s.units.length fun u =>
      u.modCurt fun x => { x with struck := true }).modLaunch li fun l => { l with curtain := true }) :=
    Keeps.trans (modUnit_keeps_of (f := fun u => u.modCurt fun x => { x with struck := true })
      fun u _ => ⟨rfl, rfl, rfl, rfl, rfl, fun _ => rfl, fun _ => ⟨rfl, rfl⟩⟩) (.of_units rfl)
  obtain ⟨v, hv, -⟩ := hstruck.unit _ _ hu
  exact complete_keeps hu hl hstruck hv _

theorem replaceUnit_spec (s : State) (u : UnitSt) (li : Nat) (l : Launch) (c : ClusterNo) : Keeps s (replaceUnit s u li l c) ∧
    ∃ v, (replaceUnit s u li l c).unit? s.units.length = some v ∧
      KeptUnit (wingedUnit l li u.ident.index.toNat c (u.ident.instances + 1)) v := by
  have hplace (t : State) (ht : t.units = s.units) (hm : t.mod = s.mod) :
      Keeps s (placeUnit t li l u.ident.index.toNat c (u.ident.instances + 1)) ∧
      ∃ v, (placeUnit t li l u.ident.index.toNat c (u.ident.instances + 1)).unit? s.units.length = some v ∧
        KeptUnit (wingedUnit l li u.ident.index.toNat c (u.ident.instances + 1)) v := by
    have hk := placeUnit_keeps t li l u.ident.index.toNat c (u.ident.instances + 1)
    refine ⟨(Keeps.of_append ((withUnit_units ..).trans (by rw [ht])) ((withUnit_mod ..).trans hm)).trans hk, ?_⟩
    rw [← ht]
    exact hk.unit _ _ (withUnit_unit ..)
  unfold replaceUnit
  dsimp only
  split
  · exact hplace _ rfl rfl
  · exact hplace _ rfl rfl

/-- The state that a unit to be executed again leaves: killed where it still lives, and no more to be restarted. -/
def withdrawn (s : State) (i : Uid) (u : UnitSt) (n : Nat) : State :=
  (if u.live then recount (killUnit s i) n else s).modUnit i fun u => { u with ident := { u.ident with restart := false } }

theorem execReexecution (hu : s.unit? i = some u) {c : ClusterNo} {n : Nat} {l : Launch} (hr : reexecutable u = true)
    (hc : c ≠ u.ident.cluster) (hd : (s.die (dieOf c)).lost = false) (hn : u.ident.launch = some n) (hl : s.launch? n = some l)
    (hf : l.done = false) (ha : arrayFree s n l c = true) :
    exec (.restartableReexecution i c) s = .next (replaceUnit (withdrawn s i u n) u n l c) := by
  have hgo : (!reexecutable u || c == u.ident.cluster || (s.die (dieOf c)).lost || l.done || !arrayFree s n l c) = false := by
    rw [hr, hd, hf, ha, beq_false_of_ne hc]
    rfl
  rw [exec_restartableReexecution, execRestartableReexecution, hu]
  dsimp only
  rw [hn]
  dsimp only
  rw [hl]
  dsimp only
  rw [hgo]
  rfl

theorem withdrawn_spec (hu : s.unit? i = some u) (hp : u.isPrompter = false) (hr : reexecutable u = true) (n : Nat) :
    (withdrawn s i u n).units.length = s.units.length ∧ ∃ w, (withdrawn s i u n).unit? i = some w ∧ w.live = false ∧
      (u.live = true → w.run.status = .complete .killed) ∧ (u.live = false → w.run.status = .complete .lost) ∧ w.ident.restart = false := by
  unfold withdrawn
  cases hl : u.live with
  | true =>
    obtain ⟨w, hw, hs, -⟩ := endUnit_unit hu hl .killed
    refine ⟨(List.length_modify ..).trans (endUnit_len hu hp .killed), _, State.unit?_modUnit_self hw, ?_, fun _ => hs, nofun, rfl⟩
    unfold UnitSt.live
    dsimp only
    rw [hs]
  | false =>
    have hstopped : u.run.status ≠ .stopped := by
      intro h
      unfold UnitSt.live at hl
      rw [h] at hl
      cases hl
    have hlost : u.run.status = .complete .lost := by
      simp only [reexecutable, Bool.and_eq_true, Bool.or_eq_true, beq_iff_eq] at hr
      obtain ⟨-, h | ⟨h, -⟩⟩ := hr
      · exact h
      · exact absurd h hstopped
    exact ⟨List.length_modify .., _, State.unit?_modUnit_self hu, hl, nofun, fun _ => hlost, rfl⟩

end

/-- Settles O48: each event of a unit, through the freeze (R336), the kill (R17) and the placement of a unit. -/
theorem unitEvents : Obligations.UnitEvents := by
  intro s i u hu
  refine ⟨?annulled, ?arrival, ?hold, ?bits, ?after, ?lost, ?policy, ?again, ?logged⟩
  case annulled =>
    intro hs hg ha hd he bs t hf
    obtain ⟨hmem, hunits⟩ := fetchBundle_got hf
    have ht : t.unit? i = some u := by rw [State.unit?, hunits]; exact hu
    exact ⟨_, _, execAnnulled hu hs hg ha hd he hf, hmem, State.unit?_setUnit_self ht, rfl, rfl, rfl, rfl, rfl, rfl, rfl, rfl⟩
  case arrival =>
    intro n k e l hc ho hk he ha hl
    obtain ⟨hreq, hexec⟩ := execArrival hu hc ho hk he ha hl
    cases hp : l.poison with
    | false =>
      rw [hp] at hexec
      exact ⟨_, _, hexec, rfl, State.unit?_modUnit_self hu, rfl, rfl, fun _ => ⟨fillEntry_pend hk he, rfl⟩, nofun⟩
    | true =>
      rw [hp] at hexec
      refine ⟨_, _, hexec, rfl, poisonArrival_unit (s := arrived s n) hu e l, rfl, rfl, nofun, fun _ => ⟨?_, rfl⟩⟩
      rw [hreq]
      exact dropEntry_pend hk
  case hold => exact execHoldLineRaise_missing hu
  case bits => exact execRbStep_live hu
  case after =>
    intro r rest hc hl hd
    obtain ⟨hmem, v, hv, hrest⟩ := freeze_between (State.unit?_setUnit_self (x := u.modRun fun x => { x with due := rest }) hu) r
    exact ⟨_, v, execAfterIssueFreeze_due hu hc hl hd, hmem, hv, hrest⟩
  case lost =>
    intro d hd hc
    refine ⟨execDieLostFreeze_frozen hu hd hc, fun hf hl => ?_⟩
    obtain ⟨hmem, v, hv, hrest⟩ := freeze_between
      (State.unit?_setUnit_self (x := u.modRun fun x => { x with due := x.due.filter fun y => y.code != cDieLost }) hu) (lossRec u d)
    exact ⟨_, v, execDieLostFreeze_free hu hd hc hf hl, hmem, hv, hrest⟩
  case policy =>
    intro k hs hf hk
    exact ⟨execPolicy_kill hu hs hf hk, execPolicy_prompter hu hs hf hk⟩
  case again =>
    intro c n l hr hp hc hd hn hl hf ha
    obtain ⟨hlen, w, hw, hdead, hkilled, hlost, hrestart⟩ := withdrawn_spec hu hp hr n
    obtain ⟨hk, v, hv, kv⟩ := replaceUnit_spec (withdrawn s i u n) u n l c
    obtain ⟨x, hx, kx⟩ := hk.unit i w hw
    obtain ⟨hs, -⟩ := kx.ended hdead
    rw [hlen] at hv
    refine ⟨_, v, x, execReexecution hu hr hc hd hn hl hf ha, hx, fun h => hs.trans (hkilled h), fun h => hs.trans (hlost h), ?_, hv, ?_, ?_,
      ?_, ?_, ?_, kv.bundles⟩
    · rw [kx.ident]
      exact hrestart
    · rw [kv.ident]
      rfl
    · rw [kv.ident]
      exact BitVec.ofNat_toNat ..
    · rw [kv.ident]
      rfl
    · rw [kv.ident]
      rfl
    · rw [kv.flow]
      rfl
  case logged =>
    intro k e hk hr hs hc he
    have hrec : loggedFreeze u e = e.fault.getD { code := BitVec.ofNat 8 e.tag, addr := e.value.setWidth 80, mask := 0, after := true,
                                                  source := .core, slot := 0, bundle := u.flow.pc.addr } := by
      rw [loggedFreeze, logged_kind he]
      rfl
    have hu' : (consumeEvent s u e).unit? i = some u := hu
    rw [← hrec]
    obtain ⟨hmem, v, hv, hrest⟩ := freeze_between
      (State.unit?_setUnit_self (x := u.modRun fun x => { x with due := removeFirst (fun y => y.code == (loggedFreeze u e).code) x.due }) hu')
      (loggedFreeze u e)
    exact ⟨_, v, execReplay_freeze hu hk hr hs hc he, hmem, hv, hrest⟩

end Sys2Proof.UnitEvents
end

section
/-! PROOFS.
The events of a core (R101, R116, R233, R365, R376 to R379): requests for pre-emption, parks, switches, unit starts and wings. -/

-- One proof at a time: the check of the whole text has a limit on memory, which many threads would reach.
set_option Elab.async false

namespace Sys2Proof.CoreEvents

open Sys2Proof.Machine Sys2Proof.Safety Sys2Proof.Sequencer Sys2Proof.Kills Sys2Proof.UnitEvents

/-! ### Waits renewed (R282) -/

theorem newReq_waitOnly (s : State) : WaitOnly s s.newReq.2 := .of_units rfl (fun _ => rfl) rfl

theorem sendSync_waitOnly (s : State) (c : ClusterNo) (q : SyncReq) : WaitOnly s (sendSync s c q) := by
  unfold sendSync
  split
  · exact (newReq_waitOnly s).trans (modRels_waitOnly _ c fun l => l ++ [_])
  · exact modSync_waitOnly ..

theorem renewWait_waitOnly (s : State) (i : Uid) : WaitOnly s (renewWait s i) := by
  unfold renewWait
  split
  · exact .refl s
  · split
    · exact .refl s
    · split
      · exact mapRequests_waitOnly ..
      · exact ((newReq_waitOnly s).trans (modSyncSt_waitOnly ..)).trans (sendSync_waitOnly ..)

/-! ### Requests for pre-emption, and the parks that answer them (R101, R379) -/

section
variable {s : State} {c : ClusterNo} {i : Uid} {u : UnitSt}

theorem execPreemptionRequest_late {n : Nat} (hr : (s.cluster c).running = some i) (hu : s.unit? i = some u)
    (hn : segmentCost s c i = some n) (hlate : n < u.run.segCycles) (hp : u.run.preempt = false) (he : u.curt.inentry = false)
    (ho : otherReady s c i = true) :
    exec (.preemptionRequest c) s = .next (s.setUnit i { u with run := { u.run with preempt := true } }) := by
  have hgo : (decide (n < u.run.segCycles) && !u.run.preempt && !u.curt.inentry && otherReady s c i) = true := by
    rw [decide_eq_true hlate, hp, he, ho]
    rfl
  rw [exec_preemptionRequest, execPreemptionRequest, requestPreempt, hr]
  dsimp only
  rw [hu]
  dsimp only
  rw [hn]
  dsimp only
  rw [if_pos hgo, modUnit_eq_setUnit hu]
  rfl

/-- A unit outside its loops whose wait is a point takes it where nothing else is due at its boundary. -/
theorem pointEvent_waits {w : WaitKind} (hu : s.unit? i = some u) (hr : replays s u = false) (hd : u.run.due = [])
    (hs : u.run.stepFor = none) (he : u.run.endSeg = false) (hc : (u.curt.struck && !u.curt.inentry && noEntry s u) = false)
    (ha : divertsAtOnce u = none) (hl : u.run.drainLevel = none) (hloops : ∀ l, (u.flow.loops.get l).active = false)
    (hw : u.run.wait = some w) (hp : w.isPoint = true) : pointEvent s i u = takePoint s i u 3 := by
  have hevent : eventDue s u = none := by
    unfold eventDue
    rw [hr]
    rfl
  have hinner : naturalDrain u = none := by
    simp [naturalDrain, innermost, hloops]
  have hiter : iterationBoundary u = none := by
    simp [iterationBoundary, hloops]
  have hdrain : drainFor s i u = (s, false) := by
    simp [drainFor, hinner, hiter]
  have hboundary : boundary s i u = (s, false) := by
    simp [boundary, hevent, hd, hs, he, hc, ha, hl, hdrain]
  have hplain : plainPoint s u = some 3 := by
    simp [plainPoint, draining, hl, hw, hp]
  rw [pointEvent, hboundary]
  dsimp only
  rw [hu]
  dsimp only
  rw [hplain]

theorem parkUnit_unit (hu : s.unit? i = some u) :
    (parkUnit s i).mem = s.mem ∧ ∃ v, (parkUnit s i).unit? i = some v ∧ v.run.status = .parked ∧
      v.regs = u.regs ∧ v.csr = u.csr ∧ v.flow = u.flow ∧ v.pend = u.pend := by
  have hw := endWait_waitOnly s i
  obtain ⟨x, hx, ex⟩ := hw.unit i u hu
  have hpark : parkUnit s i = endSegment ((endWait s i).modUnit i fun u => u.modRun fun r =>
      { r with status := .parked, wait := none, preempt := false, endSeg := false, standing := 0, stood := false }) i u.ident.cluster := by
    rw [parkUnit, hu]
  rw [hpark]
  refine ⟨?_, _, (congrArg (·[i]?) (endSegment_units ..)).trans (State.unit?_modUnit_self hx), rfl, ?_⟩
  · unfold endSegment
    dsimp only
    split <;> exact hw.mem
  · rw [ex]
    exact ⟨rfl, rfl, rfl, rfl⟩

theorem rebuildOrder_mem (s : State) (c : ClusterNo) : (rebuildOrder s c).mem = s.mem := by
  unfold rebuildOrder
  dsimp only
  split
  · rfl
  · split
    · rfl
    · split <;> rfl

theorem recordEvent_mem (s : State) (i : Uid) (k : RecKind) (tag : Nat) (v : Word) (r : Option FaultRec) :
    (recordEvent s i k tag v r).mem = s.mem := by
  unfold recordEvent
  split <;> rfl

/-- A rebuilt order leaves a unit its status and its park's point. -/
theorem rebuildOrder_unit (hu : s.unit? i = some u) : ∃ b, (rebuildOrder s c).unit? i = some (u.modRun fun r => { r with preempt := b }) := by
  have hsame : ∃ b, s.unit? i = some (u.modRun fun r => { r with preempt := b }) := ⟨u.run.preempt, hu⟩
  unfold rebuildOrder
  dsimp only
  split
  · exact hsame
  · next r _ =>
    split
    · exact hsame
    · split
      · by_cases hri : r = i
        · subst hri
          exact ⟨true, State.unit?_modUnit_self hu⟩
        · obtain ⟨b, hb⟩ := hsame
          exact ⟨b, (State.unit?_modUnit_ne hri).trans hb⟩
      · exact hsame

theorem preemptPark_unit (hu : s.unit? i = some u) (p : BitVec 2) :
    (preemptPark s i p).mem = s.mem ∧ ∃ v, (preemptPark s i p).unit? i = some v ∧ v.run.status = .parked ∧ v.run.parkPoint = some p ∧
      v.regs = u.regs ∧ v.csr = u.csr ∧ v.flow = u.flow ∧ v.pend = u.pend := by
  have hrec : (recordEvent s i .preemption 0 (p.setWidth 64)).unit? i = some u := (congrArg (·[i]?) (recordEvent_units ..)).trans hu
  obtain ⟨hmem, v, hv, hstatus, hregs⟩ := parkUnit_unit hrec
  have hset := State.unit?_modUnit_self (f := fun u => u.modRun fun r => { r with parkPoint := some p, drainLevel := none }) hv
  unfold preemptPark
  dsimp only
  rw [hset]
  dsimp only
  obtain ⟨b, hb⟩ := rebuildOrder_unit (c := v.ident.cluster) hset
  exact ⟨(rebuildOrder_mem ..).trans (hmem.trans (recordEvent_mem ..)), _, hb, hstatus, rfl, hregs⟩

theorem execPreemptPark_waits {w : WaitKind} (hu : s.unit? i = some u) (hst : u.run.status = .running) (hg : u.run.gap = 0)
    (hpre : u.run.preempt = true) (hin : u.curt.inentry = false) (hr : replays s u = false) (hstr : u.curt.struck = false)
    (hd : u.run.due = []) (hs : u.run.stepFor = none) (he : u.run.endSeg = false) (hl : u.run.drainLevel = none)
    (hloops : ∀ l, (u.flow.loops.get l).active = false) (hw : u.run.wait = some w) (hp : w.isPoint = true) :
    exec (.preemptPark i) s = .next (preemptPark s i 3) := by
  have hgo : (atBoundary u && u.run.preempt && !u.curt.inentry && !u.curt.struck) = true := by
    rw [atBoundary, hst, hg, hpre, hin, hstr]
    rfl
  have hpoint : pointEvent s i u = takePoint s i u 3 :=
    pointEvent_waits hu hr hd hs he (by rw [hstr]; rfl) (by rw [divertsAtOnce, hstr]; rfl) hl hloops hw hp
  rw [exec_preemptPark, execPreemptPark, hu]
  dsimp only
  rw [if_pos hgo, hpoint, takePoint, hstr]
  rfl

/-! ### Switches and starts (R365, R378) -/

theorem execSegmentSwitch_begins {e : Uid} (hr : (s.cluster c).running = none) (hs : (s.cluster c).switch = none)
    (hrel : clusterRelease (s.cluster c) = false) (hn : nextEntry s c = some e) :
    exec (.segmentSwitch c) s = .next (s.setCluster c { s.cluster c with switch := some (96, e) }) := by
  have hbegin : beginSwitch s c = s.setCluster c { s.cluster c with switch := some (96, e) } := by
    rw [beginSwitch]
    dsimp only
    rw [hr, hs, hrel, hn]
    rfl
  rw [exec_segmentSwitch, execSegmentSwitch, hbegin, endSwitch, State.cluster_setCluster_self]
  rfl

/-- The banks of a space are the unit's once it has acquired them, whatever it acquires of another space. -/
theorem mem_acquireBanks {k : Cluster} {p : BitVec 2} {l : List Nat} {b : Nat} (h : b ∈ l) :
    (⟨p, b, i, false⟩ : Bank) ∈ (acquireBanks k i p l).banks :=
  List.mem_append_right _ (List.mem_map.2 ⟨b, h, rfl⟩)

theorem mem_acquireBanks_other {k : Cluster} {p q : BitVec 2} {l : List Nat} {x : Bank} (h : x ∈ k.banks) (hx : x.space = q) (hpq : q ≠ p) :
    x ∈ (acquireBanks k i p l).banks := by
  refine List.mem_append_left _ (List.mem_filter.2 ⟨h, ?_⟩)
  rw [hx, beq_false_of_ne hpq]
  rfl

theorem mem_maskBits {w : Nat} {m : BitVec w} {b : Nat} (h : m.getLsbD b = true) : b ∈ maskBits m :=
  List.mem_filter.2 ⟨List.mem_range.2 (BitVec.lt_of_getLsbD h), h⟩

/-- The core as the first segment of a unit finds it: its switch over, the unit's start banks acquired. -/
def seatedCore (s : State) (u : UnitSt) (i : Uid) (pos : Nat) : State :=
  takeStartBanks (s.modCluster u.ident.cluster fun k => { k with switch := none, pos := pos, running := some i }) i u

theorem seatedCore_core (hs : u.run.started = false) (pos : Nat) :
    let k := (seatedCore s u i pos).cluster u.ident.cluster
    k.running = some i ∧ k.switch = none ∧ ∀ b, u.umem.tbank.getLsbD b = true → (⟨0, b, i, false⟩ : Bank) ∈ k.banks := by
  unfold seatedCore takeStartBanks
  rw [hs]
  dsimp only
  rw [if_neg Bool.false_ne_true, State.cluster_modCluster_self, State.cluster_modCluster_self]
  refine ⟨rfl, rfl, fun b hb => ?_⟩
  exact mem_acquireBanks_other (mem_acquireBanks_other (mem_acquireBanks (mem_maskBits hb)) rfl (q := 0) (by decide)) rfl (q := 0) (by decide)

theorem seatedCore_frame (s : State) (u : UnitSt) (i : Uid) (pos : Nat) :
    (seatedCore s u i pos).units = s.units ∧ (seatedCore s u i pos).mem = s.mem := by
  unfold seatedCore takeStartBanks
  split <;> exact ⟨rfl, rfl⟩

theorem refill_regs (u : UnitSt) : (refill u).regs.s = u.regs.s ∧ (refill u).csr = u.csr := by
  unfold refill
  split
  · exact ⟨rfl, rfl⟩
  · refine List.foldlRecOn (motive := fun v : UnitSt => v.regs.s = u.regs.s ∧ v.csr = u.csr) _ _ ⟨rfl, rfl⟩ fun v hv l _ => ?_
    dsimp only
    split
    · exact hv
    · exact hv

theorem execUnitStart_seated (hu : s.unit? i = some u) (hs : u.run.started = false) (hp : u.run.status = .parked)
    (hr : (s.cluster u.ident.cluster).running = none) (hsw : (s.cluster u.ident.cluster).switch = some (0, i))
    (hb : startBanksFree s i u = true) : exec (.unitStart i) s = .next (startSegment s u.ident.cluster i) ∧ runner s i = some i := by
  have hgo : (!u.run.started && u.run.status == .parked && (s.cluster u.ident.cluster).running.isNone &&
      (s.cluster u.ident.cluster).switch == some (0, i)) = true := by
    rw [hs, hp, hr, hsw]
    simp
  have hrun : runner s i = some i := by
    rw [runner, hu]
    dsimp only
    rw [hp]
    dsimp only
    rw [hb, Bool.or_true]
    rfl
  refine ⟨?_, hrun⟩
  rw [exec_unitStart, execUnitStart, hu]
  dsimp only
  rw [if_pos hgo, endSwitch, hsw]
  exact congrArg _ (if_pos (by rw [hrun]; rfl))

/-- The unit as its segment begins (R102, R365). -/
def begunUnit (entry : Uid) (segs : List (BitVec 64 × BitVec 32)) (u : UnitSt) : UnitSt :=
  (if (divertsAtOnce u).isSome then u else refill u).modRun fun r =>
    { r with status := .running, inEntry := some entry, segCycles := 0, segIndex := segmentAt segs u, wait := none, preempt := false,
             started := true, parkPoint := divertsAtOnce u }

theorem begunUnit_regs (segs : List (BitVec 64 × BitVec 32)) : (begunUnit i segs u).regs.s = u.regs.s ∧ (begunUnit i segs u).csr = u.csr := by
  have h : (if (divertsAtOnce u).isSome then u else refill u).regs.s = u.regs.s ∧
      (if (divertsAtOnce u).isSome then u else refill u).csr = u.csr := by
    split
    · exact ⟨rfl, rfl⟩
    · exact refill_regs u
  exact h

theorem startSegment_eq (hu : s.unit? i = some u) (hs : u.run.started = false) (hrun : runner s i = some i) :
    ∃ pos segs, startSegment s u.ident.cluster i =
      renewWait (takeViews ((invalidate (seatedCore s u i pos) u.ident.cluster false).modUnit i (begunUnit i segs)) i) i := by
  rw [startSegment, hrun]
  dsimp only
  rw [hu]
  dsimp only
  rw [if_neg (by rw [hs]; exact Bool.false_ne_true)]
  exact ⟨_, _, rfl⟩

theorem invalidate_core (s : State) (c : ClusterNo) :
    ∃ l m, (invalidate s c false).cluster c = { s.cluster c with cache := l, roCache := m } :=
  ⟨_, _, State.cluster_modCluster_self ..⟩

/-- The first segment of a unit: it runs on its core, in its start banks. -/
theorem startSegment_first (hu : s.unit? i = some u) (hs : u.run.started = false) (hrun : runner s i = some i) :
    let t := startSegment s u.ident.cluster i
    t.mem = s.mem ∧ (t.cluster u.ident.cluster).running = some i ∧ (t.cluster u.ident.cluster).switch = none ∧
      ∃ v, t.unit? i = some v ∧ v.run.status = .running ∧ v.run.started = true ∧ v.run.segCycles = 0 ∧ v.regs.s = u.regs.s ∧
        v.csr = u.csr ∧ ∀ b : Nat, u.umem.tbank.getLsbD b = true → (⟨0, b, i, false⟩ : Bank) ∈ (t.cluster u.ident.cluster).banks := by
  obtain ⟨pos, segs, ht⟩ := startSegment_eq hu hs hrun
  obtain ⟨hrunning, hswitch, hbanks⟩ := seatedCore_core (s := s) (i := i) hs pos
  obtain ⟨hunits, hmem⟩ := seatedCore_frame s u i pos
  obtain ⟨l, m, hcore⟩ := invalidate_core (seatedCore s u i pos) u.ident.cluster
  have hat : (invalidate (seatedCore s u i pos) u.ident.cluster false).unit? i = some u := (congrArg (·[i]?) hunits).trans hu
  have hviews : (takeViews ((invalidate (seatedCore s u i pos) u.ident.cluster false).modUnit i (begunUnit i segs)) i).unit? i =
      some _ := State.unit?_modUnit_self (State.unit?_modUnit_self hat)
  have hwait := renewWait_waitOnly (takeViews ((invalidate (seatedCore s u i pos) u.ident.cluster false).modUnit i (begunUnit i segs)) i) i
  obtain ⟨v, hv, ev⟩ := hwait.unit i _ hviews
  obtain ⟨r, hk⟩ := hwait.core hcore
  obtain ⟨hregs, hcsr⟩ := begunUnit_regs (i := i) (u := u) segs
  intro t
  rw [show t = _ from ht]
  refine ⟨hwait.mem.trans hmem, by rw [hk]; exact hrunning, by rw [hk]; exact hswitch, v, hv, ?_⟩
  rw [ev, hk]
  exact ⟨rfl, rfl, rfl, hregs, hcsr, hbanks⟩

end

/-! ### Wings (R233, R365) -/

/-- Memory, the cores' wings and arrays, and the launches' pending wings are as they were. -/
structure Seats (s t : State) : Prop where
  mem : t.mem = s.mem
  wings : ∀ c, (t.cluster c).activeWings = (s.cluster c).activeWings ∧ (t.cluster c).shadowWings = (s.cluster c).shadowWings ∧
    (t.cluster c).array = (s.cluster c).array
  pending : ∀ n, (t.launch? n).map Launch.pendingWings = (s.launch? n).map Launch.pendingWings

namespace Seats

variable {s t v : State}

theorem of_cores (hm : t.mem = s.mem) (hc : t.clusters = s.clusters) (hl : t.hub.launches = s.hub.launches) : Seats s t := by
  refine ⟨hm, fun c => ?_, fun n => ?_⟩
  · rw [State.cluster, hc]
    exact ⟨rfl, rfl, rfl⟩
  · rw [State.launch?, hl]
    rfl

theorem refl (s : State) : Seats s s := of_cores rfl rfl rfl

theorem trans (h : Seats s t) (h' : Seats t v) : Seats s v := by
  refine ⟨h'.mem.trans h.mem, fun c => ?_, fun n => (h'.pending n).trans (h.pending n)⟩
  obtain ⟨a, b, d⟩ := h.wings c
  obtain ⟨a', b', d'⟩ := h'.wings c
  exact ⟨a'.trans a, b'.trans b, d'.trans d⟩

theorem foldl {α : Type} {f : State → α → State} (h : ∀ s x, Seats s (f s x)) (l : List α) (s : State) : Seats s (l.foldl f s) := by
  induction l generalizing s with
  | nil => exact refl s
  | cons x l ih => exact (h s x).trans (ih (f s x))

theorem ite {c : Prop} [Decidable c] (ht : Seats s t) (hv : Seats s v) : Seats s (if c then t else v) := by
  split
  · exact ht
  · exact hv

end Seats

theorem modCluster_seats (s : State) (c : ClusterNo) {f : Cluster → Cluster} (ha : (f (s.cluster c)).activeWings = (s.cluster c).activeWings)
    (hs : (f (s.cluster c)).shadowWings = (s.cluster c).shadowWings) (hx : (f (s.cluster c)).array = (s.cluster c).array) :
    Seats s (s.modCluster c f) := by
  refine ⟨rfl, fun d => ?_, fun _ => rfl⟩
  by_cases hd : c = d
  · subst hd
    rw [State.cluster_modCluster_self]
    exact ⟨ha, hs, hx⟩
  · rw [State.cluster_modCluster_ne hd]
    exact ⟨rfl, rfl, rfl⟩

theorem modLaunch_seats (s : State) (n : Nat) {f : Launch → Launch} (hf : ∀ l, (f l).pendingWings = l.pendingWings) :
    Seats s (s.modLaunch n f) := by
  refine ⟨rfl, fun _ => ⟨rfl, rfl, rfl⟩, fun m => ?_⟩
  show ((s.hub.launches.modify n f)[m]?).map _ = (s.hub.launches[m]?).map _
  rw [List.getElem?_modify]
  cases s.hub.launches[m]? with
  | none => rfl
  | some l =>
    show some (if n = m then f l else l).pendingWings = some l.pendingWings
    split
    · rw [hf l]
    · rfl

theorem rebuildOrder_seats (s : State) (c : ClusterNo) : Seats s (rebuildOrder s c) := by
  have horder (l : List Uid) : Seats s (s.setCluster c { s.cluster c with order := l }) :=
    modCluster_seats s c (f := fun k => { k with order := l }) rfl rfl rfl
  unfold rebuildOrder
  dsimp only
  split
  · exact horder _
  · split
    · exact horder _
    · exact .ite ((horder _).trans (.of_cores rfl rfl rfl)) (horder _)

theorem endSegment_seats (s : State) (i : Uid) (c : ClusterNo) : Seats s (endSegment s i c) := by
  unfold endSegment
  dsimp only
  refine .ite (.trans ?_ (modCluster_seats _ c rfl rfl rfl)) ?_ <;> exact .of_cores rfl rfl rfl

theorem freePrompter_seats (s : State) (i : Uid) (p : UnitSt) (slot : BitVec 6) : Seats s (freePrompter s i p slot) := by
  have hcaps : Seats s (dropCaps s i) := by
    unfold dropCaps
    split
    · exact .refl s
    · refine .trans (.foldl (fun s k => ?_) _ s) (.of_cores rfl rfl rfl)
      split
      · exact .of_cores rfl rfl rfl
      · exact .refl s
  have hgive (t : State) : Seats t (giveSlot t p.ident.asid p.ident.cluster slot) := by
    unfold giveSlot
    split
    · exact .refl t
    · refine .ite (.of_cores rfl rfl rfl) ?_
      split
      · exact .of_cores rfl rfl rfl
      · split
        · split
          · exact .of_cores rfl rfl rfl
          · exact .refl t
        · exact .refl t
  refine hcaps.trans (.trans ?_ (hgive _))
  exact .of_cores rfl rfl rfl

theorem completeUnit_seats (s : State) (i : Uid) (e : EndStatus) : Seats s (completeUnit s i e) := by
  unfold completeUnit
  split
  · exact .refl s
  · next u _ =>
    dsimp only
    have hlaunch (t : State) : Seats t (match u.ident.launch with | some l => launchUnitDone t l | none => t) := by
      split
      · exact modLaunch_seats t _ fun _ => rfl
      · exact .refl t
    have hprompt (t : State) : Seats t (match u.ident.prompt with | some slot => freePrompter t i u slot | none => t) := by
      split
      · exact freePrompter_seats ..
      · exact .refl t
    refine .trans (.trans (.trans (.trans (.trans (.trans (endSegment_seats s i u.ident.cluster) ?_) (modCluster_seats _ u.ident.cluster rfl rfl rfl))
      (.foldl (fun s d => ?_) _ _)) (hlaunch _)) (hprompt _)) (rebuildOrder_seats ..)
    · exact .of_cores rfl rfl rfl
    · exact .of_cores rfl rfl rfl

theorem activate_seats (s : State) (c : ClusterNo) : Seats s (activate s c) := by
  unfold activate
  exact .ite (.refl s) (.of_cores rfl rfl rfl)

theorem seatUnit_seats (s : State) (i : Uid) (u : UnitSt) : Seats s (seatUnit s i u) := by
  unfold seatUnit
  dsimp only
  refine .ite (.trans (.trans ?_ (modCluster_seats _ u.ident.cluster rfl rfl rfl)) (rebuildOrder_seats ..)) ?_
  · exact .of_cores rfl rfl rfl
  · exact .of_cores rfl rfl rfl

theorem placeUnit_seats (s : State) (li : Nat) (l : Launch) (n : Nat) (c : ClusterNo) (k : Nat) : Seats s (placeUnit s li l n c k) := by
  have hnew : Seats s (activate (touchDie { s with units := s.units ++ [wingedUnit l li n c k] } l.asid (dieOf c)) c) :=
    .trans (t := touchDie { s with units := s.units ++ [wingedUnit l li n c k] } l.asid (dieOf c)) (.of_cores rfl rfl rfl) (activate_seats ..)
  unfold placeUnit
  dsimp only
  refine .ite (hnew.trans (completeUnit_seats ..)) (.ite (.trans (hnew.trans (.trans ?_ (modLaunch_seats _ li ?_))) (completeUnit_seats ..))
    (hnew.trans (seatUnit_seats ..)))
  · exact .of_cores rfl rfl rfl
  · exact fun _ => rfl

theorem unitExists_kept {s t : State} (h : Keeps s t) {li n : Nat} (hs : unitExists s li n = true) : unitExists t li n = true := by
  unfold Machine.unitExists at hs ⊢
  rw [List.any_eq_true] at hs ⊢
  obtain ⟨u, hu, hok⟩ := hs
  obtain ⟨j, hj⟩ := List.mem_iff_getElem?.1 hu
  obtain ⟨w, hw, kw⟩ := h.unit j u hj
  exact ⟨w, List.mem_of_getElem? hw, by rw [kw.ident]; exact hok⟩

theorem placeUnit_exists (s : State) (li : Nat) (l : Launch) {n : Nat} (hn : n < 65536) (c : ClusterNo) (k : Nat) :
    unitExists (placeUnit s li l n c k) li n = true := by
  refine unitExists_kept (placeUnit_keeps s li l n c k) (List.any_eq_true.2 ⟨wingedUnit l li n c k, ?_, ?_⟩)
  · rw [withUnit_units]
    exact List.mem_append_right _ (List.mem_singleton.2 rfl)
  · have hindex : (BitVec.ofNat 16 n).toNat = n := (BitVec.toNat_ofNat ..).trans (Nat.mod_eq_of_lt hn)
    show (some li == some li && (BitVec.ofNat 16 n).toNat == n) = true
    rw [hindex]
    simp

theorem placeUnit_keepsAll (s : State) (li : Nat) (l : Launch) (n : Nat) (c : ClusterNo) (k : Nat) : Keeps s (placeUnit s li l n c k) :=
  (Keeps.of_append (withUnit_units ..) (withUnit_mod ..)).trans (placeUnit_keeps ..)

theorem foldl_placeUnit_exists (li : Nat) (l : Launch) (c : ClusterNo) {n : Nat} (hn : n < 65536) (is : List Nat) (s : State)
    (h : unitExists s li n = true ∨ n ∈ is) : unitExists (is.foldl (fun s i => placeUnit s li l i c 0) s) li n = true := by
  induction is generalizing s with
  | nil => simpa using h
  | cons i is ih =>
    refine ih _ ?_
    obtain h | h := h
    · exact .inl (unitExists_kept (placeUnit_keepsAll ..) h)
    · obtain rfl | h := List.mem_cons.1 h
      · exact .inl (placeUnit_exists s li l hn c 0)
      · exact .inr h

/-- Placement leaves memory, wings and arrays, takes the cluster off the launch's pending wings, and leaves no unit of it unplaced. -/
theorem placeOn_spec {s : State} {n : Nat} {l : Launch} (hl : s.launch? n = some l) (c : ClusterNo) :
    (placeOn s n c).mem = s.mem ∧
    (∀ d, ((placeOn s n c).cluster d).activeWings = (s.cluster d).activeWings ∧
      ((placeOn s n c).cluster d).shadowWings = (s.cluster d).shadowWings ∧ ((placeOn s n c).cluster d).array = (s.cluster d).array) ∧
    (∃ l', (placeOn s n c).launch? n = some l' ∧ c ∉ l'.pendingWings) ∧
    ∀ j : Nat, j < l.record.units → j < 65536 → l.record.clusterOf j = c → unitExists (placeOn s n c) n j = true := by
  have hplace : placeOn s n c = (((List.range l.record.units).filter fun i => l.record.clusterOf i == c && !unitExists s n i).foldl
      (fun s i => placeUnit s n l i c 0) s).modLaunch n fun x => { x with
        placed := x.placed + ((List.range l.record.units).filter fun i => l.record.clusterOf i == c && !unitExists s n i).length,
        pendingWings := x.pendingWings.filter fun x => x != c } := by
    rw [placeOn, hl]
  have hseats := Seats.foldl (fun s i => placeUnit_seats s n l i c 0)
    ((List.range l.record.units).filter fun i => l.record.clusterOf i == c && !unitExists s n i) s
  have hexists (j : Nat) (hj : j < 65536) := foldl_placeUnit_exists n l c hj
    ((List.range l.record.units).filter fun i => l.record.clusterOf i == c && !unitExists s n i) s
  rw [hplace]
  obtain ⟨x, hx, -⟩ : ∃ x : Launch, _ ∧ x.pendingWings = l.pendingWings := by
    have hp := hseats.pending n
    rw [hl] at hp
    exact Option.map_eq_some_iff.1 hp
  refine ⟨hseats.mem, hseats.wings, ⟨_, (List.getElem?_modify_eq ..).trans (congrArg _ hx), ?_⟩, fun j hu hj hc => hexists j hj ?_⟩
  · simp
  · cases he : unitExists s n j with
    | true => exact .inl rfl
    | false => exact .inr (List.mem_filter.2 ⟨List.mem_range.2 hu, by rw [hc, he]; simp⟩)

theorem checkSheet_frame (s : State) (c : ClusterNo) (n : Nat) (l : Launch) :
    ∃ m, checkSheet s c n l = s.setMod m := by
  unfold checkSheet refuseSheet
  split
  · split
    · split
      · exact ⟨s.mod, rfl⟩
      · exact ⟨_, rfl⟩
    · exact ⟨s.mod, rfl⟩
  · exact ⟨s.mod, rfl⟩

theorem execWingsLoad_takes {s : State} {n : Nat} {l : Launch} {c : ClusterNo} (hl : s.launch? n = some l) (hc : c ∈ l.pendingWings)
    (hs : (s.cluster c).shadowWings = none) (hd : l.deadline = none ∨ l.registered = true) :
    exec (.wingsLoad n c) s = .next (if l.wings.arrcfg.getLsbD 47 then
      activate (((checkSheet s c n l).modLaunch n fun l => { l with pendingWings := l.pendingWings.filter fun x => x != c }).modCluster c
        fun k => { k with shadowWings := some n }) c else placeOn (checkSheet s c n l) n c) := by
  have hgo : (!l.pendingWings.contains c || (s.cluster c).shadowWings.isSome || (l.deadline.isSome && !l.registered)) = false := by
    rw [List.contains_iff_mem.2 hc, hs]
    obtain h | h := hd <;> rw [h] <;> simp
  rw [exec_wingsLoad, execWingsLoad, hl]
  dsimp only
  rw [hgo]
  rfl

theorem activate_cluster (s : State) (c d : ClusterNo) : (activate s c).cluster d = s.cluster d := by
  unfold activate
  split <;> rfl

theorem activate_hub (s : State) (c : ClusterNo) : (activate s c).hub = s.hub ∧ (activate s c).units = s.units ∧ (activate s c).mem = s.mem := by
  unfold activate
  split <;> exact ⟨rfl, rfl, rfl⟩

theorem wingsLoad_spec {s : State} {n : Nat} {l : Launch} {c : ClusterNo} (hl : s.launch? n = some l) (hc : c ∈ l.pendingWings)
    (hs : (s.cluster c).shadowWings = none) (hd : l.deadline = none ∨ l.registered = true) :
    ∃ t l', exec (.wingsLoad n c) s = .next t ∧ t.mem = s.mem ∧ t.launch? n = some l' ∧ c ∉ l'.pendingWings ∧
      (l.wings.arrcfg.getLsbD 47 = true → t.units = s.units ∧ (t.cluster c).shadowWings = some n) ∧
      (l.wings.arrcfg.getLsbD 47 = false → ∀ j : Nat, j < l.record.units → j < 65536 → l.record.clusterOf j = c → unitExists t n j = true) := by
  obtain ⟨m, hm⟩ := checkSheet_frame s c n l
  have hexec := execWingsLoad_takes hl hc hs hd
  rw [hm] at hexec
  cases ha : l.wings.arrcfg.getLsbD 47 with
  | true =>
    rw [ha, if_pos rfl] at hexec
    obtain ⟨hhub, hunits, hmem⟩ := activate_hub (((s.setMod m).modLaunch n fun l =>
      { l with pendingWings := l.pendingWings.filter fun x => x != c }).modCluster c fun k => { k with shadowWings := some n }) c
    refine ⟨_, { l with pendingWings := l.pendingWings.filter fun x => x != c }, hexec, hmem, ?_, ?_, fun _ => ⟨hunits, ?_⟩, nofun⟩
    · exact (congrArg (fun h : Hub => h.launches[n]?) hhub).trans ((List.getElem?_modify_eq ..).trans (congrArg _ hl))
    · simp
    · rw [activate_cluster, State.cluster_modCluster_self]
  | false =>
    rw [ha] at hexec
    obtain ⟨hmem, -, ⟨l', hl', hp⟩, hplaced⟩ := placeOn_spec (s := s.setMod m) hl c
    exact ⟨_, l', hexec, hmem, hl', hp, nofun, fun _ => hplaced⟩

theorem loadSheet_frame (s : State) (c : ClusterNo) (n : Nat) (l : Launch) :
    (loadSheet s c n l).mem = s.mem ∧ (loadSheet s c n l).clusters = s.clusters ∧ (loadSheet s c n l).hub = s.hub := by
  unfold loadSheet refuseSheet
  dsimp only
  split
  · exact ⟨rfl, rfl, rfl⟩
  · split
    · exact ⟨rfl, rfl, rfl⟩
    · split
      · split <;> exact ⟨rfl, rfl, rfl⟩
      · exact ⟨rfl, rfl, rfl⟩

/-- The array of a launch's wings, everything else of it cleared (R233). -/
structure FreshArray (a : ArraySt) (n : Nat) (l : Launch) : Prop where
  owner : a.owner = some n
  slen : a.slen = l.wings.arrcfg.extractLsb' 0 5
  mode : a.mode = l.wings.arrcfg.extractLsb' 40 2
  ez : a.ez = l.wings.ez
  idle : a.state = .idle ∧ a.set = none ∧ a.queue = [] ∧ a.latches = []
  cleared : l.wings.arrcfg.getLsbD 46 = false → a.cells = [] ∧ a.clearing = 2048

theorem swapArray_core (s : State) (c : ClusterNo) (n : Nat) (l : Launch) :
    ((swapArray s c n l).cluster c).activeWings = (s.cluster c).activeWings ∧
    ((swapArray s c n l).cluster c).shadowWings = (s.cluster c).shadowWings ∧ FreshArray ((swapArray s c n l).cluster c).array n l := by
  rw [swapArray, State.modArray, State.cluster_modCluster_self]
  refine ⟨rfl, rfl, rfl, rfl, rfl, rfl, ⟨rfl, rfl, rfl, rfl⟩, fun hkeep => ?_⟩
  dsimp only
  rw [hkeep]
  exact ⟨rfl, rfl⟩

theorem wingsSwap_spec {s : State} {n : Nat} {l : Launch} {c : ClusterNo} (hs : (s.cluster c).shadowWings = some n) (hl : s.launch? n = some l)
    (hswap : canSwap s c = true) :
    ∃ t, exec (.wingsSwap c) s = .next t ∧ t.mem = s.mem ∧ (t.cluster c).activeWings = some n ∧ (t.cluster c).shadowWings = none ∧
      FreshArray (arrayOf t c) n l := by
  have hexec : exec (.wingsSwap c) s = .next (placeOn (loadSheet (swapArray
      (s.modCluster c fun k => { k with activeWings := some n, shadowWings := none }) c n l) c n l) n c) := by
    rw [exec_wingsSwap, execWingsSwap, hs]
    dsimp only
    rw [hl]
    dsimp only
    rw [hswap]
    rfl
  obtain ⟨hactive, hshadow, harray⟩ := swapArray_core (s.modCluster c fun k => { k with activeWings := some n, shadowWings := none }) c n l
  rw [State.cluster_modCluster_self] at hactive hshadow
  have hswapped : (swapArray (s.modCluster c fun k => { k with activeWings := some n, shadowWings := none }) c n l).mem = s.mem ∧
      (swapArray (s.modCluster c fun k => { k with activeWings := some n, shadowWings := none }) c n l).hub = s.hub := ⟨rfl, rfl⟩
  generalize swapArray (s.modCluster c fun k => { k with activeWings := some n, shadowWings := none }) c n l = b at hexec hactive hshadow harray hswapped
  obtain ⟨hmem, hcl, hhub⟩ := loadSheet_frame b c n l
  have hl' : (loadSheet b c n l).launch? n = some l := by
    rw [State.launch?, hhub, hswapped.2]
    exact hl
  obtain ⟨hmem', hw, -⟩ := placeOn_spec hl' c
  have hcore : (loadSheet b c n l).cluster c = b.cluster c := congrArg (fun k : Vector Cluster 128 => k.get c) hcl
  obtain ⟨ha, hs', hx⟩ := hcore ▸ hw c
  exact ⟨_, hexec, hmem'.trans (hmem.trans hswapped.1), ha.trans hactive, hs'.trans hshadow,
    by rw [arrayOf, hx]; exact harray⟩

/-! ### Background operations that end (R116, R237) -/

theorem clearDone_last {s : State} {c : ClusterNo} (h : (arrayOf s c).clearing = 1) :
    arrayOf (clearDone s c) c = { arrayOf s c with clearing := 0 } := by
  rw [arrayOf, clearDone, State.modArray, State.cluster_modCluster_self]
  dsimp only
  rw [show (s.cluster c).array.clearing = 1 from h]
  rfl

theorem execL1OpComplete_performed {s : State} {c : ClusterNo} {o : L1Op} (ho : (s.cluster c).l1op = some o) (hf : o.flushed = true)
    (hl : ∀ l ∈ o.lines, awaitsDevice s (dieOf c) l = false) :
    exec (.l1OpComplete c) s = .next (s.modCluster c fun k =>
      { k with l1op := none, cache := if o.inval then k.cache.filter fun l => l.dirty != 0 else k.cache,
               roCache := if o.invalRo then [] else k.roCache }) := by
  have hnone : (o.lines.any fun l => awaitsDevice s (dieOf c) l) = false := List.any_eq_false.2 fun l h => by rw [hl l h]; exact Bool.false_ne_true
  rw [exec_l1OpComplete, execL1OpComplete, ho]
  dsimp only
  rw [hf, hnone]
  rfl

/-- Settles O49, event by event. -/
theorem segmentEvents : Obligations.SegmentEvents := by
  intro s c
  refine ⟨?request, ?park, ?switch, ?start, ?load, ?swap, ?clear, ?cache⟩
  case request => exact fun i u n hr hu hn hlate hp he ho => execPreemptionRequest_late hr hu hn hlate hp he ho
  case park =>
    intro i u w hu hst hg hpre hin hr hstr hd hs he hl hloops hw hp
    obtain ⟨hmem, v, hv, h⟩ := preemptPark_unit hu 3
    exact ⟨_, v, execPreemptPark_waits hu hst hg hpre hin hr hstr hd hs he hl hloops hw hp, hmem, hv, h⟩
  case switch => exact fun e hr hs hrel hn => execSegmentSwitch_begins hr hs hrel hn
  case start =>
    intro i u hu hc hs hp hr hsw hb
    subst hc
    obtain ⟨hexec, hrun⟩ := execUnitStart_seated hu hs hp hr hsw hb
    obtain ⟨hmem, hrunning, hswitch, v, hv, h⟩ := startSegment_first hu hs hrun
    exact ⟨_, v, hexec, hmem, hrunning, hswitch, hv, h⟩
  case load => exact fun n l hl hc hs hd => wingsLoad_spec hl hc hs hd
  case swap =>
    intro n l hs hl hswap
    obtain ⟨t, ht, hmem, ha, hsh, x⟩ := wingsSwap_spec hs hl hswap
    obtain ⟨hidle, hset, hqueue, hlatches⟩ := x.idle
    exact ⟨t, ht, hmem, ha, hsh, x.owner, x.slen, x.mode, x.ez, hidle, hset, hqueue, hlatches, x.cleared⟩
  case clear => exact fun h => ⟨_, rfl, rfl, rfl, clearDone_last h⟩
  case cache =>
    intro o ho hf hl
    refine ⟨_, execL1OpComplete_performed ho hf hl, rfl, rfl, rfl, ?_⟩
    rw [State.cluster_modCluster_self]
    exact ⟨rfl, rfl, rfl⟩

end Sys2Proof.CoreEvents
end

section
/-! PROOFS.
The timekeeper, deadlines and the curtain (R383 to R398). -/

-- One proof at a time: the check of the whole text has a limit on memory, which many threads would reach.
set_option Elab.async false

namespace Sys2Proof.CurtainEvents

open Sys2Proof.Machine Sys2Proof.Safety Sys2Proof.Sequencer Sys2Proof.Abandonment Sys2Proof.Kills Sys2Proof.UnitEvents Sys2Proof.CoreEvents

/-! ### The timekeeper (R383, R384) -/

/-- A rate of at most 200,000 in either direction. -/
theorem natAbs_sign_mul_mod_le (off : Int) (x : Nat) : (off.sign * ((x % 200001 : Nat) : Int)).natAbs ≤ 200000 := by
  have hx : x % 200001 < 200001 := Nat.mod_lt _ (by decide)
  have hs : off.sign.natAbs ≤ 1 := by
    rw [Int.natAbs_sign]
    split <;> decide
  rw [Int.natAbs_mul, Int.natAbs_natCast]
  calc off.sign.natAbs * (x % 200001) ≤ 1 * (x % 200001) := Nat.mul_le_mul_right _ hs
    _ ≤ 200000 := by omega

/-- A measured offset locks the timekeeper to its source, and is slewed or stepped. -/
theorem discipline_spec (s : State) (src : BitVec 2) (off : Int) :
    let t := discipline s src off
    t.mem = s.mem ∧ t.units = s.units ∧ t.hub.tk.lock = true ∧ t.hub.tk.hold = false ∧ t.hub.tk.active = src ∧
    t.hub.tk.offset = offsetField off ∧
    (off.natAbs ≤ 1000000 → t.hub.tk.tai = s.hub.tk.tai ∧ t.hub.tk.stepped = s.hub.tk.stepped ∧ t.hub.tk.rate.natAbs ≤ 200000) ∧
    (1000000 < off.natAbs → (t.hub.tk.tai : Int) = max 0 (s.hub.tk.tai + off) ∧ t.hub.tk.stepped = true) := by
  unfold discipline
  dsimp only
  by_cases h : off.natAbs ≤ slewLimit
  · rw [if_pos h]
    exact ⟨rfl, rfl, rfl, rfl, rfl, rfl, fun _ => ⟨rfl, rfl, natAbs_sign_mul_mod_le ..⟩, fun hgt => absurd h (Nat.not_le.2 hgt)⟩
  · rw [if_neg h]
    refine ⟨rfl, rfl, rfl, rfl, rfl, rfl, fun hle => absurd hle h, fun _ => ⟨?_, rfl⟩⟩
    show (((s.hub.tk.tai : Int) + off).toNat : Int) = max 0 (s.hub.tk.tai + off)
    omega

theorem execPpsInput_aligned {s : State} (hs : s.hub.tk.src = 1) (hp : s.hub.tk.pps = true) :
    ∃ off : Int, exec .ppsInput s = .next (discipline s 1 off) ∧ off.natAbs ≤ 500000000 ∧ (s.hub.tk.tai + off) % 1000000000 = 0 := by
  refine ⟨if s.hub.tk.tai % 1000000000 < 500000000 then -((s.hub.tk.tai % 1000000000 : Nat) : Int)
    else 1000000000 - ((s.hub.tk.tai % 1000000000 : Nat) : Int), ?_, ?_, ?_⟩
  · rw [exec_ppsInput, execPpsInput]
    dsimp only
    rw [hs, hp]
    rfl
  · split <;> omega
  · split <;> omega

theorem writeTkset_free {s : State} (h : s.hub.tk.src = 0) (v : Word) :
    let t := writeTkset s v
    t.mem = s.mem ∧ t.units = s.units ∧ t.hub.tk.tai = (v.toNat % 2 ^ 48) * 1000000000 ∧ t.hub.tk.stepped = true := by
  unfold writeTkset
  rw [if_pos h]
  refine ⟨rfl, rfl, ?_, rfl⟩
  show (v.extractLsb' 0 48).toNat * 1000000000 = _
  rw [BitVec.extractLsb'_toNat, Nat.shiftRight_zero]

theorem timekeeper (s : State) :
    let k := s.hub.tk
    let disciplined (t : State) (src : BitVec 2) (off : Int) : Prop :=
      t.mem = s.mem ∧ t.units = s.units ∧ t.hub.tk.lock = true ∧ t.hub.tk.hold = false ∧ t.hub.tk.active = src ∧
      t.hub.tk.offset = offsetField off ∧
      (off.natAbs ≤ 1000000 → t.hub.tk.tai = k.tai ∧ t.hub.tk.stepped = k.stepped ∧ t.hub.tk.rate.natAbs ≤ 200000) ∧
      (1000000 < off.natAbs → (t.hub.tk.tai : Int) = max 0 (k.tai + off) ∧ t.hub.tk.stepped = true)
    (∀ off : Int, (k.src = 1 → ∃ t, exec (.ptpMessage off false) s = .next t ∧ disciplined t 1 off) ∧
      exec (.ptpMessage off true) s = .next s ∧ (k.src ≠ 1 → exec (.ptpMessage off false) s = .next s)) ∧
    (k.src = 1 → k.pps = true → ∃ t off, exec .ppsInput s = .next t ∧ disciplined t 1 off ∧ off.natAbs ≤ 500000000 ∧
      (k.tai + off) % 1000000000 = 0) ∧
    (∀ time : Nat, k.src = 2 → ∃ t, exec (.ptmResponse time) s = .next t ∧ disciplined t 2 ((time : Int) - (k.tai : Int))) ∧
    (k.src ≠ 0 → ∃ t, exec .holdoverEntry s = .next t ∧ t = modTk s fun x => { x with hold := true, lock := false }) ∧
    (∀ v : Word, (k.src = 0 → ∃ t, exec (.tkset v) s = .next t ∧ t.mem = s.mem ∧ t.units = s.units ∧
        t.hub.tk.tai = (v.toNat % 2 ^ 48) * 1000000000 ∧ t.hub.tk.stepped = true) ∧
      (k.src ≠ 0 → exec (.tkset v) s = .next s)) ∧
    (∃ t, exec .tktaisRead s = .next t ∧ t = modTk s (fun x => { x with tain := BitVec.ofNat 32 (k.tai % 1000000000) })) := by
  intro k disciplined
  refine ⟨fun off => ⟨fun h => ⟨_, ?ptp, discipline_spec s 1 off⟩, ?arb, fun h => ?unused⟩, fun h hp => ?pps,
    fun time h => ⟨_, ?ptm, discipline_spec s 2 _⟩, fun h => ⟨_, ?hold, rfl⟩, fun v => ⟨fun h => ⟨_, rfl, writeTkset_free h v⟩, fun h => ?tkset⟩,
    ⟨_, rfl, rfl⟩⟩
  case ptp => exact congrArg Host.Outcome.next (if_pos (by rw [show s.hub.tk.src = 1 from h]; rfl))
  case arb => exact congrArg Host.Outcome.next (if_neg (by simp))
  case unused => exact congrArg Host.Outcome.next (if_neg (by simp only [Bool.not_false, Bool.and_true, decide_eq_true_eq]; exact h))
  case pps =>
    obtain ⟨off, hexec, hsmall, hsecond⟩ := execPpsInput_aligned h hp
    exact ⟨_, off, hexec, discipline_spec s 1 off, hsmall, hsecond⟩
  case ptm => exact congrArg Host.Outcome.next (if_pos h)
  case hold => exact congrArg Host.Outcome.next (if_neg h)
  case tkset => exact congrArg Host.Outcome.next (if_neg h)

/-! ### The strike (R386) -/

/-- A launch as the strike of its deadline leaves it where TAI has reached the deadline. -/
def struckAt (tai : Nat) (l : Launch) : Launch :=
  match l.deadline with
  | some d => if l.registered && !l.struck && !l.done && decide (d ≤ tai) then { l with struck := true } else l
  | none => l

theorem strikeDue_launch (s : State) (n : Nat) : (strikeDue s).launch? n = (s.launch? n).map (struckAt s.hub.tk.tai) := by
  refine (List.getElem?_map ..).trans ?_
  rfl

theorem struckAt_reached {tai : Nat} {l : Launch} {d : Nat} (hd : l.deadline = some d) (hr : l.registered = true) (hs : l.struck = false)
    (hf : l.done = false) (h : d ≤ tai) : struckAt tai l = { l with struck := true } := by
  rw [struckAt, hd]
  exact if_pos (by rw [hr, hs, hf, decide_eq_true h]; rfl)

theorem struckAt_ahead {tai : Nat} {l : Launch} {d : Nat} (hd : l.deadline = some d) (h : tai < d) : struckAt tai l = l := by
  rw [struckAt, hd]
  exact if_neg (by rw [decide_eq_false (Nat.not_le.2 h), Bool.and_false]; exact Bool.false_ne_true)

/-- TAI at the deadline. -/
def atDeadline (s : State) (d : Nat) : State := modTk s fun t => if t.tai < d then { t with tai := d, frac := 0 } else t

theorem atDeadline_tai (s : State) (d : Nat) : (atDeadline s d).hub.tk.tai = max d s.hub.tk.tai := by
  show (if s.hub.tk.tai < d then { s.hub.tk with tai := d, frac := 0 } else s.hub.tk).tai = _
  split
  · next h => exact (Nat.max_eq_left (Nat.le_of_lt h)).symm
  · next h => exact (Nat.max_eq_right (Nat.not_lt.1 h)).symm

theorem execDeadlineStrike_reached {s : State} {n : Nat} {l : Launch} {d : Nat} (hl : s.launch? n = some l) (hd : l.deadline = some d)
    (hr : l.registered = true) (hs : l.struck = false) (hf : l.done = false) :
    exec (.deadlineStrike n) s = .next (strikeDue (atDeadline s d)) := by
  rw [exec_deadlineStrike, execDeadlineStrike, hl]
  dsimp only
  rw [hd]
  dsimp only
  rw [if_pos (by rw [hr, hs, hf]; rfl)]
  rfl

theorem deadlineStrike_spec {s : State} {n : Nat} {l : Launch} {d : Nat} (hl : s.launch? n = some l) (hd : l.deadline = some d)
    (hr : l.registered = true) (hs : l.struck = false) (hf : l.done = false) :
    ∃ t l', exec (.deadlineStrike n) s = .next t ∧ t.units = s.units ∧ t.mem = s.mem ∧ t.launch? n = some l' ∧
      l'.struck = true ∧ t.hub.tk.tai = max d s.hub.tk.tai ∧
      (∀ j x y, s.launch? j = some x → x.deadline = some y → t.hub.tk.tai < y → t.launch? j = some x) := by
  have htai := atDeadline_tai s d
  refine ⟨_, { l with struck := true }, execDeadlineStrike_reached hl hd hr hs hf, rfl, rfl, ?_, rfl, htai, fun j x y hj hy hlt => ?_⟩
  · rw [strikeDue_launch, show (atDeadline s d).launch? n = some l from hl]
    exact congrArg some (struckAt_reached hd hr hs hf (by rw [htai]; exact Nat.le_max_left ..))
  · rw [strikeDue_launch, show (atDeadline s d).launch? j = some x from hj]
    exact congrArg some (struckAt_ahead hy hlt)

/-! ### The message (R388, R389) -/

/-- The message passes the unit by. -/
structure PassedBy (n : Nat) (c : ClusterNo) (u : UnitSt) : Prop where
  passed : u.ident.launch ≠ some n ∨ u.ident.cluster ≠ c ∨ u.live = false ∨ u.curt.struck = true

theorem PassedBy.kept {n : Nat} {c : ClusterNo} {u w : UnitSt} (h : PassedBy n c u) (hk : KeptUnit u w) : PassedBy n c w := by
  obtain hl | hc | hd | hs := h.passed
  · exact ⟨.inl (by rw [hk.ident]; exact hl)⟩
  · exact ⟨.inr (.inl (by rw [hk.ident]; exact hc))⟩
  · exact ⟨.inr (.inr (.inl ((KeptUnit.live_congr (hk.ended hd).1).trans hd)))⟩
  · exact ⟨.inr (.inr (.inr (hk.struck hs)))⟩

section
variable {s : State} {i : Uid} {u : UnitSt} {n : Nat} {c : ClusterNo}

theorem strikeUnit_passed (hu : s.unit? i = some u) (h : PassedBy n c u) : strikeUnit n c s i = s := by
  have hno : (u.ident.launch == some n && u.ident.cluster == c && u.live && !u.curt.struck) = false := by
    obtain h | h | h | h := h.passed <;> simp [h]
  rw [strikeUnit, hu]
  dsimp only
  rw [hno]
  rfl

/-- A unit struck, its reach window given. -/
def struckUnit (s : State) (i : Uid) (window : Option Nat) : State :=
  s.modUnit i fun u => u.modCurt fun x => { x with struck := true, window := window }

theorem strikeUnit_reached (hu : s.unit? i = some u) (hl : u.ident.launch = some n) (hlive : u.live = true) (hs : u.curt.struck = false) :
    strikeUnit n u.ident.cluster s i =
      if u.isFrozen then (curtainArray (struckUnit s i none) i u.ident.cluster).modUnit i fun u => u.modRun fun r => { r with curtFrozen := true }
      else if u.run.bundles = 0 then endUnit (struckUnit s i none) i .curtain else struckUnit s i (reachWindow s u) := by
  rw [strikeUnit, hu]
  dsimp only
  rw [if_neg (by simp [hl, hlive, hs])]
  rfl

theorem struckUnit_keeps (s : State) (i : Uid) (w : Option Nat) : Keeps s (struckUnit s i w) :=
  modUnit_keeps_of fun _ _ => ⟨rfl, rfl, rfl, rfl, rfl, fun _ => rfl, fun _ => ⟨rfl, rfl⟩⟩

theorem curtainArray_behind {q : Prop} (s : State) (i : Uid) (c : ClusterNo) : Behind q s (curtainArray s i c) := by
  unfold curtainArray
  dsimp only
  have hend : Behind q s (if (arrayOf s c).state == .run && (arrayOf s c).streamUid == some i then endStream s c .stopped 2 else s) :=
    .ite (endStream_behind ..) (.refl s)
  exact hend.trans (.ite (discardQueue_behind ..) (.refl _))

theorem strikeUnit_keeps (s : State) (i : Uid) (n : Nat) (c : ClusterNo) : Keeps s (strikeUnit n c s i) := by
  unfold strikeUnit
  split
  · exact .refl s
  · refine .ite (.refl s) ?_
    dsimp only
    refine .ite ?_ (.ite ((struckUnit_keeps s i none).trans (endUnit_keeps ..)) (struckUnit_keeps s i _))
    exact (struckUnit_keeps s i none).trans (.trans (.of_behind (q := True) (curtainArray_behind ..))
      (modRun_keeps _ i fun _ => ⟨rfl, rfl⟩))

/-- Units that the message passes by are not looked at. -/
theorem foldl_strikeUnit_passed (l : List Nat) (s : State) (h : ∀ j ∈ l, ∀ w, s.unit? j = some w → PassedBy n c w) :
    l.foldl (strikeUnit n c) s = s := by
  induction l with
  | nil => rfl
  | cons j l ih =>
    obtain ⟨hj, hl⟩ := List.forall_mem_cons.1 h
    have hstep : strikeUnit n c s j = s := by
      cases hu : s.unit? j with
      | none => rw [strikeUnit, hu]
      | some w => exact strikeUnit_passed hu (hj w hu)
    rw [List.foldl_cons, hstep]
    exact ih hl

theorem range_split {m i : Nat} (h : i < m) : ∃ k, m = i + 1 + k ∧ List.range m = List.range i ++ i :: List.range' (i + 1) k := by
  refine ⟨m - i - 1, by omega, ?_⟩
  obtain ⟨k, rfl⟩ : ∃ k, m = i + (k + 1) := ⟨m - i - 1, by omega⟩
  rw [List.range_add, List.range_succ_eq_map]
  simp [List.range'_eq_map_range, Nat.add_comm, Nat.add_left_comm]

/-- Where every other unit is passed by, the message strikes the one. -/
theorem foldl_strikeUnit_one (hu : s.unit? i = some u) (h : ∀ j w, j ≠ i → s.unit? j = some w → PassedBy n c w) :
    (List.range s.units.length).foldl (strikeUnit n c) s = strikeUnit n c s i := by
  have hi : i < s.units.length := (List.getElem?_eq_some_iff.1 hu).1
  obtain ⟨k, hk, hrange⟩ := range_split hi
  rw [hrange, List.foldl_append,
    foldl_strikeUnit_passed (List.range i) s (fun j hj w hw => h j w (Nat.ne_of_lt (List.mem_range.1 hj)) hw), List.foldl_cons]
  refine foldl_strikeUnit_passed _ _ fun j hj w hw => ?_
  obtain ⟨hij, hjk⟩ := List.mem_range'_1.1 hj
  have hlt : j < s.units.length := hk ▸ hjk
  obtain ⟨x, hx, kx⟩ := (strikeUnit_keeps s i n c).unit j s.units[j] (List.getElem?_eq_getElem hlt)
  cases hx.symm.trans hw
  exact (h j _ (Nat.ne_of_gt hij) (List.getElem?_eq_getElem hlt)).kept kx

theorem execCurtainMessage_one {l : Launch} (hl : s.launch? n = some l) (hs : l.struck = true) (hu : s.unit? i = some u)
    (hn : u.ident.launch = some n) (hlive : u.live = true) (hstr : u.curt.struck = false)
    (h : ∀ j w, j ≠ i → s.unit? j = some w → PassedBy n u.ident.cluster w) :
    exec (.curtainMessage n u.ident.cluster) s = .next (rebuildOrder ((strikeUnit n u.ident.cluster s i).modLaunch n
      fun l => { l with curtain := true }) u.ident.cluster) := by
  have hdue : messageDue s n u.ident.cluster = true :=
    List.any_eq_true.2 ⟨u, List.mem_of_getElem? hu, by simp [hn, hlive, hstr]⟩
  rw [exec_curtainMessage, execCurtainMessage, hl]
  dsimp only
  rw [hs, hdue, foldl_strikeUnit_one hu h]
  rfl

/-- What the message leaves of a live unit that no strike has reached. -/
theorem curtainMessage_spec {l : Launch} (hl : s.launch? n = some l) (hs : l.struck = true) (hu : s.unit? i = some u)
    (hn : u.ident.launch = some n) (hlive : u.live = true) (hstr : u.curt.struck = false)
    (h : ∀ j w, j ≠ i → s.unit? j = some w → PassedBy n u.ident.cluster w) :
    ∃ t v, exec (.curtainMessage n u.ident.cluster) s = .next t ∧ t.unit? i = some v ∧ v.curt.struck = true ∧
      (u.isFrozen = true → v.run.curtFrozen = true ∧ v.curt.window = none ∧ v.regs = u.regs) ∧
      (u.isFrozen = false → u.run.bundles = 0 → v.run.status = .complete .curtain) ∧
      (u.isFrozen = false → u.run.bundles ≠ 0 → v.curt.window = reachWindow s u ∧ v.run.status = u.run.status ∧ v.regs = u.regs ∧
        v.flow = u.flow ∧ v.pend = u.pend) := by
  have hexec := execCurtainMessage_one hl hs hu hn hlive hstr h
  have hordered {t : State} {w : UnitSt} (hw : t.unit? i = some w) :
      ∃ b, (rebuildOrder (t.modLaunch n fun l => { l with curtain := true }) u.ident.cluster).unit? i =
        some (w.modRun fun r => { r with preempt := b }) :=
    rebuildOrder_unit (s := t.modLaunch n fun l => { l with curtain := true }) hw
  rw [strikeUnit_reached hu hn hlive hstr] at hexec
  have hstruck (x : Option Nat) : (struckUnit s i x).unit? i = some (u.modCurt fun y => { y with struck := true, window := x }) :=
    State.unit?_modUnit_self hu
  cases hf : u.isFrozen with
  | true =>
    rw [hf, if_pos rfl] at hexec
    obtain ⟨w, hw, ew⟩ := (curtainArray_behind (q := True) (struckUnit s i none) i u.ident.cluster).unit i _ (hstruck none)
    obtain ⟨b, hb⟩ := hordered (State.unit?_modUnit_self hw)
    refine ⟨_, _, hexec, hb, ?_, fun _ => ⟨rfl, ?_, ?_⟩, nofun, nofun⟩ <;> rw [ew] <;> rfl
  | false =>
    rw [hf, if_neg Bool.false_ne_true] at hexec
    by_cases hz : u.run.bundles = 0
    · rw [if_pos hz] at hexec
      obtain ⟨w, hw, hw', -, kw⟩ := endUnit_unit (hstruck none) (e := .curtain) hlive
      obtain ⟨b, hb⟩ := hordered hw
      exact ⟨_, _, hexec, hb, kw.struck rfl, nofun, fun _ _ => hw', fun _ h => absurd hz h⟩
    · rw [if_neg hz] at hexec
      obtain ⟨b, hb⟩ := hordered (hstruck (reachWindow s u))
      exact ⟨_, _, hexec, hb, rfl, nofun, fun _ h => absurd h hz, fun _ _ => ⟨rfl, rfl, rfl, rfl, rfl⟩⟩

/-! ### The diversion, and the ends of the curtain (R391, R396, R397) -/

/-- The unit as its diversion leaves it. -/
def divertedUnit (r : OpRecord) (point : BitVec 2) (stopped : Bool) (u : UnitSt) : UnitSt :=
  let u : UnitSt := if u.sync.barawReq.isSome then { u with pend := u.pend.filter fun e => !e.baraw } else u
  let u := u.modSyncSt fun y => { y with barawReq := none }
  let u := u.modFlow fun f =>
    { f with pc := ⟨r.centry, false, none, false⟩, npc := ⟨r.centry + 16, false, some r.centry, false⟩,
             nnpc := ⟨r.centry + 32, false, some (r.centry + 16), false⟩, skip := 0, last := none,
             loops := f.loops.map fun x => { x with active := false } }
  let u := u.modCurt fun x =>
    { x with inentry := true, point := point, stopped := stopped, budget := BitVec.ofNat 25 r.wrap + 1, window := none }
  let u := u.modMem fun m => { m with haltRel := none }
  u.modRun fun x =>
    { x with wait := none, preempt := false, drainLevel := none, endSeg := false, standing := 0, stood := false, gap := 0,
              parkPoint := none }

theorem divertedUnit_regs (r : OpRecord) (p : BitVec 2) (b : Bool) (u : UnitSt) :
    (divertedUnit r p b u).regs = u.regs ∧ (divertedUnit r p b u).csr = u.csr := by
  have h : (if u.sync.barawReq.isSome then { u with pend := u.pend.filter fun e => !e.baraw } else u).regs = u.regs ∧
      (if u.sync.barawReq.isSome then { u with pend := u.pend.filter fun e => !e.baraw } else u).csr = u.csr := by
    split <;> exact ⟨rfl, rfl⟩
  exact h

theorem divert_unit {r : OpRecord} (hu : s.unit? i = some u) (hr : unitRecord s u = some r) (p : BitVec 2) :
    ∃ w b, (divert s i p).unit? i = some (divertedUnit r p b w) ∧ w.regs = u.regs ∧ w.csr = u.csr := by
  have hdivert : divert s i p = (curtainArray (endWait (recordEvent s i .diversion 0 (p.setWidth 64)) i) i u.ident.cluster).modUnit i
      (divertedUnit r p (streamStopped s i u.ident.cluster)) := by
    rw [divert, hu]
    dsimp only
    rw [hr]
    rfl
  have hrec : (recordEvent s i .diversion 0 (p.setWidth 64)).unit? i = some u := (congrArg (·[i]?) (recordEvent_units ..)).trans hu
  obtain ⟨x, hx, ex⟩ := (endWait_waitOnly (recordEvent s i .diversion 0 (p.setWidth 64)) i).unit i u hrec
  obtain ⟨w, hw, ew⟩ := (curtainArray_behind (q := True) _ i u.ident.cluster).unit i x hx
  rw [hdivert]
  refine ⟨w, _, State.unit?_modUnit_self hw, ?_⟩
  rw [ew, ex]
  exact ⟨rfl, rfl⟩

theorem execDiversion_waits {r : OpRecord} {w : WaitKind} (hu : s.unit? i = some u) (hst : u.run.status = .running) (hg : u.run.gap = 0)
    (hstr : u.curt.struck = true) (hin : u.curt.inentry = false) (hrec : unitRecord s u = some r) (hno : r.noent = false)
    (hr : replays s u = false) (hd : u.run.due = []) (hs : u.run.stepFor = none) (he : u.run.endSeg = false) (hp : u.run.parkPoint = none)
    (hl : u.run.drainLevel = none) (hloops : ∀ l, (u.flow.loops.get l).active = false) (hw : u.run.wait = some w) (hpt : w.isPoint = true) :
    exec (.diversion i) s = .next (divert s i 3) := by
  have hentry : noEntry s u = false := by
    rw [noEntry, hrec]
    exact hno
  have hnow : divertsAtOnce u = none := by
    rw [divertsAtOnce, hp]
    split <;> rfl
  have hpoint : pointEvent s i u = takePoint s i u 3 :=
    pointEvent_waits hu hr hd hs he (by rw [hentry, Bool.and_false]) hnow hl hloops hw hpt
  rw [exec_diversion, execDiversion, hu]
  dsimp only
  rw [if_pos (by rw [atBoundary, hst, hg, hstr, hin, hentry]; rfl), hpoint, takePoint, hstr, hin]
  rfl

theorem execCurtainNoentComplete_ends {r : OpRecord} (hu : s.unit? i = some u)
    (hst : u.run.status = .running ∧ u.run.gap = 0 ∨ u.run.status = .parked) (hstr : u.curt.struck = true) (hin : u.curt.inentry = false)
    (hrec : unitRecord s u = some r) (hno : r.noent = true) (hd : u.run.due = []) :
    exec (.curtainNoentComplete i) s = .next (endUnit s i .curtain) ∧ u.live = true := by
  have hentry : noEntry s u = true := by
    rw [noEntry, hrec]
    exact hno
  have hat : (atBoundary u || u.run.status == .parked) = true ∧ u.live = true := by
    unfold atBoundary UnitSt.live
    obtain ⟨h, hg⟩ | h := hst
    · rw [h, hg]
      exact ⟨rfl, rfl⟩
    · rw [h]
      exact ⟨rfl, rfl⟩
  refine ⟨?_, hat.2⟩
  rw [exec_curtainNoentComplete, execCurtainNoentComplete, hu]
  dsimp only
  rw [if_pos (by rw [hat.1, hstr, hin, hentry, hd]; rfl)]

theorem markKilled_units (s : State) (u : UnitSt) : (markKilled s u).units = s.units ∧ (markKilled s u).mod = s.mod := by
  unfold markKilled
  split <;> exact ⟨rfl, rfl⟩

/-- A unit whose time has run out ends, and the firmware hears of it. -/
theorem curtainOverrun_spec (hu : s.unit? i = some u) (hl : u.live = true) (ht : timeOut u = true) :
    ∃ t v, exec (.curtainOverrun i) s = .next t ∧ t.unit? i = some v ∧ v.run.status = .complete .killed ∧ v.pend = [] ∧
      (cOverrun, u.bundleVa.toNat) ∈ t.mod.errEvents := by
  have hexec : exec (.curtainOverrun i) s = .next (endUnit (markKilled (s.setMod { s.mod with
      errEvents := s.mod.errEvents ++ [(cOverrun, u.bundleVa.toNat)] }) u) i .killed) := by
    rw [exec_curtainOverrun, execCurtainOverrun, hu]
    dsimp only
    rw [if_pos (by rw [hl, ht]; rfl), overrun, hu]
    rfl
  obtain ⟨hunits, hmod⟩ := markKilled_units (s.setMod { s.mod with errEvents := s.mod.errEvents ++ [(cOverrun, u.bundleVa.toNat)] }) u
  obtain ⟨v, hv, hs, hp, -⟩ := endUnit_unit ((congrArg (·[i]?) hunits).trans hu) hl .killed
  refine ⟨_, v, hexec, hv, hs, hp, ?_⟩
  rw [(endUnit_keeps ..).mod, hmod]
  exact List.mem_append_right _ (List.mem_singleton.2 rfl)

end

/-- Settles O50: the timekeeper, the strike and the curtain, through the point (R390), the end of a unit (R16) and what stays behind it. -/
theorem timeAndCurtainEvents : Obligations.TimeAndCurtainEvents := by
  refine ⟨timekeeper, fun s n l d hl hd hr hs hf => deadlineStrike_spec hl hd hr hs hf, fun s i u hu => ⟨?message, ?diversion, ?noEntry, ?overrun⟩⟩
  case message =>
    exact fun n l hl hs hn hlive hstr h => curtainMessage_spec hl hs hu hn hlive hstr fun j w hij hw => ⟨h j w hij hw⟩
  case diversion =>
    intro r w hst hg hstr hin hrec hno hr hd hs he hp hl hloops hw hpt
    obtain ⟨x, b, hx, hregs, hcsr⟩ := divert_unit hu hrec 3
    obtain ⟨hregs', hcsr'⟩ := divertedUnit_regs r 3 b x
    exact ⟨_, _, execDiversion_waits hu hst hg hstr hin hrec hno hr hd hs he hp hl hloops hw hpt, hx, rfl, rfl, rfl, rfl, rfl, rfl,
      hregs'.trans hregs, hcsr'.trans hcsr⟩
  case noEntry =>
    intro r hst hstr hin hrec hno hd
    obtain ⟨hexec, hlive⟩ := execCurtainNoentComplete_ends hu hst hstr hin hrec hno hd
    obtain ⟨v, hv, hs, hp, -⟩ := endUnit_unit hu hlive .curtain
    exact ⟨_, v, hexec, hv, hs, hp⟩
  case overrun => exact fun hl ht => curtainOverrun_spec hu hl ht

end Sys2Proof.CurtainEvents
end

section
/-! PROOFS.
A copy command that has moved nothing yet carries bytes of a tile destination (R157): it settles them when it completes, outside its
own destination. -/

-- One proof at a time: the check of the whole text has a limit on memory, which many threads would reach.
set_option Elab.async false

namespace Sys2Proof.StaleTile

open Sys2Proof.Machine Sys2Proof.Safety

/-- A unit with handle 0: a tile at the start of level TILE. -/
def holder : UnitSt := CrowdedSlice.loner.modMem fun m => { m with tbl := [Handle.fresh 0 0] }

/-- A started COPY of one row of no bytes from the tile to itself, which carries a byte at address 5. -/
def carrier : CopyCmd :=
  { id := 0, uid := some 0, asid := 1, op := 2, hdr := 0x5000#22, cg := (Vector.replicate 16 0).set 2 0x100000000#64, wins := Vector.replicate 4 0,
    rmode := 0, rb0 := 0, rb1 := 0, bundle := 0, slot := 0, srcPos := 0, dstPos := 0, started := true, index := [], slabs := 0,
    moved := false, arrival := none, arrived := false, publRel := none, publDone := false, fault := none, views := [], await := [],
    flags := 0, buf := none, shadow := false, tile := [(0, 5, [1])], old := [], transform := none }

/-- The command at the head of engine C0 of core 0. -/
def carrying : State :=
  { State.reset with
    units := [holder]
    clusters := State.reset.clusters.set 0 { Cluster.reset with eng := Vector.replicate 2 ⟨[carrier], false⟩ } }

theorem carrying_completes {t : State} (h : exec (.copyCommandComplete 0 0) carrying = .next t) : levelByte t 0 0 5 = 1 := by
  cases h
  rfl

theorem carrying_before : levelByte carrying 0 0 5 = 0 := rfl

/-- Refutes O51: the byte that the command carries lands outside its destination. -/
theorem not_copyAndBufferEvents : ¬ Obligations.CopyAndBufferEvents := by
  intro h
  obtain ⟨hcopy, -⟩ := h
  obtain ⟨-, hstarted⟩ := hcopy carrying 0 0 carrier [] rfl rfl rfl fun _ hq => absurd hq List.not_mem_nil
  obtain ⟨-, hmove, -⟩ := hstarted 0 holder rfl rfl rfl
  obtain ⟨t, v, ht, -, -, -, hframe⟩ := hmove (Handle.fresh 0 0) (Handle.fresh 0 0) rfl rfl rfl rfl rfl rfl rfl rfl rfl rfl rfl rfl rfl rfl rfl
  have hkept : levelByte t 0 0 5 = levelByte carrying 0 0 5 := hframe 5 (.inr (by decide))
  exact absurd ((carrying_completes ht).symm.trans (hkept.trans carrying_before)) (by decide)

end Sys2Proof.StaleTile
end

section
/-! PROOFS.
The stream array at work (R240, R243, R247 to R255, R259): what its work leaves of units and memory, and each event's array. -/

-- One proof at a time: the check of the whole text has a limit on memory, which many threads would reach.
set_option Elab.async false

namespace Sys2Proof.ArrayWork

open Sys2Proof.Machine Sys2Proof.Safety Sys2Proof.Sequencer Sys2Proof.Abandonment Sys2Proof.Kills

/-! ### What the array's work leaves of units and memory -/

/-- Memory stands, and every unit but for its handles. -/
structure Quiet (s t : State) : Prop where
  mem : t.mem = s.mem
  unit : ∀ j u, s.unit? j = some u → ∃ w, t.unit? j = some w ∧ w = { u with umem := w.umem }

namespace Quiet

variable {s t v : State}

theorem of_units (hm : t.mem = s.mem) (hu : t.units = s.units) : Quiet s t :=
  ⟨hm, fun j u hj => ⟨u, by rw [State.unit?, hu]; exact hj, rfl⟩⟩

theorem refl (s : State) : Quiet s s := of_units rfl rfl

theorem trans (h : Quiet s t) (h' : Quiet t v) : Quiet s v := by
  refine ⟨h'.mem.trans h.mem, fun j u hj => ?_⟩
  obtain ⟨w, hw, ew⟩ := h.unit j u hj
  obtain ⟨x, hx, ex⟩ := h'.unit j w hw
  exact ⟨x, hx, by rw [ex, ew]⟩

theorem foldl {α : Type} {f : State → α → State} (h : ∀ s x, Quiet s (f s x)) (l : List α) (s : State) : Quiet s (l.foldl f s) := by
  induction l generalizing s with
  | nil => exact refl s
  | cons x l ih => exact (h s x).trans (ih (f s x))

theorem ite {c : Prop} [Decidable c] (ht : Quiet s t) (hv : Quiet s v) : Quiet s (if c then t else v) := by
  split
  · exact ht
  · exact hv

end Quiet

/-- And so do the arrays. -/
structure ClaimsOnly (s t : State) : Prop extends Quiet s t where
  array : ∀ c, arrayOf t c = arrayOf s c

namespace ClaimsOnly

variable {s t v : State}

theorem of_units (hm : t.mem = s.mem) (hu : t.units = s.units) (ha : ∀ c, arrayOf t c = arrayOf s c) : ClaimsOnly s t :=
  ⟨.of_units hm hu, ha⟩

theorem refl (s : State) : ClaimsOnly s s := of_units rfl rfl fun _ => rfl

theorem trans (h : ClaimsOnly s t) (h' : ClaimsOnly t v) : ClaimsOnly s v :=
  ⟨h.toQuiet.trans h'.toQuiet, fun c => (h'.array c).trans (h.array c)⟩

theorem foldl {α : Type} {f : State → α → State} (h : ∀ s x, ClaimsOnly s (f s x)) (l : List α) (s : State) :
    ClaimsOnly s (l.foldl f s) := by
  induction l generalizing s with
  | nil => exact refl s
  | cons x l ih => exact (h s x).trans (ih (f s x))

theorem ite {c : Prop} [Decidable c] (ht : ClaimsOnly s t) (hv : ClaimsOnly s v) : ClaimsOnly s (if c then t else v) := by
  split
  · exact ht
  · exact hv

end ClaimsOnly

theorem setHandle_claimsOnly {s : State} {i : Uid} {u : UnitSt} (hu : s.unit? i = some u) (x : Handle) :
    ClaimsOnly s (s.setUnit i (u.setHandle x)) := by
  refine ⟨⟨rfl, fun j v hj => ?_⟩, fun _ => rfl⟩
  by_cases hij : i = j
  · subst hij
    cases hu.symm.trans hj
    exact ⟨_, State.unit?_setUnit_self hu, rfl⟩
  · exact ⟨v, (State.unit?_setUnit_ne hij).trans hj, rfl⟩

theorem putHandle_claimsOnly (s : State) (i : Uid) (x : Handle) : ClaimsOnly s (putHandle s i x) := by
  unfold putHandle
  split
  · exact .refl s
  · next u hu =>
    split
    · exact .refl s
    · have hset := setHandle_claimsOnly hu x
      dsimp only
      split
      · exact hset
      · exact hset.trans (.of_units rfl rfl fun _ => rfl)

theorem publishClaim_claimsOnly (s : State) (i : Uid) (h : BitVec 8) (tail : Bool) (id : Nat) : ClaimsOnly s (publishClaim s i h tail id) := by
  unfold publishClaim
  split
  · exact putHandle_claimsOnly ..
  · exact .refl s

theorem publishOne_claimsOnly (s : State) (q : ArrayCmd) (h : BitVec 8) (tail : Bool) : ClaimsOnly s (publishOne s q h tail) := by
  unfold publishOne
  split
  · exact putHandle_claimsOnly ..
  · exact .refl s

theorem levelWrite_array (s : State) (c d : ClusterNo) (l : BitVec 2) (a : Nat) (bs : List Byte) :
    arrayOf (levelWrite s c l a bs) d = arrayOf s d := by
  unfold arrayOf levelWrite
  by_cases h : c = d
  · subst h
    rw [State.cluster_modCluster_self]
    split <;> rfl
  · rw [State.cluster_modCluster_ne h]

theorem levelWrite_claimsOnly (s : State) (c : ClusterNo) (l : BitVec 2) (a : Nat) (bs : List Byte) :
    ClaimsOnly s (levelWrite s c l a bs) := .of_units rfl rfl fun d => levelWrite_array s c d l a bs

theorem undefSlabs_claimsOnly (s : State) (i : Uid) (h : BitVec 8) (pos : BitVec 32) (n : Nat) : ClaimsOnly s (undefSlabs s i h pos n) := by
  unfold undefSlabs
  split
  · exact .refl s
  · exact .foldl (fun s _ => .trans (t := (freeBytes s _).2) (.of_units rfl rfl fun _ => rfl) (levelWrite_claimsOnly ..)) _ s

theorem dropClaims_claimsOnly (s : State) (q : ArrayCmd) (n : Nat) : ClaimsOnly s (dropClaims s q n) := by
  unfold dropClaims
  dsimp only
  refine .ite ?_ (.refl s)
  have hhead : ClaimsOnly s (if q.headSlabs = 0 then s else publishClaim s q.uid q.headRing false q.claim) :=
    .ite (.refl s) (publishClaim_claimsOnly ..)
  exact hhead.trans (.ite (.refl _) ((undefSlabs_claimsOnly ..).trans (publishClaim_claimsOnly ..)))

section
variable {s : State} {c : ClusterNo}

@[simp] theorem arrayOf_modArray_self (f : ArraySt → ArraySt) : arrayOf (s.modArray c f) c = f (arrayOf s c) := by
  unfold arrayOf State.modArray
  rw [State.cluster_modCluster_self]

theorem arrayOf_modArray_ne {d : ClusterNo} (f : ArraySt → ArraySt) (h : c ≠ d) : arrayOf (s.modArray c f) d = arrayOf s d := by
  unfold arrayOf State.modArray
  rw [State.cluster_modCluster_ne h]

theorem modArray_quiet (s : State) (c : ClusterNo) (f : ArraySt → ArraySt) : Quiet s (s.modArray c f) := .of_units rfl rfl

theorem activate_claimsOnly (s : State) (c : ClusterNo) : ClaimsOnly s (activate s c) := by
  unfold activate
  exact .ite (.refl s) (.of_units rfl rfl fun _ => rfl)

/-- A chain message goes to another core. -/
theorem chainSend_spec (s : State) (c : ClusterNo) (m : ChainMsg) : Quiet s (chainSend s c m) ∧ arrayOf (chainSend s c m) c = arrayOf s c := by
  unfold chainSend
  split
  · next h =>
    refine ⟨(modArray_quiet ..).trans (activate_claimsOnly ..).toQuiet, ((activate_claimsOnly ..).array c).trans (arrayOf_modArray_ne _ ?_)⟩
    intro he
    exact absurd (congrArg Fin.val he) (Nat.succ_ne_self c.val)
  · exact ⟨.refl s, rfl⟩

/-- A stream ends with its state and cause, its emissions under way dropped. -/
theorem endStream_spec {x : Stream} (hx : (arrayOf s c).stream = some x) (st : StreamState) (cause : BitVec 3) :
    Quiet s (endStream s c st cause) ∧ arrayOf (endStream s c st cause) c =
      { arrayOf s c with state := st, cause := cause, conv := (arrayOf s c).conv.filter fun k => k.vector.isNone } := by
  unfold endStream
  dsimp only
  rw [hx]
  dsimp only
  have hdrop (t : State) : ClaimsOnly t (if x.cmd.emit then dropClaims t x.cmd (arrayOf s c).vdone.toNat else t) :=
    .ite (dropClaims_claimsOnly ..) (.refl t)
  have hsend (t : State) : Quiet t (if x.cmd.chout then chainSend t c (chainMsg x true 0 none) else t) ∧
      arrayOf (if x.cmd.chout then chainSend t c (chainMsg x true 0 none) else t) c = arrayOf t c := by
    split
    · exact chainSend_spec ..
    · exact ⟨.refl t, rfl⟩
  refine ⟨((modArray_quiet ..).trans (hdrop _).toQuiet).trans (hsend _).1, (hsend _).2.trans (((hdrop _).array c).trans ?_)⟩
  rw [arrayOf_modArray_self, hx]

end

/-- Memory stands, and of every unit the registers, the record and the chain. -/
structure Undisturbed (s t : State) : Prop where
  mem : t.mem = s.mem
  unit : ∀ j u, s.unit? j = some u → ∃ v, t.unit? j = some v ∧ v.regs = u.regs ∧ v.pend = u.pend ∧ v.flow = u.flow

namespace Undisturbed

variable {s t v : State}

theorem of_quiet (h : Quiet s t) : Undisturbed s t := by
  refine ⟨h.mem, fun j u hj => ?_⟩
  obtain ⟨w, hw, ew⟩ := h.unit j u hj
  refine ⟨w, hw, ?_⟩
  rw [ew]
  exact ⟨rfl, rfl, rfl⟩

theorem trans (h : Undisturbed s t) (h' : Undisturbed t v) : Undisturbed s v := by
  refine ⟨h'.mem.trans h.mem, fun j u hj => ?_⟩
  obtain ⟨w, hw, hr, hp, hf⟩ := h.unit j u hj
  obtain ⟨x, hx, hr', hp', hf'⟩ := h'.unit j w hw
  exact ⟨x, hx, hr'.trans hr, hp'.trans hp, hf'.trans hf⟩

end Undisturbed

theorem modUnit_undisturbed (s : State) (i : Uid) {f : UnitSt → UnitSt}
    (hf : ∀ u, (f u).regs = u.regs ∧ (f u).pend = u.pend ∧ (f u).flow = u.flow) : Undisturbed s (s.modUnit i f) := by
  refine ⟨rfl, fun j u hj => ?_⟩
  by_cases hij : i = j
  · subst hij
    exact ⟨_, State.unit?_modUnit_self hj, hf u⟩
  · exact ⟨u, (State.unit?_modUnit_ne hij).trans hj, rfl, rfl, rfl⟩

theorem noteFault_undisturbed (s : State) (i : Uid) (r : FaultRec) : Undisturbed s (noteFault s i r) :=
  modUnit_undisturbed s i fun _ => ⟨rfl, rfl, rfl⟩

theorem orFlags_undisturbed (s : State) (i : Uid) (f : BitVec 5) : Undisturbed s (orFlags s i f) :=
  modUnit_undisturbed s i fun _ => ⟨rfl, rfl, rfl⟩

theorem noteFault_array (s : State) (i : Uid) (r : FaultRec) (c : ClusterNo) : arrayOf (noteFault s i r) c = arrayOf s c := rfl

theorem orFlags_array (s : State) (i : Uid) (f : BitVec 5) (c : ClusterNo) : arrayOf (orFlags s i f) c = arrayOf s c := rfl

/-- A fault noted behind quiet work is the last one due. -/
theorem noteFault_due {s t : State} (h : Quiet s t) (i : Uid) (r : FaultRec) (u : UnitSt) (hu : s.unit? i = some u) :
    ∃ v, (noteFault t i r).unit? i = some v ∧ v.run.due = u.run.due ++ [r] := by
  obtain ⟨w, hw, ew⟩ := h.unit i u hu
  refine ⟨_, State.unit?_modUnit_self hw, ?_⟩
  rw [ew]
  rfl

/-! ### Starts (R240) -/

section
variable {s : State} {c : ClusterNo} {q : ArrayCmd} {rest : List ArrayCmd}

/-- The core whose array has the command at the head of its queue taken out. -/
def unqueued (s : State) (c : ClusterNo) (rest : List ArrayCmd) : State := s.modArray c fun a => { a with queue := rest }

/-- What the start of a command does, by its operation. -/
def startCmd (s : State) (c : ClusterNo) (q : ArrayCmd) : State :=
  match q.op.toNat with
  | 0 => awldStart s c q
  | 1 => upstreamShort (streamStart s c q) c
  | 2 => upstreamShort (s.modArray c fun a => extStart a q) c
  | 4 => s.modArray c fun a => aoutStart a q
  | _ => s.modArray c fun a => aclrStart a q

theorem startHead_claimed (hq : (arrayOf s c).queue = q :: rest) (hc : q.claimed = true) (hs : canStart (arrayOf s c) q = true) :
    startHead s c = startCmd (unqueued s c rest) c q := by
  unfold startHead
  rw [hq]
  dsimp only
  rw [if_pos hc]
  dsimp only
  rw [if_pos (by rw [hc, hs]; rfl)]
  rfl

/-- An array command's start takes the upstream stream's end into account; no more of the array changes. -/
theorem upstreamShort_spec (s : State) (c : ClusterNo) :
    Quiet s (upstreamShort s c) ∧ ∃ l, arrayOf (upstreamShort s c) c = { arrayOf s c with chainNet := l } := by
  have hrefl : Quiet s s ∧ ∃ l, arrayOf s c = { arrayOf s c with chainNet := l } := ⟨.refl s, _, rfl⟩
  unfold upstreamShort
  dsimp only
  split
  · exact hrefl
  · split
    · split
      · exact hrefl
      · split
        · exact ⟨modArray_quiet .., _, arrayOf_modArray_self ..⟩
        · exact hrefl
    · exact hrefl

theorem slabBytes_modArray (s : State) (c : ClusterNo) (f : ArraySt → ArraySt) (i : Uid) (h : BitVec 8) (pos : BitVec 32) :
    slabBytes (s.modArray c f) i h pos = slabBytes s i h pos := by
  have hlevel (d : ClusterNo) (l : BitVec 2) : levelMem ((s.modArray c f).cluster d) l = levelMem (s.cluster d) l := by
    unfold State.modArray
    by_cases hd : c = d
    · subst hd
      rw [State.cluster_modCluster_self]
      rfl
    · rw [State.cluster_modCluster_ne hd]
  unfold slabBytes levelRead
  rw [show (s.modArray c f).unit? i = s.unit? i from rfl]
  split
  · rw [hlevel]
  · rfl

theorem endExtend_cells (a : ArraySt) : (endExtend a).cells = a.cells ∧ (endExtend a).acyc = a.acyc ∧ (endExtend a).queue = a.queue := by
  unfold endExtend
  split <;> exact ⟨rfl, rfl, rfl⟩

theorem awldStart_spec (s : State) (c : ClusterNo) (q : ArrayCmd) :
    let b := arrayOf (awldStart s c q) c
    Quiet s (awldStart s c q) ∧ b.queue = (arrayOf s c).queue ∧ b.cells = (arrayOf s c).cells ∧
      b.exec = some { cmd := q, finish := (arrayOf s c).acyc + 4 + 2 * q.logicalCols,
                      slabs := (List.range q.logicalCols).map fun i => slabBytes s q.uid q.wh (q.inPos + BitVec.ofNat 32 i), good := 0 } := by
  obtain ⟨hcells, hacyc, hqueue⟩ := endExtend_cells (arrayOf s c)
  unfold awldStart
  dsimp only
  rw [arrayOf_modArray_self]
  exact ⟨modArray_quiet .., hqueue, hcells, by rw [hacyc]⟩

theorem streamStart_spec (s : State) (c : ClusterNo) (q : ArrayCmd) :
    let b := arrayOf (streamStart s c q) c
    Quiet s (streamStart s c q) ∧ b.queue = (arrayOf s c).queue ∧ b.state = .run ∧ b.streamUid = some q.uid ∧
      b.kt = BitVec.ofNat 5 q.slen.toNat ∧ b.vdone = 0 ∧ b.check.valid = false ∧ b.cells = (arrayOf s c).cells ∧
      ∃ x, b.stream = some x ∧ x.cmd = q ∧ x.start = (arrayOf s c).acyc ∧ x.vector = 0 ∧ x.nextJ = 4 := by
  unfold streamStart
  dsimp only
  rw [(publishOne_claimsOnly ..).array c, arrayOf_modArray_self]
  exact ⟨(modArray_quiet ..).trans (publishOne_claimsOnly ..).toQuiet, rfl, rfl, rfl, rfl, rfl, rfl, rfl, _, rfl, rfl, rfl, rfl, rfl⟩

theorem extStart_queue (a : ArraySt) (q : ArrayCmd) : (extStart a q).queue = a.queue := by
  unfold extStart
  dsimp only
  split
  · rfl
  · split
    · rfl
    · split <;> rfl

theorem extStart_stream {a : ArraySt} {x : Stream} (hx : a.stream = some x) (hs : a.state = .run ∨ a.state = .held) (q : ArrayCmd) :
    (extStart a q).state = .run ∧ ∃ y, (extStart a q).stream = some y ∧ y.kt = x.kt + (q.hdr.extractLsb' 0 4).toNat ∧ y.cmd = x.cmd ∧
      y.nextJ = x.nextJ := by
  have hrun : (a.state == .run || a.state == .held) = true := by
    obtain h | h := hs <;> rw [h] <;> rfl
  unfold extStart
  rw [hx]
  dsimp only
  rw [if_pos hrun]
  exact ⟨rfl, _, rfl, rfl, rfl, rfl⟩

/-- The rows and columns cleared: nothing but the weights, their scales and their load forms changes. -/
theorem foldl_weights {α : Type} {f : ArraySt → α → ArraySt}
    (hf : ∀ a x, ∃ l m n, f a x = { a with cells := l, scales := m, forms := n }) (l : List α) (a : ArraySt) :
    ∃ l' m n, l.foldl f a = { a with cells := l', scales := m, forms := n } := by
  induction l generalizing a with
  | nil => exact ⟨_, _, _, rfl⟩
  | cons x l ih =>
    obtain ⟨l₁, m₁, n₁, h₁⟩ := hf a x
    obtain ⟨l₂, m₂, n₂, h₂⟩ := ih (f a x)
    exact ⟨l₂, m₂, n₂, by rw [List.foldl_cons, h₂, h₁]⟩

theorem setColumn_weights {α : Type} {f : ArraySt → α → ArraySt}
    (hf : ∀ a x, ∃ l m n, f a x = { a with cells := l, scales := m, forms := n }) (a : ArraySt) (b : Bool) (col rlo rhi : Nat)
    (cell : Nat → BitVec 8 × BitVec 2) (zs : List α) (form : Machine.LoadForm) :
    ∃ l m n, setForm (zs.foldl f (if b then a else setCells a col rlo rhi cell)) col form = { a with cells := l, scales := m, forms := n } := by
  obtain ⟨l, m, n, h⟩ := foldl_weights hf zs (if b then a else setCells a col rlo rhi cell)
  rw [h]
  cases b <;> exact ⟨_, _, _, rfl⟩

/-- The array with its weights in the command's rows and columns cleared, where the command clears them. -/
def clearedWeights (a : ArraySt) (q : ArrayCmd) : ArraySt :=
  if q.hdr.getLsbD 1 then
    (List.range (q.chi + 1 - q.clo)).foldl (fun a d =>
      let col := q.clo + d
      let a := setCells a col q.rlo q.rhi fun r => (0, BitVec.ofNat 2 (r % 2))
      let a := (zonesOf q.rlo q.rhi).foldl (fun a z => setScale a z col 0x7F) a
      setForm a col .dense) a
  else a

theorem clearedWeights_eq (a : ArraySt) (q : ArrayCmd) :
    (∃ l m n, clearedWeights a q = { a with cells := l, scales := m, forms := n }) ∧
      (q.hdr.getLsbD 1 = false → clearedWeights a q = a) := by
  unfold clearedWeights
  cases q.hdr.getLsbD 1 with
  | true =>
    rw [if_pos rfl]
    refine ⟨foldl_weights (fun a d => ?_) _ a, nofun⟩
    exact setColumn_weights (f := fun a z => setScale a z (q.clo + d) 0x7F) (fun a z => ⟨_, _, _, rfl⟩) a false (q.clo + d) q.rlo q.rhi
      (fun r => (0, BitVec.ofNat 2 (r % 2))) (zonesOf q.rlo q.rhi) .dense
  | false => exact ⟨⟨_, _, _, rfl⟩, fun _ => rfl⟩

theorem aclrStart_spec (a : ArraySt) (q : ArrayCmd) :
    let b := aclrStart a q
    b.queue = a.queue ∧ (∃ x, b.exec = some x ∧ x.cmd = q) ∧ (q.hdr.getLsbD 0 = true → b.set = none ∧ b.state = .idle) ∧
      (q.hdr.getLsbD 2 = true → b.latches = []) ∧ (q.hdr.getLsbD 1 = false → b.cells = a.cells) := by
  generalize hx : (if q.hdr.getLsbD 0 then clearAcc a else if q.stoppedByKill then a else endExtend a) = x
  have hacc : x.queue = a.queue ∧ x.cells = a.cells ∧ (q.hdr.getLsbD 0 = true → x.set = none ∧ x.state = .idle) := by
    rw [← hx]
    split
    · exact ⟨rfl, rfl, fun _ => ⟨rfl, rfl⟩⟩
    · next h =>
      split
      · exact ⟨rfl, rfl, fun h' => absurd h' h⟩
      · obtain ⟨hcells, -, hqueue⟩ := endExtend_cells a
        exact ⟨hqueue, hcells, fun h' => absurd h' h⟩
  obtain ⟨hqueue, hcells, hclear⟩ := hacc
  obtain ⟨⟨l, m, n, hw⟩, hkept⟩ := clearedWeights_eq x q
  have hstart : aclrStart a q =
      { (if q.hdr.getLsbD 2 then clearLat (clearedWeights x q) else clearedWeights x q) with
        exec := some { cmd := q, finish := (if q.hdr.getLsbD 2 then clearLat (clearedWeights x q) else clearedWeights x q).acyc + 4 +
          (if q.hdr.getLsbD 1 then 2 * (q.chi + 1 - q.clo) else 0), slabs := [], good := 0 } } := by
    rw [← hx]
    rfl
  have hlat : (if q.hdr.getLsbD 2 then clearLat (clearedWeights x q) else clearedWeights x q).cells = (clearedWeights x q).cells := by
    split <;> rfl
  dsimp only
  rw [hstart]
  refine ⟨?_, ⟨_, rfl, rfl⟩, fun h => ?_, fun h => ?_, fun h => hlat.trans ((congrArg ArraySt.cells (hkept h)).trans hcells)⟩
  · refine Eq.trans ?_ hqueue
    rw [hw]
    dsimp only
    split <;> rfl
  · obtain ⟨hset, hidle⟩ := hclear h
    rw [hw]
    dsimp only
    split <;> exact ⟨hset, hidle⟩
  · dsimp only
    rw [if_pos h]
    rfl

theorem startCmd_queue (s : State) (c : ClusterNo) (q : ArrayCmd) (rest : List ArrayCmd) :
    Quiet s (startCmd (unqueued s c rest) c q) ∧ (arrayOf (startCmd (unqueued s c rest) c q) c).queue = rest := by
  have hmod : Quiet s (unqueued s c rest) := modArray_quiet ..
  have hqueue : (arrayOf (unqueued s c rest) c).queue = rest := by
    rw [unqueued, arrayOf_modArray_self]
  unfold startCmd
  split
  · obtain ⟨hquiet, hq', -⟩ := awldStart_spec (unqueued s c rest) c q
    exact ⟨hmod.trans hquiet, hq'.trans hqueue⟩
  · obtain ⟨hquiet, hq', -⟩ := streamStart_spec (unqueued s c rest) c q
    obtain ⟨hup, l, ha⟩ := upstreamShort_spec (streamStart (unqueued s c rest) c q) c
    exact ⟨(hmod.trans hquiet).trans hup, by rw [ha]; exact hq'.trans hqueue⟩
  · obtain ⟨hup, l, ha⟩ := upstreamShort_spec ((unqueued s c rest).modArray c fun a => extStart a q) c
    refine ⟨(hmod.trans (modArray_quiet ..)).trans hup, ?_⟩
    rw [ha, arrayOf_modArray_self]
    exact (extStart_queue ..).trans hqueue
  · refine ⟨hmod.trans (modArray_quiet ..), ?_⟩
    rw [arrayOf_modArray_self]
    exact hqueue
  · refine ⟨hmod.trans (modArray_quiet ..), ?_⟩
    rw [arrayOf_modArray_self]
    exact (aclrStart_spec ..).1.trans hqueue

end

end Sys2Proof.ArrayWork
end

section
/-! PROOFS.
The events of the stream array (R243, R247 to R255, R259), one by one. -/

-- One proof at a time: the check of the whole text has a limit on memory, which many threads would reach.
set_option Elab.async false

namespace Sys2Proof.ArrayWork

open Sys2Proof.Machine Sys2Proof.Safety Sys2Proof.Sequencer Sys2Proof.Abandonment Sys2Proof.Kills

/-- What every clause says of an event: it runs, disturbs nothing, and leaves what is said of it. -/
theorem goes_of {s t : State} {i : Instr} {p : State → Prop} (h : exec i s = .next t) (hq : Undisturbed s t) (hp : p t) :
    ∃ t, exec i s = .next t ∧ t.mem = s.mem ∧
      (∀ j u, s.unit? j = some u → ∃ v, t.unit? j = some v ∧ v.regs = u.regs ∧ v.pend = u.pend ∧ v.flow = u.flow) ∧ p t :=
  ⟨t, h, hq.mem, hq.unit, hp⟩

section
variable {s : State} {c : ClusterNo}

/-! ### Weight loads (R247, R248) -/

theorem loadColumn_acyc {a b : ArraySt} {q : ArrayCmd} {n : Nat} {bs : List Byte} (h : loadColumn a q n bs = .ok b) :
    ∃ l m f, b = { a with cells := l, scales := m, forms := f } := by
  unfold loadColumn at h
  dsimp only at h
  split at h
  · cases h
  · cases h
    refine foldl_weights (fun a p => ?_) _ a
    exact setColumn_weights (fun a z => ⟨_, _, _, rfl⟩) a (q.hdr.getLsbD 0) p.1 q.rlo q.rhi _ _ _

/-- One column is due: the load looks at it and at no other. -/
theorem loadDue_one {x : ArrayExec} (hx : (arrayOf s c).exec = some x)
    (hd : x.good + 1 = x.cmd.logicalCols - (x.finish - (arrayOf s c).acyc + 1) / 2) : loadDue s c = loadNext s c := by
  have hone : x.due (arrayOf s c).acyc - x.good = 1 := by
    unfold ArrayExec.due
    omega
  unfold loadDue
  rw [hx]
  dsimp only
  rw [hone]
  rfl

theorem loadNext_due {x : ArrayExec} (hx : (arrayOf s c).exec = some x) (ho : x.cmd.op = 0)
    (hd : x.good + 1 = x.cmd.logicalCols - (x.finish - (arrayOf s c).acyc + 1) / 2) :
    loadNext s c = match loadColumn (arrayOf s c) x.cmd (x.cmd.clo / x.cmd.gw + x.good) (x.slabs.getD x.good []) with
      | .ok a => s.modArray c fun _ => { a with exec := some { x with good := x.good + 1 } }
      | .error g => failLoad s c x cNmIndex g := by
  have hgo : (decide (x.cmd.op = 0) && decide (x.good < x.due (arrayOf s c).acyc)) = true := by
    have hlt : x.good < x.due (arrayOf s c).acyc := by
      unfold ArrayExec.due
      omega
    rw [decide_eq_true ho, decide_eq_true hlt]
    rfl
  unfold loadNext
  dsimp only
  rw [hx]
  dsimp only
  exact (if_pos hgo).trans rfl

theorem awldEnd_running {t : State} {x : ArrayExec} (ht : loadDue s c = t) (hx : (arrayOf t c).exec = some x)
    (hf : (arrayOf t c).acyc < x.finish) : awldEnd s c = t := by
  have hno : (decide (x.cmd.op = 0) && decide (x.finish ≤ (arrayOf t c).acyc)) = false := by
    rw [decide_eq_false (Nat.not_le.2 hf), Bool.and_false]
  unfold awldEnd
  dsimp only
  rw [ht, hx]
  dsimp only
  rw [if_neg (by rw [hno]; exact Bool.false_ne_true)]

theorem awldEnd_over {t : State} (ht : loadDue s c = t) (hx : (arrayOf t c).exec = none) : awldEnd s c = t := by
  unfold awldEnd
  dsimp only
  rw [ht, hx]

theorem foldl_publishOne_claimsOnly (q : ArrayCmd) (h : BitVec 8) (l : List Nat) (s : State) :
    ClaimsOnly s (l.foldl (fun s _ => publishOne s q h false) s) := .foldl (fun s _ => publishOne_claimsOnly s q h false) l s

/-- A weight load that fails: it ends, the cells stand, and its fault is due. -/
theorem failLoad_spec (s : State) (c : ClusterNo) (x : ArrayExec) (code : BitVec 8) (g : Nat) :
    let t := failLoad s c x code g
    Undisturbed s t ∧ (arrayOf t c).exec = none ∧ (arrayOf t c).cells = (arrayOf s c).cells ∧
      ∀ u, s.unit? x.cmd.uid = some u → ∃ v, t.unit? x.cmd.uid = some v ∧ v.run.due = u.run.due ++
        [afterFault code (BitVec.ofNat 80 (x.cmd.clo / x.cmd.gw + x.good + 65536 * g)) (.array x.cmd.tag) x.cmd.slot x.cmd.bundle] := by
  have hpub := foldl_publishOne_claimsOnly x.cmd x.cmd.wh (List.range x.good) s
  have hquiet := hpub.toQuiet.trans (modArray_quiet ((List.range x.good).foldl (fun s _ => publishOne s x.cmd x.cmd.wh false) s) c
    fun a => { a with exec := none, owed := a.owed ++ [x.cmd] })
  have harray := arrayOf_modArray_self (s := (List.range x.good).foldl (fun s _ => publishOne s x.cmd x.cmd.wh false) s) (c := c)
    fun a => { a with exec := none, owed := a.owed ++ [x.cmd] }
  rw [hpub.array c] at harray
  refine ⟨(Undisturbed.of_quiet hquiet).trans (noteFault_undisturbed ..), ?_, ?_, noteFault_due hquiet _ _⟩
  · exact (congrArg ArraySt.exec harray).trans rfl
  · exact (congrArg ArraySt.cells harray).trans rfl

theorem execAwldComplete_column {x : ArrayExec} (hr : arrayRuns s c = true) (hx : (arrayOf s c).exec = some x) (ho : x.cmd.op = 0)
    (hf : (arrayOf s c).acyc < x.finish) (hd : x.good + 1 = x.cmd.logicalCols - (x.finish - (arrayOf s c).acyc + 1) / 2) {a : ArraySt}
    (ha : loadColumn (arrayOf s c) x.cmd (x.cmd.clo / x.cmd.gw + x.good) (x.slabs.getD x.good []) = .ok a) :
    exec (.awldComplete c) s = .next (s.modArray c fun _ => { a with exec := some { x with good := x.good + 1 } }) := by
  have hdue : loadDue s c = s.modArray c fun _ => { a with exec := some { x with good := x.good + 1 } } := by
    rw [loadDue_one hx hd, loadNext_due hx ho hd, ha]
  obtain ⟨l, m, f, hab⟩ := loadColumn_acyc ha
  rw [exec_awldComplete, execAwldComplete, if_pos hr]
  refine congrArg Host.Outcome.next (awldEnd_running hdue (congrArg ArraySt.exec (arrayOf_modArray_self ..)) ?_)
  rw [arrayOf_modArray_self, hab]
  exact hf

theorem execAwldComplete_fails {x : ArrayExec} (hr : arrayRuns s c = true) (hx : (arrayOf s c).exec = some x) (ho : x.cmd.op = 0)
    (hd : x.good + 1 = x.cmd.logicalCols - (x.finish - (arrayOf s c).acyc + 1) / 2) {g : Nat}
    (hg : loadColumn (arrayOf s c) x.cmd (x.cmd.clo / x.cmd.gw + x.good) (x.slabs.getD x.good []) = .error g) :
    exec (.awldComplete c) s = .next (failLoad s c x cNmIndex g) := by
  have hdue : loadDue s c = failLoad s c x cNmIndex g := by
    rw [loadDue_one hx hd, loadNext_due hx ho hd, hg]
  rw [exec_awldComplete, execAwldComplete, if_pos hr]
  exact congrArg Host.Outcome.next (awldEnd_over hdue (failLoad_spec s c x cNmIndex g).2.1)

theorem execAwldComplete_done {x : ArrayExec} (hr : arrayRuns s c = true) (hx : (arrayOf s c).exec = some x) (ho : x.cmd.op = 0)
    (hf : x.finish ≤ (arrayOf s c).acyc) (hg : x.cmd.logicalCols ≤ x.good) :
    exec (.awldComplete c) s = .next (dropClaims (s.modArray c fun a => { a with exec := none }) x.cmd 0) := by
  have hnone : x.due (arrayOf s c).acyc - x.good = 0 := by
    unfold ArrayExec.due
    omega
  have hdue : loadDue s c = s := by
    unfold loadDue
    rw [hx]
    dsimp only
    rw [hnone]
    rfl
  rw [exec_awldComplete, execAwldComplete, if_pos hr]
  unfold awldEnd
  dsimp only
  rw [hdue, hx]
  dsimp only
  rw [if_pos (by rw [decide_eq_true ho, decide_eq_true hf]; rfl)]

theorem execAclrComplete_done {x : ArrayExec} (hr : arrayRuns s c = true) (hx : (arrayOf s c).exec = some x) (ho : x.cmd.op = 5)
    (hf : x.finish ≤ (arrayOf s c).acyc) : exec (.aclrComplete c) s = .next (s.modArray c fun a => { a with exec := none }) := by
  rw [exec_aclrComplete, execAclrComplete, if_pos hr]
  unfold aclrEnd
  rw [hx]
  dsimp only
  rw [if_pos (by rw [decide_eq_true ho, decide_eq_true hf]; rfl)]

/-! ### Latches and checkpoints (R181, R243) -/

theorem execVectorLatch_due {x : Stream} (hr : arrayRuns s c = true) (hx : (arrayOf s c).stream = some x) (hs : (arrayOf s c).state = .run)
    (hv : x.nextLatch < x.cmd.v) (ht : x.start + 4 + x.nextLatch * 2 ^ x.kt ≤ (arrayOf s c).acyc) :
    exec (.vectorLatch c) s = .next (publishOne (s.modArray c fun a => { a with
      latches := (readVector s (arrayOf s c) x.cmd x.nextLatch).1
      latchEa := (readVector s (arrayOf s c) x.cmd x.nextLatch).2
      stream := some { x with
        nextLatch := x.nextLatch + 1
        vecs := x.vecs ++ [(x.nextLatch, (readVector s (arrayOf s c) x.cmd x.nextLatch).1, (readVector s (arrayOf s c) x.cmd x.nextLatch).2)] } })
      x.cmd x.cmd.ih false) := by
  rw [exec_vectorLatch, execVectorLatch, if_pos hr]
  unfold latchNext
  dsimp only
  rw [hx]
  dsimp only
  rw [if_pos (by rw [hs, decide_eq_true hv, decide_eq_true ht]; rfl)]

/-- The vector at work of a stream. -/
def atWork (x : Stream) : Nat × List (BitVec 8) × List (BitVec 8) := (x.vecs.find? fun v => v.1 == x.vector).getD (0, [], [])

/-- The array with the stream's next checkpoint copied. -/
def copied (a : ArraySt) (x : Stream) : ArraySt :=
  { a with set := some (makeSet a x.cmd (atWork x).2.1 (atWork x).2.2 (some x.nextJ)), stream := some { x with nextJ := x.nextJ + 1 } }

theorem execCheckpointCopy_due {x : Stream} (hr : arrayRuns s c = true) (hx : (arrayOf s c).stream = some x)
    (hd : copyDue (arrayOf s c) = true) (ho : dueCycle x < (arrayOf s c).acyc) (hin : x.cmd.chin = false) (hout : x.cmd.chout = false)
    (he : x.nextJ = x.kt → x.cmd.emit = false) :
    exec (.checkpointCopy c) s = .next (if x.nextJ = x.kt then
      (s.modArray c fun a => copied a x).modArray c fun a => { a with state := .held, vdone := 1 } else s.modArray c fun a => copied a x) := by
  have hover : copyOver (arrayOf s c) = true := by
    rw [copyOver, hx]
    exact decide_eq_true ho
  have hholds : chainHolds (arrayOf s c) = false := by
    rw [chainHolds, hx]
    dsimp only
    rw [hin, Bool.and_false, Bool.false_and]
  have hcopy : copyCheckpoint s c = if x.nextJ = x.kt then targetReached (s.modArray c fun _ => copied (arrayOf s c) x) c
      { x with nextJ := x.nextJ + 1 } (makeSet (arrayOf s c) x.cmd (atWork x).2.1 (atWork x).2.2 (some x.nextJ))
      else s.modArray c fun _ => copied (arrayOf s c) x := by
    unfold copyCheckpoint
    dsimp only
    rw [hx]
    dsimp only
    rw [if_pos (by rw [hd, hholds]; rfl), if_neg (by rw [hin]; exact Bool.false_ne_true)]
    dsimp only
    rw [if_neg (c := x.cmd.chout = true) (by rw [hout]; exact Bool.false_ne_true)]
    rfl
  have hsame : (s.modArray c fun _ => copied (arrayOf s c) x) = s.modArray c fun a => copied a x := rfl
  rw [exec_checkpointCopy, execCheckpointCopy, if_pos (by rw [hr, hover]; rfl), hcopy, hsame]
  by_cases hk : x.nextJ = x.kt
  · rw [if_pos hk, if_pos hk]
    unfold targetReached
    rw [if_neg (by rw [he hk]; exact Bool.false_ne_true)]
    exact congrArg Host.Outcome.next (if_neg (by rw [hout]; exact Bool.false_ne_true))
  · rw [if_neg hk, if_neg hk]

/-! ### Faults and chains (R251, R259) -/

/-- The running stream faults: its fault is due, and its array keeps what is not said of it. -/
theorem faultStream_spec {x : Stream} (hx : (arrayOf s c).stream = some x) (code : BitVec 8) (addr : Option Va) :
    Undisturbed s (faultStream s c code addr) ∧ arrayOf (faultStream s c code addr) c =
        { arrayOf s c with state := .faulted, cause := 0, conv := (arrayOf s c).conv.filter fun k => k.vector.isNone } ∧
      ∀ a, addr = some a → ∀ u, s.unit? x.cmd.uid = some u → ∃ v, (faultStream s c code addr).unit? x.cmd.uid = some v ∧
        v.run.due = u.run.due ++ [afterFault code a (.array x.cmd.tag) x.cmd.slot x.cmd.bundle] := by
  obtain ⟨hquiet, harray⟩ := endStream_spec hx .faulted 0
  unfold faultStream
  rw [hx]
  refine ⟨(Undisturbed.of_quiet hquiet).trans (noteFault_undisturbed ..), harray, fun a ha => ?_⟩
  rw [ha]
  exact noteFault_due hquiet _ _

theorem execStreamPoison_run (hs : (arrayOf s c).state = .run) (row col : BitVec 16) (b : Bool) :
    exec (.streamPoison c row col b) s = .next (if b then
      (faultStream s c cPoison (some ((0#48) ++ col ++ row))).modArray c fun a => { a with set := a.set.map fun x => { x with kc := none } }
      else faultStream s c cPoison (some ((0#48) ++ col ++ row))) := by
  rw [exec_streamPoison, execStreamPoison, if_pos (by rw [hs]; rfl)]

theorem poisonAddr (row col : BitVec 16) : ((0#48) ++ col ++ row : Va) = BitVec.ofNat 80 (row.toNat + 2 ^ 16 * col.toNat) := by
  apply BitVec.eq_of_toNat_eq
  have hrow := row.isLt
  have hcol := col.isLt
  rw [BitVec.toNat_append, BitVec.toNat_append, BitVec.toNat_ofNat, BitVec.toNat_ofNat, Nat.shiftLeft_eq, Nat.zero_mod,
    Nat.zero_shiftLeft, Nat.zero_or, Nat.mul_comm col.toNat, ← Nat.two_pow_add_eq_or_of_lt hrow]
  omega

/-- The array behind the arrival of upstream counts. -/
def received (a : ArraySt) (mine : Bool) (m : ChainMsg) (rest : List ChainMsg) : ArraySt :=
  { a with chainNet := rest, chainIn := if mine || decide (a.chainUp < m.sender) then a.chainIn ++ [m] else a.chainIn }

theorem execChainPartialSums_arrives {x : Stream} {m : ChainMsg} {rest : List ChainMsg} (hm : (arrayOf s c).chainNet = m :: rest)
    (hf : m.fin = false) (hx : (arrayOf s c).stream = some x) (hs : (arrayOf s c).state = .run) :
    exec (.chainPartialSums c) s = .next (if x.chained (arrayOf s c) m && chainDiffers x m then
      faultStream (s.modArray c fun a => received a (x.chained (arrayOf s c) m) m rest) c cArray none
      else s.modArray c fun a => received a (x.chained (arrayOf s c) m) m rest) := by
  rw [exec_chainPartialSums, execChainPartialSums, hm]
  dsimp only
  rw [if_neg (by rw [hf]; exact Bool.false_ne_true), hx]
  dsimp only
  rw [hs]
  rfl

theorem execChainEnd_arrives {x : Stream} {m : ChainMsg} {rest : List ChainMsg} (hm : (arrayOf s c).chainNet = m :: rest)
    (hf : m.fin = true) (hx : (arrayOf s c).stream = some x) (hs : (arrayOf s c).state = .run) (hc : x.chained (arrayOf s c) m = true) :
    exec (.chainEnd c) s = .next (endStream ((s.modArray c fun a => { a with chainNet := rest }).modArray c fun a =>
      { a with chainUp := max a.chainUp m.sender }) c .stopped 3) := by
  rw [exec_chainEnd, execChainEnd, hm]
  dsimp only
  rw [if_pos hf, hx]
  dsimp only
  rw [if_pos (by rw [hs, hc]; rfl)]

/-! ### Publications (R250, R254) -/

theorem putHandle_clusters (s : State) (i : Uid) (x : Handle) : (putHandle s i x).clusters = s.clusters := by
  unfold putHandle
  split
  · rfl
  · split
    · rfl
    · dsimp only
      split <;> rfl

theorem publishClaim_clusters (s : State) (i : Uid) (h : BitVec 8) (tail : Bool) (id : Nat) :
    (publishClaim s i h tail id).clusters = s.clusters := by
  unfold publishClaim
  split
  · exact putHandle_clusters ..
  · rfl

theorem publishOne_clusters (s : State) (q : ArrayCmd) (h : BitVec 8) (tail : Bool) : (publishOne s q h tail).clusters = s.clusters := by
  unfold publishOne
  split
  · exact putHandle_clusters ..
  · rfl

theorem levelMem_modArray (s : State) (c d : ClusterNo) (f : ArraySt → ArraySt) (l : BitVec 2) :
    levelMem ((s.modArray c f).cluster d) l = levelMem (s.cluster d) l := by
  unfold State.modArray
  by_cases hd : c = d
  · subst hd
    rw [State.cluster_modCluster_self]
    rfl
  · rw [State.cluster_modCluster_ne hd]

theorem levelMem_levelWrite (s : State) (c : ClusterNo) (l : BitVec 2) (a : Nat) (bs : List Byte) :
    levelMem ((levelWrite s c l a bs).cluster c) l = Memory.writeBytes (levelMem (s.cluster c) l) a bs := by
  have hlevels : ∀ l : BitVec 2, l = 0 ∨ l = 1 ∨ l = 2 ∨ l = 3 := by decide
  unfold levelWrite
  rw [State.cluster_modCluster_self]
  obtain rfl | rfl | rfl | rfl := hlevels l <;> rfl

theorem getD_padTo {n i : Nat} (bs : List Byte) (h : i < n) : i < (padTo n bs).length ∧ (padTo n bs).getD i 0 = bs.getD i 0 := by
  unfold padTo
  refine ⟨by rw [List.length_append, List.length_replicate]; omega, ?_⟩
  rw [List.getD_eq_getElem?_getD, List.getD_eq_getElem?_getD]
  by_cases hi : i < bs.length
  · rw [List.getElem?_append_left hi]
  · rw [List.getElem?_append_right (by omega), List.getElem?_replicate, if_pos (by omega), List.getElem?_eq_none (by omega)]
    rfl

/-- A slab written stands at its place of the ring, padded. -/
theorem levelByte_writeSlab {q : ArrayCmd} {u : UnitSt} {h : Handle} (hu : s.unit? q.uid = some u) (hh : u.handle? q.oh = some h)
    (pos : BitVec 32) (bs : List Byte) (hw : Memory.wf (levelMem (s.cluster u.ident.cluster) h.level) = true) {i : Nat} (hi : i < h.slabSize) :
    levelByte (writeSlab s q pos bs) u.ident.cluster h.level (h.slabAt pos + i) = bs.getD i 0 := by
  obtain ⟨hlen, hget⟩ := getD_padTo bs hi
  have hwrite : writeSlab s q pos bs = levelWrite s u.ident.cluster h.level (h.slabAt pos) (padTo h.slabSize bs) := by
    unfold writeSlab
    rw [hu]
    show (match (u.handle? q.oh).map fun x => (u, x) with | some (u, x) => _ | none => s) = _
    rw [hh]
    rfl
  rw [hwrite, levelByte, levelMem_levelWrite, Memory.read_writeBytes _ hw, if_pos (by omega), Nat.add_sub_cancel_left]
  exact hget

theorem writeSlab_claimsOnly (s : State) (q : ArrayCmd) (pos : BitVec 32) (bs : List Byte) : ClaimsOnly s (writeSlab s q pos bs) := by
  unfold writeSlab
  split
  · exact levelWrite_claimsOnly ..
  · exact .refl s

/-- The converter without a conversion. -/
def takenConv (s : State) (c : ClusterNo) (emission : Bool) : State :=
  s.modArray c fun a => { a with conv := removeFirst (fun k => decide (k.finish ≤ (arrayOf s c).acyc) && k.vector.isSome == emission) a.conv }

theorem takeConv_found {k : Convert} {e : Bool}
    (hk : (arrayOf s c).conv.find? (fun k => decide (k.finish ≤ (arrayOf s c).acyc) && k.vector.isSome == e) = some k) :
    takeConv s c e = some (k, takenConv s c e) := by
  unfold takeConv
  dsimp only
  rw [hk]
  rfl

theorem execAoutPublish_done {k : Convert} (hr : arrayRuns s c = true) (hf : k.fault = false)
    (hk : (arrayOf s c).conv.find? (fun x => decide (x.finish ≤ (arrayOf s c).acyc) && x.vector.isNone) = some k) :
    exec (.aoutPublish c) s = .next (orFlags (publishClaim (writeSlab (takenConv s c false) k.cmd k.cmd.outPos k.slab) k.cmd.uid k.cmd.oh true
      k.cmd.claim) k.cmd.uid k.flags) := by
  have hfound : takeConv s c false = some (k, takenConv s c false) := by
    refine takeConv_found (Eq.trans (congrArg (fun p => List.find? p _) (funext fun x => ?_)) hk)
    cases x.vector <;> rfl
  rw [exec_aoutPublish, execAoutPublish, if_pos hr, aoutEnd, hfound]
  dsimp only
  rw [if_neg (by rw [hf]; exact Bool.false_ne_true)]

theorem execEmitPublish_done {k : Convert} {n : Nat} (hr : arrayRuns s c = true) (hn : k.vector = some n)
    (hk : (arrayOf s c).conv.find? (fun x => decide (x.finish ≤ (arrayOf s c).acyc) && x.vector.isSome) = some k) :
    exec (.emitPublish c) s = .next (orFlags ((publishOne (writeSlab (takenConv s c true) k.cmd (k.cmd.outPos + BitVec.ofNat 32 n) k.slab)
      k.cmd k.cmd.oh true).modArray c fun a => { a with vdone := BitVec.ofNat 16 (n + 1), state := if n + 1 = k.cmd.v then .done else a.state })
      k.cmd.uid k.flags) := by
  have hfound : takeConv s c true = some (k, takenConv s c true) := by
    refine takeConv_found (Eq.trans (congrArg (fun p => List.find? p _) (funext fun x => ?_)) hk)
    cases x.vector <;> rfl
  rw [exec_emitPublish, execEmitPublish, if_pos hr, emitEnd, hfound]
  dsimp only
  rw [hn]
  rfl

/-- A slab published through quiet work: it stands in its ring, and its flags are taken. -/
theorem orFlags_lands {k : Convert} {u : UnitSt} {h : Handle} {t : State} (hu : s.unit? k.cmd.uid = some u)
    (hh : u.handle? k.cmd.oh = some h) (e : Bool) (pos : BitVec 32)
    (hq : Quiet (writeSlab (takenConv s c e) k.cmd pos k.slab) t)
    (hl : ∀ d l, levelMem (t.cluster d) l = levelMem ((writeSlab (takenConv s c e) k.cmd pos k.slab).cluster d) l) :
    (∃ v, (orFlags t k.cmd.uid k.flags).unit? k.cmd.uid = some v ∧ v.csr.flags = u.csr.flags ||| k.flags) ∧
      (Memory.wf (levelMem (s.cluster u.ident.cluster) h.level) = true → ∀ i < h.slabSize,
        levelByte (orFlags t k.cmd.uid k.flags) u.ident.cluster h.level (h.slabAt pos + i) = k.slab.getD i 0) := by
  have hut : (takenConv s c e).unit? k.cmd.uid = some u := hu
  obtain ⟨w, hw, ew⟩ := ((writeSlab_claimsOnly (takenConv s c e) k.cmd pos k.slab).toQuiet.trans hq).unit _ u hut
  refine ⟨⟨_, State.unit?_modUnit_self hw, by rw [ew]; rfl⟩, fun hwf i hi => ?_⟩
  have hbyte := levelByte_writeSlab hut hh pos k.slab (by rw [takenConv, levelMem_modArray]; exact hwf) hi
  exact (congrArg (fun m => Memory.read m (h.slabAt pos + i)) (hl u.ident.cluster h.level)).trans hbyte

/-! ### The clauses -/

theorem streamPoison_goes {x : Stream} (hx : (arrayOf s c).stream = some x) (hs : (arrayOf s c).state = .run) (row col : BitVec 16) (b : Bool) :
    ∃ t, exec (.streamPoison c row col b) s = .next t ∧ Undisturbed s t ∧ (arrayOf t c).state = .faulted ∧
      (∀ u, s.unit? x.cmd.uid = some u → ∃ v, t.unit? x.cmd.uid = some v ∧ v.run.due = u.run.due ++
        [afterFault cPoison (BitVec.ofNat 80 (row.toNat + 2 ^ 16 * col.toNat)) (.array x.cmd.tag) x.cmd.slot x.cmd.bundle]) ∧
      (b = true → ∀ y, (arrayOf t c).set = some y → y.kc = none) ∧ (b = false → (arrayOf t c).set = (arrayOf s c).set) := by
  obtain ⟨hquiet, harray, hdue⟩ := faultStream_spec hx cPoison (some ((0#48) ++ col ++ row))
  have hexec := execStreamPoison_run hs row col b
  have hdue' := hdue _ rfl
  rw [← poisonAddr]
  cases b with
  | false =>
    rw [if_neg Bool.false_ne_true] at hexec
    refine ⟨_, hexec, hquiet, ?_, hdue', nofun, fun _ => ?_⟩
    · rw [harray]
    · rw [harray]
  | true =>
    rw [if_pos rfl] at hexec
    refine ⟨_, hexec, hquiet.trans (.of_quiet (modArray_quiet ..)), ?_, hdue', fun _ y hy => ?_, nofun⟩
    · rw [arrayOf_modArray_self, harray]
    · rw [arrayOf_modArray_self] at hy
      obtain ⟨z, -, rfl⟩ := Option.map_eq_some_iff.1 hy
      rfl

theorem chainPartialSums_goes {x : Stream} {m : ChainMsg} {rest : List ChainMsg} (hm : (arrayOf s c).chainNet = m :: rest)
    (hf : m.fin = false) (hx : (arrayOf s c).stream = some x) (hs : (arrayOf s c).state = .run) :
    ∃ t, exec (.chainPartialSums c) s = .next t ∧ Undisturbed s t ∧ (arrayOf t c).chainNet = rest ∧
      (arrayOf t c).chainIn = (if x.chained (arrayOf s c) m || decide ((arrayOf s c).chainUp < m.sender) then (arrayOf s c).chainIn ++ [m]
        else (arrayOf s c).chainIn) ∧
      (arrayOf t c).state = (if x.chained (arrayOf s c) m && chainDiffers x m then .faulted else .run) := by
  have hexec := execChainPartialSums_arrives hm hf hx hs
  have hrec : arrayOf (s.modArray c fun a => received a (x.chained (arrayOf s c) m) m rest) c =
      received (arrayOf s c) (x.chained (arrayOf s c) m) m rest := arrayOf_modArray_self ..
  have hmod : Undisturbed s (s.modArray c fun a => received a (x.chained (arrayOf s c) m) m rest) := .of_quiet (modArray_quiet ..)
  by_cases hd : (x.chained (arrayOf s c) m && chainDiffers x m) = true
  · rw [if_pos hd] at hexec ⊢
    obtain ⟨hquiet, harray, -⟩ := faultStream_spec (s := s.modArray c fun a => received a (x.chained (arrayOf s c) m) m rest) (c := c) (x := x)
      (by rw [hrec]; exact hx) cArray none
    refine ⟨_, hexec, hmod.trans hquiet, ?_, ?_, ?_⟩ <;> rw [harray, hrec] <;> rfl
  · rw [if_neg hd] at hexec ⊢
    refine ⟨_, hexec, hmod, ?_, ?_, ?_⟩ <;> rw [hrec]
    · rfl
    · rfl
    · exact hs

theorem chainEnd_goes {x : Stream} {m : ChainMsg} {rest : List ChainMsg} (hm : (arrayOf s c).chainNet = m :: rest)
    (hf : m.fin = true) (hx : (arrayOf s c).stream = some x) (hs : (arrayOf s c).state = .run) (hc : x.chained (arrayOf s c) m = true) :
    ∃ t, exec (.chainEnd c) s = .next t ∧ Undisturbed s t ∧ (arrayOf t c).chainNet = rest ∧ (arrayOf t c).state = .stopped ∧
      (arrayOf t c).cause = 3 ∧ (arrayOf t c).set = (arrayOf s c).set := by
  have hrec : arrayOf ((s.modArray c fun a => { a with chainNet := rest }).modArray c fun a => { a with chainUp := max a.chainUp m.sender }) c =
      { arrayOf s c with chainNet := rest, chainUp := max (arrayOf s c).chainUp m.sender } := by
    rw [arrayOf_modArray_self, arrayOf_modArray_self]
  obtain ⟨hquiet, harray⟩ := endStream_spec (s := (s.modArray c fun a => { a with chainNet := rest }).modArray c fun a =>
    { a with chainUp := max a.chainUp m.sender }) (c := c) (x := x) (by rw [hrec]; exact hx) .stopped 3
  refine ⟨_, execChainEnd_arrives hm hf hx hs hc, .of_quiet (((modArray_quiet ..).trans (modArray_quiet ..)).trans hquiet), ?_, ?_, ?_, ?_⟩ <;>
    rw [harray, hrec]

theorem aoutPublish_goes {k : Convert} {u : UnitSt} {h : Handle} (hr : arrayRuns s c = true) (hf : k.fault = false)
    (hk : (arrayOf s c).conv.find? (fun x => decide (x.finish ≤ (arrayOf s c).acyc) && x.vector.isNone) = some k)
    (hu : s.unit? k.cmd.uid = some u) (hh : u.handle? k.cmd.oh = some h) :
    ∃ t, exec (.aoutPublish c) s = .next t ∧ Undisturbed s t ∧ ((∃ v, t.unit? k.cmd.uid = some v ∧ v.csr.flags = u.csr.flags ||| k.flags) ∧
      (Memory.wf (levelMem (s.cluster u.ident.cluster) h.level) = true → ∀ i < h.slabSize,
        levelByte t u.ident.cluster h.level (h.slabAt k.cmd.outPos + i) = k.slab.getD i 0)) ∧ (arrayOf t c).state = (arrayOf s c).state := by
  have hwrite := writeSlab_claimsOnly (takenConv s c false) k.cmd k.cmd.outPos k.slab
  have hpub := publishClaim_claimsOnly (writeSlab (takenConv s c false) k.cmd k.cmd.outPos k.slab) k.cmd.uid k.cmd.oh true k.cmd.claim
  have hquiet : Quiet s (publishClaim (writeSlab (takenConv s c false) k.cmd k.cmd.outPos k.slab) k.cmd.uid k.cmd.oh true k.cmd.claim) :=
    (modArray_quiet s c _).trans (hwrite.toQuiet.trans hpub.toQuiet)
  refine ⟨_, execAoutPublish_done hr hf hk, (Undisturbed.of_quiet hquiet).trans (orFlags_undisturbed ..),
    orFlags_lands hu hh false k.cmd.outPos hpub.toQuiet fun d l => ?_, ?_⟩
  · exact congrArg (fun v : Vector Cluster 128 => levelMem (v.get d) l) (publishClaim_clusters ..)
  · rw [orFlags_array, hpub.array, hwrite.array, takenConv, arrayOf_modArray_self]

theorem emitPublish_goes {k : Convert} {u : UnitSt} {h : Handle} {n : Nat} (hr : arrayRuns s c = true) (hn : k.vector = some n)
    (hk : (arrayOf s c).conv.find? (fun x => decide (x.finish ≤ (arrayOf s c).acyc) && x.vector.isSome) = some k)
    (hu : s.unit? k.cmd.uid = some u) (hh : u.handle? k.cmd.oh = some h) :
    ∃ t, exec (.emitPublish c) s = .next t ∧ Undisturbed s t ∧ ((∃ v, t.unit? k.cmd.uid = some v ∧ v.csr.flags = u.csr.flags ||| k.flags) ∧
      (Memory.wf (levelMem (s.cluster u.ident.cluster) h.level) = true → ∀ i < h.slabSize,
        levelByte t u.ident.cluster h.level (h.slabAt (k.cmd.outPos + BitVec.ofNat 32 n) + i) = k.slab.getD i 0)) ∧
      (arrayOf t c).vdone = BitVec.ofNat 16 (n + 1) ∧ (arrayOf t c).state = (if n + 1 = k.cmd.v then .done else (arrayOf s c).state) := by
  have hwrite := writeSlab_claimsOnly (takenConv s c true) k.cmd (k.cmd.outPos + BitVec.ofNat 32 n) k.slab
  have hpub := publishOne_claimsOnly (writeSlab (takenConv s c true) k.cmd (k.cmd.outPos + BitVec.ofNat 32 n) k.slab) k.cmd k.cmd.oh true
  have hmod := hpub.toQuiet.trans (modArray_quiet _ c fun a =>
    { a with vdone := BitVec.ofNat 16 (n + 1), state := if n + 1 = k.cmd.v then .done else a.state })
  have hquiet := (modArray_quiet s c fun a =>
    { a with conv := removeFirst (fun k => decide (k.finish ≤ (arrayOf s c).acyc) && k.vector.isSome == true) a.conv }).trans
    (hwrite.toQuiet.trans hmod)
  have harray : (arrayOf (publishOne (writeSlab (takenConv s c true) k.cmd (k.cmd.outPos + BitVec.ofNat 32 n) k.slab) k.cmd k.cmd.oh true) c).state =
      (arrayOf s c).state := by
    rw [hpub.array, hwrite.array, takenConv, arrayOf_modArray_self]
  refine ⟨_, execEmitPublish_done hr hn hk, (Undisturbed.of_quiet hquiet).trans (orFlags_undisturbed ..),
    orFlags_lands hu hh true (k.cmd.outPos + BitVec.ofNat 32 n) hmod fun d l => ?_, ?_, ?_⟩
  · rw [levelMem_modArray]
    exact congrArg (fun v : Vector Cluster 128 => levelMem (v.get d) l) (publishOne_clusters ..)
  · rw [orFlags_array, arrayOf_modArray_self]
  · rw [orFlags_array, arrayOf_modArray_self]
    dsimp only
    rw [harray]

end

/-- Settles O52: each event through what it does to its array, behind which units and memory stand. -/
theorem arrayEvents : Obligations.ArrayEvents := by
  intro s c hr
  refine ⟨?start, ?load, ?ends, ?stream, ?publish⟩
  case start =>
    intro q rest hq hc hs
    obtain ⟨hquiet, hqueue⟩ := startCmd_queue s c q rest
    have hun : arrayOf (unqueued s c rest) c = { arrayOf s c with queue := rest } := arrayOf_modArray_self _
    refine goes_of (t := startCmd (unqueued s c rest) c q) ?_ (.of_quiet hquiet) ⟨hqueue, ?wload, ?astream, ?extend, ?out, ?clear⟩
    · rw [exec_arrayCommandStart, execArrayCommandStart, if_pos hr, startHead_claimed hq hc hs]
    case wload =>
      intro ho
      obtain ⟨-, -, hcells, hexec⟩ := awldStart_spec (unqueued s c rest) c q
      have hcmd : startCmd (unqueued s c rest) c q = awldStart (unqueued s c rest) c q := by
        rw [startCmd, ho]
        rfl
      rw [hcmd]
      rw [hun] at hcells hexec
      refine ⟨_, hexec, rfl, rfl, rfl, hcells, ?_⟩
      exact List.map_congr_left fun i _ => slabBytes_modArray ..
    case astream =>
      intro ho
      obtain ⟨-, -, hst, huid, hkt, hvd, hchk, hcells, x, hx, hcmd, hstart, hvec, hj⟩ := streamStart_spec (unqueued s c rest) c q
      obtain ⟨-, l, ha⟩ := upstreamShort_spec (streamStart (unqueued s c rest) c q) c
      have hrun : startCmd (unqueued s c rest) c q = upstreamShort (streamStart (unqueued s c rest) c q) c := by
        rw [startCmd, ho]
        rfl
      rw [hun] at hcells hstart
      rw [hrun, ha]
      exact ⟨hst, huid, hkt, hvd, hchk, hcells, x, hx, hcmd, hstart, hvec, hj⟩
    case extend =>
      intro ho x hx hstate
      obtain ⟨-, l, ha⟩ := upstreamShort_spec ((unqueued s c rest).modArray c fun a => extStart a q) c
      have hrun : startCmd (unqueued s c rest) c q = upstreamShort ((unqueued s c rest).modArray c fun a => extStart a q) c := by
        rw [startCmd, ho]
        rfl
      rw [hrun, ha, arrayOf_modArray_self, hun]
      exact extStart_stream (a := { arrayOf s c with queue := rest }) hx hstate q
    case out =>
      intro ho
      have hrun : startCmd (unqueued s c rest) c q = (unqueued s c rest).modArray c fun a => aoutStart a q := by
        rw [startCmd, ho]
        rfl
      rw [hrun, arrayOf_modArray_self, hun]
      exact ⟨_, rfl, rfl, rfl, rfl⟩
    case clear =>
      intro ho
      have hrun : startCmd (unqueued s c rest) c q = (unqueued s c rest).modArray c fun a => aclrStart a q := by
        rw [startCmd, ho]
        rfl
      rw [hrun, arrayOf_modArray_self, hun]
      exact (aclrStart_spec { arrayOf s c with queue := rest } q).2
  case load =>
    intro x hx ho hf hd
    refine ⟨fun a ha => ?_, fun g hg => ?_⟩
    · exact goes_of (execAwldComplete_column hr hx ho hf hd ha) (.of_quiet (modArray_quiet ..)) (arrayOf_modArray_self ..)
    · obtain ⟨hquiet, hexec, hcells, hdue⟩ := failLoad_spec s c x cNmIndex g
      exact goes_of (execAwldComplete_fails hr hx ho hd hg) hquiet ⟨hexec, hcells, hdue⟩
  case ends =>
    intro x hx hf
    refine ⟨fun ho hg => ?_, fun ho => ?_⟩
    · have hdrop := dropClaims_claimsOnly (s.modArray c fun a => { a with exec := none }) x.cmd 0
      have harray := (hdrop.array c).trans (arrayOf_modArray_self fun a => { a with exec := none })
      exact goes_of (execAwldComplete_done hr hx ho hf hg) (.of_quiet ((modArray_quiet ..).trans hdrop.toQuiet))
        ⟨congrArg ArraySt.exec harray, (congrArg ArraySt.cells harray).trans rfl⟩
    · exact goes_of (execAclrComplete_done hr hx ho hf) (.of_quiet (modArray_quiet ..)) ⟨arrayOf_modArray_self .., rfl⟩
  case stream =>
    intro x hx hs
    refine ⟨fun hv ht => ?_, fun hd ho hin hout he => ?_, fun row col b => ?_, fun m rest hm => ⟨fun hf => ?_, fun hf hc => ?_⟩⟩
    · have hpub := publishOne_claimsOnly (s.modArray c fun a => { a with
        latches := (readVector s (arrayOf s c) x.cmd x.nextLatch).1
        latchEa := (readVector s (arrayOf s c) x.cmd x.nextLatch).2
        stream := some { x with
          nextLatch := x.nextLatch + 1
          vecs := x.vecs ++ [(x.nextLatch, (readVector s (arrayOf s c) x.cmd x.nextLatch).1,
            (readVector s (arrayOf s c) x.cmd x.nextLatch).2)] } }) x.cmd x.cmd.ih false
      have harray := (hpub.array c).trans (arrayOf_modArray_self _)
      exact goes_of (execVectorLatch_due hr hx hs hv ht) (.of_quiet ((modArray_quiet ..).trans hpub.toQuiet))
        ⟨congrArg ArraySt.latches harray, congrArg ArraySt.latchEa harray, _, congrArg ArraySt.stream harray, rfl, rfl⟩
    · have hexec := execCheckpointCopy_due hr hx hd ho hin hout he
      have hcopied : arrayOf (s.modArray c fun a => copied a x) c = copied (arrayOf s c) x := arrayOf_modArray_self _
      by_cases hk : x.nextJ = x.kt
      · rw [if_pos hk] at hexec
        refine goes_of hexec (.of_quiet ((modArray_quiet ..).trans (modArray_quiet ..))) ?_
        dsimp only
        rw [arrayOf_modArray_self, hcopied]
        exact ⟨rfl, ⟨_, rfl, rfl, rfl⟩, fun _ => ⟨rfl, rfl⟩, fun h => absurd hk h⟩
      · rw [if_neg hk] at hexec
        refine goes_of hexec (.of_quiet (modArray_quiet ..)) ?_
        dsimp only
        rw [hcopied]
        exact ⟨rfl, ⟨_, rfl, rfl, rfl⟩, fun h => absurd h hk, fun _ => hs⟩
    · obtain ⟨t, ht, hq, hp⟩ := streamPoison_goes hx hs row col b
      exact goes_of ht hq hp
    · obtain ⟨t, ht, hq, hp⟩ := chainPartialSums_goes hm hf hx hs
      exact goes_of ht hq hp
    · obtain ⟨t, ht, hq, hp⟩ := chainEnd_goes hm hf hx hs hc
      exact goes_of ht hq hp
  case publish =>
    intro k u h _ hu hh hf
    refine ⟨fun hk => ?_, fun n hn hk => ?_⟩
    · obtain ⟨t, ht, hq, hp⟩ := aoutPublish_goes hr hf hk hu hh
      exact goes_of ht hq hp
    · obtain ⟨t, ht, hq, hp⟩ := emitPublish_goes hr hn hk hu hh
      exact goes_of ht hq hp

end Sys2Proof.ArrayWork
end

section
/-! PROOFS.
The reply of an acquiring request whose unit has a discarded load behind it (R121, R325): the acquire performs the load, whose miss
collapses a line held under another key slot, and the collapse writes memory. -/

-- One proof at a time: the check of the whole text has a limit on memory, which many threads would reach.
set_option Elab.async false

namespace Sys2Proof.AcquiredDrop

open Sys2Proof.Machine Sys2Proof.Safety Sys2Proof.CrowdedSlice Sys2Proof.DeviceStep Sys2Proof.CacheStep Sys2Proof.Prompter

/-- An LDRO of line 8 under key slot 0 that stands behind an acquire of its own bundle. -/
def heldLoad : Reread :=
  { pa := 1024, n := 8, key := 0, rfloor := 0, rceil := 0, signed := false, vector := false, ro := true }

/-- Its entry, which names s0 and so has no place in the record. -/
def droppedEntry : PEntry :=
  { dest := .scalar 0, value := 0, awaited := true, flags := 0, bundle := 0, slot := 0, m := 1, baraw := false,
    load := some { req := 1, va := 0, arrive := none, poison := false, sync := false, reread := some heldLoad } }

/-- The unit that waits for the acquire, with no pending write. -/
def waiting : UnitSt := { loner with drops := [droppedEntry] }

/-- Line 8 in M in a slice of die 1, under key slot 1. -/
def farLine : SliceLine := { askedLine with line := 8, st := .m, data := 0xFF, key := 1 }

/-- The directory's entry of it. -/
def farEntry : DirEntry :=
  { line := 8, st := .m, owner := some 1, sharers := 0, queue := [], cur := none, invs := 0, rdis := 0, pushes := 0, fwd := false,
    collapsed := 0, redirects := 0, helpers := 0, key := 1, late := [], trimDue := false }

/-- An AADD of the unit with acquire order. -/
def acquireReq : SyncReq :=
  { id := 2, uid := 0, who := 0, die := 0, pa := 0x4000, va := 0x4000, key := 0, kind := .op 0, width := 0, join := false, x := 0,
    cmp := 0, rop := 0, n := 1, done := 0, posted := true, size := 8, signed := false, bundle := 0, slot := 0, acquire := true,
    scope := 0, copyEng := none, born := 0, waits := false }

/-- Its answer. -/
def answer : SyncReply := { req := acquireReq, value := 0, code := 0, va := 0x4000, retry := false, near := false }

/-- The machine that the answer reaches. -/
def acquiring : State :=
  { State.reset with
    units := [waiting]
    clusters := State.reset.clusters.set 0 { Cluster.reset with running := some 0, order := [0] }
    dies := (State.reset.dies.set 0 { Die.reset with sync := { Die.reset.sync with replies := [answer] } }).set 1
      { Die.reset with lines := [farLine] }
    hub := { Hub.reset with dir := { Hub.reset.dir with entries := [farEntry] } } }

/-- The state in which the load is performed: the answer is taken and the acquire done. -/
def acquired : State := acquireAt (acquiring.modSync 0 fun y => { y with replies := [] }) 0 0 0

theorem heldLine_acquired : heldLine acquired 8 = some (0xFF, false, 1) := by rfl

theorem rereadLoads_acquired : rereadLoads acquired 0 = rereadEntry 0 0 acquired droppedEntry := by rfl

theorem readMiss_acquired_mem : (readMiss acquired 0 8 0 0 0).mem = Memory.writeBytes [] (128 * 8) (bytesOfLine 0xFF) := by
  have hunder : underKey acquired 8 0 = collapseLine acquired 8 := by rfl
  obtain ⟨q, hq⟩ := collapseFor_of_held heldLine_acquired none
  rw [readMiss_mem_eq, hunder, collapseLine, hq, writeMemLine]
  dsimp only
  rw [uncached_mem]
  rfl

/-- A read through an empty read-only cache of what no slice serves changes memory by its miss alone. -/
theorem roRead_mem {s : State} {c : ClusterNo} {pa : Nat} {key : BitVec 8} (hro : (s.cluster c).roCache = [])
    (hserve : sliceServes s (dieOf c) pa 8 key = false) (floor ceil : BitVec 3) :
    (roRead s c pa key floor ceil).2.2.2.mem = (readMiss s (dieOf c) (pa / 128) key floor ceil).mem := by
  simp [roRead, hro, hserve]

theorem rereadEntry_mem {s : State} {e : PEntry} {l : LoadInfo} {r : Reread} (he : e.load = some l) (hl : l.reread = some r)
    (uid : Uid) (c : ClusterNo) : (rereadEntry uid c s e).mem = (readAgain s c r).2.2.2.mem := by
  simp [rereadEntry, he, hl]

theorem rereadEntry_acquired_mem : (rereadEntry 0 0 acquired droppedEntry).mem = (readMiss acquired 0 8 0 0 0).mem := by
  have hro : readAgain acquired 0 heldLoad =
      ((roRead acquired 0 1024 0 0 0).1.setWidth 512, (roRead acquired 0 1024 0 0 0).2) := if_pos rfl
  rw [rereadEntry_mem (r := heldLoad) rfl rfl, hro]
  exact roRead_mem (by rfl) (by rfl) 0 0

/-- Refutes O54: the acquire of the reply lets the discarded load miss, and memory changes. -/
theorem not_syncEngineEvents : ¬ Obligations.SyncEngineEvents := by
  intro h
  obtain ⟨hreply, -⟩ := (h acquiring 0).2 answer [] waiting rfl rfl
  obtain ⟨-, hanswer⟩ := hreply rfl rfl nofun rfl (by rfl)
  obtain ⟨t, v, hexec, hmem, -⟩ := hanswer rfl nofun fun _ e he => absurd he List.not_mem_nil
  have ht : t = rereadEntry 0 0 acquired droppedEntry := by
    rw [← rereadLoads_acquired]
    cases hexec
    rfl
  have hread : Memory.read (Memory.writeBytes [] (128 * 8) (bytesOfLine 0xFF)) (128 * 8) = 0 := by
    rw [← readMiss_acquired_mem, ← rereadEntry_acquired_mem, ← ht, hmem]
    rfl
  have hbyte : Memory.read (Memory.writeBytes [] (128 * 8) (bytesOfLine 0xFF)) (128 * 8) = lineByte 0xFF 0 :=
    read_writeLine (k := 0) rfl (by decide)
  have hfull : lineByte 0xFF 0 = 0xFF := by simp [lineByte]
  exact absurd (hfull.symm.trans (hbyte.symm.trans hread)) (by decide)

end Sys2Proof.AcquiredDrop
end

section
/-! PROOFS.
Walks, buffer registration, shoot-downs and migration (R319 to R334): what each leaves in the walker, the TLBs and the page table. -/

-- One proof at a time: the check of the whole text has a limit on memory, which many threads would reach.
set_option Elab.async false

namespace Sys2Proof.WalkerSteps

open Sys2Proof.Machine Sys2Proof.Safety Sys2Proof.Prompter Sys2Proof.DeviceStep Sys2Proof.Walks Sys2Proof.TileAccess Sys2Proof.Freezes

/-! ### Entries found by a key -/

theorem find?_and_of_find? {α : Type} {p q : α → Bool} {l : List α} {x : α} (h : l.find? p = some x) (hq : q x = true) :
    (l.find? fun y => p y && q y) = some x := by
  obtain ⟨hp, as, bs, rfl, has⟩ := List.find?_eq_some_iff_append.mp h
  refine List.find?_eq_some_iff_append.mpr ⟨by rw [hp, hq]; rfl, as, bs, rfl, fun a ha => ?_⟩
  have hpa := has a ha
  simp only [Bool.not_eq_true'] at hpa ⊢
  rw [hpa]
  rfl

theorem any_of_find? {α : Type} {p : α → Bool} {l : List α} {x : α} (h : l.find? p = some x) : l.any p = true :=
  List.any_eq_true.mpr ⟨x, List.mem_of_find?_eq_some h, List.find?_some h⟩

/-! ### Bytes of a table entry -/

theorem deviceBytes_eq (s : State) (a n : Nat) (key : BitVec 8) :
    deviceBytes s a n key = (List.range n).map fun i => deviceByte s (a + i) key := by
  unfold deviceBytes
  split
  · next h =>
    refine List.map_congr_left fun i hi => ?_
    have hlt := List.mem_range.mp hi
    rw [deviceByte, show (a + i) / 128 = a / 128 by omega, show (a + i) % 128 = a % 128 + i by omega]
  · rfl

/-- Eight bytes at device scope as a doubleword. -/
theorem deviceNat_of_bytes {t : State} {a : Nat} {v : Word} (h : ∀ i < 8, deviceByte t (a + i) 0 = v.extractLsb' (8 * i) 8) :
    deviceNat t a 8 = v.toNat := by
  have hbytes : deviceBytes t a 8 0 = leBytes v.toNat 8 := by
    refine List.ext_getElem (by simp [deviceBytes_eq]) fun i hi _ => ?_
    have hlt : i < 8 := by simpa [deviceBytes_eq] using hi
    rw [← List.getD_eq_getElem _ 0, ← List.getD_eq_getElem _ 0, getD_leBytes _ hlt, ← extractLsb'_byte_ofNat v.toNat (w := 64) (by omega),
      BitVec.ofNat_toNat, BitVec.setWidth_eq, ← h i hlt]
    simp [deviceBytes_eq, hlt]
  rw [deviceNat, hbytes, leNat_leBytes]
  exact Nat.mod_eq_of_lt v.isLt

theorem byte_of_deviceNat (s : State) (a : Nat) {i : Nat} (hi : i < 8) :
    (BitVec.ofNat 64 (deviceNat s a 8)).extractLsb' (8 * i) 8 = deviceByte s (a + i) 0 := by
  rw [extractLsb'_byte_ofNat _ (by omega), deviceNat, ofNat_leNat_div, deviceBytes_eq]
  simp [hi]

theorem deviceNat_congr {s t : State} (h : ∀ a, deviceByte t a 0 = deviceByte s a 0) (a n : Nat) : deviceNat t a n = deviceNat s a n := by
  rw [deviceNat, deviceNat, deviceBytes_eq, deviceBytes_eq]
  simp only [h]

/-- Bits set in one byte of a table entry, and no other byte changed. -/
theorem deviceNat_or {s t : State} {addr k : Nat} {p m : Word} (hp : p = BitVec.ofNat 64 (deviceNat s addr 8))
    (hk : deviceByte t (addr + k) 0 = p.extractLsb' (8 * k) 8 ||| m.extractLsb' (8 * k) 8)
    (hother : ∀ a, a ≠ addr + k → deviceByte t a 0 = deviceByte s a 0)
    (hm : ∀ i < 8, i ≠ k → m.extractLsb' (8 * i) 8 = 0#8) : deviceNat t addr 8 = (p ||| m).toNat := by
  refine deviceNat_of_bytes fun i hi => ?_
  rw [BitVec.extractLsb'_or]
  by_cases hik : i = k
  · subst hik
    exact hk
  · rw [hother _ (by omega), hm i hi hik, BitVec.or_zero, hp, byte_of_deviceNat s addr hi]

/-- What a walk finds is the entry at its address. -/
theorem walkFrom_leaf {s : State} {va n table : Nat} {ptrs ptrs' : List (Nat × Nat)} {addr level : Nat} {p : Word}
    (h : walkFrom s va n table ptrs = .leaf addr p level ptrs') : p = BitVec.ofNat 64 (deviceNat s addr 8) := by
  induction n generalizing table ptrs with
  | zero =>
    simp only [walkFrom] at h
    split at h
    · cases h
      rfl
    · cases h
  | succ n ih =>
    simp only [walkFrom] at h
    split at h
    · cases h
    · split at h
      · cases h
        rfl
      · split at h
        · cases h
        · exact ih h

/-! ### States that show the same bytes at device scope -/

/-- The states agree about every line's copies, and about memory and its keys. -/
structure SameDevice (s t : State) : Prop where
  line : ∀ n, SameLine s t n
  mem : t.mem = s.mem
  lineKeys : t.lineKeys = s.lineKeys
  keys : t.hub.keys = s.hub.keys

namespace SameDevice

variable {s t v : State}

theorem refl (s : State) : SameDevice s s := ⟨.refl s, rfl, rfl, rfl⟩

theorem trans (h₁ : SameDevice s t) (h₂ : SameDevice t v) : SameDevice s v :=
  ⟨fun n => (h₁.line n).trans (h₂.line n), h₂.mem.trans h₁.mem, h₂.lineKeys.trans h₁.lineKeys, h₂.keys.trans h₁.keys⟩

theorem foldl {α : Type} {f : State → α → State} (h : ∀ s x, SameDevice s (f s x)) (l : List α) (s : State) :
    SameDevice s (l.foldl f s) := by
  induction l generalizing s with
  | nil => exact refl s
  | cons x l ih => exact (h s x).trans (ih (f s x))

theorem ite {c : Prop} [Decidable c] (ht : SameDevice s t) (hv : SameDevice s v) : SameDevice s (if c then t else v) := by
  split
  · exact ht
  · exact hv

theorem of_dir (hdir : t.hub.dir = s.hub.dir) (hdies : t.dies = s.dies) (hm : t.mem = s.mem) (hl : t.lineKeys = s.lineKeys)
    (hk : t.hub.keys = s.hub.keys) : SameDevice s t := ⟨fun _ => .of_eq hdir hdies, hm, hl, hk⟩

theorem byte (h : SameDevice s t) (a : Nat) (key : BitVec 8) : deviceByte t a key = deviceByte s a key :=
  congrArg (lineByte · (a % 128)) (deviceData_congr (h.line _) h.keys key (memLine_congr h.mem h.lineKeys h.keys ..))

end SameDevice

theorem modDie_sameDevice {s : State} {d : DieNo} {f : Die → Die} (hf : (f (s.die d)).lines = (s.die d).lines) :
    SameDevice s (s.modDie d f) :=
  ⟨fun _ => modDie_sameLine (by simp only [sliceLine?, hf]), rfl, rfl, rfl⟩

theorem tlbLoad_sameDevice (s : State) (c : ClusterNo) (e : TlbEntry) : SameDevice s (tlbLoad s c e) := by
  unfold tlbLoad
  dsimp only
  refine .trans ((modDie_sameDevice rfl).trans (.ite (.refl _) (.foldl (fun s k => ?_) _ _))) (.of_dir rfl rfl rfl rfl rfl)
  exact .ite (.of_dir rfl rfl rfl rfl rfl) (.refl s)

theorem modWalk_sameDevice (s : State) (f : Walker → Walker) : SameDevice s (s.modWalk f) := .of_dir rfl rfl rfl rfl rfl

theorem tdirAdd_sameDevice (s : State) (e : TlbEntry) (d : DieNo) : SameDevice s (tdirAdd s e d) := by
  unfold tdirAdd
  exact modWalk_sameDevice s _

theorem touchDies_sameDevice (s : State) (a : BitVec 16) (l : List DieNo) : SameDevice s (l.foldl (fun s d => touchDie s a d) s) :=
  .foldl (f := fun s d => touchDie s a d) (fun _ _ => .of_dir rfl rfl rfl rfl rfl) l s

theorem clearMarkers_sameDevice (s : State) (e : TlbEntry) : SameDevice s (clearMarkers s e) := by
  unfold clearMarkers
  split
  · exact .refl s
  · exact modDie_sameDevice rfl

section
variable (s : State) (e : TlbEntry)

theorem clearMarkers_units : (clearMarkers s e).units = s.units := by
  unfold clearMarkers
  split <;> rfl

theorem clearMarkers_cluster (c : ClusterNo) : (clearMarkers s e).cluster c = s.cluster c := by
  unfold clearMarkers
  split <;> rfl

theorem clearMarkers_hub : (clearMarkers s e).hub = s.hub := by
  unfold clearMarkers
  split <;> rfl

end

/-! ### The reads of a walk (R321) -/

/-- No region of the directory replicates its lines. -/
def Unreplicated (s : State) : Prop := ∀ r ∈ s.hub.dir.regions, r.d = 0

theorem mem_updateFirst {α : Type} {p : α → Bool} {f : α → α} {l : List α} {y : α} (h : y ∈ updateFirst p f l) :
    y ∈ l ∨ ∃ x ∈ l, y = f x := by
  induction l with
  | nil => cases h
  | cons x l ih =>
    rw [updateFirst] at h
    split at h
    · rcases List.mem_cons.mp h with rfl | h
      · exact .inr ⟨x, List.mem_cons_self, rfl⟩
      · exact .inl (List.mem_cons_of_mem _ h)
    · rcases List.mem_cons.mp h with rfl | h
      · exact .inl List.mem_cons_self
      · rcases ih h with h | ⟨z, hz, rfl⟩
        · exact .inl (List.mem_cons_of_mem _ h)
        · exact .inr ⟨z, List.mem_cons_of_mem _ hz, rfl⟩

theorem modRegion_unreplicated {s : State} (h : Unreplicated s) (line : Nat) {f : Region → Region} (hf : ∀ x, (f x).d = x.d) :
    Unreplicated (modRegion s line f) := by
  intro r hr
  rcases mem_updateFirst hr with hr | ⟨x, hx, rfl⟩
  · exact h r hr
  · rw [hf, h x hx]

theorem regionInsert_mem {l : List Region} {r x : Region} (h : x ∈ regionInsert l r) : x ∈ l ∨ x = r := by
  unfold regionInsert at h
  dsimp only at h
  rcases List.mem_append.mp h with h | h
  · left
    split at h
    · exact h
    · split at h
      · exact (List.mem_filter.mp h).1
      · exact h
  · exact .inr (List.mem_singleton.mp h)

theorem region?_degree {s : State} (h : Unreplicated s) {line : Nat} {x : Region} (hx : region? s line = some x) : x.d = 0 :=
  h x (List.mem_of_find?_eq_some hx)

theorem setDegree_zero {s : State} (h : Unreplicated s) (line : Nat) (r : DieNo) : setDegree s line r 0 = s := by
  unfold setDegree
  split
  · next x hx => exact if_pos (region?_degree h hx)
  · rfl

/-- A region's entry where there is one to be, with the hints of a request of floor and ceiling 0. -/
def hintedZero (s : State) (line : Nat) : State := modRegion s line fun x => { x with floor := 0, ceil := 0 }

theorem hintedZero_sameDevice (s : State) (line : Nat) : SameDevice s (hintedZero s line) :=
  ⟨fun _ => ⟨rfl, rfl, fun _ => rfl⟩, rfl, rfl, rfl⟩

theorem hintedZero_unreplicated {s : State} (h : Unreplicated s) (line : Nat) : Unreplicated (hintedZero s line) :=
  modRegion_unreplicated h line fun _ => rfl

/-- A region's entry made where there is none. -/
def createRegion (s : State) (line : Nat) : State :=
  s.modDir fun d => { d with regions := regionInsert d.regions (Region.fresh (regionOf line) 0) }

theorem createRegion_sameDevice (s : State) (line : Nat) : SameDevice s (createRegion s line) :=
  ⟨fun _ => ⟨rfl, rfl, fun _ => rfl⟩, rfl, rfl, rfl⟩

theorem createRegion_unreplicated {s : State} (h : Unreplicated s) (line : Nat) : Unreplicated (createRegion s line) := by
  intro x hx
  rcases regionInsert_mem hx with hx | rfl
  · exact h x hx
  · rfl

/-- Hints of floor and ceiling 0 change an unreplicated directory by the region's entry alone. -/
theorem applyHints_zero {s : State} (h : Unreplicated s) (line : Nat) (r : DieNo) :
    ∃ t, SameDevice s t ∧ Unreplicated t ∧ applyHints s line r 0 0 = hintedZero t line := by
  have hbound (t : State) (ht : Unreplicated t) (x : Region) (hx : region? (hintedZero t line) line = some x) :
      setDegree (hintedZero t line) line r (if x.d < 0 then 0 else if 0 < x.d then 0 else x.d) = hintedZero t line := by
    rw [region?_degree (hintedZero_unreplicated ht line) hx]
    exact setDegree_zero (hintedZero_unreplicated ht line) line r
  unfold applyHints
  dsimp only [ite_self]
  cases hr : region? s line with
  | some y =>
    refine ⟨s, .refl s, h, ?_⟩
    dsimp only
    split
    · next x hx => exact hbound s h x hx
    · rfl
  | none =>
    refine ⟨createRegion s line, createRegion_sameDevice s line, createRegion_unreplicated h line, ?_⟩
    dsimp only
    split
    · next x hx => exact hbound _ (createRegion_unreplicated h line) x hx
    · rfl

/-- A request of floor and ceiling 0 that the directory handles lowers no degree. -/
theorem applyRequest_zero {s : State} (h : Unreplicated s) (line : Nat) (r : DieNo) :
    ∃ t, SameDevice s t ∧ Unreplicated t ∧ applyRequest s line r 0 0 = (t, false) := by
  obtain ⟨t, hs, ht, heq⟩ := applyHints_zero h line r
  have hquiet : Unreplicated (countQuiet (hintedZero t line) line) :=
    modRegion_unreplicated (hintedZero_unreplicated ht line) line fun _ => rfl
  refine ⟨countQuiet (hintedZero t line) line, (hs.trans (hintedZero_sameDevice t line)).trans ⟨fun _ => ⟨rfl, rfl, fun _ => rfl⟩, rfl, rfl, rfl⟩,
    hquiet, ?_⟩
  unfold applyRequest
  dsimp only
  rw [heq]
  cases hx : region? (countQuiet (hintedZero t line) line) line with
  | none => rfl
  | some x =>
    have hafter := region?_degree hquiet hx
    cases hy : region? s line with
    | none => simp [hafter]
    | some y => simp [hafter, region?_degree h hy]

/-- A read of the hub's own leaves every line of an unreplicated directory as it was. -/
theorem hubRead_zero {s : State} (h : Unreplicated s) (pa : Nat) : SameDevice s (hubRead s pa) ∧ Unreplicated (hubRead s pa) := by
  obtain ⟨t, hs, ht, heq⟩ := applyRequest_zero h (pa / 128) (homeOf (pa / 128))
  have hread : hubRead s pa = t := by
    unfold hubRead
    dsimp only
    rw [heq]
    rfl
  rw [hread]
  exact ⟨hs, ht⟩

theorem hubReads_zero {s : State} (h : Unreplicated s) (l : List Nat) : SameDevice s (l.foldl hubRead s) := by
  induction l generalizing s with
  | nil => exact .refl s
  | cons pa l ih =>
    obtain ⟨hs, ht⟩ := hubRead_zero h pa
    exact hs.trans (ih ht)

/-! ### What a walk's reads leave (R321) -/

/-- The states differ in the slices, the directory and the page-walk caches alone. -/
structure ReadOnly (s t : State) : Prop where
  units : t.units = s.units
  mem : t.mem = s.mem
  walk : t.hub.walk = { s.hub.walk with pwc := t.hub.walk.pwc }
  lost : ∀ d, (t.die d).lost = (s.die d).lost

theorem ReadOnly.of_net {s t : State} (h : NetOnly s t) : ReadOnly s t where
  units := h.units
  mem := h.mem
  walk := by rw [h.device.hub]
  lost := h.device.lost

/-- A walk of a leaf has read its tables, and the page-walk caches hold what it passed. -/
def walked (s : State) (w : Walk) (start : Nat × Nat) (ptrs : List (Nat × Nat)) : State :=
  ((walkReads w.va.toNat start.1 start.2 ptrs).foldl hubRead s).modWalk fun x => { x with pwc := x.pwc ++ ptrs.map fun t =>
    (w.asid, t.1, w.va.toNat / 2 ^ (14 + 11 * t.1), t.2) }

theorem walked_readOnly (s : State) (w : Walk) (start : Nat × Nat) (ptrs : List (Nat × Nat)) : ReadOnly s (walked s w start ptrs) := by
  have hreads : ReadOnly s ((walkReads w.va.toNat start.1 start.2 ptrs).foldl hubRead s) := .of_net (.foldl hubRead_netOnly _ s)
  obtain ⟨hunits, hmem, hwalk, hlost⟩ := hreads
  refine ⟨hunits, hmem, ?_, hlost⟩
  rw [walked, State.modWalk_hub, hwalk]

theorem walked_sameDevice {s : State} (h : Unreplicated s) (w : Walk) (start : Nat × Nat) (ptrs : List (Nat × Nat)) :
    SameDevice s (walked s w start ptrs) := (hubReads_zero h _).trans (.of_dir rfl rfl rfl rfl rfl)

/-! ### What a walk's leaf gives -/

section
variable {s t : State} (h : t.hub.walk.bufs = s.hub.walk.bufs)
include h

theorem bufOf_congr (a : BitVec 16) (vpn : Nat) : bufOf t a vpn = bufOf s a vpn := by rw [bufOf, h, bufOf]

theorem leafOk_congr (a : BitVec 16) (vpn : Nat) (p : Word) (level : Nat) : leafOk t a vpn p level = leafOk s a vpn p level := by
  unfold leafOk
  rw [bufOf_congr h]

theorem entryOfLeaf_congr (w : Walk) (p : Word) (level : Nat) : entryOfLeaf t w p level = entryOfLeaf s w p level := by
  have hbuf : ∀ b, t.buf? b = s.buf? b := fun b => by rw [State.buf?, h, State.buf?]
  have hbufs : t.buf? = s.buf? := funext hbuf
  unfold entryOfLeaf
  dsimp only
  rw [bufOf_congr h, hbufs]

end

/-! ### The loading of a leaf (R321, R322) -/

/-- A walk's leaf with its bits set, the dies of its frames touched. -/
def touched (s : State) (w : Walk) (addr : Nat) (p : Word) (level : Nat) : State :=
  let a := setAccDirty s addr p w.write
  let e := entryOfLeaf a w p level
  (([e.frame0, e.frame1].filterMap frameDie).dedup).foldl (fun s d => touchDie s w.asid d) a

/-- A walk loads its translation, or finds the die of its frame lost. -/
def loadLeaf (s : State) (id : Nat) (w : Walk) (addr : Nat) (p : Word) (level : Nat) : State :=
  let e := entryOfLeaf (setAccDirty s addr p w.write) w p level
  let t := touched s w addr p level
  if (([e.frame0, e.frame1].filterMap frameDie).dedup).any (fun d => (t.die d).lost) then walkFails t id cDieLost
  else (tdirAdd (tlbLoad t w.cluster e) e w.die).modWalk fun x =>
    { x with walks := x.walks.filter (fun y => y.id != id), held := x.held.filter fun y => y.id != id }

theorem cluster_modWalk (s : State) (f : Walker → Walker) (c : ClusterNo) : (s.modWalk f).cluster c = s.cluster c := rfl

theorem setAccDirty_walk (s : State) (addr : Nat) (p : Word) (write : Bool) : (setAccDirty s addr p write).hub.walk = s.hub.walk := by
  unfold setAccDirty
  dsimp only
  by_cases hset : p.extractLsb' 0 8 ||| 0x20 ||| (if write then 0x40 else 0) = p.extractLsb' 0 8
  · rw [if_pos hset]
  · rw [if_neg hset, (deviceWrite_deviceOnly ..).hub]

theorem touched_walkOnly (s : State) (w : Walk) (addr : Nat) (p : Word) (level : Nat) : WalkOnly s (touched s w addr p level) :=
  (setAccDirty_walkOnly ..).trans (touchDies_walkOnly ..)

theorem loadLeaf_walkOnly (s : State) (id : Nat) (w : Walk) (addr : Nat) (p : Word) (level : Nat) : WalkOnly s (loadLeaf s id w addr p level) := by
  unfold loadLeaf
  exact (touched_walkOnly ..).trans
    (.ite (walkFails_walkOnly ..) (((tlbLoad_walkOnly ..).trans (tdirAdd_walkOnly ..)).trans (.of_modWalk _ _)))

/-- The leaf's bits are all that the loading changes at device scope. -/
theorem loadLeaf_byte (s : State) (id : Nat) (w : Walk) (addr : Nat) (p : Word) (level a : Nat) (key : BitVec 8) :
    deviceByte (loadLeaf s id w addr p level) a key = deviceByte (setAccDirty s addr p w.write) a key := by
  have htouched : SameDevice (setAccDirty s addr p w.write) (touched s w addr p level) := touchDies_sameDevice ..
  refine (htouched.trans ?_).byte a key
  unfold loadLeaf
  exact .ite (modWalk_sameDevice ..)
    (((tlbLoad_sameDevice ..).trans (tdirAdd_sameDevice ..)).trans (modWalk_sameDevice ..))

theorem loadLeaf_alive {s : State} (h : ∀ d, (s.die d).lost = false) (id : Nat) (w : Walk) (addr : Nat) (p : Word) (level : Nat) :
    entryOfLeaf (setAccDirty s addr p w.write) w p level ∈ ((loadLeaf s id w addr p level).cluster w.cluster).tlb ∧
      ∀ x ∈ (loadLeaf s id w addr p level).hub.walk.walks, x.id ≠ id := by
  have hlost : ∀ d, ((touched s w addr p level).die d).lost = false := fun d => by
    rw [(touched_walkOnly ..).die, h]
  unfold loadLeaf
  dsimp only
  rw [if_neg (by simp [hlost])]
  constructor
  · rw [cluster_modWalk, tdirAdd, cluster_modWalk, tlbLoad, State.cluster_modCluster_self]
    exact List.mem_append_right _ List.mem_cons_self
  · intro x hx
    simpa using (List.mem_filter.mp hx).2

/-- ACC and DIRTY as bits of a leaf. -/
def accDirty (write : Bool) : Word := 0x20 ||| if write then 0x40 else 0

theorem accDirty_low (write : Bool) : (accDirty write).extractLsb' 0 8 = 0x20 ||| if write then 0x40 else 0 := by
  cases write <;> decide

theorem accDirty_high (write : Bool) {i : Nat} (hi : i < 8) (h : i ≠ 0) : (accDirty write).extractLsb' (8 * i) 8 = 0#8 := by
  cases write <;> decide +revert

theorem setAccDirty_byte {s : State} (h : Memory.wf s.mem = true) {addr : Nat} {p : Word} (write : Bool)
    (hp : p.extractLsb' 0 8 = deviceByte s addr 0) (a : Nat) :
    deviceByte (setAccDirty s addr p write) a 0 =
      if a = addr then p.extractLsb' 0 8 ||| (accDirty write).extractLsb' 0 8 else deviceByte s a 0 := by
  rw [accDirty_low, ← BitVec.or_assoc]
  unfold setAccDirty
  dsimp only
  by_cases hset : p.extractLsb' 0 8 ||| 0x20 ||| (if write then 0x40 else 0) = p.extractLsb' 0 8
  · rw [if_pos hset]
    split
    · next ha => rw [ha, hset, hp]
    · rfl
  · rw [if_neg hset, deviceByte_deviceWrite h]
    by_cases ha : a = addr
    · subst ha
      rw [if_pos ⟨le_rfl, Nat.lt_succ_self a⟩, if_pos rfl, Nat.sub_self, List.getD_cons_zero]
    · have hout : ¬ (addr ≤ a ∧ a < addr + 1) := by omega
      rw [if_neg ha]
      exact if_neg hout

/-! ### WALK_COMPLETE -/

section
variable {s : State} {id : Nat} {w : Walk} {k : Context} (hw : s.hub.walk.walks.find? (fun x => x.id == id) = some w)
  (hfail : w.fail = none) (hctx : s.ctx? w.asid = some k)
include hw hfail hctx

theorem completeWalk_fail
    (h : walkFrom s w.va.toNat (walkStart s w.asid k.root w.va.toNat).1 (walkStart s w.asid k.root w.va.toNat).2 [] = .fail) :
    completeWalk s id = walkFails ((walkReads w.va.toNat (walkStart s w.asid k.root w.va.toNat).1
      (walkStart s w.asid k.root w.va.toNat).2 []).foldl hubRead s) id cTranslation := by
  have hfind := find?_and_of_find? (q := fun x : Walk => x.fail.isNone) hw (by rw [hfail]; rfl)
  unfold completeWalk
  rw [hfind]
  dsimp only
  rw [hctx]
  dsimp only
  rw [h]

theorem completeWalk_leaf {addr level : Nat} {p : Word} {ptrs : List (Nat × Nat)}
    (h : walkFrom s w.va.toNat (walkStart s w.asid k.root w.va.toNat).1 (walkStart s w.asid k.root w.va.toNat).2 [] = .leaf addr p level ptrs)
    (hok : leafOk s w.asid (vpnOf w.va) p level = true) :
    completeWalk s id =
      let r := walked s w (walkStart s w.asid k.root w.va.toNat) ptrs
      if pteMig p || (pteTvg p && (bufOf r w.asid (vpnOf w.va)).any fun b => versionMoves r b) then
        r.modWalk fun x => { x with held := if x.held.contains w then x.held else x.held ++ [w] }
      else loadLeaf r id w addr p level := by
  have hfind := find?_and_of_find? (q := fun x : Walk => x.fail.isNone) hw (by rw [hfail]; rfl)
  have hbufs : (walked s w (walkStart s w.asid k.root w.va.toNat) ptrs).hub.walk.bufs = s.hub.walk.bufs := by
    rw [(walked_readOnly ..).walk]
  have hleaf := (leafOk_congr hbufs w.asid (vpnOf w.va) p level).trans hok
  unfold completeWalk
  rw [hfind]
  dsimp only
  rw [hctx]
  dsimp only
  rw [h]
  exact if_neg (by rw [walked] at hleaf; rw [hleaf]; decide)

omit hctx in
/-- A walk that stands on leaves every drain marker. -/
theorem exec_walkComplete_stands {t : State} (ht : completeWalk s id = t) (hin : t.hub.walk.walks.any (fun x => x.id == id) = true) :
    exec (.walkComplete id) s = .next t := by
  have hfind := find?_and_of_find? (q := fun x : Walk => x.fail.isNone) hw (by rw [hfail]; rfl)
  rw [exec_walkComplete, execWalkComplete, hfind]
  dsimp only
  rw [ht]
  split
  · rw [hin, Bool.not_true, Bool.and_false]
    rfl
  · rfl

omit hctx in
/-- A walk that is over clears the drain markers of its page at most. -/
theorem exec_walkComplete_over {t : State} (ht : completeWalk s id = t) :
    exec (.walkComplete id) s = .next t ∨ ∃ e, exec (.walkComplete id) s = .next (clearMarkers t e) := by
  have hfind := find?_and_of_find? (q := fun x : Walk => x.fail.isNone) hw (by rw [hfail]; rfl)
  rw [exec_walkComplete, execWalkComplete, hfind]
  dsimp only
  rw [ht]
  split
  · next e _ =>
    split
    · exact .inr ⟨e, rfl⟩
    · exact .inl rfl
  · exact .inl rfl

theorem walkComplete_fails
    (h : walkFrom s w.va.toNat (walkStart s w.asid k.root w.va.toNat).1 (walkStart s w.asid k.root w.va.toNat).2 [] = .fail) :
    ∃ t, exec (.walkComplete id) s = .next t ∧ t.units = s.units ∧ t.mem = s.mem ∧
      t.hub.walk.walks.find? (fun x => x.id == id) = some { w with fail := some cTranslation } := by
  have hreads : ReadOnly s ((walkReads w.va.toNat (walkStart s w.asid k.root w.va.toNat).1
      (walkStart s w.asid k.root w.va.toNat).2 []).foldl hubRead s) := .of_net (.foldl hubRead_netOnly _ s)
  have hcomplete := completeWalk_fail hw hfail hctx h
  generalize (walkReads w.va.toNat (walkStart s w.asid k.root w.va.toNat).1
      (walkStart s w.asid k.root w.va.toNat).2 []).foldl hubRead s = r at hreads hcomplete
  have hfound : (walkFails r id cTranslation).hub.walk.walks.find? (fun x => x.id == id) = some { w with fail := some cTranslation } := by
    rw [walkFails, State.modWalk_hub]
    dsimp only
    rw [find?_updateFirst (p := fun x : Walk => x.id == id) (f := fun x => { x with fail := some cTranslation }) (fun _ => rfl),
      hreads.walk, hw]
    rfl
  refine ⟨_, exec_walkComplete_stands hw hfail hcomplete (any_of_find? hfound), hreads.units, hreads.mem, hfound⟩

section
variable {addr level : Nat} {p : Word} {ptrs : List (Nat × Nat)}
  (h : walkFrom s w.va.toNat (walkStart s w.asid k.root w.va.toNat).1 (walkStart s w.asid k.root w.va.toNat).2 [] = .leaf addr p level ptrs)
  (hok : leafOk s w.asid (vpnOf w.va) p level = true)
include h hok

/-- A leaf that is being migrated holds its walk (R333). -/
theorem walkComplete_held (hmig : pteMig p = true) :
    ∃ t, exec (.walkComplete id) s = .next t ∧ t.units = s.units ∧ t.mem = s.mem ∧ w ∈ t.hub.walk.held ∧
      t.hub.walk.walks = s.hub.walk.walks := by
  have hcomplete := completeWalk_leaf hw hfail hctx h hok
  have hread := walked_readOnly s w (walkStart s w.asid k.root w.va.toNat) ptrs
  dsimp only at hcomplete
  generalize walked s w (walkStart s w.asid k.root w.va.toNat) ptrs = r at hcomplete hread
  rw [hmig, Bool.true_or, if_pos rfl] at hcomplete
  have hwalks : r.hub.walk.walks = s.hub.walk.walks := by rw [hread.walk]
  refine ⟨_, exec_walkComplete_stands hw hfail hcomplete ?_, hread.units, hread.mem, ?_, hwalks⟩
  · rw [State.modWalk_hub]
    dsimp only
    rw [hwalks]
    exact any_of_find? hw
  · rw [State.modWalk_hub]
    dsimp only
    split
    · next hin => exact List.contains_iff_mem.mp hin
    · exact List.mem_append_right _ List.mem_cons_self

/-- A leaf that stands still is loaded, its walk over. -/
theorem walkComplete_loads (hmig : pteMig p = false)
    (hstill : ∀ b, pteTvg p = true → bufOf s w.asid (vpnOf w.va) = some b → versionMoves s b = false)
    (halive : ∀ d, (s.die d).lost = false) :
    ∃ t, exec (.walkComplete id) s = .next t ∧ t.units = s.units ∧ entryOfLeaf s w p level ∈ (t.cluster w.cluster).tlb ∧
      (∀ x ∈ t.hub.walk.walks, x.id ≠ id) ∧
      (Canonical s → (∀ r ∈ s.hub.dir.regions, r.d = 0) →
        deviceNat t addr 8 = (p ||| 0x20 ||| (if w.write then 0x40 else 0)).toNat) := by
  have hcomplete := completeWalk_leaf hw hfail hctx h hok
  have hread := walked_readOnly s w (walkStart s w.asid k.root w.va.toNat) ptrs
  have hsame := fun hz : Unreplicated s => walked_sameDevice hz w (walkStart s w.asid k.root w.va.toNat) ptrs
  have hp := walkFrom_leaf h
  dsimp only at hcomplete
  generalize walked s w (walkStart s w.asid k.root w.va.toNat) ptrs = r at hcomplete hread hsame
  have hbufs : r.hub.walk.bufs = s.hub.walk.bufs := by rw [hread.walk]
  have hmoves : ∀ b, versionMoves r b = versionMoves s b := fun b => by rw [versionMoves, hread.walk, versionMoves]
  have hstands : (pteMig p || (pteTvg p && (bufOf r w.asid (vpnOf w.va)).any fun b => versionMoves r b)) = false := by
    rw [hmig, Bool.false_or, bufOf_congr hbufs]
    cases htvg : pteTvg p with
    | false => rfl
    | true =>
      cases hb : bufOf s w.asid (vpnOf w.va) with
      | none => rfl
      | some b => simp [hmoves, hstill b htvg hb]
  rw [hstands, if_neg Bool.false_ne_true] at hcomplete
  have hentry : entryOfLeaf (setAccDirty r addr p w.write) w p level = entryOfLeaf s w p level := by
    refine entryOfLeaf_congr ?_ w p level
    rw [setAccDirty_walk, hbufs]
  obtain ⟨hin, hover⟩ := loadLeaf_alive (fun d => (hread.lost d).trans (halive d)) id w addr p level
  rw [hentry] at hin
  have hunits : (loadLeaf r id w addr p level).units = s.units := (loadLeaf_walkOnly ..).units.trans hread.units
  have hleaf (hs : Canonical s) (hz : Unreplicated s) :
      deviceNat (loadLeaf r id w addr p level) addr 8 = (p ||| 0x20 ||| (if w.write then 0x40 else 0)).toNat := by
    have hlow : p.extractLsb' 0 8 = deviceByte r addr 0 := by
      rw [(hsame hz).byte, hp]
      exact byte_of_deviceNat s addr (i := 0) (by decide)
    have hwf : Memory.wf r.mem = true := by
      rw [hread.mem]
      exact hs.1
    rw [BitVec.or_assoc]
    refine deviceNat_or (s := s) (k := 0) (m := accDirty w.write) hp ?_ (fun a ha => ?_) fun i hi hne => accDirty_high w.write hi hne
    · rw [loadLeaf_byte, setAccDirty_byte hwf w.write hlow]
      exact if_pos rfl
    · rw [loadLeaf_byte, setAccDirty_byte hwf w.write hlow, if_neg (show a ≠ addr from ha), (hsame hz).byte]
  rcases exec_walkComplete_over hw hfail hcomplete with hexec | ⟨e, hexec⟩
  · exact ⟨_, hexec, hunits, hin, hover, hleaf⟩
  · refine ⟨_, hexec, (clearMarkers_units ..).trans hunits, ?_, ?_, fun hs hz => ?_⟩
    · rw [clearMarkers_cluster]
      exact hin
    · rw [clearMarkers_hub]
      exact hover
    · rw [deviceNat_congr fun a => (clearMarkers_sameDevice ..).byte a 0]
      exact hleaf hs hz

end

end

/-! ### TRANSLATION_WALK, BUFFER_REGISTRATION -/

/-- A miss within the budget sends its walk. -/
theorem translationWalk_sends {s : State} {a : BitVec 16} {va : Va} {c : ClusterNo} (htlb : tlbFind s c a (vpnOf va) = none)
    (hwalk : walkFor s c a (vpnOf va) = none) (hroom : s.hub.walk.walks.length < 64)
    (hopen : budgetOpen s a bWalker (walkKey c (vpnOf va)) = true) (w : Bool) :
    ∃ t, exec (.translationWalk a va w c) s = .next t ∧ t.units = s.units ∧ t.mem = s.mem ∧ t.hub.walk.walks = s.hub.walk.walks ++
      [{ id := s.nextReq, asid := a, va := va, write := w, die := dieOf c, cluster := c, fail := none }] := by
  have hno : ((walkFor s c a (vpnOf va)).isSome || decide (64 ≤ s.hub.walk.walks.length)) = false := by
    rw [hwalk, decide_eq_false (by omega)]
    rfl
  have hsent : exec (.translationWalk a va w c) s = .next (requestWalk s c a va w) := by
    rw [exec_translationWalk, execTranslationWalk, htlb]
    rfl
  unfold requestWalk at hsent
  rw [hno, if_neg Bool.false_ne_true, if_pos hopen] at hsent
  exact ⟨_, hsent, rfl, rfl, rfl⟩

theorem bufferRegistration_adds {s : State} {a : BitVec 16} {hbase pages p0 p1 : Nat} (hctx : (s.ctx? a).isSome)
    (hroom : (s.hub.walk.bufs.filter fun b => b.asid == a).length < 4096) (hlo : 1 ≤ pages) (hhi : pages ≤ 65536) (hbase' : hbase < 2 ^ 66)
    (h0 : versionOk p0 pages = true) (h1 : versionOk p1 pages = true) :
    ∃ t b, exec (.bufferRegistration a hbase pages p0 p1) s = .next t ∧ t.units = s.units ∧ t.mem = s.mem ∧
      t.hub.walk.bufs = s.hub.walk.bufs ++ [b] ∧ b.asid = a ∧ b.hbase = hbase ∧ b.pages = pages ∧ b.phys0 = p0 * 2 ^ 14 ∧
      b.phys1 = p1 * 2 ^ 14 ∧ b.sel = false ∧ b.count = 0 ∧ b.total = none ∧ b.taint = false ∧ b.flips = 0 ∧ b.vset = false := by
  have hnone : (s.ctx? a).isNone = false := Option.isNone_eq_false_iff.mpr hctx
  have hpages : (pages == 0) = false := beq_false_of_ne (by omega)
  have hok : ((s.ctx? a).isNone || decide (4096 ≤ (s.hub.walk.bufs.filter fun b => b.asid == a).length) || pages == 0
      || decide (65536 < pages) || decide (2 ^ 66 ≤ hbase) || !versionOk p0 pages || !versionOk p1 pages) = false := by
    rw [hnone, hpages, h0, h1, decide_eq_false (Nat.not_le.mpr hroom), decide_eq_false (Nat.not_lt.mpr hhi),
      decide_eq_false (Nat.not_le.mpr hbase')]
    rfl
  rw [exec_bufferRegistration, execBufferRegistration]
  dsimp only
  rw [hok]
  exact ⟨_, _, rfl, rfl, rfl, rfl, rfl, rfl, rfl, rfl, rfl, rfl, rfl, rfl, rfl, rfl, rfl⟩

/-! ### Shoot-downs (R331) -/

theorem foldl_modCluster {f : Cluster → Cluster} {l : List ClusterNo} (hl : l.Nodup) (s : State) (c : ClusterNo) :
    (l.foldl (fun s x => s.modCluster x f) s).cluster c = if c ∈ l then f (s.cluster c) else s.cluster c := by
  induction l generalizing s with
  | nil => rfl
  | cons x l ih =>
    obtain ⟨hx, hl⟩ := List.nodup_cons.mp hl
    rw [List.foldl_cons, ih hl]
    by_cases hc : x = c
    · subst hc
      rw [if_neg hx, if_pos List.mem_cons_self, State.cluster_modCluster_self]
    · rw [State.cluster_modCluster_ne hc]
      simp [Ne.symm hc]

theorem mem_coresOf {d : DieNo} {c : ClusterNo} : c ∈ coresOf d ↔ dieOf c = d := by
  simp [coresOf]

theorem modTlbs_cluster (s : State) (d : DieNo) (f : List TlbEntry → List TlbEntry) (c : ClusterNo) :
    (modTlbs s d f).cluster c = if dieOf c = d then { s.cluster c with tlb := f (s.cluster c).tlb } else s.cluster c := by
  refine (foldl_modCluster (f := fun k => { k with tlb := f k.tlb }) (l := coresOf d) ((List.nodup_finRange 128).filter _) _ c).trans ?_
  simp only [mem_coresOf]
  rfl

/-- The rest of the machine behind a change of a die's TLBs. -/
theorem modTlbs_rest (s : State) (d : DieNo) (f : List TlbEntry → List TlbEntry) :
    (modTlbs s d f).units = s.units ∧ (modTlbs s d f).mem = s.mem ∧ (modTlbs s d f).hub = s.hub ∧
      (modTlbs s d f).die d = { s.die d with tlb := f (s.die d).tlb } := by
  have hkeep {β : Type} (g : State → β) (hg : ∀ s c, g (s.modCluster c fun k => { k with tlb := f k.tlb }) = g s) :
      g (modTlbs s d f) = g (s.modDie d fun x => { x with tlb := f x.tlb }) :=
    foldl_keeps (f := fun s c => s.modCluster c fun k => { k with tlb := f k.tlb }) g hg (coresOf d) _
  refine ⟨hkeep State.units fun _ _ => rfl, hkeep State.mem fun _ _ => rfl, hkeep State.hub fun _ _ => rfl, ?_⟩
  rw [State.die, hkeep State.dies fun _ _ => rfl]
  exact State.die_modDie_self ..

theorem migFrame_none {s : State} {x : Shoot} (hm : x.migrate = none) (hv : x.version = none) : migFrame s x = none := by
  rw [migFrame, hv, hm]
  rfl

theorem shootDown_drops {s : State} {id : Nat} {d : DieNo} {x : Shoot} (hx : shoot? s id = some x) (hm : x.migrate = none)
    (hv : x.version = none) (hd : d ∈ x.dies) (hack : s.hub.walk.shootAcks.contains (id, d) = false) :
    ∃ t, exec (.shootDown id d) s = .next t ∧ t.units = s.units ∧ t.mem = s.mem ∧
      (t.die d).tlb = (s.die d).tlb.filter (fun e => !x.hits e) ∧ (∀ c, dieOf c = d → ∀ e ∈ (t.cluster c).tlb, x.hits e = false) ∧
      (∀ c, dieOf c ≠ d → t.cluster c = s.cluster c) ∧ t.hub.walk.shootAcks = s.hub.walk.shootAcks ++ [(id, d)] := by
  obtain ⟨hunits, hmem, hhub, hdie⟩ := modTlbs_rest s d fun l => l.filter fun e => !x.hits e
  have hcluster := modTlbs_cluster s d fun l => l.filter fun e => !x.hits e
  rw [exec_shootDown, execShootDown, hx]
  dsimp only
  rw [migFrame_none hm hv, List.contains_iff_mem.mpr hd, hack, if_neg (by simp)]
  dsimp only
  refine ⟨_, rfl, hunits, hmem, congrArg Die.tlb hdie, fun c hc e he => ?_, fun c hc => ?_, ?_⟩
  · have he' : e ∈ ((modTlbs s d fun l => l.filter fun e => !x.hits e).cluster c).tlb := he
    rw [hcluster, if_pos hc] at he'
    simpa using (List.mem_filter.mp he').2
  · exact (hcluster c).trans (if_neg hc)
  · rw [State.modWalk_hub, modShoot, State.modWalk_hub, hhub]

theorem shootDownAck_drops {s : State} {id : Nat} {d : DieNo} {x : Shoot} (hx : shoot? s id = some x) (hm : x.migrate = none)
    (hv : x.version = none) (hack : s.hub.walk.shootAcks.contains (id, d) = true) :
    ∃ t, exec (.shootDownAck id d) s = .next t ∧ t.units = s.units ∧ t.mem = s.mem ∧
      ((x.dies.filter fun y => y != d) ≠ [] → shoot? t id = some { x with dies := x.dies.filter fun y => y != d }) ∧
      ((x.dies.filter fun y => y != d) = [] → (∀ i u, x.waiter = some i → s.unit? i = some u → u.live = false) → shoot? t id = none) := by
  let left := x.dies.filter fun y => y != d
  let t := (modShoot s id fun y => { y with dies := left }).modWalk fun w =>
    { w with shootAcks := removeFirst (fun y => y == (id, d)) w.shootAcks }
  have hshoot : shoot? t id = some { x with dies := left } := by
    have hfound : s.hub.walk.shoots.find? (fun y => y.id == id) = some x := hx
    show (updateFirst (fun y : Shoot => y.id == id) (fun y => { y with dies := left }) s.hub.walk.shoots).find? (fun y => y.id == id) = _
    rw [find?_updateFirst (p := fun y : Shoot => y.id == id) (f := fun y => { y with dies := left }) (fun _ => rfl), hfound]
    rfl
  have hexec : exec (.shootDownAck id d) s = .next (if !left.isEmpty then t
      else if (match x.waiter.bind t.unit? with | some u => u.live | none => false) then t else dropShoot t id) := by
    rw [exec_shootDownAck, execShootDownAck, hx]
    dsimp only
    rw [hack, migFrame_none hm hv, hm]
    rfl
  by_cases hleft : left = []
  · have hempty : (!left.isEmpty) = false := by rw [hleft]; rfl
    rw [hempty, if_neg Bool.false_ne_true] at hexec
    have hdropped : shoot? (dropShoot t id) id = none :=
      List.find?_eq_none.mpr fun y hy => by simpa using (List.mem_filter.mp hy).2
    cases hwait : x.waiter.bind t.unit? with
    | none =>
      rw [hwait] at hexec
      exact ⟨dropShoot t id, hexec, rfl, rfl, fun h => absurd hleft h, fun _ _ => hdropped⟩
    | some u =>
      rw [hwait] at hexec
      dsimp only at hexec
      cases hlive : u.live with
      | false =>
        rw [if_neg (by simp [hlive])] at hexec
        exact ⟨dropShoot t id, hexec, rfl, rfl, fun h => absurd hleft h, fun _ _ => hdropped⟩
      | true =>
        rw [if_pos (by simp [hlive])] at hexec
        obtain ⟨i, hi, hu⟩ := Option.bind_eq_some_iff.mp hwait
        exact ⟨t, hexec, rfl, rfl, fun h => absurd hleft h, fun _ hdone => absurd (hdone i u hi hu) (by rw [hlive]; decide)⟩
  · have hempty : (!left.isEmpty) = true := by simpa using hleft
    rw [hempty, if_pos rfl] at hexec
    exact ⟨t, hexec, rfl, rfl, fun _ => hshoot, fun h => absurd h hleft⟩

/-! ### PAGE_MIGRATION (R333) -/

theorem updateFirst_append {α : Type} {p : α → Bool} (f : α → α) {l : List α} {x : α} (h : ∀ y ∈ l, p y = false) (hx : p x = true) :
    updateFirst p f (l ++ [x]) = l ++ [f x] := by
  induction l with
  | nil => exact if_pos hx
  | cons y l ih =>
    rw [List.cons_append, updateFirst, h y List.mem_cons_self, if_neg Bool.false_ne_true, ih fun z hz => h z (List.mem_cons_of_mem _ hz)]
    rfl

/-- The shoot-down that a migration starts. -/
def moveShoot (s : State) (a : BitVec 16) (r : Nat × Nat) (new : Nat) : Shoot :=
  { id := s.nextReq, asid := a, range := some r, mask := shootMask s a (some r), dies := shootMask s a (some r), migrate := some new,
    version := none, frames := [], waiter := none }

/-- A migration's shoot-down whose mask names a die waits for that die. -/
theorem startMove_waits {s : State} {a : BitVec 16} {r : Nat × Nat} {new : Nat} (hid : ∀ x ∈ s.hub.walk.shoots, x.id ≠ s.nextReq)
    (hmask : shootMask s a (some r) ≠ []) :
    (startMove s a r new none).units = s.units ∧ SameDevice s (startMove s a r new none) ∧
      moveShoot s a r new ∈ (startMove s a r new none).hub.walk.shoots := by
  let t := modShoot (startShoot s a (some r) (some new) none) s.nextReq fun x => { x with version := none }
  have hshoots : t.hub.walk.shoots = s.hub.walk.shoots ++ [moveShoot s a r new] :=
    updateFirst_append (p := fun x : Shoot => x.id == s.nextReq) (fun x => { x with version := none }) (x := moveShoot s a r new)
      (fun y hy => beq_false_of_ne (hid y hy)) (beq_self_eq_true _)
  have hfound : shoot? t s.nextReq = some (moveShoot s a r new) := by
    rw [shoot?, hshoots, List.find?_append, List.find?_eq_none.mpr fun y hy => by simpa using hid y hy]
    simp [moveShoot]
  have hwaits : (moveShoot s a r new).dies.isEmpty = false := List.isEmpty_eq_false_iff.mpr hmask
  have hstart : startMove s a r new none = t := by
    unfold startMove
    dsimp only
    rw [hfound]
    dsimp only
    rw [hwaits, Bool.false_and, if_neg Bool.false_ne_true]
  rw [hstart]
  refine ⟨rfl, .of_dir rfl rfl rfl rfl rfl, ?_⟩
  rw [hshoots]
  exact List.mem_append_right _ List.mem_cons_self

theorem migBit_low {i : Nat} (hi : i < 8) (h : i ≠ 1) : (0x100 : Word).extractLsb' (8 * i) 8 = 0#8 := by
  decide +revert

theorem pageMigration_starts {s : State} {a : BitVec 16} {va : Va} {frame : Nat} {k : Context} {addr : Nat} {p : Word} {level : Nat}
    {ptrs : List (Nat × Nat)} {d e : DieNo} (hctx : s.ctx? a = some k) (hwalk : walkFrom s va.toNat 5 k.root [] = .leaf addr p level ptrs)
    (hok : leafOk s a (vpnOf va) p level = true) (hmig : pteMig p = false) (htvg : pteTvg p = false) (hd : frameDie (ptePa p) = some d)
    (hdl : (s.die d).lost = false) (he : frameDie (frame * 2 ^ 14) = some e) (hel : (s.die e).lost = false)
    (halign : frame * 2 ^ 14 % levelSize level = 0) (hframe : frameOk (frame * 2 ^ 14) (levelSize level) = true)
    (hid : ∀ x ∈ s.hub.walk.shoots, x.id ≠ s.nextReq)
    (hmask : shootMask s a (some (pageBase (vpnOf va) level, 2 ^ (11 * level))) ≠ []) :
    ∃ t, exec (.pageMigration a va frame) s = .next t ∧ t.units = s.units ∧
      (∃ x ∈ t.hub.walk.shoots, x.asid = a ∧ x.range = some (pageBase (vpnOf va) level, 2 ^ (11 * level)) ∧
        x.migrate = some (frame * 2 ^ 14)) ∧
      (Canonical s → deviceNat t addr 8 = (p ||| 0x100).toNat) := by
  let v := deviceWrite s (addr + 1) [p.extractLsb' 8 8 ||| 1] 0
  let r := (pageBase (vpnOf va) level, 2 ^ (11 * level))
  have hv : DeviceOnly s v := deviceWrite_deviceOnly ..
  have hvid : ∀ x ∈ v.hub.walk.shoots, x.id ≠ v.nextReq := by
    rw [hv.hub, hv.nextReq]
    exact hid
  have hvmask : shootMask v a (some r) ≠ [] := by
    have hsame : shootMask v a (some r) = shootMask s a (some r) := by
      unfold shootMask
      rw [hv.hub]
      exact List.filter_congr fun d _ => by rw [hv.lost]
    rw [hsame]
    exact hmask
  obtain ⟨hunits, hdevice, hin⟩ := startMove_waits (new := frame * 2 ^ 14) hvid hvmask
  have hexec : exec (.pageMigration a va frame) s = .next (startMove v a r (frame * 2 ^ 14) none) := by
    rw [exec_pageMigration, execPageMigration, hctx]
    dsimp only
    rw [hwalk]
    dsimp only
    generalize frame * 2 ^ 14 = new at he halign hframe ⊢
    rw [if_neg (by simp [hok, hmig, he, hel]), if_neg (by simp [htvg]), if_neg (by simp [hd, hdl, halign, hframe])]
  refine ⟨_, hexec, hunits.trans hv.units, ⟨_, hin, rfl, rfl, rfl⟩, fun hs => ?_⟩
  refine deviceNat_or (s := s) (k := 1) (m := 0x100) (walkFrom_leaf hwalk) ?_ (fun x hx => ?_) fun i hi hne => migBit_low hi hne
  · rw [hdevice.byte, deviceByte_deviceWrite hs.1, if_pos (by simp)]
    simp
  · rw [hdevice.byte, deviceByte_deviceWrite hs.1, if_neg (by simp; omega)]

/-- Settles O55: each event changes the walker, the TLBs and the leaf that its rule names, and a walk's own reads change no byte. -/
theorem walkerEvents : Obligations.WalkerEvents := by
  refine ⟨fun s a va w c htlb hwalk hroom hopen => translationWalk_sends htlb hwalk hroom hopen w,
    fun s id w k hw hfail hctx => ⟨walkComplete_fails hw hfail hctx, fun addr p level ptrs h hok =>
      ⟨walkComplete_held hw hfail hctx h hok, walkComplete_loads hw hfail hctx h hok⟩⟩,
    fun s a hbase pages p0 p1 hctx hroom hlo hhi hb h0 h1 => bufferRegistration_adds hctx hroom hlo hhi hb h0 h1,
    fun s id d x hx hm hv => ⟨shootDown_drops hx hm hv, shootDownAck_drops hx hm hv⟩,
    fun s a va frame k addr p level ptrs d e hctx hwalk hok hmig htvg hd hdl he hel halign hframe hid hmask =>
      pageMigration_starts hctx hwalk hok hmig htvg hd hdl he hel halign hframe hid hmask⟩

end Sys2Proof.WalkerSteps
end

section
/-! PROOFS.
Inbound requests at the ordering point (R403 to R408), and the ends of outbound ones (R411, R413). -/

-- One proof at a time: the check of the whole text has a limit on memory, which many threads would reach.
set_option Elab.async false

namespace Sys2Proof.HostTraffic

open Sys2Proof.Machine Sys2Proof.Safety Sys2Proof.DeviceStep Sys2Proof.Walks Sys2Proof.WalkerSteps Sys2Proof.UnitEvents

variable {s : State}

/-! ### Where the hub management windows lie (R316) -/

theorem frameDie_window {addr : Nat} (h : addr < 2 ^ 24) : frameDie (2 ^ 51 + addr) = none := by
  have hkind : paKind (2 ^ 51 + addr) = .window := by
    unfold paKind
    rw [dif_neg (by omega), if_pos (by omega)]
  rw [frameDie, hkind]

/-! ### A release of the only write there is (R407) -/

/-- The state with one inbound write. -/
def withWrite (s : State) (w : InWrite) : State := s.modHub fun h => { h with inWrites := [w] }

theorem modInWrite_alone {w : InWrite} (hw : s.hub.inWrites = [w]) (f : InWrite → InWrite) : modInWrite s w.id f = withWrite s (f w) := by
  unfold modInWrite withWrite State.modHub
  dsimp only
  rw [hw]
  simp [updateFirst]

theorem find?_alone {w : InWrite} (hw : s.hub.inWrites = [w]) : (s.hub.inWrites.find? fun x => x.id == w.id) = some w := by
  rw [hw]
  simp

theorem releaseRoute_alone {w : InWrite} {r : Route} (hw : s.hub.inWrites = [w]) (hr : w.routes = [r]) (hn : r.released = none)
    (ha : w.admitted = true) (hup : inboundUp s w.bar = true) :
    releaseRoute s w.id 0 = withWrite { s with nextReq := s.nextReq + 1 } { w with routes := [{ r with released := some s.nextReq }] } := by
  have hadmit : admitWrite s w = s := by rw [admitWrite, if_pos ha]
  have hbefore : (s.hub.inWrites.takeWhile fun e => e.id != w.id) = [] := by
    rw [hw]
    simp
  have hgo : (r.released.isNone && inboundUp s w.bar && mayRelease [] w r) = true := by
    rw [hn, hup, mayRelease, ha]
    simp
  unfold releaseRoute
  rw [find?_alone hw]
  dsimp only
  rw [hadmit, find?_alone hw]
  dsimp only
  rw [hbefore, hr]
  dsimp only [List.getElem?_cons_zero]
  rw [if_pos hgo]
  refine (modInWrite_alone (s := { s with nextReq := s.nextReq + 1 }) hw _).trans ?_
  rw [InWrite.setRoute, hr]
  rfl

theorem routeRelease_alone {w : InWrite} {r : Route} (hw : s.hub.inWrites = [w]) (hr : w.routes = [r]) (hn : r.released = none)
    (ha : w.admitted = true) (hup : inboundUp s w.bar = true) : ∃ t, exec (.routeRelease w.id 0) s = .next t ∧ SameData s t ∧
      t.hub.inWrites = [{ w with routes := [{ r with released := some s.nextReq }] }] := by
  refine ⟨_, (exec_routeRelease ..).trans (congrArg Host.Outcome.next (releaseRoute_alone hw hr hn ha hup)), ⟨rfl, rfl⟩, rfl⟩

/-- A route behind a write on another route waits for its acknowledgement. -/
theorem routeRelease_waits {e w : InWrite} {x r : Route} (hin : s.hub.inWrites = [e, w]) (hid : e.id ≠ w.id) (hr : w.routes = [r])
    (he : e.routes = [x]) (hx : x.acked = false) (ha : w.admitted = true) (hro : w.ro = false) (hcounts : countsFor w e = true)
    (hdie : x.die ≠ r.die) : exec (.routeRelease w.id 0) s = .next s := by
  have hfind : (s.hub.inWrites.find? fun y => y.id == w.id) = some w := by
    rw [hin]
    simp [hid]
  have hbefore : (s.hub.inWrites.takeWhile fun y => y.id != w.id) = [e] := by
    rw [hin]
    simp [hid]
  have hno : mayRelease [e] w r = false := by
    simp [mayRelease, ha, hro, hcounts, he, routeClear, hx, hdie]
  rw [exec_routeRelease, execRouteRelease, releaseRoute, hfind]
  dsimp only
  rw [admitWrite, if_pos ha, hfind]
  dsimp only
  rw [hbefore, hr]
  dsimp only [List.getElem?_cons_zero]
  rw [hno, Bool.and_false]
  rfl

/-! ### ROUTE_ACK (R406) -/

theorem dropPassed_kept {t : State} {w : InWrite} (h : t.hub.inWrites = [w]) (hp : w.passed = false) : dropPassed t = t := by
  unfold dropPassed State.modHub
  dsimp only
  rw [h]
  have hkeep : [w].filter (fun x => !x.passed) = [w] := by simp [hp]
  rw [hkeep, ← h]
  rfl

/-- A performed route is acknowledged, and its write leaves. -/
theorem routeAck_passes {w : InWrite} {r : Route} {n : Nat} (hw : s.hub.inWrites = [w]) (hr : w.routes = [r]) (hn : r.released = some n)
    (hp : r.performed = true) : ∃ t, exec (.routeAck w.id 0) s = .next t ∧ SameData s t ∧ t.hub.inWrites = [] := by
  have hexec : exec (.routeAck w.id 0) s =
      .next (dropPassed (withWrite s { w with routes := [{ r with acked := true }] })) := by
    rw [exec_routeAck, execRouteAck, find?_alone hw]
    dsimp only
    rw [hr]
    dsimp only [List.getElem?_cons_zero]
    rw [hn, hp, if_neg (by simp), if_pos rfl, modInWrite_alone hw, InWrite.setRoute, hr]
    rfl
  exact ⟨_, hexec, ⟨rfl, rfl⟩, rfl⟩

theorem keepInbound_unchanged (w : InWrite) (r : Route) :
    (keepInbound s w r).units = s.units ∧ (keepInbound s w r).hub.inWrites = s.hub.inWrites ∧
      (∀ d, (keepInbound s w r).die d = s.die d) ∧ SameDevice s (keepInbound s w r) := by
  unfold keepInbound
  split
  · exact ⟨rfl, rfl, fun _ => rfl, .refl s⟩
  · exact ⟨rfl, rfl, fun _ => rfl, .of_dir rfl rfl rfl rfl rfl⟩

/-- A released route of a cacheable piece writes it at its home. -/
theorem routeAck_performs {w : InWrite} {r : Route} {n : Nat} {d : DieNo} {p : InPiece} (hw : s.hub.inWrites = [w]) (hr : w.routes = [r])
    (hacked : r.acked = false) (hn : r.released = some n) (hp : r.performed = false) (hd : r.die = some d) (hpieces : r.pieces = [p])
    (hbar : w.bar = 4) (hpd : frameDie p.pa = some d) (hl : (s.die d).lost = false) (hsync : p.sync = false) (hpoison : w.poisoned = false)
    (hs : Canonical s) :
    ∃ t, exec (.routeAck w.id 0) s = .next t ∧ t.units = s.units ∧ t.hub.inWrites = [{ w with routes := [{ r with performed := true }] }] ∧
      (∀ i < p.bytes.length, deviceByte t (p.pa + i) p.key = p.bytes.getD i 0) ∧
      (∀ a, a < p.pa ∨ p.pa + p.bytes.length ≤ a → deviceByte t a p.key = deviceByte s a p.key) := by
  let v := keepInbound (withWrite s { w with routes := [{ r with performed := true }] }) w r
  obtain ⟨hunits, hwrites, hdie, hdevice⟩ := keepInbound_unchanged (s := withWrite s { w with routes := [{ r with performed := true }] }) w r
  have hbehind : routeBehind s r = false := by
    simp [routeBehind, hn, hw, hr, hp]
  have hmark : modInWrite s w.id (fun w => w.setRoute 0 fun r => { r with performed := true, acked := r.die.isNone }) =
      withWrite s { w with routes := [{ r with performed := true }] } := by
    rw [modInWrite_alone hw, InWrite.setRoute, hr]
    simp [hd, hacked]
  have hperform : r.pieces.foldlM (performPiece w) v = .ok (deviceWrite v p.pa p.bytes p.key) := by
    have hbar2 : w.bar ≠ 2 := by rw [hbar]; decide
    have hvl : (v.die d).lost = false := by
      rw [hdie]
      exact hl
    have hpiece : performPiece w v p = .ok (deviceWrite v p.pa p.bytes p.key) := by
      unfold performPiece
      dsimp only
      rw [if_neg hbar2, hpd]
      dsimp only
      rw [hvl, hsync, hpoison]
      rfl
    rw [hpieces, List.foldlM_cons, hpiece]
    rfl
  have hdev := deviceWrite_deviceOnly v p.pa p.bytes p.key
  have hleft : (deviceWrite v p.pa p.bytes p.key).hub.inWrites = [{ w with routes := [{ r with performed := true }] }] := by
    rw [hdev.hub]
    exact hwrites
  have hexec : exec (.routeAck w.id 0) s = .next (deviceWrite v p.pa p.bytes p.key) := by
    rw [exec_routeAck, execRouteAck, find?_alone hw]
    dsimp only
    rw [hr]
    dsimp only [List.getElem?_cons_zero]
    rw [hn, hp, if_neg (by simp), if_neg (by decide), hbehind, if_neg (by decide), hmark, hperform]
    dsimp only
    rw [dropPassed_kept hleft (by simp [InWrite.passed, hacked])]
  have hwf : Memory.wf v.mem = true := by
    rw [hdevice.mem]
    exact hs.1
  have hsame : SameDevice s v :=
    .trans (t := withWrite s { w with routes := [{ r with performed := true }] }) (.of_dir rfl rfl rfl rfl rfl) hdevice
  refine ⟨_, hexec, hdev.units.trans hunits, hleft, fun i hi => ?_, fun a ha => ?_⟩
  · rw [deviceByte_deviceWrite hwf, if_pos (by omega), Nat.add_sub_cancel_left]
  · rw [deviceByte_deviceWrite hwf, if_neg (by omega), hsame.byte]

/-! ### INBOUND_READ and its release (R408) -/

theorem inboundRead_waits {bar : BitVec 3} (hbar : bar ∈ [(0 : BitVec 3), 2, 4]) (hup : s.mod.hostUp = true) (addr len rq : Nat) :
    ∃ t r, exec (.inboundRead bar addr len false rq) s = .next t ∧ SameData s t ∧ t.hub.inReads = s.hub.inReads ++ [r] ∧ r.bar = bar ∧
      r.addr = addr ∧ r.len = len ∧ r.ap = s.hub.ap ∧ r.after = (s.hub.inWrites.filter fun w => !w.ro).map fun w => w.id := by
  have hne : bar ≠ 5 ∧ [0, 2, 4, 5].contains bar.toNat = true := by decide +revert
  obtain ⟨hne, hin⟩ := hne
  have hhost : inboundUp s bar = true := by
    rw [inboundUp, if_neg hne, hup]
  rw [exec_inboundRead, execInboundRead]
  dsimp only
  rw [hin, hhost, if_neg (by decide)]
  refine ⟨_, _, rfl, ⟨rfl, rfl⟩, rfl, rfl, rfl, rfl, if_neg hne, ?_⟩
  simp

section
variable {r : InRead} (hr : s.hub.inReads = [r]) (hbar : r.bar = 0) (hup : s.mod.hostUp = true)
include hr

theorem find?_read : (s.hub.inReads.find? fun x => x.id == r.id) = some r := by
  rw [hr]
  simp

theorem readRelease_waits (h : ∃ w ∈ s.hub.inWrites, w.id ∈ r.after) : exec (.inboundReadRelease r.id) s = .next s := by
  have hwait : (s.hub.inWrites.any fun w => r.after.contains w.id) = true := by
    obtain ⟨w, hw, hin⟩ := h
    exact List.any_eq_true.mpr ⟨w, hw, List.contains_iff_mem.mpr hin⟩
  rw [exec_inboundReadRelease, execInboundReadRelease, find?_read hr]
  dsimp only
  rw [hwait, Bool.true_or, if_pos rfl]

/-- The state without the read that is performed. -/
def withoutRead (s : State) (id : Nat) : State := s.modHub fun h => { h with inReads := h.inReads.filter fun x => x.id != id }

theorem withoutRead_reads : (withoutRead s r.id).hub.inReads = [] := by
  show s.hub.inReads.filter _ = []
  rw [hr]
  simp

omit hr in
theorem windowRead_withoutRead (id pa : Nat) : windowRead (withoutRead s id) pa = windowRead s pa := rfl

include hbar hup

omit hr in
/-- What lets a read of BAR0 go on. -/
theorem readRelease_goes (h : ∀ w ∈ s.hub.inWrites, w.id ∉ r.after) :
    (s.hub.inWrites.any (fun w => r.after.contains w.id) || !inboundUp s r.bar) = false ∧ (!readOpen s r) = false ∧
      (decide (r.bar = 0) || decide (r.bar = 2)) = true := by
  refine ⟨?_, ?_, ?_⟩
  · rw [inboundUp, hbar, if_neg (by decide), hup]
    simpa using h
  · rw [readOpen, hbar]
    rfl
  · rw [hbar]
    rfl

theorem readRelease_returns (h : ∀ w ∈ s.hub.inWrites, w.id ∉ r.after) (hok : barAligned 0 r.addr r.len = true) (hserve : serving s = true) :
    ∃ t, exec (.inboundReadRelease r.id) s = .next t ∧ SameData s t ∧ t.hub.inReads = [] ∧ t.hub.completions = s.hub.completions ++
      [{ id := r.id, ur := false, poisoned := false, data := leBytes (windowRead s (2 ^ 51 + r.addr)).toNat 8 }] := by
  obtain ⟨hwait, hopen, hbars⟩ := readRelease_goes hbar hup h
  have hread : readInbound (withoutRead s r.id) r =
      some (.ok (withoutRead s r.id, leBytes (windowRead s (2 ^ 51 + r.addr)).toNat 8, false)) := by
    have hgo : (barAligned 0 r.addr r.len && serving (withoutRead s r.id)) = true := by
      rw [hok]
      exact hserve
    rw [readInbound, if_pos hbar, if_pos hgo, windowRead_withoutRead]
  rw [exec_inboundReadRelease, execInboundReadRelease, find?_read hr]
  dsimp only
  rw [hwait, if_neg Bool.false_ne_true, hopen, if_neg Bool.false_ne_true, if_pos hbars]
  rw [withoutRead] at hread
  rw [hread]
  exact ⟨_, rfl, ⟨rfl, rfl⟩, withoutRead_reads hr, rfl⟩

theorem readRelease_refuses (h : ∀ w ∈ s.hub.inWrites, w.id ∉ r.after) (hbad : barAligned 0 r.addr r.len = false) :
    ∃ t, exec (.inboundReadRelease r.id) s = .next t ∧ SameData s t ∧ t.hub.inReads = [] ∧
      t.hub.completions = s.hub.completions ++ [{ id := r.id, ur := true, poisoned := false, data := [] }] := by
  obtain ⟨hwait, hopen, hbars⟩ := readRelease_goes hbar hup h
  have hread : readInbound (withoutRead s r.id) r = none := by
    rw [readInbound, if_pos hbar, hbad]
    rfl
  rw [exec_inboundReadRelease, execInboundReadRelease, find?_read hr]
  dsimp only
  rw [hwait, if_neg Bool.false_ne_true, hopen, if_neg Bool.false_ne_true, if_pos hbars]
  rw [withoutRead] at hread
  rw [hread]
  exact ⟨_, rfl, ⟨rfl, rfl⟩, withoutRead_reads hr, rfl⟩

end

/-! ### Outbound ends (R411, R413) -/

/-- A load that fails outside drops its entry, and POISON is due. -/
theorem outboundLoadTimeout_poisons {x : OutLoad} {u : UnitSt} {e : PEntry} {l : LoadInfo}
    (hx : s.hub.outLoads.find? (fun y => y.req == x.req) = some x) (hu : s.unit? x.uid = some u)
    (he : u.pend.find? (fun e => e.awaited && match e.load with | some l => l.req == x.req | none => false) = some e)
    (hl : e.load = some l) :
    ∃ t v, exec (.outboundLoadTimeout x.req) s = .next t ∧ t.mem = s.mem ∧ t.unit? x.uid = some v ∧ v.regs = u.regs ∧
      v.run.due = u.run.due ++ [⟨cPoison, l.va, 1#4 <<< e.slot.toNat, true, .core, e.slot, e.bundle⟩] ∧
      t.hub.outLoads = s.hub.outLoads.filter fun y => y.req != x.req := by
  let v := s.modHub fun h => { h with outLoads := h.outLoads.filter fun y => y.req != x.req }
  have hvu : v.unit? x.uid = some u := hu
  have hexec : exec (.outboundLoadTimeout x.req) s = .next (poisonArrival v x.uid e l) := by
    rw [exec_outboundLoadTimeout, execOutboundLoadTimeout, hx]
    dsimp only
    split
    · next e' he' =>
      have hsome := he'.symm.trans ((congrArg (Option.bind · _) hvu).trans he)
      cases Option.some.inj hsome
      rw [hl]
    · next hnone =>
      have hsome := hnone.symm.trans ((congrArg (Option.bind · _) hvu).trans he)
      cases hsome
  exact ⟨_, _, hexec, rfl, poisonArrival_unit hvu e l, rfl, rfl, rfl⟩

theorem outboundWriteAck_drops {u : Uid} {dest : Nat} (hup : destUp s dest = true) (hholds : destHolds s dest = false) :
    ∃ t, exec (.outboundWriteAck u dest) s = .next t ∧ SameData s t ∧
      t.hub.outWrites = s.hub.outWrites.filter fun w => !(w.uid == u && w.dest == dest) := by
  rw [exec_outboundWriteAck, execOutboundWriteAck, hup, hholds]
  exact ⟨_, rfl, ⟨rfl, rfl⟩, rfl⟩

/-! ### INBOUND_WRITE (R406) -/

theorem inboundWrite_refuses {addr : Nat} {data : List Byte} (hup : s.mod.hostUp = true)
    (hbad : (barAligned 0 addr data.length && serving s) = false) (ro ido : Bool) (rq : Nat) :
    ∃ t, exec (.inboundWrite 0 addr data ro ido false rq) s = .next t ∧ SameData s t ∧ t.hub = s.hub ∧
      t.mod.aerNonFatal = s.mod.aerNonFatal + 1 ∧ t.mod.errLog = s.mod.errLog ++ [(addr, 0)] := by
  have hhost : inboundUp s 0 = true := (if_neg (by decide)).trans hup
  have hnone : writePieces s 0 addr data = none := by
    rw [writePieces, if_pos rfl, hbad]
    rfl
  rw [exec_inboundWrite, execInboundWrite]
  dsimp only
  rw [hhost, hnone, if_neg (by decide)]
  exact ⟨_, rfl, ⟨rfl, rfl⟩, rfl, rfl, rfl⟩

/-- The piece of a write of BAR0. -/
def barPiece (addr : Nat) (data : List Byte) : InPiece := { va := 0, pa := 2 ^ 51 + addr, key := 0, sync := false, bytes := data }

theorem routesOf_barPiece {addr : Nat} (h : addr < 2 ^ 24) (data : List Byte) :
    routesOf [barPiece addr data] = [{ die := none, released := none, performed := false, acked := false, pieces := [barPiece addr data] }] := by
  have hdie : frameDie (barPiece addr data).pa = none := frameDie_window h
  unfold routesOf
  simp [hdie]

theorem addWrite_alone {w : InWrite} (h : s.hub.inWrites = []) :
    (s.modHub fun h => { h with inWrites := h.inWrites ++ [w] }) = withWrite s w := by
  unfold withWrite State.modHub
  dsimp only
  rw [h]
  rfl

theorem acceptWrite_alone {w : InWrite} {r : Route} (h : s.hub.inWrites = []) (hr : w.routes = [r]) (hd : r.die = none) :
    acceptWrite s w = releaseRoute (withWrite s w) w.id 0 := by
  unfold acceptWrite
  dsimp only
  rw [addWrite_alone h, hr, List.foldl_cons, hd]
  rfl

/-- A write of BAR0 that nothing is ahead of is released at once. -/
theorem inboundWrite_accepts {addr : Nat} {data : List Byte} (hup : s.mod.hostUp = true) (hok : barAligned 0 addr data.length = true)
    (hserve : serving s = true) (hempty : s.hub.inWrites = []) (ro ido : Bool) (rq : Nat) :
    ∃ t w r p, exec (.inboundWrite 0 addr data ro ido false rq) s = .next t ∧ SameData s t ∧ t.hub.inWrites = [w] ∧ w.bar = 0 ∧
      w.addr = addr ∧ w.data = data ∧ w.routes = [r] ∧ r.released.isSome ∧ r.performed = false ∧ r.pieces = [p] ∧
      p.pa = 2 ^ 51 + addr ∧ p.bytes = data := by
  have hhost : inboundUp s 0 = true := (if_neg (by decide)).trans hup
  have haddr : addr < 2 ^ 24 := by
    simp only [barAligned, Bool.and_eq_true, decide_eq_true_eq] at hok
    exact hok.2
  have hpieces : writePieces s 0 addr data = some (s, [barPiece addr data]) := by
    rw [writePieces, if_pos rfl, hok, hserve]
    rfl
  let r : Route := { die := none, released := none, performed := false, acked := false, pieces := [barPiece addr data] }
  let w : InWrite := { id := s.nextReq, bar := 0, addr := addr, data := data, ro := ro, ido := ido, requester := rq, poisoned := false,
                       asid := 0, admitted := true, routes := [r] }
  let v := withWrite { s with nextReq := s.nextReq + 1 } w
  have hexec : exec (.inboundWrite 0 addr data ro ido false rq) s = .next (releaseRoute v w.id 0) := by
    rw [exec_inboundWrite, execInboundWrite]
    dsimp only
    rw [hhost, hpieces, if_neg (by decide)]
    dsimp only
    rw [routesOf_barPiece haddr]
    exact congrArg Host.Outcome.next (acceptWrite_alone (s := { s with nextReq := s.nextReq + 1 }) (w := w) hempty rfl rfl)
  have hrelease := releaseRoute_alone (s := v) (w := w) (r := r) rfl rfl rfl rfl hhost
  rw [hrelease] at hexec
  exact ⟨_, _, _, _, hexec, ⟨rfl, rfl⟩, rfl, rfl, rfl, rfl, rfl, rfl, rfl, rfl, rfl, rfl⟩

/-! ### A write of the aperture (R404, R405) -/

/-- The writes agree but for their admission and the releases of their routes. -/
structure SameWrite (w v : InWrite) : Prop where
  id : v.id = w.id
  bar : v.bar = w.bar
  ro : v.ro = w.ro
  asid : v.asid = w.asid
  requester : v.requester = w.requester
  routes : ∀ r ∈ w.routes, ∃ r' ∈ v.routes, r'.pieces = r.pieces ∧ r'.die = r.die ∧ r'.performed = r.performed

namespace SameWrite

theorem refl (w : InWrite) : SameWrite w w := ⟨rfl, rfl, rfl, rfl, rfl, fun r hr => ⟨r, hr, rfl, rfl, rfl⟩⟩

theorem trans {w v x : InWrite} (h₁ : SameWrite w v) (h₂ : SameWrite v x) : SameWrite w x where
  id := h₂.id.trans h₁.id
  bar := h₂.bar.trans h₁.bar
  ro := h₂.ro.trans h₁.ro
  asid := h₂.asid.trans h₁.asid
  requester := h₂.requester.trans h₁.requester
  routes := fun r hr => by
    obtain ⟨r', hr', hpieces, hdie, hperformed⟩ := h₁.routes r hr
    obtain ⟨x, hx, hxp, hxd, hxf⟩ := h₂.routes r' hr'
    exact ⟨x, hx, hxp.trans hpieces, hxd.trans hdie, hxf.trans hperformed⟩

theorem setRoute (w : InWrite) (n k : Nat) : SameWrite w (w.setRoute n fun r => { r with released := some k }) where
  id := rfl
  bar := rfl
  ro := rfl
  asid := rfl
  requester := rfl
  routes := fun r hr => by
    obtain ⟨i, hi, rfl⟩ := List.getElem_of_mem hr
    have hi' : i < (w.setRoute n fun r => { r with released := some k }).routes.length := by simpa [InWrite.setRoute] using hi
    refine ⟨_, List.getElem_mem hi', ?_⟩
    simp only [InWrite.setRoute, List.getElem_modify]
    split
    · exact ⟨rfl, rfl, rfl⟩
    · exact ⟨rfl, rfl, rfl⟩

end SameWrite

/-- The state holds one inbound write, which agrees with `w`, and the units and memory of `s`. -/
structure Accepted (s : State) (w : InWrite) (t : State) : Prop where
  units : t.units = s.units
  mem : t.mem = s.mem
  write : ∃ v, t.hub.inWrites = [v] ∧ SameWrite w v

namespace Accepted

variable {t : State} {w : InWrite}

theorem of_eq {v : State} (h : Accepted s w t) (hu : v.units = t.units) (hm : v.mem = t.mem) (hw : v.hub.inWrites = t.hub.inWrites) :
    Accepted s w v := ⟨hu.trans h.units, hm.trans h.mem, by rw [hw]; exact h.write⟩

theorem modInWrite (h : Accepted s w t) {f : InWrite → InWrite} (hf : ∀ v, SameWrite v (f v)) : Accepted s w (modInWrite t w.id f) := by
  obtain ⟨hu, hm, v, hv, hsame⟩ := h
  rw [← hsame.id, modInWrite_alone hv]
  exact ⟨hu, hm, f v, rfl, hsame.trans (hf v)⟩

theorem admitWrite (h : Accepted s w t) {v : InWrite} (hv : v.id = w.id) : Accepted s w (admitWrite t v) := by
  unfold Machine.admitWrite
  split
  · exact h
  · split
    · rw [hv]
      refine Accepted.modInWrite ?_ fun v => ⟨rfl, rfl, rfl, rfl, rfl, fun r hr => ⟨r, hr, rfl, rfl, rfl⟩⟩
      exact h.of_eq rfl rfl rfl
    · exact h.of_eq rfl rfl rfl

theorem releaseRoute (h : Accepted s w t) (n : Nat) : Accepted s w (releaseRoute t w.id n) := by
  unfold Machine.releaseRoute
  split
  · exact h
  · next v hfound =>
    have hid : v.id = w.id := by simpa using List.find?_some hfound
    have hadmit := h.admitWrite hid
    dsimp only
    split
    · exact hadmit
    · split
      · exact hadmit
      · split
        · refine Accepted.modInWrite ?_ fun v => .setRoute v n _
          exact hadmit.of_eq rfl rfl rfl
        · exact hadmit

theorem foldl {α : Type} {f : State → α → State} (hf : ∀ t x, Accepted s w t → Accepted s w (f t x)) (h : Accepted s w t) (l : List α) :
    Accepted s w (l.foldl f t) := by
  induction l generalizing t with
  | nil => exact h
  | cons x l ih => exact ih (hf t x h)

end Accepted

theorem acceptWrite_accepted {w : InWrite} (h : s.hub.inWrites = []) : Accepted s w (acceptWrite s w) := by
  unfold acceptWrite
  dsimp only
  rw [addWrite_alone h]
  have hadded : Accepted s w (withWrite s w) := ⟨rfl, rfl, w, rfl, .refl w⟩
  refine .foldl (fun t n ht => ht.releaseRoute n) (hadded.foldl (fun t r ht => ?_) _) _
  split
  · exact ht.of_eq rfl rfl rfl
  · exact ht

/-- A translation for the front end sets a leaf's bits at most. -/
theorem feTranslate_deviceOnly {t : State} {a : BitVec 16} {va : Va} {acc : Access} {x : Nat × TlbEntry × Bool}
    (h : feTranslate s a va acc = some (t, x)) : DeviceOnly s t := by
  have hset (addr : Nat) (p : Word) (write : Bool) : DeviceOnly s (setAccDirty s addr p write) := by
    unfold setAccDirty
    dsimp only
    by_cases hsame : p.extractLsb' 0 8 ||| 0x20 ||| (if write then 0x40 else 0) = p.extractLsb' 0 8
    · rw [if_pos hsame]
      exact .refl s
    · rw [if_neg hsame]
      exact deviceWrite_deviceOnly ..
  unfold feTranslate at h
  split at h
  · cases h
  · split at h
    · cases h
    · dsimp only at h
      split at h
      · cases h
      · obtain ⟨-, hgo⟩ := Option.ite_none_left_eq_some.mp h
        cases hgo
        exact hset _ _ _

theorem inboundPieces_deviceOnly {a : Aperture} {acc : Access} {l : List (Va × Nat)} {bs : List Byte} {t : State}
    {out ps : List (InPiece × Bool)} (h : inboundPieces a acc l bs s out = some (t, ps)) : DeviceOnly s t := by
  induction l generalizing s bs out with
  | nil =>
    obtain ⟨rfl, -⟩ := Prod.mk.inj (Option.some.inj h)
    exact .refl _
  | cons x l ih =>
    rw [inboundPieces] at h
    split at h
    · cases h
    · next v pa e blank hv =>
      obtain ⟨-, hgo⟩ := Option.ite_none_right_eq_some.mp h
      exact (feTranslate_deviceOnly hv).trans (ih hgo)

theorem apertureAccess_deviceOnly {a : Aperture} {off : Nat} {bs : List Byte} {acc : Access} {t : State} {ps : List (InPiece × Bool)}
    (h : apertureAccess s a off bs acc = some (t, ps)) : DeviceOnly s t := by
  unfold apertureAccess at h
  split at h
  · exact inboundPieces_deviceOnly h
  · cases h

theorem mem_routesOf {ps : List InPiece} {p : InPiece} (h : p ∈ ps) :
    ∃ r ∈ routesOf ps, p ∈ r.pieces ∧ r.die = frameDie p.pa ∧ r.performed = false := by
  refine ⟨_, List.mem_map_of_mem (List.mem_dedup.mpr (List.mem_map_of_mem h)), ?_, rfl, rfl⟩
  simp [h]

/-- A write of the aperture that its pages allow stands at the ordering point, with a route for each home die. -/
theorem inboundWrite_aperture {s1 : State} {addr : Nat} {data : List Byte} {ps : List (InPiece × Bool)} (hup : s.mod.hostUp = true)
    (hps : apertureAccess s s.hub.ap addr data .write = some (s1, ps)) (hne : ps ≠ []) (hempty : s.hub.inWrites = []) (ro ido : Bool)
    (rq : Nat) :
    ∃ t w, exec (.inboundWrite 4 addr data ro ido false rq) s = .next t ∧ t.units = s1.units ∧ t.mem = s1.mem ∧ t.hub.inWrites = [w] ∧
      w.bar = 4 ∧ w.asid = s.hub.ap.asid ∧ w.ro = ro ∧ w.requester = rq ∧
      ∀ p ∈ ps.map Prod.fst, ∃ r ∈ w.routes, p ∈ r.pieces ∧ r.die = frameDie p.pa ∧ r.performed = false := by
  have hdev := apertureAccess_deviceOnly hps
  have hhost : inboundUp s 4 = true := (if_neg (by decide)).trans hup
  have hpieces : writePieces s 4 addr data = some (s1, ps.map Prod.fst) := by
    have hap : apertureOf s 4 = s.hub.ap := if_neg (by decide)
    rw [writePieces, if_neg (by decide), if_neg (by decide), hap, hps]
    rfl
  have hsome : (ps.map Prod.fst).isEmpty = false := by simpa using hne
  let w : InWrite := { id := s1.nextReq, bar := 4, addr := addr, data := data, ro := ro, ido := ido, requester := rq, poisoned := false,
                       asid := inboundAsid s1 4, admitted := false, routes := routesOf (ps.map Prod.fst) }
  have hexec : exec (.inboundWrite 4 addr data ro ido false rq) s = .next (acceptWrite { s1 with nextReq := s1.nextReq + 1 } w) := by
    rw [exec_inboundWrite, execInboundWrite]
    dsimp only
    rw [hhost, hpieces, if_neg (by decide)]
    dsimp only
    rw [hsome, if_neg (by decide), if_neg (by decide)]
    rfl
  have hasid : inboundAsid s1 4 = s.hub.ap.asid := by
    have hap : inboundAsid s1 4 = s1.hub.ap.asid := rfl
    rw [hap, hdev.hub]
  have hnone : s1.hub.inWrites = [] := by
    rw [hdev.hub]
    exact hempty
  obtain ⟨hunits, hmem, v, hv, hsame⟩ := acceptWrite_accepted (s := { s1 with nextReq := s1.nextReq + 1 }) (w := w) hnone
  refine ⟨_, v, hexec, hunits, hmem, hv, hsame.bar, hsame.asid.trans hasid, hsame.ro, hsame.requester, fun p hp => ?_⟩
  obtain ⟨r, hr, hin, hdie, hnew⟩ := mem_routesOf hp
  obtain ⟨r', hr', hpieces', hdie', hperformed⟩ := hsame.routes r hr
  exact ⟨r', hr', by rw [hpieces']; exact hin, hdie'.trans hdie, hperformed.trans hnew⟩

/-- Settles O60: each request changes its own place at the ordering point, or the bytes of its piece. -/
theorem hostPortEvents : Obligations.HostPortEvents := by
  refine ⟨fun s addr data ro ido rq hup => ⟨fun h => inboundWrite_refuses hup h ro ido rq,
      fun hok hserve hempty => inboundWrite_accepts hup hok hserve hempty ro ido rq,
      fun s1 ps hps hne hempty => inboundWrite_aperture hup hps hne hempty ro ido rq⟩,
    fun s w r hw hr hacked => ⟨fun hn ha hup => routeRelease_alone hw hr hn ha hup,
      fun n d p hn hp hd hpieces hbar hpd hl hsync hpoison hs => routeAck_performs hw hr hacked hn hp hd hpieces hbar hpd hl hsync hpoison hs,
      fun n hn hp => routeAck_passes hw hr hn hp⟩,
    fun s e w x r hin hid hr hn he hx ha hro hcounts hdie => routeRelease_waits hin hid hr he hx ha hro hcounts hdie,
    fun s bar addr len rq hbar hup => inboundRead_waits hbar hup addr len rq,
    fun s r hr hbar hup => ⟨readRelease_waits hr, fun h => ⟨readRelease_returns hr hbar hup h, readRelease_refuses hr hbar hup h⟩⟩,
    fun s x u e l hx hu he hl => outboundLoadTimeout_poisons hx hu he hl,
    fun s u dest hup hholds => outboundWriteAck_drops hup hholds⟩

end Sys2Proof.HostTraffic
end

section
/-! PROOFS.
What a die does with each message of the hub (R296, R297, R299, R300, R306): fills, invalidations, forwards, answered Puts, pushes and
redirect entries. -/

-- One proof at a time: the check of the whole text has a limit on memory, which many threads would reach.
set_option Elab.async false

namespace Sys2Proof.DieSide

open Sys2Proof.Machine Sys2Proof.Safety Sys2Proof.DeviceStep Sys2Proof.Prompter

variable {s : State} {d : DieNo} {line : Nat} {m : Msg}

/-! ### A message delivered -/

theorem headMsg_some {k : MsgKind} {down : Bool} (h : headMsg s k d line down = some m) : m.die = d ∧ m.line = line := by
  unfold headMsg at h
  split at h
  · next x hx =>
    split at h
    · next hgo =>
      cases h
      have hdie := List.find?_some hx
      simp only [Bool.and_eq_true, beq_iff_eq] at hdie hgo
      exact ⟨hdie.1, hgo.1.2⟩
    · cases h
  · cases h

theorem deliver_head {k : MsgKind} {down : Bool} (h : headMsg s k d line down = some m) (f : State → Msg → State) :
    deliver s k d line down f = f (popMsg s m) m := by
  rw [deliver, h]

theorem popMsg_after (s : State) (m : Msg) : NetAfter s (popMsg s m) m [] := (List.append_nil _).symm

/-- One more message behind the message delivered. -/
theorem sendMsg_after {t : State} {out : List Msg} (h : NetAfter s t m out) (x : Msg) : NetAfter s (sendMsg t x) m (out ++ [x]) := by
  rw [NetAfter] at h
  show t.hub.dir.net ++ [x] = _
  rw [h, List.append_assoc]

/-! ### Fills (R296) -/

theorem fillSlice_isD {t : State} {l : SliceLine} (hl : sliceLine? (t.die d) line = some l) (hst : l.st = .isD) (hm : m.line = line)
    (st : SliceState) : fillSlice t d m st =
      setSliceLine t d { l with st := st, data := m.data, base := m.data, poison := m.poison, dirty := 0, key := m.key } := by
  rw [fillSlice, hm, hl]
  dsimp only
  rw [hst]

theorem fillSlice_waits {t : State} {l : SliceLine} (hl : sliceLine? (t.die d) line = some l)
    (hst : l.st = .imD ∨ l.st = .imW ∨ l.st = .smW) (hm : m.line = line) {st : SliceState} (h : st = .m ∨ st = .e) :
    fillSlice t d m st = setSliceLine t d { l with st := .m, data := mergeLine m.data l.data l.dirty, base := m.data,
                                                   poison := m.poison && !(l.dirty == BitVec.allOnes 128) } := by
  have hgo : (st = .m || st = .e) = true := by simpa using h
  rw [fillSlice, hm, hl]
  dsimp only
  rcases hst with hst | hst | hst <;> rw [hst] <;> exact if_pos hgo

/-! ### A line's bytes merged under a mask -/

theorem getLsbD_byteMask (k : Nat) {j : Nat} (hj : j < 1024) :
    ((0xFF#1024) <<< (8 * k)).getLsbD j = decide (8 * k ≤ j ∧ j < 8 * k + 8) := by
  have hmask : ∀ i, i < 1024 → (0xFF#1024).getLsbD i = decide (i < 8) := fun i hi => by
    have h : (0xFF#1024).getLsbD i = (2 ^ 8 - 1).testBit i := by
      rw [BitVec.getLsbD_ofNat, decide_eq_true hi]
      rfl
    rw [h, Nat.testBit_two_pow_sub_one]
  rw [BitVec.getLsbD_shiftLeft, hmask _ (by omega), decide_eq_true hj]
  by_cases h : j < 8 * k
  · simp [h]
  · simp only [h, decide_false, Bool.not_false, Bool.true_and]
    congr 1
    exact propext (by omega)

theorem getLsbD_foldl_byteMask (dirty : BitVec 128) (l : List Nat) (acc : BitVec 1024) {j : Nat} (hj : j < 1024) :
    (l.foldl (fun acc k => if dirty.getLsbD k then acc ||| ((0xFF#1024) <<< (8 * k)) else acc) acc).getLsbD j =
      (acc.getLsbD j || l.any fun k => dirty.getLsbD k && decide (8 * k ≤ j ∧ j < 8 * k + 8)) := by
  induction l generalizing acc with
  | nil => simp
  | cons k l ih =>
    rw [List.foldl_cons, ih, List.any_cons, ← Bool.or_assoc]
    congr 1
    cases dirty.getLsbD k with
    | false => simp
    | true => rw [if_pos rfl, BitVec.getLsbD_or, getLsbD_byteMask k hj, Bool.true_and]

theorem getLsbD_spreadMask (dirty : BitVec 128) {j : Nat} (hj : j < 1024) : (spreadMask dirty).getLsbD j = dirty.getLsbD (j / 8) := by
  rw [spreadMask, getLsbD_foldl_byteMask dirty _ 0 hj]
  have hany : ((List.range 128).any fun k => dirty.getLsbD k && decide (8 * k ≤ j ∧ j < 8 * k + 8)) = dirty.getLsbD (j / 8) := by
    rw [Bool.eq_iff_iff, List.any_eq_true]
    constructor
    · rintro ⟨k, -, hk⟩
      simp only [Bool.and_eq_true, decide_eq_true_eq] at hk
      obtain ⟨hdirty, hrange⟩ := hk
      rw [show j / 8 = k by omega, hdirty]
    · intro hdirty
      exact ⟨j / 8, List.mem_range.mpr (by omega), by simp only [Bool.and_eq_true, decide_eq_true_eq]; exact ⟨hdirty, by omega⟩⟩
  rw [hany]
  simp

/-- The waiting bytes over the rest of the line. -/
theorem lineByte_mergeLine (base new : BitVec 1024) (dirty : BitVec 128) {i : Nat} (hi : i < 128) :
    lineByte (mergeLine base new dirty) i = if dirty.getLsbD i then lineByte new i else lineByte base i := by
  apply BitVec.eq_of_getLsbD_eq
  intro k hk
  have hbit : (mergeLine base new dirty).getLsbD (8 * i + k) =
      if dirty.getLsbD i then new.getLsbD (8 * i + k) else base.getLsbD (8 * i + k) := by
    simp only [mergeLine, BitVec.getLsbD_or, BitVec.getLsbD_and, BitVec.getLsbD_not, getLsbD_spreadMask dirty (j := 8 * i + k) (by omega),
      show (8 * i + k) / 8 = i by omega, decide_eq_true (show 8 * i + k < 1024 by omega)]
    cases dirty.getLsbD i <;> simp
  simp only [lineByte, apply_ite (BitVec.getLsbD · k), BitVec.getLsbD_extractLsb', hbit, decide_eq_true hk, Bool.true_and]

/-! ### The clauses -/

section
variable {l : SliceLine} (hl : sliceLine? (s.die d) line = some l)
include hl

section
variable {k : MsgKind} {i : Instr} {f : State → Msg → State} {st : SliceState}
  (hexec : exec i s = .next (deliver s k d line true f)) (hf : f (popMsg s m) m = fillSlice (popMsg s m) d m st)
  (h : headMsg s k d line true = some m)
include hexec hf h

/-- A fill of a line that waits to be read (R297). -/
theorem fill_read (hst : l.st = .isD) : ∃ t, exec i s = .next t ∧ SameData s t ∧ NetAfter s t m [] ∧
    sliceLine? (t.die d) line = some { l with st := st, data := m.data, base := m.data, poison := m.poison, dirty := 0, key := m.key } := by
  obtain ⟨-, hm⟩ := headMsg_some h
  have hline : l.line = line := by simpa using List.find?_some hl
  rw [deliver_head h, hf, fillSlice_isD (t := popMsg s m) hl hst hm] at hexec
  exact ⟨_, hexec, ⟨rfl, rfl⟩, popMsg_after s m, sliceLine?_setSliceLine _ d hline⟩

/-- A fill of a line that waits to be written: the bytes that wait are merged over it (R296). -/
theorem fill_write (hst : l.st = .imD ∨ l.st = .imW ∨ l.st = .smW) (hto : st = .m ∨ st = .e) :
    ∃ t l', exec i s = .next t ∧ SameData s t ∧ NetAfter s t m [] ∧ sliceLine? (t.die d) line = some l' ∧ l'.st = .m ∧ l'.base = m.data ∧
      ∀ i < 128, lineByte l'.data i = if l.dirty.getLsbD i then lineByte l.data i else lineByte m.data i := by
  obtain ⟨-, hm⟩ := headMsg_some h
  have hline : l.line = line := by simpa using List.find?_some hl
  rw [deliver_head h, hf, fillSlice_waits (t := popMsg s m) hl hst hm hto] at hexec
  exact ⟨_, _, hexec, ⟨rfl, rfl⟩, popMsg_after s m, sliceLine?_setSliceLine _ d hline, rfl, rfl,
    fun i hi => lineByte_mergeLine m.data l.data l.dirty hi⟩

end

theorem datanf_drops (hst : l.st = .isD) (h : headMsg s .dataNF d line true = some m) :
    ∃ t, exec (.datanf d line) s = .next t ∧ SameData s t ∧ NetAfter s t m [] ∧ sliceLine? (t.die d) line = none := by
  have hexec : exec (.datanf d line) s = .next (dropSliceLine (popMsg s m) d line) := by
    rw [exec_datanf, execDatanf, deliver_head h]
    have hpop : sliceLine? ((popMsg s m).die d) line = some l := hl
    rw [hpop]
    dsimp only
    rw [hst]
    rfl
  exact ⟨_, hexec, ⟨rfl, rfl⟩, popMsg_after s m, sliceLine?_dropSliceLine _ d line⟩

theorem upgack_enters (hst : l.st = .smW) (h : headMsg s .upgAck d line true = some m) :
    ∃ t, exec (.upgack d line) s = .next t ∧ SameData s t ∧ NetAfter s t m [] ∧
      sliceLine? (t.die d) line = some { l with st := .m, dirty := 0, poison := l.poison && l.dirty != BitVec.allOnes 128 } := by
  have hline : l.line = line := by simpa using List.find?_some hl
  have hexec : exec (.upgack d line) s = .next (setSliceLine (popMsg s m) d
      { l with st := .m, dirty := 0, poison := l.poison && l.dirty != BitVec.allOnes 128 }) := by
    rw [exec_upgack, execUpgack, deliver_head h]
    have hpop : sliceLine? ((popMsg s m).die d) line = some l := hl
    rw [hpop]
    dsimp only
    rw [hst]
    rfl
  exact ⟨_, hexec, ⟨rfl, rfl⟩, popMsg_after s m, sliceLine?_setSliceLine _ d hline⟩

/-- What an Inv makes of a copy (R299). -/
def invalidated (s : State) (d : DieNo) (line : Nat) (l : SliceLine) : State :=
  match l.st with
  | .smW => setSliceLine s d { l with st := .imW }
  | .imW | .imD | .isD | .iiA => s
  | .siA | .oiA | .eiA | .miA => setSliceLine s d { l with st := .iiA }
  | _ => dropSliceLine s d line

omit hl in
theorem invalidated_rest (t : State) (l : SliceLine) : SameData t (invalidated t d line l) ∧
    (invalidated t d line l).hub.dir.net = t.hub.dir.net := by
  unfold invalidated
  split <;> exact ⟨⟨rfl, rfl⟩, rfl⟩

theorem inv_answers (h : headMsg s .inv d line true = some m) :
    ∃ t, exec (.inv d line) s = .next t ∧ SameData s t ∧ NetAfter s t m [reqMsg .invAck d line 0 0 0 false] ∧
      (l.st = .s ∨ l.st = .o → sliceLine? (t.die d) line = none) ∧
      (l.st = .smW → sliceLine? (t.die d) line = some { l with st := .imW }) := by
  have hline : l.line = line := by simpa using List.find?_some hl
  let v := sendMsg (popMsg s m) (reqMsg .invAck d line 0 0 0 false)
  have hexec : exec (.inv d line) s = .next (invalidated v d line l) := by
    rw [exec_inv, execInv, deliver_head h]
    have hpop : sliceLine? (v.die d) line = some l := hl
    dsimp only
    rw [hpop]
    rfl
  obtain ⟨hdata, hnet⟩ := invalidated_rest (d := d) (line := line) v l
  refine ⟨_, hexec, hdata, hnet.trans (sendMsg_after (popMsg_after s m) _), fun hst => ?_, fun hst => ?_⟩
  · have hdrop : invalidated v d line l = dropSliceLine v d line := by
      rcases hst with hst | hst <;> rw [invalidated, hst]
    rw [hdrop]
    exact sliceLine?_dropSliceLine v d line
  · rw [invalidated, hst]
    exact sliceLine?_setSliceLine v d hline

/-! ### Forwards (R300) -/

omit hl in
theorem deviceCopy_popMsg {l : SliceLine} (hst : l.st = .e ∨ l.st = .o ∨ l.st = .m) : deviceCopy (popMsg s m) d l = deviceCopy s d l := by
  have hwaits : l.st.waits = false := by
    rcases hst with hst | hst | hst <;> rw [hst] <;> rfl
  have hgranting : granting (popMsg s m) d l.line = granting s d l.line := rfl
  rw [deviceCopy, deviceCopy, bytesWait, bytesWait, hwaits, hgranting, Bool.false_and, Bool.false_and]

theorem forwardData_popMsg (hst : l.st = .e ∨ l.st = .o ∨ l.st = .m) : forwardData (popMsg s m) d line = (deviceCopy s d l, l.poison) := by
  have hpop : sliceLine? ((popMsg s m).die d) line = some l := hl
  rw [forwardData, hpop, ← deviceCopy_popMsg (m := m) hst]

/-- What a forward finds behind the data that it has sent. -/
theorem slice_popMsg : sliceLine? ((popMsg s m).die d) line = some l := hl

/-- A forward to a writer gives the line up. -/
theorem fwdgetm_gives (hst : l.st = .e ∨ l.st = .o ∨ l.st = .m) (h : headMsg s .fwdGetM d line true = some m) :
    ∃ t, exec (.fwdgetm d line) s = .next t ∧ SameData s t ∧
      NetAfter s t m [dataTo .fwdData m.req line (deviceCopy s d l, l.poison) m.key, reqMsg .fwdAck d line 0 0 0 false] ∧
      sliceLine? (t.die d) line = none := by
  let v := sendMsg (popMsg s m) (dataTo .fwdData m.req line (deviceCopy s d l, l.poison) m.key)
  have hexec : exec (.fwdgetm d line) s = .next (sendMsg (dropSliceLine v d line) (reqMsg .fwdAck d line 0 0 0 false)) := by
    rw [exec_fwdgetm, execFwdgetm, deliver_head h]
    dsimp only
    rw [forwardData_popMsg hl hst, die_sendMsg, slice_popMsg hl]
    dsimp only
    rcases hst with hst | hst | hst <;> rw [hst] <;> rfl
  have hnet : NetAfter s (dropSliceLine v d line) m [dataTo .fwdData m.req line (deviceCopy s d l, l.poison) m.key] :=
    sendMsg_after (popMsg_after s m) _
  exact ⟨_, hexec, ⟨rfl, rfl⟩, sendMsg_after hnet _, sliceLine?_dropSliceLine v d line⟩

/-- A forward to a reader that does not fill leaves the copy. -/
theorem fwdgetsnf_reads (hst : l.st = .e ∨ l.st = .o ∨ l.st = .m) (h : headMsg s .fwdGetSNF d line true = some m) :
    ∃ t, exec (.fwdgetsnf d line) s = .next t ∧ SameData s t ∧
      NetAfter s t m [dataTo .dataNF m.req line (deviceCopy s d l, l.poison) m.key, reqMsg .fwdAck d line 0 0 0 false] ∧
      sliceLine? (t.die d) line = some l := by
  have hexec : exec (.fwdgetsnf d line) s = .next (sendMsg (sendMsg (popMsg s m)
      (dataTo .dataNF m.req line (deviceCopy s d l, l.poison) m.key)) (reqMsg .fwdAck d line 0 0 0 false)) := by
    rw [exec_fwdgetsnf, execFwdgetsnf, deliver_head h]
    dsimp only
    rw [forwardData_popMsg hl hst]
    rfl
  exact ⟨_, hexec, ⟨rfl, rfl⟩, sendMsg_after (sendMsg_after (popMsg_after s m) _) _, hl⟩

/-- The data that a forward to a reader sends; a push has the directory's own. -/
def sharedData (s : State) (d : DieNo) (line : Nat) (l : SliceLine) (m : Msg) : List Msg :=
  if m.shared then [] else [{ dataTo .fwdData m.req line (deviceCopy s d l, l.poison) m.key with shared := true }]

/-- A forward to a reader leaves the copy in O. -/
theorem fwdgets_shares (hst : l.st = .e ∨ l.st = .o ∨ l.st = .m) (h : headMsg s .fwdGetS d line true = some m) :
    ∃ t, exec (.fwdgets d line) s = .next t ∧ SameData s t ∧
      NetAfter s t m (sharedData s d line l m ++ [reqMsg .fwdAck d line 0 0 0 false]) ∧
      sliceLine? (t.die d) line = some { l with st := .o } := by
  have hline : l.line = line := by simpa using List.find?_some hl
  let v := if m.shared then popMsg s m
    else sendMsg (popMsg s m) { dataTo .fwdData m.req line (deviceCopy s d l, l.poison) m.key with shared := true }
  have hvdie : v.die d = s.die d := by
    dsimp only [v]
    split <;> rfl
  have hv : sliceLine? (v.die d) line = some l := by rw [hvdie, hl]
  have hvnet : NetAfter s v m (sharedData s d line l m) := by
    dsimp only [v, sharedData]
    split
    · exact popMsg_after s m
    · exact sendMsg_after (popMsg_after s m) _
  have hvdata : SameData s v := by
    dsimp only [v]
    split <;> exact ⟨rfl, rfl⟩
  let w := if l.st == .m || l.st == .e then setSliceLine v d { l with st := .o } else v
  have hexec : exec (.fwdgets d line) s = .next (sendMsg w (reqMsg .fwdAck d line 0 0 0 false)) := by
    rw [exec_fwdgets, execFwdgets, deliver_head h]
    dsimp only
    rw [forwardData_popMsg hl hst]
    have hsent : ∀ x : State, x = v → (match sliceLine? (x.die d) line with
        | some l => if l.st == .m || l.st == .e then setSliceLine x d { l with st := .o } else x
        | none => x) = w := by
      rintro x rfl
      rw [hv]
    exact congrArg (fun x => Host.Outcome.next (sendMsg x (reqMsg .fwdAck d line 0 0 0 false))) (hsent v rfl)
  have hw : SameData v w ∧ w.hub.dir.net = v.hub.dir.net ∧ sliceLine? (w.die d) line = some { l with st := .o } := by
    dsimp only [w]
    split
    · exact ⟨⟨rfl, rfl⟩, rfl, sliceLine?_setSliceLine v d hline⟩
    · next hno =>
      have ho : l.st = .o := by
        rcases hst with hst | hst | hst
        · exact absurd (by rw [hst]; rfl) hno
        · exact hst
        · exact absurd (by rw [hst]; rfl) hno
      have hsame : ({ l with st := .o } : SliceLine) = l := by rw [← ho]
      exact ⟨⟨rfl, rfl⟩, rfl, hv.trans (congrArg some hsame.symm)⟩
  obtain ⟨⟨hunits, hmem⟩, hnet, hafter⟩ := hw
  exact ⟨_, hexec, ⟨hunits.trans hvdata.1, hmem.trans hvdata.2⟩, sendMsg_after (hnet.trans hvnet) _, hafter⟩

/-! ### Answered Puts (R300) -/

theorem putAnswered_drops (hst : l.st ∈ [SliceState.miA, .oiA, .eiA, .siA, .iiA]) :
    putAnswered (popMsg s m) d line = dropSliceLine (popMsg s m) d line := by
  rw [putAnswered, slice_popMsg hl]
  dsimp only
  simp only [List.mem_cons, List.not_mem_nil, or_false] at hst
  rcases hst with hst | hst | hst | hst | hst <;> rw [hst]

theorem put_leaves (hst : l.st ∈ [SliceState.miA, .oiA, .eiA, .siA, .iiA]) {k : MsgKind} {i : Instr}
    (hexec : exec i s = .next (deliver s k d line true fun s _ => putAnswered s d line)) (h : headMsg s k d line true = some m) :
    ∃ t, exec i s = .next t ∧ SameData s t ∧ NetAfter s t m [] ∧ sliceLine? (t.die d) line = none := by
  rw [deliver_head h, putAnswered_drops hl hst] at hexec
  exact ⟨_, hexec, ⟨rfl, rfl⟩, popMsg_after s m, sliceLine?_dropSliceLine _ d line⟩

end

/-! ### Pushes and redirect entries (R306, R307) -/

/-- A message under way stays while room is made. -/
theorem mem_net_makeRoom {x : Msg} (h : x ∈ s.hub.dir.net) : x ∈ (makeRoom s d line).hub.dir.net := by
  have hfold (l : List SliceLine) {t : State} (ht : x ∈ t.hub.dir.net) : x ∈ (l.foldl (evict d) t).hub.dir.net := by
    induction l generalizing t with
    | nil => exact ht
    | cons y l ih => exact ih (List.mem_append_left _ ht)
  exact hfold _ h

theorem push_installs (hl : sliceLine? (s.die d) line = none) (h : headMsg s .push d line true = some m) :
    ∃ t l, exec (.push d line) s = .next t ∧ SameData s t ∧ reqMsg .pushAck d line 0 0 0 false ∈ t.hub.dir.net ∧
      sliceLine? (t.die d) line = some l ∧ l.st = .s ∧ l.data = m.data ∧ l.poison = m.poison ∧ l.helper = true := by
  let v := sendMsg (popMsg s m) (reqMsg .pushAck d line 0 0 0 false)
  let l : SliceLine := { line := line, st := .s, data := m.data, base := 0, dirty := 0, key := m.key, poison := m.poison, helper := true }
  have hexec : exec (.push d line) s = .next (setSliceLine (makeRoom v d line) d l) := by
    rw [exec_push, execPush, deliver_head h]
    have hpop : sliceLine? (v.die d) line = none := hl
    dsimp only
    rw [hpop]
  refine ⟨_, l, hexec, ⟨(makeRoom_deviceOnly v d line).units, makeRoom_mem v d line⟩, ?_, sliceLine?_setSliceLine _ d rfl, rfl, rfl, rfl, rfl⟩
  exact mem_net_makeRoom (List.mem_append_right _ List.mem_cons_self)

/-- An interface's redirect entries behind a new one: of a full interface the one used least recently leaves. -/
def withRedirect (l : List Redirect) (r : Redirect) : List Redirect :=
  (if (l.filter fun x => x.line != r.line).length < 256 then l.filter fun x => x.line != r.line
    else (l.filter fun x => x.line != r.line).drop 1) ++ [r]

theorem find?_withRedirect (l : List Redirect) (r : Redirect) : (withRedirect l r).find? (fun x => x.line == r.line) = some r := by
  have hnone : ∀ x ∈ (if (l.filter fun x => x.line != r.line).length < 256 then l.filter fun x => x.line != r.line
      else (l.filter fun x => x.line != r.line).drop 1), (x.line == r.line) = false := by
    intro x hx
    have hin : x ∈ l.filter fun x => x.line != r.line := by
      split at hx
      · exact hx
      · exact List.mem_of_mem_drop hx
    simpa using (List.mem_filter.mp hin).2
  rw [withRedirect, List.find?_append, List.find?_eq_none.mpr fun x hx => by simpa using hnone x hx]
  simp

theorem length_withRedirect (l : List Redirect) (r : Redirect) : (withRedirect l r).length ≤ max 256 l.length := by
  have hle := List.length_filter_le (fun x : Redirect => x.line != r.line) l
  rw [withRedirect, List.length_append, List.length_singleton]
  split
  · omega
  · rw [List.length_drop]
    omega

theorem rdset_installs (h : headMsg s .rdSet d line true = some m) :
    ∃ t, exec (.rdset d line) s = .next t ∧ SameData s t ∧ NetAfter s t m [reqMsg .rdAck d line 0 0 0 false] ∧
      redirect? t d line = some ⟨line, m.helper⟩ ∧ (t.die d).redirects.length ≤ max 256 (s.die d).redirects.length := by
  have hexec : exec (.rdset d line) s = .next (sendMsg ((popMsg s m).modDie d fun x =>
      { x with redirects := withRedirect x.redirects ⟨line, m.helper⟩ }) (reqMsg .rdAck d line 0 0 0 false)) := by
    rw [exec_rdset, execRdset, deliver_head h]
    rfl
  refine ⟨_, hexec, ⟨rfl, rfl⟩, sendMsg_after (popMsg_after s m) _, ?_, ?_⟩
  · rw [redirect?, die_sendMsg, State.die_modDie_self]
    exact find?_withRedirect _ ⟨line, m.helper⟩
  · rw [die_sendMsg, State.die_modDie_self]
    exact length_withRedirect _ _

theorem rdinv_removes (h : headMsg s .rdInv d line true = some m) :
    ∃ t, exec (.rdinv d line) s = .next t ∧ SameData s t ∧ NetAfter s t m [reqMsg .rdAck d line 0 0 0 false] ∧ redirect? t d line = none := by
  have hexec : exec (.rdinv d line) s = .next (sendMsg ((popMsg s m).modDie d fun x =>
      { x with redirects := x.redirects.filter fun r => r.line != line }) (reqMsg .rdAck d line 0 0 0 false)) := by
    rw [exec_rdinv, execRdinv, deliver_head h]
  refine ⟨_, hexec, ⟨rfl, rfl⟩, sendMsg_after (popMsg_after s m) _, ?_⟩
  rw [redirect?, die_sendMsg, State.die_modDie_self]
  simp

/-- Settles O56: each message changes the slice's copy, or the interface's redirect entry, that it names, and sends its answer. -/
theorem dieMessages : Obligations.DieMessages := by
  intro s d line m
  refine ⟨fun l hl hst => ⟨?_, fun h => fill_read hl (exec_fwddata s) rfl h hst, fun h => datanf_drops hl hst h⟩,
    fun l hl hst => ?_, fun l hl hst h => upgack_enters hl hst h, fun l hl h => inv_answers hl h,
    fun l hl hst => ⟨fun h => fwdgets_shares hl hst h, fun h => fwdgetsnf_reads hl hst h, fun h => fwdgetm_gives hl hst h⟩,
    fun l hl hst => ?_, fun hl h => push_installs hl h, rdset_installs, rdinv_removes⟩
  · refine List.forall_mem_cons.mpr ⟨?_, List.forall_mem_cons.mpr ⟨?_, List.forall_mem_singleton.mpr ?_⟩⟩
    · exact fun h => fill_read hl (exec_dataS s) rfl h hst
    · exact fun h => fill_read hl (exec_dataE s) rfl h hst
    · exact fun h => fill_read hl (exec_dataM s) rfl h hst
  · refine List.forall_mem_cons.mpr ⟨?_, List.forall_mem_cons.mpr ⟨?_, List.forall_mem_singleton.mpr ?_⟩⟩
    · exact fun h _ => fill_write hl (exec_dataM s) rfl h hst (.inl rfl)
    · exact fun h hm => fill_write hl (exec_fwddata s) rfl h hst (.inl (by rw [hm]; rfl))
    · exact fun h _ => fill_write hl (exec_dataE s) rfl h hst (.inr rfl)
  · refine List.forall_mem_cons.mpr ⟨fun h => ?_, List.forall_mem_singleton.mpr fun h => ?_⟩
    · exact put_leaves hl hst (exec_putack s) h
    · exact put_leaves hl hst (exec_putackstale s) h

end Sys2Proof.DieSide
end

section
/-! PROOFS.
The directory's own steps (R298 to R306): what a request, an acknowledgement and a coming to rest leave of a line's entry, of the messages
under way and of the rest of the machine. -/

-- One proof at a time: the check of the whole text has a limit on memory, which many threads would reach.
set_option Elab.async false

namespace Sys2Proof.DirectorySteps

open Sys2Proof.Machine Sys2Proof.Safety Sys2Proof.DeviceStep Sys2Proof.Walks

/-! ### Entries stored (R294) -/

/-- An entry that the directory need not keep. -/
def plainEntry (e : DirEntry) : Bool := e.st == .i && e.queue.isEmpty && e.redirects == 0 && e.cur.isNone && e.late.isEmpty

theorem dirEntry?_setEntry_other {s : State} {e : DirEntry} {line : Nat} (h : e.line ≠ line) :
    dirEntry? (setEntry s e) line = dirEntry? s line := by
  have hl : (e.line == line) = false := beq_eq_false_iff_ne.mpr h
  show (if plainEntry e then s.hub.dir.entries.filter (fun x => x.line != e.line)
    else upsert (fun x => x.line == e.line) e s.hub.dir.entries).find? (fun x => x.line == line) = _
  split
  · refine find?_filter_of_imp (fun x hx => ?_) _
    rw [eq_of_beq hx]
    exact bne_iff_ne.mpr h.symm
  · refine find?_upsert_other (p := fun x : DirEntry => x.line == line) (fun x hx => ?_) hl _
    rw [eq_of_beq hx, hl]

theorem dirEntry?_setEntry {s : State} {e : DirEntry} {line : Nat} (h : e.line = line) :
    dirEntry? (setEntry s e) line = if plainEntry e then none else some e := by
  subst h
  show (if plainEntry e then s.hub.dir.entries.filter (fun x => x.line != e.line)
    else upsert (fun x => x.line == e.line) e s.hub.dir.entries).find? (fun x => x.line == e.line) = _
  split
  · exact List.find?_eq_none.mpr fun x hx => by simpa using (List.mem_filter.mp hx).2
  · exact find?_upsert_self (p := fun x : DirEntry => x.line == e.line) (beq_self_eq_true e.line) _

theorem dirEntry_setEntry {s : State} {e : DirEntry} {line : Nat} (h : e.line = line) :
    dirEntry (setEntry s e) line = if plainEntry e then DirEntry.empty line else e := by
  rw [dirEntry, dirEntry?_setEntry h]
  split <;> rfl

/-- An entry that something keeps in its place is what is stored. -/
theorem dirEntry_setEntry_kept {s : State} {e : DirEntry} {line : Nat} (h : e.line = line) (hk : plainEntry e = false) :
    dirEntry (setEntry s e) line = e := by
  rw [dirEntry_setEntry h, hk]
  rfl

theorem plainEntry_of_st {e : DirEntry} (h : e.st ≠ .i) : plainEntry e = false := by
  rw [plainEntry, beq_eq_false_iff_ne.mpr h]
  rfl

theorem dirEntry_line (s : State) (line : Nat) : (dirEntry s line).line = line := by
  rw [dirEntry]
  cases h : dirEntry? s line with
  | none => rfl
  | some e => simpa using List.find?_some h

theorem dirEntry_congr {s t : State} {line : Nat} (h : dirEntry? t line = dirEntry? s line) : dirEntry t line = dirEntry s line := by
  rw [dirEntry, h, dirEntry]

/-! ### Steps that keep a line's entry -/

/-- The states differ in the slices, links, redirects, counters and the directory alone, in which a line's entry and the settings are the
same and messages `out` follow those under way. -/
structure DirStep (s t : State) (line : Nat) (out : List Msg) : Prop where
  net : t.hub.dir.net = s.hub.dir.net ++ out
  entry : dirEntry? t line = dirEntry? s line
  cfg : t.hub.dir.cfg = s.hub.dir.cfg
  rest : NetOnly s t

namespace DirStep

variable {s t v : State} {line : Nat} {out out' : List Msg}

theorem refl (s : State) (line : Nat) : DirStep s s line [] := ⟨(List.append_nil _).symm, rfl, rfl, .refl s⟩

theorem trans (h₁ : DirStep s t line out) (h₂ : DirStep t v line out') : DirStep s v line (out ++ out') :=
  ⟨by rw [h₂.net, h₁.net, List.append_assoc], h₂.entry.trans h₁.entry, h₂.cfg.trans h₁.cfg, h₁.rest.trans h₂.rest⟩

theorem data (h : DirStep s t line out) : SameData s t := ⟨h.rest.units, h.rest.mem⟩
theorem lookup (h : DirStep s t line out) : dirEntry t line = dirEntry s line := dirEntry_congr h.entry
theorem poison (h : DirStep s t line out) : t.poison = s.poison := by rw [h.rest.eq]

theorem memLine (h : DirStep s t line out) (n : Nat) (key : BitVec 8) : memLine t n key = memLine s n key :=
  memLine_congr h.rest.mem (by rw [h.rest.eq]) h.rest.device.keys n key

theorem repen (h : DirStep s t line out) : dirRepen t = dirRepen s := by rw [dirRepen, h.cfg, dirRepen]

end DirStep

/-- Some such step. -/
def Steps (s t : State) (line : Nat) : Prop := ∃ out, DirStep s t line out

namespace Steps

variable {s t v : State} {line : Nat}

theorem refl (s : State) (line : Nat) : Steps s s line := ⟨[], .refl s line⟩

theorem trans (h₁ : Steps s t line) (h₂ : Steps t v line) : Steps s v line := by
  obtain ⟨_, h₁⟩ := h₁
  obtain ⟨_, h₂⟩ := h₂
  exact ⟨_, h₁.trans h₂⟩

theorem foldl {α : Type} {f : State → α → State} {l : List α} (h : ∀ s, ∀ x ∈ l, Steps s (f s x) line) (s : State) :
    Steps s (l.foldl f s) line := by
  induction l generalizing s with
  | nil => exact refl s line
  | cons x l ih => exact (h s x List.mem_cons_self).trans (ih (fun s y hy => h s y (List.mem_cons_of_mem _ hy)) _)

theorem ite {c : Prop} [Decidable c] (ht : Steps s t line) (hv : Steps s v line) : Steps s (if c then t else v) line := by
  split
  · exact ht
  · exact hv

end Steps

section
variable (s : State) (line : Nat)

theorem sendMsg_step (m : Msg) : DirStep s (sendMsg s m) line [m] := ⟨rfl, rfl, rfl, sendMsg_netOnly s m⟩

theorem sendEach_step (f : DieNo → Msg) (l : List DieNo) : DirStep s (l.foldl (fun s d => sendMsg s (f d)) s) line (l.map f) := by
  induction l generalizing s with
  | nil => exact .refl s line
  | cons d l ih => exact (sendMsg_step s line (f d)).trans (ih (sendMsg s (f d)))

theorem modRegion_step (n : Nat) (f : Region → Region) : DirStep s (modRegion s n f) line [] :=
  ⟨(List.append_nil _).symm, rfl, rfl, modRegion_netOnly s n f⟩

theorem countEvent_step (n : Nat) (dies : List DieNo) (k : CounterKind) : DirStep s (countEvent s n dies k) line [] := by
  have hdies (l : List DieNo) (t : State) : (l.foldl (fun s d => countDie s d k) t).hub = t.hub :=
    foldl_keeps (f := fun s d => countDie s d k) State.hub (fun _ _ => rfl) l t
  have hhub : (countEvent s n dies k).hub = (countRegion s n k).hub := hdies dies _
  refine ⟨?_, ?_, ?_, countEvent_netOnly s n dies k⟩
  · rw [hhub, List.append_nil]
    rfl
  · rw [dirEntry?, hhub]
    rfl
  · rw [hhub]
    rfl

theorem setDegree_step (n : Nat) (r : DieNo) (d : BitVec 3) : DirStep s (setDegree s n r d) line [] := by
  unfold setDegree
  split
  · split
    · exact .refl s line
    · exact (modRegion_step s line n _).trans (countEvent_step _ line n _ _)
  · exact .refl s line

theorem raiseDegree_step (n : Nat) (r : DieNo) : DirStep s (raiseDegree s n r) line [] := by
  unfold raiseDegree
  dsimp only
  refine (modRegion_step s line n fun x => { x with mask := x.mask ||| dieBit r }).trans ?_
  split
  · split
    · exact setDegree_step _ line n r _
    · exact .refl _ line
  · exact .refl _ line

theorem writeRegion_step (n : Nat) (r : DieNo) (gone : Nat) : DirStep s (writeRegion s n r gone) line [] := by
  unfold writeRegion
  dsimp only
  refine (modRegion_step s line n fun x => { x with quiet := 0, mask := 0 }).trans ?_
  split
  · split
    · exact .refl _ line
    · exact setDegree_step _ line n r _
  · exact .refl _ line

theorem countHot_step (n : Nat) (r : DieNo) (unfilled : Bool) : DirStep s (countHot s n r unfilled) line [] := by
  unfold countHot
  exact ⟨(List.append_nil _).symm, rfl, rfl, modDir_netOnly s _⟩

theorem applyHints_step (n : Nat) (r : DieNo) (floor ceil : BitVec 3) : DirStep s (applyHints s n r floor ceil) line [] := by
  have hnew : ∀ fl, DirStep s (match region? s n with
      | some _ => s
      | none => s.modDir fun d => { d with regions := regionInsert d.regions (Region.fresh (regionOf n) fl) }) line [] := by
    intro fl
    split
    · exact .refl s line
    · exact ⟨(List.append_nil _).symm, rfl, rfl, modDir_netOnly s _⟩
  unfold applyHints
  dsimp only
  split
  · exact ((hnew _).trans (modRegion_step _ line n _)).trans (setDegree_step _ line n r _)
  · exact (hnew _).trans (modRegion_step _ line n _)

end

/-! ### Replicas trimmed (R305) -/

theorem trimReplicas_none {s : State} {e : DirEntry} (h : plainReplicas e = [] ∨ dirRepen s = false) (q : Option DirReq) :
    trimReplicas s e q = none := by
  unfold trimReplicas
  dsimp only
  rcases h with h | h
  · rw [h]
    exact if_pos (by simp)
  · rw [h]
    exact if_pos (by simp)

/-- Another line's entry. -/
theorem setEntry_steps {s : State} {e : DirEntry} {line : Nat} (h : e.line ≠ line) : Steps s (setEntry s e) line :=
  ⟨[], (List.append_nil _).symm, dirEntry?_setEntry_other h, rfl, setEntry_netOnly s e⟩

theorem trimReplicas_steps {s : State} {e : DirEntry} {line : Nat} (h : e.line ≠ line) (q : Option DirReq) :
    Steps s ((trimReplicas s e q).getD s) line := by
  cases ht : trimReplicas s e q with
  | none => exact .refl s line
  | some t =>
    unfold trimReplicas at ht
    obtain ⟨-, ht⟩ := Option.ite_none_left_eq_some.mp ht
    cases ht
    exact (setEntry_steps (by exact h)).trans ⟨_, sendEach_step _ line (fun d => toDie .inv d e.line) _⟩

theorem trimRegion_steps (s : State) (line : Nat) : Steps s (trimRegion s line) line := by
  unfold trimRegion
  refine .foldl (fun t e he => ?_) s
  have hline : e.line ≠ line := by
    have hkeep := (List.mem_filter.mp he).2
    simp only [Bool.and_eq_true, bne_iff_ne] at hkeep
    exact hkeep.1
  split
  · exact trimReplicas_steps hline none
  · exact setEntry_steps (by exact hline)

theorem applyRequest_steps (s : State) (line : Nat) (r : DieNo) (floor ceil : BitVec 3) :
    Steps s (applyRequest s line r floor ceil).1 line := by
  have hquiet : Steps s (countQuiet (applyHints s line r floor ceil) line) line :=
    ⟨_, (applyHints_step s line line r floor ceil).trans (modRegion_step _ line line _)⟩
  unfold applyRequest
  dsimp only
  generalize countQuiet (applyHints s line r floor ceil) line = t at hquiet ⊢
  exact hquiet.trans (.ite (trimRegion_steps t line) (.refl t line))

/-! ### Hot lines pushed (R306) -/

theorem sendPushes_steps (s : State) (e : DirEntry) (line : Nat) : Steps s (sendPushes s e) line := by
  unfold sendPushes
  refine .foldl (fun t d _ => ?_) s
  exact ⟨_, (sendMsg_step t line _).trans (countEvent_step _ line e.line [d] .pushes)⟩

/-- The mask of a list of dies. -/
def maskOf (l : List DieNo) : BitVec 8 := l.foldl (fun m d => m ||| dieBit d) 0

/-- A line's entry while its helpers and the redirect entries of other readers are installed. -/
def pushedEntry (e : DirEntry) (helpers readers : List DieNo) : DirEntry :=
  { e with st := .pA, sharers := e.sharers ||| maskOf helpers, helpers := maskOf helpers, pushes := maskOf helpers,
           rdis := maskOf readers, redirects := e.redirects ||| maskOf readers, fwd := e.owner.isSome }

/-- A push leaves the line as it was, or puts it in P_A with its helpers among the sharers. -/
theorem pushHot_cases (s : State) (line : Nat) : pushHot s line = s ∨
    ∃ helpers readers, Steps (setEntry s (pushedEntry (dirEntry s line) helpers readers)) (pushHot s line) line := by
  unfold pushHot
  dsimp only
  split
  · exact .inl rfl
  · next x _ =>
    split
    · exact .inl rfl
    · split
      · exact .inl rfl
      · refine .inr ⟨helperDies s (dirEntry s line) x, (maskDies x.readers).filter fun d =>
          !(helperDies s (dirEntry s line) x).contains d && d != homeOf line && (dirEntry s line).owner != some d && !(s.die d).lost, ?_⟩
        refine Steps.trans ?_ (.foldl (fun t x _ => ⟨_, sendMsg_step t line _⟩) _)
        split
        · exact ⟨_, sendMsg_step _ line _⟩
        · exact sendPushes_steps _ _ line

theorem pushHot_off {s : State} (h : dirPushen s = false) (line : Nat) : pushHot s line = s := by
  unfold pushHot
  dsimp only
  split
  · rfl
  · rw [h]
    rfl

theorem pushHot_transient {s : State} {line : Nat} (h : (dirEntry s line).st.stable = false) : pushHot s line = s := by
  unfold pushHot
  dsimp only
  split
  · rfl
  · rw [h]
    exact if_pos (by simp)

/-- What a push leaves, whether it takes place or not. -/
theorem pushHot_grows (s : State) (line : Nat) : NetOnly s (pushHot s line) ∧
    (∀ m ∈ s.hub.dir.net, m ∈ (pushHot s line).hub.dir.net) ∧
    (∀ i, (dirEntry s line).sharers.getLsbD i = true → (dirEntry (pushHot s line) line).sharers.getLsbD i = true) := by
  rcases pushHot_cases s line with h | ⟨helpers, readers, out, hstep⟩
  · rw [h]
    exact ⟨.refl s, fun _ => id, fun _ => id⟩
  · refine ⟨(setEntry_netOnly ..).trans hstep.rest, fun m hin => ?_, fun i hi => ?_⟩
    · rw [hstep.net]
      exact List.mem_append_left _ hin
    · have hkept : dirEntry (setEntry s (pushedEntry (dirEntry s line) helpers readers)) line = pushedEntry (dirEntry s line) helpers readers :=
        dirEntry_setEntry_kept (dirEntry_line s line) (plainEntry_of_st nofun)
      rw [hstep.lookup, hkept, pushedEntry, BitVec.getLsbD_or, hi, Bool.true_or]

/-! ### A line come to rest (R298, R305, R308) -/

/-- Nothing waits for a line to come to rest. -/
structure Calm (e : DirEntry) : Prop where
  queue : e.queue = []
  late : e.late = []
  trim : e.trimDue = false

theorem resume_of_queue {s : State} {line : Nat} (hs : settleLate s line = s) (hq : (dirEntry s line).queue = []) : resume s line = s := by
  unfold resume
  dsimp only
  rw [hs, hq]
  rfl

theorem settleLate_calm {s : State} {line : Nat} (h : Calm (dirEntry s line)) : settleLate s line = s := by
  unfold settleLate
  dsimp only
  rw [h.late, h.trim]
  exact ite_self s

theorem settleLate_transient {s : State} {line : Nat} (h : (dirEntry s line).st.stable = false) : settleLate s line = s := by
  unfold settleLate
  dsimp only
  rw [h]
  rfl

theorem resume_calm {s : State} {line : Nat} (h : Calm (dirEntry s line)) : resume s line = s :=
  resume_of_queue (settleLate_calm h) h.queue

theorem calm_empty (line : Nat) : Calm (DirEntry.empty line) := ⟨rfl, rfl, rfl⟩

theorem calm_setEntry {s : State} {e : DirEntry} {line : Nat} (h : e.line = line) (hc : Calm e) : Calm (dirEntry (setEntry s e) line) := by
  rw [dirEntry_setEntry h]
  split
  · exact calm_empty line
  · exact hc

end Sys2Proof.DirectorySteps
end

section
/-! PROOFS.
What the directory does with each message of a die and with what memory answers (R298 to R308). -/

-- One proof at a time: the check of the whole text has a limit on memory, which many threads would reach.
set_option Elab.async false

namespace Sys2Proof.DirectoryMessages

open Sys2Proof.Machine Sys2Proof.Safety Sys2Proof.DeviceStep Sys2Proof.Walks Sys2Proof.DieSide Sys2Proof.DirectorySteps

variable {s : State} {d : DieNo} {line : Nat} {m : Msg}

/-! ### Masks of dies -/

theorem mem_maskDies {v : BitVec 8} {x : DieNo} : x ∈ maskDies v ↔ v.getLsbD x.val = true := by
  simp [maskDies]

theorem getLsbD_dieBit (x y : DieNo) : (dieBit x).getLsbD y.val = (x == y) := by
  revert x y
  decide

theorem getLsbD_foldl_dieBit (l : List DieNo) (acc : BitVec 8) (y : DieNo) :
    (l.foldl (fun m d => m ||| dieBit d) acc).getLsbD y.val = (acc.getLsbD y.val || l.contains y) := by
  induction l generalizing acc with
  | nil => simp
  | cons x l ih =>
    rw [List.foldl_cons, ih, BitVec.getLsbD_or, getLsbD_dieBit, List.contains_cons, Bool.or_assoc]
    congr 2
    exact Bool.beq_comm

theorem maskOf_maskDies (v : BitVec 8) : maskOf (maskDies v) = v := by
  refine BitVec.eq_of_getLsbD_eq fun i hi => ?_
  have hbit := getLsbD_foldl_dieBit (maskDies v) 0 ⟨i, hi⟩
  have hin : (maskDies v).contains (⟨i, hi⟩ : DieNo) = v.getLsbD i := by
    rw [Bool.eq_iff_iff, List.contains_iff_mem, mem_maskDies]
  rw [maskOf, hbit, hin]
  simp

theorem maskDies_zero : maskDies 0 = [] := by decide

theorem plainReplicas_empty (line : Nat) : plainReplicas (DirEntry.empty line) = [] := by
  have hsharers : (DirEntry.empty line).sharers = 0 := rfl
  rw [plainReplicas, replicas, hsharers, maskDies_zero]
  rfl

/-! ### Requests at work (R298, R299) -/

/-- A request as it is handled: its hints are counted. -/
def counted (q : DirReq) : DirReq := { q with counted := true }

/-- The line's entry under the key slot of the request. -/
def keyed (e : DirEntry) (q : DirReq) : DirEntry := { e with key := q.key }

section
variable {e : DirEntry} {q : DirReq} (hlost : (s.die (homeOf e.line)).lost = false)
  (hkey : ((e.owner.isSome || e.sharers != 0) && e.key != q.key) = false) (hnew : q.counted = false)
include hlost hkey hnew

theorem handleReq_write (hk : q.kind ≠ .getS) : ∃ t, Steps s t e.line ∧ handleReq s e q = handleWrite t (keyed e q) (counted q) := by
  have hno : (q.kind == .getS) = false := beq_eq_false_iff_ne.mpr hk
  refine ⟨(applyRequest s e.line q.die q.rfloor q.rceil).1, applyRequest_steps .., ?_⟩
  unfold handleReq
  rw [hlost]
  dsimp only
  rw [hkey, hnew, hno, Bool.and_false]
  rfl

theorem handleReq_read (hk : q.kind = .getS) (htrim : plainReplicas e = [] ∨ dirRepen s = false) :
    ∃ t, Steps s t e.line ∧ handleReq s e q = pushHot (handleGetS t (keyed e q) (counted q)) e.line := by
  have hstep := applyRequest_steps s e.line q.die q.rfloor q.rceil
  refine ⟨(applyRequest s e.line q.die q.rfloor q.rceil).1, hstep, ?_⟩
  obtain ⟨out, hstep⟩ := hstep
  have hnone : trimReplicas (applyRequest s e.line q.die q.rfloor q.rceil).1 { e with key := q.key } (some { q with counted := true }) =
      none := trimReplicas_none (e := { e with key := q.key }) (htrim.imp id fun h => hstep.repen.trans h) _
  unfold handleReq
  rw [hlost]
  dsimp only
  rw [hkey, hnew]
  simp only [Bool.false_eq_true, if_false]
  rw [hnone, ite_self]
  exact if_pos (by rw [hk]; rfl)

end

/-! ### Reads (R298, R303) -/

/-- A remote read raises D where enough dies miss. -/
def raised (s : State) (e : DirEntry) (q : DirReq) : State := if q.die != homeOf e.line then raiseDegree s e.line q.die else s

/-- A read as its line's region and the table of hot lines see it. -/
def noticed (s : State) (e : DirEntry) (q : DirReq) : State :=
  if q.die != homeOf e.line then countHot (raised s e q) e.line q.die (!fills (raised s e q) e q.die) else raised s e q

/-- A remote read counted as a fill or as one that its die does not keep. -/
def countRead (s : State) (e : DirEntry) (q : DirReq) (k : CounterKind) : State :=
  if q.die != homeOf e.line then countEvent s e.line [q.die] k else s

section
variable (e : DirEntry) (q : DirReq)

theorem noticed_step (s : State) (line : Nat) : DirStep s (noticed s e q) line [] := by
  have hraised : DirStep s (raised s e q) line [] := by
    unfold raised
    split
    · exact raiseDegree_step s line e.line q.die
    · exact .refl s line
  unfold noticed
  split
  · exact hraised.trans (countHot_step _ line e.line q.die _)
  · exact hraised

theorem countRead_step (s : State) (line : Nat) (k : CounterKind) : DirStep s (countRead s e q k) line [] := by
  unfold countRead
  split
  · exact countEvent_step s line e.line [q.die] k
  · exact .refl s line

/-- With REPEN clear the home die alone keeps what it reads. -/
theorem fills_raised (h : dirRepen s = false) : fills (raised s e q) e q.die = (q.die == homeOf e.line) := by
  have hrepen : dirRepen (raised s e q) = false := by
    unfold raised
    split
    · rw [(raiseDegree_step s e.line e.line q.die).repen, h]
    · exact h
  rw [fills, degree, hrepen]
  simp

variable {e} {q}

theorem handleGetS_i (h : e.st = .i) : handleGetS s e q =
    (setEntry (noticed s e q) { e with st := .iD, cur := some q }).modDir fun d => { d with mem := d.mem ++ [(e.line, true)] } := by
  unfold handleGetS
  dsimp only
  rw [h]
  rfl

theorem handleGetS_home (h : e.st = .s) (hrep : dirRepen s = false) (hd : q.die = homeOf e.line) : handleGetS s e q =
    sendLine (setEntry (noticed s e q) { e with sharers := e.sharers ||| dieBit q.die }) .dataS q.die e.line
      (memLine (noticed s e q) e.line q.key, (noticed s e q).poison.contains e.line) q.key := by
  have hfill := (fills_raised e q hrep).trans (beq_iff_eq.mpr hd)
  have hhome : (q.die != homeOf e.line) = false := by rw [hd, bne_self_eq_false]
  unfold handleGetS
  unfold noticed raised at *
  dsimp only
  rw [h]
  dsimp only
  rw [hfill, if_pos rfl, hhome]
  rfl

theorem handleGetS_remote (h : e.st = .s) (hrep : dirRepen s = false) (hd : q.die ≠ homeOf e.line) :
    handleGetS s e q = answerNF (noticed s e q) e q := by
  have hfill := (fills_raised e q hrep).trans (beq_eq_false_iff_ne.mpr hd)
  unfold handleGetS
  unfold noticed raised at *
  dsimp only
  rw [h]
  dsimp only
  rw [hfill]
  rfl

theorem handleGetS_owned {o : DieNo} (h : e.st = .e ∨ e.st = .o ∨ e.st = .m) (ho : e.owner = some o) (hrep : dirRepen s = false) :
    ∃ e' k, e'.line = e.line ∧ e'.st = .mFS ∧ e'.fwd = true ∧ handleGetS s e q =
      sendMsg (setEntry (countRead (noticed s e q) e q k) e')
        { toDie (if q.die = homeOf e.line then .fwdGetS else .fwdGetSNF) o e.line with req := q.die, key := q.key } := by
  have hfill := fills_raised e q hrep
  refine ⟨{ e with st := .mFS, cur := some q, fwd := true,
                   sharers := if q.die == homeOf e.line then e.sharers ||| dieBit q.die else e.sharers },
    if q.die == homeOf e.line then .fills else .nofill, rfl, rfl, rfl, ?_⟩
  unfold handleGetS
  unfold countRead noticed raised at *
  dsimp only
  rcases h with h | h | h
  all_goals
    rw [h]
    dsimp only
    rw [ho]
    dsimp only
    rw [hfill]
    by_cases hd : q.die = homeOf e.line
    · rw [beq_iff_eq.mpr hd, if_pos hd]
      rfl
    · rw [beq_eq_false_iff_ne.mpr hd, if_neg hd]
      rfl

end

/-! ### Writes (R298, R299) -/

/-- The replicas outside the home die that a write collapses. -/
def collapsedBy (e : DirEntry) (q : DirReq) : List DieNo := ((maskDies e.sharers).filter fun d => d != q.die).filter fun d => d != homeOf e.line

/-- A write as the table of hot lines and the counters see it. -/
def cooled (s : State) (e : DirEntry) (q : DirReq) : State :=
  let t := s.modDir fun d => { d with hot := d.hot.filter fun h => h.line != e.line }
  if (collapsedBy e q).isEmpty then t else countEvent t e.line (collapsedBy e q) .collapses

theorem cooled_step (s : State) (e : DirEntry) (q : DirReq) (line : Nat) : DirStep s (cooled s e q) line [] := by
  have hhot : DirStep s (s.modDir fun d => { d with hot := d.hot.filter fun h => h.line != e.line }) line [] :=
    ⟨(List.append_nil _).symm, rfl, rfl, modDir_netOnly s _⟩
  unfold cooled
  dsimp only
  split
  · exact hhot
  · exact hhot.trans (countEvent_step _ line e.line _ .collapses)

/-- The write is an upgrade of a copy that its die holds. -/
def upgrades (e : DirEntry) (q : DirReq) : Bool := q.kind == .upg && holds e q.die

/-- The owner, where it is another die. -/
def foreignOwner (e : DirEntry) (q : DirReq) : Option DieNo :=
  match e.owner with
  | some o => if o = q.die then none else some o
  | none => none

/-- The dies whose copies the write invalidates. -/
def invited (e : DirEntry) (q : DirReq) : List DieNo :=
  ((maskDies e.sharers).filter fun d => d != q.die) ++ (if upgrades e q then (foreignOwner e q).toList else [])

/-- The write is forwarded to the owner. -/
def forwarded (e : DirEntry) (q : DirReq) : Bool := !upgrades e q && (foreignOwner e q).isSome

/-- A line's entry with a write at work. -/
def writing (e : DirEntry) (q : DirReq) : DirEntry :=
  { e with cur := some q, collapsed := (collapsedBy e q).length, fwd := forwarded e q, invs := maskOf (invited e q), rdis := e.redirects }

/-- The invalidations of a write. -/
def sendInvs (s : State) (e : DirEntry) (q : DirReq) : State :=
  (maskDies e.redirects).foldl (fun s d => sendMsg s (toDie .rdInv d e.line)) ((invited e q).foldl (fun s d => sendMsg s (toDie .inv d e.line)) s)

/-- The forward of a write. -/
def sendForward (s : State) (e : DirEntry) (q : DirReq) : State :=
  match foreignOwner e q with
  | some o => if forwarded e q then sendMsg s { toDie .fwdGetM o e.line with req := q.die, key := q.key } else s
  | none => s

theorem handleWrite_eq (s : State) (e : DirEntry) (q : DirReq) : handleWrite s e q =
    if e.st == .i && (maskDies e.redirects).isEmpty then
      (setEntry (cooled s e q) { writing e q with st := .iD }).modDir fun d => { d with mem := d.mem ++ [(e.line, true)] }
    else if (invited e q).isEmpty && (maskDies e.redirects).isEmpty && !forwarded e q then
      grantWrite (cooled s e q) { writing e q with invs := 0, rdis := 0 } q (upgrades e q) false
    else sendForward (sendInvs (setEntry (cooled s e q) { writing e q with st := if e.st == .e || e.st == .m then .mFA else .sMA }) e q) e q :=
  rfl

theorem sendInvs_step (s : State) (e : DirEntry) (q : DirReq) (line : Nat) : DirStep s (sendInvs s e q) line
    ((invited e q).map (fun d => toDie .inv d e.line) ++ (maskDies e.redirects).map fun d => toDie .rdInv d e.line) :=
  (sendEach_step s line (fun d => toDie .inv d e.line) _).trans (sendEach_step _ line (fun d => toDie .rdInv d e.line) _)

section
variable {e : DirEntry} {q : DirReq}

/-- A write of a line that no die holds is answered from memory. -/
theorem handleWrite_i (h : e.st = .i) (hr : e.redirects = 0) : handleWrite s e q =
    (setEntry (cooled s e q) { writing e q with st := .iD }).modDir fun d => { d with mem := d.mem ++ [(e.line, true)] } := by
  rw [handleWrite_eq, h, hr, maskDies_zero]
  rfl

section
variable (hk : q.kind = .getM)
include hk

theorem upgrades_getM : upgrades e q = false := by
  rw [upgrades, hk]
  rfl

/-- A write of a shared line collapses every copy. -/
theorem handleWrite_shared (h : e.st = .s) (ho : e.owner = none) (hs : e.sharers ≠ 0) (hd : e.sharers.getLsbD q.die.val = false) :
    handleWrite s e q = sendInvs (setEntry (cooled s e q) { writing e q with st := .sMA }) e q ∧ invited e q = maskDies e.sharers := by
  have hothers : ((maskDies e.sharers).filter fun d => d != q.die) = maskDies e.sharers := by
    refine List.filter_eq_self.mpr fun x hx => bne_iff_ne.mpr ?_
    rintro rfl
    rw [mem_maskDies, hd] at hx
    cases hx
  have hforeign : foreignOwner e q = none := by rw [foreignOwner, ho]
  have hinvited : invited e q = maskDies e.sharers := by rw [invited, hothers, upgrades_getM hk, if_neg Bool.false_ne_true, List.append_nil]
  have hsome : (invited e q).isEmpty = false := by
    refine List.isEmpty_eq_false_iff.mpr fun hnil => hs ?_
    rw [← maskOf_maskDies e.sharers, ← hinvited, hnil]
    rfl
  refine ⟨?_, hinvited⟩
  rw [handleWrite_eq, hsome, h, sendForward, hforeign]
  rfl

/-- A write of a line that another die owns is forwarded to it. -/
theorem handleWrite_owned {o : DieNo} (h : e.st = .e ∨ e.st = .m) (ho : e.owner = some o) (hne : o ≠ q.die) :
    handleWrite s e q = sendMsg (sendInvs (setEntry (cooled s e q) { writing e q with st := .mFA }) e q)
      { toDie .fwdGetM o e.line with req := q.die, key := q.key } ∧ forwarded e q = true := by
  have hforeign : foreignOwner e q = some o := by
    rw [foreignOwner, ho]
    exact if_neg hne
  have hforward : forwarded e q = true := by
    rw [forwarded, upgrades_getM hk, hforeign]
    rfl
  have hi : (e.st == .i) = false := by
    rcases h with h | h <;> rw [h] <;> rfl
  have hem : (e.st == .e || e.st == .m) = true := by
    rcases h with h | h <;> rw [h] <;> rfl
  refine ⟨?_, hforward⟩
  rw [handleWrite_eq, hi, hem, sendForward, hforeign, hforward, Bool.not_true, Bool.and_false]
  rfl

end

/-- An upgrade of the only copy is granted at once. -/
theorem handleWrite_upgrade (hk : q.kind = .upg) (h : e.st = .s) (ho : e.owner = none) (hs : e.sharers = dieBit q.die) (hr : e.redirects = 0) :
    handleWrite s e q = grantWrite (cooled s e q) { writing e q with invs := 0, rdis := 0 } q true false := by
  have hup : upgrades e q = true := by
    simp [upgrades, hk, holds, hs, getLsbD_dieBit]
  have hforeign : foreignOwner e q = none := by rw [foreignOwner, ho]
  have hothers : ((maskDies e.sharers).filter fun d => d != q.die) = [] := by
    refine List.filter_eq_nil_iff.mpr fun x hx => ?_
    rw [mem_maskDies, hs, getLsbD_dieBit, beq_iff_eq] at hx
    simp [hx]
  have hinvited : invited e q = [] := by
    rw [invited, hothers, hforeign]
    exact ite_self _
  rw [handleWrite_eq, h, hinvited, hr, maskDies_zero, forwarded, hup]
  rfl

end

/-! ### What a request finds (R298) -/

/-- The request that a message carries. -/
def reqOf (m : Msg) : DirReq :=
  { kind := m.kind, die := m.die, key := m.key, rfloor := m.rfloor, rceil := m.rceil, hinted := m.hinted, counted := false,
    prefetch := m.shared }

theorem headMsg_kind {k : MsgKind} {down : Bool} (h : headMsg s k d line down = some m) : m.kind = k := by
  unfold headMsg at h
  split at h
  · split at h
    · next hgo =>
      cases h
      simp only [Bool.and_eq_true, beq_iff_eq] at hgo
      exact hgo.1.1
    · cases h
  · cases h

theorem popMsg_netOnly (s : State) (m : Msg) : NetOnly s (popMsg s m) := modDir_netOnly s _

theorem sameData_of_net {t : State} (h : NetOnly s t) : SameData s t := ⟨h.units, h.mem⟩

theorem dirEntry_popMsg (s : State) (m : Msg) (line : Nat) : dirEntry (popMsg s m) line = dirEntry s line := rfl

theorem exec_gets_plain (h : redirect? s d line = none) : exec (.gets d line) s = .next (deliver s .getS d line false arriveReq) := by
  rw [exec_gets, execGets, h]

/-- The requests of dies, and the messages that bring them. -/
theorem request_exec (h : redirect? s d line = none) : ∀ x ∈ [(Instr.gets d line, MsgKind.getS), (.getm d line, .getM), (.upg d line, .upg)],
    exec x.1 s = .next (deliver s x.2 d line false arriveReq) := by
  refine List.forall_mem_cons.mpr ⟨exec_gets_plain h, List.forall_mem_cons.mpr ⟨rfl, List.forall_mem_singleton.mpr rfl⟩⟩

section
variable {k : MsgKind} {i : Instr} (hexec : exec i s = .next (deliver s k d line false arriveReq))
  (h : headMsg s k d line false = some m)
include hexec h

theorem request_waits (hwait : (dirEntry s line).st.stable = false ∨ (dirEntry s line).queue ≠ []) :
    ∃ t q, exec i s = .next t ∧ SameData s t ∧ NetAfter s t m [] ∧ (q.kind = k ∧ q.die = d ∧ q.key = m.key) ∧
      dirEntry t line = { dirEntry s line with queue := (dirEntry s line).queue ++ [q] } := by
  obtain ⟨hd, hm⟩ := headMsg_some h
  have hno : ((dirEntry s line).st.stable && (dirEntry s line).queue.isEmpty) = false := by
    rcases hwait with hwait | hwait
    · rw [hwait, Bool.false_and]
    · rw [List.isEmpty_eq_false_iff.mpr hwait, Bool.and_false]
  have harrive : arriveReq (popMsg s m) m =
      setEntry (popMsg s m) { dirEntry s line with queue := (dirEntry s line).queue ++ [reqOf m] } := by
    unfold arriveReq
    dsimp only
    rw [hm, dirEntry_popMsg, hno]
    rfl
  rw [deliver_head h, harrive] at hexec
  refine ⟨_, reqOf m, hexec, ⟨rfl, rfl⟩, popMsg_after s m, ⟨headMsg_kind h, hd, rfl⟩, dirEntry_setEntry_kept (dirEntry_line s line) ?_⟩
  simp [plainEntry]

/-- A request that finds its line at rest is handled. -/
theorem request_handled (hst : (dirEntry s line).st.stable = true) (hq : (dirEntry s line).queue = []) :
    exec i s = .next (handleReq (popMsg s m) (dirEntry s line) (reqOf m)) := by
  obtain ⟨-, hm⟩ := headMsg_some h
  rw [hexec, deliver_head h]
  unfold arriveReq
  dsimp only
  rw [hm, dirEntry_popMsg, hst, hq]
  rfl

theorem request_fetches (hnone : dirEntry? s line = none)
    (hlost : (s.die (homeOf line)).lost = false) :
    ∃ t q, exec i s = .next t ∧ SameData s t ∧ (q.kind = k ∧ q.die = d ∧ q.key = m.key) ∧ (dirEntry t line).st = .iD ∧
      (dirEntry t line).cur = some q ∧ (line, true) ∈ t.hub.dir.mem := by
  obtain ⟨hd, hm⟩ := headMsg_some h
  have hempty : dirEntry s line = DirEntry.empty line := by rw [dirEntry, hnone]; rfl
  have hrun := request_handled hexec h (by rw [hempty]; rfl) (by rw [hempty]; rfl)
  rw [hempty] at hrun
  have hasked : (counted (reqOf m)).kind = k ∧ (counted (reqOf m)).die = d ∧ (counted (reqOf m)).key = m.key := ⟨headMsg_kind h, hd, rfl⟩
  have hfetch : ∃ t e', NetOnly s t ∧ e'.line = line ∧ e'.st = .iD ∧ e'.cur = some (counted (reqOf m)) ∧
      exec i s = .next ((setEntry t e').modDir fun d => { d with mem := d.mem ++ [(line, true)] }) := by
    by_cases hread : k = .getS
    · obtain ⟨t, ⟨out, hstep⟩, hreq⟩ := handleReq_read (s := popMsg s m) (e := DirEntry.empty line) (q := reqOf m) hlost rfl rfl
        ((headMsg_kind h).trans hread) (.inl (plainReplicas_empty line))
      let e' : DirEntry := { keyed (DirEntry.empty line) (reqOf m) with st := .iD, cur := some (counted (reqOf m)) }
      refine ⟨noticed t (keyed (DirEntry.empty line) (reqOf m)) (counted (reqOf m)), e',
        (popMsg_netOnly s m).trans (hstep.rest.trans (noticed_step _ _ t line).rest), rfl, rfl, rfl, ?_⟩
      rw [hrun, hreq, handleGetS_i (e := keyed (DirEntry.empty line) (reqOf m)) rfl]
      refine congrArg Host.Outcome.next (pushHot_transient ?_)
      have hkept : dirEntry (setEntry (noticed t (keyed (DirEntry.empty line) (reqOf m)) (counted (reqOf m))) e') line = e' :=
        dirEntry_setEntry_kept rfl rfl
      exact congrArg (fun e : DirEntry => e.st.stable) hkept
    · obtain ⟨t, ⟨out, hstep⟩, hreq⟩ := handleReq_write (s := popMsg s m) (e := DirEntry.empty line) (q := reqOf m) hlost rfl rfl
        fun hc => hread ((headMsg_kind h).symm.trans hc)
      refine ⟨cooled t (keyed (DirEntry.empty line) (reqOf m)) (counted (reqOf m)),
        { writing (keyed (DirEntry.empty line) (reqOf m)) (counted (reqOf m)) with st := .iD },
        (popMsg_netOnly s m).trans (hstep.rest.trans (cooled_step t _ _ line).rest), rfl, rfl, rfl, ?_⟩
      rw [hrun, hreq, handleWrite_i (e := keyed (DirEntry.empty line) (reqOf m)) rfl rfl]
      rfl
  obtain ⟨t, e', hnet, hline, hst, hcur, hexec'⟩ := hfetch
  have hkept : dirEntry ((setEntry t e').modDir fun d => { d with mem := d.mem ++ [(line, true)] }) line = e' :=
    dirEntry_setEntry_kept (s := t) hline (plainEntry_of_st (by rw [hst]; decide))
  refine ⟨_, counted (reqOf m), hexec', sameData_of_net (hnet.trans ((setEntry_netOnly t e').trans (modDir_netOnly _ _))), hasked, ?_, ?_, ?_⟩
  · rw [hkept, hst]
  · rw [hkept, hcur]
  · exact List.mem_append_right _ List.mem_cons_self

section
variable (hlost : (s.die (homeOf line)).lost = false) (hst : (dirEntry s line).st.stable = true) (hq : (dirEntry s line).queue = [])
  (hkey : (dirEntry s line).key = m.key)
include hlost hst hq hkey

theorem read_handled (hk : k = .getS) (hrep : dirRepen s = false) : ∃ t, NetOnly s t ∧ dirRepen t = false ∧
    exec i s = .next (pushHot (handleGetS t (keyed (dirEntry s line) (reqOf m)) (counted (reqOf m))) line) := by
  have hline := dirEntry_line s line
  have hsame : (((dirEntry s line).owner.isSome || (dirEntry s line).sharers != 0) && (dirEntry s line).key != (reqOf m).key) = false := by
    rw [hkey]
    simp [reqOf]
  obtain ⟨t, ⟨out, hstep⟩, hreq⟩ := handleReq_read (s := popMsg s m) (by rw [hline]; exact hlost) hsame rfl
    ((headMsg_kind h).trans hk) (.inr hrep)
  refine ⟨t, (popMsg_netOnly s m).trans hstep.rest, hstep.repen.trans hrep, ?_⟩
  rw [request_handled hexec h hst hq, hreq, hline]

theorem write_handled (hk : k ≠ .getS) : ∃ t, NetOnly s t ∧
    exec i s = .next (handleWrite t (keyed (dirEntry s line) (reqOf m)) (counted (reqOf m))) := by
  have hline := dirEntry_line s line
  have hsame : (((dirEntry s line).owner.isSome || (dirEntry s line).sharers != 0) && (dirEntry s line).key != (reqOf m).key) = false := by
    rw [hkey]
    simp [reqOf]
  obtain ⟨t, ⟨out, hstep⟩, hreq⟩ := handleReq_write (s := popMsg s m) (by rw [hline]; exact hlost) hsame rfl
    (by rw [reqOf, headMsg_kind h]; exact hk)
  exact ⟨t, (popMsg_netOnly s m).trans hstep.rest, by rw [request_handled hexec h hst hq, hreq]⟩

end

end

/-! ### Requests for lines in S, E, O and M -/

theorem grantWrite_upgrade (t : State) (e : DirEntry) (q : DirReq) : grantWrite t e q true false =
    sendMsg (setEntry (writeRegion t e.line q.die e.collapsed) (e.give q.die)) (toDie .upgAck q.die e.line) := rfl

section
variable (hlost : (s.die (homeOf line)).lost = false) (hq : (dirEntry s line).queue = []) (hkey : (dirEntry s line).key = m.key)
include hlost hq hkey

theorem gets_shared (h : headMsg s .getS d line false = some m) (hred : redirect? s d line = none) (hrep : dirRepen s = false)
    (hst : (dirEntry s line).st = .s) : ∃ t, exec (.gets d line) s = .next t ∧ SameData s t ∧
      dataTo (if d = homeOf line then .dataS else .dataNF) d line (memLine s line m.key, s.poison.contains line) m.key ∈ t.hub.dir.net ∧
      (d = homeOf line → (dirEntry t line).sharers.getLsbD d.val = true) := by
  obtain ⟨hd, -⟩ := headMsg_some h
  have hline := dirEntry_line s line
  obtain ⟨t, hnet, hrep', hexec⟩ := read_handled (exec_gets_plain hred) h hlost (by rw [hst]; rfl) hq hkey rfl hrep
  let e := keyed (dirEntry s line) (reqOf m)
  let q := counted (reqOf m)
  have hel : e.line = line := hline
  have hn : DirStep t (noticed t e q) line [] := noticed_step e q t line
  have hmem : memLine (noticed t e q) line m.key = memLine s line m.key := by
    rw [hn.memLine]
    exact memLine_congr hnet.mem (by rw [hnet.eq]) hnet.device.keys line m.key
  have hpoison : (noticed t e q).poison = s.poison := by
    rw [hn.poison, hnet.eq]
  have hmsg (k : MsgKind) : dataTo k q.die e.line (memLine (noticed t e q) e.line q.key, (noticed t e q).poison.contains e.line) q.key =
      dataTo k d line (memLine s line m.key, s.poison.contains line) m.key := by
    rw [hel, ← hmem, ← hpoison, ← hd]
    rfl
  by_cases hhome : d = homeOf line
  · have hqd : q.die = homeOf e.line := by
      rw [hel, ← hhome]
      exact hd
    have hx := handleGetS_home (s := t) (e := e) (q := q) hst hrep' hqd
    have hentry : dirEntry (handleGetS t e q) line = { e with sharers := e.sharers ||| dieBit q.die } := by
      rw [hx]
      exact dirEntry_setEntry_kept (s := noticed t e q) (e := { e with sharers := e.sharers ||| dieBit q.die }) hel
        (plainEntry_of_st (by rw [show e.st = .s from hst]; decide))
    have hin : dataTo .dataS d line (memLine s line m.key, s.poison.contains line) m.key ∈ (handleGetS t e q).hub.dir.net := by
      rw [hx, ← hmsg]
      exact List.mem_append_right _ List.mem_cons_self
    have hstep : NetOnly s (handleGetS t e q) := by
      rw [hx]
      exact hnet.trans (hn.rest.trans ((setEntry_netOnly ..).trans (sendMsg_netOnly ..)))
    obtain ⟨hpush, hkept, hgrown⟩ := pushHot_grows (handleGetS t e q) line
    refine ⟨_, hexec, sameData_of_net (hstep.trans hpush), ?_, fun _ => hgrown _ ?_⟩
    · rw [if_pos hhome]
      exact hkept _ hin
    · rw [hentry, BitVec.getLsbD_or, getLsbD_dieBit, show q.die = d from hd, beq_self_eq_true, Bool.or_true]
  · have hqd : q.die ≠ homeOf e.line := by
      rw [hel]
      exact fun hc => hhome (hd.symm.trans hc)
    have hx := handleGetS_remote (s := t) (e := e) (q := q) hst hrep' hqd
    have hcount := countEvent_step (noticed t e q) line e.line [q.die] .nofill
    have hin : dataTo .dataNF d line (memLine s line m.key, s.poison.contains line) m.key ∈ (handleGetS t e q).hub.dir.net := by
      rw [hx, ← hmsg]
      exact List.mem_append_right _ List.mem_cons_self
    have hstep : NetOnly s (handleGetS t e q) := by
      rw [hx]
      exact hnet.trans (hn.rest.trans (hcount.rest.trans (sendMsg_netOnly ..)))
    obtain ⟨hpush, hkept, -⟩ := pushHot_grows (handleGetS t e q) line
    refine ⟨_, hexec, sameData_of_net (hstep.trans hpush), ?_, fun hc => absurd hc hhome⟩
    rw [if_neg hhome]
    exact hkept _ hin

theorem gets_owned {o : DieNo} (h : headMsg s .getS d line false = some m) (hred : redirect? s d line = none) (hrep : dirRepen s = false)
    (hst : (dirEntry s line).st = .e ∨ (dirEntry s line).st = .o ∨ (dirEntry s line).st = .m) (ho : (dirEntry s line).owner = some o) :
    ∃ t, exec (.gets d line) s = .next t ∧ SameData s t ∧
      { toDie (if d = homeOf line then .fwdGetS else .fwdGetSNF) o line with req := d, key := m.key } ∈ t.hub.dir.net ∧
      (dirEntry t line).st = .mFS ∧ (dirEntry t line).fwd = true := by
  obtain ⟨hd, -⟩ := headMsg_some h
  have hline := dirEntry_line s line
  have hstable : (dirEntry s line).st.stable = true := by
    rcases hst with hst | hst | hst <;> rw [hst] <;> rfl
  obtain ⟨t, hnet, hrep', hexec⟩ := read_handled (exec_gets_plain hred) h hlost hstable hq hkey rfl hrep
  let e := keyed (dirEntry s line) (reqOf m)
  let q := counted (reqOf m)
  obtain ⟨e', k, hel, hst', hfwd, hx⟩ := handleGetS_owned (s := t) (e := e) (q := q) hst ho hrep'
  have hel' : e'.line = line := hel.trans hline
  have hentry : dirEntry (handleGetS t e q) line = e' := by
    rw [hx]
    exact dirEntry_setEntry_kept (s := countRead (noticed t e q) e q k) hel' (plainEntry_of_st (by rw [hst']; decide))
  have hpush : pushHot (handleGetS t e q) line = handleGetS t e q := pushHot_transient (by rw [hentry, hst']; rfl)
  rw [hpush] at hexec
  have hstep : NetOnly s (handleGetS t e q) := by
    rw [hx]
    exact hnet.trans ((noticed_step e q t line).rest.trans ((countRead_step e q _ line k).rest.trans
      ((setEntry_netOnly ..).trans (sendMsg_netOnly ..))))
  refine ⟨_, hexec, sameData_of_net hstep, ?_, by rw [hentry, hst'], by rw [hentry, hfwd]⟩
  have hmsg : ({ toDie (if q.die = homeOf e.line then .fwdGetS else .fwdGetSNF) o e.line with req := q.die, key := q.key } : Msg) =
      { toDie (if d = homeOf line then .fwdGetS else .fwdGetSNF) o line with req := d, key := m.key } := by
    rw [show q.die = d from hd, show e.line = line from hline]
    rfl
  rw [hx, ← hmsg]
  exact List.mem_append_right _ List.mem_cons_self

theorem getm_shared (h : headMsg s .getM d line false = some m) (hst : (dirEntry s line).st = .s) (ho : (dirEntry s line).owner = none)
    (hs : (dirEntry s line).sharers ≠ 0) (hnot : (dirEntry s line).sharers.getLsbD d.val = false) :
    ∃ t, exec (.getm d line) s = .next t ∧ SameData s t ∧ (dirEntry t line).st = .sMA ∧ (dirEntry t line).invs = (dirEntry s line).sharers ∧
      ∀ x : DieNo, (dirEntry s line).sharers.getLsbD x.val = true → toDie .inv x line ∈ t.hub.dir.net := by
  obtain ⟨hd, -⟩ := headMsg_some h
  have hline := dirEntry_line s line
  obtain ⟨t, hnet, hexec⟩ := write_handled (exec_getm s) h hlost (by rw [hst]; rfl) hq hkey (by decide)
  let e := keyed (dirEntry s line) (reqOf m)
  let q := counted (reqOf m)
  obtain ⟨hx, hinv⟩ := handleWrite_shared (s := t) (e := e) (q := q) (headMsg_kind h) hst ho hs (by rw [show q.die = d from hd]; exact hnot)
  have hsent := sendInvs_step (setEntry (cooled t e q) { writing e q with st := .sMA }) e q line
  have hentry : dirEntry (sendInvs (setEntry (cooled t e q) { writing e q with st := .sMA }) e q) line = { writing e q with st := .sMA } := by
    rw [hsent.lookup]
    exact dirEntry_setEntry_kept hline (plainEntry_of_st nofun)
  rw [hx] at hexec
  refine ⟨_, hexec, sameData_of_net (hnet.trans ((cooled_step t e q line).rest.trans ((setEntry_netOnly ..).trans hsent.rest))), ?_, ?_,
    fun x hx' => ?_⟩
  · rw [hentry]
  · rw [hentry, writing, hinv]
    exact maskOf_maskDies _
  · rw [hsent.net, hinv]
    refine List.mem_append_right _ (List.mem_append_left _ (List.mem_map.mpr ⟨x, mem_maskDies.mpr hx', ?_⟩))
    rw [show e.line = line from hline]

theorem getm_owned {o : DieNo} (h : headMsg s .getM d line false = some m) (hst : (dirEntry s line).st = .e ∨ (dirEntry s line).st = .m)
    (ho : (dirEntry s line).owner = some o) (hne : o ≠ d) :
    ∃ t, exec (.getm d line) s = .next t ∧ SameData s t ∧ { toDie .fwdGetM o line with req := d, key := m.key } ∈ t.hub.dir.net ∧
      (dirEntry t line).st = .mFA ∧ (dirEntry t line).fwd = true := by
  obtain ⟨hd, -⟩ := headMsg_some h
  have hline := dirEntry_line s line
  have hstable : (dirEntry s line).st.stable = true := by
    rcases hst with hst | hst <;> rw [hst] <;> rfl
  obtain ⟨t, hnet, hexec⟩ := write_handled (exec_getm s) h hlost hstable hq hkey (by decide)
  let e := keyed (dirEntry s line) (reqOf m)
  let q := counted (reqOf m)
  obtain ⟨hx, hforward⟩ := handleWrite_owned (s := t) (e := e) (q := q) (headMsg_kind h) hst ho (by rw [show q.die = d from hd]; exact hne)
  have hsent := (sendInvs_step (setEntry (cooled t e q) { writing e q with st := .mFA }) e q line).trans
    (sendMsg_step _ line { toDie .fwdGetM o e.line with req := q.die, key := q.key })
  have hentry : dirEntry (sendMsg (sendInvs (setEntry (cooled t e q) { writing e q with st := .mFA }) e q)
      { toDie .fwdGetM o e.line with req := q.die, key := q.key }) line = { writing e q with st := .mFA } := by
    rw [hsent.lookup]
    exact dirEntry_setEntry_kept hline (plainEntry_of_st nofun)
  rw [hx] at hexec
  refine ⟨_, hexec, sameData_of_net (hnet.trans ((cooled_step t e q line).rest.trans ((setEntry_netOnly ..).trans hsent.rest))), ?_, ?_, ?_⟩
  · have hmsg : ({ toDie .fwdGetM o e.line with req := q.die, key := q.key } : Msg) = { toDie .fwdGetM o line with req := d, key := m.key } := by
      rw [show q.die = d from hd, show e.line = line from hline]
      rfl
    rw [← hmsg]
    exact List.mem_append_right _ List.mem_cons_self
  · rw [hentry]
  · rw [hentry]
    exact hforward

theorem upg_granted (h : headMsg s .upg d line false = some m) (hst : (dirEntry s line).st = .s) (ho : (dirEntry s line).owner = none)
    (hs : (dirEntry s line).sharers = dieBit d) (hr : (dirEntry s line).redirects = 0) :
    ∃ t, exec (.upg d line) s = .next t ∧ SameData s t ∧ toDie .upgAck d line ∈ t.hub.dir.net ∧ (dirEntry t line).st = .m ∧
      (dirEntry t line).owner = some d ∧ (dirEntry t line).sharers = 0 := by
  obtain ⟨hd, -⟩ := headMsg_some h
  have hline := dirEntry_line s line
  obtain ⟨t, hnet, hexec⟩ := write_handled (exec_upg s) h hlost (by rw [hst]; rfl) hq hkey (by decide)
  let e := keyed (dirEntry s line) (reqOf m)
  let q := counted (reqOf m)
  have hx := handleWrite_upgrade (s := t) (e := e) (q := q) (headMsg_kind h) hst ho (by rw [show q.die = d from hd]; exact hs) hr
  rw [hx, grantWrite_upgrade] at hexec
  let w : DirEntry := { writing e q with invs := 0, rdis := 0 }
  have hwl : w.line = line := hline
  have hregion := writeRegion_step (cooled t e q) line w.line q.die w.collapsed
  have hentry : dirEntry (setEntry (writeRegion (cooled t e q) w.line q.die w.collapsed) (w.give q.die)) line = w.give q.die :=
    dirEntry_setEntry_kept hwl (plainEntry_of_st nofun)
  refine ⟨_, hexec, sameData_of_net (hnet.trans ((cooled_step t e q line).rest.trans (hregion.rest.trans
    ((setEntry_netOnly ..).trans (sendMsg_netOnly ..))))), ?_, ?_, ?_, ?_⟩
  · rw [← hd, ← hwl]
    exact List.mem_append_right _ List.mem_cons_self
  · exact congrArg DirEntry.st hentry
  · exact (congrArg DirEntry.owner hentry).trans (congrArg some hd)
  · exact congrArg DirEntry.sharers hentry

end

end Sys2Proof.DirectoryMessages
end

section
/-! PROOFS.
What the directory does with Puts (R298, R300, R308), acknowledgements (R301, R306, R307) and the answers of memory. -/

-- One proof at a time: the check of the whole text has a limit on memory, which many threads would reach.
set_option Elab.async false

namespace Sys2Proof.DirectoryMessages

open Sys2Proof.Machine Sys2Proof.Safety Sys2Proof.DeviceStep Sys2Proof.Walks Sys2Proof.DieSide Sys2Proof.DirectorySteps

variable {s : State} {d : DieNo} {line : Nat} {m : Msg}

/-! ### A line stored at rest -/

theorem rest_st {e : DirEntry} (h : e.owner = none) : e.rest.st = if e.sharers = 0 then .i else .s := by
  rw [DirEntry.rest, h]

theorem rest_of_i {e : DirEntry} (h : e.rest.st = .i) : e.owner = none ∧ e.sharers = 0 := by
  cases ho : e.owner with
  | none =>
    rw [rest_st ho] at h
    refine ⟨rfl, ?_⟩
    by_contra hs
    rw [if_neg hs] at h
    cases h
  | some o =>
    rw [DirEntry.rest, ho] at h
    dsimp only at h
    split at h <;> cases h

/-- An entry stored at rest, or forgotten because nothing is left in it. -/
theorem rest_stored (t : State) {e : DirEntry} (hline : e.line = line) :
    (dirEntry (setEntry t e.rest) line).owner = e.owner ∧ (dirEntry (setEntry t e.rest) line).sharers = e.sharers ∧
      (dirEntry (setEntry t e.rest) line).st = e.rest.st ∧ (dirEntry (setEntry t e.rest) line).redirects = e.redirects := by
  rw [dirEntry_setEntry (e := e.rest) hline]
  split
  · next hplain =>
    simp only [plainEntry, Bool.and_eq_true, beq_iff_eq] at hplain
    obtain ⟨⟨⟨⟨hst, -⟩, hred⟩, -⟩, -⟩ := hplain
    obtain ⟨ho, hs⟩ := rest_of_i hst
    exact ⟨ho.symm, hs.symm, hst.symm, hred.symm⟩
  · exact ⟨rfl, rfl, rfl, rfl⟩

theorem calm_rest {e : DirEntry} (h : Calm e) : Calm e.rest := ⟨h.queue, h.late, h.trim⟩

theorem resume_rest {t : State} {e : DirEntry} (hline : e.line = line) (h : Calm e) :
    resume (setEntry t e.rest) line = setEntry t e.rest := resume_calm (calm_setEntry hline (calm_rest h))

/-! ### Puts of an owner (R298, R300) -/

theorem dirEntry_countQuiet (s : State) (n line : Nat) : dirEntry (countQuiet s n) line = dirEntry s line := rfl

/-- A delivered message's states, one behind the other. -/
theorem netAfter_of_net {t v : State} {out : List Msg} (h : NetAfter s t m out) (hnet : v.hub.dir.net = t.hub.dir.net) : NetAfter s v m out :=
  hnet.trans h

theorem staleAt_owner (ho : (dirEntry s line).owner = some d) (hst : (dirEntry s line).st.stable = true) :
    staleAt (dirEntry s line) d = false := by
  have hne : ∀ x : DirSt, x.stable = false → ((dirEntry s line).st == x) = false := by
    intro x hx
    refine beq_eq_false_iff_ne.mpr fun hc => ?_
    rw [hc, hx] at hst
    cases hst
  rw [staleAt, ho, hne .mFA rfl, hne .sMA rfl]
  simp

theorem staleAt_other (ho : (dirEntry s line).owner ≠ some d) : staleAt (dirEntry s line) d = true := by
  rw [staleAt, bne_iff_ne.mpr ho]
  rfl

/-- A Put from a die that is no longer the owner is answered as stale. -/
theorem put_stale (ho : (dirEntry s line).owner ≠ some d) {k : MsgKind} {i : Instr} {dirty : Bool}
    (hexec : exec i s = .next (deliver s k d line false (arrivePut dirty))) (h : headMsg s k d line false = some m) :
    ∃ t, exec i s = .next t ∧ SameData s t ∧ NetAfter s t m [toDie .putAckStale d line] ∧ dirEntry t line = dirEntry s line := by
  obtain ⟨hd, hm⟩ := headMsg_some h
  have harrive : arrivePut dirty (popMsg s m) m = sendMsg (countQuiet (popMsg s m) line) (toDie .putAckStale d line) := by
    unfold arrivePut
    dsimp only
    rw [hm, hd, dirEntry_countQuiet, dirEntry_popMsg, staleAt_other ho]
    rfl
  rw [deliver_head h, harrive] at hexec
  exact ⟨_, hexec, ⟨rfl, rfl⟩, sendMsg_after (t := countQuiet (popMsg s m) line) (popMsg_after s m) _, rfl⟩

/-- What the write of a Put leaves of the poisoned lines. -/
def putPoison (s : State) (m : Msg) : List Nat :=
  if m.poison then (if s.poison.contains m.line then s.poison else s.poison ++ [m.line]) else s.poison.filter fun l => l != m.line

/-- A dirty line given back, with its answer under way. -/
def putAnswer (s : State) (m : Msg) : State := sendMsg (countQuiet (popMsg s m) m.line) (toDie .putAck m.die m.line)

/-- A dirty line in memory. -/
def putBack (s : State) (m : Msg) : State :=
  writeMemLine { putAnswer s m with poison := putPoison (putAnswer s m) m } m.line m.data m.key

theorem writeMemLine_rest (t : State) (n : Nat) (v : BitVec 1024) (key : BitVec 8) :
    (writeMemLine t n v key).units = t.units ∧ (writeMemLine t n v key).hub = t.hub := by
  unfold writeMemLine
  exact ⟨rfl, rfl⟩

theorem putBack_rest (s : State) (m : Msg) : (putBack s m).units = s.units ∧ NetAfter s (putBack s m) m [toDie .putAck m.die m.line] := by
  obtain ⟨hunits, hhub⟩ := writeMemLine_rest { putAnswer s m with poison := putPoison (putAnswer s m) m } m.line m.data m.key
  have hsent : NetAfter s (putAnswer s m) m [toDie .putAck m.die m.line] :=
    sendMsg_after (t := countQuiet (popMsg s m) m.line) (popMsg_after s m) _
  exact ⟨hunits, netAfter_of_net hsent (congrArg (fun h : Hub => h.dir.net) hhub)⟩

theorem putBack_line (h : Memory.wf s.mem = true) (m : Msg) : memLine (putBack s m) m.line m.key = m.data := by
  have hself := memLine_writeMemLine_self (s := { putAnswer s m with poison := putPoison (putAnswer s m) m }) h m.line m.data m.key m.key
  rwa [rekey_self] at hself

/-- A line's entry in X_WB. -/
def awaitWrite (t : State) (e : DirEntry) : State :=
  (setEntry t { e with owner := none, st := .xWB }).modDir fun d => { d with mem := d.mem ++ [(e.line, false)] }

theorem awaitWrite_entry (t : State) {e : DirEntry} (hline : e.line = line) :
    dirEntry (awaitWrite t e) line = { e with owner := none, st := .xWB } :=
  dirEntry_setEntry_kept (s := t) (e := { e with owner := none, st := .xWB }) hline (plainEntry_of_st nofun)

theorem awaitWrite_rest (t : State) (e : DirEntry) : (awaitWrite t e).units = t.units ∧ (awaitWrite t e).hub.dir.net = t.hub.dir.net ∧
    (e.line, false) ∈ (awaitWrite t e).hub.dir.mem ∧ ∀ n key, memLine (awaitWrite t e) n key = memLine t n key :=
  ⟨rfl, rfl, List.mem_append_right _ List.mem_cons_self, fun n key => memLine_congr rfl rfl rfl n key⟩

section
variable (ho : (dirEntry s line).owner = some d) (hst : (dirEntry s line).st.stable = true)
include ho hst

/-- The owner gives the line back. -/
theorem put_taken {k : MsgKind} {i : Instr} {dirty : Bool} (hexec : exec i s = .next (deliver s k d line false (arrivePut dirty)))
    (h : headMsg s k d line false = some m) :
    exec i s = .next (takeBack (countQuiet (popMsg s m) line) (dirEntry s line) m dirty) := by
  obtain ⟨hd, hm⟩ := headMsg_some h
  rw [hexec, deliver_head h]
  unfold arrivePut
  dsimp only
  rw [hm, hd, dirEntry_countQuiet, dirEntry_popMsg, staleAt_owner ho hst]
  rfl

/-- A dirty line is written to memory, and its entry waits for that. -/
theorem put_dirty {k : MsgKind} {i : Instr} (hexec : exec i s = .next (deliver s k d line false (arrivePut true)))
    (h : headMsg s k d line false = some m) : ∃ t, exec i s = .next t ∧ t.units = s.units ∧ NetAfter s t m [toDie .putAck d line] ∧
      (dirEntry t line).st = .xWB ∧ (dirEntry t line).owner = none ∧ (line, false) ∈ t.hub.dir.mem ∧
      (Canonical s → memLine t line m.key = m.data) := by
  obtain ⟨hd, hm⟩ := headMsg_some h
  have hline := dirEntry_line s line
  have hback : takeBack (countQuiet (popMsg s m) line) (dirEntry s line) m true = awaitWrite (putBack s m) (dirEntry s line) := by
    unfold takeBack
    dsimp only
    rw [hst, ← hm]
    rfl
  obtain ⟨hunits, hnet⟩ := putBack_rest s m
  obtain ⟨haunits, hanet, hamem, haline⟩ := awaitWrite_rest (putBack s m) (dirEntry s line)
  have hentry := awaitWrite_entry (putBack s m) hline
  rw [hm, hd] at hnet
  rw [hline] at hamem
  rw [put_taken ho hst hexec h, hback]
  refine ⟨_, rfl, haunits.trans hunits, netAfter_of_net hnet hanet, congrArg DirEntry.st hentry, congrArg DirEntry.owner hentry, hamem,
    fun hs => ?_⟩
  rw [haline, ← hm]
  exact putBack_line hs.1 m

/-- A clean line leaves its entry with what else holds it. -/
theorem put_clean (h : headMsg s .putE d line false = some m) (hc : Calm (dirEntry s line)) :
    ∃ t, exec (.pute d line) s = .next t ∧ SameData s t ∧ NetAfter s t m [toDie .putAck d line] ∧ (dirEntry t line).owner = none ∧
      (dirEntry t line).st = (if (dirEntry s line).sharers = 0 then .i else .s) := by
  obtain ⟨hd, rfl⟩ := headMsg_some h
  have hline := dirEntry_line s m.line
  let e : DirEntry := { dirEntry s m.line with owner := none }
  have hback : takeBack (countQuiet (popMsg s m) m.line) (dirEntry s m.line) m false = setEntry (putAnswer s m) e.rest := by
    have hresume : resume (setEntry (putAnswer s m) e.rest) m.line = setEntry (putAnswer s m) e.rest :=
      resume_rest hline ⟨hc.queue, hc.late, hc.trim⟩
    unfold takeBack
    dsimp only
    rw [hst]
    exact hresume
  have hsent : NetAfter s (putAnswer s m) m [toDie .putAck m.die m.line] :=
    sendMsg_after (t := countQuiet (popMsg s m) m.line) (popMsg_after s m) _
  rw [hd] at hsent
  obtain ⟨howner, -, hrest, -⟩ := rest_stored (putAnswer s m) (e := e) hline
  rw [put_taken ho hst (exec_pute s) h, hback]
  exact ⟨_, rfl, ⟨rfl, rfl⟩, hsent, howner, hrest.trans (rest_st rfl)⟩

end

/-! ### PutS (R308) -/

theorem puts_answered (h : headMsg s .putS d line false = some m) (hst : (dirEntry s line).st.stable = true) (hc : Calm (dirEntry s line))
    (hhelp : (dirEntry s line).helpers.getLsbD d.val = false ∨ (dirEntry s line).redirects = 0) :
    ∃ t, exec (.puts d line) s = .next t ∧ SameData s t ∧ NetAfter s t m [toDie .putAck d line] ∧
      (dirEntry t line).sharers = (dirEntry s line).sharers &&& ~~~(dieBit d) := by
  obtain ⟨hd, hm⟩ := headMsg_some h
  have hline := dirEntry_line s line
  let e : DirEntry := { dirEntry s line with sharers := (dirEntry s line).sharers &&& ~~~(dieBit d),
                                             helpers := (dirEntry s line).helpers &&& ~~~(dieBit d) }
  let v := sendMsg (setEntry (countQuiet (popMsg s m) line) e.rest) (toDie .putAck d line)
  have hno : ((dirEntry s line).helpers.getLsbD d.val && (dirEntry s line).redirects != 0) = false := by
    rcases hhelp with hhelp | hhelp <;> rw [hhelp]
    · rfl
    · rw [bne_self_eq_false, Bool.and_false]
  have hcalm : Calm (dirEntry v line) := calm_setEntry (s := countQuiet (popMsg s m) line) hline (calm_rest ⟨hc.queue, hc.late, hc.trim⟩)
  have harrive : arrivePutS (popMsg s m) m = v := by
    unfold arrivePutS
    dsimp only
    rw [hm, hd, dirEntry_countQuiet, dirEntry_popMsg, hno, hst]
    exact resume_calm hcalm
  obtain ⟨-, hsharers, -, -⟩ := rest_stored (countQuiet (popMsg s m) line) (e := e) hline
  refine ⟨v, ?_, ⟨rfl, rfl⟩, sendMsg_after (t := setEntry (countQuiet (popMsg s m) line) e.rest) (popMsg_after s m) _, hsharers⟩
  rw [exec_puts, execPuts, deliver_head h, harrive]

/-! ### A line's data while an acknowledgement is taken (R301) -/

theorem any_removeFirst {α : Type} {p q : α → Bool} {l : List α} (h : ∀ x ∈ l, p x = true → q x = false) :
    (removeFirst p l).any q = l.any q := by
  induction l with
  | nil => rfl
  | cons x l ih =>
    rw [removeFirst]
    split
    · next hx => rw [List.any_cons, h x List.mem_cons_self hx, Bool.false_or]
    · rw [List.any_cons, List.any_cons, ih fun y hy => h y (List.mem_cons_of_mem _ hy)]

theorem find?_removeFirst {α : Type} {p q : α → Bool} {l : List α} (h : ∀ x ∈ l, p x = true → q x = false) :
    (removeFirst p l).find? q = l.find? q := by
  induction l with
  | nil => rfl
  | cons x l ih =>
    rw [removeFirst]
    split
    · next hx => rw [List.find?_cons_of_neg (by rw [h x List.mem_cons_self hx]; decide)]
    · rw [List.find?_cons, List.find?_cons, ih fun y hy => h y (List.mem_cons_of_mem _ hy)]

/-- The states agree about who holds a line's data. -/
structure SameHolders (s t : State) (line : Nat) : Prop where
  find : ∀ q : Msg → Bool, (∀ m, q m = true → m.toDie = true) → t.hub.dir.net.find? q = s.hub.dir.net.find? q
  puts : ∀ d, putWaits t d line = putWaits s d line
  asked : ∀ d, writeAsked t d line = writeAsked s d line
  grants : ∀ d, granting t d line = granting s d line
  owner : dirOwner t line = dirOwner s line
  slice : ∀ d, sliceLine? (t.die d) line = sliceLine? (s.die d) line

namespace SameHolders

variable {t : State}

theorem bytesWait {l : SliceLine} (h : SameHolders s t l.line) (d : DieNo) : bytesWait t d l = bytesWait s d l := by
  rw [Machine.bytesWait, h.asked, h.grants, Machine.bytesWait]

theorem ownerCopy (h : SameHolders s t line) (d : DieNo) : ownerCopy t d line = ownerCopy s d line := by
  unfold Machine.ownerCopy
  rw [h.slice]
  cases hl : sliceLine? (s.die d) line with
  | none => rfl
  | some l =>
    have hline : l.line = line := by simpa using List.find?_some hl
    have hwait : Machine.bytesWait t d l = Machine.bytesWait s d l := bytesWait (hline ▸ h) d
    simp only [deviceCopy, hwait, h.puts, h.owner]

theorem dataOnWay {x : Msg} (h : SameHolders s t x.line) : dataOnWay t x = dataOnWay s x := by
  simp only [Machine.dataOnWay, h.slice, h.asked]

theorem heldLine (h : SameHolders s t line) : heldLine t line = heldLine s line := by
  have hfind := h.find (fun m => m.line == line && m.toDie && (m.kind == .fwdData && !m.shared || m.kind == .dataM)) fun m hm => by
    simp only [Bool.and_eq_true] at hm
    exact hm.1.2
  unfold Machine.heldLine
  rw [hfind]
  cases hm : s.hub.dir.net.find? fun m => m.line == line && m.toDie && (m.kind == .fwdData && !m.shared || m.kind == .dataM) with
  | none => simp only [h.ownerCopy]
  | some x =>
    have hline : x.line = line := by
      have hp := List.find?_some hm
      simp only [Bool.and_eq_true, beq_iff_eq] at hp
      exact hp.1.1
    exact congrArg some (dataOnWay (hline ▸ h))

/-- A line's data at device scope. -/
theorem deviceLine (h : SameHolders s t line) (hr : NetOnly s t) (key : BitVec 8) : deviceLine t line key = deviceLine s line key := by
  have hmem : memLine t line key = memLine s line key := memLine_congr hr.mem (by rw [hr.eq]) hr.device.keys line key
  have hpoison : t.poison = s.poison := by rw [hr.eq]
  unfold Machine.deviceLine
  rw [h.heldLine]
  cases Machine.heldLine s line with
  | none => rw [hmem, hpoison]
  | some x =>
    obtain ⟨v, p, k⟩ := x
    dsimp only
    rw [rekey_congr hr.device.keys]

end SameHolders

end Sys2Proof.DirectoryMessages
end

section
/-! PROOFS.
What the directory does with acknowledgements (R299, R301, R306, R307). -/

-- One proof at a time: the check of the whole text has a limit on memory, which many threads would reach.
set_option Elab.async false

namespace Sys2Proof.DirectoryMessages

open Sys2Proof.Machine Sys2Proof.Safety Sys2Proof.DeviceStep Sys2Proof.Walks Sys2Proof.DieSide Sys2Proof.DirectorySteps

variable {s t : State} {d : DieNo} {line : Nat} {m : Msg} {e : DirEntry} {q : DirReq}

/-! ### Grants (R299, R301) -/

/-- The entry of a line that a die owns alone. -/
def granted (t : State) (e : DirEntry) (r : DieNo) : State := setEntry (writeRegion t e.line r e.collapsed) (e.give r)

theorem grantWrite_data (t : State) (e : DirEntry) (q : DirReq) : grantWrite t e q false false =
    sendLine (granted t e q.die) .dataM q.die e.line (deviceLine t e.line q.key) q.key := rfl

theorem grantWrite_forward (t : State) (e : DirEntry) (q : DirReq) : grantWrite t e q false true = granted t e q.die := rfl

theorem granted_entry (t : State) (r : DieNo) (hline : e.line = line) : dirEntry (granted t e r) line = e.give r :=
  dirEntry_setEntry_kept (s := writeRegion t e.line r e.collapsed) hline (plainEntry_of_st nofun)

theorem granted_net (t : State) (e : DirEntry) (r : DieNo) : (granted t e r).hub.dir.net = t.hub.dir.net :=
  (writeRegion_step t e.line e.line r e.collapsed).net.trans (List.append_nil _)

theorem granted_netOnly (t : State) (e : DirEntry) (r : DieNo) : NetOnly t (granted t e r) :=
  (writeRegion_step t e.line e.line r e.collapsed).rest.trans (setEntry_netOnly ..)

/-- A line granted with its data. -/
theorem resume_grantWrite_data (t : State) (q : DirReq) (hline : e.line = line) (hc : Calm e) :
    resume (grantWrite t e q false false) line = sendLine (granted t e q.die) .dataM q.die line (deviceLine t line q.key) q.key := by
  subst hline
  rw [grantWrite_data]
  refine resume_calm ?_
  have hentry : dirEntry (sendLine (granted t e q.die) .dataM q.die e.line (deviceLine t e.line q.key) q.key) e.line = e.give q.die :=
    granted_entry t q.die rfl
  rw [hentry]
  exact ⟨hc.queue, hc.late, rfl⟩

/-- A line granted, its data sent by the die that owned it. -/
theorem resume_grantWrite_forward (t : State) (q : DirReq) (hline : e.line = line) (hc : Calm e) :
    resume (grantWrite t e q false true) line = granted t e q.die := by
  rw [grantWrite_forward]
  refine resume_calm ?_
  rw [granted_entry t q.die hline]
  exact ⟨hc.queue, hc.late, rfl⟩

/-! ### What an acknowledgement lets a line do -/

theorem settleEntry_waits (h : (dirEntry t line).acked = false) : settleEntry t line = t := by
  unfold settleEntry
  dsimp only
  rw [h]
  rfl

section
variable (he : dirEntry t line = e) (hack : e.acked = true)
include he hack

theorem settleEntry_write (hst : e.st = .sMA) (hcur : e.cur = some q) (hk : q.kind = .getM) (ho : e.owner = none) :
    settleEntry t line = resume (grantWrite t e q false false) line := by
  unfold settleEntry
  dsimp only
  rw [he, hack, hst, hcur]
  dsimp only
  rw [hk, ho]
  rfl

theorem settleEntry_forwarded (hst : e.st = .mFA) (hcur : e.cur = some q) : settleEntry t line = resume (grantWrite t e q false true) line := by
  unfold settleEntry
  dsimp only
  rw [he, hack, hst, hcur]
  rfl

theorem settleEntry_shared (hst : e.st = .mFS) (hoff : dirPushen t = false) : settleEntry t line = resume (setEntry t e.rest) line := by
  unfold settleEntry
  dsimp only
  rw [he, hack, hst]
  exact congrArg (fun v => resume v line) (pushHot_off (s := setEntry t e.rest) hoff line)

theorem settleEntry_pushed (hst : e.st = .pA) : settleEntry t line = resume (setEntry t e.rest) line := by
  unfold settleEntry
  dsimp only
  rw [he, hack, hst]
  rfl

end

/-- A line at rest waits for no acknowledgement. -/
theorem rest_acked (t : State) (hline : e.line = line) (hack : e.acked = true) :
    (dirEntry (setEntry t e.rest) line).rdis = e.rdis ∧ (dirEntry (setEntry t e.rest) line).pushes = e.pushes := by
  simp only [DirEntry.acked, Bool.and_eq_true, beq_iff_eq] at hack
  obtain ⟨⟨⟨-, hrdis⟩, hpushes⟩, -⟩ := hack
  rw [dirEntry_setEntry (e := e.rest) hline]
  split
  · exact ⟨hrdis.symm, hpushes.symm⟩
  · exact ⟨rfl, rfl⟩

/-- A pushed line keeps what its acknowledgements have left, and comes to rest with the last. -/
theorem settleEntry_pA (he : dirEntry t line = e) (hst : e.st = .pA) (hc : Calm e) :
    NetOnly t (settleEntry t line) ∧ (settleEntry t line).hub.dir.net = t.hub.dir.net ∧ (dirEntry (settleEntry t line) line).rdis = e.rdis ∧
      (dirEntry (settleEntry t line) line).pushes = e.pushes ∧ (dirEntry (settleEntry t line) line).redirects = e.redirects := by
  have hline : e.line = line := he ▸ dirEntry_line t line
  cases hack : e.acked with
  | false =>
    rw [settleEntry_waits (he ▸ hack), he]
    exact ⟨.refl t, rfl, rfl, rfl, rfl⟩
  | true =>
    rw [settleEntry_pushed he hack hst, resume_rest hline hc]
    obtain ⟨-, -, -, hred⟩ := rest_stored t hline
    obtain ⟨hrdis, hpushes⟩ := rest_acked t hline hack
    exact ⟨setEntry_netOnly .., rfl, hrdis, hpushes, hred⟩

/-! ### Acknowledgements delivered -/

theorem headMsg_up {k : MsgKind} (h : headMsg s k d line false = some m) : m.toDie = false := by
  unfold headMsg at h
  split at h
  · next x hx =>
    obtain ⟨-, rfl⟩ := Option.ite_none_right_eq_some.mp h |>.imp id Option.some.inj
    have hfound := List.find?_some hx
    simp only [Bool.and_eq_true, beq_iff_eq] at hfound
    exact hfound.2
  · cases h

section
variable {k : MsgKind} (h : headMsg s k d line false = some m)
include h

/-- An acknowledgement holds no data and asks for none: a line's data stay where they are while it is taken. -/
theorem ack_sameHolders (hput : isPut m = false) (hwrite : isWrite m.kind = false) (hst : (dirEntry s line).st ≠ .i)
    (hline : e.line = line) (hkept : plainEntry e = false) (hqueue : e.queue = (dirEntry s line).queue)
    (hcur : e.cur = (dirEntry s line).cur) (howner : e.owner = (dirEntry s line).owner) :
    SameHolders s (setEntry (popMsg s m) e) line := by
  have hup := headMsg_up h
  have hold : dirEntry? s line = some (dirEntry s line) := by
    cases hentry : dirEntry? s line with
    | none => exact absurd (by rw [dirEntry, hentry]; rfl) hst
    | some x => rw [dirEntry, hentry]; rfl
  have hnew : dirEntry? (setEntry (popMsg s m) e) line = some e := by rw [dirEntry?_setEntry hline, hkept]; rfl
  have hother (p : Msg → Bool) (hp : p m = false) : ∀ x ∈ s.hub.dir.net, (x == m) = true → p x = false := by
    intro x _ hx
    rw [eq_of_beq hx, hp]
  have hgrants : ∀ x, granting (setEntry (popMsg s m) e) x line = granting s x line := by
    intro x
    simp only [granting, hnew, hold, Option.bind_some, hcur]
  refine ⟨fun p hp => ?_, fun x => ?_, fun x => ?_, hgrants, ?_, fun _ => rfl⟩
  · refine find?_removeFirst (hother p ?_)
    by_contra hc
    rw [hp m (by simpa using hc)] at hup
    cases hup
  · refine any_removeFirst (hother _ ?_)
    rw [hput, Bool.and_false]
  · unfold writeAsked
    have hnet : ((setEntry (popMsg s m) e).hub.dir.net.any fun m => !m.toDie && m.die == x && m.line == line && isWrite m.kind) =
        s.hub.dir.net.any fun m => !m.toDie && m.die == x && m.line == line && isWrite m.kind :=
      any_removeFirst (hother _ (by rw [hwrite, Bool.and_false]))
    rw [hgrants, hnet, hnew, hold]
    dsimp only
    rw [hqueue]
  · simp only [dirOwner, hnew, hold, Option.bind_some, howner]

end

/-- A line's entry that an InvAck of a die leaves. -/
def disowned (e : DirEntry) (d : DieNo) : DirEntry :=
  { e with invs := e.invs &&& ~~~(dieBit d), sharers := e.sharers &&& ~~~(dieBit d), helpers := e.helpers &&& ~~~(dieBit d),
           owner := if e.owner = some d then none else e.owner }

section
variable (h : headMsg s .invAck d line false = some m)
include h

theorem exec_invack_head : exec (.invack d line) s = .next (settleEntry (setEntry (popMsg s m) (disowned (dirEntry s line) d)) line) := by
  obtain ⟨rfl, -⟩ := headMsg_some h
  rw [exec_invack, execInvack, deliver_head h]
  rfl

variable (hst : (dirEntry s line).st = .sMA)
include hst

omit h in
theorem disowned_entry : dirEntry (setEntry (popMsg s m) (disowned (dirEntry s line) d)) line = disowned (dirEntry s line) d :=
  dirEntry_setEntry_kept (s := popMsg s m) (e := disowned (dirEntry s line) d) (dirEntry_line s line)
    (plainEntry_of_st (by rw [show (disowned (dirEntry s line) d).st = .sMA from hst]; decide))

theorem invAck_waits (hmore : (dirEntry s line).invs &&& ~~~(dieBit d) ≠ 0) :
    ∃ t, exec (.invack d line) s = .next t ∧ SameData s t ∧ NetAfter s t m [] ∧ (dirEntry t line).st = .sMA ∧
      (dirEntry t line).invs = (dirEntry s line).invs &&& ~~~(dieBit d) ∧
      (dirEntry t line).sharers = (dirEntry s line).sharers &&& ~~~(dieBit d) := by
  have hentry := disowned_entry (d := d) (m := m) hst
  have hwaits : settleEntry (setEntry (popMsg s m) (disowned (dirEntry s line) d)) line =
      setEntry (popMsg s m) (disowned (dirEntry s line) d) := by
    refine settleEntry_waits ?_
    rw [hentry, DirEntry.acked, beq_eq_false_iff_ne.mpr (show (disowned (dirEntry s line) d).invs ≠ 0 from hmore)]
    rfl
  rw [exec_invack_head h, hwaits]
  exact ⟨_, rfl, ⟨rfl, rfl⟩, popMsg_after s m, (congrArg DirEntry.st hentry).trans hst, congrArg DirEntry.invs hentry,
    congrArg DirEntry.sharers hentry⟩

theorem invAck_grants (ho : (dirEntry s line).owner = none) (hcur : (dirEntry s line).cur = some q)
    (hlast : (dirEntry s line).invs &&& ~~~(dieBit d) = 0) (hrdis : (dirEntry s line).rdis = 0) (hpushes : (dirEntry s line).pushes = 0)
    (hfwd : (dirEntry s line).fwd = false) (hc : Calm (dirEntry s line)) (hk : q.kind = .getM) :
    ∃ t, exec (.invack d line) s = .next t ∧ SameData s t ∧
      NetAfter s t m [dataTo .dataM q.die line (deviceLine s line q.key) q.key] ∧ (dirEntry t line).st = .m ∧
      (dirEntry t line).owner = some q.die ∧ (dirEntry t line).sharers = 0 := by
  let e := disowned (dirEntry s line) d
  have hline : e.line = line := dirEntry_line s line
  have hentry : dirEntry (setEntry (popMsg s m) e) line = e := disowned_entry (d := d) (m := m) hst
  have howner : e.owner = (dirEntry s line).owner := by
    show (if (dirEntry s line).owner = some d then none else (dirEntry s line).owner) = _
    rw [ho]
    rfl
  have hack : e.acked = true := by
    rw [DirEntry.acked, show e.invs = 0 from hlast, show e.rdis = 0 from hrdis, show e.pushes = 0 from hpushes, show e.fwd = false from hfwd]
    rfl
  have hkind := headMsg_kind h
  have hdata : deviceLine (setEntry (popMsg s m) e) line q.key = deviceLine s line q.key :=
    SameHolders.deviceLine (ack_sameHolders h (by rw [isPut, hkind]; rfl) (by rw [isWrite, hkind]; rfl) (by rw [hst]; decide) hline
      (plainEntry_of_st (by rw [show e.st = .sMA from hst]; decide)) rfl rfl howner)
      ((popMsg_netOnly s m).trans (setEntry_netOnly ..)) q.key
  have hsettled : settleEntry (setEntry (popMsg s m) e) line =
      sendLine (granted (setEntry (popMsg s m) e) e q.die) .dataM q.die line (deviceLine s line q.key) q.key := by
    rw [settleEntry_write hentry hack hst hcur hk (howner.trans ho), resume_grantWrite_data _ q hline ⟨hc.queue, hc.late, hc.trim⟩, hdata]
  have hgiven := granted_entry (setEntry (popMsg s m) e) q.die hline
  rw [exec_invack_head h, hsettled]
  refine ⟨_, rfl, sameData_of_net ((popMsg_netOnly s m).trans ((setEntry_netOnly ..).trans ((granted_netOnly ..).trans (sendMsg_netOnly ..)))),
    ?_, congrArg DirEntry.st hgiven, congrArg DirEntry.owner hgiven, congrArg DirEntry.sharers hgiven⟩
  exact congrArg (· ++ [_]) (granted_net (setEntry (popMsg s m) e) e q.die)

end

/-- A line's entry whose owner has answered. -/
def answered (e : DirEntry) : DirEntry := { e with fwd := false }

section
variable (h : headMsg s .fwdAck d line false = some m) (hcur : (dirEntry s line).cur = some q) (hinvs : (dirEntry s line).invs = 0)
  (hrdis : (dirEntry s line).rdis = 0) (hpushes : (dirEntry s line).pushes = 0) (hc : Calm (dirEntry s line))
include h hinvs hrdis hpushes hc

omit hc in
/-- An owner's answer finds its line waiting for it alone. -/
theorem fwdAck_head (hst : (dirEntry s line).st = .mFA ∨ (dirEntry s line).st = .mFS) :
    exec (.fwdack d line) s = .next (settleEntry (setEntry (popMsg s m) (answered (dirEntry s line))) line) ∧
      dirEntry (setEntry (popMsg s m) (answered (dirEntry s line))) line = answered (dirEntry s line) ∧
      (answered (dirEntry s line)).acked = true := by
  have hentry : dirEntry (setEntry (popMsg s m) (answered (dirEntry s line))) line = answered (dirEntry s line) := by
    refine dirEntry_setEntry_kept (s := popMsg s m) (e := answered (dirEntry s line)) (dirEntry_line s line) (plainEntry_of_st ?_)
    show (dirEntry s line).st ≠ .i
    rcases hst with hst | hst <;> rw [hst] <;> decide
  have hno : ((dirEntry (setEntry (popMsg s m) (answered (dirEntry s line))) line).st == .pA) = false := by
    rw [hentry]
    show ((dirEntry s line).st == .pA) = false
    rcases hst with hst | hst <;> rw [hst] <;> rfl
  refine ⟨?_, hentry, ?_⟩
  · rw [exec_fwdack, execFwdack, deliver_head h]
    refine congrArg (fun v => Host.Outcome.next (settleEntry v line)) (if_neg ?_)
    rw [Bool.not_eq_true]
    exact hno
  · show ((dirEntry s line).invs == 0 && (dirEntry s line).rdis == 0 && (dirEntry s line).pushes == 0 && !false) = true
    rw [hinvs, hrdis, hpushes]
    rfl

include hcur in
theorem fwdAck_grants (hst : (dirEntry s line).st = .mFA) : ∃ t, exec (.fwdack d line) s = .next t ∧ SameData s t ∧ NetAfter s t m [] ∧
    (dirEntry t line).st = .m ∧ (dirEntry t line).owner = some q.die := by
  obtain ⟨hexec, hentry, hack⟩ := fwdAck_head h hinvs hrdis hpushes (.inl hst)
  have hline : (answered (dirEntry s line)).line = line := dirEntry_line s line
  have hgiven := granted_entry (setEntry (popMsg s m) (answered (dirEntry s line))) q.die hline
  rw [hexec, settleEntry_forwarded hentry hack hst hcur, resume_grantWrite_forward _ q hline ⟨hc.queue, hc.late, hc.trim⟩]
  exact ⟨_, rfl, sameData_of_net ((popMsg_netOnly s m).trans ((setEntry_netOnly ..).trans (granted_netOnly ..))),
    netAfter_of_net (t := setEntry (popMsg s m) (answered (dirEntry s line))) (popMsg_after s m) (granted_net ..),
    congrArg DirEntry.st hgiven, congrArg DirEntry.owner hgiven⟩

theorem fwdAck_shares {o : DieNo} (hst : (dirEntry s line).st = .mFS) (ho : (dirEntry s line).owner = some o) (hoff : dirPushen s = false) :
    ∃ t, exec (.fwdack d line) s = .next t ∧ SameData s t ∧ NetAfter s t m [] ∧ (dirEntry t line).owner = some o ∧
      (dirEntry t line).st = (if (dirEntry s line).sharers = 0 then .m else .o) := by
  obtain ⟨hexec, hentry, hack⟩ := fwdAck_head h hinvs hrdis hpushes (.inr hst)
  have hline : (answered (dirEntry s line)).line = line := dirEntry_line s line
  obtain ⟨howner, -, hrest, -⟩ := rest_stored (setEntry (popMsg s m) (answered (dirEntry s line))) hline
  rw [hexec, settleEntry_shared hentry hack hst hoff, resume_rest hline ⟨hc.queue, hc.late, hc.trim⟩]
  refine ⟨_, rfl, ⟨rfl, rfl⟩, popMsg_after s m, howner.trans ho, hrest.trans ?_⟩
  rw [DirEntry.rest, show (answered (dirEntry s line)).owner = some o from ho]
  rfl

end

/-! ### Redirect entries and pushes installed (R306, R307) -/

section
variable (hst : (dirEntry s line).st = .pA) (hc : Calm (dirEntry s line))
include hst hc

omit hst hc in
/-- A pushed line's entry stored with an acknowledgement taken. -/
theorem pushed_settled (m : Msg) {e : DirEntry} (hline : e.line = line) (hst' : e.st = .pA) (hc' : Calm e) :
    SameData s (settleEntry (setEntry (popMsg s m) e) line) ∧ NetAfter s (settleEntry (setEntry (popMsg s m) e) line) m [] ∧
      (dirEntry (settleEntry (setEntry (popMsg s m) e) line) line).rdis = e.rdis ∧
      (dirEntry (settleEntry (setEntry (popMsg s m) e) line) line).pushes = e.pushes ∧
      (dirEntry (settleEntry (setEntry (popMsg s m) e) line) line).redirects = e.redirects := by
  have hentry : dirEntry (setEntry (popMsg s m) e) line = e :=
    dirEntry_setEntry_kept (s := popMsg s m) hline (plainEntry_of_st (by rw [hst']; decide))
  obtain ⟨hrest, hnet, hrdis, hpushes, hred⟩ := settleEntry_pA hentry hst' hc'
  exact ⟨sameData_of_net ((popMsg_netOnly s m).trans ((setEntry_netOnly ..).trans hrest)),
    netAfter_of_net (t := setEntry (popMsg s m) e) (popMsg_after s m) hnet, hrdis, hpushes, hred⟩

theorem rdAck_taken (h : headMsg s .rdAck d line false = some m) : ∃ t, exec (.rdack d line) s = .next t ∧ SameData s t ∧
    NetAfter s t m [] ∧ (dirEntry t line).rdis = (dirEntry s line).rdis &&& ~~~(dieBit d) ∧
    (dirEntry t line).redirects = (dirEntry s line).redirects := by
  obtain ⟨rfl, -⟩ := headMsg_some h
  let e : DirEntry := { dirEntry s line with rdis := (dirEntry s line).rdis &&& ~~~(dieBit m.die) }
  have hexec : exec (.rdack m.die line) s = .next (settleEntry (setEntry (popMsg s m) e) line) := by
    rw [exec_rdack, execRdack, deliver_head h]
    exact congrArg (fun r => Host.Outcome.next (settleEntry (setEntry (popMsg s m) { e with redirects := r }) line)) (if_pos (beq_iff_eq.mpr hst))
  obtain ⟨hdata, hnet, hrdis, -, hred⟩ := pushed_settled m (e := e) (dirEntry_line s line) hst ⟨hc.queue, hc.late, hc.trim⟩
  exact ⟨_, hexec, hdata, hnet, hrdis, hred⟩

theorem pushAck_taken (h : headMsg s .pushAck d line false = some m) : ∃ t, exec (.pushAcknowledgement d line) s = .next t ∧ SameData s t ∧
    NetAfter s t m [] ∧ (dirEntry t line).pushes = (dirEntry s line).pushes &&& ~~~(dieBit d) := by
  obtain ⟨rfl, -⟩ := headMsg_some h
  let e : DirEntry := { dirEntry s line with pushes := (dirEntry s line).pushes &&& ~~~(dieBit m.die) }
  have hexec : exec (.pushAcknowledgement m.die line) s = .next (settleEntry (setEntry (popMsg s m) e) line) := by
    rw [exec_pushAcknowledgement, execPushAcknowledgement, deliver_head h]
    rfl
  obtain ⟨hdata, hnet, -, hpushes, -⟩ := pushed_settled m (e := e) (dirEntry_line s line) hst ⟨hc.queue, hc.late, hc.trim⟩
  exact ⟨_, hexec, hdata, hnet, hpushes⟩

end

end Sys2Proof.DirectoryMessages
end

section
/-! PROOFS.
What the directory does with the answers of memory (R298) and with reads that a helper answers (R306), and O57 settled. -/

-- One proof at a time: the check of the whole text has a limit on memory, which many threads would reach.
set_option Elab.async false

namespace Sys2Proof.DirectoryMessages

open Sys2Proof.Machine Sys2Proof.Safety Sys2Proof.DeviceStep Sys2Proof.Walks Sys2Proof.DieSide Sys2Proof.DirectorySteps

variable {s t : State} {d : DieNo} {line : Nat} {m : Msg} {e : DirEntry} {q : DirReq}

/-! ### A line read from memory (R298) -/

/-- The directory with an access to memory over. -/
def served (s : State) (x : Nat × Bool) : State := s.modDir fun d => { d with mem := removeFirst (fun y => y == x) d.mem }

theorem served_netOnly (s : State) (x : Nat × Bool) : NetOnly s (served s x) := modDir_netOnly s _

theorem served_sameHolders (s : State) (x : Nat × Bool) (line : Nat) : SameHolders s (served s x) line :=
  ⟨fun _ _ => rfl, fun _ => rfl, fun _ => rfl, fun _ => rfl, rfl, fun _ => rfl⟩

/-- A line's entry when memory has answered. -/
def filled (e : DirEntry) : DirEntry := { e with cur := none, st := .i, invs := 0, rdis := 0 }

/-- What memory's answer does for the request that awaits it. -/
def fillFor (s : State) (e : DirEntry) (q : DirReq) (line : Nat) : State :=
  if q.kind == .getS then
    if fills s e q.die && q.prefetch then
      sendLine (setEntry s { filled e with st := .s, sharers := dieBit q.die }) .dataS q.die line
        (memLine s line q.key, s.poison.contains line) q.key
    else if fills s e q.die then
      sendLine (setEntry s { filled e with st := .e, owner := some q.die }) .dataE q.die line
        (memLine s line q.key, s.poison.contains line) q.key
    else pushHot (answerNF (setEntry s (filled e)) (filled e) q) line
  else grantWrite s (filled e) q false false

/-- A line's data sent with an entry that something keeps. -/
theorem resume_sent (t : State) (k : MsgKind) (r : DieNo) (v : BitVec 1024 × Bool) (key : BitVec 8) (hline : e.line = line)
    (hst : e.st ≠ .i) (hc : Calm e) :
    resume (sendLine (setEntry t e) k r line v key) line = sendLine (setEntry t e) k r line v key ∧
      dirEntry (sendLine (setEntry t e) k r line v key) line = e := by
  have hentry : dirEntry (sendLine (setEntry t e) k r line v key) line = e :=
    dirEntry_setEntry_kept (s := t) hline (plainEntry_of_st hst)
  exact ⟨resume_calm (by rw [hentry]; exact hc), hentry⟩

/-- A push of a line with no request waiting leaves none to go on. -/
theorem resume_pushHot (hc : Calm (dirEntry t line)) : resume (pushHot t line) line = pushHot t line := by
  rcases pushHot_cases t line with h | ⟨helpers, readers, out, hstep⟩
  · rw [h, resume_calm hc]
  · have hentry : dirEntry (pushHot t line) line = pushedEntry (dirEntry t line) helpers readers :=
      hstep.lookup.trans (dirEntry_setEntry_kept (dirEntry_line t line) (plainEntry_of_st nofun))
    refine resume_of_queue (settleLate_transient (by rw [hentry]; rfl)) ?_
    rw [hentry]
    exact hc.queue

section
variable (hst : (dirEntry s line).st = .iD) (hcur : (dirEntry s line).cur = some q) (hin : (line, true) ∈ s.hub.dir.mem)
include hst hcur hin

theorem exec_memoryFill_for : exec (.memoryFill line) s = .next (resume (fillFor (served s (line, true)) (dirEntry s line) q line) line) := by
  have hgo : (!s.hub.dir.mem.contains (line, true) || (dirEntry s line).st != .iD) = false := by
    rw [List.contains_iff_mem.mpr hin, hst]
    rfl
  rw [exec_memoryFill, execMemoryFill]
  dsimp only
  rw [hgo, hcur]
  rfl

variable (hc : Calm (dirEntry s line))
include hc

theorem fill_read (hk : q.kind = .getS) (hfill : fills (served s (line, true)) (dirEntry s line) q.die = true) (hp : q.prefetch = false) :
    ∃ t, exec (.memoryFill line) s = .next t ∧ SameData s t ∧ (dirEntry t line).owner = some q.die ∧ (dirEntry t line).st = .e ∧
      t.hub.dir.net = s.hub.dir.net ++ [dataTo .dataE q.die line (memLine s line q.key, s.poison.contains line) q.key] := by
  have hline := dirEntry_line s line
  let e : DirEntry := { filled (dirEntry s line) with st := .e, owner := some q.die }
  have hmem : memLine (served s (line, true)) line q.key = memLine s line q.key := memLine_congr rfl rfl rfl _ _
  have hx : fillFor (served s (line, true)) (dirEntry s line) q line =
      sendLine (setEntry (served s (line, true)) e) .dataE q.die line (memLine s line q.key, s.poison.contains line) q.key := by
    unfold fillFor
    rw [hk, hfill, hp, hmem]
    rfl
  obtain ⟨hresume, hentry⟩ := resume_sent (e := e) (served s (line, true)) .dataE q.die (memLine s line q.key, s.poison.contains line) q.key
    hline nofun ⟨hc.queue, hc.late, hc.trim⟩
  rw [exec_memoryFill_for hst hcur hin, hx, hresume]
  exact ⟨_, rfl, ⟨rfl, rfl⟩, congrArg DirEntry.owner hentry, congrArg DirEntry.st hentry, rfl⟩

theorem fill_prefetch (hk : q.kind = .getS) (hfill : fills (served s (line, true)) (dirEntry s line) q.die = true) (hp : q.prefetch = true) :
    ∃ t, exec (.memoryFill line) s = .next t ∧ SameData s t ∧ (dirEntry t line).sharers = dieBit q.die ∧ (dirEntry t line).st = .s ∧
      t.hub.dir.net = s.hub.dir.net ++ [dataTo .dataS q.die line (memLine s line q.key, s.poison.contains line) q.key] := by
  have hline := dirEntry_line s line
  let e : DirEntry := { filled (dirEntry s line) with st := .s, sharers := dieBit q.die }
  have hmem : memLine (served s (line, true)) line q.key = memLine s line q.key := memLine_congr rfl rfl rfl _ _
  have hx : fillFor (served s (line, true)) (dirEntry s line) q line =
      sendLine (setEntry (served s (line, true)) e) .dataS q.die line (memLine s line q.key, s.poison.contains line) q.key := by
    unfold fillFor
    rw [hk, hfill, hp, hmem]
    rfl
  obtain ⟨hresume, hentry⟩ := resume_sent (e := e) (served s (line, true)) .dataS q.die (memLine s line q.key, s.poison.contains line) q.key
    hline nofun ⟨hc.queue, hc.late, hc.trim⟩
  rw [exec_memoryFill_for hst hcur hin, hx, hresume]
  exact ⟨_, rfl, ⟨rfl, rfl⟩, congrArg DirEntry.sharers hentry, congrArg DirEntry.st hentry, rfl⟩

/-- A read that its die does not keep, and the push that it may set off. -/
theorem fill_remote (hk : q.kind = .getS) (hno : fills (served s (line, true)) (dirEntry s line) q.die = false) :
    ∃ t, exec (.memoryFill line) s = .next t ∧ SameData s t ∧
      dataTo .dataNF q.die line (memLine s line q.key, s.poison.contains line) q.key ∈ t.hub.dir.net := by
  have hline : (filled (dirEntry s line)).line = line := dirEntry_line s line
  let v := answerNF (setEntry (served s (line, true)) (filled (dirEntry s line))) (filled (dirEntry s line)) q
  have hx : fillFor (served s (line, true)) (dirEntry s line) q line = pushHot v line := by
    unfold fillFor
    rw [hk, hno]
    rfl
  have hcount := countEvent_step (setEntry (served s (line, true)) (filled (dirEntry s line))) line (filled (dirEntry s line)).line [q.die] .nofill
  have hmem : memLine (setEntry (served s (line, true)) (filled (dirEntry s line))) line q.key = memLine s line q.key :=
    memLine_congr rfl rfl rfl _ _
  have hsent : v = sendLine (countEvent (setEntry (served s (line, true)) (filled (dirEntry s line))) line [q.die] .nofill) .dataNF q.die line
      (memLine s line q.key, s.poison.contains line) q.key := by
    unfold v answerNF
    rw [hline, hmem]
    rfl
  rw [hline] at hcount
  have hcalm : Calm (dirEntry v line) := by
    have hlookup : dirEntry v line = dirEntry (countEvent (setEntry (served s (line, true)) (filled (dirEntry s line))) line [q.die] .nofill) line := by
      rw [hsent]
      rfl
    rw [hlookup, hcount.lookup]
    exact calm_setEntry hline ⟨hc.queue, hc.late, hc.trim⟩
  obtain ⟨hpush, hkept, -⟩ := pushHot_grows v line
  rw [exec_memoryFill_for hst hcur hin, hx, resume_pushHot hcalm]
  refine ⟨_, rfl, sameData_of_net (NetOnly.trans (t := v) ?_ hpush), hkept _ ?_⟩
  · rw [hsent]
    exact (served_netOnly s _).trans ((setEntry_netOnly ..).trans (hcount.rest.trans (sendMsg_netOnly ..)))
  · rw [hsent]
    exact List.mem_append_right _ List.mem_cons_self

theorem fill_write (hk : q.kind ≠ .getS) : ∃ t, exec (.memoryFill line) s = .next t ∧ SameData s t ∧
    (dirEntry t line).owner = some q.die ∧ (dirEntry t line).st = .m ∧
    t.hub.dir.net = s.hub.dir.net ++ [dataTo .dataM q.die line (deviceLine s line q.key) q.key] := by
  have hline : (filled (dirEntry s line)).line = line := dirEntry_line s line
  have hx : fillFor (served s (line, true)) (dirEntry s line) q line =
      grantWrite (served s (line, true)) (filled (dirEntry s line)) q false false := by
    unfold fillFor
    rw [beq_eq_false_iff_ne.mpr hk]
    rfl
  have hdata : deviceLine (served s (line, true)) line q.key = deviceLine s line q.key :=
    SameHolders.deviceLine (served_sameHolders s _ line) (served_netOnly s _) q.key
  have hgiven := granted_entry (served s (line, true)) q.die hline
  rw [exec_memoryFill_for hst hcur hin, hx, resume_grantWrite_data _ q hline ⟨hc.queue, hc.late, hc.trim⟩, hdata]
  refine ⟨_, rfl, sameData_of_net ((served_netOnly s _).trans ((granted_netOnly ..).trans (sendMsg_netOnly ..))),
    congrArg DirEntry.owner hgiven, congrArg DirEntry.st hgiven, ?_⟩
  exact congrArg (· ++ [_]) (granted_net (served s (line, true)) (filled (dirEntry s line)) q.die)

omit hst hcur hin hc in
theorem fills_home (hd : q.die = homeOf line) : fills (served s (line, true)) (dirEntry s line) q.die = true := by
  rw [fills, dirEntry_line, hd, beq_self_eq_true, Bool.true_or]

omit hst hcur hin hc in
/-- With REPEN clear a read of another die than the home is never kept. -/
theorem fills_remote (hd : q.die ≠ homeOf line) (hrep : dirRepen s = false) :
    fills (served s (line, true)) (dirEntry s line) q.die = false := by
  have hrep' : dirRepen (served s (line, true)) = false := hrep
  rw [fills, dirEntry_line, beq_eq_false_iff_ne.mpr hd, degree, hrep']
  simp

/-- Memory's answer does for the request that awaits it what its kind asks. -/
theorem fill_all : ∃ t, exec (.memoryFill line) s = .next t ∧ SameData s t ∧
    (q.kind = .getS → q.die = homeOf line → q.prefetch = false → (dirEntry t line).owner = some q.die ∧ (dirEntry t line).st = .e ∧
      t.hub.dir.net = s.hub.dir.net ++ [dataTo .dataE q.die line (memLine s line q.key, s.poison.contains line) q.key]) ∧
    (q.kind = .getS → q.die = homeOf line → q.prefetch = true → (dirEntry t line).sharers = dieBit q.die ∧ (dirEntry t line).st = .s ∧
      t.hub.dir.net = s.hub.dir.net ++ [dataTo .dataS q.die line (memLine s line q.key, s.poison.contains line) q.key]) ∧
    (q.kind = .getS → q.die ≠ homeOf line → dirRepen s = false →
      dataTo .dataNF q.die line (memLine s line q.key, s.poison.contains line) q.key ∈ t.hub.dir.net) ∧
    (q.kind = .getM → (dirEntry t line).owner = some q.die ∧ (dirEntry t line).st = .m ∧
      t.hub.dir.net = s.hub.dir.net ++ [dataTo .dataM q.die line (deviceLine s line q.key) q.key]) := by
  by_cases hk : q.kind = .getS
  · have hno : q.kind ≠ .getM := by rw [hk]; decide
    cases hfill : fills (served s (line, true)) (dirEntry s line) q.die with
    | false =>
      obtain ⟨t, hexec, hdata, hnet⟩ := fill_remote hst hcur hin hc hk hfill
      have haway (hd : q.die = homeOf line) : False := Bool.noConfusion ((fills_home hd).symm.trans hfill)
      exact ⟨t, hexec, hdata, fun _ hd => (haway hd).elim, fun _ hd => (haway hd).elim, fun _ _ _ => hnet, fun hc => absurd hc hno⟩
    | true =>
      have hkept (hd : q.die ≠ homeOf line) (hrep : dirRepen s = false) : False :=
        Bool.noConfusion ((fills_remote hd hrep).symm.trans hfill)
      cases hp : q.prefetch with
      | false =>
        obtain ⟨t, hexec, hdata, hall⟩ := fill_read hst hcur hin hc hk hfill hp
        exact ⟨t, hexec, hdata, fun _ _ _ => hall, nofun, fun _ hd hrep => (hkept hd hrep).elim, fun hc => absurd hc hno⟩
      | true =>
        obtain ⟨t, hexec, hdata, hall⟩ := fill_prefetch hst hcur hin hc hk hfill hp
        exact ⟨t, hexec, hdata, nofun, fun _ _ _ => hall, fun _ hd hrep => (hkept hd hrep).elim, fun hc => absurd hc hno⟩
  · obtain ⟨t, hexec, hdata, hall⟩ := fill_write hst hcur hin hc hk
    exact ⟨t, hexec, hdata, fun h => absurd h hk, fun h => absurd h hk, fun h => absurd h hk, fun _ => hall⟩

end

/-! ### A line written to memory (R298) -/

theorem write_done (hst : (dirEntry s line).st = .xWB) (ho : (dirEntry s line).owner = none) (hc : Calm (dirEntry s line))
    (hin : (line, false) ∈ s.hub.dir.mem) : ∃ t, exec (.memoryWriteDone line) s = .next t ∧ SameData s t ∧
      t.hub.dir.net = s.hub.dir.net ∧ (dirEntry t line).st = (if (dirEntry s line).sharers = 0 then .i else .s) := by
  have hgo : (!s.hub.dir.mem.contains (line, false) || (dirEntry s line).st != .xWB) = false := by
    rw [List.contains_iff_mem.mpr hin, hst]
    rfl
  have hexec : exec (.memoryWriteDone line) s = .next (resume (setEntry (served s (line, false)) (dirEntry s line).rest) line) := by
    rw [exec_memoryWriteDone, execMemoryWriteDone]
    dsimp only
    rw [hgo]
    rfl
  obtain ⟨-, -, hrest, -⟩ := rest_stored (served s (line, false)) (dirEntry_line s line)
  rw [hexec, resume_rest (dirEntry_line s line) hc]
  exact ⟨_, rfl, ⟨rfl, rfl⟩, rfl, hrest.trans (rest_st ho)⟩

/-! ### A read that a helper answers (R306) -/

theorem countEvent_entries (s : State) (n : Nat) (dies : List DieNo) (k : CounterKind) :
    (countEvent s n dies k).hub.dir.entries = s.hub.dir.entries := by
  have hdies (l : List DieNo) (t : State) : (l.foldl (fun s d => countDie s d k) t).hub = t.hub :=
    foldl_keeps (f := fun s d => countDie s d k) State.hub (fun _ _ => rfl) l t
  have hhub : (countEvent s n dies k).hub = (countRegion s n k).hub := hdies dies _
  rw [hhub]
  rfl

/-- A die's redirect entry noted as the one that its reads follow. -/
def followed (s : State) (d : DieNo) (m : Msg) (r : Redirect) : State :=
  (popMsg s m).modDie d fun x => { x with redirects := (x.redirects.filter fun y => y.line != m.line) ++ [r] }

theorem read_redirected {r : Redirect} {l : SliceLine} (hr : redirect? s d line = some r) (h : headMsg s .getS d line false = some m)
    (hl : sliceHits s r.helper line m.key = some l) : ∃ t, exec (.redirectedRead d line) s = .next t ∧ SameData s t ∧
      NetAfter s t m [dataTo .dataNF d line (deviceCopy s r.helper l, l.poison) m.key] ∧ t.hub.dir.entries = s.hub.dir.entries := by
  obtain ⟨-, rfl⟩ := headMsg_some h
  have hhelp : helperLine s d m.line m = some (r, l) := by rw [helperLine, hr, Option.bind_some, hl, Option.map_some]
  let v := countEvent (countEvent (followed s d m r) m.line [d] .rhits) m.line [d] .nofill
  have hcount : DirStep (followed s d m r) v m.line [] := (countEvent_step _ m.line m.line [d] .rhits).trans (countEvent_step _ m.line m.line [d] .nofill)
  have hfollow : NetOnly s (followed s d m r) := (popMsg_netOnly s m).trans (modDie_netOnly _ d fun _ => rfl)
  have hexec : exec (.redirectedRead d m.line) s = .next (sendLine v .dataNF d m.line (deviceCopy s r.helper l, l.poison) m.key) := by
    rw [exec_redirectedRead, execRedirectedRead, hr, h]
    dsimp only
    rw [hhelp]
    rfl
  refine ⟨_, hexec, sameData_of_net (hfollow.trans (hcount.rest.trans (sendMsg_netOnly ..))), ?_, ?_⟩
  · exact congrArg (· ++ [_]) (hcount.net.trans (List.append_nil _))
  · exact (countEvent_entries _ m.line [d] .nofill).trans (countEvent_entries _ m.line [d] .rhits)

/-! ### The statement -/

/-- Settles O57: a request that finds its line at rest is answered, forwarded or fetched by the line's state, and else waits; Puts,
acknowledgements and the answers of memory each leave the entry that the line's state asks for. -/
theorem directoryMessages : Obligations.DirectoryMessages := by
  unfold Obligations.DirectoryMessages
  intro s d line m head e asked acked calm requests
  have hcalm (h : calm) : Calm (dirEntry s line) := ⟨h.1, h.2.1, h.2.2⟩
  refine ⟨fun x hx h hred => ⟨fun hwait => ?_, fun hnone hlost => ?_⟩, fun hlost hq hack hkey => ⟨fun h hred hrep => ⟨fun hst => ?_, fun o hst ho => ?_⟩,
    fun h hst ho hs hnot => ?_, fun o h hst ho hne _ => ?_, fun h hst ho hs hr => ?_⟩, fun ho hst => ⟨?_, fun h hc => ?_⟩, fun ho => ?_,
    fun h hst hc hhelp => ?_, fun q h hst ho hcur => ⟨fun hmore => ?_, fun hlast hrdis hpushes hfwd hc hk => ?_⟩,
    fun q h hcur hinvs hrdis hpushes hc => ⟨fun hst => ?_, fun o hst ho hoff => ?_⟩, fun hst hc => ⟨fun h => ?_, fun h => ?_⟩,
    fun q hst hcur hc ho hin => ?_, fun hst ho hc hin => ?_, fun r l hr h hl => ?_⟩
  · exact request_waits (request_exec hred x hx) h hwait
  · exact request_fetches (request_exec hred x hx) h hnone hlost
  · exact gets_shared hlost hq hkey h hred hrep hst
  · exact gets_owned hlost hq hkey h hred hrep hst ho
  · exact getm_shared hlost hq hkey h hst ho hs hnot
  · exact getm_owned hlost hq hkey h hst ho hne
  · exact upg_granted hlost hq hkey h hst ho hs hr
  · exact List.forall_mem_cons.mpr ⟨put_dirty ho hst (exec_putm s), List.forall_mem_singleton.mpr (put_dirty ho hst (exec_puto s))⟩
  · exact put_clean ho hst h (hcalm hc)
  · exact List.forall_mem_cons.mpr ⟨put_stale ho (exec_putm s), List.forall_mem_cons.mpr ⟨put_stale ho (exec_puto s),
      List.forall_mem_singleton.mpr (put_stale ho (exec_pute s))⟩⟩
  · exact puts_answered h hst (hcalm hc) hhelp
  · exact invAck_waits h hst hmore
  · exact invAck_grants h hst ho hcur hlast hrdis hpushes hfwd (hcalm hc) hk
  · exact fwdAck_grants h hcur hinvs hrdis hpushes (hcalm hc) hst
  · exact fwdAck_shares h hinvs hrdis hpushes (hcalm hc) hst ho hoff
  · exact rdAck_taken hst (hcalm hc) h
  · exact pushAck_taken hst (hcalm hc) h
  · exact fill_all hst hcur hin (hcalm hc)
  · exact write_done hst ho (hcalm hc) hin
  · exact read_redirected hr h hl

end Sys2Proof.DirectoryMessages
end

section
/-! PROOFS.
The circuits of a die (R291, R292), the hub links (R311 to R313), the host port and the Estal ports (R402, R411 to R415). -/

-- One proof at a time: the check of the whole text has a limit on memory, which many threads would reach.
set_option Elab.async false

namespace Sys2Proof.LinkEvents

open Sys2Proof.Machine Sys2Proof.Safety

variable {s : State} {d : DieNo}

/-! ### Circuits (R291, R292) -/

/-- What a core of a die sends in a cycle of the revolution. -/
def sendFrom (d : DieNo) (k : Nat) (s : State) (a : Nat) : State :=
  match sheetDest (s.die d) k a with
  | none => s
  | some dst =>
    match (s.die d).circuits.find? fun m => m.src == a && m.dst == dst with
    | none => s
    | some m => landCircuit (s.modDie d fun x => { x with circuits := removeFirst (fun y => y == m) x.circuits }) m

theorem exec_circuitSend_fold (s : State) (d : DieNo) : exec (.circuitSend d) s =
    .next (((List.range 16).foldl (sendFrom d (s.die d).revolution.toNat) s).modDie d fun x => { x with revolution := x.revolution + 1 }) := rfl

/-- A core for which no message waits sends nothing. -/
theorem sendFrom_none {k a : Nat} (h : ∀ m ∈ (s.die d).circuits, m.src ≠ a) : sendFrom d k s a = s := by
  unfold sendFrom
  split
  · rfl
  · next dst _ =>
    have hnone : (s.die d).circuits.find? (fun m => m.src == a && m.dst == dst) = none :=
      List.find?_eq_none.mpr fun m hm => by simp [h m hm]
    rw [hnone]

theorem sendFrom_empty {l : List Nat} {k : Nat} (h : (s.die d).circuits = []) : l.foldl (sendFrom d k) s = s := by
  induction l with
  | nil => rfl
  | cons a l ih => rw [List.foldl_cons, sendFrom_none (by simp [h]), ih]

theorem circuits_idle (h : (s.die d).circuits = []) : ∃ t, exec (.circuitSend d) s = .next t ∧ SameData s t ∧
    t = s.modDie d fun x => { x with revolution := x.revolution + 1 } := by
  rw [exec_circuitSend_fold, sendFrom_empty h]
  exact ⟨_, rfl, ⟨rfl, rfl⟩, rfl⟩

/-- A message sent before any other core's turn is over waits for its own core's. -/
theorem sendFrom_lone {m : CircuitMsg} {k : Nat} {t : State} (h : (s.die d).circuits = [m]) (ht : sendFrom d k s m.src = t)
    (hempty : (t.die d).circuits = []) {l : List Nat} (hl : m.src ∈ l) : l.foldl (sendFrom d k) s = t := by
  induction l with
  | nil => cases hl
  | cons a l ih =>
    rw [List.foldl_cons]
    by_cases ha : m.src = a
    · rw [← ha, ht, sendFrom_empty hempty]
    · rw [sendFrom_none (by simp [h, ha])]
      exact ih ((List.mem_cons.mp hl).resolve_left ha)

/-- A ring's counter as a message publishes it. -/
def publishedBy (m : CircuitMsg) (h : Handle) : Handle := if m.head then { h with hp := m.pos } else { h with tp := m.pos, tc := m.pos }

theorem circuits_land {m : CircuitMsg} {u : UnitSt} {h : Handle} (hc : (s.die d).circuits = [m]) (hsrc : m.src < 16) (hslab : m.slab = [])
    (hdest : sheetDest (s.die d) (s.die d).revolution.toNat m.src = some m.dst) (hu : s.unit? m.uid = some u) (hh : u.handle? m.h = some h) :
    ∃ t, exec (.circuitSend d) s = .next t ∧ t.mem = s.mem ∧ (t.die d).circuits = [] ∧ (t.die d).revolution = (s.die d).revolution + 1 ∧
      t.unit? m.uid = some (u.setHandle (publishedBy m h)) := by
  let v := s.modDie d fun x => { x with circuits := removeFirst (fun y => y == m) x.circuits }
  let w := v.modUnit m.uid fun u => u.setHandle (publishedBy m h)
  have hv : v.die d = { s.die d with circuits := [] } := by
    rw [State.die_modDie_self, hc, removeFirst, if_pos (beq_self_eq_true m)]
  have hland : landCircuit v m = w := by
    have huv : v.unit? m.uid = some u := hu
    unfold landCircuit
    rw [huv]
    dsimp only
    rw [hh, hslab]
    rfl
  have hsend : sendFrom d (s.die d).revolution.toNat s m.src = w := by
    unfold sendFrom
    rw [hdest]
    dsimp only
    rw [hc, List.find?_cons_of_pos (by simp)]
    exact hland
  have hw : w.die d = { s.die d with circuits := [] } := (State.die_modUnit ..).trans hv
  rw [exec_circuitSend_fold, sendFrom_lone hc hsend (by rw [hw]) (List.mem_range.mpr hsrc)]
  refine ⟨_, rfl, rfl, ?_, ?_, (State.unit?_modDie ..).trans (State.unit?_modUnit_self (u := u) hu)⟩
  · rw [State.die_modDie_self, hw]
  · rw [State.die_modDie_self, hw]

/-! ### Links (R311 to R313) -/

/-- A die that is lost starts afresh but for its counters and its clock. -/
theorem die_loseDie (h : (s.die d).lost = false) : ((loseDie s d).die d).lost = true ∧ ((loseDie s d).die d).link = .lost ∧
    ((loseDie s d).die d).lines = [] ∧ ((loseDie s d).die d).sync = Die.reset.sync := by
  unfold loseDie
  rw [h]
  dsimp only
  rw [if_neg Bool.false_ne_true, State.die_modDie_self]
  exact ⟨rfl, rfl, rfl, rfl⟩

section
variable (hlost : (s.die d).lost = false) (htrain : (s.die d).link = .training)
include htrain

theorem training_completes : exec (.linkTrainingComplete d) s = .next (s.modDie d fun x => { x with link := .active, rewakes := 0 }) := by
  rw [exec_linkTrainingComplete, execLinkTrainingComplete, if_pos htrain]

/-- A timer's expiry reported and counted. -/
def timedOut (s : State) (d : DieNo) : State :=
  (reportEvent s 0x01 d.val).modDie d fun x => { x with counters := { x.counters with waketo := x.counters.waketo + 1 } }

theorem exec_snoopTimerExpiry_training : exec (.snoopTimerExpiry d) s = .next (
    if (s.die d).rewakes < dirRewake (timedOut s d) then (timedOut s d).modDie d fun x => { x with rewakes := x.rewakes + 1 }
    else if (timedOut s d).freeWord.1.getLsbD 0 then (timedOut s d).freeWord.2.modDie d fun x => { x with rewakes := 0 }
    else loseDie (reportEvent (timedOut s d).freeWord.2 0x03 d.val) d) := by
  rw [exec_snoopTimerExpiry, execSnoopTimerExpiry]
  dsimp only
  rw [htrain]
  rfl

include hlost

theorem training_fails : ∃ t, exec (.linkTrainFail d) s = .next t ∧ (t.die d).lost = true ∧ (t.die d).link = .lost ∧ (t.die d).lines = [] ∧
    (t.die d).sync = Die.reset.sync := by
  rw [exec_linkTrainFail, execLinkTrainFail, if_neg (by rw [htrain]; decide)]
  exact ⟨_, rfl, die_loseDie (s := reportEvent s 0x02 d.val) hlost⟩

theorem timer_expires : ∃ t, exec (.snoopTimerExpiry d) s = .next t ∧
    ((s.die d).rewakes < dirRewake s → SameData s t ∧ (t.die d).link = .training ∧ (t.die d).rewakes = (s.die d).rewakes + 1 ∧
      (t.die d).counters.waketo = (s.die d).counters.waketo + 1 ∧ t.mod.errEvents = s.mod.errEvents ++ [(0x01, d.val)]) ∧
    (dirRewake s ≤ (s.die d).rewakes → (t.die d).lost = true ∧ (t.die d).link = .lost ∨
      (t.die d).lost = false ∧ (t.die d).link = .training ∧ (t.die d).rewakes = 0 ∧ SameData s t) := by
  have hrewake : dirRewake (timedOut s d) = dirRewake s := rfl
  have hdie : (timedOut s d).die d = { s.die d with counters := { (s.die d).counters with waketo := (s.die d).counters.waketo + 1 } } :=
    State.die_modDie_self ..
  rw [exec_snoopTimerExpiry_training htrain, hrewake]
  by_cases hmore : (s.die d).rewakes < dirRewake s
  · rw [if_pos hmore]
    refine ⟨_, rfl, fun _ => ⟨⟨rfl, rfl⟩, ?_, ?_, ?_, rfl⟩, fun hc => absurd hc (by omega)⟩
    all_goals rw [State.die_modDie_self, hdie]
    exact htrain
  · rw [if_neg hmore]
    have hfree : (timedOut s d).freeWord.2.die d = (timedOut s d).die d := rfl
    by_cases hwell : (timedOut s d).freeWord.1.getLsbD 0 = true
    · rw [if_pos hwell]
      refine ⟨_, rfl, fun hc => absurd hc hmore, fun _ => .inr ⟨?_, ?_, ?_, ⟨rfl, rfl⟩⟩⟩
      all_goals rw [State.die_modDie_self, hfree, hdie]
      · exact hlost
      · exact htrain
    · rw [if_neg hwell]
      have hgone := die_loseDie (s := reportEvent (timedOut s d).freeWord.2 0x03 d.val) (d := d)
        (show ((timedOut s d).die d).lost = false by rw [hdie]; exact hlost)
      exact ⟨_, rfl, fun hc => absurd hc hmore, fun _ => .inl ⟨hgone.1, hgone.2.1⟩⟩

end

/-! ### The host port and the Estal ports (R402, R411 to R415) -/

theorem undelivered_rest (s : State) (w : OutWrite) :
    (undelivered s w).mem = s.mem ∧ (undelivered s w).mod = s.mod ∧ (undelivered s w).hub = s.hub := ⟨rfl, rfl, rfl⟩

theorem failWrites_rest (s : State) (bad : OutWrite → Bool) : (failWrites s bad).mem = s.mem ∧ (failWrites s bad).mod = s.mod ∧
    (failWrites s bad).hub = { s.hub with outWrites := s.hub.outWrites.filter fun w => !bad w } := by
  unfold failWrites
  dsimp only
  generalize s.hub.outWrites.filter bad = lost
  generalize hv : s.modHub (fun h => { h with outWrites := h.outWrites.filter fun w => !bad w }) = v
  have hkeep : (lost.foldl undelivered v).mem = v.mem ∧ (lost.foldl undelivered v).mod = v.mod ∧ (lost.foldl undelivered v).hub = v.hub := by
    clear hv
    induction lost generalizing v with
    | nil => exact ⟨rfl, rfl, rfl⟩
    | cons w l ih => exact ih (undelivered v w)
  subst hv
  exact hkeep

theorem port_modPort (s : State) (p : Fin 16) (f : EstalPort → EstalPort) : (modPort s p f).hub.ports.get p = f (s.hub.ports.get p) := by
  show (s.hub.ports.set p _)[p.val] = _
  simp

theorem port_modPort_ne {p k : Fin 16} (f : EstalPort → EstalPort) (h : k ≠ p) :
    (modPort s p f).hub.ports.get k = s.hub.ports.get k := by
  have hne : (p : Nat) ≠ k := fun hc => h (Fin.ext hc.symm)
  show (s.hub.ports.set p _)[k.val] = s.hub.ports[k.val]
  simp [hne]

theorem port_down (s : State) (p : Fin 16) : ∃ t r, exec (.estalLinkDown p false) s = .next t ∧ t.mem = s.mem ∧ t.hub.ports.get p = r ∧
    r.gen = 0 ∧ r.training = false ∧ r.maxg1 = (s.hub.ports.get p).maxg1 ∧
    t.hub.outWrites = s.hub.outWrites.filter (fun w => w.port != some p) := by
  let down (q : EstalPort) : EstalPort := { q with gen := 0, x4 := false, peer := 0, training := false }
  obtain ⟨hmem, -, hhub⟩ := failWrites_rest (modPort s p down) fun w => w.port == some p
  refine ⟨failWrites (modPort s p down) fun w => w.port == some p, down (s.hub.ports.get p), rfl, hmem, ?_, rfl, rfl, rfl, ?_⟩
  · rw [hhub]
    exact port_modPort s p down
  · rw [hhub]
    rfl

theorem host_down (s : State) : ∃ t, exec .hostLinkDown s = .next t ∧ t.mem = s.mem ∧ t.mod.hostUp = false ∧
    t.hub.outWrites = s.hub.outWrites.filter (fun w => w.dest != 0) := by
  obtain ⟨hmem, hmod, hhub⟩ := failWrites_rest (s.setMod { s.mod with hostUp := false }) fun w => w.dest == 0
  exact ⟨_, rfl, hmem, congrArg ModuleSt.hostUp hmod, congrArg Hub.outWrites hhub⟩

theorem ide_fails (s : State) : ∃ t, exec .ideFailure s = .next t ∧ t.mem = s.mem ∧ t.mod = s.mod ∧
    t.hub.outWrites = s.hub.outWrites.filter (fun w => w.dest != 0) := by
  obtain ⟨hmem, hmod, hhub⟩ := failWrites_rest s fun w => w.dest == 0
  exact ⟨_, rfl, hmem, hmod, congrArg Hub.outWrites hhub⟩

end Sys2Proof.LinkEvents
end

section
/-! PROOFS.
The module: reset and failure (R419, R423), attestation (R421), the power throttle (R422) and the registers of the hub management
window (R405, R414, R417), and O58 settled. -/

-- One proof at a time: the check of the whole text has a limit on memory, which many threads would reach.
set_option Elab.async false

namespace Sys2Proof.ModuleEvents

open Sys2Proof.Machine Sys2Proof.Safety Sys2Proof.LinkEvents

variable {s : State}

/-! ### Failure and attestation -/

theorem failModule_fails (s : State) (code : BitVec 8) : SameData s (failModule s code) ∧ (failModule s code).mod.fail = true ∧
    (failModule s code).mod.code = code ∧ (failModule s code).mod.stopped = true ∧ (failModule s code).mod.msix.getLsbD 0 = true ∧
    (failModule s code).mod.aerFatal = s.mod.aerFatal + 1 := by
  refine ⟨⟨rfl, rfl⟩, rfl, rfl, rfl, ?_, rfl⟩
  show (s.mod.msix ||| 1).getLsbD 0 = true
  rw [BitVec.getLsbD_or]
  simp

theorem attestation_starts {v : Word} (hgo : v.getLsbD 0 = true) (hfree : s.mod.attBusy = false) :
    ∃ t, exec (.attestationGo v) s = .next t ∧ SameData s t ∧ t.mod.attBusy = true ∧ t.mod.attDone = false ∧ t.mod.nonce = s.mod.nonce := by
  rw [exec_attestationGo, execAttestationGo, writeAttctl, hgo, hfree]
  exact ⟨_, rfl, ⟨rfl, rfl⟩, rfl, rfl, rfl⟩

theorem attestation_ends (hbusy : s.mod.attBusy = true) : ∃ t, exec .attestationDone s = .next t ∧ SameData s t ∧ t.mod.attBusy = false ∧
    t.mod.attDone = true ∧ t.mod.report.length = 8192 ∧ t.mod.report.take 32 = leBytes s.mod.nonce.toNat 32 := by
  rw [exec_attestationDone, execAttestationDone, hbusy]
  refine ⟨_, rfl, ⟨rfl, rfl⟩, rfl, rfl, ?_, ?_⟩
  · show (attReport s).length = 8192
    rw [attReport, List.length_append, length_leBytes, List.length_map, List.length_range]
  · show (attReport s).take 32 = _
    rw [attReport, List.take_append_of_le_length (length_leBytes _ 32).ge, List.take_of_length_le (length_leBytes _ 32).le]

/-! ### The power throttle (R422) -/

theorem throttled_releaseThrottle (s : State) (k : ClusterNo) : ((releaseThrottle s).cluster k).throttled = false := by
  have hcluster : (releaseThrottle s).cluster k = { s.cluster k with throttled := false } := by
    show (s.clusters.map _)[k.val] = _
    rw [Vector.getElem_map]
    rfl
  rw [hcluster]

theorem throttle_on (s : State) : ∃ t c, exec (.powerThrottle true) s = .next t ∧ SameData s t ∧ t.mod.throt = true ∧
    ∀ k, (t.cluster k).throttled = decide (k = c) := by
  refine ⟨((releaseThrottle s).setMod { s.mod with throt := true }).modCluster (nextThrottled s) fun k => { k with throttled := true },
    nextThrottled s, rfl, ⟨rfl, rfl⟩, rfl, fun k => ?_⟩
  by_cases hk : k = nextThrottled s
  · rw [hk, State.cluster_modCluster_self, decide_eq_true rfl]
  · rw [State.cluster_modCluster_ne (Ne.symm hk), decide_eq_false hk]
    exact throttled_releaseThrottle s k

/-! ### Registers (R417) -/

/-- An aligned write of a register that the window lists. -/
theorem exec_registerWrite_listed {off : BitVec 20} {v : Word} {t : State} (halign : off.toNat % 8 = 0)
    (hw : mgmtWrite s off.toNat v = some t) : exec (.registerWrite (some off) v) s = .next t := by
  rw [exec_registerWrite, execRegisterWrite, if_pos halign, hw]
  rfl

theorem toNat_clampCap (v : Word) : (clampCap v).toNat = max 800 (min 2200 (v.toNat % 4096)) := by
  have hlow : (v.extractLsb' 0 12).toNat = v.toNat % 4096 := by
    rw [BitVec.extractLsb'_toNat, Nat.shiftRight_zero]
  rw [clampCap, hlow, BitVec.toNat_ofNat, Nat.mod_eq_of_lt (by omega)]

theorem toNat_apertureBase (a : Aperture) (v : Word) : (apertureBase a v).base.toNat = v.toNat / 2 ^ 14 * 2 ^ 14 := by
  have hcleared : v &&& ~~~0x3FFF#64 = (v >>> 14) <<< 14 := by
    refine BitVec.eq_of_getLsbD_eq fun i hi => ?_
    have hmask : (0x3FFF#64).getLsbD i = decide (i < 14) := by
      interval_cases i <;> rfl
    rw [BitVec.getLsbD_and, BitVec.getLsbD_not, hmask, BitVec.getLsbD_shiftLeft, BitVec.getLsbD_ushiftRight]
    by_cases h14 : i < 14
    · simp [h14]
    · simp [h14, hi, show 14 + (i - 14) = i by omega]
  show (v &&& ~~~0x3FFF#64).toNat = _
  rw [hcleared, BitVec.toNat_shiftLeft, BitVec.toNat_ushiftRight, Nat.shiftRight_eq_div_pow, Nat.shiftLeft_eq,
    Nat.mod_eq_of_lt]
  have := v.isLt
  omega

/-- A nonce with eight of its bytes written. -/
def nonceWith (n : BitVec 256) (lo : Nat) (v : Word) : BitVec 256 := (n &&& ~~~((0xFFFFFFFFFFFFFFFF#256) <<< lo)) ||| (v.setWidth 256 <<< lo)

theorem getLsbD_lowOnes (i : Nat) : (0xFFFFFFFFFFFFFFFF#256).getLsbD i = decide (i < 64) := by
  have hones : (0xFFFFFFFFFFFFFFFF#256) = (BitVec.allOnes 64).setWidth 256 := by decide
  rw [hones, BitVec.getLsbD_setWidth, BitVec.getLsbD_allOnes]
  by_cases h : i < 64
  · simp [h, show i < 256 by omega]
  · simp [h]

theorem getLsbD_nonceWith {n : BitVec 256} {v : Word} {lo i : Nat} (hi : i < 256) :
    (nonceWith n lo v).getLsbD i = if lo ≤ i ∧ i < lo + 64 then v.getLsbD (i - lo) else n.getLsbD i := by
  rw [nonceWith, BitVec.getLsbD_or, BitVec.getLsbD_and, BitVec.getLsbD_not, BitVec.getLsbD_shiftLeft, BitVec.getLsbD_shiftLeft,
    getLsbD_lowOnes, BitVec.getLsbD_setWidth]
  by_cases hlo : i < lo
  · simp [hi, hlo, show ¬lo ≤ i by omega]
  · by_cases hhi : i < lo + 64
    · simp [hi, hlo, hhi, show i - lo < 64 by omega, show i - lo < 256 by omega, show lo ≤ i by omega]
    · simp [hi, hlo, hhi, show ¬i - lo < 64 by omega, BitVec.getLsbD_of_ge v (i - lo) (by omega)]

theorem extract_nonceWith (n : BitVec 256) (v : Word) {i j : Nat} (hj : j < 4) :
    (nonceWith n (64 * i) v).extractLsb' (64 * j) 64 = if j = i then v else n.extractLsb' (64 * j) 64 := by
  refine BitVec.eq_of_getLsbD_eq fun k hk => ?_
  rw [BitVec.getLsbD_extractLsb', getLsbD_nonceWith (by omega)]
  by_cases hji : j = i
  · rw [if_pos (by omega), if_pos hji, hji, Nat.add_sub_cancel_left, decide_eq_true hk, Bool.true_and]
  · rw [if_neg (by omega), if_neg hji, BitVec.getLsbD_extractLsb']

theorem nonce_written {v : Word} (hfree : s.mod.attBusy = false) {i : Nat} (hi : i < 4) :
    ∃ t, exec (.registerWrite (some (BitVec.ofNat 20 (0x3040 + 8 * i))) v) s = .next t ∧ SameData s t ∧
      t.mod.nonce.extractLsb' (64 * i) 64 = v ∧
      ∀ j : Nat, j < 4 → j ≠ i → t.mod.nonce.extractLsb' (64 * j) 64 = s.mod.nonce.extractLsb' (64 * j) 64 := by
  have hoff : (BitVec.ofNat 20 (0x3040 + 8 * i)).toNat = 0x3040 + 8 * i := by
    rw [BitVec.toNat_ofNat, Nat.mod_eq_of_lt (by omega)]
  let t := s.setMod { s.mod with nonce := nonceWith s.mod.nonce (64 * i) v }
  have hw : mgmtWrite s (0x3040 + 8 * i) v = some t := by
    have hlo : 8 * (0x3040 + 8 * i - 0x3040) = 64 * i := by omega
    have hwrite : writeNonce s (64 * i) v = t := by
      rw [writeNonce, hfree]
      rfl
    unfold mgmtWrite
    rw [if_neg (by omega), if_neg (by omega), if_neg (by omega), if_neg (by omega), if_neg (by omega), if_neg (by omega), if_neg (by omega),
      if_neg (by omega), if_neg (by omega), dif_neg (by omega), if_neg (by omega), if_pos (by omega), hlo, hwrite]
  refine ⟨t, exec_registerWrite_listed (by omega) (by rw [hoff, hw]), ⟨rfl, rfl⟩, ?_, fun j hj hji => ?_⟩
  · exact (extract_nonceWith _ v hi).trans (if_pos rfl)
  · exact (extract_nonceWith _ v hj).trans (if_neg hji)

theorem unaligned_ignored {off : BitVec 20} (v : Word) (h : off.toNat % 8 ≠ 0) : exec (.registerWrite (some off) v) s = .next s := by
  rw [exec_registerWrite, execRegisterWrite]
  exact congrArg Host.Outcome.next (if_neg h)

/-! ### The statement -/

/-- Settles O58: each event changes its circuit, link, port or register as its rule says, and the rest of the machine stands. -/
theorem linkAndModuleEvents : Obligations.LinkAndModuleEvents := by
  unfold Obligations.LinkAndModuleEvents
  refine ⟨⟨fun s d => ⟨circuits_idle, fun m u h hc hsrc hslab hdest hu hh => circuits_land hc hsrc hslab hdest hu hh⟩,
    fun s d hlost htrain => ⟨training_completes htrain, training_fails hlost htrain, timer_expires hlost htrain⟩,
    fun s => ⟨host_down s, rfl, ide_fails s, rfl⟩,
    fun s p => ⟨fun g x peer => ?_, fun v => ?_, fun hgen => ?_, port_down s p, ?_⟩⟩,
    fun s => ⟨⟨_, rfl, rfl, rfl, rfl, rfl, rfl, rfl, rfl⟩, fun v => ⟨fun hv => ?_, fun hv => ?_⟩, fun x hx => ?_,
      fun v hgo hfree => attestation_starts hgo hfree, attestation_ends, throttle_on s,
      ⟨_, rfl, ⟨rfl, rfl⟩, rfl, throttled_releaseThrottle s⟩,
      fun v => ⟨⟨_, rfl, ⟨rfl, rfl⟩, rfl⟩, ⟨_, rfl, ⟨rfl, rfl⟩, rfl⟩⟩,
      fun v => ⟨⟨_, rfl, ⟨rfl, rfl⟩, rfl⟩,
        ⟨_, exec_registerWrite_listed (off := 0x0010) (t := s.setMod { s.mod with pwrcap := clampCap v }) rfl rfl, ⟨rfl, rfl⟩, toNat_clampCap v⟩,
        ⟨_, exec_registerWrite_listed (off := 0x2000) (t := s.modHub fun h => { h with ap := apertureBase h.ap v }) rfl rfl, ⟨rfl, rfl⟩,
          toNat_apertureBase _ v⟩,
        fun i hi hfree => nonce_written hfree hi, fun off hoff => unaligned_ignored v hoff⟩⟩⟩
  · refine ⟨_, _, rfl, ⟨rfl, rfl⟩, port_modPort s p _, ?_, rfl, rfl, rfl, rfl, rfl, fun k hk => port_modPort_ne _ hk⟩
    simp
  · exact ⟨_, rfl, ⟨rfl, rfl⟩, port_modPort s p fun q => { q with maxg1 := v.getLsbD 13, training := true }⟩
  · exact ⟨modPort s p fun q => if q.gen = 0 then q else { q with x4 := true }, rfl, ⟨rfl, rfl⟩, (port_modPort s p _).trans (if_neg hgen)⟩
  · exact ⟨_, rfl, ⟨rfl, rfl⟩, port_modPort s p fun q => { q with retry := q.retry + 1 }⟩
  · rw [hv]
    rfl
  · exact congrArg Host.Outcome.next (if_neg hv)
  · simp only [List.mem_cons, List.not_mem_nil, or_false] at hx
    rcases hx with rfl | rfl | rfl
    · exact ⟨_, rfl, failModule_fails s 0x02⟩
    · exact ⟨_, rfl, failModule_fails s 0x03⟩
    · exact ⟨_, rfl, failModule_fails s 0x04⟩

end Sys2Proof.ModuleEvents
end

section
/-! PROOFS.
The graphs of a context: cues, passes, phase boundaries (R367 to R372), completion targets (R374), budget periods (R381) and PCTL (R339,
R340, R360). -/

-- One proof at a time: the check of the whole text has a limit on memory, which many threads would reach.
set_option Elab.async false

namespace Sys2Proof.FrontEnd

open Sys2Proof.Machine Sys2Proof.Safety Sys2Proof.DeviceStep

variable {s : State} {a : BitVec 16} {g : Fin 64} {k : Context}

/-! ### Graphs as they are read -/

theorem graph_modGraph_self (s : State) (g : Fin 64) (f : Graph → Graph) : (s.modGraph g f).graph g = f (s.graph g) := by
  show (s.hub.graphs.set g _)[g.val] = _
  rw [Vector.getElem_set_self]
  rfl

theorem graph_modGraph_ne {g j : Fin 64} (f : Graph → Graph) (h : j ≠ g) : (s.modGraph g f).graph j = s.graph j := by
  have hne : (g : Nat) ≠ j := fun hc => h (Fin.ext hc.symm)
  show (s.hub.graphs.set g _)[j.val] = s.hub.graphs[j.val]
  simp [hne]

theorem graph_modNode (s : State) (g : Fin 64) (n : Nat) (f : Node → Node) :
    (modNode s g n f).graph g = { s.graph g with nodes := (s.graph g).nodes.modify n f } := graph_modGraph_self ..

theorem graph_pushTodo (s : State) (g : Fin 64) (t : List Todo) :
    (pushTodo s g t).graph g = { s.graph g with todo := (s.graph g).todo ++ t } := graph_modGraph_self ..

/-! ### GADDR and cues (R367, R369) -/

section
variable (hk : s.ctx? a = some k)
include hk

theorem gaddr_written (v : Word) (hmine : (s.graph g).state = 0 ∨ (s.graph g).asid = a) (hidle : (s.graph g).state ≠ 2) :
    ∃ t, exec (.gaddrWrite a g v) s = .next t ∧ SameData s t ∧ (∀ j, j ≠ g → t.graph j = s.graph j) ∧ (v = 0 → (t.graph g).state = 0) ∧
      (v ≠ 0 → (t.graph g).state = 1 ∧ (t.graph g).asid = a ∧ (t.graph g).gaddr = v ∧ (t.graph g).drop = false ∧
        (t.graph g).resident = false ∧ (t.graph g).pends = []) := by
  have hgo : ((s.ctx? a).isNone || decide ((s.graph g).state = 2) || ((s.graph g).state != 0 && (s.graph g).asid != a)) = false := by
    rw [hk, decide_eq_false hidle]
    rcases hmine with hmine | hmine
    · rw [hmine]
      rfl
    · rw [hmine, bne_self_eq_false, Bool.and_false]
      rfl
  have hexec : exec (.gaddrWrite a g v) s = .next (
      if v = 0 then (s.modCtx a fun k => { k with cancelled := false }).modGraph g fun x => { Graph.reset with gahi := x.gahi }
      else (s.modCtx a fun k => { k with cancelled := false }).modGraph g fun x =>
        { x with asid := a, gaddr := v, state := 1, drop := false, err := 0, node := 0, fcode := 0, resident := false, nodes := [], pends := [] }) := by
    rw [exec_gaddrWrite, execGaddrWrite, writeGaddr]
    exact congrArg Host.Outcome.next (if_neg (by rw [hgo]; decide))
  rw [hexec]
  by_cases hv : v = 0
  · rw [if_pos hv]
    refine ⟨_, rfl, ⟨rfl, rfl⟩, fun j hj => graph_modGraph_ne _ hj, fun _ => ?_, fun hc => absurd hv hc⟩
    rw [graph_modGraph_self]
    rfl
  · rw [if_neg hv]
    refine ⟨_, rfl, ⟨rfl, rfl⟩, fun j hj => graph_modGraph_ne _ hj, fun hc => absurd hc hv, fun _ => ?_⟩
    rw [graph_modGraph_self]
    exact ⟨rfl, rfl, rfl, rfl, rfl, rfl⟩

omit hk in
theorem cue_dropped (h : (s.graph g).state = 0 ∨ (s.graph g).state = 3 ∧ (s.graph g).asid = a) :
    ∃ t, exec (.cue a g) s = .next t ∧ SameData s t ∧ t = s.modGraph g fun x => { x with drop := true } := by
  refine ⟨s.modGraph g fun x => { x with drop := true }, ?_, ⟨rfl, rfl⟩, rfl⟩
  rw [exec_cue, execCue, performCue]
  refine congrArg Host.Outcome.next (if_pos ?_)
  simpa using h

/-- A cue taken: its place in the order of cues. -/
def cueTaken (s : State) : State := s.modHub fun h => { h with cueSeq := h.cueSeq + 1 }

variable (hmine : (s.graph g).asid = a) (hlive : k.cancelled = false)
include hmine hlive

/-- A cue that its slot's own context sends, while it is not cancelled, to a slot at work. -/
theorem performCue_taken (h0 : (s.graph g).state ≠ 0) (h3 : (s.graph g).state ≠ 3) : performCue s a g =
    if (s.graph g).state = 2 then (cueTaken s).modGraph g fun x =>
      { x with pends := if x.pends.length < 65535 then x.pends ++ [s.hub.cueSeq] else x.pends }
    else if (s.graph g).resident then runTodo g 512 (startPass (cueTaken s) g s.hub.cueSeq)
    else match readGraph slotOk (cueTaken s) a ((s.graph g).gahi ++ (s.graph g).gaddr) with
      | .error (c, n) => (cueTaken s).modGraph g fun x => { x with state := 3, err := c, node := BitVec.ofNat 8 n, pends := [] }
      | .ok (s', l) => runTodo g 512 (startPass (s'.modGraph g fun x => { x with nodes := l, resident := true }) g s.hub.cueSeq) := by
  unfold performCue
  dsimp only
  rw [hk]
  dsimp only
  rw [if_neg (by rw [decide_eq_false h0, beq_eq_false_iff_ne.mpr h3]; exact Bool.false_ne_true),
    if_neg (by rw [hmine, hlive, bne_self_eq_false]; exact Bool.false_ne_true)]
  rfl

theorem cue_waits (h2 : (s.graph g).state = 2) (hroom : (s.graph g).pends.length < 65535) :
    ∃ t, exec (.cue a g) s = .next t ∧ SameData s t ∧ (t.graph g).state = 2 ∧ (t.graph g).nodes = (s.graph g).nodes ∧
      (t.graph g).pends = (s.graph g).pends ++ [s.hub.cueSeq] := by
  rw [exec_cue, execCue, performCue_taken hk hmine hlive (by rw [h2]; decide) (by rw [h2]; decide), if_pos h2]
  refine ⟨_, rfl, ⟨rfl, rfl⟩, ?_⟩
  rw [graph_modGraph_self]
  exact ⟨h2, rfl, if_pos hroom⟩

end

/-! ### A pass of one launch (R362, R372) -/

theorem parentOf_single {y : Node} (h : y.hasBody = false) (i : Nat) : parentOf [y] i = none := by
  have hin : y.inBody i = false := by rw [Node.inBody, h, Bool.false_and]
  show (if y.inBody i then _ else none) = none
  rw [hin]
  rfl

theorem childrenOf_single {y : Node} (h : y.hasBody = false) : childrenOf [y] none = [0] := by
  show ((List.range 1).filter fun i => parentOf [y] i == none) = [0]
  rw [List.filter_congr fun i _ => congrArg (· == none) (parentOf_single h i)]
  rfl

theorem hasBody_of_kind {y : Node} {n : Nat} (h : y.kind.toNat = n) (hn : ¬(3 ≤ n ∧ n ≤ 5)) : y.hasBody = false := by
  rw [Node.hasBody, h]
  exact decide_eq_false hn

/-- A node as a run of its body begins. -/
def restarted (y : Node) : Node := { y with dep := y.depc, fired := false, done := false, iter := 0, launch := none }

theorem startRun_launch {y : Node} (hn : (s.graph g).nodes = [y]) (hk : y.kind = 1) (hd : y.depc = 0) :
    startRun s g none = pushTodo (newLaunch (modNode s g 0 restarted) (s.graph g).asid g 0 y) g [.fire 0] := by
  have hchildren := childrenOf_single (hasBody_of_kind (y := y) (n := 1) (by rw [hk]; rfl) (by omega))
  unfold startRun
  dsimp only
  rw [hn, hchildren]
  simp only [List.foldl_cons, List.foldl_nil, List.filter_cons, List.filter_nil, List.map_cons, List.map_nil,
    List.getElem?_cons_zero, hk, hd, beq_self_eq_true, if_true]
  rfl

/-- The launch of a node without a deadline, as it is numbered. -/
def numberedLaunch (k : Context) (a : BitVec 16) (g : Fin 64) (n : Nat) (y : Node) (r : OpRecord) (w : Wings) : Launch :=
  { serial := k.serial, asid := a, graph := some (g.val, n), record := r, wings := w, segs := y.segs, remain := r.units, placed := 0,
    deadline := none, registered := false, struck := false, killed := false, curtain := false, done := false, finish := 0, pendingWings := [] }

/-- A context with one launch more. -/
def launchCounted (k : Context) (r : OpRecord) (w : Wings) : Context :=
  { k with serial := k.serial + 1, recLaunches := if k.recording then k.recLaunches ++ [⟨k.serial, r, w⟩] else k.recLaunches }

/-- The launch stands, and its node names it. -/
def withLaunch (s : State) (a : BitVec 16) (g : Fin 64) (n : Nat) (l : Launch) (r : OpRecord) (w : Wings) : State :=
  modNode ((s.modHub fun h => { h with launches := h.launches ++ [l] }).modCtx a fun k => launchCounted k r w) g n fun x =>
    { x with launch := some s.hub.launches.length }

theorem newLaunch_numbered {y : Node} {r : OpRecord} {w : Wings} {n : Nat} (hk : s.ctx? a = some k) (hr : y.record = some r)
    (hw : y.wings = some w) (hno : r.nodl = true) : newLaunch s a g n y = withLaunch s a g n (numberedLaunch k a g n y r w) r w := by
  unfold newLaunch
  rw [hr, hw, hk]
  dsimp only
  rw [hno]
  rfl

/-- The clusters on which a launch's units stand. -/
def wantedWings (r : OpRecord) : List ClusterNo := r.clusters.filter fun c => (List.range r.units).any fun i => r.clusterOf i == c

theorem launch?_modLaunch {li : Nat} {l : Launch} (h : s.launch? li = some l) (f : Launch → Launch) :
    (s.modLaunch li f).launch? li = some (f l) := by
  show (s.hub.launches.modify li f)[li]? = _
  rw [List.getElem?_modify_eq, show s.hub.launches[li]? = some l from h]
  rfl

theorem fireLaunch_undated {li : Nat} {l : Launch} (h : s.launch? li = some l) (hkill : l.killed = false) (hdl : l.deadline = none) :
    fireLaunch s li = s.modLaunch li fun l' => { l' with pendingWings := wantedWings l.record } := by
  have hset := launch?_modLaunch h fun l' => { l' with pendingWings := wantedWings l.record }
  unfold fireLaunch
  rw [h]
  dsimp only
  rw [hkill]
  show registerDeadline (s.modLaunch li fun l' => { l' with pendingWings := wantedWings l.record }) li = _
  unfold registerDeadline
  rw [hset]
  dsimp only
  rw [hdl]

theorem fireNode_launch {y : Node} {n li : Nat} (hn : (s.graph g).nodes[n]? = some y) (hk : y.kind = 1) (hl : y.launch = some li) :
    fireNode s g n = fireLaunch (modNode s g n fun y => { y with fired := true }) li := by
  unfold fireNode
  dsimp only
  rw [hn]
  dsimp only
  rw [hk, hl]
  rfl

theorem runTodo_idle (n : Nat) (h : (s.graph g).todo = []) : runTodo g n s = s := by
  cases n with
  | zero => rfl
  | succ n => rw [runTodo, h]

theorem runTodo_fire {y : Node} {n i : Nat} (h : (s.graph g).todo = [.fire i]) (hy : (s.graph g).nodes[i]? = some y) (hd : y.done = false) :
    runTodo g (n + 1) s = runTodo g n (fireNode (s.modGraph g fun x => { x with todo := [] }) g i) := by
  have hopen : (((s.modGraph g fun x => { x with todo := [] }).graph g).nodes[i]?).any (fun y => !y.done) = true := by
    rw [graph_modGraph_self]
    show ((s.graph g).nodes[i]?).any _ = true
    rw [hy, Option.any_some, hd]
    rfl
  rw [runTodo, h]
  dsimp only
  rw [if_pos hopen]

/-- A slot as its pass begins. -/
def begun (s : State) (g : Fin 64) (cue : Nat) (fser : BitVec 32) : State :=
  s.modGraph g fun x => { x with state := 2, gcnt := 1, fser := fser, todo := [], cut := false, cueNo := cue, taiStart := s.hub.tk.tai }

theorem startPass_single {y : Node} (cue : Nat) (hk : s.ctx? (s.graph g).asid = some k) (hn : (s.graph g).nodes = [y])
    (hb : y.hasBody = false) : startPass s g cue = startRun (begun s g cue k.serial) g none := by
  unfold startPass
  dsimp only
  rw [hk, hn, childrenOf_single hb]
  rfl

/-- A pass of one launch begun, its node to be fired. -/
def begunLaunch (s : State) (a : BitVec 16) (g : Fin 64) (k : Context) (y : Node) (r : OpRecord) (w : Wings) : State :=
  pushTodo (withLaunch (modNode (begun (cueTaken s) g s.hub.cueSeq k.serial) g 0 restarted) a g 0 (numberedLaunch k a g 0 y r w) r w) g
    [.fire 0]

/-- The one node of a pass fired: its launch wants its wings. -/
def firstFired (v : State) (g : Fin 64) (li : Nat) (r : OpRecord) : State :=
  (modNode (v.modGraph g fun x => { x with todo := [] }) g 0 fun y => { y with fired := true }).modLaunch li
    fun l => { l with pendingWings := wantedWings r }

theorem graph_withLaunch (s : State) (a : BitVec 16) (g : Fin 64) (n : Nat) (l : Launch) (r : OpRecord) (w : Wings) :
    (withLaunch s a g n l r w).graph g =
      { s.graph g with nodes := (s.graph g).nodes.modify n fun x => { x with launch := some s.hub.launches.length } } := graph_modNode ..

theorem graph_begun (s : State) (g : Fin 64) (cue : Nat) (fser : BitVec 32) : (begun s g cue fser).graph g =
    { s.graph g with state := 2, gcnt := 1, fser := fser, todo := [], cut := false, cueNo := cue, taiStart := s.hub.tk.tai } :=
  graph_modGraph_self ..

theorem graph_begunLaunch {y : Node} (r : OpRecord) (w : Wings) (hn : (s.graph g).nodes = [y]) :
    ((begunLaunch s a g k y r w).graph g).nodes = [{ restarted y with launch := some s.hub.launches.length }] ∧
      ((begunLaunch s a g k y r w).graph g).todo = [.fire 0] ∧ ((begunLaunch s a g k y r w).graph g).state = 2 ∧
      ((begunLaunch s a g k y r w).graph g).gcnt = 1 := by
  rw [begunLaunch, graph_pushTodo, graph_withLaunch, graph_modNode, graph_begun]
  refine ⟨?_, rfl, rfl, rfl⟩
  show (((s.graph g).nodes.modify 0 restarted).modify 0 _) = _
  rw [hn]
  rfl

theorem begunLaunch_launches (s : State) (a : BitVec 16) (g : Fin 64) (k : Context) (y : Node) (r : OpRecord) (w : Wings) :
    (begunLaunch s a g k y r w).hub.launches = s.hub.launches ++ [numberedLaunch k a g 0 y r w] := rfl

theorem graph_firstFired (v : State) (g : Fin 64) (li : Nat) (r : OpRecord) : ((firstFired v g li r).graph g).state = (v.graph g).state ∧
    ((firstFired v g li r).graph g).gcnt = (v.graph g).gcnt ∧ ((firstFired v g li r).graph g).todo = [] := by
  have hgraph : (firstFired v g li r).graph g =
      (modNode (v.modGraph g fun x => { x with todo := [] }) g 0 fun y => { y with fired := true }).graph g := rfl
  rw [hgraph, graph_modNode, graph_modGraph_self]
  exact ⟨rfl, rfl, rfl⟩

/-- The one node of a pass fires. -/
theorem runTodo_launch {v : State} {y : Node} {li : Nat} {l : Launch} (n : Nat) (hn : (v.graph g).nodes = [y])
    (ht : (v.graph g).todo = [.fire 0]) (hk : y.kind = 1) (hd : y.done = false) (hy : y.launch = some li) (hl : v.launch? li = some l)
    (hkill : l.killed = false) (hdl : l.deadline = none) : runTodo g (n + 1) v = firstFired v g li l.record := by
  have hnode : ((v.modGraph g fun x => { x with todo := [] }).graph g).nodes[0]? = some y := by
    rw [graph_modGraph_self]
    show (v.graph g).nodes[0]? = some y
    rw [hn, List.getElem?_cons_zero]
  have hfire : fireNode (v.modGraph g fun x => { x with todo := [] }) g 0 = firstFired v g li l.record := by
    rw [fireNode_launch hnode hk hy]
    exact fireLaunch_undated (s := modNode (v.modGraph g fun x => { x with todo := [] }) g 0 fun y => { y with fired := true }) hl hkill hdl
  obtain ⟨-, -, hover⟩ := graph_firstFired v g li l.record
  rw [runTodo_fire ht (by rw [hn, List.getElem?_cons_zero]) hd, hfire, runTodo_idle _ hover]

theorem startPass_launch {y : Node} {r : OpRecord} {w : Wings} (hk : s.ctx? a = some k) (hmine : (s.graph g).asid = a)
    (hn : (s.graph g).nodes = [y]) (hkind : y.kind = 1) (hd : y.depc = 0) (hr : y.record = some r) (hw : y.wings = some w)
    (hno : r.nodl = true) : startPass (cueTaken s) g s.hub.cueSeq = begunLaunch s a g k y r w := by
  have hgraph := graph_begun (cueTaken s) g s.hub.cueSeq k.serial
  have hasid : ((begun (cueTaken s) g s.hub.cueSeq k.serial).graph g).asid = a := by
    rw [hgraph]
    exact hmine
  rw [startPass_single (k := k) (s := cueTaken s) _ (hmine ▸ hk) hn (hasBody_of_kind (n := 1) (by rw [hkind]; rfl) (by omega)),
    startRun_launch (s := begun (cueTaken s) g s.hub.cueSeq k.serial) (by rw [hgraph]; exact hn) hkind hd, hasid,
    newLaunch_numbered (s := modNode (begun (cueTaken s) g s.hub.cueSeq k.serial) g 0 restarted) (k := k) hk hr hw hno, begunLaunch]

theorem cue_launches {y : Node} {r : OpRecord} {w : Wings} (hk : s.ctx? a = some k) (hmine : (s.graph g).asid = a)
    (hlive : k.cancelled = false) (h1 : (s.graph g).state = 1) (hres : (s.graph g).resident = true) (hn : (s.graph g).nodes = [y])
    (hkind : y.kind = 1) (hd : y.depc = 0) (hr : y.record = some r) (hw : y.wings = some w) (hno : r.nodl = true) :
    exec (.cue a g) s = .next (firstFired (begunLaunch s a g k y r w) g s.hub.launches.length r) := by
  obtain ⟨hnodes, htodo, -, -⟩ := graph_begunLaunch (s := s) (a := a) (k := k) r w hn
  have hlaunch : (begunLaunch s a g k y r w).launch? s.hub.launches.length = some (numberedLaunch k a g 0 y r w) := by
    rw [State.launch?, begunLaunch_launches]
    simp
  have hrun := runTodo_launch 511 hnodes htodo hkind rfl rfl hlaunch rfl rfl
  rw [exec_cue, execCue, performCue_taken hk hmine hlive (by rw [h1]; decide) (by rw [h1]; decide), if_neg (by rw [h1]; decide), hres,
    if_pos rfl, startPass_launch hk hmine hn hkind hd hr hw hno]
  exact congrArg Host.Outcome.next hrun

/-- The launch of a pass of one launch, once its node has fired. -/
def firedLaunch (k : Context) (a : BitVec 16) (g : Fin 64) (y : Node) (r : OpRecord) (w : Wings) : Launch :=
  { numberedLaunch k a g 0 y r w with pendingWings := wantedWings r }

theorem firstFired_data (v : State) (g : Fin 64) (li : Nat) (r : OpRecord) : SameData v (firstFired v g li r) := ⟨rfl, rfl⟩

theorem withLaunch_data (s : State) (a : BitVec 16) (g : Fin 64) (n : Nat) (l : Launch) (r : OpRecord) (w : Wings) :
    SameData s (withLaunch s a g n l r w) := ⟨rfl, rfl⟩

theorem begunLaunch_data (s : State) (a : BitVec 16) (g : Fin 64) (k : Context) (y : Node) (r : OpRecord) (w : Wings) :
    SameData s (begunLaunch s a g k y r w) := by
  unfold begunLaunch
  obtain ⟨hunits, hmem⟩ := withLaunch_data (modNode (begun (cueTaken s) g s.hub.cueSeq k.serial) g 0 restarted) a g 0
    (numberedLaunch k a g 0 y r w) r w
  generalize withLaunch _ a g 0 _ r w = v at hunits hmem
  exact ⟨hunits, hmem⟩

/-- A pass of one launch under way. -/
theorem begunLaunch_fired {y : Node} (r : OpRecord) (w : Wings) (hn : (s.graph g).nodes = [y]) :
    let t := firstFired (begunLaunch s a g k y r w) g s.hub.launches.length r
    SameData s t ∧ (t.graph g).state = 2 ∧ (t.graph g).gcnt = 1 ∧ t.hub.launches = s.hub.launches ++ [firedLaunch k a g y r w] := by
  obtain ⟨-, -, h2, hone⟩ := graph_begunLaunch (s := s) (a := a) (k := k) r w hn
  have hbegun := begunLaunch_launches s a g k y r w
  have hdata := begunLaunch_data s a g k y r w
  generalize begunLaunch s a g k y r w = v at h2 hone hbegun hdata
  obtain ⟨hstate, hgcnt, -⟩ := graph_firstFired v g s.hub.launches.length r
  have hfired := firstFired_data v g s.hub.launches.length r
  have hmodify : (firstFired v g s.hub.launches.length r).hub.launches =
      v.hub.launches.modify s.hub.launches.length fun l => { l with pendingWings := wantedWings r } := rfl
  refine ⟨⟨hfired.1.trans hdata.1, hfired.2.trans hdata.2⟩, hstate.trans h2, hgcnt.trans hone, ?_⟩
  rw [hmodify, hbegun, List.modify_eq_take_cons_drop (by simp)]
  simp [firedLaunch]

/-! ### Phase boundaries (R372) -/

theorem flushCores_clean (h : allWritten s = true) : flushCores s = s := by
  simp only [allWritten, Bool.and_eq_true, List.all_eq_true] at h
  obtain ⟨hclean, -⟩ := h
  have hcore : ∀ c : ClusterNo, (s.cluster c).cache.any (fun l => l.dirty != 0) = false := by
    intro c
    refine List.any_eq_false.mpr fun l hl => ?_
    have hc := hclean (s.cluster c) (by simp [State.cluster, Vector.get]) l hl
    simp [eq_of_beq hc]
  have hfold : ∀ l : List ClusterNo, l.foldl (fun s c => if (s.cluster c).cache.any (fun l => l.dirty != 0) then flushDie s c else s) s = s := by
    intro l
    induction l with
    | nil => rfl
    | cons c l ih => rw [List.foldl_cons, hcore c, if_neg Bool.false_ne_true, ih]
  exact hfold _

/-- A pass whose last node is done. -/
def passOver (s : State) (g : Fin 64) : State :=
  ((modNode s g 0 fun y => { y with done := true }).modGraph g fun x => { x with gcnt := x.gcnt - 1 }).modGraph g fun x =>
    { x with passes := x.passes + 1, state := 1, todo := [] }

theorem graph_passOver (s : State) (g : Fin 64) : ∃ nodes, (passOver s g).graph g =
    { s.graph g with nodes := nodes, gcnt := (s.graph g).gcnt - 1, passes := (s.graph g).passes + 1, state := 1, todo := [] } := by
  rw [passOver, graph_modGraph_self, graph_modGraph_self, graph_modNode]
  exact ⟨_, rfl⟩

theorem finishNode_last {y : Node} (hn : (s.graph g).nodes = [y]) (hb : y.hasBody = false) (hd : y.done = false) (hs : y.succ = [])
    (hcut : (s.graph g).cut = false) (hg : (s.graph g).gcnt = 1) (hp : (s.graph g).pends = []) : finishNode s g 0 = passOver s g := by
  obtain ⟨nodes, hover⟩ := graph_passOver s g
  have hdone : doneNode s g 0 = passOver s g := by
    let t := (modNode s g 0 fun y => { y with done := true }).modGraph g fun x => { x with gcnt := x.gcnt - 1 }
    have hlast : (t.graph g).gcnt = 0 := by
      rw [graph_modGraph_self, graph_modNode]
      show (s.graph g).gcnt - 1 = 0
      rw [hg]
      rfl
    have hpass : passDone t g = passOver s g := by
      show (match ((passOver s g).graph g).pends with
        | [] => passOver s g
        | c :: rest => startPass ((passOver s g).modGraph g fun x => { x with pends := rest }) g c) = _
      rw [hover]
      dsimp only
      rw [hp]
    unfold doneNode
    dsimp only
    rw [hn, List.getElem?_cons_zero]
    dsimp only
    rw [hd, hcut, hs, parentOf_single hb]
    exact (if_pos hlast).trans hpass
  rw [finishNode, hdone, runTodo_idle]
  rw [hover]

theorem boundary_completes {y : Node} (hk : s.ctx? a = some k) (hmine : (s.graph g).asid = a) (h2 : (s.graph g).state = 2)
    (hn : (s.graph g).nodes = [y]) (hkind : y.kind = 6) (hf : y.fired = true) (hd : y.done = false) (hs : y.succ = [])
    (hcut : (s.graph g).cut = false) (hg : (s.graph g).gcnt = 1) (hp : (s.graph g).pends = [])
    (hearly : earlierPassesDone s a (s.graph g).cueNo g = true) (hall : allWritten s = true) :
    ∃ t k', exec (.phaseBoundaryRelease g) s = .next t ∧ SameData s t ∧ (t.graph g).state = 1 ∧
      (t.graph g).passes = (s.graph g).passes + 1 ∧ t.ctx? a = some k' ∧ k'.phase = k.phase + 1 := by
  let v := s.modCtx a fun k => { k with phase := k.phase + 1 }
  have hfound : (numbered (s.graph g).nodes).find? (fun y => y.2.kind == 6 && y.2.fired && !y.2.done) = some (0, y) := by
    rw [hn]
    show ([(0, y)] : List (Nat × Node)).find? _ = _
    rw [List.find?_cons_of_pos (by simp [hkind, hf, hd])]
  have hexec : exec (.phaseBoundaryRelease g) s = .next (passOver v g) := by
    rw [exec_phaseBoundaryRelease, execPhaseBoundaryRelease]
    dsimp only
    rw [hfound]
    dsimp only
    rw [h2, hmine, hearly, flushCores_clean hall, hall]
    exact congrArg Host.Outcome.next (finishNode_last (s := v) hn (hasBody_of_kind (n := 6) (by rw [hkind]; rfl) (by omega)) hd hs hcut hg hp)
  obtain ⟨nodes, hover⟩ := graph_passOver v g
  have hctx : v.ctx? a = some { k with phase := k.phase + 1 } := by
    rw [Freezes.ctx?_modCtx (f := fun k => { k with phase := k.phase + 1 }) (fun _ => rfl), if_pos rfl, hk]
    rfl
  refine ⟨_, _, hexec, ⟨rfl, rfl⟩, ?_, ?_, hctx, rfl⟩
  · rw [hover]
  · rw [hover]
    rfl

/-! ### Completion targets (R374) -/

theorem takeTarget_go {li : Nat} {l : Launch} {z : Target} (h : targetTurn s li l z = .go) :
    takeTarget s li l z = some (performTarget s li l z) := by rw [takeTarget, h]

theorem takeTarget_held {li : Nat} {l : Launch} {z : Target} (h : targetTurn s li l z ≠ .go) : takeTarget s li l z = none := by
  rw [takeTarget]
  split
  · next hgo => exact absurd hgo h
  · rfl

section
variable {li : Nat} {l : Launch} (hl : s.launch? li = some l)
include hl

section
variable (hf : l.finish = 1) (hr : l.remain = 0)
include hf hr

theorem exec_release : exec (.launchReleaseDone li) s = .next (
    if !launchReleased (launchRelease s li) li then launchRelease s li
    else match takeTarget (launchRelease s li) li l l.record.tgt0 with
      | some s => s.modLaunch li fun l => { l with finish := 2 }
      | none => targetHeld (launchRelease s li) li l l.record.tgt0) := by
  rw [exec_launchReleaseDone, execLaunchReleaseDone, hl]
  dsimp only
  rw [hf, hr]
  rfl

theorem release_waits (hw : launchReleased (launchRelease s li) li = false) :
    exec (.launchReleaseDone li) s = .next (launchRelease s li) := by
  rw [exec_release hl hf hr, hw]
  rfl

theorem release_held (hw : launchReleased (launchRelease s li) li = true)
    (ht : targetTurn (launchRelease s li) li l l.record.tgt0 ≠ .go) :
    exec (.launchReleaseDone li) s = .next (targetHeld (launchRelease s li) li l l.record.tgt0) := by
  rw [exec_release hl hf hr, hw, takeTarget_held ht]
  rfl

theorem release_performs (hw : launchReleased (launchRelease s li) li = true)
    (ht : targetTurn (launchRelease s li) li l l.record.tgt0 = .go) : exec (.launchReleaseDone li) s =
      .next ((performTarget (launchRelease s li) li l l.record.tgt0).modLaunch li fun l => { l with finish := 2 }) := by
  rw [exec_release hl hf hr, hw, takeTarget_go ht]
  rfl

end

section
variable (hf : l.finish = 2) (hnone : ∀ w ∈ s.hub.outWrites, w.uid ≠ launchUid s li)
include hf hnone

theorem exec_target : exec (.completionTarget li) s = .next (match takeTarget s li l l.record.tgt1 with
    | none => targetHeld s li l l.record.tgt1
    | some s =>
      let s := s.modLaunch li fun l => { l with finish := 3, done := true }
      match l.graph with
      | some (g, n) => if h : g < 64 then finishNode s ⟨g, h⟩ n else s
      | none => s) := by
  have hno : s.hub.outWrites.any (fun w => w.uid == launchUid s li) = false :=
    List.any_eq_false.mpr fun w hw => by simpa using hnone w hw
  rw [exec_completionTarget, execCompletionTarget, hl]
  dsimp only
  rw [hf, hno]
  rfl

theorem target_held (ht : targetTurn s li l l.record.tgt1 ≠ .go) :
    exec (.completionTarget li) s = .next (targetHeld s li l l.record.tgt1) := by
  rw [exec_target hl hf hnone, takeTarget_held ht]

theorem target_performs (ht : targetTurn s li l l.record.tgt1 = .go) (hg : l.graph = none) : exec (.completionTarget li) s =
    .next ((performTarget s li l l.record.tgt1).modLaunch li fun l => { l with finish := 3, done := true }) := by
  rw [exec_target hl hf hnone, takeTarget_go ht]
  dsimp only
  rw [hg]

end

end

end Sys2Proof.FrontEnd
end

section
/-! PROOFS.
Store targets (R374), budget periods (R381) and PCTL (R339, R340, R360). -/

-- One proof at a time: the check of the whole text has a limit on memory, which many threads would reach.
set_option Elab.async false

namespace Sys2Proof.FrontEnd

open Sys2Proof.Machine Sys2Proof.Safety Sys2Proof.DeviceStep

variable {s t v : State} {a : BitVec 16} {k : Context}

/-! ### A store target's bytes (R374) -/

theorem storeTarget_bytes {s1 : State} {pa : Nat} {e : TlbEntry} {b : Bool} {li : Nat} {l : Launch} {z : Target} (hk : z.kind = 1)
    (hva : z.va.toNat % 8 = 0) (ht : feTranslate s l.asid z.va .write = some (s1, pa, e, b)) (hr : routeOf pa e = .cached)
    (hc : Canonical s1) : ∀ i < 8, deviceByte (performTarget s li l z) (pa + i) e.key = (leBytes z.value.toNat 8).getD i 0 := by
  have hperform : performTarget s li l z = deviceWrite s1 pa (leBytes z.value.toNat 8) e.key := by
    have hstore : performTarget s li l z = storeTarget s li l z false := by
      rw [performTarget, hk]
      rfl
    rw [hstore, storeTarget]
    simp only [Bool.false_eq_true, if_false]
    rw [ht]
    dsimp only
    rw [hva, hr]
    rfl
  intro i hi
  rw [hperform, deviceByte_deviceWrite hc.1, length_leBytes, if_pos (by omega), Nat.add_sub_cancel_left]

/-! ### Budget periods (R381) -/

/-- A request that waits is taken up where the budget allows. -/
def takeUp (b : Budget) (w : Nat × Nat) : Budget :=
  if b.limit == 0 || decide (b.used < b.limit.toNat) then { b with used := b.used + w.2, granted := b.granted ++ [w.1] }
  else { b with waiting := b.waiting ++ [w] }

theorem limit_takeUp (l : List (Nat × Nat)) (b : Budget) : (l.foldl takeUp b).limit = b.limit := by
  induction l generalizing b with
  | nil => rfl
  | cons w l ih =>
    rw [List.foldl_cons, ih, takeUp]
    split <;> rfl

theorem limit_period (b : Budget) : b.period.limit = b.limit := limit_takeUp b.waiting _

theorem period_free {b : Budget} (h : b.waiting = []) :
    b.period.waiting = [] ∧ b.period.used = if b.limit = 0 then 0 else b.used - b.limit.toNat := by
  rw [Budget.period, h]
  exact ⟨rfl, rfl⟩

theorem period_starts (s : State) (r : Fin 19) : ∃ t, exec (.budgetPeriodStart r) s = .next t ∧ SameData s t ∧
    ∀ k' ∈ t.hub.contexts, ∃ k ∈ s.hub.contexts, k'.asid = k.asid ∧ (∀ j, j ≠ r → k'.budgets.get j = k.budgets.get j) ∧
      (k'.budgets.get r).limit = (k.budgets.get r).limit ∧
      ((k.budgets.get r).waiting = [] → (k'.budgets.get r).waiting = [] ∧
        (k'.budgets.get r).used = if (k.budgets.get r).limit = 0 then 0 else (k.budgets.get r).used - (k.budgets.get r).limit.toNat) := by
  refine ⟨_, rfl, ⟨rfl, rfl⟩, fun k' hk' => ?_⟩
  obtain ⟨k, hk, rfl⟩ := List.mem_map.mp hk'
  have hself : (k.budgets.set r (k.budgets.get r).period).get r = (k.budgets.get r).period := by
    show (k.budgets.set r _)[r.val] = _
    rw [Vector.getElem_set_self]
  have hother : ∀ j, j ≠ r → (k.budgets.set r (k.budgets.get r).period).get j = k.budgets.get j := by
    intro j hj
    have hne : (r : Nat) ≠ j := fun hc => hj (Fin.ext hc.symm)
    show (k.budgets.set r _)[j.val] = k.budgets[j.val]
    simp [hne]
  refine ⟨k, hk, rfl, hother, ?_, fun hw => ?_⟩
  · rw [hself, limit_period]
  · rw [hself]
    exact period_free hw

/-! ### PCTL (R339, R340, R360) -/

/-- The states have the same memory, and every context in the first has the same PCTL in the second. -/
structure SamePctl (s t : State) : Prop where
  mem : t.mem = s.mem
  ctx : ∀ b k, s.ctx? b = some k → ∃ k', t.ctx? b = some k' ∧ k'.pctl = k.pctl

namespace SamePctl

theorem of_ctx (hm : t.mem = s.mem) (hc : ∀ b, t.ctx? b = s.ctx? b) : SamePctl s t := ⟨hm, fun b k h => ⟨k, (hc b).trans h, rfl⟩⟩

theorem refl (s : State) : SamePctl s s := .of_ctx rfl fun _ => rfl

theorem trans (h₁ : SamePctl s t) (h₂ : SamePctl t v) : SamePctl s v := by
  refine ⟨h₂.mem.trans h₁.mem, fun b k hk => ?_⟩
  obtain ⟨k₁, hk₁, hp₁⟩ := h₁.ctx b k hk
  obtain ⟨k₂, hk₂, hp₂⟩ := h₂.ctx b k₁ hk₁
  exact ⟨k₂, hk₂, hp₂.trans hp₁⟩

theorem modCtx (s : State) (a : BitVec 16) {f : Context → Context} (hf : ∀ k, (f k).asid = k.asid) (hp : ∀ k, (f k).pctl = k.pctl) :
    SamePctl s (s.modCtx a f) := by
  refine ⟨rfl, fun b k hk => ?_⟩
  rw [Freezes.ctx?_modCtx hf]
  split
  · next hb =>
    rw [← hb, hk]
    exact ⟨f k, rfl, hp k⟩
  · exact ⟨k, hk, rfl⟩

theorem foldl {α : Type} {f : State → α → State} (h : ∀ s x, SamePctl s (f s x)) (l : List α) (s : State) : SamePctl s (l.foldl f s) := by
  induction l generalizing s with
  | nil => exact refl s
  | cons x l ih => exact (h s x).trans (ih (f s x))

end SamePctl

theorem startPrompter_samePctl (s : State) (k : Context) (slot : BitVec 6) (c : ClusterNo) (serves : Uid) :
    SamePctl s (startPrompter s k slot c serves) :=
  .trans (t := { s with units := s.units ++ _ }) (.of_ctx rfl fun _ => rfl) (.modCtx _ _ (fun _ => rfl) fun _ => rfl)

theorem handOne_samePctl (s : State) (a : BitVec 16) : SamePctl s (handOne s a) := by
  unfold handOne
  split
  · exact .refl s
  · split
    · split
      · split
        · refine .trans ?_ (startPrompter_samePctl ..)
          exact .of_ctx rfl fun _ => rfl
        · exact .refl s
      · exact .refl s
    · exact .refl s

theorem handAll_samePctl (a : BitVec 16) (n : Nat) (s : State) : SamePctl s (handAll a n s) := by
  induction n generalizing s with
  | zero => exact .refl s
  | succ n ih => exact (handOne_samePctl s a).trans (ih _)

theorem startRecording_samePctl (s : State) (a : BitVec 16) : SamePctl s (startRecording s a) := by
  unfold startRecording
  rcases hfree : s.freeWord with ⟨b, v⟩
  dsimp only
  have hv : SamePctl s v := by
    cases hfree
    exact .of_ctx rfl fun _ => rfl
  refine hv.trans (.trans (.modCtx v a ?_ ?_) (.foldl ?_ _ _))
  · exact fun _ => rfl
  · exact fun _ => rfl
  · exact fun t d => .of_ctx rfl fun _ => rfl

/-- PCTL as a host write leaves it. -/
def pctlWritten (k : Context) (v : Word) : BitVec 26 :=
  v.extractLsb' 25 1 ++ v.extractLsb' 24 1 ++ (if v.extractLsb' 22 2 = 3 then k.pctl.extractLsb' 22 2 else v.extractLsb' 22 2) ++
    (if k.slots.isEmpty then v.extractLsb' 16 6 else k.pctl.extractLsb' 16 6) ++ v.extractLsb' 0 16

theorem pctl_written (hk : s.ctx? a = some k) (v : Word) :
    ∃ t k', exec (.pctlWrite a v) s = .next t ∧ t.mem = s.mem ∧ t.ctx? a = some k' ∧ k'.pctl = pctlWritten k v := by
  let w := s.modCtx a fun k' => { k' with pctl := pctlWritten k v }
  have hexec : exec (.pctlWrite a v) s =
      .next (handAll a 64 (if (pctlWritten k v).getLsbD 24 && !k.recording then startRecording w a else w)) := by
    rw [exec_pctlWrite, execPctlWrite, writePctl, hk]
    simp only [w, pctlWritten]
    rfl
  have hsame : SamePctl w (handAll a 64 (if (pctlWritten k v).getLsbD 24 && !k.recording then startRecording w a else w)) := by
    refine .trans ?_ (handAll_samePctl a 64 _)
    split
    · exact startRecording_samePctl w a
    · exact .refl w
  have hw : w.ctx? a = some { k with pctl := pctlWritten k v } := by
    rw [Freezes.ctx?_modCtx (f := fun k' => { k' with pctl := pctlWritten k v }) (fun _ => rfl), if_pos rfl, hk]
    rfl
  obtain ⟨k', hk', hp⟩ := hsame.ctx a _ hw
  exact ⟨_, k', hexec, hsame.mem, hk', hp⟩

/-- The fields of a word put together. -/
theorem pctl_fields (x y : BitVec 1) (policy : BitVec 2) (pool : BitVec 6) (phi : BitVec 16) :
    (x ++ y ++ policy ++ pool ++ phi).extractLsb' 0 16 = phi ∧ (x ++ y ++ policy ++ pool ++ phi).extractLsb' 24 2 = x ++ y ∧
      (x ++ y ++ policy ++ pool ++ phi).extractLsb' 16 6 = pool ∧ (x ++ y ++ policy ++ pool ++ phi).extractLsb' 22 2 = policy := by
  refine ⟨?_, ?_, ?_, ?_⟩
  all_goals
    refine BitVec.eq_of_getLsbD_eq fun i hi => ?_
    simp only [BitVec.getLsbD_extractLsb', BitVec.getLsbD_append, hi, decide_true, Bool.true_and]
  · simp [hi]
  · simp [show ¬24 + i < 16 by omega, show ¬24 + i - 16 < 6 by omega, show ¬24 + i - 16 - 6 < 2 by omega, show 24 + i - 16 - 6 - 2 = i by omega]
  · simp [show 16 + i - 16 = i by omega, hi]
  · simp [show ¬22 + i < 16 by omega, show ¬22 + i - 16 < 6 by omega, show 22 + i - 16 - 6 = i by omega, hi]

theorem extract_pair (v : Word) : v.extractLsb' 25 1 ++ v.extractLsb' 24 1 = v.extractLsb' 24 2 := by
  refine BitVec.eq_of_getLsbD_eq fun i hi => ?_
  simp only [BitVec.getLsbD_extractLsb', BitVec.getLsbD_append]
  interval_cases i <;> rfl

theorem pctl_taken (hk : s.ctx? a = some k) (v : Word) : ∃ t k', exec (.pctlWrite a v) s = .next t ∧ t.mem = s.mem ∧ t.ctx? a = some k' ∧
    k'.pctl.extractLsb' 0 16 = v.extractLsb' 0 16 ∧ k'.pctl.extractLsb' 24 2 = v.extractLsb' 24 2 ∧
    k'.pctl.extractLsb' 16 6 = (if k.slots.isEmpty then v.extractLsb' 16 6 else k.pctl.extractLsb' 16 6) ∧
    k'.pctl.extractLsb' 22 2 = (if v.extractLsb' 22 2 = 3 then k.pctl.extractLsb' 22 2 else v.extractLsb' 22 2) := by
  obtain ⟨t, k', hexec, hmem, hctx, hp⟩ := pctl_written hk v
  obtain ⟨hphi, htop, hpool, hpolicy⟩ := pctl_fields (v.extractLsb' 25 1) (v.extractLsb' 24 1)
    (if v.extractLsb' 22 2 = 3 then k.pctl.extractLsb' 22 2 else v.extractLsb' 22 2)
    (if k.slots.isEmpty then v.extractLsb' 16 6 else k.pctl.extractLsb' 16 6) (v.extractLsb' 0 16)
  refine ⟨t, k', hexec, hmem, hctx, ?_, ?_, ?_, ?_⟩ <;> rw [hp, pctlWritten]
  · exact hphi
  · exact htop.trans (extract_pair v)
  · exact hpool
  · exact hpolicy

end Sys2Proof.FrontEnd
end

section
/-! PROOFS.
Cancels (R375), and O59 settled. -/

-- One proof at a time: the check of the whole text has a limit on memory, which many threads would reach.
set_option Elab.async false

namespace Sys2Proof.FrontEnd

open Sys2Proof.Machine Sys2Proof.Safety Sys2Proof.Kills

variable {s t v : State} {a : BitVec 16} {g : Fin 64} {k : Context}

/-! ### Cancels in turn -/

/-- No cancel of the context is in progress. -/
def Uncancelled (s : State) (a : BitVec 16) : Prop := ∀ k, s.ctx? a = some k → k.cancels = []

theorem performCancel_uncancelled (h : Uncancelled s a) (c : Cancel) : performCancel s a c = runCancel s a c := by
  unfold performCancel
  split
  · rfl
  · next k hk => rw [h k hk]

theorem uncancelled_of (hk : s.ctx? a = some k) (hc : k.cancels = []) : Uncancelled s a := by
  intro k' hk'
  cases hk.symm.trans hk'
  exact hc

theorem performCancel_queued {x c : Cancel} {rest : List Cancel} (hk : s.ctx? a = some k) (hc : k.cancels = x :: rest) (hne : c ≠ x) :
    performCancel s a c = s.modCtx a fun k => { k with cancels := k.cancels ++ [c] } := by
  unfold performCancel
  rw [hk]
  dsimp only
  rw [hc]
  exact if_neg hne.symm

/-! ### Units and launches -/

theorem unit_cancelled {serial : BitVec 32} {n : BitVec 16} {li : Nat} {l : Launch} (h : Uncancelled s a) (hl : s.launch? li = some l)
    (hfind : s.hub.launches.findIdx? (fun l => l.asid == a && l.serial == serial && !l.done) = some li)
    (hunit : unitExists s li n.toNat = true) :
    exec (.cancelUnit a serial n) s = .next (killUnits s fun u => u.ident.launch == some li && u.ident.index == n) := by
  rw [exec_cancelUnit, execCancelUnit, performCancel_uncancelled h]
  show Host.Outcome.next (cancelUnit s a serial n) = _
  unfold cancelUnit
  rw [hfind]
  dsimp only
  rw [hl]
  dsimp only
  rw [hunit]
  rfl

theorem launch_cancelled {serial : BitVec 32} {li : Nat} (h : Uncancelled s a)
    (hfind : s.hub.launches.findIdx? (fun l => l.asid == a && l.serial == serial && !l.done) = some li) :
    exec (.cancelLaunch a serial) s = .next (cutLaunch s li) := by
  rw [exec_cancelLaunch, execCancelLaunch, performCancel_uncancelled h]
  show Host.Outcome.next (cancelLaunch s a serial) = _
  rw [cancelLaunch, hfind]

/-- A launch that has not fired has no unit to kill. -/
theorem cutLaunch_unfired {li : Nat} {l : Launch} (hl : s.launch? li = some l) (hd : l.done = false) (hf : l.finish = 0) (hp : l.placed = 0)
    (hw : l.pendingWings = []) (hs : ∀ c, (s.cluster c).shadowWings ≠ some li) :
    cutLaunch s li = s.modLaunch li fun l => { l with killed := true } := by
  have hshadow : s.clusters.toList.any (fun k => k.shadowWings == some li) = false := by
    refine List.any_eq_false.mpr fun k hk => ?_
    obtain ⟨i, hi, rfl⟩ := Vector.mem_iff_getElem.mp (Vector.mem_toList_iff.mp hk)
    have hi' : s.clusters[i].shadowWings ≠ some li := hs ⟨i, hi⟩
    simpa using hi'
  unfold cutLaunch
  rw [hl]
  dsimp only
  rw [hd, hf, hp, hw, hshadow]
  rfl

/-! ### Passes -/

/-- A cut of a slot's pass, which leaves the other slots, the units and memory as they were. -/
structure GraphCut (s t : State) (g : Fin 64) : Prop where
  data : SameData s t
  others : ∀ j, j ≠ g → t.graph j = s.graph j
  pends : (t.graph g).pends = []
  ended : (t.graph g).cut = true ∨ (t.graph g).state = 1

theorem dropTransforms_rest (s : State) (g : Nat) : (dropTransforms s g).hub = s.hub ∧ SameData s (dropTransforms s g) := by
  have hkeep {α : Type} (f : State → α) (hf : ∀ t c h, f (t.modCluster c h) = f t)
      (he : ∀ t c e h, f (t.modEngine c e h) = f t) : f (dropTransforms s g) = f s := by
    unfold dropTransforms
    refine DeviceStep.foldl_keeps f (fun t c => ?_) _ s
    dsimp only
    split
    · rw [List.foldl_cons, List.foldl_cons, List.foldl_nil, he, he, hf]
    · rfl
  exact ⟨hkeep State.hub (fun _ _ _ => rfl) fun _ _ _ _ => rfl, hkeep State.units (fun _ _ _ => rfl) fun _ _ _ _ => rfl,
    hkeep State.mem (fun _ _ _ => rfl) fun _ _ _ _ => rfl⟩

/-- No node of the slot names a launch. -/
def Quiet (s : State) (g : Fin 64) : Prop := ∀ n ∈ (s.graph g).nodes, n.launch = none

/-- A pass with nothing more to fire. -/
def unfiring (x : Graph) : Graph :=
  { x with cut := true, pends := [], todo := [],
           nodes := x.nodes.map fun n => if n.working then n else { n with fired := true, done := true } }

theorem cutGraph_quiet (h2 : (s.graph g).state = 2) (hq : Quiet s g) :
    cutGraph s g = settleCut (dropTransforms (s.modGraph g unfiring) g.val) g := by
  have hnodes : ∀ (l : List Node), (∀ n ∈ l, n.launch = none) → ∀ v : State, l.foldl (fun s n => match n.launch with
      | some li => if n.fired && !n.done then cutLaunch s li else s.modLaunch li fun l => { l with killed := l.killed || !n.done }
      | none => s) v = v := by
    intro l hl v
    induction l with
    | nil => rfl
    | cons n l ih =>
      rw [List.foldl_cons, hl n List.mem_cons_self]
      exact ih fun m hm => hl m (List.mem_cons_of_mem _ hm)
  unfold cutGraph
  dsimp only
  rw [h2]
  exact congrArg (settleCut · g) (hnodes _ hq _)

theorem cutGraph_cuts (h2 : (s.graph g).state = 2) (hq : Quiet s g) : GraphCut s (cutGraph s g) g := by
  obtain ⟨hhub, hdata⟩ := dropTransforms_rest (s.modGraph g unfiring) g.val
  have hgraph : ∀ j, (dropTransforms (s.modGraph g unfiring) g.val).graph j = (s.modGraph g unfiring).graph j := by
    intro j
    rw [State.graph, hhub, State.graph]
  rw [cutGraph_quiet h2 hq]
  generalize dropTransforms (s.modGraph g unfiring) g.val = t at hdata hgraph ⊢
  have hself : t.graph g = unfiring (s.graph g) := (hgraph g).trans (graph_modGraph_self ..)
  have hother : ∀ j, j ≠ g → t.graph j = s.graph j := fun j hj => (hgraph j).trans (graph_modGraph_ne _ hj)
  unfold settleCut
  dsimp only
  split
  · refine ⟨hdata, fun j hj => (graph_modGraph_ne _ hj).trans (hother j hj), ?_, ?_⟩
    · rw [graph_modGraph_self, hself]
      rfl
    · rw [graph_modGraph_self]
      exact .inr rfl
  · exact ⟨hdata, hother, by rw [hself]; rfl, .inl (by rw [hself]; rfl)⟩

theorem graph_cancelled (h : Uncancelled s a) (hmine : (s.graph g).asid = a) (h2 : (s.graph g).state = 2) (hq : Quiet s g) :
    ∃ t, exec (.cancelGraph a g) s = .next t ∧ GraphCut s t g := by
  rw [exec_cancelGraph, execCancelGraph, performCancel_uncancelled h]
  refine ⟨_, congrArg Host.Outcome.next (if_pos hmine), cutGraph_cuts h2 hq⟩

/-! ### Phases -/

/-- A slot's pass as CANCEL_PHASE leaves it where no boundary cued so far ends the phase. -/
def phaseStep (a : BitVec 16) (s : State) (g : Fin 64) : State :=
  if (s.graph g).asid = a && (s.graph g).state == 2 then (cutGraph s g).modGraph g fun x => { x with pends := [] } else s

theorem cancelPhase_all {phase : BitVec 16} (hk : s.ctx? a = some k) (hnear : (phase - k.phase).toNat < 2 ^ 15)
    (hnone : (boundaryCues s a)[(phase - k.phase).toNat]? = none) : cancelPhase s a phase = (List.finRange 64).foldl (phaseStep a) s := by
  unfold cancelPhase
  rw [hk]
  dsimp only
  rw [if_neg (by omega), hnone]
  refine congrArg (fun f => (List.finRange 64).foldl f s) (funext₂ fun t g => ?_)
  simp only [Bool.not_true, List.filter_false, if_true, phaseStep]

theorem phaseStep_other (t : State) {g j : Fin 64} (hq : Quiet t g) (hj : j ≠ g) :
    SameData t (phaseStep a t g) ∧ (phaseStep a t g).graph j = t.graph j := by
  unfold phaseStep
  split
  · next hc =>
    simp only [Bool.and_eq_true, decide_eq_true_eq, beq_iff_eq] at hc
    obtain ⟨-, h2⟩ := hc
    have hcut := cutGraph_cuts h2 hq
    exact ⟨hcut.data, (graph_modGraph_ne _ hj).trans (hcut.others j hj)⟩
  · exact ⟨⟨rfl, rfl⟩, rfl⟩

/-- A slot whose pass is over with nothing pending. -/
def PassEnded (t : State) (g : Fin 64) : Prop := (t.graph g).pends = [] ∧ ((t.graph g).cut = true ∨ (t.graph g).state = 1)

theorem phaseStep_ends (hq : Quiet t g) (hmine : (t.graph g).asid = a) (h2 : (t.graph g).state = 2) :
    SameData t (phaseStep a t g) ∧ PassEnded (phaseStep a t g) g := by
  have hcut := cutGraph_cuts h2 hq
  unfold phaseStep PassEnded
  rw [if_pos (by simp [hmine, h2]), graph_modGraph_self]
  exact ⟨hcut.data, rfl, hcut.ended⟩

theorem phaseStep_data (hq : Quiet t g) : SameData t (phaseStep a t g) := by
  obtain ⟨j, hj⟩ := exists_ne g
  exact (phaseStep_other t hq hj).1

theorem phaseSteps_end (l : List (Fin 64)) (hnodup : l.Nodup) (hq : ∀ g, g ∈ l → Quiet s g) : SameData s (l.foldl (phaseStep a) s) ∧
    (∀ j, j ∉ l → (l.foldl (phaseStep a) s).graph j = s.graph j) ∧
    ∀ g ∈ l, (s.graph g).asid = a → (s.graph g).state = 2 → PassEnded (l.foldl (phaseStep a) s) g := by
  induction l generalizing s with
  | nil => exact ⟨⟨rfl, rfl⟩, fun _ _ => rfl, nofun⟩
  | cons x l ih =>
    obtain ⟨hx, hl⟩ := List.nodup_cons.mp hnodup
    have hqx := hq x List.mem_cons_self
    have hothers : ∀ j, j ≠ x → (phaseStep a s x).graph j = s.graph j := fun j hj => (phaseStep_other s hqx hj).2
    have hne : ∀ {j}, j ∈ l → j ≠ x := fun hj hc => hx (hc ▸ hj)
    obtain ⟨⟨hunits, hmem⟩, hkept, hended⟩ := ih (s := phaseStep a s x) hl fun g hg => by
      rw [Quiet, hothers g (hne hg)]
      exact hq g (List.mem_cons_of_mem _ hg)
    have hdata := phaseStep_data (a := a) hqx
    refine ⟨⟨hunits.trans hdata.1, hmem.trans hdata.2⟩, fun j hj => ?_, fun g hg hmine h2 => ?_⟩
    · exact (hkept j (List.not_mem_of_not_mem_cons hj)).trans (hothers j (List.ne_of_not_mem_cons hj))
    · rcases List.mem_cons.mp hg with rfl | hg
      · have hend := (phaseStep_ends hqx hmine h2).2
        rw [PassEnded] at hend ⊢
        rw [List.foldl_cons, hkept g hx]
        exact hend
      · rw [← hothers g (hne hg)] at hmine h2
        exact hended g hg hmine h2

theorem phase_cancelled {phase : BitVec 16} (hk : s.ctx? a = some k) (hc : k.cancels = []) (hnear : (phase - k.phase).toNat < 2 ^ 15)
    (hnone : (boundaryCues s a)[(phase - k.phase).toNat]? = none) (hq : ∀ g, Quiet s g) :
    ∃ t, exec (.cancelPhase a phase) s = .next t ∧ SameData s t ∧
      ∀ g : Fin 64, (s.graph g).asid = a → (s.graph g).state = 2 → PassEnded t g := by
  obtain ⟨hdata, -, hended⟩ := phaseSteps_end (s := s) (a := a) _ (List.nodup_finRange 64) fun g _ => hq g
  refine ⟨_, ?_, hdata, fun g => hended g (List.mem_finRange g)⟩
  rw [exec_cancelPhase, execCancelPhase, performCancel_uncancelled (uncancelled_of hk hc)]
  exact congrArg Host.Outcome.next (cancelPhase_all hk hnear hnone)

theorem phase_past {phase : BitVec 16} (hk : s.ctx? a = some k) (hc : k.cancels = []) (hfar : 2 ^ 15 ≤ (phase - k.phase).toNat) :
    exec (.cancelPhase a phase) s = .next s := by
  rw [exec_cancelPhase, execCancelPhase, performCancel_uncancelled (uncancelled_of hk hc)]
  show Host.Outcome.next (cancelPhase s a phase) = _
  rw [cancelPhase, hk]
  exact congrArg Host.Outcome.next (if_pos hfar)

/-! ### The statement -/

/-- Settles O59: each event of the front end acts on its slot, launch, context or unit as its rule says, and a unit that is killed keeps its
registers. -/
theorem frontEndEvents : Obligations.FrontEndEvents := by
  unfold Obligations.FrontEndEvents
  refine ⟨fun s a g k hk => ?_, fun s a => ?_⟩
  · refine ⟨gaddr_written hk, cue_dropped, fun hmine hlive => ⟨cue_waits hk hmine hlive, ?_, ?_⟩,
      fun li l hl hf hr => ⟨release_waits hl hf hr, release_held hl hf hr, release_performs hl hf hr⟩,
      fun li l hl hf hnone => ⟨target_held hl hf hnone, target_performs hl hf hnone⟩,
      fun li l z s1 pa e b hkind hva ht hr _ hc => storeTarget_bytes hkind hva ht hr hc, period_starts s, pctl_taken hk⟩
    · intro y r w h1 hres hn hkind hd hr hw hno
      obtain ⟨hdata, hstate, hgcnt, hlaunches⟩ := begunLaunch_fired (s := s) (a := a) (k := k) r w hn
      exact ⟨_, firedLaunch k a g y r w, cue_launches hk hmine hlive h1 hres hn hkind hd hr hw hno, hdata, hstate, hgcnt, hlaunches,
        rfl, rfl, rfl, rfl, rfl, rfl, rfl, rfl⟩
    · intro y h2 hn hkind hf hd hs hcut hg hp _ hearly hall
      exact boundary_completes hk hmine h2 hn hkind hf hd hs hcut hg hp hearly hall
  · refine ⟨fun k x rest hk hc o ho hne => ?_, fun h serial n li l hl hfind => ⟨unit_cancelled h hl hfind, launch_cancelled h hfind,
      cutLaunch_unfired hl⟩, fun g h hmine h2 hq => ?_, fun phase k hk hc => ⟨phase_past hk hc, phase_cancelled hk hc⟩, fun k hk hc => ?_,
      fun uid u hu hlive _ _ _ _ _ => ?_⟩
    · rcases List.mem_append.mp ho with ho | ho
      · cases List.mem_singleton.mp ho
        exact congrArg Host.Outcome.next (performCancel_queued hk hc hne)
      · obtain ⟨g, -, rfl⟩ := List.mem_map.mp ho
        exact congrArg Host.Outcome.next (performCancel_queued hk hc hne)
    · obtain ⟨t, hexec, hcut⟩ := graph_cancelled h hmine h2 hq
      exact ⟨t, hexec, hcut.data, hcut.pends, hcut.ended⟩
    · rw [exec_cancelJob, execCancelJob, performCancel_uncancelled (uncancelled_of hk hc)]
      rfl
    · obtain ⟨w, hw, hstatus, hpend, kept⟩ := endUnit_unit hu hlive .killed
      exact ⟨w, hw, hstatus, hpend, kept.regs, kept.csr⟩

end Sys2Proof.FrontEnd
end

section
/-! PROOFS.
A core's step that finds one operation in the bundle at PC (R32, R33, R60, R80, R89), and O6 settled. -/

-- One proof at a time: the check of the whole text has a limit on memory, which many threads would reach.
set_option Elab.async false

namespace Sys2Proof.StepRuns

open Sys2Proof.Machine Sys2Proof.Safety

variable {s : State} {c : ClusterNo} {uid : Uid} {u : UnitSt} {h : Option Header} {o : SlotOp} {i : Instr} {t : State}

/-! ### A bundle of one operation -/

theorem instr_of_mem_slotOps {l : List (Nat × SlotWord)} {n : Nat} (h : o ∈ slotOps n l) : o.instr = instrOf o.word := by
  induction l generalizing n with
  | nil => cases h
  | cons x l ih =>
    obtain ⟨k, w⟩ := x
    rw [slotOps] at h
    split at h
    · exact ih h
    · rcases List.mem_cons.mp h with rfl | h
      · rfl
      · exact ih h

theorem runOp_decoded {ws : List SlotWord} (hops : opsOf ws = [o]) (hdec : decodeSlot o.word = .instr i) (hwf : i.wellFormed = true) (s : State) :
    runOp s o = exec i s := by
  have hmem : o ∈ opsOf ws := by rw [hops]; exact List.mem_singleton_self o
  have hinstr : o.instr = some i := by
    rw [instr_of_mem_slotOps hmem, instrOf, hdec]
    exact if_pos hwf
  rw [runOp, hinstr]

theorem slotRank_lt (ops : List SlotOp) (o : SlotOp) : slotRank ops o < 7 := by
  unfold slotRank
  dsimp only
  split <;> (repeat' split) <;> omega

theorem ranked_single (o : SlotOp) : ranked [o] = [o] := by
  have hlt := slotRank_lt [o] o
  unfold ranked
  generalize slotRank [o] = f at hlt ⊢
  have hone : ∀ r, [o].filter (fun x => f x == r) = if f o = r then [o] else [] := by
    intro r
    by_cases hr : f o = r <;> simp [hr]
  simp only [hone]
  generalize f o = n at hlt ⊢
  interval_cases n <;> rfl

section
variable (hrun : ∀ s, runOp s o = exec i s)
  (hexec : exec i ((s.setUnit uid (enterBundle u)).setIssue (o.issue uid h)) = .next t) (hdone : t.issue.result = .done)
include hrun hexec

theorem probe_single : probe (s.setUnit uid (enterBundle u)) uid h [o] [] = .next [(o, t.issue)] := by
  rw [probe, hrun, hexec]
  rfl

include hdone

theorem runOps_single (n : Nat) (hu : (s.setUnit uid (enterBundle u)).unit? uid = some (enterBundle u)) :
    runOps uid h false n [] (ranked [o]) ((s.setUnit uid (enterBundle u)).setIssue Issue.empty) = .next (.all t) := by
  have hsame : runOp (((s.setUnit uid (enterBundle u)).setIssue Issue.empty).setIssue
      { o.issue uid h with ready := false, xfer := Issue.empty.xfer, nops := Issue.empty.nops }) o = .next t := by
    rw [hrun]
    exact hexec
  rw [ranked_single, runOps]
  rw [show ((s.setUnit uid (enterBundle u)).setIssue Issue.empty).unit? uid = some (enterBundle u) from hu]
  dsimp only
  rw [show ((s.setUnit uid (enterBundle u)).setIssue Issue.empty).issue = Issue.empty from rfl, hsame]
  dsimp only
  rw [hdone]
  rfl

theorem commit_single (pre : State) (hu : (s.setUnit uid (enterBundle u)).unit? uid = some (enterBundle u))
    (hroom : ∀ v, t.unit? uid = some v → v.pend.length ≤ 48) :
    commit pre (s.setUnit uid (enterBundle u)) uid u h [o] = .next (.issued (afterIssue t uid h)) := by
  have hhas : hasRoom t uid u false = true := by
    unfold hasRoom
    split
    · next v hv => simp [hroom v hv]
    · rfl
  unfold commit
  dsimp only
  rw [show decide (1 < [o].length) = false from rfl, runOps_single hrun hexec hdone u.pend.length hu]
  dsimp only
  rw [hhas]
  rfl

end

theorem stand_none {l : List (SlotOp × Issue)} (hfte : u.csr.fte = 0) (hstood : u.run.stood = false) (hports : portExcess l = 0) :
    stand s uid u l = none := by
  have hpass : checkLength u.csr.fte l = 0 := by
    have hzero : (l.map fun x => if x.2.canRaise &&& u.csr.fte = 0 then 0 else x.2.lat) = l.map fun _ => 0 := by
      refine List.map_congr_left fun x _ => if_pos ?_
      rw [hfte]
      exact BitVec.and_zero
    have hmax : ∀ l : List (SlotOp × Issue), (l.map fun _ => 0).foldl max 0 = 0 := by
      intro l
      induction l with
      | nil => rfl
      | cons x l ih => exact ih
    rw [checkLength, hzero, hmax]
  unfold stand
  dsimp only
  rw [hpass, hports, hstood, ite_self]
  rfl

theorem tryIssue_single {bs : List Byte} (hwf : bundleWellFormed (slotsOfBytes bs) = true) (hops : opsOf (slotsOfBytes bs) = [o])
    (hdec : decodeSlot o.word = .instr i) (hwf' : i.wellFormed = true)
    (hexec : exec i ((s.setUnit uid (enterBundle u)).setIssue (o.issue uid (bundleHeader (slotsOfBytes bs)))) = .next t)
    (hdone : t.issue.result = .done) (hports : portExcess [(o, t.issue)] = 0) (hroom : ∀ v, t.unit? uid = some v → v.pend.length ≤ 48)
    (hu : s.unit? uid = some u) (hwait : u.run.wait = none) (hstood : u.run.stood = false) (hfte : u.csr.fte = 0) (hcheck : u.csr.check = 0) :
    tryIssue s uid u bs = .next (.issued (afterIssue t uid (bundleHeader (slotsOfBytes bs)))) := by
  have hrun := runOp_decoded hops hdec hwf'
  have hset : (s.setUnit uid (enterBundle u)).unit? uid = some (enterBundle u) := State.unit?_setUnit_self hu
  have hwalk : walking [(o, t.issue)] = false := by
    rw [walking, List.any_cons, hdone]
    rfl
  have hfail : failing [(o, t.issue)] = [] := by
    rw [failing, List.filterMap_cons_none]
    · rfl
    · dsimp only
      rw [hdone]
  have hwaits : waiting [(o, t.issue)] = none := by
    unfold waiting
    rw [List.findSome?_cons, List.findSome?_cons]
    dsimp only
    rw [hdone]
    rfl
  unfold tryIssue
  dsimp only
  rw [hwf, hops, probe_single hrun hexec]
  dsimp only
  rw [hwalk, hfail, hwaits]
  dsimp only
  rw [hcheck, hwait, stand_none hfte hstood hports]
  exact commit_single hrun hexec hdone s hset hroom

/-! ### The cycle of the unit that runs -/

section
variable {bs : List Byte} {s' : State}
  (hfetch : fetchBundle s u = (.got bs, s')) (hann : u.flow.pc.ann = false) (hpoint : pointWanted s' u = false)
  (htry : tryIssue s' uid u bs = .next (.issued t))
include hfetch hann hpoint htry

theorem fetchCycle_issued : fetchCycle s uid u = .next (t, if runsOn t uid then .unheld else .halted) := by
  rw [fetchCycle, hfetch]
  dsimp only
  rw [bundleCycle, hpoint, hann, htry, Bool.and_false]
  rfl

theorem boundaryCycle_issued {v : State} {u0 : UnitSt} (hb : boundary v uid u0 = (s, false)) (hu : s.unit? uid = some u)
    (hwait : u.run.wait = none) : boundaryCycle v uid u0 = .next (t, if runsOn t uid then .unheld else .halted) := by
  have halready : alreadyWaits u = false := by rw [alreadyWaits, hwait]
  rw [boundaryCycle, hb]
  dsimp only
  rw [hu]
  dsimp only
  rw [halready, fetchCycle_issued hfetch hann hpoint htry]
  rfl

end

theorem unitCycle_boundary {u0 : UnitSt} (hu : s.unit? uid = some u0) (hbaraw : (settle u0).sync.barawReq = none)
    (hmiss : missing (settle u0) = false) (hgap : (settle u0).run.gap = 0) :
    unitCycle s uid = boundaryCycle (s.setUnit uid (settle u0)) uid (settle u0) := by
  unfold unitCycle
  rw [hu]
  dsimp only
  rw [hmiss, hbaraw, hgap]
  rfl

/-! ### The core's step -/

theorem runCycle_issued (hthr : (s.cluster c).throttled = false) (harr : arrayRuns s c = false)
    (hunit : unitCycle (arrayPre (takeCounts s c uid) c) uid = .next (t, if runsOn t uid then .unheld else .halted)) :
    runCycle s c uid = .next (endCycle (arrayPost (deliverFollows t c slotOk) c) c (some uid) (if runsOn t uid then .unheld else .halted)) := by
  have hkind : ((if runsOn t uid then CycleKind.unheld else .halted) != .held) = true := by
    split <;> rfl
  unfold runCycle
  rw [hthr, harr, hunit]
  dsimp only
  rw [hkind]
  rfl

/-- The state in which a core finds its unit: the cycle counted, a switch gone on. -/
def coreReady (s : State) (c : ClusterNo) : State :=
  endSwitch (beginSwitch ((dieCycle s c).modCluster c fun k => { k with cyc := k.cyc + 1 }) c) c

theorem coreStep_runs (hstop : s.mod.stopped = false) (hlost : (s.die (dieOf c)).lost = false)
    (hrun : ((coreReady s c).cluster c).running = some uid) (hcycle : runCycle (coreReady s c) c uid = .next t) :
    coreStep s c = .next (t.setIssue Issue.empty) := by
  have hcore : coreCycle (dieCycle s c) c = .next t := by
    show (match ((coreReady s c).cluster c).running with
      | some uid => runCycle (coreReady s c) c uid
      | none => .next (endCycle (switchTick (coreReady s c) c) c none .waited)) = _
    rw [hrun]
    exact hcycle
  unfold coreStep
  rw [hstop, hlost, hcore]
  rfl

/-- Settles O6: the step fetches the bundle at PC, finds its one operation ready, and runs it; an event at the head of the inputs is run
as it is. -/
theorem stepRunsDecoded : Obligations.StepRunsDecoded := by
  unfold Obligations.StepRunsDecoded
  refine ⟨fun s c rest uid hin hstop hlost hrun hthr harr u0 hu0 hbaraw hmiss hgap s4 u hb hu hann hwait hstood hfte hcheck bs s5 hfetch hpoint
    hwf o i hops hdec hwf' t hexec hdone hports hroom => ?_, fun s t i rest hin hev hexec => ?_⟩
  · have hu5 : s5.unit? uid = some u := by
      rw [State.unit?, (UnitEvents.fetchBundle_got hfetch).2]
      exact hu
    have htry := tryIssue_single hwf hops hdec hwf' hexec hdone hports hroom hu5 hwait hstood hfte hcheck
    have hunit := (unitCycle_boundary hu0 hbaraw hmiss hgap).trans (boundaryCycle_issued hfetch hann hpoint htry hb hu hwait)
    have hcore := coreStep_runs (s := { s with inputs := rest }) hstop hlost hrun (runCycle_issued hthr harr hunit)
    rw [step, scheduled, hin]
    show settled (coreStep { s with inputs := rest } c) = _
    rw [hcore, settled]
  · rw [step, scheduled, hin]
    show settled (if isEvent i then exec i { s with inputs := rest } else .next { s with inputs := rest }) = _
    rw [if_pos hev, hexec, settled]

end Sys2Proof.StepRuns
end

section
/-! PROOFS.
How the machine's parts keep the canonical form of every memory (O7): the parts of the state that hold no memory, the writes of memory, and
the ways in which the model puts functions together. -/

-- One proof at a time: the check of the whole text has a limit on memory, which many threads would reach.
set_option Elab.async false

namespace Sys2Proof.Safety

open Sys2Proof.Machine

variable {s t : State}

/-! ### States with the same memories -/

/-- A change of a cluster that leaves its memories alone. -/
def KeepsSram (f : Cluster → Cluster) : Prop :=
  ∀ k, (f k).tileSram = k.tileSram ∧ (f k).chipSram = k.chipSram ∧ (f k).pinSram = k.pinSram

/-- Every memory of a cluster in its canonical form. -/
def CanonicalSram (k : Cluster) : Prop :=
  Memory.wf k.tileSram = true ∧ Memory.wf k.chipSram = true ∧ Memory.wf k.pinSram = true

theorem CanonicalSram.of_keeps {f : Cluster → Cluster} {k : Cluster} (hf : KeepsSram f) (h : CanonicalSram k) : CanonicalSram (f k) := by
  obtain ⟨htile, hchip, hpin⟩ := hf k
  obtain ⟨wtile, wchip, wpin⟩ := h
  exact ⟨by rw [htile]; exact wtile, by rw [hchip]; exact wchip, by rw [hpin]; exact wpin⟩

theorem CanonicalSram.reset : CanonicalSram Cluster.reset := ⟨rfl, rfl, rfl⟩

namespace Canonical

theorem sram (h : Canonical s) (c : ClusterNo) : CanonicalSram (s.cluster c) := h.2.2 c

theorem setCluster {x : Cluster} {c : ClusterNo} (h : Canonical s) (hx : CanonicalSram x := by exact Canonical.sram (by assumption) _) :
    Canonical (s.setCluster c x) := by
  obtain ⟨hmem, hupdate, hsram⟩ := h
  refine ⟨hmem, hupdate, fun d => ?_⟩
  by_cases hd : c = d
  · subst hd
    rw [State.cluster_setCluster_self]
    exact hx
  · rw [State.cluster_setCluster_ne hd]
    exact hsram d

theorem modCluster {f : Cluster → Cluster} {c : ClusterNo} (h : Canonical s) (hf : KeepsSram f := by exact fun _ => ⟨rfl, rfl, rfl⟩) :
    Canonical (s.modCluster c f) := h.setCluster (.of_keeps hf (h.sram c))

/-- States with the same memories. -/
theorem same (h : Canonical s) (hmem : t.mem = s.mem := by rfl) (hmod : t.mod = s.mod := by rfl)
    (hclusters : t.clusters = s.clusters := by rfl) : Canonical t := by
  obtain ⟨wmem, wupdate, wsram⟩ := h
  refine ⟨by rw [hmem]; exact wmem, by rw [hmod]; exact wupdate, ?_⟩
  unfold State.cluster
  rw [hclusters]
  exact wsram

theorem setMod {m : ModuleSt} (h : Canonical s) (hm : m.update = s.mod.update := by rfl) : Canonical (s.setMod m) := by
  obtain ⟨hmem, hupdate, hsram⟩ := h
  exact ⟨hmem, by rw [← hm] at hupdate; exact hupdate, hsram⟩

section
variable (h : Canonical s)
include h

theorem setUnit {i : Uid} {u : UnitSt} : Canonical (s.setUnit i u) := h
theorem modUnit {i : Uid} {f : UnitSt → UnitSt} : Canonical (s.modUnit i f) := h
theorem setIssue {x : Issue} : Canonical (s.setIssue x) := h
theorem modDie {d : DieNo} {f : Die → Die} : Canonical (s.modDie d f) := h
theorem modSync {d : DieNo} {f : SyncEngine → SyncEngine} : Canonical (s.modSync d f) := h
theorem modHub {f : Hub → Hub} : Canonical (s.modHub f) := h
theorem modWalk {f : Walker → Walker} : Canonical (s.modWalk f) := h
theorem modDir {f : Directory → Directory} : Canonical (s.modDir f) := h
theorem modCtx {a : BitVec 16} {f : Context → Context} : Canonical (s.modCtx a f) := h
theorem modLaunch {l : Nat} {f : Launch → Launch} : Canonical (s.modLaunch l f) := h
theorem modBuf {b : Nat} {f : TvBuf → TvBuf} : Canonical (s.modBuf b f) := h
theorem newReq : Canonical s.newReq.2 := h
theorem freeWord : Canonical s.freeWord.2 := h
theorem modArray {c : ClusterNo} {f : ArraySt → ArraySt} : Canonical (s.modArray c f) := h.modCluster
theorem modEngine {c : ClusterNo} {e : BitVec 1} {f : CopyEngine → CopyEngine} : Canonical (s.modEngine c e f) := h.modCluster

end

/-! ### Functions put together -/

theorem fst_of {α : Type} {x : State × α} {a : α} (h : Canonical x.1) (e : x = (t, a)) : Canonical t := by
  rw [e] at h
  exact h

theorem snd_of {α : Type} {x : α × State} {a : α} (h : Canonical x.2) (e : x = (a, t)) : Canonical t := by
  rw [e] at h
  exact h

theorem ite {c : Prop} [Decidable c] (hs : Canonical s) (ht : Canonical t) : Canonical (if c then s else t) := by
  split
  · exact hs
  · exact ht

theorem foldl {α : Type} {f : State → α → State} {l : List α} (h : Canonical s) (hf : ∀ {t x}, Canonical t → Canonical (f t x)) :
    Canonical (l.foldl f s) := by
  induction l generalizing s with
  | nil => exact h
  | cons x l ih => exact ih (hf h)

/-- A fold that carries more than the state. -/
theorem foldl_of {α β : Type} {state : β → State} {f : β → α → β} {l : List α} {x : β} (h : Canonical (state x))
    (hf : ∀ {y a}, Canonical (state y) → Canonical (state (f y a))) : Canonical (state (l.foldl f x)) := by
  induction l generalizing x with
  | nil => exact h
  | cons a l ih => exact ih (hf h)

/-- A fold that may end in an error. -/
theorem foldlM_of {α β ε : Type} {state : β → State} {f : β → α → Except ε β} {l : List α} {x y : β}
    (h : Canonical (state x)) (hf : ∀ {y a z}, Canonical (state y) → f y a = .ok z → Canonical (state z))
    (e : l.foldlM f x = .ok y) : Canonical (state y) := by
  induction l generalizing x with
  | nil =>
    rw [← Except.ok.inj e]
    exact h
  | cons a l ih =>
    rw [List.foldlM_cons] at e
    cases hx : f x a with
    | error b =>
      rw [hx] at e
      cases e
    | ok z =>
      rw [hx] at e
      exact ih (hf h hx) e

theorem foldlM {α ε : Type} {f : State → α → Except ε State} {l : List α} (h : Canonical s)
    (hf : ∀ {t x t'}, Canonical t → f t x = .ok t' → Canonical t') (e : l.foldlM f s = .ok t) : Canonical t :=
  foldlM_of (state := fun x => x) h hf e

theorem getD {o : Option State} (h : Canonical s) (ho : ∀ {t}, o = some t → Canonical t) : Canonical (o.getD s) := by
  cases o with
  | none => exact h
  | some t => exact ho rfl

end Canonical

/-- A choice between results, one by one. -/
theorem of_some_ite {α : Type} {c : Prop} [Decidable c] {p : α → Prop} {x y : α} {o : Option α}
    (e : (if c then some x else o) = some y) (hx : p x) (ho : o = some y → p y) : p y := by
  split at e
  · exact Option.some.inj e ▸ hx
  · exact ho e

/-- The same where the result rests on the condition. -/
theorem of_some_dite {α : Type} {c : Prop} [Decidable c] {p : α → Prop} {x : c → α} {y : α} {o : Option α}
    (e : (if hc : c then some (x hc) else o) = some y) (hx : ∀ hc, p (x hc)) (ho : o = some y → p y) : p y := by
  split at e
  · exact Option.some.inj e ▸ hx _
  · exact ho e

/-- What a mapped result comes from. -/
theorem exists_of_map_ok {α β ε : Type} {f : α → β} {r : Except ε α} {y : β} (e : r.map f = .ok y) :
    ∃ x, r = .ok x ∧ f x = y := by
  cases r with
  | error b => cases e
  | ok x => exact ⟨x, rfl, Except.ok.inj e⟩

/-! ### Outcomes -/

/-- An outcome whose next state has its memories in canonical form. -/
def Kept : Host.Outcome State Fault Refusal → Prop
  | .next t => Canonical t
  | .fault _ | .refused _ => True

namespace Kept

theorem next (h : Canonical s) : Kept (.next s) := h
theorem next_of {o : Host.Outcome State Fault Refusal} (ho : Kept o) (e : o = .next t) : Canonical t := by
  rw [e] at ho
  exact ho

theorem fault {r : Fault} : Kept (.fault r) := trivial

theorem ite {c : Prop} [Decidable c] {o o' : Host.Outcome State Fault Refusal} (ho : Kept o)
    (ho' : Kept o') : Kept (if c then o else o') := by
  split
  · exact ho
  · exact ho'

end Kept

/-- An outcome whose value, where there is one, has the property. -/
def Gives {α : Type} (p : α → Prop) : Host.Outcome α Fault Refusal → Prop
  | .next x => p x
  | .fault _ | .refused _ => True

theorem Gives.next {α : Type} {p : α → Prop} {x : α} (hx : p x) : Gives p (.next x) := hx

theorem Gives.next_of {α : Type} {p : α → Prop} {o : Host.Outcome α Fault Refusal} {x : α} (ho : Gives p o)
    (e : o = .next x) : p x := by
  rw [e] at ho
  exact ho

theorem Gives.ite {α : Type} {p : α → Prop} {c : Prop} [Decidable c] {o o' : Host.Outcome α Fault Refusal} (ho : Gives p o)
    (ho' : Gives p o') : Gives p (if c then o else o') := by
  split
  · exact ho
  · exact ho'

/-- What the slots of a bundle leave, its memories in canonical form. -/
def CanonicalFolded : Folded → Prop
  | .all s | .stopped s .. => Canonical s

/-- How the issue of a bundle went, with the memories in canonical form. -/
def CanonicalTried : Tried → Prop
  | .issued s | .frozen s | .waits s _ | .holds s _ | .stands s => Canonical s
  | .lastWait => True

/-- How a part of a copy command went, with the memories of the machine in canonical form. -/
def KeptEng {α : Type} : EngR α → Prop
  | .ok x _ | .stop x _ _ => Canonical x.s
  | .again .. | .held _ => True

theorem KeptEng.bind {α β : Type} {r : EngR α} {f : EngSt → α → EngR β} (hr : KeptEng r)
    (hf : ∀ {x a}, Canonical x.s → KeptEng (f x a)) : KeptEng (r.bind f) := by
  cases r with
  | ok x a => exact hf hr
  | stop => exact hr
  | again => exact trivial
  | held => exact trivial

end Sys2Proof.Safety
end

section
/-! PROOFS.
The slots of a bundle, a completed unit, the caches, the directory's regions and translation keep the canonical form of every
memory (O7). -/

-- One proof at a time: the check of the whole text has a limit on memory, which many threads would reach.
set_option Elab.async false

namespace Sys2Proof.Safety

open Sys2Proof.Machine

/-! ### Slots -/

namespace Canonical

variable {s : State} (h : Canonical s)
include h

theorem schedule {uid u d v lat flags} : Canonical (Machine.schedule s uid u d v lat flags) := h

theorem schedScalar {uid u r v lat} : Canonical (Machine.schedScalar s uid u r v lat) := h.schedule

theorem schedPred {uid u i v lat} : Canonical (Machine.schedPred s uid u i v lat) := h.schedule

theorem rebuildOrder {c} : Canonical (Machine.rebuildOrder s c) := by
  unfold Machine.rebuildOrder
  dsimp only
  split
  · exact h.setCluster
  · split
    · exact h.setCluster
    · exact Canonical.ite h.setCluster h.setCluster

theorem endSegment {uid c} : Canonical (Machine.endSegment s uid c) := h.modWalk.modCluster.ite h

theorem activate {c} : Canonical (Machine.activate s c) := h.ite h

theorem startPrompter {k slot c serves} : Canonical (Machine.startPrompter s k slot c serves) := h

theorem recordEvent {uid kind tag v fault} : Canonical (Machine.recordEvent s uid kind tag v fault) := by
  unfold Machine.recordEvent
  split
  · exact h
  · exact h

theorem placeFrozen {uid u} : Canonical (Machine.placeFrozen s uid u) := by
  unfold Machine.placeFrozen
  dsimp only
  split
  · exact h
  · refine Canonical.ite h (Canonical.ite h ?_)
    split
    · exact h.modUnit.startPrompter
    · exact h

theorem freeze {uid r} : Canonical (Machine.freeze s uid r) := by
  unfold Machine.freeze
  split
  · exact h
  · extract_lets recorded seq u frozen counted ended placed
    have hrecorded : Canonical recorded := h.recordEvent.ite (h.recordEvent.ite h)
    have hended : Canonical ended := hrecorded.setUnit.modCtx.endSegment
    have hplaced : Canonical placed := hended.modUnit.ite hended.placeFrozen
    exact hplaced.rebuildOrder

theorem freezeAtIssue {code addr} : Canonical (Machine.freezeAtIssue s code addr) := by
  unfold Machine.freezeAtIssue
  split
  · exact h
  · exact h.freeze

theorem noteFault {uid r} : Canonical (Machine.noteFault s uid r) := h

theorem noteResult {r} : Canonical (Machine.noteResult s r) := h

theorem runSlot {chk eff} (heff : ∀ {t u}, Canonical t → Canonical (eff t u)) : Kept (Machine.runSlot s chk eff) := by
  unfold Machine.runSlot
  split
  · exact Kept.fault
  · split
    · exact Kept.next (heff h).noteResult
    · exact Kept.next h.freezeAtIssue.noteResult
    · exact Kept.next h.noteResult
    · exact Kept.next h.noteResult

theorem runSlotW {chk onWait eff} (hwait : ∀ {t u}, Canonical t → Canonical (onWait t u))
    (heff : ∀ {t u}, Canonical t → Canonical (eff t u)) : Kept (Machine.runSlotW s chk onWait eff) := by
  unfold Machine.runSlotW
  split
  · exact Kept.fault
  · split
    · exact Kept.next (heff h).noteResult
    · exact Kept.next h.freezeAtIssue.noteResult
    · exact Kept.next (hwait h).noteResult
    · exact Kept.next (hwait h).noteResult

end Canonical

/-! ### Completion -/

namespace Canonical

variable {s : State} (h : Canonical s)
include h

theorem dropCap {uid} : Canonical (Machine.dropCap s uid) := h

theorem dropCaps {puid} : Canonical (Machine.dropCaps s puid) := by
  unfold Machine.dropCaps
  split
  · exact h
  · refine h.foldl (fun h6 => ?_)
    split
    · exact h6.dropCap
    · exact h6

theorem waitForPen {a c} : Canonical (Machine.waitForPen s a c) := h

theorem giveSlot {a c slot} : Canonical (Machine.giveSlot s a c slot) := by
  unfold Machine.giveSlot
  split
  · exact h
  · refine h.waitForPen.ite ?_
    split
    · exact h.startPrompter
    · split
      · split
        · exact h.modUnit.startPrompter
        · exact h
      · exact h

theorem freePrompter {puid p slot} : Canonical (Machine.freePrompter s puid p slot) := h.dropCaps.modCtx.giveSlot

theorem launchUnitDone {l} : Canonical (Machine.launchUnitDone s l) := h

theorem completeUnit {uid e} : Canonical (Machine.completeUnit s uid e) := by
  unfold Machine.completeUnit
  split
  · exact h
  · extract_lets c parted ended unordered left counted freed
    have hleft : Canonical left := Canonical.foldl (f := fun s d => s.modSync d _) h.endSegment.setUnit.modCluster fun ht => ht.modSync
    have hcounted : Canonical counted := by
      dsimp only [counted]
      split
      · exact hleft.launchUnitDone
      · exact hleft
    have hfreed : Canonical freed := by
      dsimp only [freed]
      split
      · exact hcounted.freePrompter
      · exact hcounted
    exact hfreed.rebuildOrder

end Canonical

/-! ### Caches and slices -/

namespace Canonical

variable {s : State} (h : Canonical s)
include h

theorem writeMemLine {line data key} : Canonical (Machine.writeMemLine s line data key) :=
  (DeviceStep.writeMemLine_deviceOnly ..).canonical h (writeMemLine_wf line data key h.1)

theorem modRegion {line f} : Canonical (Machine.modRegion s line f) := h

theorem countRegion {line k} : Canonical (Machine.countRegion s line k) := h.modRegion

theorem countDie {die k} : Canonical (Machine.countDie s die k) := h

theorem countEvent {line dies k} : Canonical (Machine.countEvent s line dies k) := h.countRegion.foldl (fun h1 => h1.countDie)

theorem sendMsg {m} : Canonical (Machine.sendMsg s m) := h

theorem evict {d v} : Canonical (Machine.evict d s v) := h.modDie.sendMsg

theorem makeRoom {d line} : Canonical (Machine.makeRoom s d line) := h.foldl (fun h1 => h1.evict)

theorem setSliceLine {d l} : Canonical (Machine.setSliceLine s d l) := h

theorem dropSliceLine {d line} : Canonical (Machine.dropSliceLine s d line) := h

theorem keepLine {d l x} (e : Machine.keepLine s d l = some x) : Canonical x.1 := by
  unfold Machine.keepLine at e
  dsimp only at e
  split at e
  · split at e
    · rw [← Option.some.inj e]
      exact h.modDir
    · exact absurd e (Option.some_ne_none x).symm
  · exact absurd e (Option.some_ne_none x).symm

theorem keptLine {d l} : Canonical ((Machine.keepLine s d l).getD (s, l)).1 := by
  cases e : Machine.keepLine s d l with
  | none => exact h
  | some x => exact h.keepLine e

theorem takeCopy {line asker n} : Canonical (Machine.takeCopy s line asker n) := by
  unfold Machine.takeCopy
  dsimp only
  split
  · exact h
  · exact Canonical.ite (Canonical.ite h.modDie.setSliceLine h.modDie.setSliceLine.sendMsg) (Canonical.ite h h.modDie.dropSliceLine)

theorem collapseFor {line asker} : Canonical (Machine.collapseFor s line asker) := by
  unfold Machine.collapseFor
  extract_lets v replicas notes counted dropped undirected taken unmarked
  have hcounted : Canonical counted := h.ite h.countEvent
  have hundirected : Canonical undirected := Canonical.foldl (f := fun s d => s.modDie d _) hcounted.modDir fun ht => ht.modDie
  have htaken : Canonical unmarked := Canonical.modRegion (hundirected.foldl fun ht => ht.takeCopy)
  clear_value v unmarked
  split
  · exact htaken.same.writeMemLine
  · exact htaken

theorem collapseLine {line} : Canonical (Machine.collapseLine s line) := h.collapseFor

theorem underKey {line key} : Canonical (Machine.underKey s line key) := by
  unfold Machine.underKey
  split
  · exact h.collapseLine.ite h
  · exact h

theorem deviceWrite {pa bs key} : Canonical (Machine.deviceWrite s pa bs key) := DeviceStep.deviceWrite_canonical h pa bs key

theorem mergeIntoSlice {d line data dirty key floor ceil} : Canonical (Machine.mergeIntoSlice s d line data dirty key floor ceil) := by
  unfold Machine.mergeIntoSlice
  dsimp only
  split
  · next l0 _ =>
    have hkept : Canonical ((Machine.keepLine (Machine.underKey s line key) d l0).getD (Machine.underKey s line key, l0)).1 :=
      h.underKey.keptLine
    split
    · exact hkept.setSliceLine
    · exact hkept.setSliceLine
    · exact hkept.setSliceLine.sendMsg
    · exact hkept.setSliceLine.sendMsg
    · exact hkept.setSliceLine
    · exact hkept.setSliceLine
    · exact hkept.setSliceLine
    · exact hkept.setSliceLine.sendMsg
    · exact hkept.setSliceLine.sendMsg
  · exact h.underKey.makeRoom.setSliceLine.sendMsg

theorem dropCached {c v} : Canonical (Machine.dropCached s c v) := h.modCluster.ite h.modCluster.mergeIntoSlice

theorem cacheRoom {c} : Canonical (Machine.cacheRoom s c) := by
  unfold Machine.cacheRoom
  dsimp only
  refine h.ite ?_
  split
  · exact h.dropCached
  · exact h

theorem readMiss {d line key floor ceil prefetch} : Canonical (Machine.readMiss s d line key floor ceil prefetch) := by
  unfold Machine.readMiss
  dsimp only
  split
  · exact h.underKey.setSliceLine.sendMsg.ite h.underKey
  · exact h.underKey.makeRoom.setSliceLine.sendMsg

theorem fillCache {c line key floor ceil} : Canonical (Machine.fillCache s c line key floor ceil) := by
  unfold Machine.fillCache
  dsimp only
  split
  · exact h.ite (h.dropCached.readMiss.ite h.dropCached).cacheRoom.modCluster
  · exact (h.readMiss.ite h).cacheRoom.modCluster

theorem cacheStore {c pa bs key floor ceil} : Canonical (Machine.cacheStore s c pa bs key floor ceil) := h.fillCache.modCluster

theorem flushDie {c} : Canonical (Machine.flushDie s c) := h.modCluster.foldl (fun h1 => h1.mergeIntoSlice)

theorem invalidate {c all} : Canonical (Machine.invalidate s c all) := h.modCluster

theorem startRelease {uid c scope payload} : Canonical (Machine.startRelease s uid c scope payload) := (h.flushDie.ite h).same.modCluster

theorem acquireAt {uid c scope} : Canonical (Machine.acquireAt s uid c scope) := h.modCluster.ite h.invalidate

end Canonical

/-! ### Regions and the directory's requests -/

namespace Canonical

variable {s : State} (h : Canonical s)
include h

theorem setEntry {e} : Canonical (Machine.setEntry s e) := h

theorem modEntry {line f} : Canonical (Machine.modEntry s line f) := h.setEntry

theorem sendLine {k d line v key} : Canonical (Machine.sendLine s k d line v key) := h.sendMsg

theorem popMsg {m} : Canonical (Machine.popMsg s m) := h

theorem wakeLink {d} : Canonical (Machine.wakeLink s d) := h

theorem deliver {k d line down f} (hf : ∀ {t m}, Canonical t → Canonical (f t m)) : Canonical (Machine.deliver s k d line down f) := by
  unfold Machine.deliver
  split
  · exact hf h.popMsg
  · exact h.wakeLink.ite h

theorem setDegree {line r d} : Canonical (Machine.setDegree s line r d) := by
  unfold Machine.setDegree
  split
  · exact h.ite h.modRegion.countEvent
  · exact h

theorem applyHints {line r floor ceil} : Canonical (Machine.applyHints s line r floor ceil) := by
  unfold Machine.applyHints
  dsimp only
  split
  · refine (?_ : Canonical _).modRegion.setDegree
    split
    · exact h
    · exact h
  · refine (?_ : Canonical _).modRegion
    split
    · exact h
    · exact h

theorem countQuiet {line} : Canonical (Machine.countQuiet s line) := h.modRegion

theorem raiseDegree {line r} : Canonical (Machine.raiseDegree s line r) := by
  unfold Machine.raiseDegree
  dsimp only
  split
  · exact h.modRegion.setDegree.ite h.modRegion
  · exact h.modRegion

theorem writeRegion {line r gone} : Canonical (Machine.writeRegion s line r gone) := by
  unfold Machine.writeRegion
  dsimp only
  split
  · exact h.modRegion.ite h.modRegion.setDegree
  · exact h.modRegion

theorem countHot {line r unfilled} : Canonical (Machine.countHot s line r unfilled) := h

theorem sendPushes {e} : Canonical (Machine.sendPushes s e) := h.foldl (fun h1 => h1.sendLine.countEvent)

theorem pushHot {line} : Canonical (Machine.pushHot s line) := by
  unfold Machine.pushHot
  dsimp only
  split
  · exact h
  · refine h.ite ?_
    split
    · exact h
    · refine (?_ : Canonical _).foldl (fun h15 => h15.sendMsg)
      split
      · exact h.setEntry.sendMsg
      · exact h.setEntry.sendPushes

theorem grantWrite {e q upgrade forwarded} : Canonical (Machine.grantWrite s e q upgrade forwarded) :=
  h.writeRegion.setEntry.sendMsg.ite (h.writeRegion.setEntry.ite h.writeRegion.setEntry.sendLine)

theorem answerNF {e q} : Canonical (Machine.answerNF s e q) := h.countEvent.sendLine

theorem handleGetS {e q} : Canonical (Machine.handleGetS s e q) := by
  unfold Machine.handleGetS
  extract_lets remote raised keep counted
  have hraised : Canonical raised := h.raiseDegree.ite h
  have hcounted : Canonical counted := hraised.countHot.ite hraised
  split
  · exact hcounted.setEntry.modDir
  · refine Canonical.ite ?_ hcounted.answerNF
    exact (hcounted.countEvent.ite hcounted).setEntry.sendLine
  · split
    · exact (hcounted.countEvent.ite hcounted).setEntry.sendMsg
    · exact hcounted

theorem handleWrite {e q} : Canonical (Machine.handleWrite s e q) := by
  unfold Machine.handleWrite
  extract_lets cold upgrade others gone counted interfaces foreign invs fwd e' marked asked redirected
  have hcounted : Canonical counted := h.modDir.ite h.modDir.countEvent
  have hredirected : Canonical redirected := (hcounted.setEntry.foldl fun ht => ht.sendMsg).foldl fun ht => ht.sendMsg
  refine hcounted.setEntry.modDir.ite (hcounted.grantWrite.ite ?_)
  clear_value foreign
  split
  · exact hredirected.sendMsg.ite hredirected
  · exact hredirected

theorem trimReplicas {t e q} (ht : Machine.trimReplicas s e q = some t) : Canonical t := by
  unfold Machine.trimReplicas at ht
  extract_lets extra at ht
  split at ht
  · cases ht
  · rw [← Option.some.inj ht]
    exact h.setEntry.foldl fun h1 => h1.sendMsg

theorem trimRegion {line} : Canonical (Machine.trimRegion s line) := h.foldl fun h1 => (h1.getD h1.trimReplicas).ite h1.setEntry

theorem applyRequest {line r floor ceil} : Canonical (Machine.applyRequest s line r floor ceil).1 := by
  unfold Machine.applyRequest
  exact h.applyHints.countQuiet.trimRegion.ite h.applyHints.countQuiet

theorem hubRead {pa} : Canonical (Machine.hubRead s pa) := by
  unfold Machine.hubRead
  extract_lets line x e
  have hread : Canonical x.1 := h.applyRequest
  exact hread.ite ((hread.getD hread.trimReplicas).ite hread.setEntry)

end Canonical

/-! ### Translation -/

namespace Canonical

variable {s : State} (h : Canonical s)
include h

theorem modBudget {a i f} : Canonical (Machine.modBudget s a i f) := h

theorem budgetTake {a i key size} : Canonical (Machine.budgetTake s a i key size) := h.modBudget

theorem budgetRefuse {a i key size} : Canonical (Machine.budgetRefuse s a i key size) := h.modBudget

theorem tlbLoad {c e} : Canonical (Machine.tlbLoad s c e) := (h.modDie.ite (h.modDie.foldl (fun h1 => h1.modCluster.ite h1))).modCluster

theorem tlbTouch {c e} : Canonical (Machine.tlbTouch s c e) := h.ite h.modCluster

theorem touchDie {a d} : Canonical (Machine.touchDie s a d) := h

theorem requestWalk {c a va write} : Canonical (Machine.requestWalk s c a va write) :=
  h.ite (h.budgetTake.newReq.modWalk.ite h.budgetRefuse)

theorem walkFails {id code} : Canonical (Machine.walkFails s id code) := h

theorem setAccDirty {addr p write} : Canonical (Machine.setAccDirty s addr p write) := h.ite h.deviceWrite

theorem tdirAdd {e d} : Canonical (Machine.tdirAdd s e d) := h

theorem completeWalk {id} : Canonical (Machine.completeWalk s id) := by
  unfold Machine.completeWalk
  split
  · exact h
  · split
    · exact h.walkFails
    · extract_lets start
      split
      · exact (h.foldl fun ht => ht.hubRead).walkFails
      · extract_lets walked cached marked en dies touched loaded
        have hcached : Canonical cached := (h.foldl fun ht => ht.hubRead).modWalk
        have htouched : Canonical touched := hcached.setAccDirty.foldl fun ht => ht.touchDie
        exact hcached.walkFails.ite (hcached.modWalk.ite (htouched.walkFails.ite htouched.tlbLoad.tdirAdd.modWalk))

end Canonical

end Sys2Proof.Safety
end

section
/-! PROOFS.
Control, vector slots, tiles and the stream array keep the canonical form of every memory (O7). -/

-- One proof at a time: the check of the whole text has a limit on memory, which many threads would reach.
set_option Elab.async false

namespace Sys2Proof.Safety

open Sys2Proof.Machine

/-! ### Transfers, loops and halting -/

namespace Canonical

variable {s : State} (h : Canonical s)
include h

theorem transferTo {u target taken brn call} : Canonical (Machine.transferTo s u target taken brn call) := h.setIssue.schedScalar.ite h

theorem relTransfer {brn call p i d} : Kept (Machine.relTransfer brn call p i d s) := h.runSlot (fun h1 => h1.transferTo)

theorem regTransfer {call p i t} : Kept (Machine.regTransfer call p i t s) := h.runSlot (fun h1 => h1.transferTo)

theorem haltWait {u} : Canonical (Machine.haltWait s u) := h.setUnit.startRelease.ite h

end Canonical

/-! ### Vector slots -/

namespace Canonical

variable {s : State} (h : Canonical s)
include h

theorem noteVector {reads can raised lat} : Canonical (Machine.noteVector s reads can raised lat) := h

theorem vectorSlot {misuse reads dest lat can f} : Kept (Machine.vectorSlot misuse reads dest lat can f s) := by
  unfold Machine.vectorSlot
  exact h.runSlot (fun h1 => h1.noteVector.schedule)

theorem fpSlot {wide useB useD lat can op d a b} : Kept (Machine.fpSlot wide useB useD lat can op d a b s) := h.vectorSlot

end Canonical

/-! ### Tiles and rings -/

namespace Canonical

variable {s : State} (h : Canonical s)
include h

theorem levelWrite {c l a bs} : Canonical (Machine.levelWrite s c l a bs) := by
  obtain ⟨htile, hchip, hpin⟩ := h.sram c
  refine h.setCluster ?_
  dsimp only
  split
  · exact ⟨Memory.wf_writeBytes a bs htile, hchip, hpin⟩
  · exact ⟨htile, Memory.wf_writeBytes a bs hchip, hpin⟩
  · exact ⟨htile, hchip, Memory.wf_writeBytes a bs hpin⟩

theorem putHandle {uid x} : Canonical (Machine.putHandle s uid x) := by
  unfold Machine.putHandle
  split
  · exact h
  · split
    · exact h
    · exact Canonical.ite h h

theorem publishClaim {uid h' tail id} : Canonical (Machine.publishClaim s uid h' tail id) := by
  unfold Machine.publishClaim
  split
  · exact h.putHandle
  · exact h

theorem releaseBanks {c} : Canonical (Machine.releaseBanks s c) := h.modCluster.ite h

theorem execVldt {d a k} : Kept (Machine.execVldt d a k s) := by
  unfold Machine.execVldt
  exact h.runSlot (fun h1 => h1.noteVector.schedule)

theorem execVstt {v a k} : Kept (Machine.execVstt v a k s) := by
  unfold Machine.execVstt
  exact h.runSlot (fun h1 => h1.noteVector.levelWrite)

theorem popSlab {u x} : Canonical (Machine.popSlab s u x).2 := h.same.putHandle

theorem execVqrd {d n} : Kept (Machine.execVqrd d n s) := by
  unfold Machine.execVqrd
  dsimp only
  refine h.runSlot (fun h1 => ?_)
  split
  · exact h1
  · split
    · exact h1.noteVector.popSlab.schedule
    · exact h1.noteVector.popSlab

theorem execVpop {d h'} : Kept (Machine.execVpop d h' s) := by
  unfold Machine.execVpop
  dsimp only
  refine h.runSlot (fun h1 => ?_)
  split
  · exact h1
  · split
    · exact h1.noteVector.popSlab.schedule
    · exact h1.noteVector.popSlab

theorem execVpush {v x} : Kept (Machine.execVpush v x s) := by
  unfold Machine.execVpush
  extract_lets o
  refine h.runSlot fun ht => ?_
  split
  · exact ht
  · exact ht.noteVector.levelWrite.newReq.putHandle

end Canonical

/-! ### The array and its queue -/

namespace Canonical

variable {s : State} (h : Canonical s)
include h

theorem makeClaims {c id} : Canonical (Machine.makeClaims s c id).1 := by
  unfold Machine.makeClaims
  split
  · exact h
  · exact h

theorem undefSlabs {uid h' pos n} : Canonical (Machine.undefSlabs s uid h' pos n) := by
  unfold Machine.undefSlabs
  split
  · exact h
  · exact h.foldl (fun h7 => h7.same.levelWrite)

theorem dropClaims {c done} : Canonical (Machine.dropClaims s c done) := by
  unfold Machine.dropClaims
  extract_lets published
  have hpublished : Canonical published := h.ite h.publishClaim
  exact (hpublished.ite hpublished.undefSlabs.publishClaim).ite h

theorem publishOne {c h' tail} : Canonical (Machine.publishOne s c h' tail) := by
  unfold Machine.publishOne
  split
  · exact h.putHandle
  · exact h

theorem chainSend {c m} : Canonical (Machine.chainSend s c m) := by
  unfold Machine.chainSend
  split
  · exact h.modArray.activate
  · exact h

theorem endStream {c st cause} : Canonical (Machine.endStream s c st cause) := by
  unfold Machine.endStream
  extract_lets a
  split
  · exact h
  · extract_lets dropped
    have hdropped : Canonical dropped := h.modArray.dropClaims.ite h.modArray
    exact hdropped.chainSend.ite hdropped

theorem discardQueue {c} : Canonical (Machine.discardQueue s c) := h.modArray.foldl (fun h1 => h1.dropClaims)

theorem curtainArray {uid c} : Canonical (Machine.curtainArray s uid c) := by
  unfold Machine.curtainArray
  extract_lets a stopped
  have hstopped : Canonical stopped := h.endStream.ite h
  exact hstopped.discardQueue.ite hstopped

theorem payOwed {uid c} : Canonical (Machine.payOwed s uid c) := h.ite (h.modArray.foldl (fun h1 => h1.dropClaims))

theorem killArray {uid c} : Canonical (Machine.killArray s uid c) := by
  unfold Machine.killArray
  extract_lets a paid stopped emptied freed
  have hstopped : Canonical stopped := h.payOwed.endStream.ite h.payOwed
  have hemptied : Canonical emptied := hstopped.discardQueue.foldl fun ht => ht.dropClaims
  have hfreed : Canonical freed := by
    dsimp only [freed]
    split
    · exact hemptied.dropClaims
    · exact hemptied
  exact hfreed.modArray.ite h.payOwed

theorem aclrKill {c} : Canonical (Machine.aclrKill s c).1 := (h.endStream.ite h).discardQueue

theorem acceptArray {cl c} : Canonical (Machine.acceptArray s cl c) := by
  unfold Machine.acceptArray
  split
  next s1 c1 hstart =>
  have h1 : Canonical s1 := by
    split at hstart
    · exact (Prod.mk.inj hstart).1 ▸ h.aclrKill
    · exact (Prod.mk.inj hstart).1 ▸ h
  split
  next id s2 hnew =>
  have h2 : Canonical s2 := h1.newReq.snd_of hnew
  extract_lets ok kt
  split
  next s3 c3 hclaim =>
  have h3 : Canonical s3 := by
    split at hclaim
    · exact h2.makeClaims.fst_of hclaim
    · exact (Prod.mk.inj hclaim).1 ▸ h2
  exact h3.modArray.modUnit

theorem arraySlot {op hdr} : Kept (Machine.arraySlot op hdr s) := by
  unfold Machine.arraySlot
  exact h.runSlot (fun h1 => h1.acceptArray)

theorem cfgSlot {waits f} : Kept (Machine.cfgSlot waits f s) := h.runSlot (fun h1 => h1.modArray)

end Canonical

/-! ### The array at work -/

namespace Canonical

variable {s : State} (h : Canonical s)
include h

theorem awldStart {cl c} : Canonical (Machine.awldStart s cl c) := h.modArray

theorem failLoad {cl e code group} : Canonical (Machine.failLoad s cl e code group) :=
  (h.foldl (fun h1 => h1.publishOne)).modArray.noteFault

theorem loadNext {cl} : Canonical (Machine.loadNext s cl) := by
  unfold Machine.loadNext
  dsimp only
  split
  · exact h
  · refine Canonical.ite ?_ h
    split
    · exact h.modArray
    · exact h.failLoad

theorem loadDue {cl} : Canonical (Machine.loadDue s cl) := by
  unfold Machine.loadDue
  split
  · exact h.foldl (fun h4 => h4.loadNext)
  · exact h

theorem streamStart {cl c} : Canonical (Machine.streamStart s cl c) := h.modArray.publishOne

theorem upstreamShort {cl} : Canonical (Machine.upstreamShort s cl) := by
  unfold Machine.upstreamShort
  dsimp only
  split
  · exact h
  · split
    · split
      · exact h
      · exact h.modArray.ite h
    · exact h

theorem startHead {cl} : Canonical (Machine.startHead s cl) := by
  unfold Machine.startHead
  split
  · exact h
  · next c rest _ =>
    extract_lets ready
    have hclaimed : Canonical (if c.claimed then (s, c) else if ready then Machine.makeClaims s.newReq.2 c s.newReq.1 else (s, c)).1 := by
      split
      · exact h
      · split
        · exact h.newReq.makeClaims
        · exact h
    dsimp only
    generalize (if c.claimed then (s, c) else if ready then Machine.makeClaims s.newReq.2 c s.newReq.1 else (s, c)) = x at hclaimed ⊢
    refine Canonical.ite ?_ hclaimed.modArray
    split
    · exact hclaimed.modArray.awldStart
    · exact hclaimed.modArray.streamStart.upstreamShort
    · exact hclaimed.modArray.modArray.upstreamShort
    · exact hclaimed.modArray.modArray
    · exact hclaimed.modArray.modArray

theorem startAll {cl} : Canonical (Machine.startAll s cl) := h.foldl (fun h1 => h1.startHead)

theorem clearFolt {cl} : Canonical (Machine.clearFolt s cl) := h.modArray.ite h

theorem awldEnd {cl} : Canonical (Machine.awldEnd s cl) := by
  unfold Machine.awldEnd
  dsimp only
  split
  · exact h.loadDue.modArray.dropClaims.ite h.loadDue
  · exact h.loadDue

theorem aclrEnd {cl} : Canonical (Machine.aclrEnd s cl) := by
  unfold Machine.aclrEnd
  split
  · exact h.modArray.ite h
  · exact h

theorem orFlags {uid f} : Canonical (Machine.orFlags s uid f) := h

theorem writeSlab {c pos bs} : Canonical (Machine.writeSlab s c pos bs) := by
  unfold Machine.writeSlab
  split
  · exact h.levelWrite
  · exact h

theorem takeConv {t cl emission k} (e : Machine.takeConv s cl emission = some (k, t)) : Canonical t := by
  obtain ⟨_, _, hkt⟩ := Option.map_eq_some_iff.mp e
  rw [← (Prod.mk.inj hkt).2]
  exact h.modArray

theorem aoutEnd {cl} : Canonical (Machine.aoutEnd s cl) := by
  unfold Machine.aoutEnd
  split
  · exact h
  · next hk =>
    exact (h.takeConv hk).dropClaims.noteFault.ite (h.takeConv hk).writeSlab.publishClaim.orFlags

theorem emitEnd {cl} : Canonical (Machine.emitEnd s cl) := by
  unfold Machine.emitEnd
  split
  · exact h
  · next hk => exact (h.takeConv hk).writeSlab.publishOne.modArray.orFlags

theorem faultStream {cl code addr} : Canonical (Machine.faultStream s cl code addr) := by
  unfold Machine.faultStream
  split
  · exact h
  · exact h.endStream.noteFault

theorem targetReached {cl x t} : Canonical (Machine.targetReached s cl x t) :=
  (h.faultStream.ite h.modArray).ite (h.modArray.chainSend.ite h.modArray)

theorem copyCheckpoint {cl} : Canonical (Machine.copyCheckpoint s cl) := by
  unfold Machine.copyCheckpoint
  extract_lets a
  split
  · exact h
  · refine Canonical.ite ?_ h
    split
    · extract_lets v set x' copied sent
      have hsent : Canonical sent := h.modArray.chainSend.ite h.modArray
      exact h.faultStream.ite (hsent.targetReached.ite hsent)
    · extract_lets v set copied sent
      have hsent : Canonical sent := h.modArray.chainSend.ite h.modArray
      exact hsent.targetReached.ite hsent

theorem latchNext {cl} : Canonical (Machine.latchNext s cl) := by
  unfold Machine.latchNext
  dsimp only
  split
  · exact h
  · exact h.modArray.publishOne.ite h

theorem arrayPre {cl} : Canonical (Machine.arrayPre s cl) := h.awldEnd.aclrEnd.aoutEnd.emitEnd.clearFolt.startAll.ite h.clearFolt

theorem arrayPost {cl} : Canonical (Machine.arrayPost s cl) := h.startAll.copyCheckpoint.latchNext.clearFolt.modArray.ite h.clearFolt

theorem clearTick {cl} : Canonical (Machine.clearTick s cl) := h.modArray

theorem clearDone {cl} : Canonical (Machine.clearDone s cl) := h.modArray

theorem execChainPartialSums {c} : Kept (Machine.execChainPartialSums c s) := by
  unfold Machine.execChainPartialSums
  dsimp only
  refine Kept.next ?_
  split
  · refine h.ite ?_
    split
    · exact h.modArray.faultStream.ite h.modArray
    · exact h.modArray
  · exact h

theorem execChainEnd {c} : Kept (Machine.execChainEnd c s) := by
  unfold Machine.execChainEnd
  dsimp only
  refine Kept.next ?_
  split
  · refine Canonical.ite ?_ h
    split
    · exact h.modArray.modArray.endStream.ite h.modArray
    · exact h.modArray
  · exact h

theorem execStreamPoison {c row col inSet} : Kept (Machine.execStreamPoison c row col inSet s) := by
  unfold Machine.execStreamPoison
  refine Kept.next ((h.faultStream.modArray.ite h.faultStream).ite ?_)
  split
  · exact h.failLoad.ite h
  · exact h

end Canonical

end Sys2Proof.Safety
end

section
/-! PROOFS.
Synchronisation engines, loads, stores and releases keep the canonical form of every memory (O7). -/

-- One proof at a time: the check of the whole text has a limit on memory, which many threads would reach.
set_option Elab.async false

namespace Sys2Proof.Safety

open Sys2Proof.Machine

/-! ### Synchronisation -/

namespace Canonical

variable {s : State} (h : Canonical s)
include h

theorem walkWait {u va acc} : Canonical (Machine.walkWait s u va acc) := by
  unfold Machine.walkWait
  split
  · exact h.requestWalk
  · exact h

theorem costsTake {a key l} : Canonical (Machine.costsTake s a key l) := h.foldl (fun h1 => h1.budgetTake)

theorem costsRefuse {a key l} : Canonical (Machine.costsRefuse s a key l) := h.foldl (fun h1 => h1.ite h1.budgetRefuse)

theorem roRead {c pa key floor ceil} : Canonical (Machine.roRead s c pa key floor ceil).2.2.2 := by
  unfold Machine.roRead
  dsimp only
  split
  · exact h
  · exact (h.ite h.readMiss).modCluster

omit h in
theorem read_of {x : Word × Bool × Option ℕ × State} {v : Word} {poison : Bool} {arrive : Option ℕ} (h : Canonical x.2.2.2)
    (e : x = (v, poison, arrive, t)) : Canonical t := by
  rw [e] at h
  exact h

theorem readAgain {c r} : Canonical (Machine.readAgain s c r).2.2.2 := by
  unfold Machine.readAgain
  split
  · exact h.roRead
  · exact h.fillCache

theorem rereadEntry {uid c e} : Canonical (Machine.rereadEntry uid c s e) := by
  unfold Machine.rereadEntry
  split
  · exact h
  · exact h.readAgain.modUnit

theorem rereadLoads {uid} : Canonical (Machine.rereadLoads s uid) := by
  unfold Machine.rereadLoads
  split
  · exact h
  · exact h.ite (h.foldl (fun h6 => h6.rereadEntry))

theorem sendSync {c q} : Canonical (Machine.sendSync s c q) := h.same.modCluster.ite h

theorem issueSync {u q entry release} : Canonical (Machine.issueSync s u q entry release) := by
  unfold Machine.issueSync
  dsimp only
  refine Canonical.ite (?_ : Canonical _).startRelease (?_ : Canonical _).sendSync
  · split
    · exact h
    · exact h
  · split
    · exact h
    · exact h

theorem syncWait {va acc ops u} : Canonical (Machine.syncWait va acc ops s u) := by
  unfold Machine.syncWait
  split
  · exact h.costsRefuse
  · exact h.walkWait

theorem atomicSlot {op5 d a b c o w cmp signed} : Kept (Machine.atomicSlot op5 d a b c o w cmp signed s) := by
  unfold Machine.atomicSlot
  exact h.runSlotW (fun h1 => h1.syncWait) (fun h2 => h2.costsTake.same.issueSync)

theorem execAred {n a b c o w} : Kept (Machine.execAred n a b c o w s) := by
  unfold Machine.execAred
  exact h.runSlotW (fun h1 => h1.syncWait) (fun h2 => h2.costsTake.same.issueSync)

theorem arriveSlot {join d a c o} : Kept (Machine.arriveSlot join d a c o s) :=
  h.runSlotW (fun h1 => h1.syncWait) (fun h2 => h2.costsTake.same.issueSync)

theorem execBarwait {d a b c o} : Kept (Machine.execBarwait d a b c o s) := by
  unfold Machine.execBarwait
  refine h.runSlotW (fun h1 => h1.ite (h1.costsTake.same.setUnit.issueSync.ite h1.syncWait)) (fun h2 => ?_)
  split
  · exact h2.schedScalar
  · exact h2

theorem acquireReads {uid c scope} : Canonical (Machine.acquireReads s uid c scope) := h.modCluster.foldl (fun h1 => h1)

theorem execFence {c o} : Kept (Machine.execFence c o s) := by
  refine h.runSlotW (fun ht => ht) fun ht => ?_
  extract_lets k released acquired
  have hreleased : Canonical released := ht.startRelease.ite ht
  have hacquired : Canonical acquired := hreleased.acquireReads.ite hreleased
  exact hacquired.acquireAt.ite hacquired

theorem engineWrite {pa n v key} : Canonical (Machine.engineWrite s pa n v key) := h.deviceWrite

theorem writeBarrier {q b} : Canonical (Machine.writeBarrier s q b) := h.engineWrite

theorem ringAppend {k i e} : Canonical (Machine.ringAppend s k i e) := by
  unfold Machine.ringAppend
  split
  · exact h
  · exact h.ite h.deviceWrite.deviceWrite

theorem logFor {k d q va code} : Canonical (Machine.logFor s k d q va code) :=
  Canonical.ite (Canonical.ite h.modSync.modCtx.ringAppend h) h

theorem logSync {d q va code} : Canonical (Machine.logSync s d q va code) := by
  unfold Machine.logSync
  split
  · exact h
  · exact h.logFor

theorem stopStray {a} : Canonical (Machine.stopStray s a) := h.ite h.modCtx.setMod

theorem touchLine {d pa} : Canonical (Machine.touchLine s d pa) := (h.foldl fun ht => ht.hubRead).modSync

theorem doAtomic {d q op} : Canonical (Machine.doAtomic s d q op).2 := by
  unfold Machine.doAtomic
  split
  · exact h
  · split
    · exact h
    · exact h.engineWrite

theorem answerWaiters {d pa b done} : Canonical (Machine.answerWaiters s d pa b done) := h.ite h

theorem setMember {d uid va pa arrived} : Canonical (Machine.setMember s d uid va pa arrived) := h.ite h

theorem unjoin {d uid pa} : Canonical (Machine.unjoin s d uid pa) := h.ite h

theorem arrive {d q member wait} : Canonical (Machine.arrive s d q member wait).2 := by
  unfold Machine.arrive
  extract_lets pa b mine r written joined waiting
  have hwritten : Canonical written := h.writeBarrier
  have hjoined : Canonical joined := hwritten.setMember.ite hwritten
  have hwaiting : Canonical waiting := hjoined.modSync.ite hjoined
  split
  · exact h.unjoin
  · split
    · exact h.unjoin
    · split
      · exact h
      · exact hwaiting.answerWaiters

theorem waitPhase {d q token baraw} : Canonical (Machine.waitPhase s d q token baraw).2 := by
  unfold Machine.waitPhase
  dsimp only
  split
  · exact h
  · split
    · exact h
    · split
      · exact h.modSync
      · exact h

theorem barInit {d q} : Canonical (Machine.barInit s d q).2 := by
  unfold Machine.barInit
  dsimp only
  split
  · exact h
  · split
    · exact h
    · exact h.writeBarrier

theorem barJoin {d q} : Canonical (Machine.barJoin s d q).2 := by
  unfold Machine.barJoin
  dsimp only
  split
  · exact h.unjoin
  · split
    · exact h.unjoin
    · exact h.setMember

theorem lostArrive {d q} : Canonical (Machine.lostArrive s d q).2 := by
  unfold Machine.lostArrive
  dsimp only
  split
  · exact h
  · split
    · exact h
    · exact h.writeBarrier.answerWaiters

theorem performSync {d q} : Canonical (Machine.performSync s d q).2 := by
  unfold Machine.performSync
  dsimp only
  split
  · split
    · exact h.doAtomic
    · split
      · exact h.barInit
      · split
        · split
          · exact h.barJoin
          · exact h.arrive
        · split
          · exact h.waitPhase
          · split
            · exact h.arrive
            · split
              · split
                · exact h.doAtomic
                · exact h.doAtomic
              · exact h
  · split
    · exact h
    · split
      · exact h
      · exact h
  · exact h
  · split
    · exact h
    · exact h.engineWrite
  · exact h.lostArrive
  · exact h.arrive
  · exact h.arrive
  · split
    · exact h.waitPhase
    · exact h

theorem yieldElement {d q} : Canonical (Machine.yieldElement s d q) := Canonical.ite h h

theorem execSyncEngineOperation {d} : Kept (Machine.execSyncEngineOperation d s) := by
  unfold Machine.execSyncEngineOperation
  refine Kept.next ?_
  split
  · exact h
  · next q _ =>
    extract_lets drop answer near
    have hdrop {t} (ht : Canonical t) : Canonical (drop t) := ht.modSync
    have hanswer {t r} (ht : Canonical t) : Canonical (answer t r) := ht.modSync
    refine Canonical.ite ?_ ((hanswer (hdrop h)).ite ?_)
    · split
      · exact h.stopStray
      · exact h
    · split
      next o t hperformed =>
      have ht := h.performSync.snd_of hperformed
      extract_lets performed more dropped next yielded
      have hlogged : Canonical performed := ht.logSync.touchLine
      have hdropped : Canonical dropped := hlogged.ite (hdrop hlogged)
      have hyielded : Canonical yielded := hdropped.modSync.yieldElement.ite hdropped
      exact (hanswer hyielded).ite hyielded

theorem replyFault {r} : Canonical (Machine.replyFault s r) := h.modUnit.noteFault

theorem noteCopyFault {cl e uid id r} : Canonical (Machine.noteCopyFault s cl e uid id r) := h

theorem copyReply {r} : Canonical (Machine.copyReply s r) := by
  unfold Machine.copyReply
  dsimp only
  split
  · split
    · exact h.modEngine.ite h.modEngine.noteCopyFault
    · exact h.modEngine
  · exact h

theorem deliverReply {r} : Canonical (Machine.deliverReply s r) := by
  unfold Machine.deliverReply
  refine h.copyReply.ite (h.ite ?_)
  split
  · exact h
  · extract_lets answered
    have hanswered : Canonical answered := h.modUnit.ite (h.ite (h.modUnit.ite h.modUnit))
    exact h.ite (h.replyFault.ite (hanswered.acquireAt.rereadLoads.ite hanswered))

theorem execSyncReply {d} : Kept (Machine.execSyncReply d s) := by
  unfold Machine.execSyncReply
  refine Kept.next ?_
  split
  · exact h
  · exact h.ite h.modSync.deliverReply

theorem execRetryReceived {d} : Kept (Machine.execRetryReceived d s) := by
  unfold Machine.execRetryReceived
  dsimp only
  refine Kept.next ?_
  split
  · exact h
  · refine h.ite ?_
    split
    · exact h
    · split
      · exact h.requestWalk
      · exact h.modSync.deliverReply
      · exact h

theorem dropWaiters {ended} : Canonical (Machine.dropWaiters s ended) := h.foldl (fun h1 => h1)

theorem mapRequests {c f} : Canonical (Machine.mapRequests s c f) := h.modCluster.foldl (fun h1 => h1)

theorem endWait {uid} : Canonical (Machine.endWait s uid) := by
  unfold Machine.endWait
  split
  · exact h
  · next u _ =>
    extract_lets unwaited unarrived
    have hunwaited : Canonical unwaited := by
      dsimp only [unwaited]
      split
      · exact h.mapRequests.foldl fun ht => ht.modSync
      · exact h
    have hunarrived : Canonical unarrived := by
      dsimp only [unarrived]
      split
      · exact hunwaited.mapRequests.foldl fun ht => ht.modSync
      · exact hunwaited
    exact hunarrived.dropWaiters.modUnit

theorem leaveWait {uid} : Canonical (Machine.leaveWait s uid) := h.dropWaiters.ite h

theorem renewWait {uid} : Canonical (Machine.renewWait s uid) := by
  unfold Machine.renewWait
  split
  · exact h
  · split
    · exact h
    · exact h.mapRequests.ite h.same.modUnit.sendSync

theorem parkUnit {uid} : Canonical (Machine.parkUnit s uid) := by
  unfold Machine.parkUnit
  split
  · exact h
  · exact h.endWait.modUnit.endSegment

end Canonical

/-! ### Loads and stores -/

namespace Canonical

variable {s : State} (h : Canonical s)
include h

theorem accessWait {va n acc u} : Canonical (Machine.accessWait va n acc s u) := by
  unfold Machine.accessWait
  split
  · exact h.costsRefuse
  · exact h.walkWait

theorem outsideBytes {pa n} : Canonical (Machine.outsideBytes s pa n).2 := h

theorem loadEntry {u d lat va v arrive poison again} : Canonical (Machine.loadEntry s u d lat va v arrive poison again).2 := h

theorem outwardLoad {va pa n e} : Canonical (Machine.outwardLoad s va pa n e).2 := by
  unfold Machine.outwardLoad
  split
  · exact h
  · exact h

theorem loadTo {u va n elems d lat value signed acquire} : Canonical (Machine.loadTo s u va n elems d lat value signed acquire) := by
  unfold Machine.loadTo
  split
  · exact h
  · extract_lets c costed
    have hcosted : Canonical costed := h.costsTake
    split
    · next filled _ _ =>
      have hfilled : Canonical filled := hcosted.fillCache
      split
      next loaded hload =>
      have hloaded := hfilled.loadEntry.snd_of hload
      split
      · exact hloaded.setUnit.acquireAt
      · exact hloaded.setUnit
    · exact hcosted.newReq.issueSync
    · split
      next read hread =>
      have hbytes := hcosted.outwardLoad.snd_of hread
      split
      next loaded hload =>
      have hloaded := hbytes.loadEntry.snd_of hload
      split
      · exact hloaded.setUnit.acquireAt
      · exact hloaded.setUnit

theorem loadSlot {n signed d b w o} : Kept (Machine.loadSlot n signed d b w o s) := by
  unfold Machine.loadSlot
  exact h.runSlotW (fun h1 => h1.accessWait) (fun h2 => h2.loadTo)

theorem execLdacq {d b w c o} : Kept (Machine.execLdacq d b w c o s) := by
  unfold Machine.execLdacq
  exact h.runSlotW (fun h1 => h1.accessWait) (fun h2 => h2.loadTo)

theorem execLdro {d b w o} : Kept (Machine.execLdro d b w o s) := by
  unfold Machine.execLdro
  extract_lets va
  refine h.runSlotW (fun ht => ht.accessWait) fun ht => ?_
  split
  · refine Canonical.ite ?_ ht.loadTo
    extract_lets costed blank
    split
    next hread =>
    have hread := ht.costsTake.roRead.read_of hread
    split
    extract_lets again
    split
    next hload => exact (hread.loadEntry.snd_of hload).setUnit
  · exact ht

theorem undelivered {w} : Canonical (Machine.undelivered s w) := h.noteFault

theorem postWrite {w} : Canonical (Machine.postWrite s w) := h.undelivered.ite h

theorem postOutside {uid pa bs va bundle slot} : Canonical (Machine.postOutside s uid pa bs va bundle slot) := h.postWrite

theorem afterReleases {uid c p} : Canonical (Machine.afterReleases s uid c p) := h.same.modCluster

theorem storeBytes {u va bs elems rel} : Canonical (Machine.storeBytes s u va bs elems rel) := by
  unfold Machine.storeBytes
  dsimp only
  split
  · exact h
  · split
    · exact h.costsTake.startRelease.cacheStore.ite h.costsTake.cacheStore
    · exact h.costsTake.same.issueSync
    · exact h.costsTake.startRelease.ite h.costsTake.afterReleases
    · exact h.costsTake.startRelease.ite (h.costsTake.afterReleases.ite h.costsTake.postWrite)

theorem storeSlot {n d b w o} : Kept (Machine.storeSlot n d b w o s) := by
  unfold Machine.storeSlot
  exact h.runSlotW (fun h1 => h1.accessWait) (fun h2 => h2.storeBytes)

theorem execStrel {d b w c o} : Kept (Machine.execStrel d b w c o s) := by
  unfold Machine.execStrel
  exact h.runSlotW (fun h1 => h1.accessWait) (fun h2 => h2.storeBytes)

theorem execPfl2 {b w o} : Kept (Machine.execPfl2 b w o s) := by
  unfold Machine.execPfl2
  dsimp only
  refine h.runSlotW (fun h1 => h1.walkWait) (fun h2 => ?_)
  split
  · exact (h2.costsTake.ite h2.costsTake.readMiss).ite h2
  · exact h2

theorem execVldg {d a w o} : Kept (Machine.execVldg d a w o s) := by
  unfold Machine.execVldg
  exact h.runSlotW (fun h1 => h1.accessWait) (fun h2 => h2.noteVector.loadTo)

theorem execVstg {v a w o} : Kept (Machine.execVstg v a w o s) := by
  unfold Machine.execVstg
  exact h.runSlotW (fun h1 => h1.accessWait) (fun h2 => h2.noteVector.storeBytes)

theorem poisonArrival {uid e l} : Canonical (Machine.poisonArrival s uid e l) := h.modUnit.noteFault

theorem arriveData {uid req} : Canonical (Machine.arriveData s uid req) := by
  unfold Machine.arriveData
  dsimp only
  split
  · exact h
  · split
    · split
      · exact h.modHub.poisonArrival.ite h
      · exact h
    · split
      · split
        · exact h.modHub.poisonArrival.ite h
        · exact h
      · exact h

theorem execLoadDataArrival {uid req} : Kept (Machine.execLoadDataArrival uid req s) := Kept.next (h.arriveData.ite h)

theorem tickLoads {uid} : Canonical (Machine.tickLoads s uid) := by
  unfold Machine.tickLoads
  split
  · exact h
  · exact h.setUnit.foldl (fun h6 => h6.arriveData)

theorem raiseHold {uid k} : Canonical (Machine.raiseHold s uid k) := h

theorem execHoldLineRaise {uid} : Kept (Machine.execHoldLineRaise uid s) := by
  unfold Machine.execHoldLineRaise
  refine Kept.next ?_
  split
  · exact h.raiseHold.ite h
  · exact h

theorem execPendingWriteVisible {uid n} : Kept (Machine.execPendingWriteVisible uid n s) := by
  unfold Machine.execPendingWriteVisible
  refine Kept.next ?_
  split
  · split
    · exact Canonical.ite h h
    · exact h
  · exact h

end Canonical

end Sys2Proof.Safety
end

section
/-! PROOFS.
Copy engines, transfers and kills keep the canonical form of every memory (O7). -/

-- One proof at a time: the check of the whole text has a limit on memory, which many threads would reach.
set_option Elab.async false

namespace Sys2Proof.Safety

open Sys2Proof.Machine

/-! ### Copy engines -/

namespace Canonical

variable {s : State} (h : Canonical s)
include h

theorem engWalk {cl a va write} : Canonical (Machine.engWalk s cl a va write) := by
  unfold Machine.engWalk
  dsimp only
  split
  · exact h.requestWalk.completeWalk.ite h.requestWalk
  · exact h.requestWalk

theorem dropWalk {cl a va} : Canonical (Machine.dropWalk s cl a va) := h

theorem copyReadElems {t uid u pa va key code i n} (e : Machine.copyReadElems s uid u pa va key code i n = .ok t) : Canonical t := by
  induction n generalizing i s with
  | zero =>
    rw [← Except.ok.inj e]
    exact h
  | succ n ih =>
    unfold Machine.copyReadElems at e
    dsimp only at e
    split at e
    · cases e
    · cases e
    · exact ih h.logSync.touchLine e

theorem copyRead {t c cl pa va key n code} (e : Machine.copyRead s c cl pa va key n code = .ok t) : Canonical t := by
  unfold Machine.copyRead at e
  split at e
  · rw [← Except.ok.inj e]
    exact h
  · split at e
    · cases e
    · exact h.copyReadElems e

omit h in
theorem engTranslate {x : EngSt} {c : CopyCmd} {cl : ClusterNo} {va : Va} {acc : Access} (h : Canonical x.s) :
    KeptEng (Machine.engTranslate x c cl va acc) := by
  unfold Machine.engTranslate
  extract_lets who first t
  clear_value first
  have ht : Canonical t := by
    dsimp only [t]
    split
    · exact h.engWalk
    · exact h
  split
  · exact ht.tlbTouch
  · exact ht.dropWalk
  · exact trivial

omit h in
theorem readChunk {x : EngSt} {c : CopyCmd} {cl : ClusterNo} {va : Va} {n : ℕ} (h : Canonical x.s) :
    KeptEng (Machine.readChunk x c cl va n) := by
  refine KeptEng.bind h.engTranslate fun hx => ?_
  dsimp only
  split
  · exact hx
  · exact hx.outsideBytes (pa := 0)
  · split
    · exact trivial
    · next hread =>
      split
      · exact hx.copyRead hread
      · exact hx.copyRead hread
  · split
    · exact hx.readMiss.ite hx
    · exact hx.readMiss.ite hx

omit h in
theorem readChunks {c : CopyCmd} {cl : ClusterNo} {l : List (Va × ℕ)} {x : EngSt} {acc : List Byte} (h : Canonical x.s) :
    KeptEng (Machine.readChunks c cl l x acc) := by
  induction l generalizing x acc with
  | nil => exact h
  | cons p l ih => exact h.readChunk.bind fun hx => ih hx

theorem cacheFollow {cl line data m} : Canonical (Machine.cacheFollow s cl line data m) := h.modCluster

omit h in
theorem writeChunk {x : EngSt} {c : CopyCmd} {cl : ClusterNo} {va : Va} {bs : List Byte} (h : Canonical x.s) :
    KeptEng (Machine.writeChunk x c cl va bs) := by
  refine KeptEng.bind h.engTranslate fun hx => ?_
  dsimp only
  split
  · exact hx
  · exact hx.cacheFollow.mergeIntoSlice

omit h in
theorem writeChunks {c : CopyCmd} {cl : ClusterNo} {l : List (Va × ℕ)} {bs : List Byte} {x : EngSt} (h : Canonical x.s) :
    KeptEng (Machine.writeChunks c cl l bs x) := by
  induction l generalizing x bs with
  | nil => exact h
  | cons p l ih => exact h.writeChunk.bind fun hx => ih hx

theorem writeHandle {cl x pos off k bs} : Canonical (Machine.writeHandle s cl x pos off k bs) :=
  (h.foldl_of (state := Prod.fst) fun ht => ht.levelWrite).ite h.levelWrite

omit h in
theorem readRow {c : CopyCmd} {cl : ClusterNo} {x : EngSt} {i place : ℕ} (h : Canonical x.s) :
    KeptEng (Machine.readRow c cl x i place) := by
  unfold Machine.readRow
  split
  · exact h.readChunks
  · split
    · exact h
    · exact h

omit h in
theorem writeRow {c : CopyCmd} {cl : ClusterNo} {x : EngSt} {i place : ℕ} {bs : List Byte} (h : Canonical x.s) :
    KeptEng (Machine.writeRow c cl x i place bs) := by
  unfold Machine.writeRow
  split
  · exact h.writeChunks
  · split
    · exact h.writeHandle
    · exact h

omit h in
theorem moveRows {c : CopyCmd} {cl : ClusterNo} {shares : List ℕ} {i n : ℕ} {fl : BitVec 5} {x : EngSt} (h : Canonical x.s) :
    KeptEng (Machine.moveRows c cl shares i n fl x) := by
  induction n generalizing x i fl with
  | zero => exact h
  | succ n ih =>
    unfold Machine.moveRows
    refine h.readRow.bind fun hread => ?_
    split
    · exact hread
    · exact hread.writeRow.bind fun hwritten => ih hwritten

omit h in
theorem readRows {c : CopyCmd} {cl : ClusterNo} {i n : ℕ} {acc : List (List Byte)} {x : EngSt} (h : Canonical x.s) :
    KeptEng (Machine.readRows c cl i n acc x) := by
  induction n generalizing x i acc with
  | zero => exact h
  | succ n ih => exact h.readRow.bind fun hread => ih hread

omit h in
theorem writeRows {c : CopyCmd} {cl : ClusterNo} {i : ℕ} {l : List (List Byte)} {x : EngSt} (h : Canonical x.s) :
    KeptEng (Machine.writeRows c cl i l x) := by
  induction l generalizing x i with
  | nil => exact h
  | cons r l ih => exact h.writeRow.bind fun hwritten => ih hwritten

omit h in
theorem prefetchLines {c : CopyCmd} {cl : ClusterNo} {l : List (Va × ℕ)} {x : EngSt} (h : Canonical x.s) :
    KeptEng (Machine.prefetchLines c cl l x) := by
  induction l generalizing x with
  | nil => exact h
  | cons p l ih =>
    have htranslate := h.engTranslate (c := c) (cl := cl) (va := p.1) (acc := .read)
    unfold Machine.prefetchLines
    split
    · exact trivial
    · exact trivial
    · next hstop =>
      rw [hstop] at htranslate
      exact ih htranslate
    · next hok =>
      rw [hok] at htranslate
      dsimp only
      split
      · exact ih (htranslate.ite htranslate.readMiss)
      · exact ih htranslate

omit h in
theorem moveCommand {c : CopyCmd} {cl : ClusterNo} {x : EngSt} (h : Canonical x.s) : KeptEng (Machine.moveCommand c cl x) := by
  unfold Machine.moveCommand
  split
  · exact h.prefetchLines.bind fun hx => hx
  · exact h.readRows.bind fun hread => hread.writeRows.bind fun hwritten => hwritten
  · split
    · exact h
    · exact h.moveRows

theorem modCmd {cl e id f} : Canonical (Machine.modCmd s cl e id f) := h.modEngine

theorem setToken {uid e t busy} : Canonical (Machine.setToken s uid e t busy) := h

theorem faultCmd {cl e c code addr} : Canonical (Machine.faultCmd s cl e c code addr) := by
  unfold Machine.faultCmd
  dsimp only
  split
  · exact h.modCmd.modEngine
  · exact h.modCmd.modEngine.noteCopyFault

theorem restartCmd {cl e} : Canonical (Machine.restartCmd s cl e) := h.modEngine

theorem execCopyEngineFault {cl e code addr} : Kept (Machine.execCopyEngineFault cl e code addr s) := by
  unfold Machine.execCopyEngineFault
  refine Kept.next (h.ite ?_)
  split
  · exact h.faultCmd.ite h
  · exact h

theorem execCopyCommandStart {cl e} : Kept (Machine.execCopyCommandStart cl e s) := by
  unfold Machine.execCopyCommandStart
  refine Kept.next (h.ite ?_)
  split
  · exact h.ite h.modCmd
  · exact h

theorem engHeld {c stray} : Canonical (Machine.engHeld s c stray) := h.stopStray.ite h

theorem engCommit {c x f} (hx : Canonical x.s) (hf : ∀ {t}, Canonical t → Canonical (f t)) : Canonical (Machine.engCommit s c x f) :=
  (hf hx.costsTake).ite h.costsRefuse

theorem slabStep {cl e c uid u} : Canonical (Machine.slabStep s cl e c uid u) := by
  unfold Machine.slabStep
  extract_lets out
  split
  · exact h
  · next total x0 _ x _ =>
    extract_lets advance bs
    have hread := Canonical.readChunks (c := c) (cl := cl)
      (l := slabChunks c (c.wins.get c.swin.toFin) (c.reg 0) c.sstride) (x := x0) (acc := []) h
    have hwritten := Canonical.writeChunks (c := c) (cl := cl)
      (l := slabChunks c (c.wins.get c.dwin.toFin) (c.reg 1) c.dstride) (bs := bs) (x := x0) h
    have hadvance {t x} (ht : Canonical t) : Canonical (advance t x) := ht.modCmd
    refine Canonical.ite (h.ite ?_) (h.ite ?_)
    · split
      · exact h.requestWalk
      · exact h.engHeld
      · next hx =>
        rw [hx] at hread
        exact Canonical.faultCmd hread
      · next hx =>
        rw [hx] at hread
        exact h.engCommit hread fun ht => hadvance ht.newReq.levelWrite.putHandle
    · split
      · exact h.requestWalk
      · exact h.engHeld
      · next hx =>
        rw [hx] at hwritten
        exact Canonical.faultCmd hwritten
      · next hx =>
        rw [hx] at hwritten
        exact h.engCommit hwritten fun ht => hadvance ht.newReq.putHandle

theorem execStreamSlabTransfer {cl e} : Kept (Machine.execStreamSlabTransfer cl e s) := by
  unfold Machine.execStreamSlabTransfer
  refine Kept.next ?_
  split
  · split
    · exact h.slabStep.ite h
    · exact h
  · exact h

theorem settleTile {cl c} : Canonical (Machine.settleTile s cl c) := by
  unfold Machine.settleTile
  split
  · exact h
  · exact h.foldl (fun h6 => h6.ite h6.levelWrite)

theorem orUnitFlags {uid f} : Canonical (Machine.orUnitFlags s uid f) := by
  unfold Machine.orUnitFlags
  split
  · exact h.ite h
  · exact h

theorem finishCmd {cl e c} : Canonical (Machine.finishCmd s cl e c) := by
  unfold Machine.finishCmd
  dsimp only
  split
  · exact h.settleTile.orUnitFlags.modEngine
  · exact h.settleTile.orUnitFlags.modEngine.setToken.modCluster.releaseBanks

theorem publishClaims {c} : Canonical (Machine.publishClaims s c) := by
  unfold Machine.publishClaims
  split
  · exact h
  · extract_lets read
    have hread : Canonical read := h.publishClaim.ite h
    exact hread.publishClaim.ite hread

theorem sendArrival {cl e c uid u} : Canonical (Machine.sendArrival s cl e c uid u) := by
  have htranslate := Canonical.engTranslate (x := ⟨s, [], [], none⟩) (c := c) (cl := cl) (va := c.barVa) (acc := .atomic) h
  unfold Machine.sendArrival
  refine h.faultCmd.ite ?_
  split
  · exact h.requestWalk
  · exact h
  · next hx =>
    rw [hx] at htranslate
    exact Canonical.faultCmd htranslate
  · next x _ _ _ hx =>
    rw [hx] at htranslate
    have ht : Canonical x.s := htranslate
    exact ht.faultCmd.ite ht.newReq.modCmd.startRelease

theorem advanceCmd {cl e c} : Canonical (Machine.advanceCmd s cl e c) := by
  unfold Machine.advanceCmd
  refine h.ite (h.publishClaims.ite (h.publishClaims.finishCmd.ite (h.publishClaims.ite ?_)))
  split
  · exact h.publishClaims.sendArrival
  · exact h.publishClaims.finishCmd

theorem execCopyCommandComplete {cl e} : Kept (Machine.execCopyCommandComplete cl e s) := by
  unfold Machine.execCopyCommandComplete
  refine Kept.next (h.ite ?_)
  split
  · exact h
  · next c _ =>
    extract_lets old
    have hmoved := Canonical.moveCommand (c := c) (cl := cl) (x := ⟨s, [], [], none⟩) h
    refine h.ite (h.advanceCmd.ite (h.ite ?_))
    split
    · exact h.requestWalk
    · exact h.engHeld
    · next hx =>
      rw [hx] at hmoved
      exact Canonical.modCmd hmoved |>.faultCmd
    · next hx =>
      rw [hx] at hmoved
      exact h.engCommit hmoved fun ht => ht.modCmd.advanceCmd

theorem flipBuf {i b count complete} : Canonical (Machine.flipBuf s i b count complete) := by
  unfold Machine.flipBuf
  exact h.deviceWrite.modBuf.modWalk

theorem countProducer {cl e c} : Canonical (Machine.countProducer s cl e c) := by
  unfold Machine.countProducer
  dsimp only
  split
  · exact h.faultCmd
  · refine h.faultCmd.ite (h.ite (Canonical.ite (?_ : Canonical _).flipBuf (?_ : Canonical _).modBuf).advanceCmd)
    · split
      · exact h.modCmd
      · exact h.modCmd
    · split
      · exact h.modCmd
      · exact h.modCmd

theorem execPublCount {cl e} : Kept (Machine.execPublCount cl e s) := by
  unfold Machine.execPublCount
  refine Kept.next (h.ite ?_)
  split
  · exact h
  · refine h.ite (h.advanceCmd.ite ?_)
    split
    · exact h.ite h.countProducer
    · split
      · exact h.countProducer
      · exact h.modCmd.startRelease

theorem oldOrNew {old new} : Canonical (Machine.oldOrNew s old new).2 := h

theorem leaveTile {cl c h'} : Canonical (Machine.leaveTile s cl c h') := h.ite (h.foldl (fun h1 => h1.oldOrNew.levelWrite))

theorem abandonCmd {cl e c} : Canonical (Machine.abandonCmd s cl e c) := by
  unfold Machine.abandonCmd
  extract_lets dropped
  have hdropped : Canonical dropped := h.modEngine
  split
  · exact hdropped
  · extract_lets tokened read written tainted arrived due unfollowed
    have hread : Canonical read := hdropped.setToken.publishClaim.ite hdropped.setToken
    have hwritten : Canonical written := by
      refine Canonical.ite ?_ hread
      split
      · exact hread.undefSlabs.publishClaim.ite hread.leaveTile
      · exact hread
    have htainted : Canonical tainted := by
      refine Canonical.ite ?_ hwritten
      split
      · exact hwritten.modBuf
      · exact hwritten
    have htranslate := Canonical.engTranslate (x := ⟨tainted, [], [], none⟩) (c := c) (cl := cl) (va := c.barVa) (acc := .atomic)
      htainted
    have harrived : Canonical arrived := by
      refine Canonical.ite ?_ htainted
      split
      · next x _ _ _ hx =>
        rw [hx] at htranslate
        have ht : Canonical x.s := htranslate
        exact ht.newReq.modSync
      · exact htainted.newReq.modSync
      · exact htainted
    exact harrived.modUnit.modCluster.releaseBanks

theorem abandonAll {cl e uid ok} : Canonical (Machine.abandonAll s cl e uid ok) := h.foldl (fun h1 => h1.abandonCmd)

theorem deliverFollow {cl ok f} : Canonical (Machine.deliverFollow s cl ok f) := by
  unfold Machine.deliverFollow
  dsimp only
  split
  · exact h
  · refine h.modCluster.ite (h.ite ?_)
    split
    · exact h.modCluster.noteFault
    · refine h.modCluster.noteFault.ite ?_
      split
      · exact h.modCluster.noteFault
      · exact h.ite h.modCluster.acceptArray

theorem deliverFollows {cl ok} : Canonical (Machine.deliverFollows s cl ok) := h.ite (h.foldl (fun h1 => h1.deliverFollow)).modCluster

end Canonical

/-! ### Tile transfers -/

namespace Canonical

variable {s : State} (h : Canonical s)
include h

theorem execVext {a m k} : Kept (Machine.execVext a m k s) := by
  unfold Machine.execVext
  exact h.runSlot (fun h1 => h1.noteVector.schedScalar)

theorem fillQueue {u} : Canonical (Machine.fillQueue s u) := h

theorem execVcvt {d a c} : Kept (Machine.execVcvt d a c s) := by
  unfold Machine.execVcvt
  exact h.runSlotW (fun h1 => h1.fillQueue) (fun h2 => h2.noteVector.schedule)

theorem execVtrans {d a p f} : Kept (Machine.execVtrans d a p f s) := by
  unfold Machine.execVtrans
  exact h.runSlot (fun h1 => h1.noteVector.schedule)

end Canonical

/-! ### Copy commands -/

namespace Canonical

variable {s : State} (h : Canonical s)
include h

theorem execRingadv {a t n} : Kept (Machine.execRingadv a t n s) := by
  unfold Machine.execRingadv
  refine h.runSlot (fun h1 => ?_)
  split
  · exact h1
  · exact h1.same.putHandle

theorem execRingcnt {d a} : Kept (Machine.execRingcnt d a s) := by
  unfold Machine.execRingcnt
  refine h.runSlot (fun h1 => ?_)
  split
  · exact h1.schedScalar
  · exact h1

theorem acceptCopy {u e c} : Canonical (Machine.acceptCopy s u e c) := h.newReq.setUnit.setToken.modEngine

theorem copySlot {e op hdr} : Kept (Machine.copySlot e op hdr s) := by
  unfold Machine.copySlot
  refine h.runSlotW (fun h1 => ?_) (fun h7 => h7.acceptCopy)
  split
  · exact h1.fillQueue
  · exact h1

end Canonical

/-! ### Kills -/

namespace Canonical

variable {s : State} (h : Canonical s)
include h

theorem loseArrivals {uid u} : Canonical (Machine.loseArrivals s uid u) := h.foldl (fun h1 => h1)

theorem cutUnit {uid} : Canonical (Machine.cutUnit s uid) := by
  unfold Machine.cutUnit
  split
  · exact h
  · exact h.abandonAll.abandonAll.killArray.loseArrivals

theorem endUnit {uid e} : Canonical (Machine.endUnit s uid e) := by
  unfold Machine.endUnit
  split
  · exact h
  · exact h.cutUnit.endWait.completeUnit.ite h

theorem killUnit {uid} : Canonical (Machine.killUnit s uid) := h.endUnit

theorem killUnits {ok} : Canonical (Machine.killUnits s ok) := by
  unfold Machine.killUnits
  refine h.foldl (fun h1 => ?_)
  split
  · exact h1.killUnit.ite h1
  · exact h1

theorem resumePrompter {p sd kc v cap} : Canonical (Machine.resumePrompter s p sd kc v cap) := by
  unfold Machine.resumePrompter
  split
  · exact h
  · exact h.setUnit.modCluster

theorem finishStep {uid} : Canonical (Machine.finishStep s uid) := by
  unfold Machine.finishStep
  dsimp only
  split
  · exact h
  · split
    · exact h
    · refine Canonical.ite h (Canonical.ite h.modUnit.resumePrompter (Canonical.ite ?_ h))
      split
      · exact h.modUnit.modUnit.resumePrompter
      · exact h

theorem finishSteps : Canonical (Machine.finishSteps s) := by
  unfold Machine.finishSteps
  refine h.foldl (fun h1 => ?_)
  split
  · exact h1.finishStep.ite h1
  · exact h1

end Canonical

end Sys2Proof.Safety
end

section
/-! PROOFS.
Graphs, the front end, the job-control page and system operations keep the canonical form of every memory (O7). -/

-- One proof at a time: the check of the whole text has a limit on memory, which many threads would reach.
set_option Elab.async false

namespace Sys2Proof.Safety

open Sys2Proof.Machine

/-! ### Reading a graph -/

namespace Canonical

variable {s : State} (h : Canonical s)
include h

theorem feTranslate {a va acc x} (e : Machine.feTranslate s a va acc = some x) : Canonical x.1 := by
  unfold Machine.feTranslate at e
  split at e
  · exact absurd e (Option.some_ne_none x).symm
  · split at e
    · exact absurd e (Option.some_ne_none x).symm
    · split at e
      · exact absurd e (Option.some_ne_none x).symm
      · extract_lets en who reads frame pa header lost at e
        split at e
        · exact absurd e (Option.some_ne_none x).symm
        · rw [← Option.some.inj e]
          exact h.setAccDirty

theorem feRead {a l acc x} (e : Machine.feRead a l s acc = some x) : Canonical x.1 := by
  induction l generalizing s acc with
  | nil =>
    rw [← Option.some.inj e]
    exact h
  | cons p l ih =>
    unfold Machine.feRead at e
    split at e
    · cases e
    · next htranslate =>
      split at e
      · cases e
      · exact ih (h.feTranslate htranslate) e

theorem feBytes {a va n x} (e : Machine.feBytes s a va n = some x) : Canonical x.1 := h.feRead e

theorem readNodes {a va i n acc x} (e : Machine.readNodes a va i n s acc = .ok x) : Canonical x.1 := by
  induction n generalizing i s acc with
  | zero =>
    rw [← Except.ok.inj e]
    exact h
  | succ n ih =>
    unfold Machine.readNodes at e
    split at e
    · cases e
    · next hread =>
      dsimp only at e
      split at e
      · exact ih (h.feBytes hread) e
      · cases e

theorem readNode {ok a n x} (e : Machine.readNode ok a s n = .ok x) : Canonical x.1 := by
  unfold Machine.readNode at e
  split at e
  · rw [← Except.ok.inj e]
    exact h
  · split at e
    · cases e
    · next hrecord =>
      dsimp only at e
      split at e
      · cases e
      · split at e
        · rw [← Except.ok.inj e]
          exact h.feBytes hrecord
        · split at e
          · cases e
          · next hhead =>
            split at e
            · cases e
            · next himage =>
              split at e
              · cases e
              · split at e
                · cases e
                · next hsegs =>
                  rw [← Except.ok.inj e]
                  exact (((h.feBytes hrecord).feBytes hhead).feBytes himage).feBytes hsegs

theorem readRecords {ok a i l acc x} (e : Machine.readRecords ok a i l s acc = .ok x) : Canonical x.1 := by
  induction l generalizing i s acc with
  | nil =>
    rw [← Except.ok.inj e]
    exact h
  | cons n l ih =>
    unfold Machine.readRecords at e
    split at e
    · cases e
    · next hread => exact ih (h.readNode hread) e

theorem readGraph {ok a va x} (e : Machine.readGraph ok s a va = .ok x) : Canonical x.1 := by
  unfold Machine.readGraph at e
  split at e
  · cases e
  · next hhead =>
    dsimp only at e
    split at e
    · cases e
    · split at e
      · cases e
      · next hnodes =>
        split at e
        · cases e
        · next hrecords =>
          split at e
          · cases e
          · split at e
            · cases e
            · split at e
              · cases e
              · rw [← Except.ok.inj e]
                exact ((h.feBytes hhead).readNodes hnodes).readRecords hrecords

end Canonical

/-! ### The front end -/

namespace Canonical

variable {s : State} (h : Canonical s)
include h

theorem modGraph {g f} : Canonical (Machine.State.modGraph s g f) := h

theorem modNode {g n f} : Canonical (Machine.modNode s g n f) := h.modGraph

theorem pushTodo {g t} : Canonical (Machine.pushTodo s g t) := h.modGraph

theorem seatUnit {uid u} : Canonical (Machine.seatUnit s uid u) := h.modUnit.modCluster.rebuildOrder.ite h

theorem placeUnit {li l i c instances} : Canonical (Machine.placeUnit s li l i c instances) :=
  h.same.touchDie.activate.completeUnit.ite (h.same.touchDie.activate.modUnit.modLaunch.completeUnit.ite
    h.same.touchDie.activate.seatUnit)

theorem placeOn {li c} : Canonical (Machine.placeOn s li c) := by
  unfold Machine.placeOn
  split
  · exact h
  · exact h.foldl (fun h6 => h6.placeUnit)

theorem admitUnplaced : Canonical (Machine.admitUnplaced s) := by
  unfold Machine.admitUnplaced
  refine h.foldl (fun h1 => ?_)
  split
  · exact h1.seatUnit.ite h1
  · exact h1

theorem swapArray {c li l} : Canonical (Machine.swapArray s c li l) := h.modArray

theorem refuseSheet {li d} : Canonical (Machine.refuseSheet s li d) := h.ite h.setMod

theorem checkSheet {c li l} : Canonical (Machine.checkSheet s c li l) := by
  unfold Machine.checkSheet
  split
  · exact h.refuseSheet.ite h
  · exact h

theorem loadSheet {c li l} : Canonical (Machine.loadSheet s c li l) := by
  unfold Machine.loadSheet
  dsimp only
  split
  · exact h
  · exact h.ite (h.refuseSheet.ite h)

theorem execWingsLoad {li c} : Kept (Machine.execWingsLoad li c s) := by
  unfold Machine.execWingsLoad
  refine Kept.next ?_
  split
  · exact h
  · exact h.ite (h.checkSheet.modLaunch.modCluster.activate.ite h.checkSheet.placeOn)

theorem execWingsSwap {c} : Kept (Machine.execWingsSwap c s) := by
  unfold Machine.execWingsSwap
  refine Kept.next ?_
  split
  · exact h
  · split
    · exact h
    · exact h.ite h.modCluster.swapArray.loadSheet.placeOn

theorem registerDeadline {li} : Canonical (Machine.registerDeadline s li) := by
  unfold Machine.registerDeadline
  split
  · exact h
  · split
    · exact h
    · exact h.ite h

theorem newLaunch {a g n x} : Canonical (Machine.newLaunch s a g n x) := by
  unfold Machine.newLaunch
  split
  · exact h.modHub.modCtx.modNode
  · exact h

theorem fireLaunch {li} : Canonical (Machine.fireLaunch s li) := by
  unfold Machine.fireLaunch
  split
  · exact h
  · exact Canonical.ite h h.modLaunch.registerDeadline

theorem startRun {g p} : Canonical (Machine.startRun s g p) := by
  unfold Machine.startRun
  refine Canonical.pushTodo (Canonical.foldl (h.foldl fun ht => ht.modNode) fun ht => ?_)
  split
  · exact ht.newLaunch.ite ht
  · exact ht

theorem readWord {a va} : Canonical (Machine.readWord s a va).2 := by
  unfold Machine.readWord
  split
  · next hread => exact h.feBytes hread
  · exact h.freeWord

theorem fireTransform {a g n r} : Canonical (Machine.fireTransform s a g n r) := h.same.same.same.modCluster.activate

theorem dropTransforms {g} : Canonical (Machine.dropTransforms s g) :=
  h.foldl (fun h1 => Canonical.ite (h1.modCluster.foldl (fun h2 => h2.modEngine)) h1)

theorem cutLaunch {li} : Canonical (Machine.cutLaunch s li) := by
  unfold Machine.cutLaunch
  split
  · exact h
  · exact Canonical.ite h (Canonical.ite h (h.modLaunch.modLaunch.foldl (fun h6 => Canonical.ite h6.modCluster h6)).killUnits)

theorem settleCut {g} : Canonical (Machine.settleCut s g) := h.modGraph.ite h

theorem cutGraph {g} : Canonical (Machine.cutGraph s g) := by
  unfold Machine.cutGraph
  dsimp only
  refine h.ite (h.modGraph.dropTransforms.foldl (fun h1 => ?_)).settleCut
  split
  · exact h1.cutLaunch.ite h1
  · exact h1

theorem faultTransform {g n code} : Canonical (Machine.faultTransform s g n code) := h.cutGraph.modGraph

theorem startPass {g cue} : Canonical (Machine.startPass s g cue) := h.modGraph.startRun

theorem passDone {g} : Canonical (Machine.passDone s g) := by
  unfold Machine.passDone
  dsimp only
  split
  · exact h.modGraph
  · exact h.modGraph.modGraph.startPass

theorem fireNode {g n} : Canonical (Machine.fireNode s g n) := by
  unfold Machine.fireNode
  dsimp only
  split
  · exact h
  · split
    · split
      · exact h.modNode.fireLaunch
      · exact h.modNode
    · split
      · exact h.modNode.fireTransform
      · exact h.modNode
    · exact h.modNode.pushTodo.ite h.modNode.startRun
    · exact h.modNode.readWord.pushTodo.ite (h.modNode.readWord.pushTodo.ite h.modNode.readWord.startRun)
    · exact h.modNode.readWord.pushTodo.ite (h.modNode.readWord.pushTodo.ite h.modNode.readWord.startRun)
    · exact h.modNode

theorem bodyDone {g m} : Canonical (Machine.bodyDone s g m) := by
  unfold Machine.bodyDone
  dsimp only
  split
  · exact h
  · split
    · exact h.modNode.pushTodo.ite h.modNode.startRun
    · exact h.readWord.pushTodo.ite h.readWord.startRun
    · exact h.pushTodo

theorem doneNode {g n} : Canonical (Machine.doneNode s g n) := by
  unfold Machine.doneNode
  dsimp only
  split
  · exact h
  · refine h.ite (h.modNode.settleCut.ite ?_)
    split
    · refine Canonical.ite (h.modNode.foldl (fun h8 => ?_)).modGraph.passDone (h.modNode.foldl (fun h14 => ?_)).modGraph
      · split
        · exact h8.modNode.pushTodo.ite h8.modNode
        · exact h8.modNode
      · split
        · exact h14.modNode.pushTodo.ite h14.modNode
        · exact h14.modNode
    · refine Canonical.ite (h.modNode.foldl (fun h23 => ?_)).bodyDone (h.modNode.foldl (fun h29 => ?_))
      · split
        · exact h23.modNode.pushTodo.ite h23.modNode
        · exact h23.modNode
      · split
        · exact h29.modNode.pushTodo.ite h29.modNode
        · exact h29.modNode

theorem runTodo {g n} : Canonical (Machine.runTodo g n s) := by
  induction n generalizing s with
  | zero => exact h
  | succ n ih =>
    unfold Machine.runTodo
    split
    · exact h
    · refine ih ?_
      split
      · exact h.modGraph.fireNode.ite h.modGraph
      · exact h.modGraph.doneNode

theorem finishNode {g n} : Canonical (Machine.finishNode s g n) := h.doneNode.runTodo

theorem performCue {a g} : Canonical (Machine.performCue s a g) := by
  unfold Machine.performCue
  refine h.modGraph.ite (h.ite (h.modHub.modGraph.ite (h.modHub.startPass.runTodo.ite ?_)))
  split
  · exact h.modHub.modGraph
  · next hgraph => exact (h.modHub.readGraph hgraph).modGraph.startPass.runTodo

theorem writeGaddr {a g v} : Canonical (Machine.writeGaddr s a g v) := h.ite (h.modCtx.modGraph.ite h.modCtx.modGraph)

theorem execTransformDispatch {c} : Kept (Machine.execTransformDispatch c s) := by
  unfold Machine.execTransformDispatch
  dsimp only
  refine Kept.next ?_
  split
  · exact h
  · refine h.ite ?_
    split
    · split
      · exact h.modCluster.faultTransform
      · exact h.modCluster
    · exact h.modCluster.invalidate.modEngine

theorem cancelUnit {a serial n} : Canonical (Machine.cancelUnit s a serial n) := by
  unfold Machine.cancelUnit
  split
  · exact h
  · split
    · exact h
    · exact (h.placeUnit.modLaunch.ite h).killUnits

theorem cancelLaunch {a serial} : Canonical (Machine.cancelLaunch s a serial) := by
  unfold Machine.cancelLaunch
  split
  · exact h
  · exact h.cutLaunch

theorem cancelGraph {a g} : Canonical (Machine.cancelGraph s a g) := h.cutGraph.ite h

theorem cancelPhase {a phase} : Canonical (Machine.cancelPhase s a phase) := by
  unfold Machine.cancelPhase
  split
  · exact h
  · exact h.ite (h.foldl (fun h6 => (h6.cutGraph.modGraph.ite h6.modGraph).ite h6))

theorem cancelJob {a} : Canonical (Machine.cancelJob s a) := by
  have hgraphs : Canonical ((List.finRange 64).foldl (fun s g => Machine.cancelGraph s a g) s) := h.foldl fun ht => ht.cancelGraph
  exact hgraphs.killUnits.killUnits.modCtx

theorem runCancel {a c} : Canonical (Machine.runCancel s a c) := by
  cases c with
  | unit => exact h.cancelUnit
  | launch => exact h.cancelLaunch
  | graph => exact h.cancelGraph
  | phase => exact h.cancelPhase
  | job => exact h.cancelJob

theorem performCancel {a c} : Canonical (Machine.performCancel s a c) := by
  unfold Machine.performCancel
  split
  · exact h.runCancel
  · split
    · exact h.runCancel
    · exact Canonical.ite h.runCancel h

theorem flushCores : Canonical (Machine.flushCores s) := h.foldl (fun h1 => h1.flushDie.ite h1)

theorem execPhaseBoundaryRelease {g} : Kept (Machine.execPhaseBoundaryRelease g s) := by
  unfold Machine.execPhaseBoundaryRelease
  dsimp only
  refine Kept.next ?_
  split
  · exact h
  · exact h.ite (h.flushCores.ite h.flushCores.modCtx.finishNode)

theorem noteTarget {l err} : Canonical (Machine.noteTarget s l err) := by
  unfold Machine.noteTarget
  split
  · split
    · exact h.modGraph
    · exact h
  · exact h

theorem targetAtEngine {l q} : Canonical (Machine.targetAtEngine s l q) :=
  h.performSync.logSync.touchLine.noteTarget.ite h.performSync.logSync.touchLine

theorem targetCue {l v} : Canonical (Machine.targetCue s l v) := h.performCue.noteTarget.ite h.performCue

end Canonical

/-! ### The job-control page -/

namespace Canonical

variable {s : State} (h : Canonical s)
include h

theorem handOne {a} : Canonical (Machine.handOne s a) := by
  unfold Machine.handOne
  split
  · exact h
  · split
    · split
      · exact h.modUnit.startPrompter.ite h
      · exact h
    · exact h

theorem handAll {a n} : Canonical (Machine.handAll a n s) := by
  induction n generalizing s with
  | zero => exact h
  | succ n ih => exact ih h.handOne

theorem startRecording {a} : Canonical (Machine.startRecording s a) := h.same.modCtx.foldl (fun h1 => h1)

theorem writePctl {a v} : Canonical (Machine.writePctl s a v) := by
  unfold Machine.writePctl
  split
  · exact h
  · exact (h.modCtx.startRecording.ite h.modCtx).handAll

theorem writeCancel {k v} : Canonical (Machine.writeCancel s k v) := by
  unfold Machine.writeCancel
  split
  · exact h
  · exact h

theorem writeGraphReg {k g off v host} : Canonical (Machine.writeGraphReg s k g off v host) := by
  unfold Machine.writeGraphReg
  refine h.ite ?_
  split
  · exact h.writeGaddr.ite h
  · exact h.modGraph.ite h
  · exact h.performCue
  · exact h

theorem windowWrite {slot off v host} : Canonical (Machine.windowWrite s slot off v host) := by
  unfold Machine.windowWrite
  split
  · exact h
  · refine Canonical.ite h.writeCancel (Canonical.ite (Canonical.ite h h)
        (Canonical.ite (Canonical.ite h.writePctl h) (Canonical.ite h (Canonical.ite (Canonical.ite h.modBudget h) ?_))))
    split
    · exact h.writeGraphReg
    · exact h

theorem storeTarget {li l x add} : Canonical (Machine.storeTarget s li l x add) := by
  unfold Machine.storeTarget
  split
  · exact h.noteTarget
  · next htranslate =>
    have ht := h.feTranslate htranslate
    refine h.noteTarget.ite ?_
    split
    · exact ht.targetAtEngine
    · exact h.noteTarget.ite ht.windowWrite
    · exact h.noteTarget.ite ht.postOutside
    · exact h.noteTarget.ite ht.deviceWrite

theorem performTarget {li l x} : Canonical (Machine.performTarget s li l x) := by
  unfold Machine.performTarget
  split
  · exact h.storeTarget
  · exact h.storeTarget
  · exact h.targetCue
  · exact h

theorem takeTarget {t li l x} (e : Machine.takeTarget s li l x = some t) : Canonical t := by
  unfold Machine.takeTarget at e
  split at e
  · rw [← Option.some.inj e]
    exact h.performTarget
  · cases e

theorem targetHeld {li l t} : Canonical (Machine.targetHeld s li l t) := h.stopStray.ite h

theorem launchRelease {li} : Canonical (Machine.launchRelease s li) := h.foldl (fun h1 => h1.flushDie)

theorem execLaunchReleaseDone {li} : Kept (Machine.execLaunchReleaseDone li s) := by
  unfold Machine.execLaunchReleaseDone
  refine Kept.next ?_
  split
  · exact h
  · refine h.ite (h.launchRelease.ite ?_)
    split
    · next htaken => exact (h.launchRelease.takeTarget htaken).modLaunch
    · exact h.launchRelease.targetHeld

theorem execCompletionTarget {li} : Kept (Machine.execCompletionTarget li s) := by
  unfold Machine.execCompletionTarget
  refine Kept.next ?_
  split
  · exact h
  · refine h.ite ?_
    split
    · exact h.targetHeld
    · next htaken =>
      have ht := h.takeTarget htaken
      extract_lets finished
      have hfinished : Canonical finished := ht.modLaunch
      split
      · split
        · exact hfinished.finishNode
        · exact hfinished
      · exact hfinished

theorem pollTransforms {g} : Canonical (Machine.pollTransforms s g) := by
  unfold Machine.pollTransforms
  dsimp only
  refine h.foldl (fun h1 => h1.ite ?_)
  split
  · exact h1.faultTransform
  · exact h1.ite h1.finishNode

theorem pollGraph {g} : Canonical (Machine.pollGraph s g) := by
  unfold Machine.pollGraph
  dsimp only
  refine h.runTodo.pollTransforms.ite (Canonical.ite ?_ h)
  split
  · exact h.modGraph.startPass
  · exact h

theorem pollSheets : Canonical (Machine.pollSheets s) := by
  unfold Machine.pollSheets
  refine h.foldl (fun h1 => ?_)
  split
  · exact h1
  · exact h1.ite h1

theorem frontTick : Canonical (Machine.frontTick s) := by
  unfold Machine.frontTick
  refine Canonical.pollSheets (Canonical.admitUnplaced (Canonical.foldl (h.foldl fun ht => ht.pollGraph) fun ht => ?_))
  split
  · exact ht.registerDeadline.ite ht
  · exact ht

end Canonical

/-! ### System operations -/

namespace Canonical

variable {s : State} (h : Canonical s)
include h

theorem csrSlot {d srcs c new} : Kept (Machine.csrSlot d srcs c new s) := h.runSlot (fun h1 => h1)

theorem drainRecorder {a n} : Canonical (Machine.drainRecorder a n s) := by
  induction n generalizing s with
  | zero => exact h
  | succ n ih =>
    unfold Machine.drainRecorder
    split
    · exact h
    · exact h.ite (ih h.freeWord.freeWord.freeWord.freeWord.ringAppend.modCtx)

theorem drainRecorders : Canonical (Machine.drainRecorders s) := h.foldl (fun h1 => h1.drainRecorder.ite h1)

theorem stopReplay {a want got} : Canonical (Machine.stopReplay s a want got) := h.ite h.modCtx.setMod

theorem execRepmark {a t} : Kept (Machine.execRepmark a t s) := by
  unfold Machine.execRepmark
  exact h.runSlotW (fun h1 => h1.stopReplay.ite (h1.costsRefuse.ite h1)) (fun h2 => h2.costsTake.recordEvent.ite h2)

theorem startL1 {u c inval} : Canonical (Machine.startL1 s u c inval) := (h.flushDie.ite h).modCluster

theorem flushL1 {cl o} : Canonical (Machine.flushL1 s cl o) := h.flushDie.modCluster

theorem execL1OpComplete {cl} : Kept (Machine.execL1OpComplete cl s) := by
  unfold Machine.execL1OpComplete
  refine Kept.next ?_
  split
  · exact h
  · exact (h.ite h.flushL1).ite (h.ite h.modCluster)

theorem startShoot {a r migrate waiter} : Canonical (Machine.startShoot s a r migrate waiter) := h

theorem tlbiSlot {d srcs bad range} : Kept (Machine.tlbiSlot d srcs bad range s) := by
  unfold Machine.tlbiSlot
  exact h.runSlotW (fun h1 => h1.ite h1.startShoot) (fun h2 => h2)

theorem valsetSlot {b w srcs chk vals} : Kept (Machine.valsetSlot b w srcs chk vals s) := by
  unfold Machine.valsetSlot
  dsimp only
  refine h.runSlotW (fun h1 => ?_) (fun h6 => ?_)
  · split
    · exact h1.requestWalk
    · exact h1.costsRefuse
  · split
    · exact h6
    · exact h6.costsTake

theorem execValsetPerform {n} : Kept (Machine.execValsetPerform n s) := by
  unfold Machine.execValsetPerform
  refine Kept.next ?_
  split
  · exact h
  · exact h

end Canonical

end Sys2Proof.Safety
end

section
/-! PROOFS.
Prompters, freezes and segments keep the canonical form of every memory (O7). -/

-- One proof at a time: the check of the whole text has a limit on memory, which many threads would reach.
set_option Elab.async false

namespace Sys2Proof.Safety

open Sys2Proof.Machine

/-! ### Prompters -/

namespace Canonical

variable {s : State} (h : Canonical s)
include h

theorem abandonToken {uid u e t} : Canonical (Machine.abandonToken s uid u e t) := by
  unfold Machine.abandonToken
  split
  · exact h.ite h.abandonCmd
  · exact h

theorem writeElement {uid u cls i v} : Canonical (Machine.writeElement s uid u cls i v) := by
  unfold Machine.writeElement
  split
  · exact h
  · exact h.ite h
  · exact h
  · exact h
  · exact h
  · exact h
  · exact h
  · exact h
  · exact h.abandonToken.ite h
  · exact h
  · exact h

theorem opStray {target op v} : Canonical (Machine.opStray s target op v) := by
  unfold Machine.opStray
  split
  · exact h.ite h.stopReplay
  · exact h

theorem noteOp {target op v} : Canonical (Machine.noteOp s target op v) := by
  unfold Machine.noteOp
  dsimp only
  split
  · exact h.recordEvent
  · exact h.recordEvent

theorem setKc {me k v} : Canonical (Machine.setKc s me k v) := h

theorem prompterResult {d v} : Canonical (Machine.prompterResult s d v) := by
  unfold Machine.prompterResult
  split
  · exact h.schedScalar
  · exact h

theorem onHeld {k op v chk eff} (heff : ∀ {t p i u}, Canonical t → Canonical (eff t p i u)) :
    Kept (Machine.onHeld s k op v chk eff) := by
  refine h.runSlotW (fun ht => ht.opStray) (fun ht => ?_)
  split
  · exact ht
  · exact heff ht.noteOp

theorem ifHeld {uid f} (hf : ∀ {u}, Canonical (f u)) : Canonical (Machine.ifHeld s uid f) := by
  unfold Machine.ifHeld
  split
  · exact hf.ite h
  · exact h

theorem execFwrAdvance {uid} : Kept (Machine.execFwrAdvance uid s) := Kept.next (h.ifHeld h.setUnit)

theorem execFwrAbandonCommand {uid e tok} : Kept (Machine.execFwrAbandonCommand uid e tok s) := Kept.next (h.ifHeld h.abandonToken)

theorem execFwrCancelPending {uid n} : Kept (Machine.execFwrCancelPending uid n s) := Kept.next (h.ifHeld h.setUnit)

theorem dropKc {p me k} : Canonical (Machine.dropKc s p me k) := by
  unfold Machine.dropKc
  split
  · exact h.dropCap.setKc
  · exact h.setKc

theorem execFnext {d k} : Kept (Machine.execFnext d k s) := by
  unfold Machine.execFnext
  dsimp only
  refine h.runSlotW (fun h1 => h1.opStray) (fun h2 => ?_)
  split
  · split
    · exact h2.dropKc.noteOp.modUnit.setKc.prompterResult
    · exact h2.dropKc.noteOp.modUnit.prompterResult
  · exact h2.dropKc.prompterResult

theorem restartHead {uid u e} : Canonical (Machine.restartHead s uid u e) := by
  unfold Machine.restartHead
  dsimp only
  split
  · exact h.restartCmd.ite h
  · exact h

theorem thaw {uid u} : Canonical (Machine.thaw s uid u) := h.restartHead.restartHead.payOwed

theorem execFresume {d k} : Kept (Machine.execFresume d k s) := by
  unfold Machine.execFresume
  refine h.onHeld (fun h1 => ?_)
  split
  · exact h1.setKc.killUnit.prompterResult
  · exact h1.setKc.freeze.prompterResult
  · exact h1.setKc.thaw.prompterResult

theorem takeViews {uid} : Canonical (Machine.takeViews s uid) := h

theorem execFstep {d k} : Kept (Machine.execFstep d k s) := by
  unfold Machine.execFstep
  dsimp only
  refine h.onHeld (fun h1 => ?_)
  split
  · exact h1.killUnit.setKc.prompterResult
  · split
    · exact h1.freeze.modUnit.setKc.prompterResult
    · exact h1.freeze
  · exact h1.thaw.modUnit.modUnit.modCluster.takeViews.renewWait

theorem execFarrive {d a c w k} : Kept (Machine.execFarrive d a c w k s) := by
  unfold Machine.execFarrive
  dsimp only
  refine h.runSlotW (fun h1 => h1.syncWait.opStray) (fun h2 => ?_)
  split
  · exact h2
  · exact h2.noteOp.costsTake.same.modUnit.setUnit.startRelease.ite h2.noteOp.costsTake.same.modUnit.setUnit.sendSync

theorem execPrompterFaultPolicy {uid} : Kept (Machine.execPrompterFaultPolicy uid s) := by
  unfold Machine.execPrompterFaultPolicy
  dsimp only
  refine Kept.next ?_
  split
  · exact h
  · refine h.ite ?_
    split
    · exact h.killUnit.cancelJob
    · exact h.ite h.modUnit.modCtx.handAll
    · exact h.killUnit

end Canonical

/-! ### Segments, points and boundaries -/

namespace Canonical

variable {s : State} (h : Canonical s)
include h

theorem releaseStore {c pa size data key floor ceil} : Canonical (Machine.releaseStore s c pa size data key floor ceil) :=
  h.modCluster.mergeIntoSlice

theorem performPayload {c r} : Canonical (Machine.performPayload s c r) := by
  unfold Machine.performPayload
  split
  · exact h.releaseStore
  · exact h
  · exact h
  · exact h.windowWrite
  · exact h.postWrite
  · exact h.rereadLoads
  · exact h
  · exact h

theorem flushRelease {c r} : Canonical (Machine.flushRelease s c r) := h.ite h.flushDie.modCluster

theorem performRelease {c} : Canonical (Machine.performRelease s c) := by
  unfold Machine.performRelease
  dsimp only
  split
  · exact h
  · split
    · exact h.flushRelease
    · exact h.flushRelease.modCluster.performPayload.ite h.flushRelease

theorem performReleases {c n} : Canonical (Machine.performReleases c n s) := by
  induction n generalizing s with
  | zero => exact h
  | succ n ih => exact ih h.performRelease

theorem fetchBundle {u} : Canonical (Machine.fetchBundle s u).2 := by
  unfold Machine.fetchBundle
  split
  · exact h
  · exact h
  · split
    · exact h
    · next pa _ _ _ _ _ => exact h.outsideBytes (pa := pa)
    · split
      · exact h
      · split
        · exact h
        · exact h

theorem requestPreempt {c} : Canonical (Machine.requestPreempt s c) := by
  unfold Machine.requestPreempt
  split
  · exact h
  · split
    · exact h
    · exact Canonical.ite h h

theorem takeStartBanks {uid u} : Canonical (Machine.takeStartBanks s uid u) := h.ite h.modCluster

theorem startSegment {c entry} : Canonical (Machine.startSegment s c entry) := by
  unfold Machine.startSegment
  split
  · exact h
  · split
    · exact h
    · exact (h.modCluster.takeStartBanks.ite h.modCluster.takeStartBanks.invalidate).modUnit.takeViews.renewWait

theorem beginSwitch {c} : Canonical (Machine.beginSwitch s c) := by
  unfold Machine.beginSwitch
  dsimp only
  refine h.ite ?_
  split
  · exact h.setCluster
  · exact h

theorem endSwitch {c} : Canonical (Machine.endSwitch s c) := by
  unfold Machine.endSwitch
  split
  · refine h.startSegment.ite ?_
    split
    · exact h.startSegment
    · exact h.modCluster
  · exact h

theorem switchTick {c} : Canonical (Machine.switchTick s c) := h.modCluster

theorem execUnitStart {uid} : Kept (Machine.execUnitStart uid s) := by
  unfold Machine.execUnitStart
  refine Kept.next ?_
  split
  · exact h
  · exact h.endSwitch.ite h

theorem preemptPark {uid point} : Canonical (Machine.preemptPark s uid point) := by
  unfold Machine.preemptPark
  dsimp only
  split
  · exact h.recordEvent.parkUnit.modUnit.rebuildOrder
  · exact h.recordEvent.parkUnit

theorem divert {uid point} : Canonical (Machine.divert s uid point) := by
  unfold Machine.divert
  split
  · exact h
  · split
    · exact h
    · exact h.recordEvent.endWait.curtainArray

theorem takePoint {uid u point} : Canonical (Machine.takePoint s uid u point) := h.divert.ite h.preemptPark

theorem markKilled {u} : Canonical (Machine.markKilled s u) := by
  unfold Machine.markKilled
  split
  · exact h
  · exact h

theorem overrun {uid} : Canonical (Machine.overrun s uid) := by
  unfold Machine.overrun
  split
  · exact h
  · exact h.setMod.markKilled.killUnit

theorem freezeDue {uid u} : Canonical (Machine.freezeDue s uid u) := by
  unfold Machine.freezeDue
  split
  · exact h
  · exact h.setUnit.freeze

theorem consumeEvent {u e} : Canonical (Machine.consumeEvent s u e) := h

theorem replayFreeze {uid u r} : Canonical (Machine.replayFreeze s uid u r) := h.setUnit.freeze

theorem stepFreeze {uid u} : Canonical (Machine.stepFreeze s uid u) := h.freeze

theorem recordDrain {uid u} : Canonical (Machine.recordDrain s uid u) := h.recordEvent

theorem drainFor {uid u} : Canonical (Machine.drainFor s uid u).1 := by
  unfold Machine.drainFor
  dsimp only
  split
  · exact h.setUnit
  · split
    · exact h
    · split
      · exact h.recordDrain.setUnit.takePoint
      · exact h.recordDrain.setUnit

theorem deliverLogged {uid u kind e} : Canonical (Machine.deliverLogged s uid u kind e).1 := by
  unfold Machine.deliverLogged
  split
  · exact h.consumeEvent.replayFreeze
  · split
    · exact h
    · split
      · split
        · exact h.consumeEvent.modUnit.drainFor
        · exact h.consumeEvent.modUnit.divert
      · split
        · exact h.consumeEvent.drainFor
        · exact h.consumeEvent.preemptPark

theorem boundary {uid u} : Canonical (Machine.boundary s uid u).1 := by
  unfold Machine.boundary
  split
  · exact h.deliverLogged
  · split
    · exact h.freezeDue
    · split
      · exact h.stepFreeze
      · split
        · exact h.parkUnit
        · split
          · exact h.endUnit
          · split
            · exact h.divert
            · split
              · split
                · exact h.setUnit.takePoint
                · exact h
              · split
                · exact h.drainFor
                · exact h

theorem pointEvent {uid u} : Canonical (Machine.pointEvent s uid u) := by
  unfold Machine.pointEvent
  split
  · next hpassed => exact h.boundary.fst_of hpassed
  · next hpassed =>
    have ht := h.boundary.fst_of hpassed
    split
    · exact ht
    · split
      · exact ht.takePoint
      · exact ht

theorem execPreemptPark {uid} : Kept (Machine.execPreemptPark uid s) := by
  unfold Machine.execPreemptPark
  refine Kept.next ?_
  split
  · exact h.pointEvent.ite h
  · exact h

theorem execDiversion {uid} : Kept (Machine.execDiversion uid s) := by
  unfold Machine.execDiversion
  refine Kept.next ?_
  split
  · exact h.pointEvent.ite h
  · exact h

theorem execCurtainNoentComplete {uid} : Kept (Machine.execCurtainNoentComplete uid s) := by
  unfold Machine.execCurtainNoentComplete
  refine Kept.next ?_
  split
  · exact h.endUnit.ite h
  · exact h

theorem execCurtainOverrun {uid} : Kept (Machine.execCurtainOverrun uid s) := by
  unfold Machine.execCurtainOverrun
  refine Kept.next ?_
  split
  · exact h.overrun.ite h
  · exact h

theorem execAfterIssueFreeze {uid} : Kept (Machine.execAfterIssueFreeze uid s) := by
  unfold Machine.execAfterIssueFreeze
  refine Kept.next ?_
  split
  · exact h.freezeDue.ite h
  · exact h

theorem execDieLostFreeze {uid d} : Kept (Machine.execDieLostFreeze uid d s) := by
  unfold Machine.execDieLostFreeze
  refine Kept.next ?_
  split
  · exact Canonical.ite h (Canonical.ite h (Canonical.ite h (Canonical.ite h.setUnit.freeze h)))
  · exact h

theorem issueAnnulled {uid u bs} : Canonical (Machine.issueAnnulled s uid u bs) := h

theorem execAnnulledBundleIssue {uid} : Kept (Machine.execAnnulledBundleIssue uid s) := by
  unfold Machine.execAnnulledBundleIssue
  refine Kept.next ?_
  split
  · refine Canonical.ite ?_ h
    split
    · next hfetch => exact (h.fetchBundle.snd_of hfetch).issueAnnulled
    · exact h
  · exact h

theorem replaceUnit {u li l c} : Canonical (Machine.replaceUnit s u li l c) := (h.modCluster.swapArray.ite h).placeUnit

theorem recount {li} : Canonical (Machine.recount s li) := h

theorem execRestartableReexecution {uid c} : Kept (Machine.execRestartableReexecution uid c s) := by
  unfold Machine.execRestartableReexecution
  refine Kept.next ?_
  split
  · exact h
  · split
    · exact h
    · split
      · exact h
      · exact h.ite (h.killUnit.recount.ite h).modUnit.replaceUnit

theorem execReplayEventDelivery {uid kind} : Kept (Machine.execReplayEventDelivery uid kind s) := by
  unfold Machine.execReplayEventDelivery
  refine Kept.next ?_
  split
  · exact h
  · split
    · exact h
    · exact h.deliverLogged.ite h

end Canonical

end Sys2Proof.Safety
end

section
/-! PROOFS.
The directory, the walker and the links keep the canonical form of every memory (O7). -/

-- One proof at a time: the check of the whole text has a limit on memory, which many threads would reach.
set_option Elab.async false

namespace Sys2Proof.Safety

open Sys2Proof.Machine

/-! ### The directory and its messages -/

namespace Canonical

variable {s : State} (h : Canonical s)
include h

theorem handleReq {e q} : Canonical (Machine.handleReq s e q) := by
  unfold Machine.handleReq
  extract_lets other collapsed e'
  have hcollapsed : Canonical collapsed := h.collapseFor.ite h
  clear_value collapsed
  refine h.dropSliceLine.ite ?_
  split
  next applied lowered happly =>
  have happlied : Canonical applied := by
    split at happly
    · exact (Prod.mk.inj happly).1 ▸ hcollapsed
    · exact hcollapsed.applyRequest.fst_of happly
  split
  · next htrim =>
    split at htrim
    · exact happlied.trimReplicas htrim
    · cases htrim
  · exact happlied.handleGetS.pushHot.ite happlied.handleWrite

theorem drainLine {line n} : Canonical (Machine.drainLine line n s) := by
  induction n generalizing s with
  | zero => exact h
  | succ n ih =>
    unfold Machine.drainLine
    dsimp only
    split
    · exact h
    · exact (ih h.setEntry.handleReq).ite h

theorem settleLate {line} : Canonical (Machine.settleLate s line) := by
  unfold Machine.settleLate
  refine h.ite ?_
  split
  · exact (h.setEntry.foldl fun ht => ht.sendMsg).ite (h.setEntry.foldl fun ht => ht.sendMsg)
  · exact (h.setEntry.getD h.trimReplicas).ite h

theorem resume {line} : Canonical (Machine.resume s line) := h.settleLate.drainLine

theorem settleEntry {line} : Canonical (Machine.settleEntry s line) := by
  unfold Machine.settleEntry
  dsimp only
  refine h.ite (?_ : Canonical _).resume
  split
  · exact h.setEntry.sendMsg.ite (h.setEntry.handleReq.ite h.grantWrite)
  · exact h.grantWrite
  · exact h.setEntry.pushHot
  · exact h.setEntry
  · exact h.setEntry
  · exact h

theorem arriveReq {m} : Canonical (Machine.arriveReq s m) := h.handleReq.ite h.setEntry

theorem dropRedirect {d line} : Canonical (Machine.dropRedirect s d line) := by
  unfold Machine.dropRedirect
  exact h.modDie.modEntry

theorem execGets {d line} : Kept (Machine.execGets d line s) := by
  unfold Machine.execGets
  refine Kept.next ?_
  split
  · exact h.ite (h.dropRedirect.deliver (fun h7 => h7.arriveReq))
  · exact h.deliver (fun h11 => h11.arriveReq)

theorem execGetm {d line} : Kept (Machine.execGetm d line s) := Kept.next (h.deliver (fun h1 => h1.arriveReq))

theorem execUpg {d line} : Kept (Machine.execUpg d line s) := Kept.next (h.deliver (fun h1 => h1.arriveReq))

theorem execRedirectedRead {d line} : Kept (Machine.execRedirectedRead d line s) := by
  unfold Machine.execRedirectedRead
  refine Kept.next ?_
  split
  · split
    · exact h.popMsg.modDie.countEvent.countEvent.sendLine
    · exact h.dropRedirect.popMsg.arriveReq
  · exact h

theorem takeBack {e m dirty} : Canonical (Machine.takeBack s e m dirty) := by
  unfold Machine.takeBack
  extract_lets answered noted taken e'
  have hanswered : Canonical answered := h.sendMsg
  have hnoted : Canonical noted := hanswered.same
  have htaken : Canonical taken := hnoted.writeMemLine.ite hanswered
  exact htaken.setEntry.ite (htaken.setEntry.modDir.ite htaken.setEntry.resume)

theorem arrivePut {dirty m} : Canonical (Machine.arrivePut dirty s m) := h.countQuiet.sendMsg.ite h.countQuiet.takeBack

theorem execPutm {d line} : Kept (Machine.execPutm d line s) := Kept.next (h.deliver (fun h1 => h1.arrivePut))

theorem execPuto {d line} : Kept (Machine.execPuto d line s) := Kept.next (h.deliver (fun h1 => h1.arrivePut))

theorem execPute {d line} : Kept (Machine.execPute d line s) := Kept.next (h.deliver (fun h1 => h1.arrivePut))

theorem arrivePutS {m} : Canonical (Machine.arrivePutS s m) :=
  (h.countQuiet.setEntry.resume.ite h.countQuiet.setEntry).ite (h.countQuiet.setEntry.sendMsg.resume.ite h.countQuiet.setEntry.sendMsg)

theorem execPuts {d line} : Kept (Machine.execPuts d line s) := Kept.next (h.deliver (fun h1 => h1.arrivePutS))

theorem execInvack {d line} : Kept (Machine.execInvack d line s) := Kept.next (h.deliver (fun h1 => h1.modEntry.settleEntry))

theorem execFwdack {d line} : Kept (Machine.execFwdack d line s) :=
  Kept.next (h.deliver (fun h1 => (h1.modEntry.sendPushes.ite h1.modEntry).settleEntry))

theorem execRdack {d line} : Kept (Machine.execRdack d line s) := Kept.next (h.deliver (fun h1 => h1.modEntry.settleEntry))

theorem execPushAcknowledgement {d line} : Kept (Machine.execPushAcknowledgement d line s) :=
  Kept.next (h.deliver (fun h1 => h1.modEntry.settleEntry))

theorem execMemoryFill {line} : Kept (Machine.execMemoryFill line s) := by
  unfold Machine.execMemoryFill
  refine Kept.next (h.ite ?_)
  split
  · exact h
  · exact (Canonical.ite (h.modDir.setEntry.sendLine.ite (h.modDir.setEntry.sendLine.ite h.modDir.setEntry.answerNF.pushHot))
        h.modDir.grantWrite).resume

theorem execMemoryWriteDone {line} : Kept (Machine.execMemoryWriteDone line s) := Kept.next (h.ite h.modDir.setEntry.resume)

theorem fillSlice {d m st} : Canonical (Machine.fillSlice s d m st) := by
  unfold Machine.fillSlice
  split
  · exact h.makeRoom.setSliceLine.ite h
  · split
    · exact h.setSliceLine
    · exact h.setSliceLine.ite h
    · exact h.setSliceLine.ite h
    · exact h.setSliceLine.ite h
    · exact h

theorem execDataS {d line} : Kept (Machine.execDataS d line s) := Kept.next (h.deliver (fun h1 => h1.fillSlice))

theorem execDataE {d line} : Kept (Machine.execDataE d line s) := Kept.next (h.deliver (fun h1 => h1.fillSlice))

theorem execDataM {d line} : Kept (Machine.execDataM d line s) := Kept.next (h.deliver (fun h1 => h1.fillSlice))

theorem execFwddata {d line} : Kept (Machine.execFwddata d line s) := Kept.next (h.deliver (fun h1 => h1.fillSlice))

theorem execDatanf {d line} : Kept (Machine.execDatanf d line s) := by
  unfold Machine.execDatanf
  refine Kept.next (h.deliver (fun h1 => ?_))
  split
  · exact h1.dropSliceLine.ite h1
  · exact h1

theorem execUpgack {d line} : Kept (Machine.execUpgack d line s) := by
  unfold Machine.execUpgack
  refine Kept.next (h.deliver (fun h1 => ?_))
  split
  · exact h1.setSliceLine.ite h1
  · exact h1

theorem execInv {d line} : Kept (Machine.execInv d line s) := by
  unfold Machine.execInv
  dsimp only
  refine Kept.next (h.deliver (fun h1 => ?_))
  split
  · split
    · exact h1.sendMsg.setSliceLine
    · exact h1.sendMsg
    · exact h1.sendMsg
    · exact h1.sendMsg
    · exact h1.sendMsg
    · exact h1.sendMsg.setSliceLine
    · exact h1.sendMsg.setSliceLine
    · exact h1.sendMsg.setSliceLine
    · exact h1.sendMsg.setSliceLine
    · exact h1.sendMsg.dropSliceLine
  · exact h1.sendMsg

theorem execFwdgets {d line} : Kept (Machine.execFwdgets d line s) := by
  refine Kept.next (h.deliver fun ht => ?_)
  extract_lets v m answered kept
  have hanswered : Canonical answered := ht.ite ht.sendMsg
  have hkept : Canonical kept := by
    dsimp only [kept]
    split
    · exact hanswered.setSliceLine.ite hanswered
    · exact hanswered
  exact hkept.sendMsg

theorem execFwdgetsnf {d line} : Kept (Machine.execFwdgetsnf d line s) := Kept.next (h.deliver (fun h1 => h1.sendMsg.sendMsg))

theorem execFwdgetm {d line} : Kept (Machine.execFwdgetm d line s) := by
  unfold Machine.execFwdgetm
  refine Kept.next (h.deliver (fun h1 => (?_ : Canonical _).sendMsg))
  split
  · split
    · exact h1.sendMsg.setSliceLine
    · exact h1.sendMsg.setSliceLine
    · exact h1.sendMsg.setSliceLine
    · exact h1.sendMsg.setSliceLine
    · exact h1.sendMsg
    · exact h1.sendMsg
    · exact h1.sendMsg
    · exact h1.sendMsg
    · exact h1.sendMsg.dropSliceLine
  · exact h1.sendMsg

theorem putAnswered {d line} : Canonical (Machine.putAnswered s d line) := by
  unfold Machine.putAnswered
  split
  · split
    · exact h.dropSliceLine
    · exact h.dropSliceLine
    · exact h.dropSliceLine
    · exact h.dropSliceLine
    · exact h.dropSliceLine
    · exact h
  · exact h

theorem execPutack {d line} : Kept (Machine.execPutack d line s) := Kept.next (h.deliver (fun h1 => h1.putAnswered))

theorem execPutackstale {d line} : Kept (Machine.execPutackstale d line s) := Kept.next (h.deliver (fun h1 => h1.putAnswered))

theorem execPush {d line} : Kept (Machine.execPush d line s) := by
  unfold Machine.execPush
  dsimp only
  refine Kept.next (h.deliver (fun h1 => ?_))
  split
  · exact h1.sendMsg.makeRoom.setSliceLine
  · exact h1.sendMsg.setSliceLine.ite h1.sendMsg

theorem execRdset {d line} : Kept (Machine.execRdset d line s) := Kept.next (h.deliver (fun h1 => h1.modDie.sendMsg))

theorem execRdinv {d line} : Kept (Machine.execRdinv d line s) := Kept.next (h.deliver (fun h1 => h1.modDie.sendMsg))

theorem landCircuit {m} : Canonical (Machine.landCircuit s m) := by
  unfold Machine.landCircuit
  split
  · exact h
  · split
    · exact h
    · exact h.ite h.levelWrite

theorem circuitCycle {d} : Canonical (Machine.circuitCycle s d) := by
  unfold Machine.circuitCycle
  refine Canonical.modDie (h.foldl fun ht => ?_)
  split
  · exact ht
  · split
    · exact ht
    · exact ht.modDie.landCircuit

end Canonical

/-! ### The walker -/

namespace Canonical

variable {s : State} (h : Canonical s)
include h

theorem clearMarkers {e} : Canonical (Machine.clearMarkers s e) := by
  unfold Machine.clearMarkers
  split
  · exact h
  · exact h

theorem execWalkComplete {id} : Kept (Machine.execWalkComplete id s) := by
  unfold Machine.execWalkComplete
  dsimp only
  refine Kept.next ?_
  split
  · exact h
  · split
    · exact h.completeWalk.clearMarkers.ite h.completeWalk
    · exact h.completeWalk

theorem modTlbs {d f} : Canonical (Machine.modTlbs s d f) := h.modDie.foldl (fun h1 => h1.modCluster)

theorem execFlipNotice {b d} : Kept (Machine.execFlipNotice b d s) := Kept.next (h.ite h.modTlbs)

theorem execFlipNoticeAck {b d} : Kept (Machine.execFlipNoticeAck b d s) := Kept.next (h.ite h)

theorem modShoot {id f} : Canonical (Machine.modShoot s id f) := h

theorem dropShoot {id} : Canonical (Machine.dropShoot s id) := h

theorem leavePage {c f} : Canonical (Machine.leavePage s c f) := h.modCluster.foldl (fun h1 => h1.mergeIntoSlice)

theorem execShootDown {id d} : Kept (Machine.execShootDown id d s) := by
  unfold Machine.execShootDown
  refine Kept.next ?_
  split
  · exact h
  · extract_lets moves gone frames dropped left stays clear
    clear_value moves
    have hleft : Canonical left := by
      dsimp only [left]
      split
      · exact h.modTlbs.foldl fun ht => ht.leavePage
      · exact h.modTlbs
    exact h.ite hleft.modShoot.modWalk

theorem moveLine {old new key i} : Canonical (Machine.moveLine old new key s i) := by
  unfold Machine.moveLine
  extract_lets origin v moved
  have hmoved : Canonical moved := h.collapseLine.deviceWrite
  clear_value moved
  exact hmoved.same.ite hmoved

theorem moveSync {a vpn old new size} : Canonical (Machine.moveSync s a vpn old new size) := h

theorem releaseWalks {x} : Canonical (Machine.releaseWalks s x) := h.modWalk.dropShoot

theorem finishVersion {x i v new} : Canonical (Machine.finishVersion s x i v new) := by
  unfold Machine.finishVersion
  split
  · exact h.dropShoot
  · exact (h.foldl (fun h7 => h7.collapseLine.moveLine)).modBuf.releaseWalks

theorem finishMigration {x new} : Canonical (Machine.finishMigration s x new) := by
  unfold Machine.finishMigration
  split
  · exact h.finishVersion
  · split
    · exact h.dropShoot
    · extract_lets old size vpn moved synced
      have hmoved : Canonical moved := h.foldl fun ht => ht.moveLine
      have hsynced : Canonical synced := hmoved.moveSync.ite hmoved
      exact hsynced.deviceWrite.releaseWalks

theorem execShootDownAck {id d} : Kept (Machine.execShootDownAck id d s) := by
  unfold Machine.execShootDownAck
  refine Kept.next ?_
  split
  · exact h
  · extract_lets left busy acked live
    have hacked : Canonical acked := h.modShoot.modWalk
    refine h.ite (h.ite (hacked.ite ?_))
    split
    · exact hacked.finishMigration
    · exact hacked.ite hacked.dropShoot

theorem startMove {a r new version} : Canonical (Machine.startMove s a r new version) := by
  unfold Machine.startMove
  dsimp only
  split
  · exact h.startShoot.modShoot.finishMigration.ite h.startShoot.modShoot
  · exact h.startShoot.modShoot

theorem moveVersion {a vpn new} : Canonical (Machine.moveVersion s a vpn new) := by
  unfold Machine.moveVersion
  split
  · exact h
  · exact h.ite h.same.startMove

theorem execPageMigration {a va frame} : Kept (Machine.execPageMigration a va frame s) := by
  unfold Machine.execPageMigration
  refine Kept.next ?_
  split
  · exact h
  · split
    · exact h
    · exact h.ite (h.moveVersion.ite (h.ite h.deviceWrite.startMove))

theorem startPeriod {r} : Canonical (Machine.startPeriod s r) := h

theorem beginPeriods {rs n} : Canonical (Machine.beginPeriods rs n s) := by
  induction n generalizing s with
  | zero => exact h
  | succ n ih => exact ih (h.foldl fun ht => ht.startPeriod)

end Canonical

/-! ### Links and lost dies -/

namespace Canonical

variable {s : State} (h : Canonical s)
include h

theorem poisonedForward {e q} : Canonical (Machine.poisonedForward s e q) := h.sendMsg

theorem poisonLine {line} : Canonical (Machine.poisonLine s line) := h.ite h

theorem loseEntry {d e} : Canonical (Machine.loseEntry d s e) := by
  unfold Machine.loseEntry
  extract_lets owned poisoned e1 dropped
  have hpoisoned : Canonical poisoned := h.poisonLine.ite h
  split
  · exact hpoisoned.setEntry.sendPushes.ite hpoisoned.setEntry
  · refine Canonical.ite ?_ (hpoisoned.poisonedForward.setEntry.ite hpoisoned.setEntry)
    split
    · exact hpoisoned.setEntry.modDir
    · split
      · exact hpoisoned.popMsg.setEntry
      · exact (hpoisoned.poisonLine.ite hpoisoned).setEntry
    · split
      · exact hpoisoned.popMsg.setEntry
      · exact (hpoisoned.poisonLine.ite hpoisoned).setEntry
    · exact hpoisoned.setEntry

theorem loseRedirects {d} : Canonical (Machine.loseRedirects d s) := h.foldl (fun h1 => h1.foldl (fun h2 => h2.dropRedirect))

theorem loseLines {d} : Canonical (Machine.loseLines s d) := by
  unfold Machine.loseLines
  extract_lets owned redirected dropped emptied
  have howned : Canonical owned := h.foldl fun ht => ht.loseEntry
  have hemptied : Canonical emptied := howned.loseRedirects.modDir.foldl fun ht => ht.modDie
  exact hemptied.foldl fun ht => ht.settleEntry

theorem loseRequest {d q} : Canonical (Machine.loseRequest d s q) := by
  unfold Machine.loseRequest
  dsimp only
  split
  · exact h
  · exact h.copyReply.ite (h.replyFault.ite h)

theorem loseEngine {d} : Canonical (Machine.loseEngine s d) := h.foldl (fun h1 => h1.loseRequest)

theorem noteLoss {d i} : Canonical (Machine.noteLoss d s i) := by
  unfold Machine.noteLoss
  split
  · exact h
  · exact Canonical.ite h (Canonical.ite h h.noteFault)

theorem loseUnit {d prompters i} : Canonical (Machine.loseUnit d prompters s i) := by
  unfold Machine.loseUnit
  split
  · exact h
  · refine h.ite (?_ : Canonical _).endUnit
    split
    · exact h.recount.ite h
    · exact h

theorem loseCluster {c} : Canonical (Machine.loseCluster s c) := by
  unfold Machine.loseCluster
  extract_lets k placed lost faulted
  have hplaced : Canonical placed := by
    dsimp only [placed]
    split
    · exact h.placeOn
    · exact h
  have hfaulted : Canonical faulted := hplaced.foldl fun ht => by
    split
    · exact ht.faultTransform
    · exact ht
  exact (hfaulted.setCluster (x := { Cluster.reset with cyc := k.cyc }) CanonicalSram.reset).same

theorem loseWalks {d} : Canonical (Machine.loseWalks s d) := h

theorem loseDie {d} : Canonical (Machine.loseDie s d) := by
  unfold Machine.loseDie
  extract_lets marked emptied us noted ended lost left closed
  have hnoted : Canonical noted := h.modDie.loseLines.loseEngine.foldl fun ht => ht.noteLoss
  have hlost : Canonical lost := Canonical.foldl (hnoted.foldl fun ht => ht.loseUnit) fun ht => ht.loseUnit
  have hleft : Canonical left := hlost.foldl fun ht => ht.loseCluster
  exact h.ite hleft.loseWalks.modDie

theorem reportEvent {code arg} : Canonical (Machine.reportEvent s code arg) := h.setMod

theorem execSnoopTimerExpiry {d} : Kept (Machine.execSnoopTimerExpiry d s) := by
  unfold Machine.execSnoopTimerExpiry
  extract_lets x noted
  have hnoted : Canonical noted := h.reportEvent.modDie
  exact Kept.next (h.ite (hnoted.modDie.ite (hnoted.freeWord.modDie.ite hnoted.freeWord.reportEvent.loseDie)))

theorem execLinkTrainingComplete {d} : Kept (Machine.execLinkTrainingComplete d s) := Kept.next (Canonical.ite h h)

end Canonical

end Sys2Proof.Safety
end

section
/-! PROOFS.
The timekeeper, the module, the host port and every instruction keep the canonical form of every memory (O7). -/

-- One proof at a time: the check of the whole text has a limit on memory, which many threads would reach.
set_option Elab.async false

namespace Sys2Proof.Safety

open Sys2Proof.Machine

/-! ### The timekeeper -/

namespace Canonical

variable {s : State} (h : Canonical s)
include h

theorem modTk {f} : Canonical (Machine.modTk s f) := h

theorem strikeDue : Canonical (Machine.strikeDue s) := h

theorem countHubCycles {n} : Canonical (Machine.countHubCycles s n) := h.modHub.beginPeriods

theorem passHubCycles {n} : Canonical (Machine.passHubCycles s n) := h.countHubCycles.modTk.strikeDue

theorem stepTai {tai} : Canonical (Machine.stepTai s tai) := h.modTk.strikeDue

theorem discipline {src offset} : Canonical (Machine.discipline s src offset) := by
  unfold Machine.discipline
  extract_lets locked
  have hlocked : Canonical locked := h.modTk
  exact hlocked.freeWord.modTk.ite hlocked.stepTai

theorem writeTkset {v} : Canonical (Machine.writeTkset s v) := h.stepTai.ite h

theorem latchTai : Canonical (Machine.latchTai s) := h.modTk

theorem writeTkctl {v} : Canonical (Machine.writeTkctl s v) := h.modTk

theorem execDeadlineStrike {li} : Kept (Machine.execDeadlineStrike li s) := by
  unfold Machine.execDeadlineStrike
  refine Kept.next ?_
  split
  · exact h
  · split
    · exact h.modTk.strikeDue.ite h
    · exact h

theorem strikeUnit {li c i} : Canonical (Machine.strikeUnit li c s i) := by
  unfold Machine.strikeUnit
  split
  · exact h
  · exact Canonical.ite h (Canonical.ite h.modUnit.curtainArray (Canonical.ite h.modUnit.endUnit h))

theorem execCurtainMessage {li c} : Kept (Machine.execCurtainMessage li c s) := by
  unfold Machine.execCurtainMessage
  refine Kept.next ?_
  split
  · exact h
  · exact h.ite (h.foldl (fun h6 => h6.strikeUnit)).modLaunch.rebuildOrder

end Canonical

/-! ### The module -/

namespace Canonical

variable {s : State} (h : Canonical s)
include h

omit h in
theorem resetModule : Canonical (Machine.resetModule s) := by
  obtain ⟨hmem, -, hsram⟩ := BringUp.resetMemoryCanonical
  exact ⟨hmem, rfl, hsram⟩

theorem failModule {code} : Canonical (Machine.failModule s code) := h.setMod

theorem writeMreset {v} : Canonical (Machine.writeMreset s v) := resetModule.ite h

theorem writeAttctl {v} : Canonical (Machine.writeAttctl s v) := h.setMod.ite h

theorem execAttestationDone : Kept (Machine.execAttestationDone s) := Kept.next (Canonical.ite h.setMod h)

theorem releaseThrottle : Canonical (Machine.releaseThrottle s) := by
  obtain ⟨hmem, hupdate, hsram⟩ := h
  refine ⟨hmem, hupdate, fun c => ?_⟩
  rw [show (Machine.releaseThrottle s).cluster c = { s.cluster c with throttled := false } from Vector.getElem_map _ c.isLt]
  exact hsram c

theorem readPwrnow : Canonical (Machine.readPwrnow s).2 := h.setMod

theorem mgmtRead {off x} (e : Machine.mgmtRead s off = some x) : Canonical x.2 := by
  unfold Machine.mgmtRead at e
  let p : Word × State → Prop := fun x => Canonical x.2
  dsimp only at e
  refine of_some_ite (p := p) e h fun e => ?_
  refine of_some_ite (p := p) e h fun e => ?_
  refine of_some_ite (p := p) e h fun e => ?_
  refine of_some_ite (p := p) e h.readPwrnow fun e => ?_
  refine of_some_ite (p := p) e h fun e => ?_
  refine of_some_ite (p := p) e h fun e => ?_
  refine of_some_ite (p := p) e h.latchTai fun e => ?_
  refine of_some_ite (p := p) e h fun e => ?_
  refine of_some_ite (p := p) e h fun e => ?_
  refine of_some_ite (p := p) e h fun e => ?_
  refine of_some_ite (p := p) e h fun e => ?_
  refine of_some_ite (p := p) e h fun e => ?_
  refine of_some_ite (p := p) e h fun e => ?_
  refine of_some_ite (p := p) e h fun e => ?_
  refine of_some_dite (p := p) e (fun _ => h) fun e => ?_
  refine of_some_ite (p := p) e h fun e => ?_
  refine of_some_ite (p := p) e h fun e => ?_
  refine of_some_ite (p := p) e h fun e => ?_
  refine of_some_ite (p := p) e h fun e => ?_
  refine of_some_ite (p := p) e h fun e => ?_
  split at e
  · split at e
    · exact Option.some.inj e ▸ h
    · cases e
  · refine of_some_ite (p := p) e h fun e => ?_
    cases e

theorem writeApctl {v} : Canonical (Machine.writeApctl s v) := h

theorem writeXctl {v} : Canonical (Machine.writeXctl s v) := h

theorem writePortStatus {p v} : Canonical (Machine.writePortStatus s p v) := h

theorem writeNonce {lo v} : Canonical (Machine.writeNonce s lo v) := h.ite h.setMod

theorem updateWrite {off : ℕ} {v : Word} : Canonical (s.setMod { s.mod with update := Memory.writeLe s.mod.update off 8 v.toNat }) := by
  obtain ⟨hmem, hupdate, hsram⟩ := h
  exact ⟨hmem, Memory.wf_writeLe off 8 v.toNat hupdate, hsram⟩

theorem mgmtWrite {t off v} (e : Machine.mgmtWrite s off v = some t) : Canonical t := by
  unfold Machine.mgmtWrite at e
  refine of_some_ite e h.writeMreset fun e => ?_
  refine of_some_ite e h.setMod fun e => ?_
  refine of_some_ite e h.writeTkctl fun e => ?_
  refine of_some_ite e h.modTk fun e => ?_
  refine of_some_ite e h.writeTkset fun e => ?_
  refine of_some_ite e h.modHub fun e => ?_
  refine of_some_ite e h.writeApctl fun e => ?_
  refine of_some_ite e h.modHub fun e => ?_
  refine of_some_ite e h.writeXctl fun e => ?_
  refine of_some_dite e (fun _ => h.writePortStatus) fun e => ?_
  refine of_some_ite e h.writeAttctl fun e => ?_
  refine of_some_ite e h.writeNonce fun e => ?_
  refine of_some_ite e h.setMod fun e => ?_
  refine of_some_ite e h.updateWrite fun e => ?_
  refine of_some_ite e h fun e => ?_
  cases e

theorem execRegisterWrite {off v} : Kept (Machine.execRegisterWrite off v s) := by
  cases off with
  | none => exact Kept.next h.modDir
  | some o => exact Kept.next ((h.getD h.mgmtWrite).ite h)

end Canonical

/-! ### The host port -/

namespace Canonical

variable {s : State} (h : Canonical s)
include h

theorem refuseInbound {addr asid} : Canonical (Machine.refuseInbound s addr asid) := h.setMod

theorem inboundPieces {a acc l bs out x} (e : Machine.inboundPieces a acc l bs s out = some x) : Canonical x.1 := by
  induction l generalizing bs s out with
  | nil =>
    rw [← Option.some.inj e]
    exact h
  | cons p l ih =>
    unfold Machine.inboundPieces at e
    split at e
    · cases e
    · next htranslate =>
      dsimp only at e
      have ht := h.feTranslate htranslate
      split at e
      all_goals
        split at e
        · exact ih ht e
        · cases e

theorem apertureAccess {a off bs acc x} (e : Machine.apertureAccess s a off bs acc = some x) : Canonical x.1 := by
  unfold Machine.apertureAccess at e
  split at e
  · exact h.inboundPieces e
  · cases e

theorem modInWrite {id f} : Canonical (Machine.modInWrite s id f) := h

theorem admitWrite {w} : Canonical (Machine.admitWrite s w) := h.ite (h.budgetTake.modInWrite.ite h.budgetRefuse)

theorem releaseRoute {id n} : Canonical (Machine.releaseRoute s id n) := by
  unfold Machine.releaseRoute
  dsimp only
  split
  · exact h
  · split
    · exact h.admitWrite
    · split
      · exact h.admitWrite
      · exact h.admitWrite.same.modInWrite.ite h.admitWrite

theorem writePieces {bar addr bs x} (e : Machine.writePieces s bar addr bs = some x) : Canonical x.1 := by
  unfold Machine.writePieces at e
  split at e
  · split at e
    · exact Option.some.inj e ▸ h
    · cases e
  · split at e
    · split at e
      · exact Option.some.inj e ▸ h
      · cases e
    · obtain ⟨y, hy, rfl⟩ := Option.map_eq_some_iff.mp e
      exact h.apertureAccess hy

theorem acceptWrite {w} : Canonical (Machine.acceptWrite s w) := by
  unfold Machine.acceptWrite
  dsimp only
  refine (h.modHub.foldl (fun h1 => ?_)).foldl (fun h7 => h7.releaseRoute)
  split
  · exact h1.touchDie
  · exact h1

theorem execInboundWrite {bar addr data ro ido ep requester} : Kept (Machine.execInboundWrite bar addr data ro ido ep requester s) := by
  unfold Machine.execInboundWrite
  extract_lets small
  refine Kept.next (h.ite ?_)
  split
  · exact h.refuseInbound
  · next hpieces =>
    have ht := h.writePieces hpieces
    extract_lets m counted
    have hcounted : Canonical counted := ht.setMod.ite ht
    exact hcounted.ite hcounted.newReq.acceptWrite

theorem execRouteRelease {id n} : Kept (Machine.execRouteRelease id n s) := Kept.next h.releaseRoute

theorem inboundSync {a q x} (e : Machine.inboundSync s a q = .ok x) : Canonical x.2 := by
  unfold Machine.inboundSync at e
  dsimp only at e
  split at e
  · cases e
  · split at e
    · cases e
    · rw [← Except.ok.inj e]
      refine Canonical.touchLine ?_
      split
      · exact h.performSync.logFor
      · exact h.performSync

theorem performSyncPiece {t a p} (e : Machine.performSyncPiece s a p = .ok t) : Canonical t := by
  refine h.foldlM (fun ht hpart => ?_) e
  obtain ⟨x, hx, rfl⟩ := exists_of_map_ok hpart
  exact ht.inboundSync hx

theorem performPiece {w t p} (e : Machine.performPiece w s p = .ok t) : Canonical t := by
  unfold Machine.performPiece at e
  extract_lets v at e
  split at e
  · exact Except.ok.inj e ▸ h.getD h.mgmtWrite
  · split at e
    · exact Except.ok.inj e ▸ h.windowWrite
    · split at e
      · exact Except.ok.inj e ▸ h
      · obtain ⟨x, hx, rfl⟩ := exists_of_map_ok e
        have hperformed : Canonical x := by
          split at hx
          · exact h.performSyncPiece hx
          · exact Except.ok.inj hx ▸ h.deviceWrite
        exact hperformed.poisonLine.ite hperformed

theorem keepInbound {w r} : Canonical (Machine.keepInbound s w r) := h.ite h

theorem dropPassed : Canonical (Machine.dropPassed s) := h

theorem execRouteAck {id n} : Kept (Machine.execRouteAck id n s) := by
  unfold Machine.execRouteAck
  refine Kept.next ?_
  split
  · exact h
  · split
    · exact h
    · refine h.ite (h.modInWrite.dropPassed.ite (h.ite ?_))
      extract_lets performed
      split
      · next hdone => exact (h.modInWrite.keepInbound.foldlM (fun ht => ht.performPiece) hdone).dropPassed
      · exact h.stopStray.ite h

omit h in
theorem readPiece {a : BitVec 16} {x y : State × List Byte × Bool} {p : InPiece × Bool} (h : Canonical x.1)
    (e : Machine.readPiece a x p = .ok y) : Canonical y.1 := by
  unfold Machine.readPiece at e
  dsimp only at e
  split at e
  · exact Except.ok.inj e ▸ h
  · split at e
    · refine Canonical.foldlM_of (state := Prod.fst) h (fun ht hpart => ?_) e
      obtain ⟨z, hz, rfl⟩ := exists_of_map_ok hpart
      exact ht.inboundSync hz
    · exact Except.ok.inj e ▸ h

theorem readInbound {r x} (e : Machine.readInbound s r = some (.ok x)) : Canonical x.1 := by
  unfold Machine.readInbound at e
  split at e
  · split at e
    · exact Except.ok.inj (Option.some.inj e) ▸ h
    · cases e
  · split at e
    · split at e
      · obtain ⟨y, hy, hx⟩ := Option.map_eq_some_iff.mp e
        exact Except.ok.inj hx ▸ h.mgmtRead hy
      · cases e
    · obtain ⟨y, hy, hx⟩ := Option.map_eq_some_iff.mp e
      refine Canonical.foldlM_of (state := Prod.fst) ((h.apertureAccess hy).foldl fun ht => ?_) (fun ht => ht.readPiece) hx
      split
      · exact ht.touchDie
      · exact ht

theorem execInboundReadRelease {id} : Kept (Machine.execInboundReadRelease id s) := by
  unfold Machine.execInboundReadRelease
  refine Kept.next ?_
  split
  · exact h
  · next r _ =>
    extract_lets s0 charged taken reply
    have hcharged : Canonical charged := h.ite h.budgetTake
    have htaken : Canonical taken := hcharged.modHub
    have hreply {t c} (ht : Canonical t) : Canonical (reply t c) := ht.modHub
    refine h.ite (h.budgetRefuse.ite ?_)
    split
    · exact hreply htaken.refuseInbound
    · exact h.stopStray.ite h
    · next hread => exact hreply (htaken.readInbound hread)

theorem execOutboundLoadTimeout {req} : Kept (Machine.execOutboundLoadTimeout req s) := by
  unfold Machine.execOutboundLoadTimeout
  dsimp only
  refine Kept.next ?_
  split
  · exact h
  · split
    · split
      · exact h.modHub.poisonArrival
      · exact h
    · exact h

theorem failWrites {bad} : Canonical (Machine.failWrites s bad) := h.modHub.foldl (fun h1 => h1.undelivered)

theorem modPort {p f} : Canonical (Machine.modPort s p f) := h

theorem execOutboundWriteAck {u dest} : Kept (Machine.execOutboundWriteAck u dest s) := Kept.next (Canonical.ite h h)

end Canonical

/-! ### Scalar slots -/

namespace Canonical

variable {s : State} (h : Canonical s)
include h

theorem scalarRR {lat f d a b g i} : Kept (Machine.scalarRR lat f d a b g i s) := h.runSlot (fun h1 => h1.schedScalar.ite h1)

theorem scalarDiv {f d a b g i} : Kept (Machine.scalarDiv f d a b g i s) := h.runSlot (fun h1 => h1.schedScalar.ite h1)

theorem scalarCmp {f p a b g i} : Kept (Machine.scalarCmp f p a b g i s) := h.runSlot (fun h1 => h1.schedPred.ite h1)

theorem predOp {f p a b g i} : Kept (Machine.predOp f p a b g i s) := h.runSlot (fun h1 => h1.schedPred.ite h1)

theorem scalarRI {lat bad f d a i} : Kept (Machine.scalarRI lat bad f d a i s) := h.runSlot (fun h1 => h1.schedScalar)

theorem scalarCmpI {f p a i} : Kept (Machine.scalarCmpI f p a i s) := h.runSlot (fun h1 => h1.schedPred)

end Canonical

/-! ### Integer vector slots -/

namespace Canonical

variable {s : State} (h : Canonical s)
include h

theorem intSlot {useD f d a b} : Kept (Machine.intSlot useD f d a b s) := h.vectorSlot

end Canonical

/-! ### Every instruction -/

namespace Canonical

variable {s : State} (h : Canonical s)
include h

theorem exec {i} : Kept (Machine.exec i s) := by
  unfold Machine.exec
  cases i
  case add | sub | and | or | xor | andn | shl | shr | sar | rol | mul | mulhs | mulhu | mins | minu | maxs | maxu | clz | ctz | popc |
      brev | bswap | sext | zext | addw | subw | mulw =>
    exact h.scalarRR
  case divs | divu | rems | remu => exact h.scalarDiv
  case sel | lix | asnap | stgr => exact h.runSlot (fun h1 => h1.schedScalar)
  case cmpeq | cmpne | cmplts | cmpltu | cmples | cmpleu => exact h.scalarCmp
  case pand | por | pxor | pnot => exact h.predOp
  case movp => exact h.runSlot (fun h1 => h1.schedScalar.ite h1)
  case movtp => exact h.runSlot (fun ht => ht.setUnit.ite ht)
  case addi | andi | ori | xori | shli | shri | sari | muli | li => exact h.scalarRI
  case cmpeqi | cmpltsi | cmpltui => exact h.scalarCmpI
  case ldb | ldbu | ldh | ldhu | ldw | ldwu | ldd => exact h.loadSlot
  case stb | sth | stw | std => exact h.storeSlot
  case ldro => exact h.execLdro
  case ldacq => exact h.execLdacq
  case strel => exact h.execStrel
  case pfl2 => exact h.execPfl2
  case br | brn | call => exact h.relTransfer
  case jr | callr => exact h.regTransfer
  case loop | loopi | endseg | stgp | trap | brk | nops | nop | await | qbnd | twait | talloc | tfree | rbseed =>
    exact h.runSlot (fun h1 => h1)
  case halt | curtdone => exact h.runSlotW (fun h1 => h1.haltWait) (fun h2 => h2.completeUnit)
  case vadd | vsub | vmul | vfma | vfms | vdiv | vsqrt | vmin | vmax | vcmpeq | vcmplt | vcmple | vabs | vneg | vsel | vclass | vaddF64 |
      vsubF64 | vmulF64 | vfmaF64 | vfmsF64 | vdivF64 | vsqrtF64 | vminF64 | vmaxF64 | vcmpeqF64 | vcmpltF64 | vcmpleF64 | vabsF64 |
      vnegF64 | vselF64 | vclassF64 =>
    exact h.fpSlot
  case viadd | visub | vimul | vimad | vand | vor | vxor | vshl | vshr | vsar | vimin | vimax | vicmpeq | vicmplt | viadds =>
    exact h.intSlot
  case vperm | vmov | vred | viota | vsplat => exact h.vectorSlot
  case vbcst => exact h.runSlot (fun h1 => h1.noteVector.schedule)
  case vcvt => exact h.execVcvt
  case vtrans => exact h.execVtrans
  case vldt => exact h.execVldt
  case vstt => exact h.execVstt
  case vldg => exact h.execVldg
  case vstg => exact h.execVstg
  case vqrd => exact h.execVqrd
  case vpop => exact h.execVpop
  case vpush => exact h.execVpush
  case vext => exact h.execVext
  case awld | astrm | aext | aout | aclr => exact h.arraySlot
  case achk => exact h.runSlot (fun h1 => h1.schedPred.modArray.endStream.ite h1.schedPred.modArray)
  case asetl | aseed | amode | agen | azone => exact h.cfgSlot
  case cpy | cpyo | cpyt | gath | scat | bpf | qcvt | dqcvt | nmpk | nmup | publ | xpose => exact h.copySlot
  case cfol => exact h.runSlot (fun h1 => h1.modCluster)
  case cabt => exact h.runSlot (fun h1 => h1.abandonAll)
  case aadd | aand | aor | axor | amins | aminu | amaxs | amaxu | axchg | acas | afadd32 | afadd64 => exact h.atomicSlot
  case barinit | syncq => exact h.runSlotW (fun h1 => h1.syncWait) (fun h2 => h2.costsTake.same.issueSync)
  case barrive | barriveJoin => exact h.arriveSlot
  case barwait => exact h.execBarwait
  case baraw => exact h.runSlotW (fun h1 => h1.syncWait) (fun h2 => h2.costsTake.same.setUnit.issueSync)
  case fence => exact h.execFence
  case ared => exact h.execAred
  case csrr | csrw | csrs | csrc => exact h.csrSlot
  case bankacq => exact h.runSlotW (fun h1 => h1.parkUnit.ite h1) (fun h2 => h2.modCluster)
  case bankrel => exact h.runSlot (fun h1 => h1.modCluster.releaseBanks)
  case ringadv => exact h.execRingadv
  case ringcnt => exact h.execRingcnt
  case stgw => exact h.runSlot (fun h1 => h1.modArray.ite h1)
  case valsetArr | valset => exact h.valsetSlot
  case frd => exact h.onHeld (fun h1 => h1.schedScalar)
  case fwr => exact h.onHeld (fun h1 => h1.writeElement)
  case fwrAdvance => exact h.execFwrAdvance
  case fwrAbandonCommand => exact h.execFwrAbandonCommand
  case fwrCancelPending => exact h.execFwrCancelPending
  case fresume => exact h.execFresume
  case fkill => exact h.onHeld (fun h1 => h1.setKc.killUnit)
  case farrive => exact h.execFarrive
  case fnext => exact h.execFnext
  case fstep => exact h.execFstep
  case repmark => exact h.execRepmark
  case l1flush => exact h.runSlot (fun h1 => h1.ite h1.startL1)
  case l1inv => exact h.runSlot (fun h1 => h1.startL1)
  case tlbiAll | tlbiRange => exact h.tlbiSlot
  case capdrop => exact h.onHeld (fun h1 => h1.dropKc)
  case annulledBundleIssue => exact h.execAnnulledBundleIssue
  case pendingWriteVisible => exact h.execPendingWriteVisible
  case loadDataArrival => exact h.execLoadDataArrival
  case holdLineRaise => exact h.execHoldLineRaise
  case afterIssueFreeze => exact h.execAfterIssueFreeze
  case dieLostFreeze => exact h.execDieLostFreeze
  case prompterFaultPolicy => exact h.execPrompterFaultPolicy
  case restartableReexecution => exact h.execRestartableReexecution
  case preemptionRequest => exact Kept.next h.requestPreempt
  case preemptPark => exact h.execPreemptPark
  case segmentSwitch => exact Kept.next h.beginSwitch.endSwitch
  case unitStart => exact h.execUnitStart
  case wingsLoad => exact h.execWingsLoad
  case wingsSwap => exact h.execWingsSwap
  case weightClearDone => exact Kept.next h.clearDone
  case rbStep => exact Kept.next h
  case l1OpComplete => exact h.execL1OpComplete
  case copyCommandStart => exact h.execCopyCommandStart
  case copyCommandComplete => exact h.execCopyCommandComplete
  case streamSlabTransfer => exact h.execStreamSlabTransfer
  case copyEngineFault => exact h.execCopyEngineFault
  case publCount => exact h.execPublCount
  case flipNotice => exact h.execFlipNotice
  case flipNoticeAck => exact h.execFlipNoticeAck
  case valsetPerform => exact h.execValsetPerform
  case arrayCommandStart => exact Kept.next (h.startHead.ite h)
  case awldComplete => exact Kept.next (h.awldEnd.ite h)
  case vectorLatch => exact Kept.next (h.latchNext.ite h)
  case checkpointCopy => exact Kept.next (h.copyCheckpoint.ite h)
  case emitPublish => exact Kept.next (h.emitEnd.ite h)
  case aoutPublish => exact Kept.next (h.aoutEnd.ite h)
  case aclrComplete => exact Kept.next (h.aclrEnd.ite h)
  case chainPartialSums => exact h.execChainPartialSums
  case chainEnd => exact h.execChainEnd
  case streamPoison => exact h.execStreamPoison
  case syncEngineOperation => exact h.execSyncEngineOperation
  case syncReply => exact h.execSyncReply
  case retryReceived => exact h.execRetryReceived
  case pageMigration => exact h.execPageMigration
  case bufferRegistration | inboundRead => exact Kept.next (h.ite h)
  case gets => exact h.execGets
  case getm => exact h.execGetm
  case upg => exact h.execUpg
  case putm => exact h.execPutm
  case puto => exact h.execPuto
  case pute => exact h.execPute
  case puts => exact h.execPuts
  case dataS => exact h.execDataS
  case dataE => exact h.execDataE
  case dataM => exact h.execDataM
  case datanf => exact h.execDatanf
  case upgack => exact h.execUpgack
  case inv => exact h.execInv
  case fwdgets => exact h.execFwdgets
  case fwdgetsnf => exact h.execFwdgetsnf
  case fwdgetm => exact h.execFwdgetm
  case fwddata => exact h.execFwddata
  case invack => exact h.execInvack
  case fwdack => exact h.execFwdack
  case putack => exact h.execPutack
  case putackstale => exact h.execPutackstale
  case push => exact h.execPush
  case rdset => exact h.execRdset
  case rdinv => exact h.execRdinv
  case rdack => exact h.execRdack
  case memoryFill => exact h.execMemoryFill
  case redirectedRead => exact h.execRedirectedRead
  case circuitSend => exact Kept.next h.circuitCycle
  case snoopTimerExpiry => exact h.execSnoopTimerExpiry
  case linkTrainingComplete => exact h.execLinkTrainingComplete
  case linkTrainFail => exact Kept.next (h.ite h.reportEvent.loseDie)
  case translationWalk => exact Kept.next (h.ite h.requestWalk)
  case walkComplete => exact h.execWalkComplete
  case replayEventDelivery => exact h.execReplayEventDelivery
  case gaddrWrite => exact Kept.next h.writeGaddr
  case cue => exact Kept.next h.performCue
  case transformDispatch => exact h.execTransformDispatch
  case phaseBoundaryRelease => exact h.execPhaseBoundaryRelease
  case launchReleaseDone => exact h.execLaunchReleaseDone
  case completionTarget => exact h.execCompletionTarget
  case cancelUnit | cancelLaunch | cancelGraph | cancelPhase | cancelJob => exact Kept.next h.performCancel
  case budgetPeriodStart => exact Kept.next h.startPeriod
  case deadlineStrike => exact h.execDeadlineStrike
  case curtainMessage => exact h.execCurtainMessage
  case diversion => exact h.execDiversion
  case curtainNoentComplete => exact h.execCurtainNoentComplete
  case curtainOverrun => exact h.execCurtainOverrun
  case ptpMessage | ppsInput | ptmResponse => exact Kept.next (h.discipline.ite h)
  case holdoverEntry => exact Kept.next (h.ite h.modTk)
  case tkset => exact Kept.next h.writeTkset
  case tktaisRead => exact Kept.next h.latchTai
  case inboundWrite => exact h.execInboundWrite
  case routeRelease => exact h.execRouteRelease
  case routeAck => exact h.execRouteAck
  case inboundReadRelease => exact h.execInboundReadRelease
  case apctlWrite => exact Kept.next h.writeApctl
  case xctlWrite => exact Kept.next h.writeXctl
  case outboundLoadTimeout => exact h.execOutboundLoadTimeout
  case hostLinkDown => exact Kept.next h.setMod.failWrites
  case estalPortTrained | flitRetry => exact Kept.next h.modPort
  case estalPortStatusWrite => exact Kept.next h.writePortStatus
  case moduleReset => exact Kept.next resetModule
  case mreset => exact Kept.next h.writeMreset
  case attestationGo => exact Kept.next h.writeAttctl
  case attestationDone => exact h.execAttestationDone
  case powerThrottle => exact Kept.next (h.releaseThrottle.setMod.modCluster.ite h.releaseThrottle.setMod)
  case thermalTrip | powerStageFault | hubDieFault => exact Kept.next h.failModule
  case registerWrite => exact h.execRegisterWrite
  case estalLinkDown => exact Kept.next (h.modPort.ite h.modPort.failWrites)
  case hostPortTrained | correctableError => exact Kept.next h.setMod
  case pushAcknowledgement => exact h.execPushAcknowledgement
  case memoryWriteDone => exact h.execMemoryWriteDone
  case shootDown => exact h.execShootDown
  case shootDownAck => exact h.execShootDownAck
  case outboundWriteAck => exact h.execOutboundWriteAck
  case ideFailure => exact Kept.next h.failWrites
  case pctlWrite => exact Kept.next h.writePctl

end Canonical

end Sys2Proof.Safety
end

section
/-! PROOFS.
The issue of a bundle, the cycle of a core, the events and the step keep the canonical form of every memory (O7). -/

-- One proof at a time: the check of the whole text has a limit on memory, which many threads would reach.
set_option Elab.async false

namespace Sys2Proof.Safety

open Sys2Proof.Machine

/-! ### The issue of a bundle -/

namespace Canonical

variable {s : State} (h : Canonical s)
include h

theorem runOp {o} : Kept (Machine.runOp s o) := by
  unfold Machine.runOp
  split
  · exact h.exec
  · exact Kept.next h.noteResult

theorem stash {me n} : Canonical (Machine.stash s me n).1 := by
  unfold Machine.stash
  split
  · exact h
  · exact h

theorem unstash {me n l} : Canonical (Machine.unstash s me n l) := by
  unfold Machine.unstash
  split
  · exact Canonical.ite h h
  · exact h

theorem runOps {me hd many n ops l} : Gives CanonicalFolded (Machine.runOps me hd many n l ops s) := by
  induction ops generalizing l s with
  | nil => exact h.unstash.ite h
  | cons o ops ih =>
    unfold Machine.runOps
    split
    · exact h
    · split
      · next hrun =>
        have hran := h.setIssue.runOp.next_of hrun
        split
        · exact Gives.ite (ih hran.stash) (ih hran)
        · exact hran
      · exact trivial
      · exact trivial

theorem freezeBundle {uid mask slot code addr} : Canonical (Machine.freezeBundle s uid mask slot code addr) := h.setIssue.freezeAtIssue

theorem whileWaiting {me hd u l} : Canonical (Machine.whileWaiting s me hd u l) := by
  unfold Machine.whileWaiting
  refine Canonical.modUnit (h.foldl fun ht => ?_)
  extract_lets again
  have hagain : Canonical again := by
    dsimp only [again]
    split
    · next hrun =>
      have hran := ht.setIssue.runOp.next_of hrun
      split
      · exact hran
      · exact hran
      · exact ht
    · exact ht
  split
  · exact hagain
  · split
    · exact ht.setIssue.fillQueue
    · exact ht
  · exact hagain
  · exact ht

theorem keepDeferred {t} : Canonical (Machine.keepDeferred s t) := h

theorem afterStop {t me r} : Canonical (Machine.afterStop s me t r) := by
  unfold Machine.afterStop
  split
  · exact h.setIssue.fillQueue
  · exact h.keepDeferred
  · exact h

theorem afterIssue {uid h'} : Canonical (Machine.afterIssue s uid h') := by
  unfold Machine.afterIssue
  split
  · exact h
  · split
    · exact h
    · exact h.leaveWait

theorem flushBehind {uid} : Canonical (Machine.flushBehind s uid) := by
  unfold Machine.flushBehind
  split
  · split
    · exact h.startRelease.ite h
    · exact h.startRelease.ite h
    · exact h
  · exact h

theorem settleRereads {pre uid ops} : Canonical (Machine.settleRereads pre s uid ops) := by
  unfold Machine.settleRereads
  split
  · exact h
  · exact Canonical.ite h.setUnit h

omit h in
theorem commit {pre s : State} {uid : Uid} {u : UnitSt} {hd : Option Header} {ops : List SlotOp} (hpre : Canonical pre)
    (h : Canonical s) : Gives CanonicalTried (Machine.commit pre s uid u hd ops) := by
  unfold Machine.commit
  extract_lets many
  split
  · exact trivial
  · exact trivial
  · next hran =>
    have ht := h.setIssue.runOps.next_of hran
    split
    · exact hpre.freezeBundle
    · exact hpre.afterStop
    · exact hpre.afterStop
    · exact Canonical.afterIssue ht
  · next t hran =>
    have ht : Canonical t := h.setIssue.runOps.next_of hran
    refine Gives.next ?_
    split
    · exact (ht.settleRereads.flushBehind.ite ht).afterIssue
    · exact hpre

theorem stand {uid u l x} (e : Machine.stand s uid u l = some x) : CanonicalTried x := by
  unfold Machine.stand at e
  extract_lets pass excess left x y v at e
  split at e
  · exact Option.some.inj e ▸ h.freezeBundle
  · split at e
    · cases e
    · exact Option.some.inj e ▸ h.setUnit

theorem tryIssue {uid u bs} : Gives CanonicalTried (Machine.tryIssue s uid u bs) := by
  unfold Machine.tryIssue
  extract_lets ws hd ops entered
  refine Gives.ite h.freezeBundle ?_
  have hentered : Canonical entered := h.setUnit
  split
  · exact trivial
  · exact trivial
  · split
    · exact h.freezeBundle
    · split
      · exact hentered.whileWaiting
      · exact hentered.whileWaiting
      · refine Gives.ite h.freezeBundle (Gives.ite trivial ?_)
        split
        · next hstand => exact h.stand hstand
        · exact h.commit hentered

end Canonical

/-! ### The cycle of a core -/

namespace Canonical

variable {s : State} (h : Canonical s)
include h

theorem coreLoads {c} : Canonical (Machine.coreLoads s c) := by
  unfold Machine.coreLoads
  refine h.foldl (fun h1 => ?_)
  split
  · exact h1.tickLoads.ite h1
  · exact h1

theorem tickWindow {uid} : Canonical (Machine.tickWindow s uid) := by
  unfold Machine.tickWindow
  split
  · split
    · exact h.overrun
    · exact h
    · exact h
  · exact h

theorem passTime {uid} : Canonical (Machine.passTime s uid) := by
  unfold Machine.passTime
  split
  · exact h.setUnit.tickWindow.ite h
  · exact h

theorem tickBudget {uid} : Canonical (Machine.tickBudget s uid) := by
  unfold Machine.tickBudget
  split
  · exact Canonical.ite (Canonical.ite h.setUnit.overrun h) h
  · exact h

theorem waitCycle {uid k} : Canonical (Machine.waitCycle s uid k) := h

theorem idleCycle {uid k} : Canonical (Machine.idleCycle s uid k) := h

theorem afterBoundary {uid} : Canonical (Machine.afterBoundary s uid).1 := h

theorem waitOrGive {uid k} : Canonical (Machine.waitOrGive s uid k).1 := by
  unfold Machine.waitOrGive
  split
  · exact h
  · split
    · exact h
    · split
      · exact h.takePoint.afterBoundary
      · split
        · exact h.waitCycle
        · exact h.idleCycle

theorem bundleCycle {uid u bs} : Gives (fun x => Canonical x.1) (Machine.bundleCycle s uid u bs) := by
  unfold Machine.bundleCycle
  refine Gives.ite h.takePoint (Gives.ite h.issueAnnulled ?_)
  split
  · exact trivial
  · exact trivial
  · next htry =>
    have ht := h.tryIssue.next_of htry
    split
    · exact ht
    · exact ht
    · exact Canonical.waitOrGive ht
    · exact Canonical.raiseHold ht
    · exact ht
    · exact h.waitCycle

theorem fetchCycle {uid u} : Gives (fun x => Canonical x.1) (Machine.fetchCycle s uid u) := by
  unfold Machine.fetchCycle
  split
  · next hfetch => exact (h.fetchBundle.snd_of hfetch).requestWalk.raiseHold
  · next hfetch => exact (h.fetchBundle.snd_of hfetch).freezeBundle
  · next hfetch => exact (h.fetchBundle.snd_of hfetch).bundleCycle

theorem boundaryCycle {uid u} : Gives (fun x => Canonical x.1) (Machine.boundaryCycle s uid u) := by
  unfold Machine.boundaryCycle
  split
  · next hpassed => exact h.boundary.fst_of hpassed
  · next hpassed =>
    have ht := h.boundary.fst_of hpassed
    split
    · exact ht
    · exact Gives.ite ht.takePoint ht.fetchCycle

theorem unitCycle {uid} : Gives (fun x => Canonical x.1) (Machine.unitCycle s uid) := by
  unfold Machine.unitCycle
  split
  · exact h
  · next u _ =>
    extract_lets u' settled
    have hsettled : Canonical settled := h.setUnit
    refine Gives.ite hsettled.raiseHold (Gives.ite ?_ (Gives.ite hsettled.setUnit hsettled.boundaryCycle))
    split
    · next hpassed => exact hsettled.boundary.fst_of hpassed
    · next hpassed => exact (hsettled.boundary.fst_of hpassed).waitOrGive

theorem clearCycle {c} : Canonical (Machine.clearCycle s c) := h.clearDone.ite h.clearTick

theorem takeCounts {c uid} : Canonical (Machine.takeCounts s c uid) := by
  unfold Machine.takeCounts
  split
  · exact h.modCluster
  · exact h

theorem endCycle {c uid kind} : Canonical (Machine.endCycle s c uid kind) := by
  unfold Machine.endCycle
  extract_lets loaded cleared released followed held budgeted preempted
  have hloaded : Canonical loaded := by
    dsimp only [loaded]
    split
    · exact h.coreLoads.passTime.ite h.coreLoads
    · exact h.coreLoads
  have hcleared : Canonical cleared := hloaded.ite hloaded.clearCycle
  have hreleased : Canonical released := hcleared.performReleases
  have hfollowed : Canonical followed := hreleased.deliverFollows.ite hreleased
  have hheld : Canonical held := (hfollowed.ite hfollowed.releaseBanks).modCluster
  have hbudgeted : Canonical budgeted := by
    dsimp only [budgeted]
    split
    · exact hheld.tickBudget
    · exact hheld
  have hpreempted : Canonical preempted := hbudgeted.requestPreempt
  exact hpreempted.beginSwitch.switchTick.ite hpreempted

theorem runCycle {c uid} : Kept (Machine.runCycle s c uid) := by
  unfold Machine.runCycle
  refine Kept.ite h.raiseHold.endCycle (Kept.ite h.raiseHold.endCycle ?_)
  split
  · exact trivial
  · exact trivial
  · next hcycle =>
    have ht := h.takeCounts.arrayPre.unitCycle.next_of hcycle
    refine Kept.ite ?_ ?_
    · exact Canonical.deliverFollows ht |>.arrayPost.endCycle
    · split
      · exact trivial
      · exact trivial
      · next hagain =>
        have ht' := h.takeCounts.unitCycle.next_of hagain
        exact (ht'.ite h.raiseHold).endCycle

theorem coreCycle {c} : Kept (Machine.coreCycle s c) := by
  unfold Machine.coreCycle
  extract_lets counted switched
  have hcounted : Canonical counted := h.modCluster
  have hswitched : Canonical switched := hcounted.beginSwitch.endSwitch
  split
  · exact hswitched.runCycle
  · exact hswitched.switchTick.endCycle

theorem tickDie {d} : Canonical (Machine.tickDie s d) := by
  unfold Machine.tickDie
  extract_lets n moved started
  have hmoved : Canonical moved := h.modDie.circuitCycle
  have hstarted : Canonical started := hmoved.startPeriod.ite hmoved
  exact hstarted.ite hstarted.startPeriod

theorem dieCycle {c} : Canonical (Machine.dieCycle s c) := by
  unfold Machine.dieCycle
  extract_lets first ticked
  have hticked : Canonical ticked := h.tickDie.ite h
  exact (hticked.foldl fun ht => ht.tickDie).ite hticked

theorem coreStep {c} : Kept (Machine.coreStep s c) := by
  unfold Machine.coreStep
  refine Kept.ite h ?_
  split
  · next hcycle => exact (h.dieCycle.coreCycle.next_of hcycle).setIssue
  · exact trivial
  · exact trivial

end Canonical

/-! ### Events -/

/-- An event that keeps the canonical form. -/
def Keeps (e : Event) : Prop := ∀ s, Canonical s → Kept (e s)

/-- Events that keep the canonical form. -/
def AllKeep (l : List Event) : Prop := ∀ e ∈ l, Keeps e

theorem AllKeep.nil : AllKeep [] := fun _ he => absurd he List.not_mem_nil

theorem AllKeep.cons {e : Event} {l : List Event} (he : Keeps e) (hl : AllKeep l := by exact AllKeep.nil) : AllKeep (e :: l) :=
  fun x hx => by
  rcases List.mem_cons.mp hx with rfl | hx
  · exact he
  · exact hl x hx

theorem AllKeep.append {l m : List Event} (hl : AllKeep l) (hm : AllKeep m) : AllKeep (l ++ m) := fun e he =>
  (List.mem_append.mp he).elim (hl e) (hm e)

theorem AllKeep.ite {c : Prop} [Decidable c] {l m : List Event} (hl : AllKeep l) (hm : AllKeep m) : AllKeep (if c then l else m) := by
  split
  · exact hl
  · exact hm

theorem AllKeep.map {α : Type} {f : α → Event} {l : List α} (hf : ∀ x, Keeps (f x)) : AllKeep (l.map f) := fun _ hx => by
  obtain ⟨a, -, rfl⟩ := List.mem_map.mp hx
  exact hf a

theorem AllKeep.flatMap {α : Type} {f : α → List Event} {l : List α} (hf : ∀ x, AllKeep (f x)) :
    AllKeep (l.flatMap f) := fun _ hx => by
  obtain ⟨a, -, ha⟩ := List.mem_flatMap.mp hx
  exact hf a _ ha

theorem AllKeep.filterMap {α : Type} {f : α → Option Event} {l : List α} (hf : ∀ x e, f x = some e → Keeps e) :
    AllKeep (l.filterMap f) := fun _ hx => by
  obtain ⟨a, -, ha⟩ := List.mem_filterMap.mp hx
  exact hf a _ ha

theorem Keeps.ite {c : Prop} [Decidable c] {e e' : Event} (he : Keeps e) (he' : Keeps e') : Keeps (if c then e else e') := by
  split
  · exact he
  · exact he'

theorem messageEvents_keep (m : Msg) : AllKeep (messageEvents m) := by
  unfold messageEvents
  split
  · exact .cons (fun _ h => h.execRedirectedRead) (.cons fun _ h => h.execGets)
  · exact .cons fun _ h => h.execGetm
  · exact .cons fun _ h => h.execUpg
  · exact .cons fun _ h => h.execPutm
  · exact .cons fun _ h => h.execPuto
  · exact .cons fun _ h => h.execPute
  · exact .cons fun _ h => h.execPuts
  · exact .cons fun _ h => h.execDataS
  · exact .cons fun _ h => h.execDataE
  · exact .cons fun _ h => h.execDataM
  · exact .cons fun _ h => h.execDatanf
  · exact .cons fun _ h => h.execUpgack
  · exact .cons fun _ h => h.execInv
  · exact .cons fun _ h => h.execFwdgets
  · exact .cons fun _ h => h.execFwdgetsnf
  · exact .cons fun _ h => h.execFwdgetm
  · exact .cons fun _ h => h.execFwddata
  · exact .cons fun _ h => h.execInvack
  · exact .cons fun _ h => h.execFwdack
  · exact .cons fun _ h => h.execPutack
  · exact .cons fun _ h => h.execPutackstale
  · exact .cons fun _ h => h.execPush
  · exact .cons fun _ h => h.execPushAcknowledgement
  · exact .cons fun _ h => h.execRdset
  · exact .cons fun _ h => h.execRdinv
  · exact .cons fun _ h => h.execRdack

theorem directoryEvents_keep (s : State) : AllKeep (directoryEvents s) :=
  .append (.flatMap messageEvents_keep) (.map fun _ => Keeps.ite (fun _ h => h.execMemoryFill) fun _ h => h.execMemoryWriteDone)

theorem walkerEvents_keep (s : State) : AllKeep (walkerEvents s) := by
  have hwalks : AllKeep ((s.hub.walk.walks.filter fun x => x.fail.isNone).map fun x => execWalkComplete x.id) :=
    .map fun _ _ h => h.execWalkComplete
  have hnotices : AllKeep (s.hub.walk.notices.map fun x => execFlipNotice x.1 x.2) := .map fun _ _ h => h.execFlipNotice
  exact ((((hwalks.append (.flatMap fun _ => .map fun _ => Keeps.ite (fun _ h => h.execShootDownAck) fun _ h => h.execShootDown)).append
    (.map fun _ _ h => h.execFlipNoticeAck)).append hnotices).append (AllKeep.nil.ite (.cons fun _ h => h.execValsetPerform)))

theorem dieEvents_keep (s : State) (d : DieNo) : AllKeep (dieEvents s d) :=
  AllKeep.nil.ite (((AllKeep.nil.ite (.cons (fun _ h => h.execRetryReceived) (.cons fun _ h => h.execSyncReply))).append
    (AllKeep.nil.ite (.cons fun _ h => h.execSyncEngineOperation))).append
    (AllKeep.ite (.cons fun _ h => h.execLinkTrainingComplete) .nil))

theorem engineEvents_keep (s : State) (c : ClusterNo) (e : BitVec 1) : AllKeep (engineEvents s c e) :=
  AllKeep.nil.ite (.cons (fun _ h => h.execCopyCommandStart) (.cons (fun _ h => h.execStreamSlabTransfer)
    (.cons (fun _ h => h.execCopyCommandComplete) (.cons fun _ h => h.execPublCount))))

theorem clusterEvents_keep (s : State) (c : ClusterNo) : AllKeep (clusterEvents s c) := by
  refine .append (.append (.append (.append (.append (engineEvents_keep s c 0) (engineEvents_keep s c 1)) ?_) ?_) ?_) ?_
  · exact AllKeep.ite (.cons fun _ h => h.execL1OpComplete) .nil
  · exact AllKeep.nil.ite (.cons fun _ h => h.execTransformDispatch)
  · exact AllKeep.ite (.cons fun _ h => h.execWingsSwap) .nil
  · split
    · exact .nil
    · exact AllKeep.ite (.cons fun _ h => h.execChainEnd) (.cons fun _ h => h.execChainPartialSums)

theorem unitEvents_keep (s : State) (uid : Uid) (u : UnitSt) : AllKeep (unitEvents s uid u) := by
  refine .append (.append (.append (.append ?_ ?_) ?_) ?_) ?_
  · refine .filterMap fun e x hx => ?_
    split at hx
    · split at hx
      · exact Option.some.inj hx ▸ fun _ h => h.execLoadDataArrival
      · cases hx
    · cases hx
  · exact AllKeep.ite (.cons fun _ h => h.execAfterIssueFreeze) .nil
  · exact AllKeep.ite (.cons fun _ h => h.execPrompterFaultPolicy) .nil
  · exact AllKeep.ite (.map fun _ _ h => h.execRestartableReexecution) .nil
  · split
    · exact AllKeep.ite (.cons (fun _ h => h.execReplayEventDelivery) (.cons (fun _ h => h.execReplayEventDelivery)
        (.cons (fun _ h => h.execReplayEventDelivery) (.cons fun _ h => h.execReplayEventDelivery)))) .nil
    · exact .nil

theorem launchEvents_keep (s : State) (li : ℕ) (l : Launch) : AllKeep (launchEvents s li l) :=
  .append (.append (.map fun _ _ h => h.execWingsLoad)
    (AllKeep.ite (.cons fun _ h => h.execLaunchReleaseDone) (AllKeep.ite (.cons fun _ h => h.execCompletionTarget) .nil)))
    (AllKeep.ite (.map fun _ _ h => h.execCurtainMessage) .nil)

theorem portEvents_keep (s : State) : AllKeep (portEvents s) := by
  refine .append (.append (.append ?_ ?_) ?_) ?_
  · refine .flatMap fun w => .map fun n => ?_
    split
    · exact Keeps.ite (fun _ h => h.execRouteRelease) fun _ h => h.execRouteAck
    · exact fun _ h => h.execRouteAck
  · exact .map fun _ _ h => h.execInboundReadRelease
  · exact .map fun _ _ h => h.execOutboundWriteAck
  · exact AllKeep.ite (.cons fun _ h => h.execAttestationDone) .nil

theorem graphEvents_keep (s : State) : AllKeep (graphEvents s) := .filterMap fun g e he => by
  dsimp only at he
  split at he
  · exact Option.some.inj he ▸ fun _ h => h.execPhaseBoundaryRelease
  · cases he

theorem cancelEvents_keep (s : State) : AllKeep (cancelEvents s) := .filterMap fun k e he => by
  obtain ⟨c, -, rfl⟩ := Option.map_eq_some_iff.mp he
  exact fun _ h => Kept.next h.performCancel

theorem candidates_keep (s : State) : AllKeep (candidates s) := by
  refine .append (.append (.append (.append (.append (.append (.append (.append ?_ ?_) ?_) ?_) ?_) ?_) ?_) ?_) ?_
  · exact walkerEvents_keep s
  · exact directoryEvents_keep s
  · exact .flatMap (dieEvents_keep s)
  · refine .flatMap fun i => ?_
    split
    · exact unitEvents_keep s i _
    · exact .nil
  · exact .flatMap (clusterEvents_keep s)
  · refine .flatMap fun i => ?_
    split
    · exact launchEvents_keep s i _
    · exact .nil
  · exact graphEvents_keep s
  · exact cancelEvents_keep s
  · exact portEvents_keep s

namespace Canonical

variable {s : State} (h : Canonical s)
include h

theorem effectOf {t e} (he : Keeps e) (ht : Machine.effectOf s e = some t) : Canonical t := by
  have hkept := he s h
  unfold Machine.effectOf at ht
  split at ht
  · next hx =>
    rw [hx] at hkept
    split at ht
    · cases ht
    · exact Option.some.inj ht ▸ hkept
  · cases ht

theorem firstEffect {t n} (ht : Machine.firstEffect s n = some t) : Canonical t := by
  unfold Machine.firstEffect at ht
  dsimp only at ht
  split at ht
  · cases ht
  · obtain ⟨e, he, het⟩ := List.exists_of_findSome?_eq_some ht
    exact h.effectOf (candidates_keep s e (List.mem_rotate.mp he)) het

theorem passClocks {c} : Canonical (Machine.passClocks s c) := h.passHubCycles.ite h

theorem restLink {d} : Canonical (Machine.restLink s d) := Canonical.ite (Canonical.ite h h) h

theorem restLinks : Canonical (Machine.restLinks s) := h.foldl (fun h1 => h1.restLink)

theorem busyCycle {o} (e : Machine.busyCycle s = some o) : Kept o := by
  obtain ⟨c, -, rfl⟩ := Option.map_eq_some_iff.1 e
  split
  · next hstep => exact (h.coreStep.next_of hstep).passClocks
  · exact h.coreStep

theorem defaultStep : Kept (Machine.defaultStep s) := by
  unfold Machine.defaultStep
  extract_lets turned
  have hturned : Canonical turned := h.same
  clear_value turned
  refine Kept.ite h (Kept.ite ?_ ?_)
  · split
    · next hbusy => exact hturned.busyCycle hbusy
    · split
      · next heffect => exact hturned.firstEffect heffect
      · split
        · exact hturned.execDeadlineStrike
        · exact h.restLinks
  · split
    · next heffect => exact hturned.firstEffect heffect
    · split
      · next hbusy => exact hturned.busyCycle hbusy
      · split
        · exact hturned.execDeadlineStrike
        · exact h.restLinks

theorem settleAll : Canonical (Machine.settleAll s) := h.setIssue.ite h.frontTick.finishSteps.drainRecorders.setIssue

end Canonical

theorem Kept.settled {o : Host.Outcome State Fault Refusal} (ho : Kept o) : Kept (Machine.settled o) := by
  cases o with
  | next t => exact Canonical.settleAll ho
  | fault => exact trivial
  | refused => exact trivial

namespace Canonical

variable {s : State} (h : Canonical s)
include h

theorem takeInput {i} : Kept (Machine.takeInput i s) := by
  unfold Machine.takeInput
  split
  · exact Kept.ite h.exec (Kept.next h)
  · exact h.coreStep
  · exact Kept.next (h.ite h.passHubCycles.restLinks)

theorem scheduled : Kept (Machine.scheduled s) := by
  unfold Machine.scheduled
  split
  · exact h.same.takeInput.settled
  · exact h.defaultStep.settled

end Canonical

/-! ### The step -/

namespace Canonical

variable {s : State} (h : Canonical s)
include h

theorem step : Kept (Machine.step s) := h.scheduled

end Canonical

/-- Settles O7: every memory is written byte by byte, which keeps its form, or made anew. -/
theorem stepKeepsMemoryCanonical : Obligations.StepKeepsMemoryCanonical := by
  unfold Obligations.StepKeepsMemoryCanonical
  intro s t h hstep
  exact h.step.next_of hstep

end Sys2Proof.Safety
end
